-- ==== Sys2Proof/Word.lean ====
section
/-!
DEFINITION. The word types of the M9 and the plain container types of the model (R5, R6: every register is 32 bits
wide, every structure is little-endian).
-/
namespace Sys2Proof

/-- A byte of any memory of the device. -/
abbrev Byte := BitVec 8

/-- A register of the register space, a shader register, a command word (R6, R190). -/
abbrev Word := BitVec 32

/-- A 64-bit quantity: a page-table entry, a register pair, a SIZE64 value. -/
abbrev DWord := BitVec 64

/-- A finite table by number, as plain data: keys in ascending order, one entry a key; a key that is not listed holds
the table's default, which the reader names. -/
abbrev Tab (α : Type) := List (Nat × α)

end Sys2Proof
end

