-- ==== Sys2Proof/Syntax.lean ====
section
/-!
DEFINITION. The commands of the M9 taken as a block: one constructor of `Instr` per row of spec/opcode_table.json,
with the row's operands. A command is one whole, indivisible step of the part (95_what_each_step_holds.md).
Unit indices are `Fin` types, so that a command names only a unit that exists (Table 1-1).
-/
namespace Sys2Proof

/-- Who makes a register access (R8, R442): each PCIe function, each hart, Yunanos, and the mailbox path. -/
inductive Requester where
  | pf
  | vf (f : Fin 64)
  | hart (h : Fin 8)
  | yns
  | mb
deriving DecidableEq, Repr

/-- The fields of a 64-bit instruction other than its opcode (Table 4-1); the row names the opcode. -/
structure Insn where
  dst : BitVec 8
  src0 : BitVec 8
  src1 : BitVec 8
  src2 : BitVec 8
  pred : BitVec 4
  pneg : Bool
  imm : BitVec 19
deriving DecidableEq, Repr

/-- Floating-point formats that a shader conversion names (R35, R57). -/
inductive FpFmt where
  | fp32 | bf16 | fp16 | e4m3 | e5m2
deriving DecidableEq, Repr

/-- Integer formats that a shader conversion names (R57). -/
inductive IntFmt where
  | i8 | u8 | i16 | u16 | i32 | u32
deriving DecidableEq, Repr

/-- The shader arithmetic that R56 and R57 bind. `h` forms are binary16. `unimpl` is any opcode that the M9 does not
implement, or a word with a reserved field that is not 0 (R91). -/
inductive AluOp where
  | fadd | fsub | fmul | ffma | fdiv | fsqrt | fmin | fmax
  | hadd | hsub | hmul | hfma | hdiv | hsqrt | hmin | hmax
  | cvtFF (src dst : FpFmt) (sat : Bool)
  | cvtFI (src : FpFmt) (dst : IntFmt) (rz : Bool)
  | cvtIF (src : IntFmt) (dst : FpFmt) (sat : Bool)
  | unimpl
deriving DecidableEq, Repr

/-- Width of a load or store in bytes (R132: up to 8 bytes). -/
inductive AccW where
  | b1 | b2 | b4 | b8
deriving DecidableEq, Repr

/-- The atomic operations of R130. -/
inductive AtomOp where
  | add | sub | fadd | smin | smax | umin | umax | and | or | xor | xchg | cas
deriving DecidableEq, Repr

/-- Whose command stream a command row takes its command from: a queue of a context (R182), or a batch slot of Leaven,
which runs a graph buffer on its own fetcher (R219). -/
inductive Fetcher where
  | queue (slot : Fin 64) (q : Fin 16)
  | batch (b : Fin 4)
deriving DecidableEq, Repr

/-- The kinds of event that the energy model counts (R88, R315). -/
inductive EnergyKind where
  | coreCycle | me8Cycle | me16Cycle | operandByte | outElem | tableRead | localAcc | clusterAcc | hbmAcc
  | dmaByte | czByte | tilerOp | composerPixel | linkByte
deriving DecidableEq, Repr

/-- One domain's report of one kind of event in a microsecond (R314), with the job that caused it, if any (R315), or the
composer channel whose repeat frame caused it (R278). -/
structure EnergyEvent where
  domain : Fin 121
  kind : EnergyKind
  count : Nat
  job : Option Nat
  repeatFrame : Option (Fin 16) := none
deriving DecidableEq, Repr

/-- An ATS Translation Completion (R170, R171). -/
structure AtsCpl where
  addr : Nat
  log2len : Nat
  read : Bool
  write : Bool
  untranslated : Bool
deriving DecidableEq, Repr

/-- The response codes of a Page Request (R171). -/
inductive PriCode where
  | success | invalid | failure
deriving DecidableEq, Repr

/-- The answer of a block to PWR_REQ (R334, R335). -/
inductive PwrResp where
  | accept
  | refuse (reason : BitVec 8)
  | delay (us : BitVec 16)
deriving DecidableEq, Repr

/-- The wake sources of R340, by their RST.WAKE_EN bit. -/
inductive WakeSrc where
  | comparator (c : Fin 4)
  | sdio
  | pcieWake
  | counter
  | perst
deriving DecidableEq, Repr

/-- The two mailbox ports of R412. -/
inductive MbPort where
  | sdio | host
deriving DecidableEq, Repr

/-- A mailbox request: its header fields, its payload and the data that stands in the port's bulk window (R413). -/
structure MbReq where
  op : BitVec 8
  rsv : BitVec 8
  len : BitVec 16
  tag : Word
  arg0 : Word
  arg1 : Word
  payload : List Byte
  bulk : List Byte
deriving DecidableEq, Repr

/-- What a TRAIN exchange with the peer brings (R425). -/
structure TrainInfo where
  ok : Bool
  peerId0 : Word
  peerId1 : Word
  node : BitVec 4
  dim : BitVec 3
  tag : Word
  cr0 : Nat
  cr1 : Nat
  cr2 : Nat
deriving DecidableEq, Repr

/-- A link packet (Table 17-3) with its data bytes. -/
structure Packet where
  op : BitVec 4
  dst : BitVec 4
  src : BitVec 4
  slot : BitVec 6
  tag : BitVec 12
  len : BitVec 13
  sub : BitVec 3
  pseq : BitVec 16
  arg : DWord
  data : List Byte
deriving DecidableEq, Repr

/-- A memory request of a downstream device to the root port (R408). -/
inductive InboundReq where
  | read (addr : Nat) (len : Nat)
  | write (addr : Nat) (data : List Byte)
  | translation (addr : Nat)
deriving DecidableEq, Repr

/-- The attestation block that a requester uses (R385): its function's, or the SEC page's. -/
inductive AttBlock where
  | func (f : Fin 64)
  | sec
deriving DecidableEq, Repr

/-- Why a device reset happens (RST_CAUSE.CAUSE, Table 13-9). -/
inductive RstCause where
  | devRst (r : Requester)
  | basin
  | svaumon
  | perst
  | wakeOff
deriving DecidableEq, Repr

/-- What a register read names: an address of the register space, and how many bytes it asks for (R6). -/
structure RegSpan where
  addr : Word
  size : Nat
deriving DecidableEq, Repr

/-- The commands: one constructor per row of the table, in the table's order. -/
inductive Instr where
  -- pins, boot and register access
  | sysRstNAssert
  | sysRstNDeassert (bootMode : Bool)
  | bootVerifyComplete
  | registerWrite (r : Requester) (off : Word) (size : Nat) (v : Word)
  | pairLoRead (r : Requester) (off : RegSpan)
  | pairLoWrite (r : Requester) (off : Word) (v : Word)
  | pairHiWrite (r : Requester) (off : Word) (v : Word)
  | rcRead (r : Requester) (off : RegSpan)
  | budSeqRead (r : Requester)
  | attStsRead (r : Requester) (b : AttBlock)
  | lockSet (r : Requester) (page : Fin 146)
  | lockAll (r : Requester) (v : Word)
  | irqForce (r : Requester) (page : Fin 146) (v : Word)
  -- AON time, budget, Weir
  | aonMsStep
  | crystalSwitch
  | budgetPublish
  | outOfCyclePublication
  | energySample (evs : List EnergyEvent)
  | sensorSample (sensor : Fin 32) (temp : BitVec 12)
  | hardOverdraw
  | dvfsStepComplete (c : Fin 16)
  | droopDetect (c : Fin 16) (railMv : Nat)
  | droopClear (c : Fin 16) (railMv : Nat)
  | dvfsHoldExpiry (c : Fin 16)
  | coreIdleGate (p : Fin 80)
  -- matrix engines
  | meGo (p : Fin 80) (g : Fin 64) (i : Insn)
  | meWait (p : Fin 80) (g : Fin 64) (i : Insn)
  | gateWindow (c : Fin 16)
  | meIdleTimeout (p : Fin 80) (e : Fin 32)
  | meOpStart (p : Fin 80) (e : Fin 32)
  | meOpFinish (p : Fin 80) (e : Fin 32) (cycles : Nat)
  | residueMismatch (p : Fin 80) (e : Fin 32) (stage : Fin 4)
  | meInjArm (r : Requester) (p : Fin 80) (v : Word)
  -- shader instructions
  | aluInsn (p : Fin 80) (g : Fin 64) (op : AluOp) (i : Insn)
  | branch (p : Fin 80) (g : Fin 64) (target : Nat) (i : Insn)
  | load (p : Fin 80) (g : Fin 64) (w : AccW) (i : Insn)
  | store (p : Fin 80) (g : Fin 64) (w : AccW) (i : Insn)
  | atomic (p : Fin 80) (g : Fin 64) (op : AtomOp) (w64 : Bool) (i : Insn)
  | fenceCluster (p : Fin 80) (g : Fin 64) (i : Insn)
  | fenceDevice (p : Fin 80) (g : Fin 64) (i : Insn)
  | wsync (p : Fin 80) (g : Fin 64) (i : Insn)
  | gateCfg (p : Fin 80) (g : Fin 64) (i : Insn)
  | gateJoin (p : Fin 80) (g : Fin 64) (i : Insn)
  | gatePass (p : Fin 80) (g : Fin 64) (i : Insn)
  | gateBcl (p : Fin 80) (g : Fin 64) (i : Insn)
  | gateDev (p : Fin 80) (g : Fin 64) (i : Insn)
  | maskLive (p : Fin 80) (g : Fin 64) (i : Insn)
  | exit (p : Fin 80) (g : Fin 64) (i : Insn)
  | rtTrace (p : Fin 80) (g : Fin 64) (i : Insn)
  | rtCont (p : Fin 80) (g : Fin 64) (i : Insn)
  | rtTraceResult (p : Fin 80) (g : Fin 64) (t : Fin 32)
  | texS (p : Fin 80) (g : Fin 64) (i : Insn)
  | pixLd (p : Fin 80) (g : Fin 64) (i : Insn)
  | pixSt (p : Fin 80) (g : Fin 64) (i : Insn)
  | pixOut (p : Fin 80) (g : Fin 64) (i : Insn)
  | blockPlace (job : Nat) (cores : List (Fin 80))
  | preemptRequest (job : Nat) (unit : Nat)
  | preemptSaveComplete (job : Nat) (unit : Nat) (cycles : Nat)
  | preemptRestore (job : Nat) (unit : Nat) (cores : List (Fin 80))
  -- HBM
  | regionFillDone (region : Nat)
  | regionInv (r : Requester) (v : Word)
  | hbmInit (r : Requester) (n : Fin 4)
  | hbmReady (n : Fin 4)
  | patrolScrubStep (n : Fin 4)
  -- translation and migration
  | invalidate (r : Requester) (v : Word)
  | invalidateDone
  | faultPostWaiting (f : Fin 64)
  | fltqEnable (r : Requester) (v : Word)
  | fltqDisable (r : Requester) (v : Word)
  | fltqConsWrite (r : Requester) (v : Word)
  | dmaChannelAssign (n : Fin 4)
  | dmaXlateFault (n : Fin 4) (ch : Fin 16)
  | dmaTransferEnd (n : Fin 4) (ch : Fin 16)
  | chResume (r : Requester) (n : Fin 4) (v : Word)
  | atsTranslationCompletion (n : Fin 4) (ch : Fin 16) (c : AtsCpl)
  | priResponse (n : Fin 4) (ch : Fin 16) (c : PriCode)
  | atsInvalidateRequest (pasid : BitVec 20) (va : Nat) (pages : Nat)
  -- contexts, queues, fences
  | slotLoad (r : Requester) (v : Word)
  | slotKill (r : Requester) (v : Word)
  | ctxKill (r : Requester) (f : Fin 64) (v : Word)
  | fenceScanComplete (slot : Fin 64)
  | compatDoorbell (r : Requester) (f : Fin 64) (v : Word)
  | compatDoorbellRetry
  | qEnable (r : Requester) (f : Fin 64)
  | qResume (r : Requester) (f : Fin 64)
  | qReset (r : Requester) (f : Fin 64)
  | qDisable (r : Requester) (f : Fin 64)
  | doorbell (r : Requester) (f : Fin 64) (slot : Fin 64) (q : Fin 16) (wptr : Word)
  | fetchFault (fe : Fetcher)
  | cplConsRecheck (slot : Fin 64) (q : Fin 16)
  | jobComplete (job : Nat)
  | queueTimeout (slot : Fin 64) (q : Fin 16)
  | nop (fe : Fetcher)
  | launch (fe : Fetcher)
  | render (fe : Fetcher)
  | compose (fe : Fetcher)
  | czJob (fe : Fetcher)
  | dmaCopy (fe : Fetcher)
  | dmaFill (fe : Fetcher)
  | dmaGather (fe : Fetcher)
  | signal (fe : Fetcher)
  | waitFence (fe : Fetcher)
  | fenceReset (fe : Fetcher)
  | writeCmd (fe : Fetcher)
  | cond (fe : Fetcher)
  | call (fe : Fetcher)
  | ret (fe : Fetcher)
  | fenceWaitRelease (index : Nat)
  | objAcquire (r : Requester) (f : Fin 64) (v : Word)
  | objRelease (r : Requester) (f : Fin 64) (v : Word)
  | objSignal (r : Requester) (f : Fin 64) (v : Word)
  | objReset (r : Requester) (f : Fin 64) (v : Word)
  | objCreate (r : Requester) (f : Fin 64) (v : Word)
  | releaseRecordHeldPost (f : Fin 64)
  | rrEnable (r : Requester) (v : Word)
  | functionDisable (f : Fin 64)
  | disableDmaWindowExpiry (f : Fin 64)
  -- Leaven
  | sessOpen (fe : Fetcher)
  | sessStep (fe : Fetcher)
  | sessClose (fe : Fetcher)
  | sessPark (fe : Fetcher)
  | parkComplete (session : Nat)
  | restoreComplete (session : Nat)
  | graphCommit (fe : Fetcher)
  | graphRetire (fe : Fetcher)
  | batchForm
  | batchEnd (b : Fin 4)
  | stepTimeout (b : Fin 4)
  | deadlineMiss (session : Nat)
  -- tile-based rendering
  | binDraw
  | poolProdRecheck
  | partialRender
  | tileShade (tile : Nat) (core : Fin 64)
  | cpriPreempt (slot : Fin 64) (q : Fin 16)
  | preemptGraceExpiry (p : Fin 80)
  | passResume
  -- composer
  | channelEnable (r : Requester) (v : Word)
  | channelDisable (r : Requester) (v : Word)
  | chCommitArm (r : Requester) (v : Word)
  | frameBoundary (c : Fin 16)
  | frameDeadlineMiss (c : Fin 16)
  | frameComplete (c : Fin 16)
  -- compression
  | czCommit (z : Fin 2) (ctx : Fin 4)
  -- power states, boot, reset, Cistern
  | stateRequest (r : Requester) (v : Word)
  | blockPowerResponse (page : Fin 146) (a : PwrResp)
  | powerDelayExpiry (page : Fin 146)
  | wakeEvent (w : WakeSrc)
  | wakeCounterExpiry
  | sleepExitComplete
  | deviceReset (cause : RstCause)
  | powerDomainReset (r : Requester) (v : Word)
  | powerDomainResetDone
  | pciePerst
  | cisternUnitStart (code : BitVec 12)
  | cisternRetryExpiry
  | cisternUnitComplete
  -- Basin
  | basinSourceEvent (srcs : List (Fin 288))
  | basinWindowExpiry (src : Fin 288)
  | basinQuietExpiry (src : Fin 288)
  | sourceClear (r : Requester) (v : Word)
  | staleEpochDrop (sender : Fin 146) (epoch : BitVec 16)
  | readmit (r : Requester) (v : Word)
  | readmitDone (pass : Bool)
  | errnPulseEnd
  | fltInjArm (r : Requester) (page : Fin 146) (v : Word)
  -- security
  | svnAdvance (r : Requester) (v : Word)
  | measurementExtend (r : Requester) (v : Word)
  | attestRequest (r : Requester) (b : AttBlock) (v : Word)
  | attestComplete
  | leafReservationCommit
  | jtagDebugToken (token : List Byte)
  | extest
  -- PCIe, SDIO, CPU complex
  | vfEnable (numVfs : Nat)
  | vfEnableClear
  | flr (f : Fin 64)
  | linkDown
  | d3hotEntry (f : Fin 64)
  | bar2Access (off : Nat) (len : Nat) (wdata : Option (List Byte))
  | hostReadCompletion (tag : Nat) (poisoned : Bool) (data : List Byte)
  | completionTimeout (tag : Nat)
  | rootPortInboundRequest (q : InboundReq)
  | hartRun (r : Requester) (v : Word)
  | sdioWakeWrite (v : Byte)
  -- mailbox
  | getInfo (p : MbPort) (q : MbReq)
  | getTelemetry (p : MbPort) (q : MbReq)
  | readReg (p : MbPort) (q : MbReq)
  | writeReg (p : MbPort) (q : MbReq)
  | setState (p : MbPort) (q : MbReq)
  | devReset (p : MbPort) (q : MbReq)
  | getCert (p : MbPort) (q : MbReq)
  | attest (p : MbPort) (q : MbReq)
  | readLog (p : MbPort) (q : MbReq)
  | debugToken (p : MbPort) (q : MbReq)
  | imgBegin (p : MbPort) (q : MbReq)
  | imgChunk (p : MbPort) (q : MbReq)
  | imgEnd (p : MbPort) (q : MbReq)
  | poll (p : MbPort) (q : MbReq)
  | setSiteCfg (p : MbPort) (q : MbReq)
  | imageVerifyComplete
  | imageCommitComplete
  -- Svaumon Link
  | portTraining (k : Fin 4) (t : TrainInfo)
  | portRetrainTimer (k : Fin 4)
  | dataFlitReceive (k : Fin 4) (flit : List Byte)
  | nakReceive (k : Fin 4) (flit : List Byte)
  | linkRetrainComplete (k : Fin 4) (ok : Bool)
  | heartbeatSend (k : Fin 4)
  | heartbeatReceive (k : Fin 4) (flit : List Byte)
  | peerLoss (k : Fin 4)
  | linkWrite (p : Packet)
  | linkRead (p : Packet)
  | linkReadRsp (p : Packet)
  | linkAtomic (p : Packet)
  | linkAtomicRsp (p : Packet)
  | linkFenceSignal (p : Packet)
  | linkFenceReset (p : Packet)
  | linkFenceRegisterWait (p : Packet)
  | fenceNotify (p : Packet)
  | linkAck (p : Packet)
  | errorRsp (p : Packet)
  | collStep (p : Packet)
  | linkBarrier (p : Packet)
  | snapMark (p : Packet)
  | linkReset (p : Packet)
  | lrProdWrite (r : Requester) (v : Word)
  | linkPut (ring : Fin 16)
  | linkGet (ring : Fin 16)
  | linkDescAtomic (ring : Fin 16)
  | allreduce (ring : Fin 16)
  | allgather (ring : Fin 16)
  | broadcast (ring : Fin 16)
  | linkDescBarrier (ring : Fin 16)
  | snapshot (ring : Fin 16)
  | linkDescNop (ring : Fin 16)
  | linkRingTimeout (ring : Fin 16)
  | lrResume (r : Requester) (v : Word)
  | lrReset (r : Requester) (v : Word)
  | domainResetRequest (r : Requester) (v : Word)
  -- analogue, clocks, and the rows added at the table's end
  | adcConversion (code : BitVec 12)
  | adcReferenceCheck (code : BitVec 12)
  | comparatorCrossing (c : Fin 4) (microV : Nat)
  | pllLossOfLock (dom : Fin 24)
  | pcieLinkUp (speed : BitVec 3) (width : BitVec 5) (flit : Bool)
  | pciePerstNDeassert
  | d3hotExit (f : Fin 64)
  | extestDeselect
  | bootStageReady
  | idleFlitReceive (k : Fin 4) (flit : List Byte)
  | laneError (k : Fin 4)
  | reservedCommandOpcode (fe : Fetcher)
  | badOpRequest (p : MbPort) (q : MbReq)
deriving DecidableEq, Repr

end Sys2Proof
end

