-- ==== Sys2Proof/Config.lean ====
section
/-!
DEFINITION. What one part fixes (fuses, Table 12-3 voltages, model coefficients) and the values that the manual leaves
open. Each is an opaque constant: nothing can be proved of its value, so a claim holds for every value.
-/
namespace Sys2Proof

/-- A fresh free value, by the model's own counter `State.free` (R95, and every value that the manual leaves undefined). -/
opaque Config.freeWord : Nat → Word
/-- A free natural number, by the same counter: which entry a full buffer replaces, a cycle count inside its bounds. -/
opaque Config.freeNat : Nat → Nat
/-- The value of an undefined shader register at thread start (R95), by the group's identity, thread and register. -/
opaque Config.startReg : Nat → Nat → Nat → Word
/-- A byte of AON SRAM that nothing has written since the cold reset with this generation (R348: contents undefined). -/
opaque Config.aonByte : Nat → Nat → Byte
/-- A byte of host memory that the device has not written (Table 5-1: host-defined). -/
opaque Config.hostByte : Nat → Byte
/-- A byte of the external flash that Cistern has not written: what the board's flash holds at manufacture (R344, R379). -/
opaque Config.flashByte : Nat → Byte
/-- The order in which a round of the interleave visits the pseudo-channels in service: by round and place in it (R123). -/
opaque Config.hbmTurn : Nat → Nat → Nat
/-- The set of the shared translation buffer for a slot, a page size and a virtual page: R153 gives the ways and not the index. -/
opaque Config.tlbSet : Nat → Nat → Nat → Nat
/-- Where a pseudo-channel keeps the 256-byte unit of a round: bank + 64 × row (Table 5-5). -/
opaque Config.hbmCell : Nat → Nat
/-- The content of an HBM byte of a region whose valid bit a failed retention restore has set (R339). -/
opaque Config.staleHbmByte : Nat → Byte
/-- A fused register value, by register key (Tables 13-11, 15-5, 18-2, 18-4, 18-5). -/
opaque Config.fuse : Nat → Word
/-- The fused shader-core map as it comes: physical core of a logical index; `fusedPhys` takes it where it is a map of four
enabled cores of each cluster (R14, R15, Table 18-5). -/
opaque Config.lmap : Nat → Nat
/-- The fuse behind the binned maximum code of a physical core: `binCode` keeps the code within R2 (Table 18-5). -/
opaque Config.fmaxCode : Nat → BitVec 8
/-- The fused voltage code of a cluster at an operating point, 700 mV + 1 mV × code (R306, Table 18-5). -/
opaque Config.voltCode : Nat → Nat → BitVec 8
/-- 1 for the HZM9-6496-E grade (R1, Table 18-5). -/
opaque Config.gradeE : Bool
/-- The fused retention list of a page: BASE and WORDS (R338). -/
opaque Config.retList : Nat → Word
/-- The fused reference voltage of the energy model in mV (R314). -/
opaque Config.vRefMv : Nat
/-- The fused coefficient of an event kind, by its number, in fJ an event at the reference voltage (R314). -/
opaque Config.energyCoef : Nat → Nat
/-- Leakage of a domain at a voltage (mV) and a temperature reading (quarter degrees), in fJ a microsecond (R314). -/
opaque Config.leakFj : Nat → Nat → Int → Nat
/-- SHAKE256 with a 32-byte output (FIPS 202), as the manual names it and does not define it (R373, R375, R377). -/
opaque Config.shake256 : List Byte → List Byte
/-- XMSS-SHAKE256_20_256 verification of a message under a public key (NIST SP 800-208, R375). -/
opaque Config.xmssVerify : List Byte → List Byte → List Byte → Bool
/-- The XMSS^MT signature of a message under the part's identity key with a leaf (R379, R385). -/
opaque Config.xmssMtSign : Nat → List Byte → List Byte
/-- The part's identity public key, 68 bytes (R379). -/
opaque Config.identityKey : List Byte
/-- The identity certificate that Henzion issued (R379). -/
opaque Config.certificate : List Byte
/-- The fused hash of a vendor root slot (R373). -/
opaque Config.rootHash : Nat → List Byte
/-- The message under the debug challenge: the fused device secret with RST_CAUSE.COUNT, DBG_STS.TRIES and the attempts
made, whose encoding the manual does not give (R391). -/
opaque Config.debugMessage : Nat → Nat → Nat → List Byte
/-- The fields of a debug token, whose layout the manual does not give (R391): 0 DEVICE_ID, 1 challenge, 2 scope mask,
3 public key, 4 the signed bytes, 5 signature. -/
opaque Config.tokenField : Nat → List Byte → List Byte
/-- The fused value of the ADC reference conversion (R464). -/
opaque Config.adcRef : Nat
/-- The code lengths that a CZ engine chooses among the length-limited optima for the class counts of a block (R293). -/
opaque Config.czLengths : List Nat → List Nat
/-- A sample of a tile memory whose contents a pass leaves undefined at its start (R235), by seed and place. -/
opaque Config.tileSample : Nat → Nat → Nat
/-- The vertex at which an odd triangle of a strip begins (R237 states no order). -/
opaque Config.stripStart : Nat
/-- The code of a NaN stored in a k-bit unorm component (R250 states none). -/
opaque Config.unormNan : Nat → Nat

end Sys2Proof
end

