-- ==== Sys2Proof/Machine/Bits.lean ====
section
/-!
DEFINITION. Bit fields, byte order, finite tables and memories: the plain operations that every block uses.
-/
namespace Sys2Proof.Machine

/-- The value of an `n`-bit field whose lowest bit is `lo`. -/
def fld (w : Word) (lo n : Nat) : Nat := w.toNat / 2 ^ lo % 2 ^ n

/-- The mask of an `n`-bit field whose lowest bit is `lo`. -/
def fmask (lo n : Nat) : Word := BitVec.ofNat 32 ((2 ^ n - 1) * 2 ^ lo)

/-- `w` with its field `[lo + n - 1 : lo]` set to `v` modulo `2^n`. -/
def putFld (w : Word) (lo n v : Nat) : Word :=
  (w &&& ~~~ (fmask lo n)) ||| BitVec.ofNat 32 (v % 2 ^ n * 2 ^ lo)

/-- One bit of a word. -/
def bit (w : Word) (k : Nat) : Bool := w.getLsbD k

/-- The word whose only bit set is bit `k`. -/
def oneBit (k : Nat) : Word := BitVec.ofNat 32 (2 ^ k)

/-- 1 for true, 0 for false. -/
def b2n (b : Bool) : Nat := if b then 1 else 0

/-- A 32-bit word of a number. -/
def w32 (n : Nat) : Word := BitVec.ofNat 32 n

/-- The little-endian value of a list of bytes (R5). -/
def leNat : List Byte → Nat
  | [] => 0
  | b :: t => b.toNat + 256 * leNat t

/-- The `n` little-endian bytes of a number (R5). -/
def toLE : Nat → Nat → List Byte
  | 0, _ => []
  | n + 1, v => BitVec.ofNat 8 v :: toLE n (v / 256)

/-- A saturating sum. -/
def satAdd (limit a b : Nat) : Nat := if a + b ≤ limit then a + b else limit

/-- The signed value of the low `n` bits of `v`. -/
def sext (n v : Nat) : Int :=
  if v % 2 ^ n < 2 ^ (n - 1) then (v % 2 ^ n : Int) else (v % 2 ^ n : Int) - 2 ^ n

/-- The `n`-bit two's-complement pattern of an integer. -/
def wrapInt (n : Nat) (i : Int) : Nat := (i % (2 ^ n : Int)).toNat

/-- Element `i` of a list with a default. -/
def nth {α : Type} (d : α) (l : List α) (i : Nat) : α := l.getD i d

/-- A list with element `i` replaced. -/
def setNth {α : Type} (l : List α) (i : Nat) (v : α) : List α := l.set i v

/-- The entry of a table, if the table lists the key. -/
def tabFind {α : Type} (k : Nat) : Tab α → Option α
  | [] => none
  | (k', v) :: t => if k' = k then some v else tabFind k t

/-- The entry of a table, or the default. -/
def tabGet {α : Type} (d : α) (k : Nat) (t : Tab α) : α := (tabFind k t).getD d

/-- A table with one entry set: keys stay in ascending order. -/
def tabSet {α : Type} (k : Nat) (v : α) : Tab α → Tab α
  | [] => [(k, v)]
  | (k', v') :: t =>
    if k' < k then (k', v') :: tabSet k v t
    else if k' = k then (k, v) :: t
    else (k, v) :: (k', v') :: t

/-- A table without one key. -/
def tabDel {α : Type} (k : Nat) : Tab α → Tab α
  | [] => []
  | (k', v') :: t => if k' = k then tabDel k t else (k', v') :: tabDel k t

/-- The smallest key above every key of a table: a fresh number. -/
def tabFresh {α : Type} (t : Tab α) : Nat := t.foldl (fun m e => if m ≤ e.1 then e.1 + 1 else m) 0

/-- One byte of a memory whose unlisted addresses read as `d`. -/
def memByte (d : Nat → Byte) (m : Tab Byte) (a : Nat) : Byte := (tabFind a m).getD (d a)

/-- A memory with one byte written; a byte equal to what an unlisted address reads as is not listed. -/
def memSet (d : Nat → Byte) (a : Nat) (v : Byte) (m : Tab Byte) : Tab Byte :=
  if v = d a then tabDel a m else tabSet a v m

/-- `n` bytes from `a` upwards. -/
def memRead (d : Nat → Byte) (m : Tab Byte) (a : Nat) : Nat → List Byte
  | 0 => []
  | n + 1 => memByte d m a :: memRead d m (a + 1) n

/-- A memory with bytes written from `a` upwards. -/
def memWrite (d : Nat → Byte) (a : Nat) : List Byte → Tab Byte → Tab Byte
  | [], m => m
  | b :: t, m => memWrite d (a + 1) t (memSet d a b m)

/-- A memory without the bytes of `[a, a + n)`: they read as unlisted again. -/
def memClear (a n : Nat) (m : Tab Byte) : Tab Byte :=
  m.filter (fun e => e.1 < a || a + n ≤ e.1)

/-- The canonical form of a memory: addresses strictly rising, and no entry equal to what an unlisted address reads
as. -/
def memWf (d : Nat → Byte) : Tab Byte → Bool
  | [] => true
  | [(a, v)] => v != d a
  | (a, v) :: (a', v') :: t => v != d a && a < a' && memWf d ((a', v') :: t)

/-- A memory put into canonical form: every address reads as before. -/
def memCanon (d : Nat → Byte) : Tab Byte → Tab Byte
  | [] => []
  | (a, v) :: t => memSet d a v (memCanon d t)

/-- The default of memories whose unlisted bytes read 0. -/
def zeroByte (_ : Nat) : Byte := 0

/-- The numbers from `a` for `n` of them. -/
def span (a n : Nat) : List Nat := (List.range n).map (· + a)

/-- CRC-32C (Castagnoli) of a byte string: reflected polynomial 0x82F6_3B78, initial and final value all ones. -/
def crc32cByte (c : Word) (b : Byte) : Word :=
  (List.range 8).foldl
    (fun (x : Word) _ => if x.getLsbD 0 then (x >>> 1) ^^^ 0x82F63B78#32 else x >>> 1) (c ^^^ b.zeroExtend 32)

/-- CRC-32C of a byte string. -/
def crc32c (bs : List Byte) : Word := ~~~ (bs.foldl crc32cByte 0xFFFFFFFF#32)

end Sys2Proof.Machine
end

