-- ==== Sys2Proof/Machine/RegMap.lean ====
section
/-!
DEFINITION. The register map: every register of the manual's register tables with its fields, their access types
(Table 0-4) and their reset values. A bit that no field lists is reserved and reads 0 (R7).
-/
namespace Sys2Proof.Machine

/-- The register access types of Table 0-4. -/
inductive Acc where
  | rw | ro | wo | w1c | w1s | rc | rwl
deriving DecidableEq, Repr

/-- A field: its lowest bit, its width, its access type and its reset value. -/
structure Fld where
  lo : Nat
  wd : Nat
  acc : Acc
  rst : Nat
deriving DecidableEq, Repr

/-- A run of `cnt` registers of one layout at `off`, `off + stride`, … -/
structure RegRow where
  off : Nat
  cnt : Nat
  stride : Nat
  name : String
  flds : List Fld
deriving DecidableEq, Repr

/-- Part 0 of `rowsSc`. -/
def rowsSc0 : List RegRow :=
  [ ⟨0x100, 1, 4, "CORE_STS", [⟨0, 6, .ro, 0x0⟩, ⟨8, 7, .ro, 0x0⟩, ⟨16, 6, .ro, 0x0⟩]⟩,
    ⟨0x104, 1, 4, "REG_USED", [⟨0, 17, .ro, 0x0⟩]⟩,
    ⟨0x108, 1, 4, "LM_USED", [⟨0, 20, .ro, 0x0⟩]⟩,
    ⟨0x10C, 1, 4, "SPIN_ROT", [⟨0, 32, .rc, 0x0⟩]⟩,
    ⟨0x110, 1, 4, "PATH_ROT", [⟨0, 32, .rc, 0x0⟩]⟩,
    ⟨0x114, 1, 4, "BAR_STALL", [⟨0, 4, .ro, 0x0⟩, ⟨4, 3, .ro, 0x0⟩, ⟨8, 11, .ro, 0x0⟩, ⟨19, 11, .ro, 0x0⟩, ⟨31, 1, .w1c, 0x0⟩]⟩,
    ⟨0x118, 1, 4, "PREEMPT_CYC", [⟨0, 32, .ro, 0x0⟩]⟩,
    ⟨0x11C, 1, 4, "RT_STS", [⟨0, 8, .ro, 0x0⟩]⟩,
    ⟨0x400, 1, 4, "ME_STS", [⟨0, 32, .ro, 0x0⟩]⟩,
    ⟨0x404, 1, 4, "ME_FLAGS", [⟨0, 4, .ro, 0x0⟩]⟩,
    ⟨0x408, 1, 4, "ME_ERR", [⟨0, 8, .ro, 0x0⟩, ⟨16, 5, .ro, 0x0⟩, ⟨31, 1, .w1c, 0x0⟩]⟩,
    ⟨0x40C, 1, 4, "ME_ERR_ADDR", [⟨0, 19, .ro, 0x0⟩]⟩ ]

/-- Part 1 of `rowsSc`. -/
def rowsSc1 : List RegRow :=
  [ ⟨0x410, 1, 4, "NTRAP_CTL", [⟨0, 1, .ro, 0x0⟩, ⟨31, 1, .w1c, 0x0⟩]⟩,
    ⟨0x414, 1, 4, "NTRAP_LOC0", [⟨0, 6, .ro, 0x0⟩, ⟨8, 5, .ro, 0x0⟩, ⟨13, 3, .ro, 0x0⟩, ⟨16, 4, .ro, 0x0⟩, ⟨20, 4, .ro, 0x0⟩]⟩,
    ⟨0x418, 1, 4, "NTRAP_LOC1", [⟨0, 16, .ro, 0x0⟩, ⟨16, 16, .ro, 0x0⟩]⟩,
    ⟨0x41C, 1, 4, "NTRAP_LOC2", [⟨0, 8, .ro, 0x0⟩]⟩,
    ⟨0x420, 1, 4, "ME_INJ", [⟨0, 5, .rwl, 0x0⟩, ⟨8, 2, .rwl, 0x0⟩, ⟨16, 1, .rwl, 0x0⟩, ⟨17, 1, .w1c, 0x0⟩]⟩,
    ⟨0x424, 1, 4, "OPW_CNT", [⟨0, 32, .ro, 0x0⟩]⟩,
    ⟨0x428, 1, 4, "ME_CYC_8", [⟨0, 32, .ro, 0x0⟩]⟩,
    ⟨0x42C, 1, 4, "ME_CYC_16", [⟨0, 32, .ro, 0x0⟩]⟩,
    ⟨0x500, 1, 4, "SRAM_ERR", [⟨0, 16, .ro, 0x0⟩, ⟨16, 2, .ro, 0x0⟩, ⟨29, 1, .ro, 0x0⟩, ⟨30, 1, .ro, 0x0⟩, ⟨31, 1, .w1c, 0x0⟩]⟩,
    ⟨0x504, 1, 4, "SRAM_CE_CNT", [⟨0, 32, .rc, 0x0⟩]⟩ ]

/-- The registers of Tables 4-10, 5-6, 3-9 (R116, R145, R89). -/
def rowsSc : List RegRow :=
  rowsSc0 ++ rowsSc1

/-- The registers of Tables 5-6, 3-10 (R145, R89). -/
def rowsCl : List RegRow :=
  [ ⟨0x400, 1, 4, "GATE_STS", [⟨0, 8, .ro, 0x0⟩, ⟨8, 8, .ro, 0x0⟩]⟩,
    ⟨0x404, 1, 4, "GATE_WAIT", [⟨0, 32, .rc, 0x0⟩]⟩,
    ⟨0x500, 1, 4, "CMEM_ERR", [⟨0, 19, .ro, 0x0⟩, ⟨29, 1, .ro, 0x0⟩, ⟨30, 1, .ro, 0x0⟩, ⟨31, 1, .w1c, 0x0⟩]⟩,
    ⟨0x504, 1, 4, "CMEM_CE_CNT", [⟨0, 32, .rc, 0x0⟩]⟩ ]

/-- Part 0 of `rowsHbc`. -/
def rowsHbc0 : List RegRow :=
  [ ⟨0x100, 1, 4, "HBC_CTL", [⟨0, 1, .w1s, 0x0⟩]⟩,
    ⟨0x104, 1, 4, "HBC_STS", [⟨0, 1, .ro, 0x0⟩, ⟨1, 1, .ro, 0x0⟩, ⟨8, 6, .ro, 0x0⟩]⟩,
    ⟨0x108, 1, 4, "PC_RETIRE", [⟨0, 32, .rw, 0x0⟩]⟩,
    ⟨0x10C, 1, 4, "CE_CNT", [⟨0, 32, .rc, 0x0⟩]⟩,
    ⟨0x110, 1, 4, "UE_CNT", [⟨0, 32, .rc, 0x0⟩]⟩,
    ⟨0x114, 1, 4, "LOG_STS", [⟨0, 5, .ro, 0x0⟩, ⟨8, 8, .rc, 0x0⟩, ⟨31, 1, .w1c, 0x0⟩]⟩,
    ⟨0x118, 1, 4, "SCRUB_CTL", [⟨0, 1, .rw, 0x1⟩, ⟨8, 8, .rw, 0xA⟩]⟩,
    ⟨0x11C, 1, 4, "SCRUB_STS", [⟨0, 16, .ro, 0x0⟩, ⟨31, 1, .ro, 0x0⟩]⟩,
    ⟨0x120, 1, 4, "SCRUB_POS", [⟨0, 27, .ro, 0x0⟩]⟩,
    ⟨0x124, 1, 4, "REGION_INV", [⟨0, 16, .wo, 0x0⟩, ⟨31, 1, .wo, 0x0⟩]⟩,
    ⟨0x128, 1, 4, "REGION_STS", [⟨0, 16, .ro, 0x0⟩, ⟨31, 1, .ro, 0x0⟩]⟩,
    ⟨0x200, 16, 16, "LOG_ADDR", [⟨0, 32, .ro, 0x0⟩]⟩ ]

/-- Part 1 of `rowsHbc`. -/
def rowsHbc1 : List RegRow :=
  [ ⟨0x204, 16, 16, "LOG_LOC", [⟨0, 5, .ro, 0x0⟩, ⟨5, 5, .ro, 0x0⟩, ⟨10, 6, .ro, 0x0⟩]⟩,
    ⟨0x208, 16, 16, "LOG_ROW", [⟨0, 18, .ro, 0x0⟩]⟩,
    ⟨0x20C, 16, 16, "LOG_STAT", [⟨0, 1, .ro, 0x0⟩, ⟨1, 1, .ro, 0x0⟩, ⟨2, 1, .ro, 0x0⟩, ⟨8, 8, .ro, 0x0⟩, ⟨31, 1, .w1c, 0x0⟩]⟩ ]

/-- The registers of Table 5-5 (R144). -/
def rowsHbc : List RegRow :=
  rowsHbc0 ++ rowsHbc1

/-- Part 0 of `rowsMmu`. -/
def rowsMmu0 : List RegRow :=
  [ ⟨0x100, 1, 4, "XL_CTL", [⟨0, 4, .rw, 0x2⟩]⟩,
    ⟨0x104, 1, 4, "XL_STS", [⟨0, 5, .ro, 0x0⟩]⟩,
    ⟨0x108, 1, 4, "INV_CTL", [⟨0, 6, .rw, 0x0⟩, ⟨6, 2, .rw, 0x0⟩, ⟨31, 1, .w1s, 0x0⟩]⟩,
    ⟨0x10C, 1, 4, "INV_VA_LO", [⟨12, 20, .rw, 0x0⟩]⟩,
    ⟨0x110, 1, 4, "INV_VA_HI", [⟨0, 16, .rw, 0x0⟩]⟩,
    ⟨0x114, 1, 4, "INV_LEN", [⟨0, 24, .rw, 0x0⟩]⟩,
    ⟨0x118, 1, 4, "STB_HIT", [⟨0, 32, .rc, 0x0⟩]⟩,
    ⟨0x11C, 1, 4, "STB_MISS", [⟨0, 32, .rc, 0x0⟩]⟩,
    ⟨0x130, 1, 4, "FLTQ_SEL", [⟨0, 6, .rw, 0x0⟩]⟩,
    ⟨0x134, 1, 4, "FLTQ_CTL", [⟨0, 1, .rw, 0x0⟩, ⟨1, 1, .rw, 0x0⟩, ⟨2, 1, .rw, 0x0⟩, ⟨8, 4, .rw, 0x6⟩, ⟨16, 11, .rw, 0x0⟩]⟩,
    ⟨0x138, 1, 4, "FLTQ_BASE_LO", [⟨12, 20, .rw, 0x0⟩]⟩,
    ⟨0x13C, 1, 4, "FLTQ_BASE_HI", [⟨0, 20, .rw, 0x0⟩]⟩ ]

/-- Part 1 of `rowsMmu`. -/
def rowsMmu1 : List RegRow :=
  [ ⟨0x140, 1, 4, "FLTQ_PROD", [⟨0, 32, .ro, 0x0⟩]⟩,
    ⟨0x144, 1, 4, "FLTQ_CONS", [⟨0, 32, .rw, 0x0⟩]⟩,
    ⟨0x148, 1, 4, "FLTQ_DROP", [⟨0, 32, .rc, 0x0⟩]⟩,
    ⟨0x14C, 1, 4, "FLTQ_STS", [⟨0, 1, .ro, 0x0⟩, ⟨1, 1, .w1c, 0x0⟩, ⟨16, 7, .ro, 0x0⟩]⟩,
    ⟨0x150, 1, 4, "PRI_STS", [⟨0, 7, .ro, 0x0⟩]⟩,
    ⟨0x154, 1, 4, "ATS_INV_CNT", [⟨0, 32, .rc, 0x0⟩]⟩ ]

/-- The registers of Table 6-6 (R176). -/
def rowsMmu : List RegRow :=
  rowsMmu0 ++ rowsMmu1

/-- The registers of Table 6-7 (R177). -/
def rowsDma : List RegRow :=
  [ ⟨0x100, 1, 4, "CH_RESUME", [⟨0, 4, .wo, 0x0⟩, ⟨4, 1, .wo, 0x0⟩, ⟨16, 16, .wo, 0x0⟩]⟩,
    ⟨0x104, 1, 4, "CH_STALL", [⟨0, 16, .ro, 0x0⟩, ⟨16, 16, .ro, 0x0⟩]⟩,
    ⟨0x108, 1, 4, "RESUME_DISC", [⟨0, 32, .rc, 0x0⟩]⟩ ]

/-- The registers of Table 7-14 (R208). -/
def rowsFe : List RegRow :=
  [ ⟨0x100, 1, 4, "FE_CTL", [⟨0, 1, .rwl, 0x0⟩]⟩,
    ⟨0x104, 1, 4, "SLOT_SEL", [⟨0, 6, .rw, 0x0⟩]⟩,
    ⟨0x108, 1, 4, "SLOT_CTX_LO", [⟨7, 25, .rw, 0x0⟩]⟩,
    ⟨0x10C, 1, 4, "SLOT_CTX_HI", [⟨0, 20, .rw, 0x0⟩]⟩,
    ⟨0x110, 1, 4, "SLOT_CTL", [⟨0, 6, .rw, 0x0⟩, ⟨8, 1, .w1s, 0x0⟩, ⟨9, 1, .w1s, 0x0⟩]⟩,
    ⟨0x114, 1, 4, "SLOT_STS", [⟨0, 3, .ro, 0x0⟩, ⟨8, 8, .ro, 0x0⟩]⟩,
    ⟨0x118, 1, 4, "CDIR_LO", [⟨12, 20, .rw, 0x0⟩]⟩,
    ⟨0x11C, 1, 4, "CDIR_HI", [⟨0, 20, .rw, 0x0⟩]⟩,
    ⟨0x120, 1, 4, "DB_DISC", [⟨0, 32, .rc, 0x0⟩]⟩,
    ⟨0x124, 1, 4, "EVICT_CNT", [⟨0, 32, .rc, 0x0⟩]⟩ ]

/-- Part 0 of `rowsFnc`. -/
def rowsFnc0 : List RegRow :=
  [ ⟨0x100, 1, 4, "FT_BASE_LO", [⟨12, 20, .rwl, 0x0⟩]⟩,
    ⟨0x104, 1, 4, "FT_BASE_HI", [⟨0, 20, .rwl, 0x0⟩]⟩,
    ⟨0x108, 1, 4, "FT_CTL", [⟨0, 5, .rwl, 0xA⟩]⟩,
    ⟨0x10C, 1, 4, "FSEL", [⟨0, 6, .rw, 0x0⟩]⟩,
    ⟨0x110, 1, 4, "WIN_BASE", [⟨0, 20, .rw, 0x0⟩]⟩,
    ⟨0x114, 1, 4, "WIN_SIZE", [⟨0, 21, .rw, 0x0⟩]⟩,
    ⟨0x118, 1, 4, "SHARE_GRP", [⟨0, 8, .rw, 0x0⟩]⟩,
    ⟨0x11C, 1, 4, "RR_CTL", [⟨0, 1, .rw, 0x0⟩, ⟨1, 1, .rw, 0x0⟩, ⟨2, 1, .rw, 0x0⟩, ⟨8, 4, .rw, 0x6⟩, ⟨16, 11, .rw, 0x0⟩]⟩,
    ⟨0x120, 1, 4, "RR_BASE_LO", [⟨12, 20, .rw, 0x0⟩]⟩,
    ⟨0x124, 1, 4, "RR_BASE_HI", [⟨0, 20, .rw, 0x0⟩]⟩,
    ⟨0x128, 1, 4, "RR_PROD", [⟨0, 32, .ro, 0x0⟩]⟩,
    ⟨0x12C, 1, 4, "RR_CONS", [⟨0, 32, .rw, 0x0⟩]⟩ ]

/-- Part 1 of `rowsFnc`. -/
def rowsFnc1 : List RegRow :=
  [ ⟨0x130, 1, 4, "RR_HELD", [⟨0, 16, .ro, 0x0⟩]⟩,
    ⟨0x134, 1, 4, "SCAN_STS", [⟨0, 1, .ro, 0x0⟩]⟩ ]

/-- The registers of Table 7-15 (R209). -/
def rowsFnc : List RegRow :=
  rowsFnc0 ++ rowsFnc1

/-- Part 0 of `rowsLvn`. -/
def rowsLvn0 : List RegRow :=
  [ ⟨0x100, 1, 4, "LVN_CTL", [⟨0, 1, .rw, 0x0⟩, ⟨1, 2, .rw, 0x0⟩, ⟨3, 1, .rw, 0x0⟩, ⟨8, 9, .rw, 0x100⟩]⟩,
    ⟨0x104, 1, 4, "LVN_STS", [⟨0, 3, .ro, 0x0⟩, ⟨16, 14, .ro, 0x0⟩]⟩,
    ⟨0x108, 1, 4, "ST_BASE_LO", [⟨21, 11, .rwl, 0x0⟩]⟩,
    ⟨0x10C, 1, 4, "ST_BASE_HI", [⟨0, 20, .rwl, 0x0⟩]⟩,
    ⟨0x110, 1, 4, "GT_BASE_LO", [⟨20, 12, .rwl, 0x0⟩]⟩,
    ⟨0x114, 1, 4, "GT_BASE_HI", [⟨0, 20, .rwl, 0x0⟩]⟩,
    ⟨0x118, 1, 4, "MAX_WIDTH", [⟨0, 10, .rw, 0x200⟩]⟩,
    ⟨0x11C, 1, 4, "STEP_TMO", [⟨0, 32, .rw, 0xF4240⟩]⟩,
    ⟨0x120, 1, 4, "FSEL", [⟨0, 6, .rw, 0x0⟩]⟩,
    ⟨0x124, 1, 4, "SWIN_BASE", [⟨0, 18, .rw, 0x0⟩]⟩,
    ⟨0x128, 1, 4, "SWIN_SIZE", [⟨0, 19, .rw, 0x0⟩]⟩,
    ⟨0x12C, 1, 4, "BATCH_CNT", [⟨0, 32, .rc, 0x0⟩]⟩ ]

/-- Part 1 of `rowsLvn`. -/
def rowsLvn1 : List RegRow :=
  [ ⟨0x130, 1, 4, "MISS_CNT", [⟨0, 32, .rc, 0x0⟩]⟩,
    ⟨0x134, 1, 4, "DEFER_CNT", [⟨0, 32, .rc, 0x0⟩]⟩,
    ⟨0x138, 1, 4, "MIN_ADMIT", [⟨0, 32, .rc, 0x0⟩]⟩,
    ⟨0x13C, 1, 4, "LAST_BATCH", [⟨0, 10, .ro, 0x0⟩, ⟨16, 3, .ro, 0x0⟩]⟩,
    ⟨0x140, 1, 4, "LAST_BUDGET", [⟨0, 32, .ro, 0x0⟩]⟩ ]

/-- The registers of Table 8-7 (R231). -/
def rowsLvn : List RegRow :=
  rowsLvn0 ++ rowsLvn1

/-- The registers of Table 9-10 (R261). -/
def rowsTlr : List RegRow :=
  [ ⟨0x100, 1, 4, "TLR_STS", [⟨0, 2, .ro, 0x0⟩, ⟨2, 1, .ro, 0x0⟩, ⟨3, 1, .ro, 0x0⟩, ⟨4, 6, .ro, 0x0⟩]⟩,
    ⟨0x104, 1, 4, "CPRI_CTL", [⟨0, 6, .rw, 0x0⟩, ⟨31, 1, .rw, 0x0⟩]⟩,
    ⟨0x108, 1, 4, "PREEMPT_GRACE", [⟨0, 8, .rw, 0x4⟩]⟩,
    ⟨0x10C, 1, 4, "PARTIAL_CNT", [⟨0, 32, .rc, 0x0⟩]⟩,
    ⟨0x110, 1, 4, "POOL_LOW_CNT", [⟨0, 32, .rc, 0x0⟩]⟩,
    ⟨0x114, 1, 4, "PREEMPT_CNT", [⟨0, 32, .rc, 0x0⟩]⟩,
    ⟨0x118, 1, 4, "MIDTILE_CNT", [⟨0, 32, .rc, 0x0⟩]⟩,
    ⟨0x11C, 1, 4, "LAST_PREEMPT", [⟨0, 16, .ro, 0x0⟩]⟩ ]

/-- Part 0 of `rowsCmp`. -/
def rowsCmp0 : List RegRow :=
  [ ⟨0x100, 1, 4, "CMP_STS", [⟨0, 13, .ro, 0x0⟩, ⟨16, 16, .ro, 0x0⟩]⟩,
    ⟨0x104, 1, 4, "CH_SEL", [⟨0, 4, .rw, 0x0⟩]⟩,
    ⟨0x108, 1, 4, "CH_CTL", [⟨0, 1, .rw, 0x0⟩, ⟨1, 1, .rw, 0x1⟩, ⟨2, 1, .rw, 0x0⟩, ⟨8, 6, .rw, 0x0⟩]⟩,
    ⟨0x10C, 1, 4, "CH_STS", [⟨0, 1, .ro, 0x0⟩, ⟨1, 1, .ro, 0x0⟩, ⟨2, 1, .ro, 0x0⟩, ⟨8, 8, .ro, 0x0⟩, ⟨16, 3, .ro, 0x0⟩]⟩,
    ⟨0x110, 1, 4, "CH_COMMIT", [⟨0, 1, .w1s, 0x0⟩]⟩,
    ⟨0x114, 1, 4, "PCLK_INC", [⟨0, 32, .rw, 0x0⟩]⟩,
    ⟨0x118, 1, 4, "H_TIMING", [⟨0, 16, .rw, 0x0⟩, ⟨16, 16, .rw, 0x0⟩]⟩,
    ⟨0x11C, 1, 4, "V_TIMING", [⟨0, 16, .rw, 0x0⟩, ⟨16, 16, .rw, 0x0⟩]⟩,
    ⟨0x120, 1, 4, "DEADLINE", [⟨0, 16, .rw, 0x0⟩]⟩,
    ⟨0x124, 1, 4, "TIMER_POS", [⟨0, 16, .ro, 0x0⟩, ⟨16, 16, .ro, 0x0⟩]⟩,
    ⟨0x128, 1, 4, "FRAME_SEQ", [⟨0, 32, .ro, 0x0⟩]⟩,
    ⟨0x12C, 1, 4, "LATE_CNT", [⟨0, 32, .rc, 0x0⟩]⟩ ]

/-- Part 1 of `rowsCmp`. -/
def rowsCmp1 : List RegRow :=
  [ ⟨0x130, 1, 4, "MISS_CNT", [⟨0, 32, .rc, 0x0⟩]⟩,
    ⟨0x134, 1, 4, "ABANDON_CNT", [⟨0, 32, .rc, 0x0⟩]⟩,
    ⟨0x138, 1, 4, "REPEAT_CNT", [⟨0, 32, .rc, 0x0⟩]⟩,
    ⟨0x200, 144, 4, "FRAME_SHADOW", [⟨0, 32, .rw, 0x0⟩]⟩,
    ⟨0x600, 144, 4, "FRAME_ACTIVE", [⟨0, 32, .ro, 0x0⟩]⟩ ]

/-- The registers of Table 10-8 (R283). -/
def rowsCmp : List RegRow :=
  rowsCmp0 ++ rowsCmp1

/-- The registers of Table 11-6 (R302). -/
def rowsCz : List RegRow :=
  [ ⟨0x100, 1, 4, "CZ_CTL", [⟨0, 2, .rw, 0x2⟩]⟩,
    ⟨0x104, 1, 4, "CZ_STS", [⟨0, 4, .ro, 0x0⟩, ⟨4, 4, .ro, 0x0⟩]⟩,
    ⟨0x108, 1, 4, "IN_MB", [⟨0, 32, .rc, 0x0⟩]⟩,
    ⟨0x10C, 1, 4, "OUT_MB", [⟨0, 32, .rc, 0x0⟩]⟩,
    ⟨0x110, 1, 4, "RAW_BLK", [⟨0, 32, .rc, 0x0⟩]⟩,
    ⟨0x114, 1, 4, "FAIL_CNT", [⟨0, 32, .rc, 0x0⟩]⟩,
    ⟨0x118, 1, 4, "CORRUPT_CNT", [⟨0, 32, .rc, 0x0⟩]⟩ ]

/-- The registers of Table 12-6 (R329). -/
def rowsWeir : List RegRow :=
  [ ⟨0x100, 1, 4, "WEIR_CTL", [⟨0, 8, .rwl, 0x28⟩, ⟨8, 8, .rwl, 0xA⟩]⟩,
    ⟨0x104, 1, 4, "WEIR_STS", [⟨0, 1, .ro, 0x0⟩, ⟨1, 1, .ro, 0x0⟩, ⟨2, 1, .ro, 0x0⟩]⟩,
    ⟨0x108, 1, 4, "DROOP_CNT", [⟨0, 32, .rc, 0x0⟩]⟩,
    ⟨0x10C, 1, 4, "STRETCH_CYC", [⟨0, 32, .rc, 0x0⟩]⟩,
    ⟨0x110, 1, 4, "DEFER_CNT", [⟨0, 32, .rc, 0x0⟩]⟩,
    ⟨0x114, 1, 4, "FORCE_CNT", [⟨0, 32, .rc, 0x0⟩]⟩ ]

/-- Part 0 of `rowsPwr`. -/
def rowsPwr0 : List RegRow :=
  [ ⟨0x100, 1, 4, "CAP_CTL", [⟨0, 9, .rw, 0x15E⟩, ⟨9, 1, .rw, 0x0⟩, ⟨10, 3, .rw, 0x0⟩]⟩,
    ⟨0x104, 1, 4, "CAP_AIN", [⟨0, 9, .rw, 0x96⟩, ⟨16, 9, .rw, 0x1F4⟩]⟩,
    ⟨0x108, 1, 4, "CAP_ALT", [⟨0, 9, .rw, 0xC8⟩]⟩,
    ⟨0x10C, 1, 4, "SITE_CMP", [⟨0, 2, .rwl, 0x0⟩, ⟨2, 1, .rwl, 0x0⟩, ⟨3, 1, .rwl, 0x1⟩, ⟨4, 2, .rwl, 0x0⟩, ⟨6, 1, .rwl, 0x0⟩, ⟨7, 1, .rwl, 0x1⟩]⟩,
    ⟨0x110, 1, 4, "CAP_STS", [⟨0, 9, .ro, 0x15E⟩, ⟨9, 1, .ro, 0x0⟩, ⟨10, 1, .ro, 0x0⟩, ⟨11, 1, .ro, 0x0⟩]⟩,
    ⟨0x114, 1, 4, "FIX_CTL", [⟨0, 1, .rw, 0x0⟩]⟩,
    ⟨0x118, 1, 4, "FIX_STS", [⟨0, 1, .ro, 0x0⟩, ⟨1, 1, .w1c, 0x0⟩]⟩,
    ⟨0x11C, 1, 4, "GATE_CTL", [⟨0, 8, .rw, 0x32⟩]⟩,
    ⟨0x120, 1, 4, "MARGINS", [⟨0, 8, .rw, 0x5⟩, ⟨8, 8, .rwl, 0x5⟩]⟩,
    ⟨0x124, 1, 4, "MODEL_TRIM", [⟨0, 8, .rw, 0x0⟩]⟩,
    ⟨0x128, 1, 4, "CL_WEIGHT0", [⟨0, 32, .rw, 0x11111111⟩]⟩,
    ⟨0x12C, 1, 4, "CL_WEIGHT1", [⟨0, 32, .rw, 0x11111111⟩]⟩ ]

/-- Part 1 of `rowsPwr`. -/
def rowsPwr1 : List RegRow :=
  [ ⟨0x130, 1, 4, "DEV_UJ_LO", [⟨0, 32, .ro, 0x0⟩]⟩,
    ⟨0x134, 1, 4, "DEV_UJ_HI", [⟨0, 32, .ro, 0x0⟩]⟩,
    ⟨0x138, 1, 4, "UNATTR_UJ_LO", [⟨0, 32, .ro, 0x0⟩]⟩,
    ⟨0x13C, 1, 4, "UNATTR_UJ_HI", [⟨0, 32, .ro, 0x0⟩]⟩,
    ⟨0x140, 8, 4, "THR_US r", [⟨0, 32, .rc, 0x0⟩]⟩,
    ⟨0x160, 8, 4, "THR_EVT r", [⟨0, 32, .rc, 0x0⟩]⟩,
    ⟨0x180, 1, 4, "THR_LAST", [⟨0, 4, .ro, 0x0⟩, ⟨4, 3, .ro, 0x0⟩, ⟨7, 1, .w1c, 0x0⟩]⟩,
    ⟨0x184, 1, 4, "OVR_POINT", [⟨0, 4, .rwl, 0x4⟩]⟩,
    ⟨0x188, 1, 4, "TS_SEL", [⟨0, 5, .rw, 0x0⟩]⟩,
    ⟨0x18C, 1, 4, "TS_VAL", [⟨0, 12, .ro, 0x0⟩, ⟨31, 1, .ro, 0x0⟩]⟩,
    ⟨0x190, 1, 4, "TS_THR", [⟨0, 12, .rwl, 0x0⟩]⟩,
    ⟨0x194, 1, 4, "TS_CRIT", [⟨0, 12, .rwl, 0x0⟩]⟩ ]

/-- Part 2 of `rowsPwr`. -/
def rowsPwr2 : List RegRow :=
  [ ⟨0x1A0, 1, 4, "BUD_SEQ", [⟨0, 32, .ro, 0x0⟩]⟩,
    ⟨0x1A4, 1, 4, "BUD_FLAGS", [⟨0, 1, .ro, 0x0⟩, ⟨1, 1, .ro, 0x0⟩, ⟨2, 1, .ro, 0x0⟩, ⟨3, 1, .ro, 0x0⟩, ⟨8, 8, .ro, 0x0⟩, ⟨16, 9, .ro, 0x0⟩]⟩,
    ⟨0x1A8, 1, 4, "BUD_DEV_UJ", [⟨0, 32, .ro, 0x0⟩]⟩,
    ⟨0x1AC, 1, 4, "BUD_FIX_UJ", [⟨0, 32, .ro, 0x0⟩]⟩,
    ⟨0x1B0, 16, 4, "BUD_CL n", [⟨0, 24, .ro, 0x0⟩, ⟨24, 8, .ro, 0x0⟩]⟩,
    ⟨0x1F0, 1, 4, "CL_POINT0", [⟨0, 32, .ro, 0x44444444⟩]⟩,
    ⟨0x1F4, 1, 4, "CL_POINT1", [⟨0, 32, .ro, 0x44444444⟩]⟩ ]

/-- The registers of Table 12-7 (R330). -/
def rowsPwr : List RegRow :=
  rowsPwr0 ++ rowsPwr1 ++ rowsPwr2

/-- Part 0 of `rowsRst`. -/
def rowsRst0 : List RegRow :=
  [ ⟨0x100, 1, 4, "STATE_CTL", [⟨0, 2, .rw, 0x0⟩, ⟨31, 1, .w1s, 0x0⟩]⟩,
    ⟨0x104, 1, 4, "STATE_STS", [⟨0, 2, .ro, 0x0⟩, ⟨8, 7, .ro, 0x0⟩, ⟨16, 8, .ro, 0x0⟩, ⟨24, 1, .w1c, 0x0⟩, ⟨25, 1, .w1c, 0x0⟩]⟩,
    ⟨0x108, 1, 4, "WAKE_EN", [⟨0, 8, .rw, 0x10⟩]⟩,
    ⟨0x10C, 1, 4, "WAKE_STS", [⟨0, 8, .w1c, 0x0⟩]⟩,
    ⟨0x110, 1, 4, "WAKE_CNT", [⟨0, 32, .rw, 0x0⟩]⟩,
    ⟨0x114, 1, 4, "CMP_WAKE", [⟨0, 4, .rw, 0xF⟩]⟩,
    ⟨0x118, 1, 4, "RESUME_LO", [⟨0, 32, .rw, 0x0⟩]⟩,
    ⟨0x11C, 1, 4, "RESUME_HI", [⟨0, 32, .rw, 0x0⟩]⟩,
    ⟨0x120, 1, 4, "RST_CTL", [⟨0, 1, .w1s, 0x0⟩, ⟨1, 1, .rwl, 0x0⟩]⟩,
    ⟨0x124, 1, 4, "DOM_RST", [⟨0, 7, .rw, 0x0⟩, ⟨30, 1, .w1c, 0x0⟩, ⟨31, 1, .w1s, 0x0⟩]⟩,
    ⟨0x128, 1, 4, "RST_CAUSE", [⟨0, 4, .ro, 0x0⟩, ⟨16, 16, .ro, 0x0⟩]⟩,
    ⟨0x12C, 1, 4, "BOOT_STS", [⟨0, 4, .ro, 0x0⟩, ⟨4, 1, .ro, 0x0⟩, ⟨5, 1, .ro, 0x0⟩, ⟨8, 8, .ro, 0x0⟩]⟩ ]

/-- Part 1 of `rowsRst`. -/
def rowsRst1 : List RegRow :=
  [ ⟨0x130, 1, 4, "BOOT_US", [⟨0, 32, .ro, 0x0⟩]⟩ ]

/-- The registers of Table 13-9 (R354). -/
def rowsRst : List RegRow :=
  rowsRst0 ++ rowsRst1

/-- The registers of Table 13-10 (R354). -/
def rowsCst : List RegRow :=
  [ ⟨0x100, 1, 4, "HU_C", [⟨0, 24, .rwl, 0x0⟩]⟩,
    ⟨0x104, 1, 4, "HU_V", [⟨0, 16, .rwl, 0x0⟩, ⟨16, 16, .rwl, 0x100⟩]⟩,
    ⟨0x108, 1, 4, "E_PROG", [⟨0, 24, .rwl, 0x0⟩]⟩,
    ⟨0x10C, 1, 4, "E_ERASE", [⟨0, 24, .rwl, 0x0⟩]⟩,
    ⟨0x110, 1, 4, "CST_CTL", [⟨0, 8, .rw, 0xA⟩]⟩,
    ⟨0x114, 1, 4, "CST_STS", [⟨0, 1, .ro, 0x0⟩, ⟨1, 1, .ro, 0x0⟩, ⟨16, 16, .ro, 0x0⟩]⟩,
    ⟨0x118, 1, 4, "V_MV", [⟨0, 16, .ro, 0x0⟩]⟩,
    ⟨0x11C, 1, 4, "AVAIL_UJ", [⟨0, 32, .ro, 0x0⟩]⟩,
    ⟨0x120, 1, 4, "DEFER_CNT", [⟨0, 32, .rc, 0x0⟩]⟩,
    ⟨0x124, 1, 4, "UNIT_CNT", [⟨0, 32, .rc, 0x0⟩]⟩ ]

/-- The registers of Table 13-11 (R354). -/
def rowsClk : List RegRow :=
  [ ⟨0x100, 1, 4, "LOCK", [⟨0, 24, .ro, 0x0⟩]⟩,
    ⟨0x104, 1, 4, "LOL_CNT", [⟨0, 32, .rc, 0x0⟩]⟩ ]

/-- The registers of Table 13-11 (R354). -/
def rowsXsp : List RegRow :=
  [ ⟨0x100, 1, 4, "XSP_CFG", [⟨0, 8, .ro, 0x14⟩]⟩,
    ⟨0x104, 1, 4, "XSP_STS", [⟨0, 1, .ro, 0x0⟩]⟩ ]

/-- The registers of Table 13-11 (R354). -/
def rowsYns : List RegRow :=
  [ ⟨0x100, 1, 4, "YNS_STS", [⟨0, 1, .ro, 0x0⟩, ⟨1, 1, .ro, 0x0⟩, ⟨8, 8, .ro, 0x0⟩]⟩,
    ⟨0x104, 1, 4, "FW_VER", [⟨0, 32, .ro, 0x0⟩]⟩,
    ⟨0x108, 1, 4, "SCFG_STS", [⟨0, 1, .ro, 0x0⟩, ⟨1, 1, .ro, 0x0⟩, ⟨4, 12, .ro, 0x0⟩, ⟨16, 12, .ro, 0x0⟩]⟩ ]

/-- The registers of Table 14-3 (R367). -/
def rowsFv : List RegRow :=
  [ ⟨0x100, 1, 4, "FV_STICKY", [⟨0, 8, .w1c, 0x0⟩]⟩,
    ⟨0x104, 1, 4, "FV_IRQ", [⟨0, 8, .rw, 0x0⟩, ⟨16, 11, .rw, 0x0⟩]⟩,
    ⟨0x108, 8, 4, "FV_CNT k", [⟨0, 32, .rc, 0x0⟩]⟩,
    ⟨0x128, 1, 4, "FV_LAST", [⟨0, 3, .ro, 0x0⟩, ⟨8, 6, .ro, 0x0⟩, ⟨16, 4, .ro, 0x0⟩, ⟨31, 1, .w1c, 0x0⟩]⟩,
    ⟨0x12C, 1, 4, "FV_LAST_SEQ", [⟨0, 32, .ro, 0x0⟩]⟩ ]

/-- Part 0 of `rowsBsn`. -/
def rowsBsn0 : List RegRow :=
  [ ⟨0x100, 1, 4, "SRC_SEL", [⟨0, 9, .rw, 0x0⟩]⟩,
    ⟨0x104, 1, 4, "SRC_CFG", [⟨0, 8, .rwl, 0x0⟩, ⟨8, 2, .rwl, 0x0⟩, ⟨10, 1, .rwl, 0x1⟩, ⟨11, 1, .rwl, 0x1⟩]⟩,
    ⟨0x108, 1, 4, "SRC_WIN", [⟨0, 24, .rwl, 0x0⟩]⟩,
    ⟨0x10C, 1, 4, "SRC_QUIET", [⟨0, 24, .rwl, 0x927C0⟩]⟩,
    ⟨0x110, 1, 4, "SRC_STS", [⟨0, 8, .ro, 0x0⟩, ⟨8, 2, .ro, 0x0⟩, ⟨15, 1, .wo, 0x0⟩, ⟨16, 16, .ro, 0x0⟩]⟩,
    ⟨0x114, 9, 4, "SRC_STICKYi", [⟨0, 32, .w1c, 0x0⟩]⟩,
    ⟨0x138, 1, 4, "RECOVERY_CNT", [⟨0, 32, .rc, 0x0⟩]⟩,
    ⟨0x13C, 1, 4, "STALE_EPOCH_CNT", [⟨0, 32, .rc, 0x0⟩]⟩,
    ⟨0x140, 1, 4, "LAST_SEV", [⟨0, 9, .ro, 0x0⟩, ⟨16, 8, .ro, 0x0⟩, ⟨31, 1, .w1c, 0x0⟩]⟩,
    ⟨0x144, 1, 4, "LAST_SEV_MS", [⟨0, 32, .ro, 0x0⟩]⟩,
    ⟨0x148, 1, 4, "ERRN_CTL", [⟨0, 1, .rw, 0x1⟩, ⟨8, 8, .rwl, 0xA⟩, ⟨16, 1, .ro, 0x0⟩]⟩,
    ⟨0x14C, 1, 4, "READMIT", [⟨0, 7, .rw, 0x0⟩, ⟨28, 2, .ro, 0x0⟩, ⟨31, 1, .w1s, 0x0⟩]⟩ ]

/-- Part 1 of `rowsBsn`. -/
def rowsBsn1 : List RegRow :=
  [ ⟨0x150, 4, 4, "FENCEDi", [⟨0, 32, .ro, 0x0⟩]⟩,
    ⟨0x160, 1, 4, "FV_SEL", [⟨0, 6, .rw, 0x0⟩]⟩ ]

/-- The registers of Table 14-5 (R371). -/
def rowsBsn : List RegRow :=
  rowsBsn0 ++ rowsBsn1

/-- Part 0 of `rowsSec`. -/
def rowsSec0 : List RegRow :=
  [ ⟨0x100, 1, 4, "SEC_STS", [⟨0, 2, .ro, 0x0⟩, ⟨2, 1, .ro, 0x0⟩, ⟨3, 1, .ro, 0x0⟩, ⟨4, 1, .ro, 0x0⟩, ⟨5, 1, .ro, 0x0⟩, ⟨6, 1, .w1c, 0x0⟩, ⟨8, 2, .ro, 0x0⟩]⟩,
    ⟨0x104, 1, 4, "FUSE_STS", [⟨0, 4, .ro, 0x0⟩, ⟨8, 7, .ro, 0x0⟩]⟩,
    ⟨0x108, 1, 4, "SVN_ADV", [⟨0, 7, .wo, 0x0⟩]⟩,
    ⟨0x10C, 1, 4, "BOOT_ERR", [⟨0, 4, .ro, 0x0⟩]⟩,
    ⟨0x110, 1, 4, "RES_NEXT_LO", [⟨0, 32, .ro, 0x0⟩]⟩,
    ⟨0x114, 1, 4, "RES_NEXT_HI", [⟨0, 8, .ro, 0x0⟩]⟩,
    ⟨0x118, 1, 4, "RES_END_LO", [⟨0, 32, .ro, 0x0⟩]⟩,
    ⟨0x11C, 1, 4, "RES_END_HI", [⟨0, 8, .ro, 0x0⟩]⟩,
    ⟨0x120, 1, 4, "RES_SKIP", [⟨0, 32, .ro, 0x0⟩]⟩,
    ⟨0x124, 1, 4, "SIGN_CNT", [⟨0, 32, .rc, 0x0⟩]⟩,
    ⟨0x128, 1, 4, "MEAS_SEL", [⟨0, 3, .rw, 0x0⟩]⟩,
    ⟨0x12C, 1, 4, "MEAS_EXT", [⟨0, 1, .w1c, 0x0⟩, ⟨31, 1, .w1s, 0x0⟩]⟩ ]

/-- Part 1 of `rowsSec`. -/
def rowsSec1 : List RegRow :=
  [ ⟨0x130, 8, 4, "MEAS_DATAi", [⟨0, 32, .wo, 0x0⟩]⟩,
    ⟨0x150, 8, 4, "MEAS_VALi", [⟨0, 32, .ro, 0x0⟩]⟩,
    ⟨0x170, 8, 4, "DBG_CHALi", [⟨0, 32, .ro, 0x0⟩]⟩,
    ⟨0x190, 1, 4, "DBG_STS", [⟨0, 5, .ro, 0x0⟩]⟩,
    ⟨0x194, 1, 4, "DBG_SCOPE", [⟨0, 32, .ro, 0x0⟩]⟩ ]

/-- The registers of Table 15-5 (R392). -/
def rowsSec : List RegRow :=
  rowsSec0 ++ rowsSec1

/-- The registers of Table 15-6 (R392). -/
def rowsAtt : List RegRow :=
  [ ⟨0x0, 1, 4, "ATT_ADDR_LO", [⟨12, 20, .rw, 0x0⟩]⟩,
    ⟨0x4, 1, 4, "ATT_ADDR_HI", [⟨0, 16, .rw, 0x0⟩]⟩,
    ⟨0x8, 1, 4, "ATT_CTL", [⟨0, 6, .rw, 0x0⟩, ⟨6, 1, .rw, 0x0⟩, ⟨16, 11, .rw, 0x0⟩, ⟨31, 1, .w1s, 0x0⟩]⟩,
    ⟨0xC, 1, 4, "ATT_STS", [⟨0, 3, .ro, 0x0⟩]⟩ ]

/-- The registers of Table 16-7 (R412). -/
def rowsMb : List RegRow :=
  [ ⟨0x0, 1, 4, "MB_CTL", [⟨0, 1, .w1s, 0x0⟩]⟩,
    ⟨0x4, 1, 4, "MB_STS", [⟨0, 1, .ro, 0x0⟩, ⟨1, 1, .w1c, 0x0⟩, ⟨8, 8, .ro, 0x0⟩]⟩,
    ⟨0x8, 1, 4, "MB_IRQ", [⟨0, 1, .rw, 0x0⟩, ⟨16, 11, .rw, 0x0⟩]⟩ ]

/-- The registers of Table 16-10 (R416). -/
def rowsPci : List RegRow :=
  [ ⟨0x100, 1, 4, "PCI_STS", [⟨0, 1, .ro, 0x0⟩, ⟨1, 3, .ro, 0x0⟩, ⟨4, 5, .ro, 0x0⟩, ⟨9, 1, .ro, 0x0⟩, ⟨10, 3, .ro, 0x0⟩]⟩,
    ⟨0x104, 1, 4, "BAR2_WIN", [⟨0, 9, .rw, 0x0⟩]⟩,
    ⟨0x108, 1, 4, "RP_CTL", [⟨0, 6, .rwl, 0x0⟩, ⟨31, 1, .rw, 0x0⟩]⟩,
    ⟨0x10C, 1, 4, "LTR", [⟨0, 10, .rw, 0xA⟩]⟩,
    ⟨0x110, 1, 4, "OOR_CNT", [⟨0, 32, .rc, 0x0⟩]⟩,
    ⟨0x114, 1, 4, "RP_XLATE_CNT", [⟨0, 32, .rc, 0x0⟩]⟩,
    ⟨0x118, 1, 4, "CPL_TMO_CNT", [⟨0, 32, .rc, 0x0⟩]⟩,
    ⟨0x11C, 1, 4, "POISON_CNT", [⟨0, 32, .rc, 0x0⟩]⟩ ]

/-- The registers of Table 16-11 (R416). -/
def rowsSdi : List RegRow :=
  [ ⟨0x100, 1, 4, "SDI_CTL", [⟨0, 1, .rwl, 0x1⟩, ⟨1, 1, .rwl, 0x1⟩]⟩,
    ⟨0x104, 1, 4, "SDI_STS", [⟨0, 3, .ro, 0x0⟩, ⟨3, 1, .ro, 0x0⟩, ⟨4, 2, .ro, 0x0⟩]⟩,
    ⟨0x108, 1, 4, "CRC_ERR_CNT", [⟨0, 32, .rc, 0x0⟩]⟩,
    ⟨0x10C, 1, 4, "DENY_CNT", [⟨0, 32, .rc, 0x0⟩]⟩ ]

/-- The registers of Table 16-12 (R416). -/
def rowsHcx : List RegRow :=
  [ ⟨0x100, 1, 4, "HART_CTL", [⟨0, 8, .rw, 0x0⟩]⟩,
    ⟨0x104, 1, 4, "HART_STS", [⟨0, 8, .ro, 0x0⟩, ⟨8, 8, .ro, 0x0⟩]⟩,
    ⟨0x108, 1, 4, "BOOT_VEC_LO", [⟨0, 32, .rwl, 0x0⟩]⟩,
    ⟨0x10C, 1, 4, "BOOT_VEC_HI", [⟨0, 32, .rwl, 0x0⟩]⟩ ]

/-- The registers of Table 17-8 (R440). -/
def rowsSvl : List RegRow :=
  [ ⟨0x100, 1, 4, "PORT_STS", [⟨0, 1, .ro, 0x0⟩, ⟨1, 1, .ro, 0x0⟩, ⟨4, 4, .ro, 0x0⟩, ⟨8, 3, .ro, 0x0⟩]⟩,
    ⟨0x104, 1, 4, "PORT_CTL", [⟨0, 1, .rw, 0x0⟩, ⟨8, 8, .rwl, 0xA⟩, ⟨16, 8, .rwl, 0x28⟩]⟩,
    ⟨0x108, 1, 4, "RETRY_CNT", [⟨0, 32, .rc, 0x0⟩]⟩,
    ⟨0x10C, 1, 4, "FEC_CNT", [⟨0, 32, .rc, 0x0⟩]⟩,
    ⟨0x110, 1, 4, "CRC_CNT", [⟨0, 32, .rc, 0x0⟩]⟩,
    ⟨0x114, 1, 4, "XLATE_CNT", [⟨0, 32, .rc, 0x0⟩]⟩,
    ⟨0x118, 1, 4, "PEER_ID0", [⟨0, 32, .ro, 0x0⟩]⟩,
    ⟨0x11C, 1, 4, "PEER_ID1", [⟨0, 32, .ro, 0x0⟩]⟩ ]

/-- Part 0 of `rowsSvl0`. -/
def rowsSvl00 : List RegRow :=
  [ ⟨0x200, 1, 4, "DOM_CTL", [⟨0, 4, .rwl, 0x0⟩, ⟨4, 3, .rwl, 0x0⟩, ⟨31, 1, .w1s, 0x0⟩]⟩,
    ⟨0x204, 1, 4, "DOM_TAG", [⟨0, 32, .rwl, 0x0⟩]⟩,
    ⟨0x208, 1, 4, "DOM_STS", [⟨0, 16, .ro, 0x0⟩, ⟨16, 1, .ro, 0x0⟩]⟩,
    ⟨0x20C, 1, 4, "SLOT_EN_LO", [⟨0, 32, .rw, 0x0⟩]⟩,
    ⟨0x210, 1, 4, "SLOT_EN_HI", [⟨0, 32, .rw, 0x0⟩]⟩,
    ⟨0x214, 1, 4, "LR_SEL", [⟨0, 4, .rw, 0x0⟩]⟩,
    ⟨0x218, 1, 4, "LR_BASE_LO", [⟨6, 26, .rw, 0x0⟩]⟩,
    ⟨0x21C, 1, 4, "LR_BASE_HI", [⟨0, 16, .rw, 0x0⟩]⟩,
    ⟨0x220, 1, 4, "LR_CTL", [⟨0, 6, .rw, 0x0⟩, ⟨8, 4, .rw, 0x4⟩, ⟨12, 1, .rw, 0x0⟩, ⟨13, 1, .rw, 0x0⟩, ⟨16, 8, .rw, 0x0⟩]⟩,
    ⟨0x224, 1, 4, "LR_PROD", [⟨0, 32, .rw, 0x0⟩]⟩,
    ⟨0x228, 1, 4, "LR_CONS", [⟨0, 32, .ro, 0x0⟩]⟩,
    ⟨0x22C, 1, 4, "LR_TMO_US", [⟨0, 32, .rw, 0xF4240⟩]⟩ ]

/-- Part 1 of `rowsSvl0`. -/
def rowsSvl01 : List RegRow :=
  [ ⟨0x230, 1, 4, "LR_STS", [⟨0, 2, .ro, 0x0⟩, ⟨4, 4, .ro, 0x0⟩, ⟨16, 16, .ro, 0x0⟩]⟩,
    ⟨0x234, 1, 4, "LR_ERR", [⟨0, 31, .ro, 0x0⟩, ⟨31, 1, .w1c, 0x0⟩]⟩,
    ⟨0x238, 1, 4, "LR_CMD", [⟨0, 1, .w1s, 0x0⟩, ⟨1, 1, .w1s, 0x0⟩]⟩ ]

/-- The registers of Table 17-9 (R440). -/
def rowsSvl0 : List RegRow :=
  rowsSvl00 ++ rowsSvl01

/-- Part 0 of `rowsHdr`. -/
def rowsHdr0 : List RegRow :=
  [ ⟨0x0, 1, 4, "BLK_ID", [⟨0, 8, .ro, 0x0⟩, ⟨8, 8, .ro, 0x0⟩, ⟨16, 8, .ro, 0x0⟩]⟩,
    ⟨0x4, 1, 4, "BLK_VER", [⟨0, 8, .ro, 0x0⟩, ⟨8, 8, .ro, 0x1⟩]⟩,
    ⟨0x8, 1, 4, "BLK_CTL", [⟨0, 1, .w1s, 0x0⟩]⟩,
    ⟨0xC, 1, 4, "BLK_STS", [⟨0, 1, .ro, 0x0⟩, ⟨1, 1, .ro, 0x0⟩, ⟨2, 1, .ro, 0x0⟩]⟩,
    ⟨0x10, 1, 4, "IRQ_RAW", [⟨0, 32, .ro, 0x0⟩]⟩,
    ⟨0x14, 1, 4, "IRQ_MASK", [⟨0, 32, .rw, 0xFFFFFFFF⟩]⟩,
    ⟨0x18, 1, 4, "IRQ_PEND", [⟨0, 32, .w1c, 0x0⟩]⟩,
    ⟨0x1C, 1, 4, "IRQ_FORCE", [⟨0, 32, .wo, 0x0⟩]⟩,
    ⟨0x20, 1, 4, "FLT_STICKY", [⟨0, 32, .w1c, 0x0⟩]⟩,
    ⟨0x24, 1, 4, "FLT_MASK", [⟨0, 32, .rwl, 0x0⟩]⟩,
    ⟨0x28, 1, 4, "FLT_INJ", [⟨0, 5, .rwl, 0x0⟩, ⟨8, 2, .rwl, 0x0⟩, ⟨16, 1, .rwl, 0x0⟩, ⟨17, 1, .w1c, 0x0⟩]⟩,
    ⟨0x2C, 1, 4, "FLT_CNT", [⟨0, 32, .rc, 0x0⟩]⟩ ]

/-- Part 1 of `rowsHdr`. -/
def rowsHdr1 : List RegRow :=
  [ ⟨0x30, 1, 4, "PWR_REQ", [⟨0, 2, .ro, 0x0⟩, ⟨2, 6, .ro, 0x0⟩]⟩,
    ⟨0x34, 1, 4, "PWR_ACK", [⟨0, 2, .ro, 0x0⟩, ⟨2, 6, .ro, 0x0⟩, ⟨8, 8, .ro, 0x0⟩, ⟨16, 16, .ro, 0x0⟩]⟩,
    ⟨0x38, 1, 4, "RET_LIST", [⟨0, 15, .ro, 0x0⟩, ⟨16, 12, .ro, 0x0⟩]⟩,
    ⟨0x3C, 1, 4, "EPOCH", [⟨0, 16, .ro, 0x0⟩, ⟨16, 1, .ro, 0x0⟩, ⟨17, 1, .ro, 0x0⟩]⟩ ]

/-- The registers of Table 18-2 (R445). -/
def rowsHdr : List RegRow :=
  rowsHdr0 ++ rowsHdr1

/-- The registers of Table 18-4 (R448). -/
def rowsGlb : List RegRow :=
  [ ⟨0x100, 1, 4, "CHIP_ID", [⟨0, 16, .ro, 0x6496⟩, ⟨16, 8, .ro, 0x0⟩]⟩,
    ⟨0x104, 1, 4, "MODE", [⟨0, 1, .ro, 0x0⟩]⟩,
    ⟨0x108, 1, 4, "IRQ_CTL", [⟨0, 1, .rw, 0x0⟩, ⟨16, 11, .rw, 0x0⟩]⟩,
    ⟨0x10C, 1, 4, "GATED_WR_CNT", [⟨0, 32, .rc, 0x0⟩]⟩,
    ⟨0x110, 4, 4, "SCRATCHi", [⟨0, 32, .rw, 0x0⟩]⟩,
    ⟨0x120, 5, 4, "IRQ_SUMi", [⟨0, 32, .ro, 0x0⟩]⟩,
    ⟨0x140, 5, 4, "FLT_SUMi", [⟨0, 32, .ro, 0x0⟩]⟩,
    ⟨0x160, 5, 4, "LOCK_SUMi", [⟨0, 32, .ro, 0x0⟩]⟩,
    ⟨0x180, 1, 4, "LOCK_ALL", [⟨0, 5, .wo, 0x0⟩, ⟨5, 1, .wo, 0x0⟩, ⟨31, 1, .wo, 0x0⟩]⟩,
    ⟨0x184, 1, 4, "ACC_ERR_CNT", [⟨0, 32, .rc, 0x0⟩]⟩ ]

/-- Part 0 of `rowsCap`. -/
def rowsCap0 : List RegRow :=
  [ ⟨0x100, 1, 4, "CORES", [⟨0, 7, .ro, 0x50⟩, ⟨8, 7, .ro, 0x40⟩, ⟨16, 5, .ro, 0x10⟩, ⟨24, 3, .ro, 0x5⟩]⟩,
    ⟨0x104, 1, 4, "MAP_GEN", [⟨0, 32, .ro, 0x0⟩]⟩,
    ⟨0x108, 1, 4, "CORE_RES", [⟨0, 8, .ro, 0x20⟩, ⟨8, 8, .ro, 0x80⟩, ⟨16, 16, .ro, 0x200⟩]⟩,
    ⟨0x10C, 1, 4, "REG_ENTRIES", [⟨0, 32, .ro, 0x10000⟩]⟩,
    ⟨0x110, 1, 4, "MEM_KIB", [⟨0, 16, .ro, 0x100⟩, ⟨16, 16, .ro, 0x1000⟩]⟩,
    ⟨0x114, 1, 4, "HBM_MIB", [⟨0, 32, .ro, 0x0⟩]⟩,
    ⟨0x118, 1, 4, "CTX", [⟨0, 8, .ro, 0x40⟩, ⟨8, 8, .ro, 0x10⟩, ⟨16, 16, .ro, 0x1000⟩]⟩,
    ⟨0x11C, 1, 4, "TABLES", [⟨0, 5, .ro, 0x14⟩, ⟨8, 5, .ro, 0x12⟩, ⟨16, 16, .ro, 0x2000⟩]⟩,
    ⟨0x120, 1, 4, "LVN", [⟨0, 10, .ro, 0x200⟩, ⟨16, 13, .ro, 0x1000⟩]⟩,
    ⟨0x124, 1, 4, "CMP", [⟨0, 4, .ro, 0xE⟩, ⟨4, 4, .ro, 0x3⟩, ⟨8, 4, .ro, 0x2⟩, ⟨12, 4, .ro, 0x8⟩]⟩,
    ⟨0x128, 1, 4, "ENGINES", [⟨0, 4, .ro, 0x2⟩, ⟨4, 4, .ro, 0x4⟩, ⟨8, 8, .ro, 0x10⟩, ⟨16, 4, .ro, 0x4⟩, ⟨24, 4, .ro, 0x8⟩]⟩,
    ⟨0x12C, 1, 4, "GRADE", [⟨0, 1, .ro, 0x0⟩, ⟨8, 8, .ro, 0x0⟩, ⟨16, 8, .ro, 0x0⟩]⟩ ]

/-- Part 1 of `rowsCap`. -/
def rowsCap1 : List RegRow :=
  [ ⟨0x130, 1, 4, "SAVE", [⟨0, 16, .ro, 0x400⟩]⟩,
    ⟨0x140, 16, 4, "LMAPw", [⟨0, 7, .ro, 0x0⟩, ⟨8, 7, .ro, 0x0⟩, ⟨16, 7, .ro, 0x0⟩, ⟨24, 7, .ro, 0x0⟩]⟩,
    ⟨0x180, 20, 4, "FMAXw", [⟨0, 8, .ro, 0x0⟩, ⟨8, 8, .ro, 0x0⟩, ⟨16, 8, .ro, 0x0⟩, ⟨24, 8, .ro, 0x0⟩]⟩,
    ⟨0x200, 64, 4, "VPTw", [⟨0, 8, .ro, 0x0⟩, ⟨8, 8, .ro, 0x0⟩, ⟨16, 8, .ro, 0x0⟩, ⟨24, 8, .ro, 0x0⟩]⟩ ]

/-- The registers of Table 18-5 (R450). -/
def rowsCap : List RegRow :=
  rowsCap0 ++ rowsCap1

/-- Part 0 of `rowsFn`. -/
def rowsFn0 : List RegRow :=
  [ ⟨0x100, 1, 4, "FN_ID", [⟨0, 6, .ro, 0x0⟩]⟩,
    ⟨0x104, 1, 4, "SLOTS_LO", [⟨0, 32, .ro, 0x0⟩]⟩,
    ⟨0x108, 1, 4, "SLOTS_HI", [⟨0, 32, .ro, 0x0⟩]⟩,
    ⟨0x10C, 1, 4, "Q_SEL", [⟨0, 6, .rw, 0x0⟩, ⟨8, 4, .rw, 0x0⟩]⟩,
    ⟨0x110, 1, 4, "Q_CMD", [⟨0, 1, .wo, 0x0⟩, ⟨1, 1, .wo, 0x0⟩, ⟨2, 1, .wo, 0x0⟩, ⟨3, 1, .wo, 0x0⟩]⟩,
    ⟨0x114, 1, 4, "Q_STS", [⟨0, 3, .ro, 0x0⟩, ⟨8, 8, .ro, 0x0⟩, ⟨16, 1, .ro, 0x0⟩, ⟨17, 1, .w1c, 0x0⟩]⟩,
    ⟨0x118, 1, 4, "CTX_KILL", [⟨0, 6, .rw, 0x0⟩, ⟨30, 1, .w1c, 0x0⟩, ⟨31, 1, .w1s, 0x0⟩]⟩,
    ⟨0x11C, 1, 4, "COMPAT_DB", [⟨0, 12, .wo, 0x0⟩, ⟨12, 4, .wo, 0x0⟩]⟩,
    ⟨0x130, 1, 4, "FWIN_BASE", [⟨0, 20, .ro, 0x0⟩]⟩,
    ⟨0x134, 1, 4, "FWIN_SIZE", [⟨0, 21, .ro, 0x0⟩]⟩,
    ⟨0x138, 1, 4, "SHARE_GRP", [⟨0, 8, .ro, 0x0⟩]⟩,
    ⟨0x13C, 1, 4, "SWIN_BASE", [⟨0, 18, .ro, 0x0⟩]⟩ ]

/-- Part 1 of `rowsFn`. -/
def rowsFn1 : List RegRow :=
  [ ⟨0x120, 1, 4, "OBJ_SEL", [⟨0, 29, .rw, 0x0⟩]⟩,
    ⟨0x124, 1, 4, "OBJ_OP", [⟨0, 3, .wo, 0x0⟩, ⟨8, 8, .wo, 0x0⟩, ⟨16, 16, .wo, 0x0⟩]⟩,
    ⟨0x128, 1, 4, "OBJ_RES", [⟨0, 3, .ro, 0x0⟩, ⟨16, 16, .ro, 0x0⟩]⟩,
    ⟨0x140, 1, 4, "SWIN_SIZE", [⟨0, 19, .ro, 0x0⟩]⟩ ]

/-- The registers of Table 18-6 (R452). -/
def rowsFn : List RegRow :=
  rowsFn0 ++ rowsFn1

/-- The registers of Table 19-5 (R465). -/
def rowsAna : List RegRow :=
  [ ⟨0x100, 1, 4, "ANA_CTL", [⟨0, 8, .rw, 0x0⟩]⟩,
    ⟨0x104, 1, 4, "ANA_STS", [⟨0, 1, .ro, 0x0⟩]⟩,
    ⟨0x108, 8, 4, "ANA_RES i", [⟨0, 12, .ro, 0x0⟩, ⟨16, 15, .ro, 0x0⟩, ⟨31, 1, .ro, 0x0⟩]⟩,
    ⟨0x128, 4, 4, "CMP_CFG c", [⟨0, 3, .rwl, 0x0⟩, ⟨3, 1, .rwl, 0x0⟩, ⟨4, 10, .rwl, 0x0⟩, ⟨16, 8, .rwl, 0x0⟩]⟩,
    ⟨0x138, 1, 4, "CMP_STS", [⟨0, 4, .ro, 0x0⟩, ⟨4, 4, .w1c, 0x0⟩, ⟨8, 4, .w1c, 0x0⟩]⟩ ]

/-- A function's MSI-X table: 16-byte entries of a 64-bit message address, a 32-bit message datum and the vector
control, whose mask bit is 1 after reset (Table 16-2, R398; the entry's layout is PCI Express's own, R5). -/
def rowsMsix : List RegRow :=
  [ ⟨0x0, 2048, 16, "MSIX_ADDR", [⟨2, 30, .rw, 0x0⟩]⟩,
    ⟨0x4, 2048, 16, "MSIX_ADDR_UP", [⟨0, 32, .rw, 0x0⟩]⟩,
    ⟨0x8, 2048, 16, "MSIX_DATA", [⟨0, 32, .rw, 0x0⟩]⟩,
    ⟨0xC, 2048, 16, "MSIX_CTRL", [⟨0, 1, .rw, 0x1⟩]⟩ ]

/-- A function's Pending Bit Array (Table 16-2, R398). -/
def rowsPba : List RegRow :=
  [ ⟨0x0, 64, 4, "MSIX_PBA", [⟨0, 32, .ro, 0x0⟩]⟩ ]

/-- The request and response areas of a mailbox port (Table 16-7). -/
def rowsMbArea : List RegRow :=
  [ ⟨0x100, 256, 4, "REQ", [⟨0, 32, .rw, 0x0⟩]⟩,
    ⟨0x500, 256, 4, "RSP", [⟨0, 32, .ro, 0x0⟩]⟩ ]

/-! ## Pages (Table 18-1) -/

abbrev pgGlb : Nat := 0
abbrev pgCap : Nat := 1
abbrev pgPwr : Nat := 2
abbrev pgBsn : Nat := 3
abbrev pgSec : Nat := 4
abbrev pgAna : Nat := 5
abbrev pgCst : Nat := 6
abbrev pgXsp : Nat := 7
abbrev pgYns : Nat := 8
abbrev pgRst : Nat := 9
abbrev pgClk : Nat := 10
abbrev pgWeir (n : Nat) : Nat := 11 + n
abbrev pgCl (n : Nat) : Nat := 27 + n
abbrev pgSc (p : Nat) : Nat := 43 + p
abbrev pgFe : Nat := 123
abbrev pgTlr : Nat := 124
abbrev pgCmp : Nat := 125
abbrev pgCz (n : Nat) : Nat := 126 + n
abbrev pgMmu : Nat := 128
abbrev pgDma (n : Nat) : Nat := 129 + n
abbrev pgLvn : Nat := 133
abbrev pgFnc : Nat := 134
abbrev pgHbc (n : Nat) : Nat := 135 + n
abbrev pgPci : Nat := 139
abbrev pgSdi : Nat := 140
abbrev pgSvl (n : Nat) : Nat := 141 + n
abbrev pgHcx : Nat := 145
/-- The FN pages of the function regions, the bank being the function (R451). -/
abbrev pgFn : Nat := 146
/-- The Basin views, the bank being the function (R367). -/
abbrev pgFv : Nat := 147
/-- The attestation blocks, the bank being the function, and 64 for the block of the SEC page (R385). -/
abbrev pgAtt : Nat := 148
/-- The MSI-X tables, the bank being the function (Table 16-2, R398). -/
abbrev pgMsix : Nat := 150
/-- The Pending Bit Arrays, the bank being the function (Table 16-2, R398). -/
abbrev pgPba : Nat := 152
/-- The bulk window of the host port (Table 16-2), whose bytes `State.mbx` holds. -/
abbrev pgBulk : Nat := 153
/-- The mailbox ports: bank 0 the SDIO port, bank 1 the host port (R412). -/
abbrev pgMb : Nat := 151

/-- The key of a register: page, bank (the index that a select register chooses, 0 for the others), offset. -/
abbrev rk (page bank off : Nat) : Nat := (page * 512 + bank) * 65536 + off

/-- BLK_ID.TYPE of a page (Table 18-1). -/
def pageType (pg : Nat) : Nat :=
  if pg ≤ 10 then pg + 1
  else if pg < 27 then 0x10
  else if pg < 43 then 0x11
  else if pg < 123 then 0x12
  else if pg = 123 then 0x20
  else if pg = 124 then 0x21
  else if pg = 125 then 0x22
  else if pg < 128 then 0x23
  else if pg = 128 then 0x24
  else if pg < 133 then 0x25
  else if pg = 133 then 0x26
  else if pg = 134 then 0x27
  else if pg < 139 then 0x30
  else if pg = 139 then 0x40
  else if pg = 140 then 0x41
  else if pg < 145 then 0x42
  else 0x43

/-- BLK_ID.INST of a page: the instance n or p, 0 for single pages (Table 18-1). -/
def pageInst (pg : Nat) : Nat :=
  if pg < 11 then 0
  else if pg < 27 then pg - 11
  else if pg < 43 then pg - 27
  else if pg < 123 then pg - 43
  else if pg = 127 then 1
  else if 129 ≤ pg ∧ pg < 133 then pg - 129
  else if 135 ≤ pg ∧ pg < 139 then pg - 135
  else if 141 ≤ pg ∧ pg < 145 then pg - 141
  else 0

/-- The power domain in which a page's registers are held (Table 18-1; 120 is AON). -/
def pageDomain (pg : Nat) : Nat :=
  if pg = 0 ∨ pg = 4 ∨ pg = 145 then 105
  else if pg < 11 then 120
  else if pg < 27 then 80 + (pg - 11)
  else if pg < 43 then 80 + (pg - 27)
  else if pg < 123 then pg - 43
  else if pg = 123 then 105
  else if pg = 124 then 106
  else if pg = 125 then 107
  else if pg < 128 then 108
  else if pg < 133 then 109
  else if pg < 135 then 110
  else if pg < 139 then 111 + (pg - 135)
  else if pg = 139 then 115
  else if pg = 140 then 120
  else if pg < 145 then 116 + (pg - 141)
  else 105

/-- The block-specific register rows of a page, and of the pages of the function regions. -/
def pageRows (pg : Nat) : List RegRow :=
  if pg = 0 then rowsGlb
  else if pg = 1 then rowsCap
  else if pg = 2 then rowsPwr
  else if pg = 3 then rowsBsn
  else if pg = 4 then rowsSec
  else if pg = 5 then rowsAna
  else if pg = 6 then rowsCst
  else if pg = 7 then rowsXsp
  else if pg = 8 then rowsYns
  else if pg = 9 then rowsRst
  else if pg = 10 then rowsClk
  else if pg < 27 then rowsWeir
  else if pg < 43 then rowsCl
  else if pg < 123 then rowsSc
  else if pg = 123 then rowsFe
  else if pg = 124 then rowsTlr
  else if pg = 125 then rowsCmp
  else if pg < 128 then rowsCz
  else if pg = 128 then rowsMmu
  else if pg < 133 then rowsDma
  else if pg = 133 then rowsLvn
  else if pg = 134 then rowsFnc
  else if pg = 135 then rowsHbc
  else if pg < 139 then rowsHbc.filter (fun r => r.off != 0x124 && r.off != 0x128)
  else if pg = 139 then rowsPci
  else if pg = 140 then rowsSdi
  else if pg = 141 then rowsSvl ++ rowsSvl0
  else if pg < 145 then rowsSvl
  else if pg = 145 then rowsHcx
  else if pg = 146 then rowsFn
  else if pg = 147 then rowsFv
  else if pg = 148 then rowsAtt
  else if pg = 150 then rowsMsix
  else if pg = 151 then rowsMb ++ rowsMbArea
  else if pg = 152 then rowsPba
  else []

/-- Every row of a page: the common header of a block page (R445), then its own. -/
def allRows (pg : Nat) : List RegRow :=
  if pg < 146 then rowsHdr ++ pageRows pg else pageRows pg

/-- The row that holds an offset, if one does. -/
def findRow (rows : List RegRow) (off : Nat) : Option RegRow :=
  rows.find? (fun r => r.off ≤ off && (off - r.off) % r.stride == 0 && (off - r.off) / r.stride < r.cnt)

/-- The fields of the register at an offset of a page; none where the offset is reserved (R7). -/
def regFields (pg off : Nat) : List Fld :=
  match findRow (allRows pg) off with
  | some r => r.flds
  | none => []

/-- N, W in ms and REACT of a Basin source at reset (Table 14-1): `(N, W, REACT)`. -/
def srcReset (i : Nat) : Nat × Nat × Nat :=
  if i < 80 then (1, 0, 1)
  else if i < 160 then (2, 3600000, 1)
  else if i < 176 then (255, 3600000, 0)
  else if i < 192 then (2, 3600000, 1)
  else if i < 208 then (1, 0, 1)
  else if i < 212 then (16, 3600000, 0)
  else if i < 216 then (255, 60000, 0)
  else if i < 220 then (1, 0, 0)
  else if i < 224 then (1, 0, 0)
  else if i < 228 then (4, 60000, 1)
  else if i = 228 then (1, 0, 0)
  else if i = 229 then (255, 60000, 0)
  else if i < 265 then (1, 0, 0)
  else if i < 267 then (1, 0, 3)
  else if i < 275 then (2, 3600000, 1)
  else if i = 275 then (4, 3600000, 0)
  else if i < 283 then (2, 3600000, 0)
  else if i = 284 then (255, 1000, 0)
  else (1, 0, 0)

/-- Grade Tj maximum in °C (Table 0-1). -/
def tjMax : Nat := if Config.gradeE then 105 else 95

/-- Reset throttle limit of a sensor in quarter degrees (Table 12-4). -/
def tsThrReset (i : Nat) : Nat := if 16 ≤ i ∧ i < 20 then 340 else (tjMax - 10) * 4

/-- Reset critical limit of a sensor in quarter degrees (Table 12-4). -/
def tsCritReset (i : Nat) : Nat := if 16 ≤ i ∧ i < 20 then 380 else tjMax * 4

/-- A map of the logical indices on four cores of each cluster, no core twice (R14, R15). -/
def mapOk (f : Nat → Nat) : Bool :=
  (List.range 16).all (fun c => ((List.range 64).filter (fun l => f l / 5 == c)).length == 4) &&
  (List.range 80).all (fun p => ((List.range 64).filter (fun l => f l == p)).length ≤ 1)

/-- The physical core that the fuses give a logical index: four enabled cores and one spare a cluster (R14, R15). -/
def fusedPhys (l : Nat) : Nat := if mapOk Config.lmap then Config.lmap l else l / 4 * 5 + l % 4

/-- The binned maximum code of a physical core, 1,800 MHz + 5 MHz × code: 1.90 GHz to 2.10 GHz (R2, Table 18-5). -/
def binCode (p : Nat) : Nat := 20 + (Config.fmaxCode p).toNat % 41

/-- The reset value that a register's own table gives by a rule and not by a number: fuses, straps, Tables 14-1, 18-1
and 12-4, FN_ID. -/
def specialReset (pg bank off : Nat) : Option Word :=
  if pg < 146 ∧ off = 0x000 then some (BitVec.ofNat 32 (pageType pg + pageInst pg * 256 + pg * 65536))
  else if pg < 146 ∧ off = 0x004 then some (BitVec.ofNat 32 (256 + (Config.fuse (rk pg 0 4)).toNat % 256))
  else if pg < 146 ∧ off = 0x00C ∧ pageDomain pg = 120 then some 1
  else if pg < 146 ∧ off = 0x038 ∧ pageDomain pg ≠ 120 then some (Config.retList pg &&& 0x0FFF7FFF)
  else if pg < 146 ∧ 43 ≤ pg ∧ pg < 123 ∧ off = 0x03C then
    some (if (List.range 64).any (fun l => fusedPhys l == pg - 43) then 0 else 0x20000)
  else if pg = 0 ∧ off = 0x100 then some (BitVec.ofNat 32 (0x6496 + (Config.fuse (rk 0 0 0x100)).toNat % 256 * 65536))
  else if pg = 1 ∧ off = 0x12C then
    some (BitVec.ofNat 32 ((if Config.gradeE then 1 else 0) + tjMax * 256 + (if Config.gradeE then 216 else 0) * 65536))
  else if pg = 1 ∧ 0x140 ≤ off ∧ off < 0x180 then
    let w := (off - 0x140) / 4
    some (BitVec.ofNat 32 ((List.range 4).foldl (fun a i => a + fusedPhys (4 * w + i) * 256 ^ i) 0))
  else if pg = 1 ∧ 0x180 ≤ off ∧ off < 0x1D0 then
    let w := (off - 0x180) / 4
    some (BitVec.ofNat 32 ((List.range 4).foldl (fun a i => a + binCode (4 * w + i) * 256 ^ i) 0))
  else if pg = 1 ∧ 0x200 ≤ off ∧ off < 0x300 then
    let w := (off - 0x200) / 4
    some (BitVec.ofNat 32 ((List.range 4).foldl
      (fun a i => a + (Config.voltCode ((4 * w + i) / 16) ((4 * w + i) % 16)).toNat * 256 ^ i) 0))
  else if pg = 2 ∧ off = 0x190 then some (BitVec.ofNat 32 (tsThrReset bank))
  else if pg = 2 ∧ off = 0x194 then some (BitVec.ofNat 32 (tsCritReset bank))
  else if pg = 3 ∧ off = 0x104 then
    some (BitVec.ofNat 32 ((srcReset bank).1 + (srcReset bank).2.2 * 256 + 0xC00))
  else if pg = 3 ∧ off = 0x108 then some (BitVec.ofNat 32 (srcReset bank).2.1)
  else if pg = 4 ∧ off = 0x100 then some (Config.fuse (rk 4 0 0x100) &&& 0xB)
  else if pg = 4 ∧ off = 0x104 then some (Config.fuse (rk 4 0 0x104) &&& 0x7F0F)
  else if pg = 8 ∧ off = 0x100 then some (Config.fuse (rk 8 0 0x100) &&& 0xFF00)
  else if 43 ≤ pg ∧ pg < 123 ∧ off = 0x100 then
    some (BitVec.ofNat 32 (((List.range 64).find? (fun l => fusedPhys l == pg - 43)).getD 0x3F))
  else if pg = 146 ∧ off = 0x100 then some (BitVec.ofNat 32 bank)
  else if pg = 146 ∧ off = 0x104 ∧ bank = 0 then some 0xFFFFFFFF
  else if pg = 146 ∧ off = 0x108 ∧ bank = 0 then some 0xFFFFFFFF
  else none

/-- The reset value of a register: what its own rule gives, or the fields' values of the tables. -/
def resetVal (pg bank off : Nat) : Word :=
  match specialReset pg bank off with
  | some v => v
  | none => BitVec.ofNat 32 ((regFields pg off).foldl (fun a f => a + f.rst * 2 ^ f.lo) 0)

/-- The reset value by register key. -/
def resetKey (k : Nat) : Word := resetVal (k / 65536 / 512) (k / 65536 % 512) (k % 65536)

end Sys2Proof.Machine
end

