-- ==== Sys2Proof/Machine/CoreTypes.lean ====
section
/-!
DEFINITION. The state of the shader cores, the matrix engines and the kernels that run on them (R61 to R116), as plain
data.
-/
namespace Sys2Proof.Machine

/-- What a path waits for (R96, R97). -/
inductive PathWait where
  | wsync (mask : BitVec 32)
  | gate (g : Nat)
  | bcl
  | dev
  | me (mask : BitVec 32)
  /-- A host-memory read, a ray in traversal, or a pixel critical section. -/
  | data
deriving DecidableEq, Repr

/-- A path: live threads of a group at one program counter (R97 to R99). -/
structure Path where
  mask : BitVec 32
  pc : Nat
  /-- Taken backward branches without a store (R98). -/
  back : Nat := 0
  demoted : Bool := false
  /-- Issue slots of the current turn. -/
  slots : Nat := 0
  wait : Option PathWait := none
  /-- The place of its wait at a barrier among all such waits, in order (R104). -/
  since : Nat := 0
deriving DecidableEq, Repr

/-- A point or a direction, exactly. -/
structure V3 where
  x : Rat
  y : Rat
  z : Rat
deriving DecidableEq, Repr

/-- A ray with its interval. -/
structure RtRay where
  o : V3
  d : V3
  lo : Rat
  hi : Rat
deriving DecidableEq, Repr

/-- The instance that a part of a walk stands in. -/
structure RtInst where
  id : Word
  opaque' : Bool
deriving DecidableEq, Repr

/-- A hit: its exact distance, its barycentric weights and what it names. -/
structure RtHit where
  t : Rat
  bary : V3
  prim : Word
  geom : Word
  inst : Option RtInst
deriving DecidableEq, Repr

/-- An entry of a traversal's stack: the references still to visit, the triangle records of a leaf that are read and not yet
tested, the ray in their space, and their instance. -/
structure RtFrame where
  refs : List Nat
  tris : List (List Word) := []
  ray : RtRay
  inst : Option RtInst
deriving DecidableEq, Repr

/-- A ray of a thread (R110 to R113): its operands, where its result goes, and its traversal: nothing until the unit begins it,
then the stack, the closest hit so far and the candidate that waits for rt.cont; paused while a candidate waits, otherwise in
flight. -/
structure Ray where
  dst : Nat
  /-- The 8 words of the ray tuple. -/
  ray : List Word
  root : Nat
  flags : Nat
  stack : Option (List RtFrame) := none
  best : Option RtHit := none
  cand : Option RtHit := none
  paused : Bool := false
deriving DecidableEq, Repr

/-- What makes a group a pixel group (R249): the tile, the primitive record and identity of its entry, its draw, the pixel
of each thread, the coverage of each thread after the early tests (0 for a helper), and its primitive record. -/
structure PixGroup where
  tile : Nat
  entry : Nat
  prim : Nat
  draw : Nat
  px : List (Nat × Nat)
  cov : List Nat
  body : List Word
deriving DecidableEq, Repr

/-- A thread group (R90 to R103). -/
structure Group where
  job : Nat
  block : Nat
  /-- Index of the group in its block. -/
  idx : Nat
  live : BitVec 32
  /-- Registers by thread × 512 + register; predicate k by thread × 512 + 256 + k, true where bit 0 is 1. A register that
  nothing has written holds the undefined start value of R95, by `seed`. -/
  regs : Tab Word := []
  seed : Nat := 0
  /-- The paths in ring order, the current path first. -/
  paths : List Path := []
  /-- The current path's turn has ended by an exit or a wait (R97). -/
  turnOver : Bool := false
  rays : Tab Ray := []
  /-- pix.out values by (thread × 16 + attachment) × 4 + component, held to the thread's exit (R251). -/
  outs : Tab Word := []
  /-- Registers per thread (R93). -/
  nregs : Nat
  /-- A pixel group's identity (R249). -/
  pix : Option PixGroup := none
  /-- Registers that were stored with inverted check bits, by thread × 512 + register: true where uncorrectable (R134,
  R369). -/
  regErr : Tab Bool := []
deriving DecidableEq, Repr

/-- A gate of a block (R101, R102): the configured count (0 = uncounted), the arrivals of the current phase, and which threads
of the block configured it since the last phase ended, with which count. -/
structure Gate where
  n : Nat := 0
  arr : Nat := 0
  cfg : List (Nat × Nat) := []
deriving DecidableEq, Repr

/-- A block of a kernel that is resident on a core (R94, R106 to R108). -/
structure Block where
  job : Nat
  core : Nat
  /-- Linear index of the block in the grid, its block cluster and its rank there. -/
  index : Nat
  bcl : Nat
  rank : Nat
  /-- Bytes of its local allocation, a multiple of 2 KiB. -/
  size : Nat
  groups : Nat
  /-- Registers per thread (R93). -/
  nregs : Nat := 0
  gates : Tab Gate := []
  /-- The block stored to cluster memory after it was placed (R120). -/
  stored : Bool := false
  /-- The block stays resident though all its threads exited (R108). -/
  exited : Bool := false
  /-- A preemption has been requested (R114). -/
  stopping : Bool := false
  /-- The block is one pixel group of a render pass (R249). -/
  pix : Bool := false
deriving DecidableEq, Repr

/-- A queued ME operation (R61, R62): its block, and the index of its group in the block. -/
structure MeOp where
  job : Nat
  block : Nat
  group : Nat
  addr : Nat
  /-- The descriptor address from me.go is bad: no descriptor is read (R61). -/
  bad : Bool := false
  /-- The 16 words of the descriptor, once the operation has started (R64). -/
  desc : List Word := []
  sdA : List Word := []
  sdB : List Word := []
  started : Bool := false
  /-- A residue mismatch stopped its output (R84). -/
  stopped : Bool := false
  /-- The issue group: the me.go that queued the operation (R61, R68). -/
  grp : Nat := 0
  /-- Whether its A and its B panels are read for it, and not for another operation of its issue group (R68). -/
  payA : Bool := false
  payB : Bool := false
  /-- The most streams that were active in the core while it ran, and whether they needed more than 512 B per cycle (R69). -/
  streams : Nat := 0
  beyond : Bool := false
  /-- Byte ranges of the block that operations which finished while this one was queued or running wrote, and read (R66). -/
  wrote : List (Nat × Nat) := []
  touched : List (Nat × Nat) := []
deriving DecidableEq, Repr

/-- An accumulator tile (R74): whether it holds INT32, its 256 words, row by row, and the job and the block whose result it
holds. -/
structure Tile where
  int : Bool := false
  v : List Word := List.replicate 256 0
  owner : Option (Nat × Nat) := none
deriving DecidableEq, Repr

/-- A matrix engine (R62, R81). -/
structure Me where
  active : Bool := false
  run : Option MeOp := none
  pend : Option MeOp := none
  tile0 : Tile := {}
  tile1 : Tile := {}
deriving DecidableEq, Repr

/-- What a host request of the part carries on PCIe (R149, R152, R170): the requester ID's function, translated or not, the PASID
prefix where there is one, and No Snoop. -/
structure HostAttr where
  fn : Nat := 0
  translated : Bool := false
  pasid : Option Nat := none
  noSnoop : Bool := false
deriving DecidableEq, Repr

/-- An entry of a core's write buffer: a 64-byte line of a slot's global space, where its translation led, and the bytes
written, by offset in the line (R122). -/
structure WbEnt where
  slot : Nat
  line : Nat
  /-- For host memory: what its request carries (R149, R152). -/
  host : Option HostAttr
  pa : Nat
  bytes : Tab Byte
deriving DecidableEq, Repr

/-- An entry of a tile's list as the staging unit has it: PRIM_ID, the primitive record, and the varyings of its vertices, or of the
corners of a piece (R240, R241, R249). -/
structure TileEntry where
  prim : Nat
  body : List Word
  vary : List (List Word) := []
deriving DecidableEq, Repr

/-- A screen tile in flight on its core (R247): the pass, the tile, the entries of its list that are not begun, the texels in the
staging area by address (R255), the number of entries begun, and of the entry in work the record, the vertices' varyings and the quads
that are still to be shaded; the tile memory by (attachment × 1024 + pixel) × 4 + sample. A sample that is not listed holds
the undefined contents of R235, by `seed`. -/
structure TileWork where
  job : Nat
  tile : Nat
  left : List TileEntry := []
  texels : Tab Nat := []
  begun : Nat := 0
  prim : Nat := 0
  body : List Word := []
  vary : List (List Word) := []
  quads : List Nat := []
  mem : Tab Nat := []
  seed : Nat := 0
deriving DecidableEq, Repr

/-- A code image in a core's instruction store (R24, R92): its job, its address and its bytes; and the words of it that were
stored with inverted check bits, true where uncorrectable (R134, R369). -/
structure Image where
  job : Nat
  va : Nat
  bytes : List Byte
  err : Tab Bool := []
deriving DecidableEq, Repr

/-- A shader core, by physical index. -/
structure Core where
  groups : Tab Group := []
  mes : Tab Me := []
  wb : List WbEnt := []
  /-- Code images in the instruction store (R92). -/
  images : List Image := []
  /-- Tile memory carved by a running render pass (R94). -/
  carve : Nat := 0
  /-- Register entries that the pass reserves for its pixel groups (R257). -/
  psRes : Nat := 0
  tiles : List TileWork := []
  /-- ME-cycles by class for the running job (R88): 8-bit and 16-bit. -/
  me8 : Nat := 0
  me16 : Nat := 0
  /-- Jobs that have started on the core and not ended (R86, Table 3-9), and those of them during which the core's MEs have set
  INVALID. -/
  jobs : List Nat := []
  inv : List Nat := []
  /-- What the core has counted under R88 since Proofer's last sample: kind, job, count. -/
  act : List (EnergyKind × Nat × Nat) := []
  /-- Panel streams that the operand port reads: issue group and descriptor address (R68). -/
  streams : List (Nat × Nat) := []
deriving DecidableEq, Repr

/-- A start or stop request at a cluster's gate (R81, R82): the core, the ME, and whether a start. -/
structure GateReq where
  core : Nat
  me : Nat
  start : Bool
deriving DecidableEq, Repr

/-- A preempted unit as it was saved (R114): its blocks with their groups, the MEs' tiles and pending operations. -/
structure Saved where
  job : Nat
  unit : Nat
  cluster : Nat
  /-- A block of the unit stored to cluster memory (R120). -/
  pinned : Bool
  blocks : List (Nat × Block)
  groups : List (Nat × Group)
  /-- The block, the ME index, and the ME's tiles and pending operations of the unit. -/
  mes : List (Nat × Nat × Me)
deriving DecidableEq, Repr

/-- A kernel: what its launch descriptor gives (Table 7-9) and how far it has come. -/
structure Kernel where
  slot : Nat
  code : Nat
  codeBytes : Nat
  gx : Nat
  gy : Nat
  gz : Nat
  regs : Nat
  groups : Nat
  bclSize : Nat
  coop : Bool
  ntrap : Bool
  localBytes : Nat
  param : Nat
  /-- Clusters that may run the blocks (Table 7-2). -/
  mask : Nat
  /-- The next block to place, in linear order. -/
  next : Nat := 0
  /-- Blocks that have finished. -/
  finished : Nat := 0
  /-- Cores that have run the kernel. -/
  cores : List Nat := []
  /-- No block is placed: a unit of the kernel is being preempted or is saved (R114). -/
  paused : Bool := false
  /-- The launch is a render pass's vertex kernel (R232). -/
  pass : Bool := false
deriving DecidableEq, Repr

/-- All of the cores, clusters and kernels. -/
structure Compute where
  cores : Tab Core := []
  /-- Resident blocks, by block number. -/
  blocks : Tab Block := []
  kernels : Tab Kernel := []
  nextBlock : Nat := 0
  /-- The next number of an issue group, and of a wait at a barrier. -/
  seq : Nat := 0
  saved : List Saved := []
  /-- Requests at each cluster's start gate, in arrival order (R82). -/
  gates : Tab (List GateReq) := []
  /-- Errors of 64-bit SRAM words, true where uncorrectable (R135): of local memory by block × 2^16 + word, of cluster
  memory by cluster × 2^19 + word. -/
  lmErr : Tab Bool := []
  cmErr : Tab Bool := []
deriving DecidableEq, Repr

end Sys2Proof.Machine
end

