-- ==== Sys2Proof/Machine/Types.lean ====
section
/-!
DEFINITION. The parts of the state that are not registers of the register space, block by block: plain data. A part
that a register shows stands in `State.regs` and not here, unless its docstring says that the register mirrors it.
-/
namespace Sys2Proof.Machine

/-- What leaves the part: what a requester, the host, a peer or the bus sees. Newest first in `State.out`. -/
inductive OutEvent where
  /-- A register read's data (R6, R9). -/
  | regData (r : Requester) (off : Word) (v : Word)
  /-- An MSI-X message of a function: address and data of the vector's table entry (R129, R398). -/
  | msix (fn vec addr : Nat) (data : Word)
  /-- LTR with both latencies in µs, or No Requirement (R403). -/
  | ltr (us : Option Nat)
  /-- An ATS Translation Request of a channel (R170). -/
  | atsRequest (chan pasid va : Nat)
  /-- A Page Request of a channel (R171). -/
  | pageRequest (chan pasid va : Nat)
  /-- A PRI Stop Marker (R168). -/
  | stopMarker (pasid : Nat)
  /-- An ATS Invalidation Completion (R172). -/
  | invCompletion (pasid : Nat)
  /-- A host read request with its tag (R399). -/
  | hostRead (tag addr len : Nat) (q : HostAttr)
  /-- A write request to host memory (R152, R161). -/
  | hostWrite (addr : Nat) (data : List Byte) (q : HostAttr)
  /-- An AtomicOp request to host memory (R130). -/
  | hostAtomic (addr len : Nat) (q : HostAttr)
  /-- Completion data of an inbound read: data, or poisoned (R397, R408). -/
  | cplData (data : List Byte) (poisoned : Bool)
  /-- An inbound request that ends as Unsupported Request (R401, R404, R408). -/
  | unsupported
  /-- An inbound read that ends as Completer Abort (R408). -/
  | completerAbort
  /-- A write delivered to the interrupt files (R408). -/
  | imsic (addr : Nat) (data : List Byte)
  /-- A flit sent on a Svaumon port (R418, R419). -/
  | flit (port : Nat) (bytes : List Byte)
  /-- The function 1 interrupt of the SDIO device (Table 16-6). -/
  | sdioIrq
deriving DecidableEq, Repr

/-- The latches of R8 and R322, by requester. -/
structure Latches where
  /-- The _HI value that a _LO read latched, by requester × 2^40 + register key. -/
  hi : Tab Word := []
  /-- The held _LO write, by requester × 2^40 + register key. -/
  lo : Tab Word := []
  /-- The latched budget registers, by requester × 2^16 + offset (R322). -/
  bud : Tab Word := []
deriving DecidableEq, Repr

/-- The pins that the rules name. -/
structure Pins where
  /-- SYS_RST_N is deasserted (R348). -/
  sysRstN : Bool := false
  /-- PCIE_PERST_N is deasserted (R350). -/
  perstN : Bool := false
  /-- ERR_N is released (R368). -/
  errN : Bool := true
  /-- PCIE_WAKE_N is released (R404). -/
  wakeN : Bool := true
  /-- The BOOT_MODE level as sampled last (R3). -/
  bootMode : Bool := false
  /-- EXTEST is selected: the part is held in device reset (R391). -/
  extest : Bool := false
deriving DecidableEq, Repr

/-- The AON time (R27, R463, R467). -/
structure AonTime where
  /-- The AON millisecond counter. -/
  ms : Nat := 0
  /-- The fractional accumulator F, in 1/125 of a crystal cycle. -/
  f : Nat := 0
  /-- The counters run on the crystal (R463). -/
  onCrystal : Bool := false
  /-- The crystal cycles counted since the switch to the crystal. -/
  cycles : Nat := 0
  /-- The wake counter, in 32.768 kHz counts since entry (R341). -/
  wake : Nat := 0
  /-- The generation of the AON SRAM's contents: cold resets since power-up of the model (R348). -/
  gen : Nat := 0
  /-- The input that the ADC's round-robin converted last (R464). -/
  adcLast : Nat := 7
deriving DecidableEq, Repr

/-- Proofer (R303 to R328). Energies are in fJ × V_ref² × 1024, so that R314 loses nothing. -/
structure Pwr where
  /-- Counts of the PWR block microsecond counter since the last publication (R320). -/
  count : Nat := 0
  /-- An out-of-cycle publication is due (R20, R317). -/
  oocDue : Bool := false
  /-- Dynamic energy of each cluster in the current period. -/
  curDyn : Tab Nat := []
  /-- Whole energy of each cluster in the current period. -/
  curCl : Tab Nat := []
  /-- Energy of the other domains in the current period. -/
  curFix : Nat := 0
  /-- The same of the last whole period (R320, R323, R324). -/
  lastDyn : Tab Nat := []
  lastCl : Tab Nat := []
  lastFix : Nat := 0
  /-- Whole energy of each cluster in the previous period, whole or not (R323). -/
  prevCl : Tab Nat := []
  /-- The analogue cap as the last periodic publication sampled it (R316). -/
  ainCap : Nat := 500
  /-- Device allowance in µJ that was in force over the last whole period (R324). -/
  lastAllow : Nat := 0
  /-- The last period was cut short by an out-of-cycle publication (R324). -/
  cut : Bool := true
  /-- The model energy of the last counts and the effective cap of each, newest first, at most 1,000 (R319). -/
  win : List (Nat × Nat) := []
  /-- Energy since device reset: all, and unattributed (R315). -/
  dev : Nat := 0
  unattr : Nat := 0
  /-- The target operating point of each cluster (R308, R324). -/
  target : Tab Nat := []
  /-- A step of the cluster is in progress (R308). -/
  stepping : Tab Bool := []
  /-- A droop is present in the cluster (R312). -/
  droop : Tab Bool := []
  /-- The 10 µs after a droop are running in the cluster (R313). -/
  hold : Tab Bool := []
  /-- Consecutive samples of a sensor above its critical limit (R326). -/
  critRun : Tab Nat := []
  /-- The HBM controller's bandwidth limit: 0 none, 1 half, 2 quarter (R327). -/
  hbmLimit : Tab Nat := []
  /-- A hard overdraw is in force (R318). -/
  ovr : Bool := false
  /-- The comparator has signalled a hard overdraw that HARD_OVERDRAW has not handled yet (R318). -/
  ovrDue : Bool := false
  /-- The cluster stepped down under R324 step 4 and has not yet stepped back up (Table 12-5, ENERGY). -/
  enerDown : Tab Bool := []
  /-- The cluster is held or stepped down by R324 step 3: bit 0 by its own sensor, bit 1 by a shared one. -/
  thermHold : Tab Nat := []
  /-- A critical temperature is in force for the cluster (R326). -/
  crit : Tab Bool := []
  /-- The reasons of Table 12-5 that are in force. -/
  thr : Tab Bool := []
  /-- Counts for which a physical core has held no work (R304). -/
  idle : Tab Nat := []
  /-- The reasons of Table 12-5 that have been in force since the last count (R328). -/
  thrSeen : List Nat := []
  /-- F_top of each cluster in MHz as the last publication computed it; unlisted: as fused (R306, R307). -/
  fTop : Tab Nat := []
  /-- Rail in mV and PLL frequency in MHz of a cluster in the middle of a step; unlisted: those of its point (R308, R309). -/
  rail : Tab Nat := []
  pll : Tab Nat := []
  /-- The power switches of the domains 96 to 104, which have no page of their own (R303, Table 12-1). -/
  domOn : Tab Bool := []
deriving DecidableEq, Repr

/-- Basin (R355 to R371); the sources' configuration and counts stand in the BSN registers, one bank a source. -/
structure Bsn where
  /-- The AON millisecond count at which a source's window started (R358). -/
  winStart : Tab Nat := []
  /-- The AON millisecond count at which a source's quiet period started (R358). -/
  quietStart : Tab Nat := []
  /-- W and Q as they stood at a source's last event (R359). -/
  winLen : Tab Nat := []
  quietLen : Tab Nat := []
  /-- Unmasked events that have not been classified yet, by source, oldest first. -/
  inbox : List Nat := []
  /-- A STOP_DEVICE reaction waits for its device reset (R360, R366). -/
  stop : Bool := false
  /-- A fenced unit's self-test is running after READMIT.GO (R365): its domain. -/
  readmit : Option Nat := none
  /-- Basin SEVERE entry since the last read of the SDIO ATTN byte (Table 16-6). -/
  attn : Bool := false
  /-- SDIO ATTN_EN (Table 16-6). -/
  attnEn : Byte := 0
  /-- EPOCH.VALUE of the CPU cores and of the L3, which have no page of their own, by domain (R361, R372). -/
  epoch : Tab Nat := []
deriving DecidableEq, Repr

/-- A device-state transition in progress (R334). -/
structure Trans where
  target : Nat
  prev : Nat
  seq : Nat
  /-- The pages that have not accepted yet. -/
  waiting : List Nat
  /-- Microseconds since the request (R335). -/
  waited : Nat := 0
deriving DecidableEq, Repr

/-- Reset, boot and power-state control. -/
structure Rst where
  trans : Option Trans := none
  /-- The request that a refusal of this microsecond aborted: its other blocks may still refuse in the same cycle (R336). -/
  aborted : Option Trans := none
  /-- An exit from SLEEP is in progress (Table 13-4). -/
  exiting : Bool := false
  /-- The sources sampled for the exit in progress (R340). -/
  exitSrc : Nat := 0
  /-- A device reset that waits for Cistern's unit in progress (R351). -/
  pending : Option RstCause := none
  /-- A domain reset in progress (R348). -/
  domReset : Option Nat := none
  /-- The device reset is held: by SYS_RST_N, by PCIE_PERST_N with PERST_DEV, or by EXTEST. -/
  held : Bool := true
  /-- Microseconds since boot event 1 (BOOT_US). -/
  bootUs : Nat := 0
  /-- Every segment of the image is in place: boot event 8 has ended (Table 13-6). -/
  loaded : Bool := false
  /-- PCIE_PERST_N holds the device reset that it caused with PERST_DEV (R350). -/
  perst : Bool := false
  /-- The SEQ of the last power request (R334). -/
  seq : Nat := 0
  /-- Clock domains whose PLL has lost lock (Table 13-11, R463). -/
  lost : List Nat := []
deriving DecidableEq, Repr

/-- A unit of Cistern (R352): a page program of at most 256 bytes, or a 4 KiB sector erase. -/
inductive FlashUnit where
  | prog (addr : Nat) (data : List Byte)
  | erase (sector : Nat)
deriving DecidableEq, Repr

/-- What the completion of queued flash work is reported to. -/
inductive FlashOwner where
  | leaf
  | image (port : MbPort)
  | site (port : MbPort)
  | log
deriving DecidableEq, Repr

/-- Cistern (R352, R353). -/
structure Cst where
  queue : List (FlashUnit × FlashOwner) := []
  /-- The deferred head waits for its next check, and the AON millisecond count of that check. -/
  waiting : Bool := false
  retryAt : Nat := 0
deriving DecidableEq, Repr

/-- The access kinds of R150. -/
inductive XKind where
  | rd | wr | at | ex
deriving DecidableEq, Repr

/-- Why an access fails: a translation cause with the level at which the walk stopped (Table 6-3), or a bus error. -/
inductive AccErr where
  | xl (cause level : Nat)
  | bus
deriving DecidableEq, Repr

/-- An entry of a translation buffer (R153): one page, its slot, and what its leaf gives. -/
structure TlbEnt where
  slot : Nat
  base : Nat
  size : Nat
  pa : Nat
  r : Bool
  w : Bool
  x : Bool
  pin : Bool
  tgt : Nat
  level : Nat
  /-- NS of the leaf: host requests carry No Snoop (R149). -/
  ns : Bool := false
  /-- A translation that the host granted (R170). -/
  ats : Bool := false
  /-- The grant is Untranslated Address Only (R170). -/
  untranslated : Bool := false
deriving DecidableEq, Repr

/-- A walk-cache entry: a table entry of levels 3 to 1 by slot, level and the index prefix of the address (R153). -/
structure WalkEnt where
  slot : Nat
  level : Nat
  pfx : Nat
  pte : Nat
deriving DecidableEq, Repr

/-- A fault record that waits for its ring (R164). -/
structure WaitPost where
  chan : Nat
  fn : Nat
  va : Nat
  cause : Nat
  level : Nat
  write : Bool
deriving DecidableEq, Repr

/-- The MMU (R146 to R176). -/
structure Mmu where
  /-- The micro translation buffers, by requester (R153). -/
  micro : Tab (List TlbEnt) := []
  /-- The shared translation buffer: leaves, and the ATS translations that the host granted (R153, R170). -/
  shared : List TlbEnt := []
  /-- The walk cache. -/
  walk : List WalkEnt := []
  /-- The retryable posts that wait for ring space, oldest first. -/
  posts : List WaitPost := []
  /-- Channels with a page request outstanding (R171). -/
  pri : List Nat := []
  /-- The page requests that the host's allocation of the PRI capability allows; the M9 asks for 64 (R171). -/
  priAlloc : Nat := 64
  /-- ATS Invalidate Requests whose completion waits for host reads of their range: PASID, address, bytes (R172). -/
  atsInv : List (Nat × Nat × Nat) := []
deriving DecidableEq, Repr

/-- The state of a DMA channel (R166, R171): `priHold` waits to send its page request. -/
inductive ChState where
  | running | stalled | postWait | atsWait | priHold | priWait
deriving DecidableEq, Repr

/-- A DMA transfer: its kind and its ranges, as virtual addresses (Table 7-8, R173). -/
inductive Xfer where
  | copy (src dst len : Nat)
  | fill (dst len : Nat) (pat : Word)
  | gather (desc : Nat)
deriving DecidableEq, Repr

/-- A channel with a transfer. -/
structure Chan where
  job : Nat
  slot : Nat
  xfer : Xfer
  st : ChState := .running
  /-- Bytes, or bags, already done in stream order (R166). -/
  done : Nat := 0
  /-- The failing address of a stall, or of a page request, and whether the access was a write. -/
  va : Nat := 0
  wr : Bool := false
  /-- Source bytes that host reads have brought or that lie in HBM (R399). -/
  fetched : Nat := 0
  /-- A host read of the transfer was answered with a bus error (R399). -/
  busErr : Bool := false
  /-- A gather's descriptor, once read: 16 words (Table 6-5). -/
  desc : List Word := []
  /-- A gather's partial pool (R166, R175): index-list entries of the bag done, non-padding indices among them, and the
  accumulators. -/
  pos : Nat := 0
  cnt : Nat := 0
  acc : List Word := []
  /-- The ARITH_FLAGS of the transfer so far (R59). -/
  flags : Nat := 0
deriving DecidableEq, Repr

/-- The DMA engines: channels by engine × 16 + channel; the jobs that wait for a channel, in start order (R470). -/
structure Dma where
  chans : Tab Chan := []
  waiting : List (Nat × Nat × Nat × Xfer) := []
  /-- The 16-bit token of each channel (R166). -/
  token : Tab Nat := []
deriving DecidableEq, Repr

/-- A context slot (R178, Table 7-13) with what its context record gave (Table 7-1). -/
structure Slot where
  state : Nat := 0
  ctx : Nat := 0
  func : Nat := 0
  pasid : Nat := 0
  atsEn : Bool := false
  priEn : Bool := false
  cmemBase : Nat := 0
  cmemSize : Nat := 0
  ptRoot : Nat := 0
  saveBase : Nat := 0
  htbl : Nat := 0
  htblLog2 : Nat := 0
  qtbl : Nat := 0
  refcnt : Nat := 0
  /-- The driver's reference is held (R180). -/
  driver : Bool := false
  /-- The context ID in compatibility mode (R181). -/
  ctxId : Nat := 0
  /-- FE microsecond count of the last activity (R181). -/
  lastUse : Nat := 0
  /-- A kill's scan is running or waits (R204). -/
  scan : Bool := false
deriving DecidableEq, Repr

/-- A called buffer (R193): its base, its commands, the next one, the repetitions still to run after this one, and the
CALL that entered it. -/
structure Frame where
  base : Nat
  count : Nat
  pos : Nat
  left : Nat
  cmd : List Word
deriving DecidableEq, Repr

/-- A WAIT that is registered with the fence unit (R197, R437). -/
structure WaitItem where
  index : Nat
  gen : Nat
  remote : Bool
  node : Nat
  policy : Bool
  cmd : List Word
  startUs : Nat
deriving DecidableEq, Repr

/-- Where a stream of commands stands (R184 to R196): the called buffers, innermost first; the COND skip of the current
buffer; the status that started a batch skip; the status that the next SIGNAL gives; the registered WAIT. -/
structure Stream where
  frames : List Frame := []
  condSkip : Nat := 0
  batchSkip : Option Nat := none
  sig : Nat := 0
  wait : Option WaitItem := none
  /-- Jobs that started (START_SEQ). -/
  started : Nat := 0
  /-- Batches that have ended: a failure skips only within its own batch (R196). -/
  batchNo : Nat := 0
deriving DecidableEq, Repr

/-- A queue (R182, Table 7-2). -/
structure Queue where
  state : Nat := 0
  enaErr : Nat := 0
  ring : Nat := 0
  log2 : Nat := 0
  engine : Nat := 0
  prio : Nat := 0
  errPolicy : Bool := false
  cmask : Nat := 0
  timeout : Nat := 0
  cpl : Nat := 0
  cplLog2 : Nat := 0
  vec : Nat := 0
  wptr : Nat := 0
  rptr : Nat := 0
  cplProd : Nat := 0
  str : Stream := {}
  /-- The queue timer (R188). -/
  timer : Nat := 0
  /-- The queue waits for completion-ring space (R186). -/
  full : Bool := false
  /-- The command at the fetch position is held (R213, R266). -/
  held : Bool := false
  /-- The FE count at the last doorbell (R259). -/
  bell : Nat := 0
deriving DecidableEq, Repr

/-- How a job ended (Tables 7-3 to 7-5). -/
structure JobEnd where
  status : Nat
  reason : Nat
  detail : Nat
deriving DecidableEq, Repr

/-- Whose command a job is. -/
inductive Owner where
  | queue (slot q : Nat)
  | batch (b : Nat)
deriving DecidableEq, Repr

/-- A job that has started and not retired (R185, R186). -/
structure Job where
  owner : Owner
  cmd : List Word
  startSeq : Nat
  startUs : Nat
  /-- The end, once the job's engine has ended it; JOB_COMPLETE writes the record. -/
  fin : Option JobEnd := none
  /-- The ARITH_FLAGS so far (R59). -/
  flags : Nat := 0
  /-- Energy, core-cycles and ME-cycles so far (R179, R315). -/
  energy : Nat := 0
  coreCyc : Nat := 0
  meCyc : Nat := 0
  /-- The batch of its queue, or its issue number in a Leaven step. -/
  batch : Nat := 0
deriving DecidableEq, Repr

/-- The front end's own state. -/
structure Fe where
  slots : Tab Slot := []
  queues : Tab Queue := []
  jobs : Tab Job := []
  /-- Job numbers given so far. -/
  nextJob : Nat := 0
  /-- The FE block microsecond counter. -/
  us : Nat := 0
  /-- The SESS_STEP of entry 0 of each Leaven batch: slot, queue, START_SEQ (R220, R471). -/
  batchRef : Tab (Nat × Nat × Nat) := []
  /-- Compatibility doorbells held until a context can be evicted (R181): function, context ID, queue. -/
  heldDb : List (Nat × Nat × Nat) := []
  /-- Functions whose disable is in its DMA window (R206), with the counts of the window so far. -/
  disabling : Tab Nat := []
  /-- The round-robin of each fetcher and PRIO: the stream that took a command last (R184). -/
  turn : Tab Nat := []
deriving DecidableEq, Repr

/-- A session step that has started and not ended (R216, R222, R223): its session, the job of its SESS_STEP, the version
it captured, its start on the LVN counter, and what it carries. -/
structure SStep where
  session : Nat
  job : Nat
  graph : Nat
  ver : Nat
  vi : Nat
  start : Nat
  user : Nat
  deadline : Nat
  crit : Bool
  missed : Bool := false
  /-- Its SESS_STEP has ended already (R222). -/
  gone : Bool := false
deriving DecidableEq, Repr

/-- A running batch (R217 to R222). -/
structure Batch where
  graph : Nat
  ver : Nat
  vi : Nat
  slot : Nat
  entries : List SStep
  mask : Nat
  dma : Nat
  /-- The PRIO at which its jobs run (R219). -/
  prio : Nat := 0
  param : Word
  area : Word
  str : Stream
  /-- The first failure in issue order: issue number, status, reason (R221). -/
  fail : Option (Nat × Nat × Nat) := none
  issue : Nat := 0
  /-- Energy of its jobs in µJ (R229). -/
  energy : Nat := 0
  flags : Nat := 0
  start : Nat := 0
  timer : Nat := 0
deriving DecidableEq, Repr

/-- Leaven (R210 to R231). -/
structure Lvn where
  batches : Tab Batch := []
  /-- Steps that no batch holds, in start order. -/
  steps : List SStep := []
  /-- The records on die, by session, 32 words each (R212). -/
  onDie : Tab (List Word) := []
  /-- Round-robin pointers by class: one above the last session admitted (R218). -/
  ptr : Tab Nat := []
  /-- Batches formed (BATCH_SEQ). -/
  seq : Nat := 0
  /-- The LVN block microsecond counter. -/
  us : Nat := 0
  /-- Sessions being parked, and being restored: the job of the command; the restore's target. -/
  parks : Tab Nat := []
  restores : Tab (Nat × Word × Nat) := []
  /-- Session records on die that hold an error, by session: whether it is uncorrectable (R134, R135). -/
  recErr : Tab Bool := []
deriving DecidableEq, Repr

/-- A piece of a triangle that is being binned (R237, R241): its primitive record and clip record as words (no clip record:
empty), the tiles that still get an entry, and the record's address once it is written. -/
structure BinPiece where
  body : List Word
  clip : List Word
  tiles : List Nat
  recVa : Option Nat := none
deriving DecidableEq, Repr

/-- The triangle that is being binned: its PRIM_ID, all its pieces, those that are not done, and whether it has received
an entry. -/
structure BinTri where
  prim : Nat
  all : List BinPiece
  left : List BinPiece
  hit : Bool := false
deriving DecidableEq, Repr

/-- A footprint that binning computed (R255): its tile, its binding, its texture's descriptor, and its boxes: level, first texel and
number of texels along u and along v, before wrapping. -/
structure Foot where
  tile : Nat
  bind : Nat
  desc : List Word
  boxes : List (Nat × (Int × Nat) × Int × Nat)
deriving DecidableEq, Repr

/-- A render pass (R232 to R247, R259). -/
structure Pass where
  slot : Nat
  /-- The pass descriptor's 128 words. -/
  desc : List Word
  mask : Nat
  /-- Its cores, and those on which its reservation of R257 stands. -/
  cores : List Nat := []
  held : List Nat := []
  /-- The cores that own a tile (R247). -/
  owners : List Nat := []
  /-- Table 9-10: 1 vertex and binning, 2 tile phase, 3 partial render. -/
  phase : Nat := 1
  /-- Draws whose vertex phase has started; the draw that bins next, and whether its binning has begun. -/
  vs : Nat := 0
  bin : Nat := 0
  begun : Bool := false
  /-- Draw records by draw, 32 words each; the pixel code image and the pixel parameter block of each draw. -/
  recs : Tab (List Word) := []
  code : Tab (Nat × Nat) := []
  /-- The index of the draw's stream that is taken next, the vertices of an unfinished triangle or of the strip, whether
  the strip's next triangle is an odd one, the next PRIM_ID, and the triangle in work. -/
  pos : Nat := 0
  hist : List Nat := []
  odd : Bool := false
  prim : Nat := 0
  tri : Option BinTri := none
  /-- Chunks held; the chunk in use and the units used in it, for records and for list blocks. -/
  chunks : List Nat := []
  recAt : Option (Nat × Nat) := none
  blkAt : Option (Nat × Nat) := none
  /-- The footprints of the entries in the tiles' lists, oldest first. -/
  foots : List Foot := []
  stalled : Bool := false
  grace : Nat := 0
  /-- A triangle has completed binning since the last partial render (R246). -/
  fresh : Bool := true
  preempted : Bool := false
  /-- TLR microseconds since the preemption. -/
  waited : Nat := 0
  /-- Tiles still to be given to a core in this tile phase or partial render. -/
  todo : List Nat := []
  /-- The first writeback failure (R160): its address; and the cores that have posted their record. -/
  target : Option Nat := none
  tcores : List Nat := []
  partials : Nat := 0
  lows : Nat := 0
  primsIn : Nat := 0
  primsBinned : Nat := 0
  entries : Nat := 0
  tiles : Nat := 0
  preempts : Nat := 0
deriving DecidableEq, Repr

/-- A core's tiles in flight as a mid-tile save left them (R259): the pass, the core, the tiles, the blocks and groups that
shaded them. -/
structure MidTile where
  job : Nat
  core : Nat
  tiles : List TileWork
  blocks : List (Nat × Block)
  groups : List (Nat × Group)
deriving DecidableEq, Repr

/-- The tiler: its passes by job. -/
structure Tlr where
  passes : Tab Pass := []
  /-- A compositor-priority queue that has preempted: its slot, and the FE count at its doorbell, until its first block is
  placed (R259). -/
  cpri : Option (Nat × Nat) := none
  midtile : List MidTile := []
deriving DecidableEq, Repr

/-- A channel of the composer (R262 to R282); its frame state stands in the CMP registers. -/
structure CChan where
  /-- The COMPOSE job that armed the commit, if a COMPOSE did. -/
  armed : Option Nat := none
  /-- The frame in progress: its job, if it has one. -/
  busy : Bool := false
  job : Option Nat := none
  /-- LATE_MASK of the frame's job. -/
  late : Nat := 0
  missed : Bool := false
  critLate : Bool := false
  /-- The first access failure of the frame: its reason (R280). -/
  fail : Option Nat := none
  /-- The frame's CZ stream found no context (R299). -/
  czFail : Bool := false
  /-- Parts of the active copy and of the shadow copy that hold references: layers 0 to 7, and the header as 8. -/
  actRef : List Nat := []
  shRef : List Nat := []
  /-- Energy of a repeat frame. -/
  energy : Nat := 0
deriving DecidableEq, Repr

/-- Whom a CZ engine context serves (R299). -/
inductive CzUse where
  | job (j : Nat)
  | frame (c : Nat)
  | park (session : Nat)
  | restore (session : Nat)
deriving DecidableEq, Repr

/-- A CZ job that has passed its checks (Table 11-1): its descriptor's address, direction, flags and ranges, the stream
header, and the stream position, compressed bytes and CRC register before it. -/
structure CzJob where
  slot : Nat
  dva : Nat
  dec : Bool
  first : Bool
  last : Bool
  dyn : Bool
  iva : Nat
  n : Nat
  ova : Nat
  cap : Nat
  sva : Nat
  hva : Nat
  hn : Nat
  pos : Nat
  comp : Nat
  crc : Word
  hdr : List Byte
deriving DecidableEq, Repr

/-- The CZ engines: contexts by engine × 4 + context; the jobs in them; parks and restores
that wait for a context, in start order; partial MiB of
input and output by engine. -/
structure Czs where
  ctx : Tab CzUse := []
  jobs : Tab CzJob := []
  waiting : List (Nat × CzUse) := []
  inB : Tab Nat := []
  outB : Tab Nat := []
deriving DecidableEq, Repr

/-- A Svaumon port (R417 to R422, R425, R427). -/
structure SvlPort where
  txSeq : Nat := 0
  /-- Unacknowledged DATA flits: SEQ, VC, payload. -/
  retry : List (Nat × Nat × List Byte) := []
  /-- DATA flits that have not been sent yet: VC, payload. -/
  txq : List (Nat × List Byte) := []
  rxNext : Nat := 0
  nak : Bool := false
  cr : List Nat := [0, 0, 0]
  freed : List Nat := [0, 0, 0]
  /-- Bytes of an unfinished packet, by VC. -/
  part : Tab (List Byte) := []
  replays : Nat := 0
  retraining : Bool := false
  hb : Nat := 0
  loss : Nat := 0
  train : Nat := 0
deriving DecidableEq, Repr

/-- Who waits for a response with a tag. -/
inductive LinkWho where
  | ring (r : Nat)
  | queue (slot q : Nat)
  | batch (b : Nat)
deriving DecidableEq, Repr

/-- A request that waits for its response (Table 17-3). -/
structure LinkReq where
  who : LinkWho
  node : Nat
  op : Nat
  sub : Nat
  /-- The local address for data, and its length. -/
  va : Nat
  len : Nat
  /-- A remote fence operation's command, the batch it stood in and the jobs started before it, for its record (R437). -/
  cmd : List Word := []
  no : Nat := 0
  start : Nat := 0
deriving DecidableEq, Repr

/-- A packet of a collective that its member has not used (R433 to R436): kind 0 data of a step at an offset with the
member's OP, FMT, NODE and LEN in `sig`, 1 a barrier's arrival, 2 a snapshot's marker. -/
structure CollMsg where
  group : Nat
  cseq : Nat
  src : Nat
  kind : Nat
  step : Nat := 0
  sig : Nat := 0
  off : Nat := 0
  data : List Byte := []
deriving DecidableEq, Repr

/-- The descriptor that a link ring executes (R430): 0 fetched, 1 its wait is registered, 2 to execute, 3 executing, 4 to
signal; the fence status it signals; a collective's CSEQ and step; a collective's vector or blocks; the bytes that a GET
has asked for; the flags so far (R59). -/
structure LinkRun where
  desc : List Word
  phase : Nat := 0
  status : Nat := 0
  cseq : Nat := 0
  step : Nat := 0
  vec : List Word := []
  got : List Byte := []
  off : Nat := 0
  flags : Nat := 0
deriving DecidableEq, Repr

/-- A link ring. -/
structure LRing where
  run : Option LinkRun := none
  /-- The descriptor that runs next. -/
  pos : Nat := 0
  cseq : Nat := 0
  timer : Nat := 0
deriving DecidableEq, Repr

/-- Svaumon Link (R417 to R440). -/
structure Svl where
  ports : Tab SvlPort := []
  /-- Packets for this node, received in order and not performed. -/
  inbox : List Packet := []
  /-- The next PSEQ sent, by node × 4 + VC. -/
  pOut : Tab Nat := []
  tags : Tab LinkReq := []
  rings : Tab LRing := []
  coll : List CollMsg := []
  /-- Collectives aborted: group, CSEQ, and the members that are known to have issued it, as a bit mask. -/
  aborts : List (Nat × Nat × Nat) := []
  /-- Slots whose link traffic is stopped by a SNAPSHOT (R436). -/
  stopped : List Nat := []
deriving DecidableEq, Repr

/-- A release that a full or disabled release ring holds (R203). -/
structure Release where
  fn : Nat
  typ : Nat
  slot : Nat
  ctxId : Nat
  ofFn : Nat
  index : Nat
  gen : Nat
deriving DecidableEq, Repr

/-- Who waits for a fence: a queue, a batch of Leaven, a link ring, or a remote node's request (R197, R430, R437). -/
inductive Waiter where
  | queue (slot q : Nat)
  | batch (b : Nat)
  | ring (r : Nat)
  | remote (node slot tag : Nat)
deriving DecidableEq, Repr

/-- A WAIT that is registered with the fence unit, and the status that the unit has delivered to it: 256 where the
fence was destroyed (Table 7-11). -/
structure FWait where
  index : Nat
  gen : Nat
  who : Waiter
  got : Option Nat := none
  /-- The fence is reset as the wait is satisfied (R430). -/
  reset : Bool := false
deriving DecidableEq, Repr

/-- The fence unit (R197 to R209); the fence table and the handle tables stand in memory. -/
structure Fnc where
  held : List Release := []
  /-- Scans of R204 and R206 that run, by function. -/
  scans : List Nat := []
  /-- Registered WAITs, oldest first. -/
  waits : List FWait := []
  /-- Fence records on die that hold an error, by index: whether it is uncorrectable (R134, R135). -/
  recErr : Tab Bool := []
deriving DecidableEq, Repr

/-- An error in a 32-byte HBM unit or a 64-bit SRAM word: uncorrectable, and found before (R140, R142). -/
structure EccErr where
  ue : Bool
  seen : Bool := false
deriving DecidableEq, Repr

/-- The HBM controllers (R136 to R143). -/
structure Hbc where
  /-- The valid bitmap, by region (R137). -/
  valid : Tab Bool := []
  /-- Regions being zero-filled. -/
  filling : List Nat := []
  /-- Regions whose invalidation waits for their fill (R138). -/
  pendInv : List Nat := []
  /-- Errors, by 32-byte unit of the physical address. -/
  ecc : Tab EccErr := []
  /-- Regions whose bit a failed retention restore has set: they read what HBM holds (R339). -/
  stale : Tab Bool := []
deriving DecidableEq, Repr

/-- An attestation request that waits (R385): its registers' block (a function, 64 for the SEC page, or 65 and 66 for the
mailbox ports, whose requests name no slot: 64), its slot and function, its buffer, the vector that tells of its end, and
the nonce and user data that a mailbox request brings with it. -/
structure AttReq where
  block : Nat
  slot : Nat
  fn : Nat
  addr : Nat
  irq : Bool
  vec : Nat
  data : List Byte := []
deriving DecidableEq, Repr

/-- The security engine (R373 to R391). -/
structure Sec where
  /-- Attestation requests in arrival order, the head being signed. -/
  queue : List AttReq := []
  /-- SEQ of the newest reservation record, and the END of the reservation in progress (R384). -/
  resSeq : Nat := 0
  resPending : Option Nat := none
  /-- The manifest of the running image (R374). -/
  manifest : List Byte := []
  /-- The security version that SVN_ADV has blown since manufacture (R376); no reset undoes it. -/
  svn : Nat := 0
  /-- Debug tokens submitted since the last device reset (R391). -/
  attempts : Nat := 0
deriving DecidableEq, Repr

/-- A host-memory read or AtomicOp in flight (R399): who waits for it. -/
inductive HostWaiter where
  /-- A thread's load into a register: its width, and the offset of the read's bytes in it (R121). -/
  | thread (core group thread : Nat) (dst : Nat) (width off : Nat)
  | chan (c : Nat)
deriving DecidableEq, Repr

structure HostRd where
  /-- The context slot of the access, and what its request carried. -/
  slot : Nat
  attr : HostAttr
  /-- The virtual address that the access names. -/
  va : Nat
  addr : Nat
  len : Nat
  waiter : HostWaiter
deriving DecidableEq, Repr

/-- The PCIe controller. -/
structure Pci where
  vfEnable : Bool := false
  numVfs : Nat := 0
  /-- Functions in D3hot (R404). -/
  d3 : Tab Bool := []
  /-- Functions in FLR or disabled: their vectors send nothing (R206, R401). -/
  muted : Tab Bool := []
  inFlr : Tab Bool := []
  /-- Host reads in flight, by tag. -/
  reads : Tab HostRd := []
  /-- PME_En of the PF's configuration space (R404). -/
  pmeEn : Bool := false
  /-- The last LTR sent said that a queue is active (R403). -/
  ltrActive : Bool := false
  /-- AER: errors logged per function × 16 + class of Table 16-4 (R405). -/
  aer : Tab Nat := []
deriving DecidableEq, Repr

/-- An image session (R415). -/
structure ImgSession where
  port : MbPort
  len : Nat
  got : List Byte
  /-- The session belongs to the boot ROM (RECOVERY) or to the firmware. -/
  recovery : Bool
  /-- What the session is doing: 0 receiving, 1 segment 0 under check, 2 whole image under check, 3 committing. -/
  phase : Nat := 0
  commit : Bool := false
  done : Nat := 0
deriving DecidableEq, Repr

/-- A port's pending operation (R413): running with a progress figure, or finished with STATUS, RES0 and bulk data. -/
inductive MbPend where
  | running (op : Nat) (progress : Nat)
  | final (op : Nat) (status : Nat) (res0 : Word)
deriving DecidableEq, Repr

/-- The mailbox (R412 to R415). -/
structure Mbx where
  /-- The bulk windows, by port × 2^15 + offset. -/
  bulk : Tab Byte := []
  pend : Tab MbPend := []
  img : Option ImgSession := none
  /-- The image staged in the Yunanos code store at RECOVERY (R346). -/
  staged : List Byte := []
deriving DecidableEq, Repr

end Sys2Proof.Machine
end

