-- ==== Sys2Proof/Machine/State.lean ====
section
/-!
DEFINITION. The state of the M9 taken as a block, as plain data; the faults and refusals; the state right after reset.
-/
namespace Sys2Proof.Machine

/-- Why a step stops. -/
inductive Fault where
  /-- Raised by no command: every command of the manual has an effect, and an access that fails has the effect that
  its chapter gives. Kept so that the type names the one stop that a later reading could need. Safe. -/
  | unreachable
deriving DecidableEq, Repr

/-- Why a command is turned away. -/
inductive Refusal where
  /-- Raised by the dispatch for a command whose meaning is not written. Safe. -/
  | notModelled (mnemonic : String)
deriving DecidableEq, Repr

/-- The memories of Table 5-1, the flash and the AON retention SRAM. Each is a canonical list of cells. -/
structure Mems where
  /-- HBM by physical address; a never-written byte reads 0 (R137). -/
  hbm : List Host.Cell := []
  /-- Host memory as far as the part wrote it or read it, by host bus address. -/
  host : List Host.Cell := []
  /-- The external flash as far as Cistern wrote it (R352). -/
  flash : List Host.Cell := []
  /-- The 256 KiB AON retention SRAM (R338). -/
  aon : List Host.Cell := []
  /-- Local memory, by block number × 2^19 + offset in the block's allocation (R106); a line whose valid bit is clear reads
  0 (R134). -/
  lm : List Host.Cell := []
  /-- Cluster memory, by cluster × 2^22 + offset (R119, R134). -/
  cmem : List Host.Cell := []
deriving DecidableEq, Repr

/-- The state. -/
structure State where
  /-- The commands that wait, first in, first out. -/
  pending : List Instr := []
  /-- Every register of the register space that software or hardware has changed, by key (page, bank, offset); an
  unlisted register holds its reset value. -/
  regs : Tab Word := []
  /-- What has left the part, newest first. -/
  out : List OutEvent := []
  /-- The model's own: how many free values have been taken. -/
  free : Nat := 0
  lat : Latches := {}
  pins : Pins := {}
  aon : AonTime := {}
  mem : Mems := {}
  pwr : Pwr := {}
  bsn : Bsn := {}
  rst : Rst := {}
  cst : Cst := {}
  mmu : Mmu := {}
  dma : Dma := {}
  fe : Fe := {}
  fnc : Fnc := {}
  hbc : Hbc := {}
  pci : Pci := {}
  sec : Sec := {}
  mbx : Mbx := {}
  cpt : Compute := {}
  lvn : Lvn := {}
  tlr : Tlr := {}
  cmp : Tab CChan := []
  cz : Czs := {}
  svl : Svl := {}
deriving DecidableEq, Repr

/-- The machine right after reset: power-up with SYS_RST_N asserted, before boot event 1 (R348, R345). -/
def State.reset : State := {}

end Sys2Proof.Machine
end

