-- ==== Sys2Proof/Machine/Ops.lean ====
section
/-!
DEFINITION. The named operations over the register space, the output, the free values and the memories.
-/
namespace Sys2Proof.Machine

/-- The outcome of every meaning. -/
abbrev Out := Host.Outcome State Fault Refusal

/-! ## Registers -/

/-- A register as stored: what the part holds, or the reset value. -/
def getReg (pg bank off : Nat) (s : State) : Word := (tabFind (rk pg bank off) s.regs).getD (resetVal pg bank off)

/-- A register set. -/
def setReg (pg bank off : Nat) (v : Word) (s : State) : State :=
  { s with regs := tabSet (rk pg bank off) v s.regs }

/-- A field of a register. -/
def getFld (pg bank off lo n : Nat) (s : State) : Nat := fld (getReg pg bank off s) lo n

/-- A field of a register set. -/
def setFld (pg bank off lo n v : Nat) (s : State) : State :=
  setReg pg bank off (putFld (getReg pg bank off s) lo n v) s

/-- A saturating counter field increased by `k`. -/
def addFld (pg bank off lo n k : Nat) (s : State) : State :=
  setFld pg bank off lo n (satAdd (2 ^ n - 1) (getFld pg bank off lo n s) k) s

/-- A whole-register saturating counter increased by one. -/
def count32 (pg bank off : Nat) (s : State) : State := addFld pg bank off 0 32 1 s

/-- A free-running 32-bit counter increased by one. -/
def wrap32 (pg bank off : Nat) (s : State) : State := setReg pg bank off (getReg pg bank off s + 1) s

/-- A _LO/_HI register pair as one number. -/
def getPair (pg bank off : Nat) (s : State) : Nat :=
  (getReg pg bank off s).toNat + (getReg pg bank (off + 4) s).toNat * 2 ^ 32

/-- A register pair set. -/
def setPair (pg bank off v : Nat) (s : State) : State :=
  setReg pg bank (off + 4) (w32 (v / 2 ^ 32)) (setReg pg bank off (w32 v) s)

/-! ## Output and free values -/

/-- Something leaves the part. -/
def emit (e : OutEvent) (s : State) : State := { s with out := e :: s.out }

/-- A fresh free number: nothing constrains it. -/
def takeFree (s : State) : Nat × State := (Config.freeNat s.free, { s with free := s.free + 1 })

/-- Bytes that nothing constrains. -/
def freeBytes (n : Nat) (s : State) : List Byte × State :=
  ((List.range n).map (fun i => BitVec.ofNat 8 (Config.freeNat (s.free + i))), { s with free := s.free + n })

/-- A fresh free word: nothing constrains it. -/
def takeFreeWord (s : State) : Word × State := (Config.freeWord s.free, { s with free := s.free + 1 })

/-! ## Domains and pages (R441, R444) -/

/-- The page's domain is powered (BLK_STS.POWERED). -/
def powered (pg : Nat) (s : State) : Bool := bit (getReg pg 0 0x00C s) 0

/-- The page's domain is isolated by a fence (BLK_STS.ISOLATED). -/
def isolated (pg : Nat) (s : State) : Bool := bit (getReg pg 0 0x00C s) 1

/-- The page's domain is in a domain reset (BLK_STS.IN_RESET). -/
def inReset (pg : Nat) (s : State) : Bool := bit (getReg pg 0 0x00C s) 2

/-- The page that holds the header of a domain's state: the first page of Table 18-1 in the domain, if it has one. -/
def domainPages (d : Nat) : List Nat := (List.range 146).filter (fun pg => pageDomain pg == d)

/-- The pages of the function regions are held in domain 105 (R451): the page whose state they share. -/
def hostPage (pg : Nat) : Nat :=
  if pg < 146 then pg
  else if pg = pgFn ∨ pg = pgFv ∨ pg = pgAtt then pgFe
  else pgGlb

/-- Block-specific offsets of the page are gated, isolated or in reset (R444). -/
def dark (pg : Nat) (s : State) : Bool :=
  let h := hostPage pg
  if pg < 146 ∨ pg = pgFn ∨ pg = pgFv ∨ pg = pgAtt then !(powered h s) || isolated h s || inReset h s else false

/-- BLK_CTL.LOCK of a page (R10). -/
def locked (pg : Nat) (s : State) : Bool := bit (getReg pg 0 0x008 s) 0

/-- A power domain switched on or off: POWERED of its pages, or the switch of a CPU domain or of the L3, which have no page
of their own (R303). -/
def setPower (d : Nat) (on : Bool) (s : State) : State :=
  match domainPages d with
  | [] => { s with pwr := { s.pwr with domOn := tabSet d on s.pwr.domOn } }
  | pgs => pgs.foldl (fun s pg => setFld pg 0 0x00C 0 1 (b2n on) s) s

/-- A bit of the BLK_STS register of every page of a domain. -/
def setBlkSts (d k v : Nat) (s : State) : State :=
  (domainPages d).foldl (fun s pg => setFld pg 0 0x00C k 1 v s) s

/-- A power domain is switched on (R303). -/
def domainPowered (d : Nat) (s : State) : Bool :=
  match domainPages d with
  | [] => tabGet false d s.pwr.domOn
  | pg :: _ => powered pg s

/-! ## MSI-X (R129, R398, R407) -/

/-- A message of a function's vector: nothing while the function is muted (R206); pending while the vector is masked. -/
def sendMsix (fn vec : Nat) (s : State) : State :=
  if tabGet false fn s.pci.muted then s
  else if bit (getReg pgMsix fn (16 * vec + 12) s) 0 then
    setReg pgPba fn (4 * (vec / 32)) (getReg pgPba fn (4 * (vec / 32)) s ||| oneBit (vec % 32)) s
  else
    emit (.msix fn vec (getPair pgMsix fn (16 * vec) s) (getReg pgMsix fn (16 * vec + 8) s)) s

/-- The MSI-X vectors a function has: 2,048 for the PF, 64 for a VF (Table 1-2). -/
def vecCount (fn : Nat) : Nat := if fn = 0 then 2048 else 64

/-! ## HBM (R136 to R143) -/

/-- Usable HBM in bytes (CAP.HBM_MIB, R450). -/
def hbmCap (s : State) : Nat := (getReg pgCap 0 0x114 s).toNat * 2 ^ 20

/-- What an unlisted HBM byte reads as: 0, or what the stack holds in a region whose bit a failed retention restore
has set (R137, R339). -/
def hbmDefault (st : Tab Bool) (a : Nat) : Byte :=
  if tabGet false (a / 2 ^ 21) st then Config.staleHbmByte a else 0

/-- Bytes of HBM, errors aside. -/
def hbmBytes (a n : Nat) (s : State) : List Byte := memRead (hbmDefault s.hbc.stale) s.mem.hbm a n

/-- The pseudo-channels in service, as stack × 32 + pseudo-channel (R143). -/
def livePcs (s : State) : List Nat :=
  (List.range 128).filter (fun c => !(bit (getReg (pgHbc (c / 32)) 0 0x108 s) (c % 32)))

/-- The pseudo-channel of a 256-byte unit (R123): the units of a round go to the pseudo-channels in service, each once, in an order
that the manual does not state; one that is no order of them stands for their own. -/
def hbmChan (u : Nat) (s : State) : Nat :=
  let l := livePcs s
  let n := l.length
  let o := (List.range n).map (fun k => Config.hbmTurn (u / n) k % n)
  nth 0 l (if o.Nodup then nth 0 o (u % n) else u % n)

/-- The round of the interleave that a 256-byte unit belongs to: its place in its pseudo-channel. -/
def hbmRound (u : Nat) (s : State) : Nat := u / (livePcs s).length

/-- The HBM stack of a physical address (R123). -/
def stackOf (a : Nat) (s : State) : Nat := hbmChan (a / 256) s / 32

/-- The 2 MiB regions, or the 32-byte units, that `[a, a + n)` touches. -/
def chunksOf (size a n : Nat) : List Nat :=
  if n = 0 then [] else span (a / size) ((a + n - 1) / size - a / size + 1)

/-- A region's bit cleared: it reads 0 again (R138). -/
def clearRegion (r : Nat) (s : State) : State :=
  { s with
    mem := { s.mem with hbm := memClear (r * 2 ^ 21) (2 ^ 21) s.mem.hbm },
    hbc := { s.hbc with
      valid := tabDel r s.hbc.valid, stale := tabDel r s.hbc.stale,
      ecc := s.hbc.ecc.filter (fun e => e.1 / 65536 != r),
      pendInv := s.hbc.pendInv.filter (· != r) } }

/-- A region's fill completes: its bit is set; an invalidation that waited for the fill then clears it (R137, R138). -/
def regionFilled (r : Nat) (s : State) : State :=
  if s.hbc.filling.contains r then
    let s := { s with hbc := { s.hbc with
      filling := s.hbc.filling.filter (· != r), valid := tabSet r true s.hbc.valid } }
    if s.hbc.pendInv.contains r then setFld (pgHbc 0) 0 0x128 31 1 0 (clearRegion r s) else s
  else s

/-- The fills of some regions complete: an access to a region that is being filled is performed once its fill is over (R137). -/
def settleFills (rs : List Nat) (s : State) : State := rs.foldl (fun s r => regionFilled r s) s

/-- The first write to a never-written region starts its zero-fill (R137). -/
def touchRegion (s : State) (r : Nat) : State :=
  if tabGet false r s.hbc.valid || s.hbc.filling.contains r then s
  else { s with hbc := { s.hbc with filling := s.hbc.filling ++ [r] } }

/-- A write of all 32 bytes of a unit clears its error; a partial write keeps it (R140). -/
def clearEcc (a n : Nat) (t : Tab EccErr) : Tab EccErr :=
  t.filter (fun e => !(a ≤ e.1 * 32 && e.1 * 32 + 32 ≤ a + n))

/-- FLT_INJ MODE 0 or 1 takes effect on the next protected word that the page's storage writes (R369): the register's
ARM clears and DONE sets. Answers whether an injection was armed, and whether it makes the word uncorrectable. -/
def takeInjection (pg : Nat) (s : State) : Option Bool × State :=
  let v := getReg pg 0 0x028 s
  if bit v 16 && fld v 8 2 < 2 then
    (some (fld v 8 2 == 1), setReg pg 0 0x028 (putFld (putFld v 16 1 0) 17 1 1) s)
  else (none, s)

/-- A 64-bit or 32-bit or other little-endian value of HBM, errors aside. -/
def hbmNat (a n : Nat) (s : State) : Nat := leNat (hbmBytes a n s)

/-! ## Host memory, flash, AON SRAM -/

/-- Bytes of host memory as the part sees it. -/
def hostBytes (a n : Nat) (s : State) : List Byte := memRead Config.hostByte s.mem.host a n

/-- Bytes written to host memory. -/
def hostPut (a : Nat) (bs : List Byte) (s : State) : State :=
  { s with mem := { s.mem with host := memWrite Config.hostByte a bs s.mem.host } }

/-- A write request of the part to host memory (R152). -/
def hostSend (q : HostAttr) (a : Nat) (bs : List Byte) (s : State) : State := emit (.hostWrite a bs q) (hostPut a bs s)

/-- Bytes of the flash. -/
def flashBytes (a n : Nat) (s : State) : List Byte := memRead Config.flashByte s.mem.flash a n

/-- Bytes of the AON retention SRAM; contents are undefined after a cold reset until written (R348). -/
def aonBytes (a n : Nat) (s : State) : List Byte := memRead (Config.aonByte s.aon.gen) s.mem.aon a n

/-- Bytes written to the AON retention SRAM. -/
def aonPut (a : Nat) (bs : List Byte) (s : State) : State :=
  { s with mem := { s.mem with aon := memWrite (Config.aonByte s.aon.gen) a bs s.mem.aon } }

/-! ## The outcome of a meaning -/

/-- The memories put into canonical form: every byte reads as before. -/
def tidyMem (s : State) : State :=
  { s with mem := {
      hbm := memCanon (hbmDefault s.hbc.stale) s.mem.hbm,
      host := memCanon Config.hostByte s.mem.host,
      flash := memCanon Config.flashByte s.mem.flash,
      aon := memCanon (Config.aonByte s.aon.gen) s.mem.aon,
      lm := memCanon zeroByte s.mem.lm,
      cmem := memCanon zeroByte s.mem.cmem } }

/-- The outcome of every meaning: the state that the command leaves, its memories in canonical form. -/
def toNext (s : State) : Out := .next (tidyMem s)

/-! ## The core map (R14, R450) -/

/-- The physical core of a logical index as CAP reports it: 0x7F when unassigned. -/
def physOf (l : Nat) (s : State) : Nat := getFld pgCap 0 (0x140 + 4 * (l / 4)) (8 * (l % 4)) 7 s

/-- The logical index of a physical core, if it has one. -/
def logicalOf (p : Nat) (s : State) : Option Nat := (List.range 64).find? (fun l => physOf l s == p)

/-- A logical index mapped to a physical core. -/
def setPhys (l p : Nat) (s : State) : State := setFld pgCap 0 (0x140 + 4 * (l / 4)) (8 * (l % 4)) 7 p s

/-- STAGE of the boot (Table 13-9). -/
def stage (s : State) : Nat := getFld pgRst 0 0x12C 0 4 s

/-- The current device state (Table 13-1). -/
def devState (s : State) : Nat := getFld pgRst 0 0x104 0 2 s

/-- The block microsecond and cluster reference counters run: the device is ON or DOZE and out of reset (R28). -/
def counting (s : State) : Bool := devState s ≤ 1 && !s.rst.held

/-- Self-hosted mode: the level of BOOT_MODE as the last release of a device reset sampled it into BOOT_STS.MODE, which nothing
but a device reset changes (R3). -/
def selfHosted (s : State) : Bool := bit (getReg pgRst 0 0x12C s) 4

/-- A context slot. -/
def slotOf (k : Nat) (s : State) : Slot := tabGet {} k s.fe.slots

/-- A context slot set. -/
def setSlot (k : Nat) (v : Slot) (s : State) : State := { s with fe := { s.fe with slots := tabSet k v s.fe.slots } }

/-- A queue, by slot × 16 + queue. -/
def queueOf (slot q : Nat) (s : State) : Queue := tabGet {} (slot * 16 + q) s.fe.queues

/-- A queue set. -/
def setQueue (slot q : Nat) (v : Queue) (s : State) : State :=
  { s with fe := { s.fe with queues := tabSet (slot * 16 + q) v s.fe.queues } }

/-- A job set. -/
def setJob (j : Nat) (v : Job) (s : State) : State := { s with fe := { s.fe with jobs := tabSet j v s.fe.jobs } }

/-- A job that an engine has ended: the first end stands. -/
def endJob (j status reason detail : Nat) (s : State) : State :=
  match tabFind j s.fe.jobs with
  | some b => if b.fin.isSome then s else setJob j { b with fin := some ⟨status, reason, detail⟩ } s
  | none => s

end Sys2Proof.Machine
end

