-- ==== Sys2Proof/Machine/Flags.lean ====
section
/-!
DEFINITION. Interrupt conditions (R446 to R449), sticky fault bits and Basin's sources (R355 to R357), the function
views (R367), and the error registers of the memories (R135, R139, R142, R145).
-/
namespace Sys2Proof.Machine

/-! ## Interrupt conditions -/

/-- A page requests an interrupt while IRQ_PEND AND NOT IRQ_MASK is not 0 (R446). -/
def irqReq (pg : Nat) (s : State) : Bool := (getReg pg 0 0x018 s &&& ~~~ (getReg pg 0 0x014 s)) != 0

/-- A change of the page's IRQ_SUM bit from 0 to 1 sends the PF's summary vector (R449). -/
def sumNotify (pg : Nat) (before : Bool) (s : State) : State :=
  if !before && irqReq pg s && bit (getReg pgGlb 0 0x108 s) 0 then sendMsix 0 (getFld pgGlb 0 0x108 16 11 s) s else s

/-- IRQ_PEND bits set, by a condition or by IRQ_FORCE (R446). -/
def setPend (pg : Nat) (bits : Word) (s : State) : State :=
  sumNotify pg (irqReq pg s) (setReg pg 0 0x018 (getReg pg 0 0x018 s ||| bits) s)

/-- Condition `k` of a page arises: IRQ_RAW bit k, and IRQ_PEND bit k on a change from 0 to 1 (R446). -/
def raiseIrq (pg k : Nat) (s : State) : State :=
  if bit (getReg pg 0 0x010 s) k then s
  else setPend pg (oneBit k) (setReg pg 0 0x010 (getReg pg 0 0x010 s ||| oneBit k) s)

/-- A level condition no longer holds. -/
def dropIrq (pg k : Nat) (s : State) : State :=
  setReg pg 0 0x010 (getReg pg 0 0x010 s &&& ~~~ (oneBit k)) s

/-- The conditions of Table 18-3 that are levels, and bit 31 (R447). -/
def isLevel (pg k : Nat) : Bool := k == 31 || (pg == pgPwr && k == 1) || (pg == pgCst && k == 0)

/-- The level conditions of a page as a mask. -/
def levelMask (pg : Nat) : Word :=
  (List.range 32).foldl (fun m k => if isLevel pg k then m ||| oneBit k else m) 0

/-- Software clears IRQ_PEND bits: event conditions clear in IRQ_RAW, and a level condition that still holds sets its bit
again (R446). -/
def clearPend (pg : Nat) (bits : Word) (s : State) : State :=
  let s := setReg pg 0 0x018 (getReg pg 0 0x018 s &&& ~~~ bits) s
  let s := setReg pg 0 0x010 (getReg pg 0 0x010 s &&& ~~~ (bits &&& ~~~ (levelMask pg))) s
  let again := getReg pg 0 0x010 s &&& levelMask pg &&& bits
  if again = 0 then s else setPend pg again s

/-- A write of IRQ_MASK (R446, R449). -/
def writeMask (pg : Nat) (v : Word) (s : State) : State := sumNotify pg (irqReq pg s) (setReg pg 0 0x014 v s)

/-! ## Sticky fault bits and sources -/

/-- The group code of a source (Table 14-1). -/
def srcGroup (i : Nat) : Nat :=
  if i < 80 then 0x01 else if i < 160 then 0x02 else if i < 176 then 0x03 else if i < 192 then 0x04
  else if i < 208 then 0x05 else if i < 212 then 0x06 else if i < 216 then 0x07 else if i < 220 then 0x08
  else if i < 224 then 0x09 else if i < 228 then 0x0A else if i = 228 then 0x0B else if i = 229 then 0x0C
  else if i = 230 then 0x0D else if i = 231 then 0x0E else if i < 264 then 0x0F else if i = 264 then 0x10
  else if i = 265 then 0x11 else if i = 266 then 0x12 else if i < 275 then 0x13 else if i = 275 then 0x14
  else if i < 283 then 0x15 else if i = 283 then 0x16 else if i = 284 then 0x17 else if i = 285 then 0x18
  else if i = 286 then 0x19 else 0x1A

/-- Page and bit of a source's sticky bit (Table 14-1). -/
def srcHome (i : Nat) : Nat × Nat :=
  if i < 80 then (pgSc i, 0)
  else if i < 160 then (pgSc (i - 80), 1)
  else if i < 176 then (pgCl (i - 160), 2)
  else if i < 192 then (pgCl (i - 176), 1)
  else if i < 208 then (pgCl (i - 192), 3)
  else if i < 212 then (pgHbc (i - 208), 0)
  else if i < 216 then (pgHbc (i - 212), 1)
  else if i < 220 then (pgHbc (i - 216), 2)
  else if i < 224 then (pgSvl (i - 220), 0)
  else if i < 228 then (pgSvl (i - 224), 1)
  else if i = 228 then (pgPci, 0)
  else if i = 229 then (pgPci, 1)
  else if i = 230 then (pgAna, 0)
  else if i = 231 then (pgBsn, 0)
  else if i < 264 then (pgPwr, i - 232)
  else if i = 264 then (pgBsn, 3)
  else if i = 265 then (pgYns, 0)
  else if i = 266 then (pgClk, 0)
  else if i < 275 then (pgHcx, i - 267)
  else if i = 275 then (pgHcx, 8)
  else if i = 276 then (pgFe, 0)
  else if i = 277 then (pgTlr, 0)
  else if i = 278 then (pgCmp, 0)
  else if i = 279 then (pgCz 0, 0)
  else if i = 280 then (pgCz 1, 0)
  else if i = 281 then (pgMmu, 0)
  else if i = 282 then (pgLvn, 0)
  else if i = 283 then (pgSec, 0)
  else if i = 284 then (pgBsn, 1)
  else if i = 285 then (pgBsn, 2)
  else if i = 286 then (pgCap, 0)
  else (pgAna, 1)

/-- A sticky fault bit set: FLT_STICKY, and condition 31 of the page (R447). -/
def setSticky (pg b : Nat) (s : State) : State :=
  raiseIrq pg 31 (setReg pg 0 0x020 (getReg pg 0 0x020 s ||| oneBit b) s)

/-- Software clears sticky bits: condition 31 ends when none is left (R447). -/
def clearSticky (pg : Nat) (bits : Word) (s : State) : State :=
  let s := setReg pg 0 0x020 (getReg pg 0 0x020 s &&& ~~~ bits) s
  if getReg pg 0 0x020 s = 0 then dropIrq pg 31 s else s

/-- An event of a source at a sticky bit: the bit sets and FLT_CNT counts, masked or not; an unmasked event goes to
Basin (R357). -/
def faultAt (src pg b : Nat) (s : State) : State :=
  let s := count32 pg 0 0x02C (setSticky pg b s)
  if bit (getReg pg 0 0x024 s) b then s
  else { s with bsn := { s.bsn with inbox := s.bsn.inbox ++ [src] } }

/-- An event of a source at its own sticky bit. -/
def fault (src : Nat) (s : State) : State := faultAt src (srcHome src).1 (srcHome src).2 s

/-- A record-lost event: the source's own bit, and source 285 (R164, R356). -/
def recordLost (pg b : Nat) (s : State) : State := fault 285 (setSticky pg b s)

/-! ## Function views (R367) -/

/-- An event of kind `k` in a function's Basin view, with the slot, the queue and the record it belongs to. -/
def viewEvent (fn k slot q seq : Nat) (s : State) : State :=
  let s := setReg pgFv fn 0x100 (getReg pgFv fn 0x100 s ||| oneBit k) s
  let s := count32 pgFv fn (0x108 + 4 * k) s
  let s := if bit (getReg pgFv fn 0x128 s) 31 then s
    else setReg pgFv fn 0x12C (w32 seq)
      (setReg pgFv fn 0x128 (w32 (k + slot * 2 ^ 8 + q * 2 ^ 16 + 2 ^ 31)) s)
  if bit (getReg pgFv fn 0x104 s) k then sendMsix fn (getFld pgFv fn 0x104 16 11 s) s else s

/-- A function's view cleared (R206, R401). -/
def clearView (fn : Nat) (s : State) : State :=
  { s with regs := s.regs.filter (fun e => !(e.1 / 65536 == pgFv * 512 + fn)) }

/-! ## HBM errors (R139, R142) -/

/-- LOG_STS.COUNT as the number of valid entries. -/
def logCount (n : Nat) (s : State) : Nat :=
  ((List.range 16).filter (fun i => bit (getReg (pgHbc n) 0 (0x20C + 16 * i) s) 31)).length

/-- The entry that holds a unit. -/
def logEntryOf (n u : Nat) (s : State) : Option Nat :=
  (List.range 16).find? (fun i =>
    bit (getReg (pgHbc n) 0 (0x20C + 16 * i) s) 31 &&
    (getReg (pgHbc n) 0 (0x200 + 16 * i) s).toNat + getFld (pgHbc n) 0 (0x204 + 16 * i) 0 5 s * 2 ^ 32 == u * 32)

/-- An error in a 32-byte unit is logged: a repeat, a new entry, or a drop (R142). -/
def logHbmError (u : Nat) (ue scrub : Bool) (s : State) : State :=
  let n := stackOf (u * 32) s
  let pg := pgHbc n
  let pc := hbmChan (u / 8) s % 32
  let cell := Config.hbmCell (hbmRound (u / 8) s)
  match logEntryOf n u s with
  | some i =>
    let off := 0x20C + 16 * i
    let hard := bit (getReg pg 0 off s) 1
    let s := addFld pg 0 off 8 8 1 s
    let s := if ue then setFld pg 0 off 0 1 1 s else s
    let s := setFld pg 0 off 1 1 1 s
    if hard then s else fault (216 + n) s
  | none =>
    match (List.range 16).find? (fun i => !(bit (getReg pg 0 (0x20C + 16 * i) s) 31)) with
    | some i =>
      let s := setReg pg 0 (0x200 + 16 * i) (w32 (u * 32)) s
      let s := setReg pg 0 (0x204 + 16 * i)
        (w32 (u * 32 / 2 ^ 32 % 32 + pc * 32 + cell % 64 * 2 ^ 10)) s
      let s := setReg pg 0 (0x208 + 16 * i) (w32 (cell / 64 % 2 ^ 18)) s
      let s := setReg pg 0 (0x20C + 16 * i) (w32 (b2n ue + 2 * b2n ue + 4 * b2n scrub + 2 ^ 31)) s
      let s := setFld pg 0 0x114 0 5 (logCount n s) s
      let s := raiseIrq pg 0 s
      if ue then fault (216 + n) s else s
    | none =>
      let s := addFld pg 0 0x114 8 8 1 s
      let first := !(bit (getReg pg 0 0x114 s) 31)
      let s := setFld pg 0 0x114 31 1 1 s
      let s := if first then raiseIrq pg 0 s else s
      fault (216 + n) s

/-- A unit with an error is read: a correctable one is corrected, written back and counted; an uncorrectable one is
counted and reported (R136, R139 to R142). -/
def hbmUnitError (u : Nat) (ue scrub : Bool) (s : State) : State :=
  let n := stackOf (u * 32) s
  let s := logHbmError u ue scrub s
  if ue then fault (208 + n) (count32 (pgHbc n) 0 0x110 s)
  else fault (212 + n) (count32 (pgHbc n) 0 0x10C { s with hbc := { s.hbc with ecc := tabDel u s.hbc.ecc } })

/-- The errors of the units that `[a, a + n)` touches, taken one by one. -/
def hbmErrors (a n : Nat) (scrub : Bool) (s : State) : State :=
  (s.hbc.ecc.filter (fun e => a / 32 ≤ e.1 && e.1 * 32 < a + n)).foldl
    (fun s e => hbmUnitError e.1 e.2.ue scrub s) s

/-- Some unit that `[a, a + n)` touches holds an uncorrectable error. -/
def hbmBad (a n : Nat) (s : State) : Bool :=
  s.hbc.ecc.any (fun e => a / 32 ≤ e.1 && e.1 * 32 < a + n && e.2.ue)

/-- A read of HBM with its errors: nothing on a bus error (R139). It waits for the fill of a region that is being filled (R137). -/
def hbmRead (a n : Nat) (s : State) : Option (List Byte) × State :=
  let s := settleFills (chunksOf (2 ^ 21) a n) s
  let s' := hbmErrors a n false s
  if hbmBad a n s then (none, s') else (some (hbmBytes a n s), s')

/-- The units that a write covers in part are read first: a correctable error met there is corrected, counted and logged (R136).
DESIGN CHOICE (log 85): an uncorrectable one is kept and neither counted nor logged; R140 says that the writer receives no error. -/
def hbmMerge (a n : Nat) (s : State) : State :=
  (s.hbc.ecc.filter (fun e => !e.2.ue && (chunksOf 32 a n).contains e.1 &&
    !(a ≤ e.1 * 32 && e.1 * 32 + 32 ≤ a + n))).foldl (fun s e => hbmUnitError e.1 false false s) s

/-- Bytes written to HBM: the region's fill, the units' errors, an armed injection (R136, R137, R140, R369). -/
def hbmPut (a : Nat) (bs : List Byte) (s : State) : State :=
  match bs with
  | [] => s
  | _ =>
    let rs := chunksOf (2 ^ 21) a bs.length
    let s := hbmMerge a bs.length (rs.foldl touchRegion (settleFills rs s))
    let s := { s with
      mem := { s.mem with hbm := memWrite (hbmDefault s.hbc.stale) a bs s.mem.hbm },
      hbc := { s.hbc with ecc := clearEcc a bs.length s.hbc.ecc } }
    match takeInjection (pgHbc (stackOf a s)) s with
    | (some ue, s) =>
      let bad := match tabFind (a / 32) s.hbc.ecc with | some e => e.ue | none => false
      { s with hbc := { s.hbc with ecc := tabSet (a / 32) { ue := ue || bad } s.hbc.ecc } }
    | (none, s) => s

end Sys2Proof.Machine
end

