-- ==== Sys2Proof/Machine/Mmu.lean ====
section
/-!
DEFINITION. Translation (R146 to R154), accesses by virtual address, and fault records (R159 to R165, R471).
Requesters of the MMU: 0 to 79 the shader cores by physical index, 80 tiler, 81 composer, 82 and 83 CZ0 and CZ1,
84 to 87 DMA0 to DMA3, 88 front end, 89 Leaven, 90 fence unit, 91 root port (R153).
-/
namespace Sys2Proof.Machine

abbrev rqTiler : Nat := 80
abbrev rqCmp : Nat := 81
abbrev rqCz (z : Nat) : Nat := 82 + z
abbrev rqDma (n : Nat) : Nat := 84 + n
abbrev rqFe : Nat := 88
abbrev rqLvn : Nat := 89
abbrev rqFnc : Nat := 90
abbrev rqRoot : Nat := 91

/-- A DMA channel, and the root port, whose requests the MMU translates as a channel's (R150, R408). -/
def isDma (rq : Nat) : Bool := (84 ≤ rq && rq < 88) || rq == rqRoot

/-! ## Causes (Table 6-4) -/

abbrev cNotPresent : Nat := 0x01
abbrev cAtsMiss : Nat := 0x02
abbrev cPriFailed : Nat := 0x03
abbrev cUnpinned : Nat := 0x04
abbrev cWriteDenied : Nat := 0x05
abbrev cReadDenied : Nat := 0x06
abbrev cExecDenied : Nat := 0x07
abbrev cBadEntry : Nat := 0x08
abbrev cWalkError : Nat := 0x09
abbrev cBadPasid : Nat := 0x0A
abbrev cAddrRange : Nat := 0x0B

/-- The retryable causes of a DMA channel (Table 6-4). -/
def retryable (c : Nat) : Bool := c == cNotPresent || c == cAtsMiss

/-! ## Walks -/

/-- Bits of a number. -/
def nbits (v lo n : Nat) : Nat := v / 2 ^ lo % 2 ^ n

/-- The form of a table entry above level 0 (R150 step 2): the next table's address, or nothing on BAD_ENTRY. -/
def tableForm (level pte : Nat) (s : State) : Option Nat :=
  let addr := nbits pte 8 44 * 256
  let g64 := nbits pte 2 1 = 1
  let align := if g64 then 256 else 4096
  if nbits pte 54 10 ≠ 0 ∨ nbits pte 3 5 ≠ 0 ∨ nbits pte 52 2 ≠ 0 ∨ (g64 ∧ level ≠ 1) ∨ addr % align ≠ 0
      ∨ hbmCap s ≤ addr then none
  else some addr

/-- The form of a leaf of `size` bytes (R148, R150 step 2, R170): what a buffer holds of it. -/
def leafForm (slot level size va pte : Nat) (s : State) : Option TlbEnt :=
  let addr := nbits pte 8 44 * 256
  let tgt := nbits pte 52 2
  if nbits pte 54 10 ≠ 0 ∨ tgt = 3 ∨ nbits pte 2 1 = 1 ∨ addr % size ≠ 0 ∨ (tgt = 0 ∧ size = 4096)
      ∨ (tgt = 0 ∧ hbmCap s ≤ addr) ∨ (tgt ≠ 0 ∧ selfHosted s) ∨ (tgt = 2 ∧ addr ≠ 0)
      ∨ (tgt = 2 ∧ (slotOf slot s).atsEn = false) then none
  else some
    { slot := slot, base := va / size * size, size := size, pa := addr,
      r := nbits pte 3 1 = 1, w := nbits pte 4 1 = 1, x := nbits pte 5 1 = 1, pin := nbits pte 6 1 = 1,
      tgt := tgt, level := level, ns := nbits pte 7 1 = 1 }

/-- A buffer of a fixed size with an entry added; a full one gives up an entry that the manual does not name. -/
def bufAdd {α : Type} (cap : Nat) (e : α) (l : List α) (s : State) : List α × State :=
  if l.length < cap then (l ++ [e], s)
  else
    let (v, s) := takeFree s
    (l.set (v % cap) e, s)

/-- The set of the shared buffer that an entry belongs to: 1,024 sets of 8 ways, tagged by slot, page size and virtual page (R153). -/
def tlbSet (e : TlbEnt) : Nat := Config.tlbSet e.slot e.size (e.base / e.size) % 1024

/-- An entry added to the shared buffer; where its set is full, one of the eight, which the manual does not name, gives way. -/
def sharedAdd (e : TlbEnt) (s : State) : State :=
  let l := s.mmu.shared
  let peers := if l.length < 8 then [] else l.filter (fun o => tlbSet o == tlbSet e)
  if peers.length < 8 then { s with mmu := { s.mmu with shared := l ++ [e] } }
  else
    let (v, s) := takeFree s
    { s with mmu := { s.mmu with
      shared := (match peers[v % peers.length]? with | some o => l.erase o | none => l) ++ [e] } }

/-- One entry of a walk: from the walk cache at levels 3 to 1, else one 8-byte read of HBM (R149, R153). -/
def readPte (slot level va table : Nat) (s : State) : Option Nat × State :=
  let idx := nbits va (12 + 9 * level) 9
  let pfx := va / 2 ^ (12 + 9 * level)
  match (if 1 ≤ level then s.mmu.walk.find? (fun e => e.slot == slot && e.level == level && e.pfx == pfx) else none) with
  | some e => (some e.pte, s)
  | none =>
    match hbmRead (table + 8 * idx) 8 s with
    | (none, s) => (none, s)
    | (some bs, s) => (some (leNat bs), s)

/-- A valid table entry is kept in the walk cache (R153, R154). -/
def keepWalk (slot level va pte : Nat) (s : State) : State :=
  let e : WalkEnt := ⟨slot, level, va / 2 ^ (12 + 9 * level), pte⟩
  if s.mmu.walk.contains e then s
  else
    let (l, s) := bufAdd 512 e s.mmu.walk s
    { s with mmu := { s.mmu with walk := l } }

/-- Level 0 of a walk: a page of 4 KiB, or of 64 KiB where the level-1 entry had G64 (R147). -/
def walkLeaf (slot va table : Nat) (g64 : Bool) (s : State) : Except (Nat × Nat) TlbEnt × State :=
  let a := if g64 then table + 8 * nbits va 16 5 else table + 8 * nbits va 12 9
  match hbmRead a 8 s with
  | (none, s) => (.error (cWalkError, 0), s)
  | (some bs, s) =>
    let pte := leNat bs
    if nbits pte 0 1 = 0 then (.error (cNotPresent, 0), s)
    else if nbits pte 1 1 = 0 then (.error (cBadEntry, 0), s)
    else
      match leafForm slot 0 (if g64 then 65536 else 4096) va pte s with
      | some e => (.ok e, s)
      | none => (.error (cBadEntry, 0), s)

/-- A walk from a table of `level` down (R147, R150): structural in the level. -/
def walkFrom (slot va : Nat) : (level : Nat) → (table : Nat) → (g64 : Bool) → State →
    Except (Nat × Nat) TlbEnt × State
  | 0, table, g64, s => walkLeaf slot va table g64 s
  | level + 1, table, _, s =>
    match readPte slot (level + 1) va table s with
    | (none, s) => (.error (cWalkError, level + 1), s)
    | (some pte, s) =>
      if nbits pte 0 1 = 0 then (.error (cNotPresent, level + 1), s)
      else if nbits pte 1 1 = 1 then
        if level = 0 then
          match leafForm slot 1 (2 ^ 21) va pte s with
          | some e => (.ok e, s)
          | none => (.error (cBadEntry, 1), s)
        else (.error (cBadEntry, level + 1), s)
      else
        match tableForm (level + 1) pte s with
        | none => (.error (cBadEntry, level + 1), s)
        | some t => walkFrom slot va level t (nbits pte 2 1 = 1) (keepWalk slot (level + 1) va pte s)

/-! ## Translation buffers -/

/-- A buffer entry that maps the address for the slot. -/
def entHit (slot va : Nat) (e : TlbEnt) : Bool := e.slot == slot && e.base ≤ va && va < e.base + e.size

/-- A requester with a micro buffer (R153): not the root port, the links or the security engine. -/
def hasMicro (rq : Nat) : Bool := rq ≤ rqFnc

/-- An entry put into the requester's micro buffer, if it has one. -/
def microAdd (rq : Nat) (e : TlbEnt) (s : State) : State :=
  if hasMicro rq then
    let (l, s) := bufAdd 32 e (tabGet [] rq s.mmu.micro) s
    { s with mmu := { s.mmu with micro := tabSet rq l s.mmu.micro } }
  else s

/-- The leaf that maps an address: from the micro buffer, the shared buffer or a walk; a failure is held nowhere
(R153, R154). -/
def findEnt (rq slot va : Nat) (s : State) : Except (Nat × Nat) TlbEnt × State :=
  match (tabGet [] rq s.mmu.micro).find? (entHit slot va) with
  | some e => (.ok e, s)
  | none =>
    match s.mmu.shared.find? (fun e => !e.ats && entHit slot va e) with
    | some e => (.ok e, microAdd rq e (count32 pgMmu 0 0x118 s))
    | none =>
      match walkFrom slot va 3 (slotOf slot s).ptRoot false (count32 pgMmu 0 0x11C s) with
      | (.error c, s) => (.error c, s)
      | (.ok e, s) => (.ok e, microAdd rq e (sharedAdd e s))

/-- The permission check of R150 step 3. -/
def permCause (k : XKind) (r w x : Bool) : Option Nat :=
  match k with
  | .rd => if r then none else some cReadDenied
  | .wr => if w then none else some cWriteDenied
  | .at => if !r then some cReadDenied else if !w then some cWriteDenied else none
  | .ex => if x then none else some cExecDenied

/-- Where an access goes: HBM, or host memory with what the request carries. -/
inductive Dest where
  | hbm (pa : Nat)
  | host (pa : Nat) (q : HostAttr)
  /-- A TGT = 2 page that needs an ATS translation first (R170). -/
  | needAts
deriving DecidableEq, Repr

/-- A translation (R146, R150 to R152, R170). -/
def translate (rq slot va : Nat) (k : XKind) (s : State) : Except (Nat × Nat) Dest × State :=
  if 2 ^ 48 ≤ va then (.error (cAddrRange, 3), s)
  else if (slotOf slot s).state = 0 then (.error (cBadPasid, 3), s)
  else
    match findEnt rq slot va s with
    | (.error c, s) => (.error c, s)
    | (.ok e, s) =>
      match permCause k e.r e.w e.x with
      | some c => (.error (c, e.level), s)
      | none =>
        if !(isDma rq) && (!e.pin || e.tgt = 2) then (.error (cUnpinned, e.level), s)
        else if e.tgt = 0 then (.ok (.hbm (e.pa + (va - e.base))), s)
        else
          let q : HostAttr := { fn := (slotOf slot s).func, noSnoop := e.ns }
          if e.tgt = 1 then (.ok (.host (e.pa + (va - e.base)) q), s)
          else
            match s.mmu.shared.find? (fun g => g.ats && entHit slot va g) with
            | none => (.ok .needAts, s)
            | some g =>
              match permCause k g.r g.w g.x with
              | some _ => (.ok .needAts, s)
              | none =>
                (.ok (.host (g.pa + (va - g.base))
                  { q with translated := !g.untranslated, pasid := if g.untranslated then some (slotOf slot s).pasid else none }), s)

/-- PF_DEPTH as it acts (Table 6-6). -/
def pfDepth (s : State) : Nat :=
  let d := getFld pgMmu 0 0x100 0 4 s
  if d = 0 then 1 else if 8 < d then 8 else d

/-- Walks ahead of `[va, top)`, page by page, for at most so many pages: structural in their number. A page whose walk fails, whose
size nothing tells, is passed as one of 4 KiB (DESIGN CHOICE, log 90). -/
def prefetchRun (rq slot top : Nat) : (pages : Nat) → (va : Nat) → State → State
  | 0, _, s => s
  | d + 1, va, s =>
    if top ≤ va ∨ 2 ^ 48 ≤ va then s
    else
      match findEnt rq slot va s with
      | (.ok e, s) => prefetchRun rq slot top d (e.base + e.size) s
      | (.error _, s) => prefetchRun rq slot top d (va / 4096 * 4096 + 4096) s

/-- Walks ahead of a declared stream (R155): the next PF_DEPTH pages in its address order; successes go into the buffers, failures
record nothing. -/
def prefetch (rq slot va len : Nat) (s : State) : State :=
  if (slotOf slot s).state = 0 then s else prefetchRun rq slot (va + len) (pfDepth s) va s

/-- Walks ahead along some addresses in a stream's order, for at most so many pages (R155); `last` is the page walked last. -/
def prefetchTo (rq slot : Nat) : (pages : Nat) → (last : Nat × Nat) → List Nat → State → State
  | _, _, [], s => s
  | d, last, a :: t, s =>
    if last.1 ≤ a ∧ a < last.1 + last.2 then prefetchTo rq slot d last t s
    else if d = 0 then s
    else
      match findEnt rq slot a s with
      | (.ok e, s) => prefetchTo rq slot (d - 1) (e.base, e.size) t s
      | (.error _, s) => prefetchTo rq slot (d - 1) (a / 4096 * 4096, 4096) t s

/-- The same for a slot that is loaded. -/
def prefetchAt (rq slot pages : Nat) (as : List Nat) (s : State) : State :=
  if (slotOf slot s).state = 0 then s else prefetchTo rq slot pages (0, 0) as s

/-! ## Accesses by virtual address -/

/-- A read inside one page. -/
def vaRead (rq slot va n : Nat) (k : XKind) (s : State) : Except AccErr (List Byte) × State :=
  match translate rq slot va k s with
  | (.error (c, l), s) => (.error (.xl c l), s)
  | (.ok (.hbm pa), s) =>
    match hbmRead pa n s with
    | (some bs, s) => (.ok bs, s)
    | (none, s) => (.error .bus, s)
  | (.ok (.host pa _), s) => (.ok (hostBytes pa n s), s)
  | (.ok .needAts, s) => (.error (.xl cAtsMiss 0), s)

/-- A write inside one page. -/
def vaWrite (rq slot va : Nat) (bs : List Byte) (s : State) : Except AccErr Unit × State :=
  match translate rq slot va .wr s with
  | (.error (c, l), s) => (.error (.xl c l), s)
  | (.ok (.hbm pa), s) => (.ok (), hbmPut pa bs s)
  | (.ok (.host pa q), s) => (.ok (), hostSend q pa bs s)
  | (.ok .needAts, s) => (.error (.xl cAtsMiss 0), s)

/-- The pieces of `[va, va + n)` that lie in one 4 KiB page each. -/
def pagePieces (va n : Nat) : List (Nat × Nat) :=
  (chunksOf 4096 va n).map (fun c =>
    let a := max va (c * 4096)
    (a, min (va + n) (c * 4096 + 4096) - a))

/-- A read of any length: the bytes, or the first failing address. -/
def vaReadAll (rq slot va n : Nat) (k : XKind) (s : State) : Except (AccErr × Nat) (List Byte) × State :=
  (pagePieces va n).foldl
    (fun (acc : Except (AccErr × Nat) (List Byte) × State) p =>
      match acc with
      | (.error e, s) => (.error e, s)
      | (.ok bs, s) =>
        match vaRead rq slot p.1 p.2 k s with
        | (.ok b, s) => (.ok (bs ++ b), s)
        | (.error e, s) => (.error (e, p.1), s))
    (.ok [], s)

/-- A write of any length: the pages before a failing one are written (R166). -/
def vaWriteAll (rq slot va : Nat) (bs : List Byte) (s : State) : Except (AccErr × Nat) Unit × State :=
  (pagePieces va bs.length).foldl
    (fun (acc : Except (AccErr × Nat) Unit × State) p =>
      match acc with
      | (.error e, s) => (.error e, s)
      | (.ok _, s) =>
        match vaWrite rq slot p.1 ((bs.drop (p.1 - va)).take p.2) s with
        | (.ok _, s) => (.ok (), s)
        | (.error e, s) => (.error (e, p.1), s))
    (.ok (), s)

/-! ## Fault records (R161 to R165, R471) -/

/-- The job that an access belongs to, as a fault record names it. -/
structure JobRef where
  slot : Nat
  queue : Nat
  start : Nat
  nojob : Bool
deriving DecidableEq, Repr

/-- The name of a job in a fault record: its queue's, or entry 0's for a batch (R471). -/
def jobRef (j : Nat) (s : State) : JobRef :=
  match tabFind j s.fe.jobs with
  | some b =>
    match b.owner with
    | .queue k q => ⟨k, q, b.startSeq, false⟩
    | .batch n => let t := tabGet (0, 0, 0) n s.fe.batchRef; ⟨t.1, t.2.1, t.2.2, false⟩
  | none => ⟨0, 0, 0, true⟩

/-- SRC_TYPE and SRC_IDX of a requester (Table 6-3). -/
def srcOf (rq chan : Nat) (s : State) : Nat × Nat :=
  if rq < 80 then (1, (logicalOf rq s).getD 0x3F)
  else if rq = rqTiler then (2, 0)
  else if rq = rqCmp then (3, 0)
  else if rq < 84 then (4, rq - 82)
  else if rq < 88 then (0, (rq - 84) * 16 + chan)
  else if rq = rqFe then (5, 0)
  else if rq = rqLvn then (6, 0)
  else (7, 0)

/-- LOG2SIZE of a function's fault ring (R161, Table 6-6). -/
def fltLog2 (fn : Nat) (s : State) : Nat := max 6 (min 12 (getFld pgMmu fn 0x134 8 4 s))

/-- The wrap value V of a ring's counts (R163). -/
def fltWrap (fn : Nat) (s : State) : Nat := (2 ^ fltLog2 fn s - 1) * 2 ^ (32 - fltLog2 fn s)

/-- The records that a ring holds (R163). -/
def fltHeld (fn : Nat) (s : State) : Nat :=
  let v := fltWrap fn s
  ((getReg pgMmu fn 0x140 s).toNat + v - (getReg pgMmu fn 0x144 s).toNat % v) % v

/-- The 32 bytes of a fault record (Table 6-3). -/
def fltRecord (va : Nat) (j : JobRef) (typ idx cause level : Nat) (write exec retry : Bool) (seq token bytes : Nat)
    (s : State) : List Byte :=
  toLE 8 (va % 2 ^ 48) ++
  toLE 4 ((slotOf j.slot s).pasid + j.slot * 2 ^ 20 + j.queue * 2 ^ 26 + b2n j.nojob * 2 ^ 30) ++
  toLE 4 (typ + idx * 2 ^ 4 + cause * 2 ^ 11 + b2n write * 2 ^ 16 + b2n exec * 2 ^ 17 + b2n retry * 2 ^ 18
    + level * 2 ^ 19) ++
  toLE 4 seq ++ toLE 4 token ++ toLE 4 j.start ++ toLE 4 bytes

/-- A record's bytes stored into a slot of a function's ring, in HBM or in host memory (R161). DESIGN CHOICE (log 90): the write to host
memory is an untranslated one under the requester ID of the ring's function. -/
def ringPut (fn : Nat) (host : Bool) (a : Nat) (bs : List Byte) (s : State) : State :=
  if host then hostSend { fn := fn } a bs s else hbmPut a bs s

/-- A function's ring: whether in host memory, and its base. -/
def fltBase (fn : Nat) (s : State) : Bool × Nat :=
  (bit (getReg pgMmu fn 0x134 s) 1 && !(selfHosted s), getPair pgMmu fn 0x138 s)

/-- The ring's FULL bit follows its counts (Table 6-6). -/
def fltSetFull (fn : Nat) (s : State) : State :=
  setFld pgMmu fn 0x14C 0 1 (b2n (fltHeld fn s = 2 ^ fltLog2 fn s - 1)) s

/-- An ordinary record posted: the record first, then FLTQ_PROD, then the vector (R162, R163). -/
def fltPost (fn : Nat) (rec : Nat → List Byte) (s : State) : State :=
  let prod := (getReg pgMmu fn 0x140 s).toNat
  let (host, base) := fltBase fn s
  let s := ringPut fn host (base + 32 * (prod % (2 ^ fltLog2 fn s - 1))) (rec prod) s
  let s := setReg pgMmu fn 0x140 (w32 ((prod + 1) % fltWrap fn s)) s
  let s := fltSetFull fn s
  if bit (getReg pgMmu fn 0x134 s) 2 then sendMsix 0 (getFld pgMmu fn 0x134 16 11 s) s else s

/-- The page and bit of a requester's record-lost bit (R164, R356, Table 14-1). -/
def lostHome (rq chan : Nat) : Nat × Nat :=
  if rq < 80 then (pgSc rq, 31)
  else if rq = rqTiler then (pgTlr, 31)
  else if rq = rqCmp then (pgCmp, 31)
  else if rq < 84 then (pgCz (rq - 82), 31)
  else if rq < 88 then (pgDma (rq - 84), chan)
  else if rq = rqFe then (pgFe, 31)
  else if rq = rqLvn then (pgLvn, 31)
  else (pgFnc, 31)

/-- A record that the ring cannot take is dropped (R164): counted, the record-lost bit set, and the first one written to
the overflow slot unless the ring is disabled (R165). -/
def fltDrop (fn rq chan : Nat) (j : JobRef) (rec : Nat → List Byte) (s : State) : State :=
  let s := count32 pgMmu fn 0x148 s
  let h := lostHome rq chan
  let s := recordLost h.1 h.2 s
  let s := viewEvent fn 7 j.slot j.queue 0 s
  if bit (getReg pgMmu fn 0x134 s) 0 && !(bit (getReg pgMmu fn 0x14C s) 1) then
    let (host, base) := fltBase fn s
    let prod := (getReg pgMmu fn 0x140 s).toNat
    let s := ringPut fn host (base + 32 * (2 ^ fltLog2 fn s - 1)) (rec prod) s
    let s := setFld pgMmu fn 0x14C 1 1 1 s
    if bit (getReg pgMmu fn 0x134 s) 2 then sendMsix 0 (getFld pgMmu fn 0x134 16 11 s) s else s
  else s

/-- A channel with a transfer. -/
def chanOf (c : Nat) (s : State) : Option Chan := tabFind c s.dma.chans

/-- A channel set. -/
def setChan (c : Nat) (v : Chan) (s : State) : State := { s with dma := { s.dma with chans := tabSet c v s.dma.chans } }

/-- The record of a retryable fault (R162, R166). -/
def retryRecord (c job va cause level : Nat) (wr : Bool) (s : State) (seq : Nat) : List Byte :=
  fltRecord va (jobRef job s) 0 c cause level wr false true seq (tabGet 0 c s.dma.token) 0 s

/-- A function's ring is enabled and has a free slot (R163, R165). -/
def fltSpace (fn : Nat) (s : State) : Bool := bit (getReg pgMmu fn 0x134 s) 0 && fltHeld fn s < 2 ^ fltLog2 fn s - 1

/-- The oldest waiting retryable post of a function takes a free slot (R164). -/
def postWaiting (fn : Nat) (s : State) : State :=
  match s.mmu.posts.find? (fun p => p.fn == fn) with
  | none => s
  | some p =>
    if fltSpace fn s then
      let s := { s with mmu := { s.mmu with posts := s.mmu.posts.erase p } }
      match chanOf p.chan s with
      | none => s
      | some x =>
        fltPost fn (retryRecord p.chan x.job p.va p.cause p.level p.write s) (setChan p.chan { x with st := .stalled } s)
    else s

/-- Waiting posts take the free slots before any other post (R164). -/
def postDrain (fn : Nat) (s : State) : State := s.mmu.posts.foldl (fun s _ => postWaiting fn s) s

/-- A non-retryable record for the function that owns the slot (R159, R162, R164, R165). -/
def postFault (rq chan : Nat) (j : JobRef) (va cause level : Nat) (k : XKind) (bytes : Nat) (s : State) : State :=
  let fn := (slotOf j.slot s).func
  let src := srcOf rq chan s
  let rec' := fun seq => fltRecord va j src.1 src.2 cause level (k = .wr || k = .at) (k = .ex) false seq 0 bytes s
  let s := postDrain fn s
  if fltSpace fn s then fltPost fn rec' s else fltDrop fn rq chan j rec' s

/-- The JOB_SEQ that the next record of a job's queue takes: what FV_LAST_SEQ captures (R367). -/
def nextSeq (j : JobRef) (s : State) : Nat := if j.nojob then 0 else (queueOf j.slot j.queue s).cplProd

/-- A failed access of a requester other than a DMA channel: the record, the Basin view's kind, and the reason and detail
that the job ends with (R159, R139, R367). The front end and the fence unit post a record for a bus error too (R468,
R200); no code of Table 6-4 is stated for it, so cause and level are free among the codes. -/
def accessFault (rq : Nat) (j : JobRef) (va : Nat) (k : XKind) (e : AccErr) (s : State) : (Nat × Nat) × State :=
  let fn := (slotOf j.slot s).func
  match e with
  | .xl c l =>
    let s := viewEvent fn (if c = cWriteDenied then 0 else 1) j.slot j.queue (nextSeq j s) s
    ((0x0016, va), postFault rq 0 j va c l k 0 s)
  | .bus =>
    if rq = rqFe ∨ rq = rqFnc then
      let s := viewEvent fn 1 j.slot j.queue (nextSeq j s) s
      let (f, s) := takeFree s
      ((0x0015, va), postFault rq 0 j va (1 + f % 11) (f / 11 % 4) k 0 s)
    else ((0x0015, va), if j.nojob then s else viewEvent fn 6 j.slot j.queue (nextSeq j s) s)

/-- A job ended by a failed access (R159, Table 5-4). -/
def endByAccess (rq j va : Nat) (k : XKind) (e : AccErr) (s : State) : State :=
  let (rd, s) := accessFault rq (jobRef j s) va k e s
  endJob j 1 rd.1 rd.2 s

/-! ## Invalidation (R156, R157) -/

/-- The entries of a scope removed from every buffer and from the walk cache: a slot's range, a slot, or all. -/
def dropEntries (inScope : Nat → Nat → Nat → Bool) (s : State) : State :=
  let keep := fun (e : TlbEnt) => !(inScope e.slot e.base e.size)
  { s with mmu := { s.mmu with
      micro := s.mmu.micro.map (fun e => (e.1, e.2.filter keep)),
      shared := s.mmu.shared.filter keep,
      walk := s.mmu.walk.filter (fun e =>
        !(inScope e.slot (e.pfx * 2 ^ (12 + 9 * e.level)) (2 ^ (12 + 9 * e.level)))) } }

/-- A host read of a scope is outstanding: an access translated with an entry of it that has not been performed (R157). -/
def readsInScope (inScope : Nat → Nat → Nat → Bool) (s : State) : Bool :=
  s.pci.reads.any (fun e => inScope e.2.slot e.2.va e.2.len)

/-- A slot's accesses through ATS to a range of a PASID (R172). -/
def atsScope (pasid va len : Nat) (s : State) (slot base size : Nat) : Bool :=
  (slotOf slot s).state != 0 && (slotOf slot s).pasid == pasid && base < va + len && va < base + size

/-- An outstanding host read that ATS entries of the range translated. -/
def atsReading (i : Nat × Nat × Nat) (s : State) : Bool :=
  s.pci.reads.any (fun e => (e.2.attr.translated || e.2.attr.pasid.isSome) &&
    atsScope i.1 i.2.1 i.2.2 s e.2.slot e.2.va e.2.len)

/-- The Invalidation Completions that no host read holds any more are sent (R172). -/
def atsSettle (s : State) : State :=
  (s.mmu.atsInv.filter (fun i => !(atsReading i s))).foldl (fun s i =>
    emit (.invCompletion i.1) (count32 pgMmu 0 0x154
      { s with mmu := { s.mmu with atsInv := s.mmu.atsInv.erase i } })) s

end Sys2Proof.Machine
end

