-- ==== Sys2Proof/Machine/Regs.lean ====
section
/-!
DEFINITION. The register bus: where an offset leads for a requester (R441, R442, R451, Table 16-2), which accesses are
completed (R6, R444), and what a write does to a register's fields by their access types (R9, R10, Table 0-4).
-/
namespace Sys2Proof.Machine

/-- A number for each requester: PF 0, VF f as f, hart h as 64 + h, Yunanos 72, the mailbox path 73 (R8). -/
def reqIdx : Requester → Nat
  | .pf => 0
  | .vf f => f.val
  | .hart h => 64 + h.val
  | .yns => 72
  | .mb => 73

/-- The key of a requester's latch or held write. -/
def latKey (r : Requester) (k : Nat) : Nat := reqIdx r * 2 ^ 40 + k

/-- What an offset of the register space leads to. -/
inductive Target where
  /-- A register: page, bank and offset. -/
  | reg (pg bank off : Nat)
  /-- The native doorbell of a function's slot and queue (R453). -/
  | doorbell (f slot q : Nat)
  /-- A word of the host port's bulk window (Table 16-2). -/
  | bulk (off : Nat)
  /-- An offset that reads 0 and discards writes. -/
  | none
deriving DecidableEq, Repr

/-- The page index at a block-page offset (Table 18-1). -/
def pageAt (base : Nat) : Option Nat :=
  if base < 11 then some base
  else if 0x10 ≤ base ∧ base < 0x20 then some (11 + (base - 0x10))
  else if 0x20 ≤ base ∧ base < 0x30 then some (27 + (base - 0x20))
  else if 0x40 ≤ base ∧ base < 0x90 then some (43 + (base - 0x40))
  else if base = 0x90 then some pgFe
  else if base = 0xA0 then some pgTlr
  else if base = 0xA1 then some pgCmp
  else if base = 0xA2 then some (pgCz 0)
  else if base = 0xA3 then some (pgCz 1)
  else if base = 0xA4 then some pgMmu
  else if 0xA5 ≤ base ∧ base < 0xA9 then some (129 + (base - 0xA5))
  else if base = 0xA9 then some pgLvn
  else if base = 0xAA then some pgFnc
  else if 0xB0 ≤ base ∧ base < 0xB4 then some (135 + (base - 0xB0))
  else if base = 0xC0 then some pgPci
  else if base = 0xC1 then some pgSdi
  else if 0xC2 ≤ base ∧ base < 0xC6 then some (141 + (base - 0xC2))
  else if base = 0xC6 then some pgHcx
  else none

/-- The page offset in units of 4 KiB of a page index (Table 18-1). -/
def pageBase (pg : Nat) : Nat :=
  if pg < 11 then pg
  else if pg < 27 then 0x10 + (pg - 11)
  else if pg < 43 then 0x20 + (pg - 27)
  else if pg < 123 then 0x40 + (pg - 43)
  else if pg = 123 then 0x90
  else if pg < 128 then 0xA0 + (pg - 124)
  else if pg < 135 then 0xA4 + (pg - 128)
  else if pg < 139 then 0xB0 + (pg - 135)
  else 0xC0 + (pg - 139)

/-- The bank that a page's select register chooses for an offset; none where the selected index selects nothing
(R371). -/
def bankOf (pg off : Nat) (s : State) : Option Nat :=
  if pg = pgPwr ∧ 0x18C ≤ off ∧ off ≤ 0x194 then some (getFld pgPwr 0 0x188 0 5 s)
  else if pg = pgBsn ∧ 0x104 ≤ off ∧ off ≤ 0x110 then
    let i := getFld pgBsn 0 0x100 0 9 s
    if i < 288 then some i else none
  else if pg = pgSec ∧ 0x150 ≤ off ∧ off < 0x170 then some (getFld pgSec 0 0x128 0 3 s)
  else if pg = pgFe ∧ 0x108 ≤ off ∧ off ≤ 0x114 then some (getFld pgFe 0 0x104 0 6 s)
  else if pg = pgMmu ∧ 0x134 ≤ off ∧ off ≤ 0x14C then some (getFld pgMmu 0 0x130 0 6 s)
  else if pg = pgFnc ∧ 0x110 ≤ off ∧ off ≤ 0x130 then some (getFld pgFnc 0 0x10C 0 6 s)
  else if pg = pgLvn ∧ (off = 0x124 ∨ off = 0x128) then some (getFld pgLvn 0 0x120 0 6 s)
  else if pg = pgCmp ∧ 0x108 ≤ off then some (getFld pgCmp 0 0x104 0 4 s)
  else if pg = pgSvl 0 ∧ 0x218 ≤ off then some (getFld (pgSvl 0) 0 0x214 0 4 s)
  else some 0

/-- A register of a block page by its page offset: the views of other pages' registers lead to those registers. -/
def blockTarget (pg off : Nat) (s : State) : Target :=
  if pg = pgBsn ∧ 0x180 ≤ off ∧ off < 0x1B0 then .reg pgFv (getFld pgBsn 0 0x160 0 6 s) (off - 0x80)
  else if pg = pgSec ∧ 0x1C0 ≤ off ∧ off < 0x1D0 then .reg pgAtt 64 (off - 0x1C0)
  else
    match bankOf pg off s with
    | some b => .reg pg b off
    | none => .none

/-- A register of a function region (R451, R453). -/
def regionTarget (f off : Nat) : Target :=
  if off < 0x1000 then
    if off < 0x100 then .none
    else if 0x150 ≤ off ∧ off < 0x160 then .reg pgAtt f (off - 0x150)
    else .reg pgFn f off
  else if off < 0x2000 then (if off < 0x1100 then .none else .reg pgFv f (off - 0x1000))
  else if off < 0x3000 then (if off < 0x2100 then .none else .reg pgCap 0 (off - 0x2000))
  else if 0x8000 ≤ off ∧ off < 0x9000 then .doorbell f ((off - 0x8000) / 64) ((off - 0x8000) / 4 % 16)
  else .none

/-- Where an offset leads for the requesters that see the PF's layout (Table 16-2, R441). -/
def pfTarget (off : Nat) (s : State) : Target :=
  if off < 0x1000000 then
    match pageAt (off / 0x1000) with
    | some pg => blockTarget pg (off % 0x1000) s
    | none => .none
  else if off < 0x1400000 then regionTarget ((off - 0x1000000) / 0x10000) (off % 0x10000)
  else if 0x1E00000 ≤ off ∧ off < 0x1E01000 then .reg pgMb 1 (off - 0x1E00000)
  else if 0x1E10000 ≤ off ∧ off < 0x1E18000 then .bulk (off - 0x1E10000)
  else if 0x1F00000 ≤ off ∧ off < 0x1F08000 then .reg pgMsix 0 (off - 0x1F00000)
  else if 0x1F10000 ≤ off ∧ off < 0x1F10100 then .reg pgPba 0 (off - 0x1F10000)
  else .none

/-- Where an offset leads (R398, R442): a VF reaches its own region and its MSI-X structures; the mailbox path reaches
the block pages only. -/
def resolve (r : Requester) (off : Nat) (s : State) : Target :=
  match r with
  | .vf f =>
    if off < 0x10000 then regionTarget f.val off
    else if off < 0x10400 then .reg pgMsix f.val (off - 0x10000)
    else if 0x18000 ≤ off ∧ off < 0x18008 then .reg pgPba f.val (off - 0x18000)
    else .none
  | .mb => if off < 0x1000000 then pfTarget off s else .none
  | _ => pfTarget off s

/-- The requester reaches the block pages (R442). -/
def reachesBlocks : Requester → Bool
  | .vf _ => false
  | _ => true

/-- The requester reaches the region of function f (R442). -/
def reachesRegion (r : Requester) (f : Nat) : Bool :=
  match r with
  | .vf g => g.val == f
  | .mb => false
  | _ => true

/-- A naturally aligned 32-bit access (R6). -/
def regular (off : Nat) (size : Nat) : Bool := size == 4 && off % 4 == 0

/-- An access to a page completed under the last items of R6 is counted in GLB.ACC_ERR_CNT. -/
def countIrregular (s : State) : State := count32 pgGlb 0 0x184 s

/-- A block-specific offset of a page that is gated, isolated or in reset (R444). -/
def darkAt (pg off : Nat) (s : State) : Bool := (pg ≥ 146 || 0x40 ≤ off) && dark pg s

/-- The PCIe link of the endpoint is up (R345, R393). -/
def linkUp (s : State) : Bool := !(selfHosted s) && getFld pgPci 0 0x100 1 3 s != 0 && !(dark pgPci s)

/-- A function that the host has: the PF, and the VFs that VF Enable lets respond (R400). -/
def fnOn (f : Nat) (s : State) : Bool := f == 0 || (s.pci.vfEnable && f ≤ s.pci.numVfs)

/-- A function answers memory requests: it exists, is in D0 and in no FLR (R401, R404). -/
def fnServed (f : Nat) (s : State) : Bool :=
  fnOn f s && !(tabGet false f s.pci.d3) && !(tabGet false f s.pci.inFlr)

/-- An error of a class of Table 16-4 logged in a function's AER registers: 1 poisoned completion, 2 poisoned write,
3 completion timeout, 4 Unsupported Request (R405). -/
def aerLog (fn cls : Nat) (s : State) : State :=
  { s with pci := { s.pci with aer := tabSet (fn * 16 + cls) (tabGet 0 (fn * 16 + cls) s.pci.aer + 1) s.pci.aer } }

/-- The PCIe function of a requester, if it is one. -/
def reqFn : Requester → Option Nat
  | .pf => some 0
  | .vf f => some f.val
  | _ => none

/-- The requester's accesses are served: none while a reset holds the device, and those of a PCIe function while the link
is up and the function answers (R345, R400, R401, R404). -/
def reqServed (r : Requester) (s : State) : Bool :=
  !s.rst.held &&
  match reqFn r with
  | some f => linkUp s && fnServed f s && (f == 0 || r != .pf) && (f != 0 || r == .pf)
  | none => true

/-- An access that is not served: over a link that is up it is an Unsupported Request (R401, R404, R405). -/
def unserved (r : Requester) (s : State) : State :=
  match reqFn r with
  | some f => if linkUp s then aerLog (if fnOn f s then f else 0) 4 s else s
  | none => s

/-- A write to a block page's own register: what a row of the table that names one register checks first (R442,
R444). -/
def blockWrite (r : Requester) (pg off : Nat) (f : State → State) (s : State) : State :=
  if !(reachesBlocks r) then s
  else if !(reqServed r s) then unserved r s
  else if darkAt pg off s then count32 pgGlb 0 0x10C s
  else f s

/-- A write to a register of a function region (R442, R444, R451). -/
def regionWrite (r : Requester) (fn : Nat) (f : State → State) (s : State) : State :=
  if !(reachesRegion r fn) then s
  else if !(reqServed r s) then unserved r s
  else if dark pgFn s then count32 pgGlb 0 0x10C s
  else f s

/-- What a write of `v` makes of one field (Table 0-4, R10): `lk` is the page's LOCK. -/
def writeField (lk : Bool) (v cur : Word) (f : Fld) : Word :=
  let m := fmask f.lo f.wd
  match f.acc with
  | .rw => (cur &&& ~~~ m) ||| (v &&& m)
  | .rwl => if lk then cur else (cur &&& ~~~ m) ||| (v &&& m)
  | .wo => (cur &&& ~~~ m) ||| (v &&& m)
  | .w1c => cur &&& ~~~ (v &&& m)
  | .w1s => cur ||| (v &&& m)
  | .ro => cur
  | .rc => cur

/-- A register written by its access types: reserved bits are ignored (R7). -/
def writeByType (pg bank off : Nat) (v : Word) (s : State) : State :=
  let lk := if pg < 146 then locked pg s else false
  setReg pg bank off ((regFields pg off).foldl (writeField lk v) (getReg pg bank off s)) s

/-- The bits of a register that have one of the given access types. -/
def accBits (p : Acc → Bool) (pg off : Nat) : Word :=
  (regFields pg off).foldl (fun m f => if p f.acc then m ||| fmask f.lo f.wd else m) 0

/-- The bits that a read returns: every field but the write-only ones (Table 0-4, R7). -/
def readBits (pg off : Nat) : Word := accBits (fun a => a != .wo) pg off

/-- The types that a retention list saves (R338). -/
def savedBits (pg off : Nat) : Word := accBits (fun a => a == .rw || a == .rwl || a == .w1c || a == .w1s || a == .rc) pg off

/-- The _LO registers of the pairs of R8. -/
def isPairLo (pg off : Nat) : Bool :=
  (pg == pgPwr && (off == 0x130 || off == 0x138)) || (pg == pgMmu && (off == 0x10C || off == 0x138)) ||
  (pg == pgFe && (off == 0x108 || off == 0x118)) || (pg == pgFnc && (off == 0x100 || off == 0x120)) ||
  (pg == pgLvn && (off == 0x108 || off == 0x110)) || (pg == pgRst && off == 0x118) ||
  (pg == pgSec && (off == 0x110 || off == 0x118)) || (pg == pgAtt && off == 0x0) ||
  (pg == pgHcx && off == 0x108) || (pg == pgSvl 0 && (off == 0x20C || off == 0x218)) || (pg == pgFn && off == 0x104)

/-- The _HI registers of the pairs of R8. -/
def isPairHi (pg off : Nat) : Bool := 4 ≤ off && isPairLo pg (off - 4)

/-- Every register of a page back at its reset value, but for the keys that `keep` names (R348). -/
def resetPage (pg : Nat) (keep : Nat → Bool) (s : State) : State :=
  { s with regs := s.regs.filter (fun e => !(e.1 / 65536 / 512 == pg) || keep (e.1 % 65536)) }

end Sys2Proof.Machine
end

