-- ==== Sys2Proof/Machine/Cores.lean ====
section
/-!
DEFINITION. Shared operations over cores, clusters and the work they hold, and the gating of power domains (R303, R304,
R338).
-/
namespace Sys2Proof.Machine

/-- A shader core, by physical index. -/
def coreOf (p : Nat) (s : State) : Core := tabGet {} p s.cpt.cores

/-- A core set. -/
def setCore (p : Nat) (v : Core) (s : State) : State := { s with cpt := { s.cpt with cores := tabSet p v s.cpt.cores } }

/-- A matrix engine of a core. -/
def meOf (p e : Nat) (s : State) : Me := tabGet {} e (coreOf p s).mes

/-- A matrix engine set. -/
def setMe (p e : Nat) (v : Me) (s : State) : State :=
  setCore p { coreOf p s with mes := tabSet e v (coreOf p s).mes } s

/-- The jobs with resident work in a core: blocks, a tile, or ME operations (R315, R323). -/
def coreJobs (p : Nat) (s : State) : List Nat :=
  let c := coreOf p s
  (((s.cpt.blocks.filter (fun b => b.2.core == p)).map (·.2.job)) ++
    (c.tiles.map (·.job)) ++
    (c.mes.map (fun m => (m.2.run.toList ++ m.2.pend.toList).map (·.job))).flatten).eraseDups

/-- The jobs with resident work in a cluster. -/
def clusterJobs (c : Nat) (s : State) : List Nat := (((List.range 5).map (fun i => coreJobs (5 * c + i) s)).flatten).eraseDups

/-- A core holds a thread group, a tile or an ME operation (R304, Table 13-2). -/
def coreBusy (p : Nat) (s : State) : Bool := !(coreJobs p s).isEmpty

/-- The cluster of a power domain, if it is a shader core's or a cluster's (Table 12-1). -/
def clusterOfDomain (d : Nat) : Option Nat := if d < 80 then some (d / 5) else if d < 96 then some (d - 80) else none

/-- Status registers of type RO whose value a rule makes last over a power state, or which only the block's own state
can give again on exit: the mode (R3), the security engine's leaves, measurements, debug and error state (R377, R380,
R383, R391), the scrub position (R141), the rings' producer counts and state (R162, R203, R430). -/
def runState (pg off : Nat) : Bool :=
  (pg == pgGlb && off == 0x104) ||
  (pg == pgSec && (off == 0x100 || off == 0x104 || (0x10C ≤ off && off ≤ 0x120) || (0x150 ≤ off && off < 0x170) ||
    off == 0x190 || off == 0x194)) ||
  (pg == pgMmu && (off == 0x140 || off == 0x14C)) ||
  (pg == pgFnc && (off == 0x128 || off == 0x130)) ||
  (135 ≤ pg && pg < 139 && off == 0x120) ||
  (pg == pgSvl 0 && (off == 0x228 || off == 0x230 || off == 0x234))

/-- A page's block-specific registers as the retention list keeps them: the saved types keep their values, the others take
their reset values (R338). -/
def retainPage (pg : Nat) (s : State) : State :=
  { s with regs := s.regs.map (fun e =>
      let off := e.1 % 65536
      if e.1 / 65536 / 512 = pg ∧ 0x40 ≤ off ∧ !(runState pg off) then
        (e.1, (e.2 &&& savedBits pg off) ||| (resetKey e.1 &&& ~~~ (savedBits pg off)))
      else e) }

/-- What a core or a cluster loses with its power: the instruction store's images and the MEs' tiles, the cluster memory
(R338 names neither). -/
def losePower (d : Nat) (s : State) : State :=
  if d < 80 then setCore d { coreOf d s with images := [], mes := [] } s
  else if d < 96 then
    { s with
      mem := { s.mem with cmem := memClear ((d - 80) * 2 ^ 22) (2 ^ 22) s.mem.cmem },
      cpt := { s.cpt with cmErr := s.cpt.cmErr.filter (fun e => e.1 / 2 ^ 19 != d - 80) },
      pwr := { s.pwr with droop := tabDel (d - 80) s.pwr.droop, hold := tabDel (d - 80) s.pwr.hold } }
  else s

/-- A domain is switched off: its pages keep what retention saves (R303, R338, R444). -/
def gateDomain (d : Nat) (s : State) : State :=
  setPower d false ((domainPages d).foldl (fun s pg => retainPage pg s) (losePower d s))

/-- A domain is switched on again. -/
def ungateDomain (d : Nat) (s : State) : State := setPower d true s

/-- A context that holds a slot owns contents of cluster memory (R304, Table 13-2). -/
def cmemLive (s : State) : Bool := s.fe.slots.any (fun k => k.2.state != 0 && k.2.cmemSize != 0)

/-- A core is usable: powered, not fenced, not in reset. -/
def coreUp (p : Nat) (s : State) : Bool := !(dark (pgSc p) s)

/-- EPOCH.FENCED of a page (R372). -/
def fenced (pg : Nat) (s : State) : Bool := bit (getReg pg 0 0x03C s) 16

/-- EPOCH.SPARE of a page (R372). -/
def spare (pg : Nat) (s : State) : Bool := bit (getReg pg 0 0x03C s) 17

/-! ## Restoring (R304, R338, R339) -/

/-- FLT_INJ of the BSN page armed for bit 3 with two inverted check bits, or with MODE 2 or 3: the read of one retention area meets an
uncorrectable error (R369). -/
def restoreError (s : State) : Bool :=
  let v := getReg pgBsn 0 0x028 s
  bit v 16 && 1 ≤ fld v 8 2 && fld v 0 5 == 3

/-- The area of a page meets an uncorrectable error: the block takes its reset values, the HBM valid bitmap takes ones instead;
STATE_STS.RET_ERR and the AON-retention source are set (R339). -/
def restoreFails (pg : Nat) (s : State) : State :=
  let s := setReg pgBsn 0 0x028 (putFld (putFld (getReg pgBsn 0 0x028 s) 16 1 0) 17 1 1) s
  let s := resetPage pg (fun off => off == 0x03C || off == 0x00C) s
  let s := if pg = pgHbc 0 then
      let gone := (List.range 49152).filter (fun r => !(tabGet false r s.hbc.valid))
      { s with hbc := { s.hbc with
        valid := (List.range 49152).map (fun r => (r, true)),
        stale := gone.foldl (fun t r => tabSet r true t) s.hbc.stale } }
    else s
  fault 264 (setFld pgRst 0 0x104 24 1 1 s)

/-- The retention areas of domains that are switched on again are read back. Which of their areas an injected error meets is
the check's own (a free choice). -/
def restoreAreas (ds : List Nat) (s : State) : State :=
  let pages := (ds.map domainPages).flatten
  if restoreError s && !pages.isEmpty then
    let (f, s) := takeFree s
    restoreFails (nth 0 pages (f % pages.length)) s
  else s

/-- A domain is switched on and its areas are restored before its isolation is released (R304, R339). -/
def restoreDomain (d : Nat) (s : State) : State := restoreAreas [d] (ungateDomain d s)

/-- DOZE ends: STATE reads ON, the CL domains are powered and their areas restored; the cores stay gated until work needs
them (R332, R333, R339, Table 13-4). -/
def endDoze (s : State) : State :=
  if devState s = 1 then
    let cs := (List.range 16).filter (fun c => !(fenced (pgCl c) s))
    restoreAreas (cs.map (· + 80)) (cs.foldl (fun s c => ungateDomain (80 + c) s) (setFld pgRst 0 0x104 0 2 0 s))
  else s

end Sys2Proof.Machine
end

