-- ==== Sys2Proof/Machine/Proofer.lean ====
section
/-!
DEFINITION. Proofer and Weir: the energy model, the caps, the budget, the stepping rule, droops and temperatures
(R303 to R328).
-/
namespace Sys2Proof.Machine

/-! ## Operating points (R306) -/

/-- The binned maximum of a physical core in MHz (R2, R450). -/
def coreMax (p : Nat) (s : State) : Nat := 1800 + 5 * getFld pgCap 0 (0x180 + 4 * (p / 4)) (8 * (p % 4)) 8 s

/-- The highest binned maximum among a cluster's enabled cores as the core map stands, in MHz (R306). -/
def fTopNow (c : Nat) (s : State) : Nat :=
  (List.range 5).foldl (fun m i => if (logicalOf (5 * c + i) s).isSome then max m (coreMax (5 * c + i) s) else m) 0

/-- F_top of a cluster in MHz: recomputed at each publication, before the first one as the fused core map gives it (R306,
R307). -/
def fTop (c : Nat) (s : State) : Nat := (tabFind c s.pwr.fTop).getD (fTopNow c State.reset)

/-- Frequency of a point in MHz (R306). -/
def pointMhz (c p : Nat) (s : State) : Nat := if p = 15 then fTop c s else 600 + 100 * p

/-- The points that a cluster uses: 0 to 14 below F_top, and 15 (R306). -/
def usedPoints (c : Nat) (s : State) : List Nat := (List.range 15).filter (fun p => 600 + 100 * p < fTop c s) ++ [15]

/-- The next used point down, or the point itself at the floor. -/
def pointDown (c p : Nat) (s : State) : Nat := ((usedPoints c s).filter (· < p)).foldl max 0

/-- The next used point up, if there is one. -/
def pointUp (c p : Nat) (s : State) : Option Nat := (usedPoints c s).find? (p < ·)

/-- Voltage of a point in mV: the smallest 5 mV step at or above the fused value (R450). -/
def pointMv (c p : Nat) (s : State) : Nat :=
  (700 + getFld pgCap 0 (0x200 + 4 * ((16 * c + p) / 4)) (8 * (p % 4)) 8 s + 4) / 5 * 5

/-- Current point of a cluster (PWR.CL_POINT). -/
def clPoint (c : Nat) (s : State) : Nat := getFld pgPwr 0 (0x1F0 + 4 * (c / 8)) (4 * (c % 8)) 4 s

/-- The highest point that a cluster uses at or below one (R306; DESIGN CHOICE: an OVR_POINT, or a point held when F_top falls,
that is not used stands for the used point below it). -/
def usedAt (c p : Nat) (s : State) : Nat := ((usedPoints c s).filter (· ≤ p)).foldl max 0

/-- A cluster's rail in mV: the voltage of its point, or what a step has made of it so far (R303, R308). -/
def railMv (c : Nat) (s : State) : Nat := (tabFind c s.pwr.rail).getD (pointMv c (clPoint c s) s)

/-- A cluster's PLL frequency in MHz: that of its point, or what a step has made of it so far (R308). -/
def pllMhz (c : Nat) (s : State) : Nat := (tabFind c s.pwr.pll).getD (pointMhz c (clPoint c s) s)

/-- A core's skipper setting: the smallest s of 0 to 64 with which f_cl × (64 − s) ÷ 64 does not exceed the core's binned
maximum, at the PLL frequency of the moment and for a spare from its binding on (R307). -/
def skipOf (p : Nat) (s : State) : Nat :=
  ((List.range 65).find? (fun k => pllMhz (p / 5) s * (64 - k) ≤ 64 * coreMax p s)).getD 64

/-- A core's clock in MHz × 64 (R307). -/
def coreClock64 (p : Nat) (s : State) : Nat := pllMhz (p / 5) s * (64 - skipOf p s)

/-- Voltage of a domain in mV: the cluster's rail, VDD_UNC for the domains 96 to 119, VDD_AON (R303, Table 19-3). -/
def domainMv (d : Nat) (s : State) : Nat :=
  match clusterOfDomain d with
  | some c => railMv c s
  | none => if d < 120 then 750 else 800

/-- The sensor of a domain (Table 12-4). -/
def domainSensor (d : Nat) : Nat :=
  match clusterOfDomain d with
  | some c => c
  | none =>
    if d < 105 then 20 else if d = 106 ∨ d = 107 then 22 else if d = 109 then 28 else if d = 110 then 29
    else if d < 111 then 21 else if d < 115 then 16 + (d - 111) else if d = 115 then 23
    else if d < 120 then 24 + (d - 116) else 30

/-- A sensor's latest reading in quarter degrees. -/
def reading (i : Nat) (s : State) : Int := sext 12 (getFld pgPwr i 0x18C 0 12 s)

/-- A sensor's throttle limit. -/
def thrLimit (i : Nat) (s : State) : Int := sext 12 (getFld pgPwr i 0x190 0 12 s)

/-- A sensor's critical limit. -/
def critLimit (i : Nat) (s : State) : Int := sext 12 (getFld pgPwr i 0x194 0 12 s)

/-! ## Energy (R314, R315): the unit is fJ × V_ref² × 1024 -/

/-- The factor 1 + TRIM ÷ 1,024 as 1,024 + TRIM. -/
def trimFactor (s : State) : Nat := (1024 + sext 8 (getFld pgPwr 0 0x124 0 8 s)).toNat

/-- A number of the events of Table 12-5's model by kind. -/
def kindIdx : EnergyKind → Nat
  | .coreCycle => 0 | .me8Cycle => 1 | .me16Cycle => 2 | .operandByte => 3 | .outElem => 4 | .tableRead => 5
  | .localAcc => 6 | .clusterAcc => 7 | .hbmAcc => 8 | .dmaByte => 9 | .czByte => 10 | .tilerOp => 11
  | .composerPixel => 12 | .linkByte => 13

/-- Dynamic energy of `n` events of a kind in a domain (R314). -/
def dynEnergy (d : Nat) (k : EnergyKind) (n : Nat) (s : State) : Nat :=
  n * Config.energyCoef (kindIdx k) * (domainMv d s) ^ 2 * trimFactor s

/-- Leakage of a domain in one microsecond at a voltage (R314). -/
def leakAt (d mv : Nat) (s : State) : Nat :=
  Config.leakFj d mv (reading (domainSensor d) s) * Config.vRefMv ^ 2 * trimFactor s

/-- Energy in whole µJ. -/
def toUj (e : Nat) : Nat := e / (10 ^ 9 * (Config.vRefMv ^ 2 * 1024))

/-- Energy in whole nJ. -/
def toNj (e : Nat) : Nat := e / (10 ^ 6 * (Config.vRefMv ^ 2 * 1024))

/-- Energy added to a domain's account for the period: a cluster's, or E_fix. -/
def addPeriod (d dyn leak : Nat) (p : Pwr) : Pwr :=
  match clusterOfDomain d with
  | some c => { p with curDyn := tabSet c (tabGet 0 c p.curDyn + dyn) p.curDyn,
                       curCl := tabSet c (tabGet 0 c p.curCl + dyn + leak) p.curCl }
  | none => { p with curFix := p.curFix + dyn + leak }

/-- Energy credited to a job, or to UNATTR_UJ where no such job runs (R315). -/
def credit (j : Option Nat) (e : Nat) (s : State) : State :=
  match j with
  | some j =>
    match tabFind j s.fe.jobs with
    | some b => setJob j { b with energy := b.energy + e } s
    | none => { s with pwr := { s.pwr with unattr := s.pwr.unattr + e } }
  | none => { s with pwr := { s.pwr with unattr := s.pwr.unattr + e } }

/-- Energy of a repeat frame is kept for its slot's account (R278); nothing where the channel runs no repeat frame. -/
def creditFrame (c : Nat) (e : Nat) (s : State) : Option State :=
  match tabFind c s.cmp with
  | some x =>
    if x.busy && x.job.isNone then some { s with cmp := tabSet c { x with energy := x.energy + e } s.cmp } else none
  | none => none

/-- Energy of an event credited to its job or its repeat frame, or to UNATTR_UJ (R278, R315). -/
def creditEvent (ev : EnergyEvent) (e : Nat) (s : State) : State :=
  match ev.job, ev.repeatFrame with
  | none, some c => (creditFrame c.val e s).getD (credit none e s)
  | j, _ => credit j e s

/-- One report of events: its dynamic energy goes to the job that caused it; cycles go to the job's accounts (R88, R179,
R315). -/
def sampleEvent (s : State) (ev : EnergyEvent) : State :=
  let e := dynEnergy ev.domain.val ev.kind ev.count s
  let s := creditEvent ev e s
  let s := { s with pwr := { addPeriod ev.domain.val e 0 s.pwr with dev := s.pwr.dev + e } }
  match ev.job with
  | none => s
  | some j =>
    match tabFind j s.fe.jobs with
    | none => s
    | some b =>
      match ev.kind with
      | .coreCycle => setJob j { b with coreCyc := b.coreCyc + ev.count } s
      | _ => s

/-- The jobs among which a domain's leakage is divided (R315). -/
def leakJobs (d : Nat) (s : State) : List Nat :=
  if d < 80 then coreJobs d s else if d < 96 then clusterJobs (d - 80) s else []

/-- A domain's leakage of one microsecond (R314, R315). -/
def sampleLeak (s : State) (d : Nat) : State :=
  if !(domainPowered d s) then s
  else
    let e := leakAt d (domainMv d s) s
    let js := leakJobs d s
    let s := { s with pwr := { addPeriod d 0 e s.pwr with dev := s.pwr.dev + e } }
    if js.isEmpty then credit none e s
    else credit none (e % js.length) (js.foldl (fun s j => credit (some j) (e / js.length) s) s)

/-- A throttle reason enters or leaves: one that enters counts in the microsecond, however short it lasts (R328). -/
def setThr (r cluster : Nat) (on : Bool) (s : State) : State :=
  let was := tabGet false r s.pwr.thr
  let s := { s with pwr := { s.pwr with
    thr := tabSet r on s.pwr.thr,
    thrSeen := if on && !(s.pwr.thrSeen.contains r) then r :: s.pwr.thrSeen else s.pwr.thrSeen } }
  if on && !was then
    raiseIrq pgPwr 1 (setReg pgPwr 0 0x180 (w32 (cluster + r * 16 + 128)) (count32 pgPwr 0 (0x160 + 4 * r) s))
  else s

/-! ## Slews (R308, R309) -/

/-- The increment of one microsecond towards a target, of at most `k` (R308). -/
def slew (k cur t : Nat) : Nat := if cur ≤ t then min t (cur + k) else max t (cur - k)

/-- A cluster's rail and PLL after one more microsecond of a step to point `t` (R308, R309): a PLL above the target's frequency
falls first; below it, the rail rises to the target's voltage before the PLL rises; the rail falls last. The same order holds from
wherever a replaced target has left the two, and an increment is never cut. -/
def slewStep (c t : Nat) (s : State) : Nat × Nat :=
  let v := railMv c s
  let f := pllMhz c s
  let vt := pointMv c t s
  let ft := pointMhz c t s
  if ft < f then (v, slew 50 f ft)
  else if v < vt then (slew 10 v vt, f)
  else if f < ft then (v, slew 50 f ft)
  else (slew 10 v vt, f)

/-- One microsecond of a cluster's step, unless a droop or its 10 µs pause it (R308, R313). -/
def slewCluster (s : State) (c : Nat) : State :=
  if !(tabGet false c s.pwr.stepping) || tabGet false c s.pwr.droop || tabGet false c s.pwr.hold then s
  else
    let r := slewStep c (tabGet (clPoint c s) c s.pwr.target) s
    { s with pwr := { s.pwr with rail := tabSet c r.1 s.pwr.rail, pll := tabSet c r.2 s.pwr.pll } }

/-- The events of R88, which a core counts itself. -/
def coreCounts : EnergyKind → Bool
  | .me8Cycle | .me16Cycle | .operandByte | .outElem | .tableRead => true
  | _ => false

/-- What the cores have counted under R88 since the last sample. -/
def coreEvents (s : State) : List EnergyEvent :=
  (s.cpt.cores.map (fun c =>
    if h : c.1 < 121 then c.2.act.map (fun e => { domain := ⟨c.1, h⟩, kind := e.1, count := e.2.2, job := some e.2.1 }) else [])).flatten

/-- The reports of a microsecond: the cores' own counts of R88 in place of any that the row names for a core (log 22), and the rest of
the row. -/
def reports (evs : List EnergyEvent) (s : State) : List EnergyEvent :=
  evs.filter (fun e => !(coreCounts e.kind && decide (e.domain.val < 80))) ++ coreEvents s

/-- The cores' counts start anew. -/
def clearCounts (s : State) : State :=
  { s with cpt := { s.cpt with cores := s.cpt.cores.map (fun c => (c.1, { c.2 with act := [] })) } }

/-- ENERGY_SAMPLE: one count of the PWR block microsecond counter (R304, R308, R314, R315, R328). -/
def energySample (evs : List EnergyEvent) (s : State) : State :=
  if !(counting s) then s
  else
    let e0 := s.pwr.dev
    let s := clearCounts ((reports evs s).foldl sampleEvent s)
    let s := (List.range 16).foldl slewCluster ((List.range 121).foldl sampleLeak s)
    let s := { s with pwr := { s.pwr with
      count := s.pwr.count + 1,
      win := ((s.pwr.dev - e0, getFld pgPwr 0 0x110 0 9 s) :: s.pwr.win).take 1000,
      idle := (List.range 80).map (fun p => (p, if coreBusy p s then 0 else tabGet 0 p s.pwr.idle + 1)) } }
    let s := setPair pgPwr 0 0x130 (toUj s.pwr.dev) (setPair pgPwr 0 0x138 (toUj s.pwr.unattr) s)
    let seen := s.pwr.thrSeen
    let s := { s with pwr := { s.pwr with thrSeen := [] } }
    (List.range 8).foldl (fun s r =>
      if tabGet false r s.pwr.thr || seen.contains r then count32 pgPwr 0 (0x140 + 4 * r) s else s) s

/-! ## Caps (R316, R317) -/

/-- A cap limited to 150 W to 500 W. -/
def clampW (w : Nat) : Nat := max 150 (min 500 w)

/-- Comparator output c (ANA.CMP_STS). -/
def cmpOut (c : Nat) (s : State) : Bool := bit (getReg pgAna 0 0x138 s) c

/-- The alternate cap is in force (R317). -/
def altOn (s : State) : Bool :=
  let v := getReg pgPwr 0 0x10C s
  bit v 2 && cmpOut (fld v 0 2) s == bit v 3

/-- The comparator signals a hard overdraw (R318). -/
def ovrSignal (s : State) : Bool :=
  let v := getReg pgPwr 0 0x10C s
  bit v 6 && cmpOut (fld v 4 2) s == bit v 7

/-- The analogue cap of the latest ADC result (R316). -/
def analogueCap (s : State) : Nat :=
  let code : Int := getFld pgAna 0 (0x108 + 4 * getFld pgPwr 0 0x100 10 3 s) 0 12 s
  let mn : Int := getFld pgPwr 0 0x104 0 9 s
  let mx : Int := getFld pgPwr 0 0x104 16 9 s
  (mn + (code * (mx - mn)).fdiv 4095).toNat

/-- The effective cap, and whether the analogue cap is its smallest source (R316). -/
def effCap (s : State) : Nat × Bool :=
  let cap := clampW (getFld pgPwr 0 0x100 0 9 s)
  let ain := if bit (getReg pgPwr 0 0x100 s) 9 then some s.pwr.ainCap else none
  let alt := if altOn s then some (getFld pgPwr 0 0x108 0 9 s) else none
  let m := min cap (min (ain.getD 512) (alt.getD 512))
  (clampW m, match ain with | some a => a == m | none => false)

/-! ## Steps (R308, R309, R313) -/

/-- A cluster's target set: a step becomes due, and is held while a droop or its 10 µs are present (R309, R313). -/
def setTarget (c p : Nat) (s : State) : State :=
  let s := { s with pwr := { s.pwr with target := tabSet c p s.pwr.target } }
  if p = clPoint c s then s
  else
    let was := tabGet false c s.pwr.stepping
    let s := { s with pwr := { s.pwr with stepping := tabSet c true s.pwr.stepping } }
    if (tabGet false c s.pwr.droop || tabGet false c s.pwr.hold) && !was then
      count32 (pgWeir c) 0 0x110 (setFld (pgWeir c) 0 0x104 2 1 1 s)
    else s

/-- Fixed-frequency mode is broken (R310). -/
def breakFixed (s : State) : State :=
  if bit (getReg pgPwr 0 0x118 s) 0 then setFld pgPwr 0 0x118 1 1 1 s else s

/-! ## Publication (R320, R321, R324) -/

/-- A cluster is powered (R321). -/
def clPowered (c : Nat) (s : State) : Bool := powered (pgCl c) s

/-- A cluster's weight (R321). -/
def clWeight (c : Nat) (s : State) : Nat := getFld pgPwr 0 (0x128 + 4 * (c / 8)) (4 * (c % 8)) 4 s

/-- A headroom in quarter degrees, limited to 0 to 255 (R321). -/
def headroom (i : Nat) (s : State) : Nat := min 255 (thrLimit i s - reading i s).toNat

/-- The allowance of a cluster of the current budget, in µJ. -/
def clAllow (c : Nat) (s : State) : Nat := getFld pgPwr 0 (0x1B0 + 4 * c) 0 24 s

/-- The predicted energy of a cluster at point q fits its allowance (R324): both sides times f_cur × V_cur². -/
def fits (c q : Nat) (s : State) : Bool :=
  let cur := clPoint c s
  let base := pointMhz c cur s * (pointMv c cur s) ^ 2
  let leak := (List.range 5).foldl (fun a i =>
      if domainPowered (5 * c + i) s then a + leakAt (5 * c + i) (pointMv c q s) s else a)
    (if domainPowered (80 + c) s then leakAt (80 + c) (pointMv c q s) s else 0)
  tabGet 0 c s.pwr.lastDyn * (pointMhz c q s * (pointMv c q s) ^ 2) + 100 * leak * base
    ≤ clAllow c s * (10 ^ 9 * (Config.vRefMv ^ 2 * 1024)) * base

/-- The target of one cluster after a publication (R324), and whether steps 3 and 4 applied: own sensor, shared sensor,
energy. -/
def chooseTarget (c : Nat) (s : State) : Nat × Bool × Bool × Bool :=
  let cur := clPoint c s
  let shared := (List.range 12).any (fun i => thrLimit (20 + i) s < reading (20 + i) s)
  let own := thrLimit c s < reading c s
  let overAll := s.pwr.lastAllow * (10 ^ 9 * (Config.vRefMv ^ 2 * 1024)) <
    s.pwr.lastFix + (List.range 16).foldl (fun a n => a + tabGet 0 n s.pwr.lastCl) 0
  let overOwn := clAllow c s * (10 ^ 9 * (Config.vRefMv ^ 2 * 1024)) < tabGet 0 c s.pwr.lastCl
  if tabGet false c s.pwr.crit || decide (critLimit c s < reading c s) then (0, false, false, false)
  else if s.pwr.ovr then (usedAt c (min (getFld pgPwr 0 0x184 0 4 s) cur) s, false, false, false)
  else if bit (getReg pgPwr 0 0x118 s) 0 then (12, false, false, false)
  else if own || shared then (pointDown c cur s, own, shared, false)
  else if !s.pwr.cut && overAll && overOwn then
    ((((usedPoints c s).filter (· < cur)).filter (fun q => fits c q s)).foldl max 0, false, false, decide (0 < cur))
  else
    match pointUp c cur s with
    | some q =>
      if !s.pwr.cut && fits c q s && 0 < headroom c s then (q, false, false, false) else (usedAt c cur s, false, false, false)
    | none => (usedAt c cur s, false, false, false)

/-- Targets and throttle reasons of one cluster (R324, R328). -/
def applyTarget (s : State) (c : Nat) : State :=
  let t := chooseTarget c s
  let s := { s with pwr := { s.pwr with
    thermHold := tabSet c (b2n t.2.1 + 2 * b2n t.2.2.1) s.pwr.thermHold,
    enerDown := if t.2.2.2 then tabSet c true s.pwr.enerDown else s.pwr.enerDown } }
  setTarget c t.1 (if t.1 = 12 then s else breakFixed s)

/-- The reasons 0, 1, 2, 3, 5 and 6 of Table 12-5 as they stand. -/
def updateThr (s : State) : State :=
  let first := fun (p : Nat → Bool) => ((List.range 16).find? p).getD 0
  let s := setThr 0 (first (fun c => tabGet false c s.pwr.enerDown)) ((List.range 16).any (fun c => tabGet false c s.pwr.enerDown)) s
  let s := setThr 1 0 (altOn s) s
  let s := setThr 2 0 s.pwr.ovr s
  let s := setThr 3 (first (fun c => tabGet 0 c s.pwr.thermHold % 2 = 1)) ((List.range 16).any (fun c => tabGet 0 c s.pwr.thermHold % 2 = 1)) s
  let s := setThr 5 0 ((List.range 16).any (fun c => 2 ≤ tabGet 0 c s.pwr.thermHold)) s
  let stretched := fun c => bit (getReg (pgWeir c) 0 0x104 s) 0
  setThr 6 (first stretched) ((List.range 16).any stretched) s

/-- The period's energies closed (R320 step 1). -/
def closePeriod (ooc : Bool) (s : State) : State :=
  let p := s.pwr
  let p := { p with prevCl := p.curCl, cut := ooc }
  let p := if ooc then p else
    { p with lastDyn := p.curDyn, lastCl := p.curCl, lastFix := p.curFix, lastAllow := (getReg pgPwr 0 0x1A8 s).toNat }
  { s with pwr := { p with curDyn := [], curCl := [], curFix := 0, count := 0, oocDue := false } }

/-- The energy-model overdraw check over the last 1,000 counts (R319). -/
def overdrawCheck (s : State) : State :=
  let w := s.pwr.win
  let e := w.foldl (fun a x => a + x.1) 0
  let cap := w.foldl (fun a x => a + x.2) 0
  if w.length = 1000 ∧ (100 + getFld pgPwr 0 0x120 8 8 s) * (cap * (10 ^ 9 * (Config.vRefMv ^ 2 * 1024))) < e * 100 then
    fault 231 s
  else s

/-- A publication of the budget (R19, R20, R320, R321, R322, R324). -/
def publish (ooc : Bool) (s : State) : State :=
  let s := overdrawCheck (closePeriod ooc s)
  let s := { s with pwr := { s.pwr with fTop := (List.range 16).map (fun c => (c, fTopNow c s)) } }
  let s := if ooc then s else { s with pwr := { s.pwr with ainCap := analogueCap s } }
  let s := setReg pgPwr 0 0x118 (putFld (getReg pgPwr 0 0x118 s) 0 1 (getFld pgPwr 0 0x114 0 1 s)) s
  let (w, ain) := effCap s
  let s := setReg pgPwr 0 0x110 (w32 (w + b2n (altOn s) * 2 ^ 9 + b2n s.pwr.ovr * 2 ^ 10 + b2n ain * 2 ^ 11)) s
  let dev := w * 100
  let fix := toUj s.pwr.lastFix
  let sumW := (List.range 16).foldl (fun a c => if clPowered c s then a + clWeight c s else a) 0
  let head := (List.range 32).foldl (fun m i => min m (headroom i s)) 255
  let s := setReg pgPwr 0 0x1A0 (getReg pgPwr 0 0x1A0 s + 1) s
  let s := setReg pgPwr 0 0x1A4
    (w32 (b2n ooc + 2 * b2n (altOn s) + 4 * b2n s.pwr.ovr + 8 * getFld pgPwr 0 0x118 0 1 s + head * 2 ^ 8 + w * 2 ^ 16)) s
  let s := setReg pgPwr 0 0x1A8 (w32 dev) (setReg pgPwr 0 0x1AC (w32 fix) s)
  let s := (List.range 16).foldl (fun s c =>
    let a := if clPowered c s && sumW != 0 then (dev - fix) * clWeight c s / sumW else 0
    setReg pgPwr 0 (0x1B0 + 4 * c) (w32 (a % 2 ^ 24 + headroom c s * 2 ^ 24)) s) s
  let s := (List.range 16).foldl applyTarget s
  let s := if ooc then raiseIrq pgPwr 0 s else s
  updateThr s

/-- OUT_OF_CYCLE_PUBLICATION: after a comparator or cap change (R20, R317). -/
def oocPublish (s : State) : State := if counting s && s.pwr.oocDue then publish true s else s

/-! ## Hard overdraw (R318) -/

/-- A forced stretch of a cluster starts (R312, R318). -/
def forceStretch (s : State) (c : Nat) : State :=
  if bit (getReg (pgWeir c) 0 0x104 s) 1 then s
  else count32 (pgWeir c) 0 0x114 (setFld (pgWeir c) 0 0x104 0 2 3 s)

/-- Stretched cycles of a stretch that ends, in units of 256: the manual gives no count for the event (R312). -/
def countStretch (c : Nat) (s : State) : State :=
  let (n, s) := takeFree s
  addFld (pgWeir c) 0 0x10C 0 32 n s

/-- A cluster that has reached its target ends its forced stretch (R318). -/
def endForced (s : State) (c : Nat) : State :=
  if bit (getReg (pgWeir c) 0 0x104 s) 1 && tabGet (clPoint c s) c s.pwr.target == clPoint c s then
    let s := setFld (pgWeir c) 0 0x104 1 1 0 s
    if tabGet false c s.pwr.droop then s else countStretch c (setFld (pgWeir c) 0 0x104 0 1 0 s)
  else s

/-- The comparator has deasserted again before Proofer took the steps of R318: the overdraw ends, and its change is due to be
published (R20). -/
def overdrawOver (s : State) : State :=
  if ovrSignal s then s
  else { setFld pgPwr 0 0x110 10 1 0 s with pwr := { s.pwr with ovr := false, oocDue := true } }

/-- The steps of R318 with a publication, out of cycle or the periodic one that falls due with it (R20, R310). -/
def overdrawSteps (ooc : Bool) (s : State) : State :=
  let s := fault 230 { s with pwr := { s.pwr with ovrDue := false, ovr := true } }
  let s := breakFixed ((List.range 16).foldl forceStretch s)
  overdrawOver ((List.range 16).foldl endForced (publish ooc s))

/-- HARD_OVERDRAW (R318): an assertion is handled even where the comparator has deasserted since. -/
def hardOverdraw (s : State) : State := if !s.pwr.ovrDue || !(counting s) then s else overdrawSteps true s

/-- BUDGET_PUBLISH: at 100 counts of the PWR counter, unless the device sleeps; a change of a comparator or of the cap that is
due in the same microsecond, a hard overdraw among them, is published with it (R19, R20, R320). -/
def budgetPublish (s : State) : State :=
  if !(counting s) || s.pwr.count < 100 then s
  else if s.pwr.ovrDue then overdrawSteps false s
  else publish false s

/-! ## DVFS and droop (R308, R311 to R313) -/

/-- DVFS_STEP_COMPLETE: the step reaches its target, its last increments made in the order of R308 (R309); nothing completes while
a droop or its 10 µs hold the step (R313). -/
def dvfsStepComplete (c : Nat) (s : State) : State :=
  if !(tabGet false c s.pwr.stepping) || tabGet false c s.pwr.droop || tabGet false c s.pwr.hold then s
  else
    let t := tabGet (clPoint c s) c s.pwr.target
    let up := clPoint c s < t
    let s := setFld pgPwr 0 (0x1F0 + 4 * (c / 8)) (4 * (c % 8)) 4 t s
    let s := { s with pwr := { s.pwr with
      stepping := tabSet c false s.pwr.stepping, rail := tabDel c s.pwr.rail, pll := tabDel c s.pwr.pll,
      enerDown := if up then tabSet c false s.pwr.enerDown else s.pwr.enerDown } }
    updateThr (endForced s c)

/-- The level below which a cluster's rail droops, in mV (R311). -/
def droopLevel (c : Nat) (s : State) : Nat := pointMv c (clPoint c s) s - max 1 (getFld (pgWeir c) 0 0x100 0 8 s)

/-- DROOP_DETECT (R310, R311, R312, R313). -/
def droopDetect (c rail : Nat) (s : State) : State :=
  if !(clPowered c s) || droopLevel c s ≤ rail || tabGet false c s.pwr.droop then s
  else
    let s := count32 (pgWeir c) 0 0x108 (setFld (pgWeir c) 0 0x104 0 1 1 s)
    let s := { s with pwr := { s.pwr with droop := tabSet c true s.pwr.droop, hold := tabSet c false s.pwr.hold } }
    let s := if tabGet false c s.pwr.stepping && !(bit (getReg (pgWeir c) 0 0x104 s) 2) then
        count32 (pgWeir c) 0 0x110 (setFld (pgWeir c) 0 0x104 2 1 1 s)
      else s
    updateThr (breakFixed s)

/-- DROOP_CLEAR: the rail has stayed at or above the release level for 64 counts of the cluster reference counter, which stands
still in SLEEP (R28, R312). -/
def droopClear (c rail : Nat) (s : State) : State :=
  if !(counting s) || !(tabGet false c s.pwr.droop) || rail < droopLevel c s + getFld (pgWeir c) 0 0x100 8 8 s then s
  else
    let s := { s with pwr := { s.pwr with droop := tabSet c false s.pwr.droop, hold := tabSet c true s.pwr.hold } }
    let s := if bit (getReg (pgWeir c) 0 0x104 s) 1 then s else countStretch c (setFld (pgWeir c) 0 0x104 0 1 0 s)
    updateThr s

/-- DVFS_HOLD_EXPIRY: 2,500 counts of the cluster reference counter after the droop cleared, held and paused steps resume (R28,
R313). -/
def dvfsHoldExpiry (c : Nat) (s : State) : State :=
  if !(counting s) || !(tabGet false c s.pwr.hold) || tabGet false c s.pwr.droop then s
  else setFld (pgWeir c) 0 0x104 2 1 0 { s with pwr := { s.pwr with hold := tabSet c false s.pwr.hold } }

/-! ## Temperature (R325 to R327) -/

/-- The clusters that a critical temperature at a sensor drives to point 0: the cluster's own, or every cluster; HBM heat
steps none (R326, R327). -/
def critClusters (i : Nat) : List Nat := if i < 16 then [i] else if i < 20 then [] else List.range 16

/-- The HBM bandwidth limit after a sample (R327). -/
def hbmLimitOf (i : Nat) (t : Int) (old : Nat) (s : State) : Nat :=
  if critLimit i s < t then 2 else if thrLimit i s < t then 1 else if t < thrLimit i s then 0 else old

/-- SENSOR_SAMPLE (R310, R325 to R327). -/
def sensorSample (i : Nat) (temp : BitVec 12) (s : State) : State :=
  if !(counting s) then s
  else
    let t := sext 12 temp.toNat
    let s := setReg pgPwr i 0x18C (w32 (temp.toNat + 2 ^ 31)) s
    let above := critLimit i s < t
    let run := if above then tabGet 0 i s.pwr.critRun + 1 else 0
    let s := { s with pwr := { s.pwr with
      critRun := tabSet i run s.pwr.critRun,
      hbmLimit := if 16 ≤ i ∧ i < 20 then tabSet (i - 16) (hbmLimitOf i t (tabGet 0 (i - 16) s.pwr.hbmLimit) s) s.pwr.hbmLimit
        else s.pwr.hbmLimit } }
    let s := setThr 4 0 ((List.range 4).any (fun n => tabGet 0 n s.pwr.hbmLimit != 0)) s
    let crit := (List.range 16).map (fun c =>
      (c, (List.range 32).any (fun j => (critClusters j).contains c && 2 ≤ tabGet 0 j s.pwr.critRun)))
    let s := { s with pwr := { s.pwr with crit := crit } }
    let s := setThr 7 (if i < 16 then i else 0) ((List.range 32).any (fun j => 2 ≤ tabGet 0 j s.pwr.critRun)) s
    if run = 2 then publish true ((if (critClusters i).isEmpty then id else breakFixed) (fault (232 + i) s)) else s

/-! ## Idle gating (R304) -/

/-- A CL domain is gated while all five SC domains are gated and no resident context owns cluster memory (R304). -/
def gateCluster (c : Nat) (s : State) : State :=
  if (List.range 5).all (fun i => !(powered (pgSc (5 * c + i)) s)) && !(cmemLive s) then gateDomain (80 + c) s else s

/-- CORE_IDLE_GATE (R304). -/
def coreIdleGate (p : Nat) (s : State) : State :=
  let lim := getFld pgPwr 0 0x11C 0 8 s
  if lim = 0 ∨ tabGet 0 p s.pwr.idle < lim ∨ coreBusy p s ∨ !(powered (pgSc p) s) then s
  else gateCluster (p / 5) (gateDomain p s)

/-! ## The commands -/

def execBudgetPublish (s : State) : Out := toNext (budgetPublish s)
def execOutOfCyclePublication (s : State) : Out := toNext (oocPublish s)
def execEnergySample (evs : List EnergyEvent) (s : State) : Out := toNext (energySample evs s)
def execSensorSample (i : Fin 32) (t : BitVec 12) (s : State) : Out := toNext (sensorSample i.val t s)
def execHardOverdraw (s : State) : Out := toNext (hardOverdraw s)
def execDvfsStepComplete (c : Fin 16) (s : State) : Out := toNext (dvfsStepComplete c.val s)
def execDroopDetect (c : Fin 16) (rail : Nat) (s : State) : Out := toNext (droopDetect c.val rail s)
def execDroopClear (c : Fin 16) (rail : Nat) (s : State) : Out := toNext (droopClear c.val rail s)
def execDvfsHoldExpiry (c : Fin 16) (s : State) : Out := toNext (dvfsHoldExpiry c.val s)
def execCoreIdleGate (p : Fin 80) (s : State) : Out := toNext (coreIdleGate p.val s)

end Sys2Proof.Machine
end

