-- ==== Sys2Proof/Machine/Aon.lean ====
section
/-!
DEFINITION. The AON counters, the clock domains, the ADC (R27, R463, R464, R467).
-/
namespace Sys2Proof.Machine

/-! ## The AON millisecond counter (R27, R463, R467) -/

/-- The AON domain is out of reset: SYS_RST_N is high. -/
def aonUp (s : State) : Bool := s.pins.sysRstN

/-- The fractional accumulator after a step, and the step's crystal cycles (R467). -/
def msFraction (f : Nat) : Nat × Nat := if 125 ≤ f + 96 then (f + 96 - 125, 33) else (f + 96, 32)

/-- AON_MS_STEP: the counter takes a step; while it runs from the RC source, F is not used. The wake counter counts 32.768 kHz
cycles while the device is in SLEEP or OFF (R341). DESIGN CHOICE: a millisecond step on the RC source carries 33 of the wake
counter's counts, a length that neither R463 nor R467 gives (log 78). -/
def aonStep (s : State) : State :=
  if !(aonUp s) then s
  else
    let (f, n) := if s.aon.onCrystal then msFraction s.aon.f else (s.aon.f, 33)
    { s with aon := { s.aon with
      ms := s.aon.ms + 1, f := f, cycles := if s.aon.onCrystal then s.aon.cycles + n else s.aon.cycles,
      wake := if 2 ≤ devState s then s.aon.wake + n else s.aon.wake } }

/-- CRYSTAL_SWITCH: at the edge of a step the counters take the crystal, with F = 0 (R463). -/
def crystalSwitch (s : State) : State :=
  if !(aonUp s) || s.aon.onCrystal then s
  else { s with aon := { s.aon with onCrystal := true, f := 0, cycles := 0 } }

/-- The AON millisecond counter as registers show it. -/
def aonMs (s : State) : Word := w32 s.aon.ms

/-! ## Clock domains (R305, Table 13-11) -/

/-- The page whose power carries a clock domain's PLL, for the domains 2 to 23 of Table 13-11. -/
def pllPage (d : Nat) : Nat :=
  if d < 18 then pgCl (d - 2)
  else if d = 18 then pgFe
  else if d = 19 then pgHbc 0
  else if d = 20 then pgPci
  else if d = 21 then pgSvl 0
  else if d = 22 then pgHcx
  else pgCmp

/-- A clock domain is locked: CLK.LOCK bit d. -/
def clkLocked (d : Nat) (s : State) : Bool :=
  if d = 0 then s.aon.onCrystal
  else if d = 1 then aonUp s
  else powered (pllPage d) s && !(s.rst.lost.contains d)

/-- PLL_LOSS_OF_LOCK: a cluster's PLL is that cluster's source, any other is source 266 (Table 14-1). -/
def pllLoss (d : Nat) (s : State) : State :=
  if d < 2 || !(clkLocked d s) then s
  else
    fault (if d < 18 then 192 + (d - 2) else 266)
      (count32 pgClk 0 0x104 { s with rst := { s.rst with lost := s.rst.lost ++ [d] } })

/-! ## The ADC (R464) -/

/-- A conversion of an input: the latest result, its count, VALID. -/
def adcResult (i : Nat) (code : BitVec 12) (s : State) : State :=
  let n := (getFld pgAna 0 (0x108 + 4 * i) 16 15 s + 1) % 2 ^ 15
  setReg pgAna 0 (0x108 + 4 * i) (w32 (code.toNat + n * 2 ^ 16 + 2 ^ 31)) s

/-- The next enabled input after the last one, in ascending order and round-robin. -/
def adcNext (s : State) : Option Nat :=
  ((List.range 8).map (fun k => (s.aon.adcLast + 1 + k) % 8)).find? (fun i => bit (getReg pgAna 0 0x100 s) i)

/-- ADC_CONVERSION. -/
def adcConvert (code : BitVec 12) (s : State) : State :=
  if !(aonUp s) || s.rst.held then s
  else
    match adcNext s with
    | some i => adcResult i code { s with aon := { s.aon with adcLast := i } }
    | none => s

/-- A reference conversion is in range: within 8 LSB of the fused value. -/
def refInRange (code : Nat) : Bool := code ≤ Config.adcRef + 8 && Config.adcRef ≤ code + 8

/-- ADC_REFERENCE_CHECK. -/
def adcCheck (code : BitVec 12) (s : State) : State :=
  if !(aonUp s) || s.rst.held then s
  else if refInRange code.toNat then setFld pgAna 0 0x104 0 1 1 s
  else fault 287 (setFld pgAna 0 0x104 0 1 0 s)

/-! ## Meanings -/

/-- AON_MS_STEP (R467). -/
def execAonMsStep (s : State) : Out := toNext (aonStep s)

/-- CRYSTAL_SWITCH (R463). -/
def execCrystalSwitch (s : State) : Out := toNext (crystalSwitch s)

/-- PLL_LOSS_OF_LOCK (R463). -/
def execPllLossOfLock (dom : Fin 24) (s : State) : Out := toNext (pllLoss dom.val s)

/-- ADC_CONVERSION (R464). -/
def execAdcConversion (code : BitVec 12) (s : State) : Out := toNext (adcConvert code s)

/-- ADC_REFERENCE_CHECK (R464). -/
def execAdcReferenceCheck (code : BitVec 12) (s : State) : Out := toNext (adcCheck code s)

end Sys2Proof.Machine
end

