-- ==== Sys2Proof/Machine/Fec.lean ====
section
/-!
DEFINITION. The forward error correction of a Svaumon flit: two RS(128,122) codewords over GF(2⁸) (R419).
-/
namespace Sys2Proof.Machine

/-- A product in GF(2⁸) with the polynomial x⁸ + x⁴ + x³ + x² + 1. -/
def gfMul (a b : Nat) : Nat :=
  ((List.range 8).foldl (fun (acc : Nat × Nat) i =>
    let r := if b / 2 ^ i % 2 = 1 then acc.1 ^^^ acc.2 else acc.1
    let x := acc.2 * 2
    (r, if 256 ≤ x then x ^^^ 0x11D else x)) (0, a)).1

/-- A power in GF(2⁸). -/
def gfPow (a : Nat) : Nat → Nat
  | 0 => 1
  | n + 1 => gfMul a (gfPow a n)

/-- The inverse of a non-zero element. -/
def gfInv (a : Nat) : Nat := gfPow a 254

/-- The generator polynomial without its leading 1, highest degree first: ∏ (x − αⁱ) for i = 0 to 5. -/
def rsGen : List Nat :=
  ((List.range 6).foldl (fun (g : List Nat) i =>
    let a := gfPow 2 i
    List.zipWith (· ^^^ ·) (g ++ [0]) (0 :: g.map (gfMul a))) [1]).drop 1

/-- The six parity bytes of a codeword's data, highest degree first. -/
def rsParity (data : List Nat) : List Nat :=
  data.foldl (fun (r : List Nat) d =>
    let f := d ^^^ nth 0 r 0
    List.zipWith (· ^^^ ·) (r.drop 1 ++ [0]) (rsGen.map (gfMul f))) [0, 0, 0, 0, 0, 0]

/-- Syndrome `i` of a received codeword, highest degree first. -/
def rsSyn (w : List Nat) (i : Nat) : Nat :=
  let a := gfPow 2 i
  w.foldl (fun r d => gfMul r a ^^^ d) 0

/-- The positions of a 128-byte codeword whose locators are roots of a polynomial, given by its value at a locator. -/
def rsRoots (f : Nat → Nat) : List (Nat × Nat) :=
  ((List.range 128).map (fun j => (j, gfPow 2 (127 - j)))).filter (fun p => f p.2 == 0)

/-- The errors of a codeword, at most three, as positions and values: none where there are more. -/
def rsErrors (s : List Nat) : Option (List (Nat × Nat)) :=
  let g := nth 0 s
  let m := gfMul
  if s.all (· == 0) then some []
  else
    -- one error
    let x1 := m (g 1) (gfInv (g 0))
    if g 0 ≠ 0 ∧ (List.range 5).all (fun i => g (i + 1) == m (g i) x1) ∧ (rsRoots (fun x => x ^^^ x1)).length = 1 then
      some ((rsRoots (fun x => x ^^^ x1)).map (fun p => (p.1, g 0)))
    else
      -- two errors
      let d2 := m (g 0) (g 2) ^^^ m (g 1) (g 1)
      let i2 := gfInv d2
      let a1 := m i2 (m (g 0) (g 3) ^^^ m (g 1) (g 2))
      let a2 := m i2 (m (g 1) (g 3) ^^^ m (g 2) (g 2))
      let r2 := rsRoots (fun x => m x x ^^^ m a1 x ^^^ a2)
      if d2 ≠ 0 ∧ g 4 = (m a1 (g 3) ^^^ m a2 (g 2)) ∧ g 5 = (m a1 (g 4) ^^^ m a2 (g 3)) ∧ r2.length = 2 then
        let p := nth (0, 0) r2 0
        let q := nth (0, 0) r2 1
        let y := m (g 1 ^^^ m (g 0) q.2) (gfInv (p.2 ^^^ q.2))
        some [(p.1, y), (q.1, y ^^^ g 0)]
      else
        -- three errors: σ from the three linear equations, by determinants
        let det := fun (a b c d e f h i j : Nat) =>
          m a (m e j ^^^ m f i) ^^^ m b (m d j ^^^ m f h) ^^^ m c (m d i ^^^ m e h)
        let d3 := det (g 0) (g 1) (g 2) (g 1) (g 2) (g 3) (g 2) (g 3) (g 4)
        let i3 := gfInv d3
        let c3 := m i3 (det (g 3) (g 1) (g 2) (g 4) (g 2) (g 3) (g 5) (g 3) (g 4))
        let c2 := m i3 (det (g 0) (g 3) (g 2) (g 1) (g 4) (g 3) (g 2) (g 5) (g 4))
        let c1 := m i3 (det (g 0) (g 1) (g 3) (g 1) (g 2) (g 4) (g 2) (g 3) (g 5))
        let r3 := rsRoots (fun x => m x (m x x) ^^^ m c1 (m x x) ^^^ m c2 x ^^^ c3)
        if d3 ≠ 0 ∧ r3.length = 3 then
          some (r3.map (fun p =>
            let o := r3.filter (fun q => q.1 != p.1)
            let u := (nth (0, 0) o 0).2
            let v := (nth (0, 0) o 1).2
            (p.1, m (g 2 ^^^ m (g 1) (u ^^^ v) ^^^ m (g 0) (m u v)) (gfInv (m (p.2 ^^^ u) (p.2 ^^^ v))))))
        else none

/-- A received codeword corrected, and how many bytes were: left as it is where there are too many errors. -/
def rsCorrect (w : List Nat) : List Nat × Nat :=
  match rsErrors ((List.range 6).map (rsSyn w)) with
  | none => (w, 0)
  | some es => (es.foldl (fun w e => setNth w e.1 (nth 0 w e.1 ^^^ e.2)) w, es.length)

/-- Every second element of a list, from its first. -/
def everyOther {α : Type} : List α → List α
  | [] => []
  | [a] => [a]
  | a :: _ :: t => a :: everyOther t

/-- Two lists taken in turn. -/
def interleave {α : Type} : List α → List α → List α
  | a :: s, b :: t => a :: b :: interleave s t
  | s, t => s ++ t

/-- The 244 bytes of a flit before its parity, with the parity of both codewords. -/
def fecEncode (bs : List Byte) : List Byte :=
  let p := fun (l : List Byte) => (rsParity (l.map (·.toNat))).map (BitVec.ofNat 8)
  bs ++ interleave (p (everyOther bs)) (p (everyOther (bs.drop 1)))

/-- A received flit corrected, and the bytes corrected (R419). -/
def fecDecode (bs : List Byte) : List Byte × Nat :=
  let c := fun (l : List Byte) => rsCorrect (l.map (·.toNat))
  let a := c (everyOther bs)
  let b := c (everyOther (bs.drop 1))
  (interleave (a.1.map (BitVec.ofNat 8)) (b.1.map (BitVec.ofNat 8)), a.2 + b.2)

end Sys2Proof.Machine
end

