-- ==== Sys2Proof/Machine/CoreMem.lean ====
section
/-!
DEFINITION. Local and cluster memory with their error registers (R119, R134, R135, R145), and the write buffers of the
cores (R122).
-/
namespace Sys2Proof.Machine

/-! ## SRAM errors -/

/-- A capture of SRAM_ERR or CMEM_ERR: the first uncorrectable error, or, if there is none, the first correctable one,
until VALID is cleared (R145). -/
def sramCapture (pg : Nat) (fields : Nat) (ue : Bool) (s : State) : State :=
  let cur := getReg pg 0 0x500 s
  if bit cur 31 && (bit cur 29 || !ue) then s
  else setReg pg 0 0x500 (w32 (fields + (if ue then 2 ^ 29 else 2 ^ 30) + 2 ^ 31)) s

/-- An error in a word of one of a core's SRAMs is read (R135, Table 5-6: 0 register file, 1 local memory, 2 instruction store,
3 ME operand buffer). DESIGN CHOICE (log 85): the places of allocations in the arrays are not stated, so the captured word index is
free. -/
def coreSram (p array : Nat) (ue : Bool) (s : State) : State :=
  let (f, s) := takeFree s
  let s := sramCapture (pgSc p) (f % 65536 + array * 65536) ue s
  if ue then fault (80 + p) s else faultAt (160 + p / 5) (pgSc p) 2 (count32 (pgSc p) 0 0x504 s)

/-- An error in a word of a core's local memory is read: a correctable one is corrected and written back (R135). -/
def lmError (p key : Nat) (ue : Bool) (s : State) : State :=
  coreSram p 1 ue (if ue then s else { s with cpt := { s.cpt with lmErr := tabDel key s.cpt.lmErr } })

/-- An armed injection of a core's page takes effect on the next protected word that is written: the word's error goes where `f`
puts it (R369). -/
def coreInject (p : Nat) (f : Bool → State → State) (s : State) : State :=
  match takeInjection (pgSc p) s with
  | (some ue, s) => f ue s
  | (none, s) => s

/-- An error in a word of a cluster memory is read (R135). -/
def cmError (n key : Nat) (ue : Bool) (s : State) : State :=
  let s := sramCapture (pgCl n) (key % 2 ^ 19) ue s
  if ue then fault (176 + n) s
  else
    let s := { s with cpt := { s.cpt with cmErr := tabDel key s.cpt.cmErr } }
    faultAt (160 + n) (pgCl n) 2 (count32 (pgCl n) 0 0x504 s)

/-- The keys of the 8-byte words that `n` bytes at `k` touch. -/
def wordKeys (k n : Nat) : List Nat := chunksOf 8 k n

/-! ## Local memory -/

/-- The address of an offset of a block's allocation in `State.mem.lm`. -/
def lmKey (b off : Nat) : Nat := b * 2 ^ 19 + off

/-- Bytes of a block's local memory on core `p`: nothing on an uncorrectable error (R135, R139). -/
def lmRead (p b off n : Nat) (s : State) : Option (List Byte) × State :=
  let keys := wordKeys (lmKey b off) n
  let errs := s.cpt.lmErr.filter (fun e => keys.contains e.1)
  let s' := errs.foldl (fun s e => lmError p e.1 e.2 s) s
  if errs.any (·.2) then (none, s') else (some (memRead zeroByte s.mem.lm (lmKey b off) n), s')

/-- Bytes of a block's local memory, errors aside. -/
def lmBytes (b off n : Nat) (s : State) : List Byte := memRead zeroByte s.mem.lm (lmKey b off) n

/-- The words that a write covers whole. -/
def wholeWords (k n : Nat) : List Nat := (wordKeys k n).filter (fun w => k ≤ w * 8 && w * 8 + 8 ≤ k + n)

/-- Bytes written to a block's local memory; an armed injection of the core's page spoils the word (R369). DESIGN CHOICE (log 85):
a word that holds an error keeps it unless the write covers the word whole; the manual states this for HBM units only (R140). -/
def lmWrite (p b off : Nat) (bs : List Byte) (s : State) : State :=
  match bs with
  | [] => s
  | _ =>
    let k := lmKey b off
    let whole := wholeWords k bs.length
    let s := { s with
      mem := { s.mem with lm := memWrite zeroByte k bs s.mem.lm },
      cpt := { s.cpt with lmErr := s.cpt.lmErr.filter (fun e => !(whole.contains e.1)) } }
    coreInject p (fun ue s => { s with cpt := { s.cpt with lmErr := tabSet (k / 8) ue s.cpt.lmErr } }) s

/-- A block's allocation zeroed: at its placement and when it ends (R95). -/
def lmClear (b : Nat) (s : State) : State :=
  { s with
    mem := { s.mem with lm := memClear (lmKey b 0) (2 ^ 19) s.mem.lm },
    cpt := { s.cpt with lmErr := s.cpt.lmErr.filter (fun e => e.1 / 65536 != b) } }

/-! ## Cluster memory -/

/-- The address of an offset of a slot's partition in cluster `n`'s memory (R119). -/
def cmKey (n slot off : Nat) (s : State) : Nat := n * 2 ^ 22 + (slotOf slot s).cmemBase * 65536 + off

/-- An access of `len` bytes lies in the slot's partition. -/
def cmInside (slot off len : Nat) (s : State) : Bool := off + len ≤ (slotOf slot s).cmemSize * 65536

/-- Bytes of a slot's partition of cluster memory. -/
def cmRead (n slot off len : Nat) (s : State) : Option (List Byte) × State :=
  let k := cmKey n slot off s
  let keys := wordKeys k len
  let errs := s.cpt.cmErr.filter (fun e => keys.contains e.1)
  let s' := errs.foldl (fun s e => cmError n e.1 e.2 s) s
  if errs.any (·.2) then (none, s') else (some (memRead zeroByte s.mem.cmem k len), s')

/-- Bytes written to a slot's partition of cluster memory. -/
def cmWrite (n slot off : Nat) (bs : List Byte) (s : State) : State :=
  match bs with
  | [] => s
  | _ =>
    let k := cmKey n slot off s
    let whole := wholeWords k bs.length
    let s := { s with
      mem := { s.mem with cmem := memWrite zeroByte k bs s.mem.cmem },
      cpt := { s.cpt with cmErr := s.cpt.cmErr.filter (fun e => !(whole.contains e.1)) } }
    match takeInjection (pgCl n) s with
    | (some ue, s) => { s with cpt := { s.cpt with cmErr := tabSet (k / 8) ue s.cpt.cmErr } }
    | (none, s) => s

/-! ## Write buffers (R122) -/

/-- The bytes of an entry as runs of consecutive offsets. -/
def byteRuns (t : Tab Byte) : List (Nat × List Byte) :=
  t.foldr (fun e acc =>
    match acc with
    | (o, bs) :: rest => if e.1 + 1 = o then (e.1, e.2 :: bs) :: rest else (e.1, [e.2]) :: acc
    | [] => [(e.1, [e.2])]) []

/-- Bytes written where a translation led. -/
def destPut (host : Option HostAttr) (a : Nat) (bs : List Byte) (s : State) : State :=
  match host with
  | some q => hostSend q a bs s
  | none => hbmPut a bs s

/-- An entry written to memory with its byte enables. -/
def wbOut (e : WbEnt) (s : State) : State :=
  (byteRuns e.bytes).foldl (fun s r => destPut e.host (e.pa + r.1) r.2 s) s

/-- The entries of a core's write buffer that `f` selects are written out, oldest first. -/
def wbFlush (p : Nat) (f : WbEnt → Bool) (s : State) : State :=
  let c := coreOf p s
  if c.wb.any f then
    (c.wb.filter f).foldl (fun s e => wbOut e s) (setCore p { c with wb := c.wb.filter (fun e => !(f e)) } s)
  else s

/-- Every entry of a core's write buffer is written out (R126). -/
def wbFlushAll (p : Nat) (s : State) : State := wbFlush p (fun _ => true) s

/-- Every core's entries that a scope selects are written out (R157). -/
def wbFlushScope (f : WbEnt → Bool) (s : State) : State :=
  (s.cpt.cores.map (·.1)).foldl (fun s p => wbFlush p f s) s

/-- Bytes of one 64-byte line put into a core's write buffer: merged with the line's entry, or a new entry, for which a
full buffer writes out an entry that the manual does not name (R122). DESIGN CHOICE (log 86): the same line is the same virtual line
of the same slot; two addresses that lead to one physical line have entries of their own. -/
def wbPut (p slot line : Nat) (host : Option HostAttr) (pa off : Nat) (bs : List Byte) (s : State) : State :=
  let c := coreOf p s
  let put := fun (t : Tab Byte) => (bs.foldl (fun (a : Nat × Tab Byte) b => (a.1 + 1, tabSet a.1 b a.2)) (off, t)).2
  if c.wb.any (fun e => e.slot == slot && e.line == line) then
    setCore p { c with wb := c.wb.map (fun e =>
      if e.slot = slot ∧ e.line = line then { e with bytes := put e.bytes } else e) } s
  else
    let s :=
      if c.wb.length < 32 then s
      else
        let (f, s) := takeFree s
        match c.wb[f % c.wb.length]? with
        | some v => wbOut v (setCore p { c with wb := c.wb.erase v } s)
        | none => s
    let c := coreOf p s
    setCore p { c with wb := c.wb ++ [⟨slot, line, host, pa, put []⟩] } s

/-- The buffered value of a byte of a slot's global space, if the core holds one. -/
def wbByte (p slot va : Nat) (s : State) : Option Byte :=
  match (coreOf p s).wb.find? (fun e => e.slot == slot && e.line == va / 64) with
  | some e => tabFind (va % 64) e.bytes
  | none => none

/-- Bytes of memory overlaid with the core's buffered bytes (R122). -/
def wbOverlay (p slot va : Nat) (bs : List Byte) (s : State) : List Byte :=
  (bs.zipIdx).map (fun b => (wbByte p slot (va + b.2) s).getD b.1)

end Sys2Proof.Machine
end

