-- ==== Sys2Proof/Machine/Fp.lean ====
section
/-!
DEFINITION. Number formats and exact arithmetic (R34 to R60): decoding of the formats, one rounding, the conversions of
the MEs and of the shader cores, additions and comparisons, and the dot product of a matrix engine.
-/
namespace Sys2Proof.Machine

/-! ## Values and formats (R35, R36) -/

/-- The value of an encoding: a NaN, an infinity, a signed zero, or the sign and a magnitude `m * 2^e` with `m > 0`. -/
inductive FV where
  | nan
  | inf (neg : Bool)
  | zero (neg : Bool)
  | fin (neg : Bool) (m : Nat) (e : Int)
deriving DecidableEq, Repr

/-- Fraction bits (Table 2-1). -/
def fmtFrac : FpFmt → Nat
  | .fp32 => 23 | .bf16 => 7 | .fp16 => 10 | .e4m3 => 3 | .e5m2 => 2

/-- Exponent bits (Table 2-1). -/
def fmtExp : FpFmt → Nat
  | .fp32 => 8 | .bf16 => 8 | .fp16 => 5 | .e4m3 => 4 | .e5m2 => 5

/-- Bias (Table 2-1). -/
def fmtBias : FpFmt → Nat
  | .fp32 => 127 | .bf16 => 127 | .fp16 => 15 | .e4m3 => 7 | .e5m2 => 15

/-- Width in bits. -/
def fmtBits (f : FpFmt) : Nat := 1 + fmtExp f + fmtFrac f

/-- The exponent of the last place of the subnormals: `1 - bias - fraction bits`. -/
def fmtMin (f : FpFmt) : Int := 1 - (fmtBias f : Int) - (fmtFrac f : Int)

/-- The default NaN (Table 2-2). -/
def fmtNan : FpFmt → Nat
  | .fp32 => 0x7FC00000 | .bf16 => 0x7FC0 | .fp16 => 0x7E00 | .e4m3 => 0x7F | .e5m2 => 0x7E

/-- The largest finite encoding (Table 2-2). -/
def fmtMax : FpFmt → Nat
  | .fp32 => 0x7F7FFFFF | .bf16 => 0x7F7F | .fp16 => 0x7BFF | .e4m3 => 0x7E | .e5m2 => 0x7B

/-- The positive infinity, where the format has one (Table 2-2). -/
def fmtInf : FpFmt → Nat
  | .fp32 => 0x7F800000 | .bf16 => 0x7F80 | .fp16 => 0x7C00 | .e4m3 => 0x7E | .e5m2 => 0x7C

/-- The sign bit of a format. -/
def fmtSign (f : FpFmt) (neg : Bool) : Nat := if neg then 2 ^ (fmtExp f + fmtFrac f) else 0

/-- The value of an encoding (R35, R36). -/
def fpDec (f : FpFmt) (bits : Nat) : FV :=
  let fb := fmtFrac f
  let frac := bits % 2 ^ fb
  let ex := bits / 2 ^ fb % 2 ^ fmtExp f
  let neg := bits / 2 ^ (fb + fmtExp f) % 2 = 1
  let special := ex = 2 ^ fmtExp f - 1
  if f = .e4m3 ∧ special ∧ frac = 7 then .nan
  else if f ≠ .e4m3 ∧ special then (if frac = 0 then .inf neg else .nan)
  else if ex = 0 then (if frac = 0 then .zero neg else .fin neg frac (fmtMin f))
  else .fin neg (2 ^ fb + frac) (fmtMin f + (ex : Int) - 1)

/-! ## Rounding -/

/-- A magnitude `m * 2^e`, plus something below its last bit where `sticky`, rounded to nearest even on the grid of
`2^(qe)`. -/
def rneGrid (m : Nat) (e qe : Int) (sticky : Bool) : Nat :=
  if qe ≤ e then m * 2 ^ (e - qe).toNat
  else
    let sh := (qe - e).toNat
    let q := m / 2 ^ sh
    let r := m % 2 ^ sh
    let half := 2 ^ (sh - 1)
    if half < r ∨ (r = half ∧ (sticky ∨ q % 2 = 1)) then q + 1 else q

/-- The magnitude bits of `m * 2^e` rounded with RNE to a format as though its exponent range were unbounded above
(R50 step 1): encodings grow with the value, so a result above the largest finite one is an overflow. -/
def rneBits (f : FpFmt) (m : Nat) (e : Int) (sticky : Bool) : Nat :=
  let qe := max ((Nat.log2 m : Int) + e - fmtFrac f) (fmtMin f)
  (qe - fmtMin f).toNat * 2 ^ fmtFrac f + rneGrid m e qe sticky

/-- A value encoded under IEEE 754 with RNE: overflow gives an infinity, signs of zero are kept (R56). -/
def fpEnc (f : FpFmt) (v : FV) (sticky : Bool := false) : Nat :=
  match v with
  | .nan => fmtNan f
  | .inf n => fmtSign f n + fmtInf f
  | .zero n => fmtSign f n
  | .fin n m e =>
    let b := rneBits f m e sticky
    fmtSign f n + (if fmtMax f < b then fmtInf f else b)

/-- A signed integer times `2^e` as a value; zero is +0. -/
def fvOf (i : Int) (e : Int) : FV := if i = 0 then .zero false else .fin (i < 0) i.natAbs e

/-- An exact value as an integer on the grid of `2^e`, for a finite value whose last bit is not below it. -/
def fvOn (e : Int) : FV → Int
  | .fin n m e' => (if n then -1 else 1) * (m * 2 ^ (e' - e).toNat : Nat)
  | _ => 0

/-- The exponent of a value's last bit. -/
def fvExp : FV → Int
  | .fin _ _ e => e
  | _ => 0

/-! ## IEEE 754 operations with one rounding (R56) -/

/-- The sign of a value. -/
def fvNeg : FV → Bool
  | .nan => false
  | .inf n => n
  | .zero n => n
  | .fin n _ _ => n

/-- An exact sum: the sign of an exact zero is + unless both operands are negative zeros. -/
def fvAdd (a b : FV) : FV :=
  match a, b with
  | .nan, _ => .nan
  | _, .nan => .nan
  | .inf x, .inf y => if x = y then .inf x else .nan
  | .inf x, _ => .inf x
  | _, .inf y => .inf y
  | .zero x, .zero y => .zero (x && y)
  | .zero _, b => b
  | a, .zero _ => a
  | a, b =>
    let e := min (fvExp a) (fvExp b)
    fvOf (fvOn e a + fvOn e b) e

/-- A value with its sign changed. -/
def fvMinus : FV → FV
  | .nan => .nan
  | .inf n => .inf (!n)
  | .zero n => .zero (!n)
  | .fin n m e => .fin (!n) m e

/-- An exact product. -/
def fvMul (a b : FV) : FV :=
  match a, b with
  | .nan, _ => .nan
  | _, .nan => .nan
  | .inf _, .zero _ => .nan
  | .zero _, .inf _ => .nan
  | .inf x, b => .inf (x != fvNeg b)
  | a, .inf y => .inf (fvNeg a != y)
  | .zero x, b => .zero (x != fvNeg b)
  | a, .zero y => .zero (fvNeg a != y)
  | .fin x m e, .fin y m' e' => .fin (x != y) (m * m') (e + e')

/-- A quotient to 128 bits beyond the operands, with what is left below its last bit. -/
def fvDiv (a b : FV) : FV × Bool :=
  match a, b with
  | .nan, _ => (.nan, false)
  | _, .nan => (.nan, false)
  | .inf _, .inf _ => (.nan, false)
  | .zero _, .zero _ => (.nan, false)
  | .inf x, b => (.inf (x != fvNeg b), false)
  | a, .inf y => (.zero (fvNeg a != y), false)
  | .zero x, b => (.zero (x != fvNeg b), false)
  | a, .zero y => (.inf (fvNeg a != y), false)
  | .fin x m e, .fin y m' e' =>
    (.fin (x != y) (m * 2 ^ 128 / m') (e - e' - 128), m * 2 ^ 128 % m' != 0)

/-- The integer square root, bit by bit. -/
def isqrt (n : Nat) : Nat :=
  ((List.range 128).reverse).foldl (fun r i => if (r + 2 ^ i) * (r + 2 ^ i) ≤ n then r + 2 ^ i else r) 0

/-- A square root with what is left below its last bit. -/
def fvSqrt (a : FV) : FV × Bool :=
  match a with
  | .nan => (.nan, false)
  | .inf n => (if n then .nan else .inf false, false)
  | .zero n => (.zero n, false)
  | .fin true _ _ => (.nan, false)
  | .fin false m e =>
    let e' := if e % 2 = 0 then e else e - 1
    let m' := if e % 2 = 0 then m else 2 * m
    let q := isqrt (m' * 2 ^ 128)
    (.fin false q (e' / 2 - 64), q * q != m' * 2 ^ 128)

/-- The order of two values that are not NaN, with −0 and +0 equal: `a < b`. -/
def fvLt (a b : FV) : Bool :=
  match a, b with
  | .nan, _ => false
  | _, .nan => false
  | .inf true, .inf true => false
  | .inf true, _ => true
  | _, .inf true => false
  | .inf false, _ => false
  | _, .inf false => true
  | a, b =>
    let e := min (fvExp a) (fvExp b)
    fvOn e a < fvOn e b

/-- maximumNumber and minimumNumber of IEEE 754-2019: a NaN yields the other operand, −0 lies below +0 (R56). -/
def fvMaxNum (a b : FV) : FV :=
  match a, b with
  | .nan, b => b
  | a, .nan => a
  | .zero x, .zero y => .zero (x && y)
  | a, b => if fvLt a b then b else a

def fvMinNum (a b : FV) : FV :=
  match a, b with
  | .nan, b => b
  | a, .nan => a
  | .zero x, .zero y => .zero (x || y)
  | a, b => if fvLt b a then b else a

/-! ## Flags (R59) -/

abbrev flInvalid : Nat := 1
abbrev flSaturated : Nat := 2
abbrev flIntSat : Nat := 4
abbrev flUnderflow : Nat := 8

/-! ## Binary32 operations outside the shader cores (R44, R46, R49, R55) -/

/-- A −0 delivered as +0 (R46, R54). -/
def plusZero (w : Word) : Word := if w = 0x80000000#32 then 0 else w

/-- The value of a binary32 word. -/
def f32 (w : Word) : FV := fpDec .fp32 w.toNat

/-- A value as a binary32 word under RNE. -/
def toF32 (v : FV) (sticky : Bool := false) : Word := w32 (fpEnc .fp32 v sticky)

/-- One binary32 addition with the NaN and sign rules of R44 to R46: the sum and its flag. A NaN operand sets INVALID only
where `nanFlag` (R49). -/
def accAdd (nanFlag : Bool) (a b : Word) : Word × Nat :=
  let x := f32 a
  let y := f32 b
  let fl :=
    match x, y with
    | .nan, _ => if nanFlag then flInvalid else 0
    | _, .nan => if nanFlag then flInvalid else 0
    | .inf p, .inf q => if p = q then 0 else flInvalid
    | _, _ => 0
  (plusZero (toF32 (fvAdd x y)), fl)

/-- max and min of R55: zeros are equal, a NaN yields the other operand and sets no flag. -/
def opMax (a b : Word) : Word :=
  match f32 a, f32 b with
  | .nan, .nan => 0x7FC00000#32
  | .nan, _ => b
  | _, .nan => a
  | x, y => if fvLt x y then b else a

def opMin (a b : Word) : Word :=
  match f32 a, f32 b with
  | .nan, .nan => 0x7FC00000#32
  | .nan, _ => b
  | _, .nan => a
  | x, y => if fvLt y x then b else a

/-! ## Output conversion (R50 to R54, Tables 2-4 and 2-5) -/

/-- The magnitude is below the format's smallest normal. -/
def belowNormal (f : FpFmt) (m : Nat) (e : Int) : Bool := (Nat.log2 m : Int) + e < 1 - (fmtBias f : Int)

/-- The magnitude of a rounded encoding is exactly the source's. -/
def exactBits (f : FpFmt) (bits m : Nat) (e : Int) : Bool :=
  match fpDec f bits with
  | .fin _ m' e' =>
    let g := min e e'
    m * 2 ^ (e - g).toNat == m' * 2 ^ (e' - g).toNat
  | _ => false

/-- A value converted to a floating-point output format: the bits and the flags (R50, R53, Table 2-4). -/
def outFp (f : FpFmt) (v : FV) (sticky : Bool := false) : Nat × Nat :=
  match v with
  | .nan => (fmtNan f, 0)
  | .inf n => if f = .e4m3 then (fmtSign f n + fmtMax f, flSaturated) else (fmtSign f n + fmtInf f, 0)
  | .zero _ => (0, 0)
  | .fin n m e =>
    let b := rneBits f m e sticky
    if f = .fp32 ∧ fmtMax f < b then (fmtSign f n + fmtInf f, 0)
    else if fmtMax f < b then (fmtSign f n + fmtMax f, flSaturated)
    else
      let fl := if f ≠ .fp32 ∧ belowNormal f m e ∧ (sticky ∨ !(exactBits f b m e)) then flUnderflow else 0
      if b = 0 then (0, fl) else (fmtSign f n + b, fl)

/-- A value rounded to an integer with RNE, or truncated. -/
def fvToInt (rz : Bool) (v : FV) : Int :=
  match v with
  | .fin n m e =>
    let q := if rz then (if 0 ≤ e then m * 2 ^ e.toNat else m / 2 ^ (-e).toNat) else rneGrid m e 0 false
    if n then -(q : Int) else q
  | _ => 0

/-- An integer clamped to a range, and whether the clamp changed it. -/
def clampInt (lo hi i : Int) : Int × Bool := if i < lo then (lo, true) else if hi < i then (hi, true) else (i, false)

/-- A value converted to a signed integer of `n` bits: the bits and the flags (R51, Table 2-4). -/
def outInt (n : Nat) (v : FV) : Nat × Nat :=
  let lo : Int := -(2 ^ (n - 1) : Nat)
  let hi : Int := (2 ^ (n - 1) : Nat) - 1
  match v with
  | .nan => (0, flInvalid)
  | .inf neg => (wrapInt n (if neg then lo else hi), flIntSat)
  | v =>
    let c := clampInt lo hi (fvToInt false v)
    (wrapInt n c.1, if c.2 then flIntSat else 0)

/-! ## The dot product (R40 to R48) -/

/-- The format of an operand's elements. -/
inductive EltFmt where
  | fp (f : FpFmt)
  | i8
  | i4
deriving DecidableEq, Repr

/-- The elements' integer value. -/
def eltInt (f : EltFmt) (b : Nat) : Int :=
  match f with
  | .i8 => sext 8 b
  | .i4 => sext 4 b
  | .fp _ => 0

/-- The elements' floating value. -/
def eltFv (f : EltFmt) (b : Nat) : FV :=
  match f with
  | .fp f => fpDec f b
  | _ => .zero false

/-- The group result of R43 and R45 for the products of at most 32 pairs of elements, with the block scales' exponents
`sc = XA + XB - 254` for an MX operation: the FP32 word and the flags. -/
def groupFp (nanScale : Bool) (sc : Int) (ps : List (FV × FV)) : Word × Nat :=
  let bad := nanScale || ps.any (fun p => p.1 == .nan || p.2 == .nan || fvMul p.1 p.2 == .nan)
  let prods := ps.map (fun p => fvMul p.1 p.2)
  let pos := prods.any (fun v => v == .inf false)
  let neg := prods.any (fun v => v == .inf true)
  if bad || (pos && neg) then (0x7FC00000#32, flInvalid)
  else if pos then (0x7F800000#32, 0)
  else if neg then (0xFF800000#32, 0)
  else
    let es := prods.filterMap (fun v => match v with | .fin _ m e => some ((Nat.log2 m : Int) + e) | _ => none)
    match es with
    | [] => (0, 0)
    | e0 :: t =>
      let ue := t.foldl max e0 - 26
      let sum := prods.foldl (fun (a : Int) v =>
        match v with
        | .fin n m e =>
          let q : Nat := if ue ≤ e then m * 2 ^ (e - ue).toNat else m / 2 ^ (ue - e).toNat
          if n then a - q else a + q
        | _ => a) 0
      (plusZero (toF32 (fvOf sum (ue + sc))), 0)

/-- The group result of MXINT8 (R48). -/
def groupMxInt (nanScale : Bool) (sc : Int) (ps : List (Int × Int)) : Word × Nat :=
  if nanScale then (0x7FC00000#32, flInvalid)
  else (plusZero (toF32 (fvOf (ps.foldl (fun a p => a + p.1 * p.2) 0) (sc - 12))), 0)

/-- One accumulation into the FP32 accumulator (R44, R45). -/
def accFp (acc : Word × Nat) (g : Word × Nat) : Word × Nat :=
  let r := accAdd false acc.1 g.1
  (r.1, acc.2 ||| g.2 ||| r.2)

/-- One accumulation into the INT32 accumulator (R47). -/
def accInt (acc : Word × Nat) (sum : Int) : Word × Nat :=
  let c := clampInt (-(2 ^ 31)) (2 ^ 31 - 1) (acc.1.toInt + sum)
  (w32 (wrapInt 32 c.1), acc.2 ||| (if c.2 then flIntSat else 0))

/-- A list cut in groups of at most 32 (R42): by counting down the terms. -/
def groups32 {α : Type} (n : Nat) (l : List α) : List (List α) :=
  (List.range ((n + 31) / 32)).map (fun g => (l.drop (32 * g)).take 32)

/-- An accumulator input loaded (R41): the FP32 word, and INVALID for a NaN. -/
def loadAcc (f : FpFmt) (bits : Nat) : Word × Nat :=
  match fpDec f bits with
  | .nan => (0x7FC00000#32, flInvalid)
  | v => (plusZero (toF32 v), 0)

/-! ## Shader conversions (R57) -/

/-- Width and signedness of an integer format. -/
def intBits : IntFmt → Nat × Bool
  | .i8 => (8, true) | .u8 => (8, false) | .i16 => (16, true) | .u16 => (16, false) | .i32 => (32, true)
  | .u32 => (32, false)

/-- A conversion between floating-point formats by a shader core (R57). -/
def cvtFp (src dst : FpFmt) (sat : Bool) (bits : Nat) : Nat :=
  match fpDec src bits with
  | .inf n => if dst = .e4m3 then fmtSign dst n + fmtMax dst else fmtSign dst n + fmtInf dst
  | .fin n m e =>
    let b := rneBits dst m e false
    fmtSign dst n +
      (if fmtMax dst < b then (if dst = .e4m3 ∨ (sat ∧ dst ≠ .fp32) then fmtMax dst else fmtInf dst) else b)
  | v => fpEnc dst v

/-- A conversion from a floating-point to an integer format by a shader core (R57). -/
def cvtFpInt (src : FpFmt) (dst : IntFmt) (rz : Bool) (bits : Nat) : Nat :=
  let (n, sg) := intBits dst
  let lo : Int := if sg then -(2 ^ (n - 1) : Nat) else 0
  let hi : Int := if sg then (2 ^ (n - 1) : Nat) - 1 else (2 ^ n : Nat) - 1
  match fpDec src bits with
  | .nan => 0
  | .inf neg => wrapInt n (if neg then lo else hi)
  | v => wrapInt n (clampInt lo hi (fvToInt rz v)).1

/-- A conversion from an integer to a floating-point format by a shader core (R57). -/
def cvtIntFp (src : IntFmt) (dst : FpFmt) (sat : Bool) (w : Word) : Nat :=
  let (n, sg) := intBits src
  let i : Int := if sg then sext n w.toNat else ((w.toNat % 2 ^ n : Nat) : Int)
  match fvOf i 0 with
  | .fin ng m e =>
    let b := rneBits dst m e false
    fmtSign dst ng +
      (if fmtMax dst < b then (if dst = .e4m3 ∨ (sat ∧ dst ≠ .fp32) then fmtMax dst else fmtInf dst) else b)
  | v => fpEnc dst v

end Sys2Proof.Machine
end

