-- ==== Sys2Proof/Machine/Dma.lean ====
section
/-!
DEFINITION. The DMA engines and the fault rings (R155 to R175, R470): transfers in stream order, stalls, resumes, ATS
and PRI, and the rows of the translation registers.
-/
namespace Sys2Proof.Machine

/-! ## Channels -/

/-- What stops a transfer at an access. -/
inductive Stop where
  /-- A translation failure: address, cause, level, and whether the access is a write. -/
  | xl (va c l : Nat) (wr : Bool)
  /-- A bus error at an address. -/
  | bus (va : Nat)
  /-- A TGT = 2 page without an ATS translation (R170). -/
  | ats (va : Nat) (wr : Bool)
  /-- An error of the descriptor or of an index: reason and detail. -/
  | err (reason detail : Nat)
  /-- A host read of the source is outstanding (R399). -/
  | wait
deriving DecidableEq, Repr

/-- A read of a channel, page by page. -/
def dmaRead (n slot va len : Nat) (s : State) : Except Stop (List Byte) × State :=
  (pagePieces va len).foldl
    (fun (acc : Except Stop (List Byte) × State) p =>
      match acc with
      | (.error e, s) => (.error e, s)
      | (.ok bs, s) =>
        match translate (rqDma n) slot p.1 .rd s with
        | (.error (c, l), s) => (.error (.xl p.1 c l false), s)
        | (.ok .needAts, s) => (.error (.ats p.1 false), s)
        | (.ok (.host a _), s) => (.ok (bs ++ hostBytes a p.2 s), s)
        | (.ok (.hbm a), s) =>
          match hbmRead a p.2 s with
          | (some b, s) => (.ok (bs ++ b), s)
          | (none, s) => (.error (.bus p.1), s))
    (.ok [], s)

/-- A write of a channel, page by page: the pages before a failing one are written (R166). -/
def dmaWrite (n slot va : Nat) (bs : List Byte) (s : State) : Except Stop Unit × State :=
  (pagePieces va bs.length).foldl
    (fun (acc : Except Stop Unit × State) p =>
      match acc with
      | (.error e, s) => (.error e, s)
      | (.ok _, s) =>
        match translate (rqDma n) slot p.1 .wr s with
        | (.error (c, l), s) => (.error (.xl p.1 c l true), s)
        | (.ok .needAts, s) => (.error (.ats p.1 true), s)
        | (.ok (.host a q), s) => (.ok (), hostSend q a ((bs.drop (p.1 - va)).take p.2) s)
        | (.ok (.hbm a), s) => (.ok (), hbmPut a ((bs.drop (p.1 - va)).take p.2) s))
    (.ok (), s)

/-- Bytes from an address to the end of its 4 KiB page. -/
def pageLeft (va : Nat) : Nat := 4096 - va % 4096

/-- A copy in stream order from byte `done` on: at most `fuel` pieces, each inside one source and one destination page. The
channel after it, and what stopped it. -/
def copyRun (n slot src dst len : Nat) : (fuel : Nat) → Chan → State → (Chan × Option Stop) × State
  | 0, c, s => ((c, none), s)
  | fuel + 1, c, s =>
    if len ≤ c.done then ((c, none), s)
    else
      let k := min (len - c.done) (min (pageLeft (src + c.done)) (pageLeft (dst + c.done)))
      let s := prefetch (rqDma n) slot (dst + c.done) (len - c.done) (prefetch (rqDma n) slot (src + c.done) (len - c.done) s)
      match translate (rqDma n) slot (src + c.done) .rd s with
      | (.error (x, l), s) => ((c, some (.xl (src + c.done) x l false)), s)
      | (.ok .needAts, s) => ((c, some (.ats (src + c.done) false)), s)
      | (.ok d, s) =>
        let hostWait := match d with | .host _ _ => decide (c.fetched < c.done + k) | _ => false
        if hostWait then ((c, some .wait), s)
        else
          match dmaRead n slot (src + c.done) k s with
          | (.error e, s) => ((c, some e), s)
          | (.ok bs, s) =>
            match dmaWrite n slot (dst + c.done) bs s with
            | (.error e, s) => ((c, some e), s)
            | (.ok _, s) => copyRun n slot src dst len fuel { c with done := c.done + k } s

/-- A fill in stream order from byte `done` on (Table 7-8): the pattern's bytes repeat from the start. -/
def fillRun (n slot dst len : Nat) (pat : Word) : (fuel : Nat) → Chan → State → (Chan × Option Stop) × State
  | 0, c, s => ((c, none), s)
  | fuel + 1, c, s =>
    if len ≤ c.done then ((c, none), s)
    else
      let k := min (len - c.done) (pageLeft (dst + c.done))
      let bs := (List.range k).map (fun i => BitVec.ofNat 8 (pat.toNat / 256 ^ ((c.done + i) % 4)))
      let s := prefetch (rqDma n) slot (dst + c.done) (len - c.done) s
      match dmaWrite n slot (dst + c.done) bs s with
      | (.error e, s) => ((c, some e), s)
      | (.ok _, s) => fillRun n slot dst len pat fuel { c with done := c.done + k } s

/-! ## Gather (R173 to R175) -/

/-- A word of a descriptor. -/
def dWord (d : List Word) (i : Nat) : Nat := (nth 0 d i).toNat

/-- A 64-bit field of a descriptor. -/
def dLong (d : List Word) (i : Nat) : Nat := dWord d i + dWord d (i + 1) * 2 ^ 32

/-- Element size, output size, elements, stride, index size of a gather. -/
def gIn (d : List Word) : Nat := if dWord d 12 % 2 = 1 then 2 else 4
def gOut (d : List Word) : Nat := if dWord d 12 / 2 % 2 = 1 then 2 else 4
def gElems (d : List Word) : Nat := dWord d 10 % 65536
def gStride (d : List Word) : Nat := dWord d 11 % 2 ^ 24
def gPool (d : List Word) : Nat := dWord d 12 / 4 % 4
def gIdx64 (d : List Word) : Bool := dWord d 12 / 16 % 2 = 1
def gWeighted (d : List Word) : Bool := dWord d 12 / 32 % 2 = 1

/-- The conditions of R173 under which a gather descriptor is bad. -/
def gatherBad (d : List Word) : Bool :=
  dLong d 0 / 2 ^ 48 != 0 || dLong d 2 / 2 ^ 48 != 0 || dLong d 4 / 2 ^ 48 != 0 || dLong d 6 / 2 ^ 48 != 0 ||
  dLong d 14 / 2 ^ 48 != 0 || dWord d 10 / 65536 != 0 || dWord d 11 / 2 ^ 24 != 0 || dWord d 12 / 64 != 0 ||
  dWord d 13 != 0 || gPool d == 3 || gElems d == 0 || 1024 < gElems d || gStride d < gElems d * gIn d ||
  gStride d % gIn d != 0 || (gWeighted d && gPool d == 2)

/-- A row's elements as FP32 words: BF16 is widened exactly (R49). -/
def rowWords (size n : Nat) (bs : List Byte) : List Word :=
  (List.range n).map (fun i =>
    let v := leNat ((bs.drop (size * i)).take size)
    if size = 2 then w32 (v * 65536) else w32 v)

/-- The weighted term w × x (R175): one multiplication with RNE, and its flag. -/
def weightTerm (w x : Word) : Word × Nat :=
  match fvMul (f32 w) (f32 x) with
  | .nan => (0x7FC00000#32, flInvalid)
  | v => (toF32 v, 0)

/-- One row taken into the pool. -/
def poolRow (d : List Word) (w : Word) (row : List Word) (c : Chan) : Chan :=
  let res :=
    if gPool d = 2 then
      (if c.cnt = 0 then row else List.zipWith opMax c.acc row, 0)
    else
      let acc := if c.cnt = 0 then List.replicate (gElems d) (0 : Word) else c.acc
      let terms := row.map (fun x => if gWeighted d then weightTerm w x else (x, 0))
      let sums := List.zipWith (fun (a : Word) (t : Word × Nat) =>
        let r := accAdd true a t.1
        (r.1, r.2 ||| t.2)) acc terms
      (sums.map (·.1), sums.foldl (fun f p => f ||| p.2) 0)
  { c with acc := res.1, cnt := c.cnt + 1, flags := c.flags ||| res.2 }

/-- A finished bag's output bytes and flags (R175, Table 2-4). -/
def bagOut (d : List Word) (c : Chan) : List Byte × Nat :=
  let acc := if c.cnt = 0 then List.replicate (gElems d) (0 : Word) else c.acc
  let vals := acc.map (fun a =>
    let v := f32 a
    if gPool d = 1 ∧ c.cnt ≠ 0 then
      let q := fvDiv v (.fin false c.cnt 0)
      f32 (toF32 q.1 q.2)
    else v)
  let outs := vals.map (fun v => outFp (if gOut d = 2 then .bf16 else .fp32) v)
  ((outs.map (fun o => toLE (gOut d) o.1)).flatten, outs.foldl (fun f o => f ||| o.2) 0)

/-- The bytes at an address as a walk ahead sees them, with no effect but on the buffers; nothing where the walk fails. -/
def peek (n slot va len : Nat) (s : State) : Option Nat × State :=
  if 2 ^ 48 ≤ va then (none, s)
  else
    match findEnt (rqDma n) slot va s with
    | (.ok e, s) =>
      let a := e.pa + (va - e.base)
      (if e.tgt = 0 then some (hbmNat a len s) else if e.tgt = 1 then some (leNat (hostBytes a len s)) else none, s)
    | (.error _, s) => (none, s)

/-- The walks ahead of a gather from an index-list entry on (R155): its index list, and the rows that the next entries of the list
name. -/
def gatherAhead (n slot : Nat) (d : List Word) (ent last : Nat) (s : State) : State :=
  let isz := if gIdx64 d then 8 else 4
  let s := prefetch (rqDma n) slot (dLong d 2 + isz * ent) (isz * (last - ent)) s
  ((span ent (last - ent)).take (pfDepth s)).foldl (fun s e =>
    match peek n slot (dLong d 2 + isz * e) isz s with
    | (some i, s) =>
      if i < dWord d 9 then prefetchRun (rqDma n) slot (dLong d 0 + i * gStride d + gElems d * gIn d) 1 (dLong d 0 + i * gStride d) s
      else s
    | (none, s) => s) s

/-- The index-list entries of a bag from `pos` on. -/
def bagRun (n slot : Nat) (d : List Word) (o0 : Nat) : (fuel : Nat) → Chan → State → (Chan × Option Stop) × State
  | 0, c, s => ((c, none), s)
  | fuel + 1, c, s =>
    let ent := o0 + c.pos
    let isz := if gIdx64 d then 8 else 4
    let s := gatherAhead n slot d ent (ent + fuel + 1) s
    match dmaRead n slot (dLong d 2 + isz * ent) isz s with
    | (.error e, s) => ((c, some e), s)
    | (.ok ib, s) =>
      let idx := leNat ib
      if idx = 2 ^ (8 * isz) - 1 then bagRun n slot d o0 fuel { c with pos := c.pos + 1 } s
      else if dWord d 9 ≤ idx then ((c, some (.err 0x0018 (c.done + ent % 2 ^ 32 * 2 ^ 32))), s)
      else
        match (if gWeighted d then dmaRead n slot (dLong d 14 + 4 * ent) 4 s else (.ok [], s)) with
        | (.error e, s) => ((c, some e), s)
        | (.ok wb, s) =>
          match dmaRead n slot (dLong d 0 + idx * gStride d) (gElems d * gIn d) s with
          | (.error e, s) => ((c, some e), s)
          | (.ok rb, s) =>
            let c := poolRow d (w32 (leNat wb)) (rowWords (gIn d) (gElems d) rb) c
            bagRun n slot d o0 fuel { c with pos := c.pos + 1 } s

/-- The bags from `done` on. -/
def gatherRun (n slot desc : Nat) (d : List Word) : (fuel : Nat) → Chan → State → (Chan × Option Stop) × State
  | 0, c, s => ((c, none), s)
  | fuel + 1, c, s =>
    match dmaRead n slot (dLong d 4 + 4 * c.done) 8 s with
    | (.error e, s) => ((c, some e), s)
    | (.ok ob, s) =>
      let o0 := leNat (ob.take 4)
      let o1 := leNat (ob.drop 4)
      if o1 < o0 then ((c, some (.err 0x0017 desc)), s)
      else
        match bagRun n slot d o0 (o1 - o0 - c.pos) c s with
        | ((c, some e), s) => ((c, some e), s)
        | ((c, none), s) =>
          let out := bagOut d c
          match dmaWrite n slot (dLong d 6 + c.done * gElems d * gOut d) out.1 s with
          | (.error e, s) => ((c, some e), s)
          | (.ok _, s) =>
            gatherRun n slot desc d fuel
              { c with done := c.done + 1, pos := 0, cnt := 0, acc := [], flags := c.flags ||| out.2 } s

/-- A transfer run from where it stands to its end or to what stops it (R166). -/
def chanRun (n : Nat) (c : Chan) (s : State) : (Chan × Option Stop) × State :=
  if c.busErr then ((c, some (.bus c.va)), s)
  else
    match c.xfer with
    | .copy src dst len => copyRun n c.slot src dst len (len / 2048 + 4) c s
    | .fill dst len pat => fillRun n c.slot dst len pat (len / 4096 + 2) c s
    | .gather desc =>
      if c.desc = [] then
        match dmaRead n c.slot desc 64 s with
        | (.error e, s) => ((c, some e), s)
        | (.ok bs, s) =>
          let d := rowWords 4 16 bs
          if gatherBad d then ((c, some (.err 0x0017 desc)), s)
          else gatherRun n c.slot desc d (dWord d 8) { c with desc := d } s
      else gatherRun n c.slot desc c.desc (dWord c.desc 8 - c.done) c s

/-! ## Host reads of a source (R399) -/

/-- A host read with the lowest free tag, where fewer than 1,024 are outstanding. -/
def hostIssue (slot : Nat) (q : HostAttr) (va addr len : Nat) (w : HostWaiter) (s : State) : State :=
  match (List.range 1024).find? (fun t => (tabFind t s.pci.reads).isNone) with
  | none => s
  | some t =>
    emit (.hostRead t addr len q)
      { s with pci := { s.pci with reads := tabSet t ⟨slot, q, va, addr, len, w⟩ s.pci.reads } }

/-- The channel has a host read outstanding. -/
def chanReading (c : Nat) (s : State) : Bool :=
  s.pci.reads.any (fun e => match e.2.waiter with | .chan k => k == c | _ => false)

/-- An ATS Translation Request of a channel (R170). -/
def chanAts (c : Nat) (ch : Chan) (va : Nat) (wr : Bool) (s : State) : State :=
  emit (.atsRequest c (slotOf ch.slot s).pasid (va / 4096 * 4096))
    (setChan c { ch with st := .atsWait, va := va, wr := wr } s)

/-- The source of a copy looked through from where its reads have come: HBM pages are passed, the next host page is read,
a TGT = 2 page without a translation sends its request, a failing page is left to the transfer. -/
def chanLook (c : Nat) : (fuel : Nat) → Chan → State → State
  | 0, ch, s => setChan c ch s
  | fuel + 1, ch, s =>
    match ch.xfer with
    | .copy src _ len =>
      if len ≤ ch.fetched then setChan c ch s
      else
        let va := src + ch.fetched
        let k := min (len - ch.fetched) (pageLeft va)
        match translate (rqDma (c / 16)) ch.slot va .rd s with
        | (.ok (.hbm _), s) => chanLook c fuel { ch with fetched := ch.fetched + k } s
        | (.ok (.host a q), s) => hostIssue ch.slot q va a k (.chan c) (setChan c ch s)
        | (.ok .needAts, s) => chanAts c ch va false s
        | (.error _, s) => setChan c ch s
    | _ => setChan c ch s

/-- A channel goes on, from its start or after a stall: the walks ahead (R155) and the reads of a host source. -/
def chanGo (c : Nat) (ch : Chan) (s : State) : State :=
  let ch := { ch with st := .running }
  match ch.xfer with
  | .copy src dst len =>
    let s := prefetch (rqDma (c / 16)) ch.slot (src + ch.done) (len - ch.done) s
    let s := prefetch (rqDma (c / 16)) ch.slot (dst + ch.done) (len - ch.done) s
    if chanReading c s then setChan c ch s else chanLook c (len / 4096 + 3) ch s
  | .fill dst len _ => setChan c ch (prefetch (rqDma (c / 16)) ch.slot (dst + ch.done) (len - ch.done) s)
  | .gather _ => setChan c ch s

/-! ## The end of a transfer, and stalls -/

/-- The host reads of a channel are forgotten. -/
def dropReads (c : Nat) (s : State) : State :=
  atsSettle { s with pci := { s.pci with reads := s.pci.reads.filter (fun e =>
      match e.2.waiter with | .chan k => k != c | _ => true) } }

/-- A job's ARITH_FLAGS take more flags (R59). -/
def addFlags (j fl : Nat) (s : State) : State :=
  match tabFind j s.fe.jobs with
  | some b => setJob j { b with flags := b.flags ||| fl } s
  | none => s

/-- The PRI Stop Marker of a killed context, or of one whose function is disabled, after its channels have stopped, where ATS is in use
(R168). DESIGN CHOICE (log 90): one for every such context, whether or not a channel of it had a transfer. -/
def stopMarker (slot : Nat) (s : State) : State :=
  if (slotOf slot s).atsEn && !(selfHosted s) && !(s.dma.chans.any (fun e => e.2.slot == slot)) then
    emit (.stopMarker (slotOf slot s).pasid) s
  else s

/-- The channel is free again: its posts and page requests are gone. -/
def chanFree (c : Nat) (s : State) : State :=
  let s := dropReads c s
  { s with
    dma := { s.dma with chans := tabDel c s.dma.chans },
    mmu := { s.mmu with posts := s.mmu.posts.filter (fun p => p.chan != c), pri := s.mmu.pri.filter (· != c) } }

/-- A transfer ends with a status, a reason and a detail. -/
def chanEnd (c : Nat) (ch : Chan) (status reason detail : Nat) (s : State) : State :=
  endJob ch.job status reason detail (chanFree c (addFlags ch.job ch.flags s))

/-- A resume token's next value (R166). -/
def nextToken (c : Nat) (s : State) : Nat × State :=
  let t := (tabGet 0 c s.dma.token + 1) % 65536
  (t, { s with dma := { s.dma with token := tabSet c t s.dma.token } })

/-- A non-retryable translation failure of a transfer: the record, the view and the end (R166, R367). -/
def chanFault (c : Nat) (ch : Chan) (va cause level : Nat) (wr : Bool) (s : State) : State :=
  let j := jobRef ch.job s
  let fn := (slotOf ch.slot s).func
  let s := viewEvent fn (if cause = cWriteDenied then 0 else 1) j.slot j.queue (nextSeq j s) s
  let s := postFault (rqDma (c / 16)) (c % 16) j va cause level (if wr then .wr else .rd) 0 s
  chanEnd c ch 1 0x0016 va s

/-- A retryable failure: the token increments; the record is posted and the channel stalls, or waits to post to a full ring. While the
ring is disabled the fault is non-retryable: no token, the record is dropped and the transfer ends (R164 to R166). -/
def chanStall (c : Nat) (ch : Chan) (va cause level : Nat) (wr : Bool) (s : State) : State :=
  let fn := (slotOf ch.slot s).func
  if !(bit (getReg pgMmu fn 0x134 s) 0) then
    let j := jobRef ch.job s
    let s := viewEvent fn 1 j.slot j.queue (nextSeq j s) s
    let s := fltDrop fn (rqDma (c / 16)) (c % 16) j
      (fun seq => fltRecord va j 0 c cause level wr false false seq 0 0 s) s
    chanEnd c ch 1 0x0016 va s
  else
    let s := postDrain fn (nextToken c s).2
    if fltSpace fn s then
      fltPost fn (retryRecord c ch.job va cause level wr s) (setChan c { ch with st := .stalled, va := va, wr := wr } s)
    else
      let s := setChan c { ch with st := .postWait, va := va, wr := wr } s
      { s with mmu := { s.mmu with posts := s.mmu.posts ++ [⟨c, fn, va, cause, level, wr⟩] } }

/-- What a stop makes of a channel. -/
def chanStop (c : Nat) (ch : Chan) (e : Stop) (s : State) : State :=
  match e with
  | .xl va x l wr => if retryable x then chanStall c ch va x l wr s else chanFault c ch va x l wr s
  | .ats va wr => chanAts c ch va wr s
  | .bus va =>
    let j := jobRef ch.job s
    let s := viewEvent (slotOf ch.slot s).func 6 j.slot j.queue (nextSeq j s) s
    chanEnd c ch 1 0x0015 va s
  | .err r d => chanEnd c ch 1 r d s
  | .wait => setChan c ch s

/-- DMA_TRANSFER_END: the transfer finishes, or ends with an error that is no translation failure (R166, R173, R174). -/
def transferEnd (n ch : Nat) (s : State) : State :=
  let c := n * 16 + ch
  match chanOf c s with
  | none => s
  | some x =>
    if x.st ≠ .running then s
    else
      match chanRun n x s with
      | ((x, none), s') => chanEnd c x 0 0 0 s'
      | ((_, some (.xl _ _ _ _)), _) => s
      | ((_, some .wait), _) => s
      | ((x, some e), s') => chanStop c x e s'

/-- DMA_XLATE_FAULT: the transfer reaches an access that fails translation (R166). -/
def xlateFault (n ch : Nat) (s : State) : State :=
  let c := n * 16 + ch
  match chanOf c s with
  | none => s
  | some x =>
    if x.st ≠ .running then s
    else
      match chanRun n x s with
      | ((x, some (.xl va k l wr)), s') => chanStop c x (.xl va k l wr) s'
      | ((x, some (.ats va wr)), s') => chanStop c x (.ats va wr) s'
      | _ => s

/-- The lowest-numbered free channel of an engine (R470). -/
def freeChan (n : Nat) (s : State) : Option Nat :=
  (List.range 16).find? (fun c => (tabFind (n * 16 + c) s.dma.chans).isNone)

/-- The first waiting transfer of an engine takes the lowest free channel (R470). -/
def assign (n : Nat) (s : State) : State :=
  match s.dma.waiting.find? (fun w => w.1 == n), freeChan n s with
  | some w, some c =>
    let s := { s with dma := { s.dma with waiting := s.dma.waiting.erase w } }
    chanGo (n * 16 + c) { job := w.2.1, slot := w.2.2.1, xfer := w.2.2.2 } s
  | _, _ => s

/-- A DMA job starts on its engine: it takes a channel, or waits in start order (R470). -/
def dmaStart (n job slot : Nat) (x : Xfer) (s : State) : State :=
  let others := s.dma.waiting.any (fun w => w.1 == n)
  let s := { s with dma := { s.dma with waiting := s.dma.waiting ++ [(n, job, slot, x)] } }
  if others then s else assign n s

/-- CH_RESUME: retry or abort, or a discard that is counted (R167). -/
def resumeWrite (n : Nat) (v : Word) (s : State) : State :=
  let c := n * 16 + fld v 0 4
  match chanOf c s with
  | none => count32 (pgDma n) 0 0x108 s
  | some x =>
    if x.st ≠ .stalled ∨ fld v 16 16 ≠ tabGet 0 c s.dma.token then count32 (pgDma n) 0 0x108 s
    else if bit v 4 then
      let j := jobRef x.job s
      let s := viewEvent (slotOf x.slot s).func 1 j.slot j.queue (nextSeq j s) s
      chanEnd c x 1 0x0016 x.va s
    else chanGo c x s

/-! ## ATS and PRI (R170 to R172) -/

/-- A translation granted by the host, as the shared buffer holds it: the range of the completion, at most 2 MiB. -/
def atsEnt (slot va : Nat) (c : AtsCpl) : TlbEnt :=
  let size := 2 ^ (max 12 (min 21 c.log2len))
  { slot := slot, base := va / size * size, size := size, pa := c.addr / size * size,
    r := c.read, w := c.write, x := false, pin := false, tgt := 2, level := 0, ats := true }

/-- The grant of an ATS completion at an address: Untranslated Address Only grants the page with the virtual address itself. -/
def atsGrant (slot va : Nat) (c : AtsCpl) : TlbEnt :=
  if c.untranslated then
    { atsEnt slot va { c with addr := va, log2len := 12 } with pa := va / 4096 * 4096, untranslated := true }
  else atsEnt slot va c

/-- The page requests that may be outstanding: 64, or what the host grants of them (R171). -/
def priLimit (s : State) : Nat := min 64 s.mmu.priAlloc

/-- A page request goes out while fewer than the host grants are outstanding; else its channel waits to send (R171). -/
def sendPage (c : Nat) (ch : Chan) (s : State) : State :=
  if s.mmu.pri.length < priLimit s then
    emit (.pageRequest c (slotOf ch.slot s).pasid (ch.va / 4096 * 4096))
      (setChan c { ch with st := .priWait } { s with mmu := { s.mmu with pri := s.mmu.pri ++ [c] } })
  else setChan c { ch with st := .priHold } s

/-- The level of the leaf that maps an address (Table 6-3). -/
def leafLevel (rq slot va : Nat) (s : State) : Nat :=
  match (findEnt rq slot va s).1 with
  | .ok e => e.level
  | .error _ => 0

/-- ATS_TRANSLATION_COMPLETION: a grant is held and the channel goes on; a failure takes the path of PRI_EN (R170,
R171). -/
def atsCompletion (n ch : Nat) (a : AtsCpl) (s : State) : State :=
  let c := n * 16 + ch
  match chanOf c s with
  | none => s
  | some x =>
    if x.st ≠ .atsWait then s
    else
      let enough := if x.wr then a.write else a.read
      if enough then
        let s := { s with mmu := { s.mmu with shared := s.mmu.shared.filter (fun o => !(o.ats && entHit x.slot x.va o)) } }
        chanGo c x (sharedAdd (atsGrant x.slot x.va a) s)
      else if (slotOf x.slot s).priEn then sendPage c x s
      else chanStall c x x.va cAtsMiss (leafLevel (rqDma n) x.slot x.va s) x.wr s

/-- PRI_RESPONSE: Success sends the Translation Request again; a failure posts PRI_FAILED. A page request that waited is
sent (R171). -/
def priResponse (n ch : Nat) (code : PriCode) (s : State) : State :=
  let c := n * 16 + ch
  match chanOf c s with
  | none => s
  | some x =>
    if x.st ≠ .priWait then s
    else
      let s := { s with mmu := { s.mmu with pri := s.mmu.pri.filter (· != c) } }
      let s :=
        match code with
        | .success => chanAts c x x.va x.wr s
        | _ => chanFault c x x.va cPriFailed (leafLevel (rqDma n) x.slot x.va s) x.wr s
      match s.dma.chans.find? (fun e => e.2.st = .priHold) with
      | some e => sendPage e.1 e.2 s
      | none => s

/-- ATS_INVALIDATE_REQUEST: the ATS entries of the PASID in the range are removed; the completion is sent once no host read that they
translated is outstanding. At most 32 requests are outstanding (R172). -/
def atsInvalidate (pasid va pages : Nat) (s : State) : State :=
  if selfHosted s || 32 ≤ s.mmu.atsInv.length then s
  else
    let gone := fun (e : TlbEnt) => e.ats && atsScope pasid va (pages * 4096) s e.slot e.base e.size
    atsSettle { s with mmu := { s.mmu with
      shared := s.mmu.shared.filter (fun e => !(gone e)), atsInv := s.mmu.atsInv ++ [(pasid, va, pages * 4096)] } }

/-! ## Invalidation (R157) -/

/-- A write of INV_CTL: discarded while GO reads 1; GO = 1 starts an invalidation. -/
def invCtlWrite (v : Word) (s : State) : State :=
  if bit (getReg pgMmu 0 0x108 s) 31 then s else writeByType pgMmu 0 0x108 v s

/-- A slot and a range are in the scope of the invalidation in progress. -/
def invScope (s : State) (slot base size : Nat) : Bool :=
  let c := getReg pgMmu 0 0x108 s
  let va := getPair pgMmu 0 0x10C s
  let len := max 1 (getFld pgMmu 0 0x114 0 24 s) * 4096
  if fld c 6 2 = 0 then slot == fld c 0 6 && base < va + len && va < base + size
  else if fld c 6 2 = 1 then slot == fld c 0 6
  else true

/-- INVALIDATE_DONE: the accesses already translated in the scope are performed, its entries are gone, and GO clears; while a host
read of the scope is outstanding it cannot happen. -/
def invDone (s : State) : State :=
  if bit (getReg pgMmu 0 0x108 s) 31 && !(readsInScope (invScope s) s) then
    let s := wbFlushScope (fun e => invScope s e.slot (e.line * 64) 64) s
    setFld pgMmu 0 0x108 31 1 0 (dropEntries (invScope s) s)
  else s

/-! ## Fault rings (R163 to R165) -/

/-- Every waiting post of a function is dropped and its transfer ends (R165). -/
def dropWaiting (fn : Nat) (s : State) : State :=
  (s.mmu.posts.filter (fun p => p.fn == fn)).foldl (fun s p =>
    match chanOf p.chan s with
    | none => s
    | some x =>
      let j := jobRef x.job s
      let s := viewEvent fn 1 j.slot j.queue (nextSeq j s) s
      let s := fltDrop fn (rqDma (p.chan / 16)) (p.chan % 16) j
        (fun seq => fltRecord p.va j 0 p.chan p.cause p.level p.write false false seq 0 0 s) s
      chanEnd p.chan x 1 0x0016 p.va s) s

/-- A write of FLTQ_CTL of the selected function (R161, R165, Table 6-6): EN from 0 to 1 sets the counts to 0 and clears
OVF; EN from 1 to 0 drops the waiting posts; LOG2SIZE is fixed while EN is 1. -/
def fltqCtlWrite (v : Word) (s : State) : State :=
  match bankOf pgMmu 0x134 s with
  | none => s
  | some fn =>
    let cur := getReg pgMmu fn 0x134 s
    let was := bit cur 0
    let v := if selfHosted s then v &&& ~~~ 2#32 else v
    let v := if was then putFld v 8 4 (fld cur 8 4) else v
    let s := writeByType pgMmu fn 0x134 v s
    if !was && bit v 0 then
      fltSetFull fn (setFld pgMmu fn 0x14C 1 1 0 (setReg pgMmu fn 0x140 0 (setReg pgMmu fn 0x144 0 s)))
    else if was && !(bit v 0) then dropWaiting fn s
    else fltSetFull fn s

/-- A write of FLTQ_CONS of the selected function (R163). -/
def fltqConsWrite (v : Word) (s : State) : State :=
  match bankOf pgMmu 0x144 s with
  | none => s
  | some fn =>
    let w := fltWrap fn s
    let held := ((getReg pgMmu fn 0x140 s).toNat + w - v.toNat % w) % w
    if w ≤ v.toNat ∨ 2 ^ fltLog2 fn s - 1 < held then s else fltSetFull fn (setReg pgMmu fn 0x144 v s)

/-! ## Meanings -/

/-- INVALIDATE (R157). -/
def execInvalidate (r : Requester) (v : Word) (s : State) : Out :=
  toNext (if bit v 31 then blockWrite r pgMmu 0x108 (invCtlWrite v) s else s)

/-- INVALIDATE_DONE (R157). -/
def execInvalidateDone (s : State) : Out := toNext (invDone s)

/-- FAULT_POST_WAITING (R164). -/
def execFaultPostWaiting (f : Fin 64) (s : State) : Out := toNext (postWaiting f.val s)

/-- FLTQ_ENABLE (R165): a write that sets EN. -/
def execFltqEnable (r : Requester) (v : Word) (s : State) : Out :=
  toNext (if bit v 0 then blockWrite r pgMmu 0x134 (fltqCtlWrite v) s else s)

/-- FLTQ_DISABLE (R165): a write that clears EN. -/
def execFltqDisable (r : Requester) (v : Word) (s : State) : Out :=
  toNext (if bit v 0 then s else blockWrite r pgMmu 0x134 (fltqCtlWrite v) s)

/-- FLTQ_CONS_WRITE (R163). -/
def execFltqConsWrite (r : Requester) (v : Word) (s : State) : Out :=
  toNext (blockWrite r pgMmu 0x144 (fltqConsWrite v) s)

/-- DMA_CHANNEL_ASSIGN (R470). -/
def execDmaChannelAssign (n : Fin 4) (s : State) : Out := toNext (assign n.val s)

/-- DMA_XLATE_FAULT (R166). -/
def execDmaXlateFault (n : Fin 4) (ch : Fin 16) (s : State) : Out := toNext (xlateFault n.val ch.val s)

/-- DMA_TRANSFER_END (R166). -/
def execDmaTransferEnd (n : Fin 4) (ch : Fin 16) (s : State) : Out := toNext (transferEnd n.val ch.val s)

/-- CH_RESUME (R167). -/
def execChResume (r : Requester) (n : Fin 4) (v : Word) (s : State) : Out :=
  toNext (blockWrite r (pgDma n.val) 0x100 (resumeWrite n.val v) s)

/-- ATS_TRANSLATION_COMPLETION (R170, R171). -/
def execAtsTranslationCompletion (n : Fin 4) (ch : Fin 16) (c : AtsCpl) (s : State) : Out :=
  toNext (atsCompletion n.val ch.val c s)

/-- PRI_RESPONSE (R171). -/
def execPriResponse (n : Fin 4) (ch : Fin 16) (c : PriCode) (s : State) : Out := toNext (priResponse n.val ch.val c s)

/-- ATS_INVALIDATE_REQUEST (R172). -/
def execAtsInvalidateRequest (pasid : BitVec 20) (va : Nat) (pages : Nat) (s : State) : Out :=
  toNext (atsInvalidate pasid.toNat va pages s)

end Sys2Proof.Machine
end

