-- ==== Sys2Proof/Machine/Kernel.lean ====
section
/-!
DEFINITION. The life of compute work on the cores: kernels, blocks and groups, their ends, and the faults that end a job
(R64, R92 to R95, R108, R128, R187).
-/
namespace Sys2Proof.Machine

/-- A kernel by its job. -/
def kernelOf (j : Nat) (s : State) : Option Kernel := tabFind j s.cpt.kernels

/-- A kernel set. -/
def setKernel (j : Nat) (k : Kernel) (s : State) : State :=
  { s with cpt := { s.cpt with kernels := tabSet j k s.cpt.kernels } }

/-- Blocks of a kernel's grid. -/
def kernelBlocks (k : Kernel) : Nat := k.gx * k.gy * k.gz

/-- A block by its number. -/
def blockOf (b : Nat) (s : State) : Option Block := tabFind b s.cpt.blocks

/-- A block set. -/
def setBlock (b : Nat) (v : Block) (s : State) : State :=
  { s with cpt := { s.cpt with blocks := tabSet b v s.cpt.blocks } }

/-- A group of a core by its slot. -/
def groupOf (p g : Nat) (s : State) : Option Group := tabFind g (coreOf p s).groups

/-- A group set. -/
def setGroup (p g : Nat) (v : Group) (s : State) : State :=
  setCore p { coreOf p s with groups := tabSet g v (coreOf p s).groups } s

/-- The ME operations of a core, running and pending. -/
def coreOps (p : Nat) (s : State) : List MeOp :=
  ((coreOf p s).mes.map (fun m => m.2.run.toList ++ m.2.pend.toList)).flatten

/-- Cores that hold anything. -/
def usedCores (s : State) : List Nat := s.cpt.cores.map (·.1)

/-- Some core holds an ME operation of the job. -/
def jobHasOps (j : Nat) (s : State) : Bool := (usedCores s).any (fun p => (coreOps p s).any (fun o => o.job == j))

/-- An ME operation of the block is queued or running. -/
def blockHasOps (b : Nat) (s : State) : Bool := (usedCores s).any (fun p => (coreOps p s).any (fun o => o.block == b))

/-- A block has a live group. -/
def blockLive (b : Nat) (s : State) : Bool :=
  (usedCores s).any (fun p => (coreOf p s).groups.any (fun g => g.2.block == b))

/-- A job has ended and awaits its record. -/
def jobEnded (j : Nat) (s : State) : Bool :=
  match tabFind j s.fe.jobs with
  | some b => b.fin.isSome
  | none => true

/-- The logical index of a core as DETAIL gives it (Table 7-5). -/
def lcore (p : Nat) (s : State) : Nat := (logicalOf p s).getD 0x3F

/-- A block leaves its core: its local memory is zeroed (R95). -/
def freeBlock (b : Nat) (s : State) : State :=
  lmClear b { s with cpt := { s.cpt with blocks := tabDel b s.cpt.blocks } }

/-- A core forgets a job once none of the job's operations is left on it: NTRAP_CTL.EN follows the jobs that remain (R60, R86). -/
def coreForget (j : Nat) (s : State) (p : Nat) : State :=
  let c := coreOf p s
  if c.jobs.contains j && !((coreOps p s).any (fun o => o.job == j)) then
    let left := c.jobs.filter (· != j)
    let en := left.any (fun x => match kernelOf x s with | some k => k.ntrap | none => false)
    setFld (pgSc p) 0 0x410 0 1 (b2n en) (setCore p { c with jobs := left, inv := c.inv.filter (· != j) } s)
  else s

/-- An ME with the operations that `f` keeps, in their order: a kept one moves up (R62). -/
def meKeep (f : MeOp → Bool) (m : Me) : Me :=
  match m.run.filter f with
  | some r => { m with run := some r, pend := m.pend.filter f }
  | none => { m with run := m.pend.filter f, pend := none }

/-- The cores that have run a job: a pass's cores, or its kernel's. -/
def workCores (j : Nat) (s : State) : List Nat :=
  match tabFind j s.tlr.passes, kernelOf j s with
  | some x, _ => x.cores
  | none, some k => k.cores
  | none, none => []

/-- The kernel boundary: every core that ran the job writes out its buffer (R128). -/
def kernelFlush (j : Nat) (s : State) : State := (workCores j s).foldl (fun s p => wbFlushAll p s) s

/-- A kernel all of whose blocks have finished, with no ME operation left, ends OK (R64, R128). -/
def kernelCheck (j : Nat) (s : State) : State :=
  match kernelOf j s with
  | none => s
  | some k =>
    if k.finished < kernelBlocks k || jobHasOps j s || k.pass then s
    else
      let s := kernelFlush j s
      let s := k.cores.foldl (coreForget j) s
      endJob j 0 0 0 s

/-- The blocks of a block cluster of a job. -/
def clusterBlocks (j bcl : Nat) (s : State) : List (Nat × Block) :=
  s.cpt.blocks.filter (fun e => e.2.job == j && e.2.bcl == bcl)

/-- A block without live groups: when every block of its cluster has exited and none has an ME operation left, they leave
their cores (R108). -/
def blockCheck (b : Nat) (s : State) : State :=
  match blockOf b s with
  | none => s
  | some x =>
    let peers := clusterBlocks x.job x.bcl s
    if peers.any (fun e => blockLive e.1 s || blockHasOps e.1 s) then s
    else
      let s := peers.foldl (fun s e => freeBlock e.1 s) s
      if x.pix then s else
      match kernelOf x.job s with
      | some k => kernelCheck x.job (setKernel x.job { k with finished := k.finished + peers.length } s)
      | none => s

/-- The reservation of a pass on a core, in bytes of local memory and registers (R257). -/
def passRes (x : Pass) : Nat × Nat :=
  let w := (nth 0 x.desc 1).toNat
  ((w / 16 % 16 + w / 256 % 16) * 16384, (nth 0 x.desc 9).toNat % 128 * 1024)

/-- A pass gives up its reservation on some cores. -/
def passUnreserve (j : Nat) (ps : List Nat) (s : State) : State :=
  match tabFind j s.tlr.passes with
  | none => s
  | some x =>
    let r := passRes x
    let s := (x.held.filter (fun p => ps.contains p)).foldl (fun s p =>
      let c := coreOf p s
      setCore p { c with carve := c.carve - r.1, psRes := c.psRes - r.2 } s) s
    { s with tlr := { s.tlr with
      passes := tabSet j { x with held := x.held.filter (fun p => !(ps.contains p)) } s.tlr.passes } }

/-- The work of a job on the cores stops: stores are performed, groups and operations that have not started are gone;
operations that run finish (R76, R187). -/
def stopWork (j : Nat) (s : State) : State :=
  let s := kernelFlush j s
  let mine := fun (p g : Nat) =>
    match groupOf p g s with
    | some x => x.job == j
    | none => false
  let s0 := s
  let s := { s with pci := { s.pci with reads := s.pci.reads.filter (fun e =>
      match e.2.waiter with
      | .thread p g _ _ _ _ => !(mine p g)
      | _ => true) } }
  let s := atsSettle s
  let s := (usedCores s).foldl (fun s p =>
    let c := coreOf p s
    let keep := fun (o : MeOp) => o.job != j || o.started
    setCore p { c with
      groups := c.groups.filter (fun g => g.2.job != j),
      tiles := c.tiles.filter (fun w => w.job != j),
      mes := c.mes.map (fun m => (m.1, meKeep keep m.2)) } s) s
  let s := (s0.cpt.blocks.filter (fun e => e.2.job == j)).foldl (fun s e =>
    if blockHasOps e.1 s then setBlock e.1 { e.2 with exited := true } s else freeBlock e.1 s) s
  let s := passUnreserve j (workCores j s) s
  { s with
    cpt := { s.cpt with saved := s.cpt.saved.filter (fun x => x.job != j) },
    tlr := { s.tlr with midtile := s.tlr.midtile.filter (fun x => x.job != j) } }

/-- A compute job ends with a status: its work stops (R187). -/
def endCompute (j status reason detail : Nat) (s : State) : State :=
  if jobEnded j s then s
  else
    let s := stopWork j s
    let s := (workCores j s).foldl (coreForget j) s
    endJob j status reason detail s

/-- A job ends with FAULT at an instruction of core `p` (Table 7-5). -/
def faultInsn (p j reason pc : Nat) (s : State) : State :=
  endCompute j 1 reason (lcore p s + pc % 2 ^ 32 * 2 ^ 32) s

/-- A job ends with FAULT through a device source: the function's view records kind 6 (R363, R367). -/
def faultDevice (j reason detail : Nat) (s : State) : State :=
  if jobEnded j s then s
  else
    let r := jobRef j s
    endCompute j 1 reason detail (viewEvent (slotOf r.slot s).func 6 r.slot r.queue (nextSeq r s) s)

/-- A job ends with a failed access (R159, Table 5-4). -/
def faultAccess (rq j va : Nat) (k : XKind) (e : AccErr) (s : State) : State :=
  if jobEnded j s then s
  else
    let (rd, s) := accessFault rq (jobRef j s) va k e s
    endCompute j 1 rd.1 rd.2 s

/-- A job's first work on a core: the core's figures of the running job clear, and NaN-trap is set up (R59, R86, R87,
Table 3-9). -/
def coreBegin (p j : Nat) (s : State) : State :=
  let c := coreOf p s
  if c.jobs.contains j then s
  else
    let trap := match kernelOf j s with | some k => k.ntrap | none => false
    let s := setCore p { c with jobs := c.jobs ++ [j], me8 := 0, me16 := 0 } s
    let s := setReg (pgSc p) 0 0x404 0 (setReg (pgSc p) 0 0x424 0 (setReg (pgSc p) 0 0x428 0 (setReg (pgSc p) 0 0x42C 0 s)))
    if trap then setFld (pgSc p) 0 0x410 31 1 0 (setFld (pgSc p) 0 0x410 0 1 1 s) else s

end Sys2Proof.Machine
end

