-- ==== Sys2Proof/Machine/Fnc.lean ====
section
/-!
DEFINITION. The fence unit: fences, handles, slot counts and release records (R180, R197 to R206).
-/
namespace Sys2Proof.Machine

/-! ## Release records (R203) -/

/-- 2^k slots of a function's release ring. -/
def rrSize (fn : Nat) (s : State) : Nat := 2 ^ (max 6 (min 12 (getFld pgFnc fn 0x11C 8 4 s)))

/-- The ring takes a record now: it is enabled and not full. -/
def rrRoom (fn : Nat) (s : State) : Bool :=
  bit (getReg pgFnc fn 0x11C s) 0 &&
  (getReg pgFnc fn 0x128 s - getReg pgFnc fn 0x12C s).toNat < rrSize fn s

/-- The 16 bytes of a release record. -/
def relRecord (x : Release) (prod : Word) : List Byte :=
  toLE 4 (x.typ + x.slot * 2 ^ 4 + x.ctxId * 2 ^ 10 + x.ofFn * 2 ^ 22) ++ toLE 4 x.index ++ toLE 4 x.gen ++
  toLE 4 prod.toNat

/-- A record posted into its ring. -/
def rrPost (x : Release) (s : State) : State :=
  let prod := getReg pgFnc x.fn 0x128 s
  let host := bit (getReg pgFnc x.fn 0x11C s) 1 && !(selfHosted s)
  let s := ringPut x.fn host (getPair pgFnc x.fn 0x120 s + 16 * (prod.toNat % rrSize x.fn s)) (relRecord x prod) s
  let s := setReg pgFnc x.fn 0x128 (prod + 1) s
  if bit (getReg pgFnc x.fn 0x11C s) 2 then sendMsix 0 (getFld pgFnc x.fn 0x11C 16 11 s) s else s

/-- RR_HELD counts the releases that wait. -/
def rrCountHeld (fn : Nat) (s : State) : State :=
  setReg pgFnc fn 0x130 (w32 (min 65535 (s.fnc.held.filter (fun h => h.fn == fn)).length)) s

/-- A release: posted, or held while the ring is full or disabled, in order (R203). -/
def release (x : Release) (s : State) : State :=
  if rrRoom x.fn s && !(s.fnc.held.any (fun h => h.fn == x.fn)) then rrPost x s
  else rrCountHeld x.fn { s with fnc := { s.fnc with held := s.fnc.held ++ [x] } }

/-- RELEASE_RECORD_HELD_POST: the oldest held release of a function is posted when there is space (R203). -/
def postHeld (fn : Nat) (s : State) : State :=
  match s.fnc.held.find? (fun h => h.fn == fn) with
  | none => s
  | some x =>
    if rrRoom fn s then rrCountHeld fn (rrPost x { s with fnc := { s.fnc with held := s.fnc.held.erase x } })
    else s

/-! ## Fences (R197, R198) -/

/-- A fence entry (Table 7-10). -/
structure FenceEnt where
  valid : Bool
  signalled : Bool
  shared : Bool
  orphan : Bool
  status : Nat
  ownerSlot : Nat
  ownerFunc : Nat
  gen : Nat
  refcnt : Nat
  sigCount : Nat
deriving DecidableEq, Repr

/-- Entries of the fence table (R209). -/
def fenceCount (s : State) : Nat := 2 ^ (max 10 (min 20 (getFld pgFnc 0 0x108 0 5 s)))

/-- Physical address of a fence entry (R197). -/
def fenceAddr (i : Nat) (s : State) : Nat := getPair pgFnc 0 0x100 s + 16 * i

/-- A fence entry from its words. -/
def fenceOfWords (a b c d : Word) : FenceEnt :=
  { valid := bit a 0, signalled := bit a 1, shared := bit a 2, orphan := bit a 3, status := fld a 8 8,
    ownerSlot := fld a 16 6, ownerFunc := fld a 22 6, gen := fld b 0 16, refcnt := c.toNat, sigCount := d.toNat }

/-- A 32-bit word of HBM. -/
def hbmWord (a : Nat) (s : State) : Word := w32 (hbmNat a 4 s)

/-- A fence entry; an index past the table, or an entry that cannot be read, is not VALID (R200). -/
def fenceGet (i : Nat) (s : State) : FenceEnt :=
  if fenceCount s ≤ i ∨ hbmBad (fenceAddr i s) 16 s ∨ tabFind i s.fnc.recErr = some true then fenceOfWords 0 0 0 0
  else
    let a := fenceAddr i s
    fenceOfWords (hbmWord a s) (hbmWord (a + 4) s) (hbmWord (a + 8) s) (hbmWord (a + 12) s)

/-- The 16 bytes of a fence entry. -/
def fenceBytes (e : FenceEnt) : List Byte :=
  toLE 4 (b2n e.valid + 2 * b2n e.signalled + 4 * b2n e.shared + 8 * b2n e.orphan + e.status * 2 ^ 8
    + e.ownerSlot * 2 ^ 16 + e.ownerFunc * 2 ^ 22) ++ toLE 4 e.gen ++ toLE 4 e.refcnt ++ toLE 4 e.sigCount

/-- A record on die written whole: its error is gone, unless an injection is armed on its page (R135, R369). -/
def dieInject (pg i : Nat) (l : Tab Bool) (s : State) : Tab Bool × State :=
  match takeInjection pg s with
  | (some ue, s) => (tabSet i ue l, s)
  | (none, s) => (tabDel i l, s)

/-- A fence entry set, through the fence record on die (R134). -/
def fencePut (i : Nat) (e : FenceEnt) (s : State) : State :=
  let (l, s) := dieInject pgFnc i s.fnc.recErr s
  hbmPut (fenceAddr i s) (fenceBytes e) { s with fnc := { s.fnc with recErr := l } }

/-- The fence unit reads an entry: an error of its record on die and of its place in HBM takes effect (R135, R139). Where the
entry cannot be read, the reason and detail of BUS_ERROR, with one non-retryable record (R200, Table 5-4). DESIGN CHOICE (log
36): DETAIL and the record's VA hold the entry's physical address. -/
def fenceFails (j : JobRef) (i : Nat) (s : State) : Option (Nat × Nat) × State :=
  if fenceCount s ≤ i then (none, s)
  else
    let a := fenceAddr i s
    let (x, s) := hbmRead a 16 s
    let (bad, s) :=
      match tabFind i s.fnc.recErr with
      | none => (false, s)
      | some true => (true, faultAt 282 pgFnc 0 s)
      | some false => (false, { s with fnc := { s.fnc with recErr := tabDel i s.fnc.recErr } })
    if x.isNone || bad then
      let (rd, s) := accessFault rqFnc j a .rd .bus s
      (some rd, s)
    else (none, s)

/-- The function's window holds the index (R197). -/
def inWindow (fn i : Nat) (s : State) : Bool :=
  let b := (getReg pgFnc fn 0x110 s).toNat
  b ≤ i && i < b + (getReg pgFnc fn 0x114 s).toNat

/-- A function may name a fence with a generation (R198). -/
def mayName (fn i gen : Nat) (s : State) : Bool :=
  let e := fenceGet i s
  e.valid && e.gen == gen &&
  (inWindow fn i s ||
    (e.shared && getReg pgFnc fn 0x118 s == getReg pgFnc e.ownerFunc 0x118 s && getReg pgFnc fn 0x118 s != 0))

/-- A function names a fence whose entry cannot be read. DESIGN CHOICE (log 36): outside the function's window the name fails
as R198 has it fail, which does not reveal whether the entry exists. -/
def nameFails (fn : Nat) (j : JobRef) (i : Nat) (s : State) : Option (Nat × Nat) × State :=
  if inWindow fn i s then fenceFails j i s else (none, s)

/-- SIGNAL and FENCE_RESET also need ownership (R198). -/
def maySignal (fn i gen : Nat) (s : State) : Bool :=
  let e := fenceGet i s
  mayName fn i gen s && e.ownerFunc == fn && !e.orphan

/-- A status delivered to every WAIT registered on the fence (Table 7-11). -/
def deliver (i st : Nat) (s : State) : State :=
  { s with fnc := { s.fnc with waits := s.fnc.waits.map (fun w =>
      if w.index = i ∧ w.got = none then { w with got := some st } else w) } }

/-- A fence signalled with a status: the first status stands (Table 7-11). A wait that asks for it resets the fence in the
same operation (R430). -/
def fenceSignal (i st : Nat) (s : State) : State :=
  let e := fenceGet i s
  if e.valid && !e.signalled then
    let n := (e.sigCount + 1) % 2 ^ 32
    if s.fnc.waits.any (fun w => w.index == i && w.got == none && w.reset) then
      deliver i st (fencePut i { e with status := 0, sigCount := n } s)
    else deliver i st (fencePut i { e with signalled := true, status := st, sigCount := n } s)
  else s

/-- A fence reset (Table 7-11). -/
def fenceReset (i : Nat) (s : State) : State :=
  let e := fenceGet i s
  if e.valid && e.signalled then fencePut i { e with signalled := false, status := 0 } s else s

/-- The owner slot is killed or released: an unsignalled fence of it is ABANDONED, and every one of it is an ORPHAN
(R180, R204). -/
def fenceAbandon (slot : Nat) (s : State) (i : Nat) : State :=
  let e := fenceGet i s
  if e.valid && e.ownerSlot == slot then
    let s := if e.signalled then s else fenceSignal i 1 s
    fencePut i { fenceGet i s with orphan := true } s
  else s

/-- The indices of a function's window. -/
def windowIdx (fn : Nat) (s : State) : List Nat :=
  span (getReg pgFnc fn 0x110 s).toNat (getReg pgFnc fn 0x114 s).toNat

/-- Every fence of the slot abandoned. -/
def abandonSlot (slot : Nat) (s : State) : State := (windowIdx (slotOf slot s).func s).foldl (fenceAbandon slot) s

/-- One reference of a fence dropped: at 0 the fence is destroyed, its record posted and its WAITs end (R200, Table
7-11). Answers the RESULT of Table 18-6. The record's SLOT is the fence's owner slot. -/
def fenceDrop (i : Nat) (s : State) : Nat × State :=
  let e := fenceGet i s
  if e.refcnt = 0 then (4, s)
  else if e.refcnt = 1 then
    let s := deliver i 256 (fencePut i { e with refcnt := 0, valid := false } s)
    let fn := e.ownerFunc
    (0, release ⟨fn, 2, e.ownerSlot, (slotOf e.ownerSlot s).ctxId, fn, i, e.gen⟩ s)
  else (0, fencePut i { e with refcnt := e.refcnt - 1 } s)

/-! ## Slots (R180) -/

/-- A slot's REFCNT, in the state and in the context record (Table 7-1). The context is in use at that moment (R181). -/
def setRef (k n : Nat) (s : State) : State :=
  let c := slotOf k s
  hbmPut (c.ctx + 0x30) (toLE 4 n) (setSlot k { c with refcnt := n, lastUse := s.fe.us } s)

/-- The valid bits of a slot's cluster-memory partition cleared in all 16 clusters (R119). -/
def clearPartition (c : Slot) (s : State) : State :=
  (List.range 16).foldl (fun s n =>
    let a := n * 2 ^ 22 + c.cmemBase * 65536
    let z := c.cmemSize * 65536
    { s with
      mem := { s.mem with cmem := memClear a z s.mem.cmem },
      cpt := { s.cpt with cmErr := s.cpt.cmErr.filter (fun e => e.1 * 8 < a || a + z ≤ e.1 * 8) } }) s

/-- A slot's REFCNT increased by one. -/
def slotAcquire (k : Nat) (s : State) : State := setRef k ((slotOf k s).refcnt + 1) s

/-! ## Handles (R201, R202) -/

/-- A handle entry (Table 7-12). -/
structure HandleEnt where
  valid : Bool
  gen : Nat
  refcnt : Nat
  base : Nat
  size : Nat
deriving DecidableEq, Repr

/-- A handle entry of the slot's table, read by the fence unit through translation (R200, R201). -/
def handleGet (slot idx : Nat) (s : State) : Except AccErr HandleEnt × State :=
  match vaRead rqFnc slot ((slotOf slot s).htbl + 16 * idx) 16 .rd s with
  | (.error e, s) => (.error e, s)
  | (.ok bs, s) =>
    let w := fun k => w32 (leNat ((bs.drop (4 * k)).take 4))
    (.ok { valid := bit (w 0) 0, gen := fld (w 0) 16 16, refcnt := (w 1).toNat, base := (w 2).toNat * 65536,
           size := (w 3).toNat * 65536 }, s)

/-- What a handle check gives: the object, or a reason with its detail (Table 7-5). -/
abbrev HandleRes := Except (Nat × Nat) HandleEnt

/-- The virtual address of a handle entry. -/
def handleVa (slot idx : Nat) (s : State) : Nat := (slotOf slot s).htbl + 16 * idx

/-- BAD_HANDLE with its detail: the handle and the generation named. -/
def badHandle (h : Word) : Nat × Nat := (0x0003, h.toNat + fld h 16 16 * 2 ^ 32)

/-- A handle named by a job or a command is checked (R201, R202). -/
def checkHandle (j : JobRef) (h : Word) (s : State) : HandleRes × State :=
  let idx := fld h 0 16
  if idx = 0 ∨ 2 ^ (slotOf j.slot s).htblLog2 ≤ idx then (.error (badHandle h), s)
  else
    match handleGet j.slot idx s with
    | (.error e, s) =>
      let (rd, s) := accessFault rqFnc j (handleVa j.slot idx s) .rd e s
      (.error rd, s)
    | (.ok e, s) => if e.valid && e.gen == fld h 16 16 then (.ok e, s) else (.error (badHandle h), s)

/-- A range of an object (R202): its virtual address, or HANDLE_RANGE. -/
def handleRange (h : Word) (e : HandleEnt) (off len : Nat) : Except (Nat × Nat) Nat :=
  if e.size < off + len then .error (0x0004, h.toNat + off % 2 ^ 32 * 2 ^ 32) else .ok (e.base + off)

/-- A handle and a range checked together. -/
def checkRange (j : JobRef) (h : Word) (off len : Nat) (s : State) : Except (Nat × Nat) Nat × State :=
  match checkHandle j h s with
  | (.error e, s) => (.error e, s)
  | (.ok e, s) => (handleRange h e off len, s)

/-- A handle count changed by the fence unit: the new count written; at 0 the entry is destroyed and its record posted
(R200). -/
def handleSet (slot idx : Nat) (e : HandleEnt) (n : Nat) (s : State) : Except AccErr Unit × State :=
  let va := handleVa slot idx s
  match vaWrite rqFnc slot (va + 4) (toLE 4 n) s with
  | (.error e, s) => (.error e, s)
  | (.ok _, s) =>
    if n = 0 then
      match vaWrite rqFnc slot va (toLE 4 (e.gen * 2 ^ 16)) s with
      | (.error e, s) => (.error e, s)
      | (.ok _, s) =>
        let c := slotOf slot s
        (.ok (), release ⟨c.func, 1, slot, c.ctxId, c.func, idx, e.gen⟩ s)
    else (.ok (), s)

/-- One reference of a handle dropped (R199, R200): the RESULT. An entry that cannot be reached gives INVALID with a fault
record. -/
def handleDrop (j : JobRef) (idx gen : Nat) (s : State) : Nat × State :=
  if idx = 0 ∨ 2 ^ (slotOf j.slot s).htblLog2 ≤ idx then (1, s)
  else
    match handleGet j.slot idx s with
    | (.error e, s) => (1, (accessFault rqFnc j (handleVa j.slot idx s) .rd e s).2)
    | (.ok e, s) =>
      if !e.valid || e.gen != gen then (1, s)
      else if e.refcnt = 0 then (4, s)
      else
        match handleSet j.slot idx e (e.refcnt - 1) s with
        | (.ok _, s) => (0, s)
        | (.error x, s) => (1, (accessFault rqFnc j (handleVa j.slot idx s) .wr x s).2)

/-- One reference of a handle added (R199, R200): the RESULT, or the reason and detail of a failed access. -/
def handleAcquire (j : JobRef) (idx gen : Nat) (s : State) : Except (Nat × Nat) Nat × State :=
  if idx = 0 ∨ 2 ^ (slotOf j.slot s).htblLog2 ≤ idx then (.ok 1, s)
  else
    match handleGet j.slot idx s with
    | (.error e, s) => let (rd, s) := accessFault rqFnc j (handleVa j.slot idx s) .rd e s; (.error rd, s)
    | (.ok e, s) =>
      if !e.valid || e.gen != gen then (.ok 1, s)
      else if 2 ^ 32 - 1 ≤ e.refcnt then (.ok 3, s)
      else
        match handleSet j.slot idx e (e.refcnt + 1) s with
        | (.ok _, s) => (.ok 0, s)
        | (.error x, s) => let (rd, s) := accessFault rqFnc j (handleVa j.slot idx s) .wr x s; (.error rd, s)

/-- One reference of a handle added for the object interface: the RESULT. -/
def handleAdd (j : JobRef) (idx gen : Nat) (s : State) : Nat × State :=
  match handleAcquire j idx gen s with
  | (.ok r, s) => (r, s)
  | (.error _, s) => (1, s)

/-! ## The object interface (R199, R200) -/

/-- The function that owns a slot's registers: FE.SLOT_CTL.FUNC (R30, R178). -/
def slotOwner (k : Nat) (s : State) : Nat := getFld pgFe k 0x110 0 6 s

/-- The fields of OBJ_SEL: index, slot, kind, shared. -/
def objIndex (f : Nat) (s : State) : Nat := getFld pgFn f 0x120 0 20 s
def objSlot (f : Nat) (s : State) : Nat := getFld pgFn f 0x120 20 6 s
def objKind (f : Nat) (s : State) : Nat := getFld pgFn f 0x120 26 2 s
def objShared (f : Nat) (s : State) : Bool := bit (getReg pgFn f 0x120 s) 28

/-- OBJ_RES: a result and a generation. -/
def objResult (f res gen : Nat) (s : State) : State := setReg pgFn f 0x128 (w32 (res + gen * 2 ^ 16)) s

/-- The job name of an object-interface access: none (R471). -/
def objRef (f : Nat) (s : State) : JobRef := ⟨objSlot f s, 0, 0, true⟩

/-- What every operation of the interface checks first (R199): the slot belongs to the function, and the function may
name the fence; the answer is DENIED otherwise. -/
def objDenied (f : Nat) (s : State) : Bool :=
  slotOwner (objSlot f s) s != f ||
  (objKind f s == 1 && !(inWindow f (objIndex f s) s) &&
    !((fenceGet (objIndex f s) s).shared &&
      getReg pgFnc f 0x118 s == getReg pgFnc (fenceGet (objIndex f s) s).ownerFunc 0x118 s &&
      getReg pgFnc f 0x118 s != 0))

/-- A fence of the interface: valid with the named generation. -/
def objFenceOk (f gen : Nat) (s : State) : Bool :=
  let e := fenceGet (objIndex f s) s
  e.valid && e.gen == gen

/-- An operation on the interface performed for the function's region (R199): the word written must carry the
operation's OP. A fence entry that cannot be read gives INVALID (R200). -/
def objOp (r : Requester) (f : Nat) (v : Word) (op : Nat) (act : Nat → State → Nat × Nat × State) (s : State) : State :=
  if fld v 0 3 ≠ op then s
  else
    regionWrite r f (fun s =>
      if objKind f s = 3 then objResult f 1 0 s
      else if objDenied f s then objResult f 2 0 s
      else
        match (if objKind f s = 1 then nameFails f (objRef f s) (objIndex f s) s else (none, s)) with
        | (some _, s) => objResult f 1 (fld v 16 16) s
        | (none, s) =>
          let (res, gen, s) := act (fld v 16 16) s
          objResult f res gen s) s

/-- ACQUIRE (R199, R200). -/
def objAcquire (r : Requester) (f : Nat) (v : Word) (s : State) : State :=
  objOp r f v 0 (fun gen s =>
    if objKind f s = 0 then
      let (res, s) := handleAdd (objRef f s) (objIndex f s) gen s
      (res, gen, s)
    else if objKind f s = 1 then
      let i := objIndex f s
      let e := fenceGet i s
      if !(objFenceOk f gen s) then (1, gen, s)
      else if 2 ^ 32 - 1 ≤ e.refcnt then (3, gen, s)
      else (0, gen, fencePut i { e with refcnt := e.refcnt + 1 } s)
    else (1, gen, s)) s

/-- SIGNAL (R199, Table 7-11). -/
def objSignal (r : Requester) (f : Nat) (v : Word) (s : State) : State :=
  objOp r f v 2 (fun gen s =>
    if objKind f s ≠ 1 then (1, gen, s)
    else if !(objFenceOk f gen s) then (1, gen, s)
    else if (fenceGet (objIndex f s) s).ownerFunc ≠ f ∨ (fenceGet (objIndex f s) s).orphan then (2, gen, s)
    else (0, gen, fenceSignal (objIndex f s) (fld v 8 8) s)) s

/-- RESET (R199, Table 7-11). -/
def objReset (r : Requester) (f : Nat) (v : Word) (s : State) : State :=
  objOp r f v 3 (fun gen s =>
    if objKind f s ≠ 1 then (1, gen, s)
    else if !(objFenceOk f gen s) then (1, gen, s)
    else if (fenceGet (objIndex f s) s).ownerFunc ≠ f ∨ (fenceGet (objIndex f s) s).orphan then (2, gen, s)
    else (0, gen, fenceReset (objIndex f s) s)) s

/-- CREATE (R199, Table 7-11). -/
def objCreate (r : Requester) (f : Nat) (v : Word) (s : State) : State :=
  objOp r f v 4 (fun gen s =>
    let i := objIndex f s
    let e := fenceGet i s
    if objKind f s ≠ 1 then (1, gen, s)
    else if (slotOf (objSlot f s) s).state ≠ 1 ∨ inWindow f i s = false then (2, gen, s)
    else if e.valid ∨ fenceCount s ≤ i then (1, gen, s)
    else
      let g := (e.gen + 1) % 65536
      (0, g, fencePut i { valid := true, signalled := false, shared := objShared f s, orphan := false, status := 0,
                          ownerSlot := objSlot f s, ownerFunc := f, gen := g, refcnt := 1, sigCount := e.sigCount } s)) s

/-- RR_ENABLE: a write of RR_CTL that sets EN from 0 to 1 sets both counts to 0 (Table 7-15). -/
def rrCtlWrite (v : Word) (s : State) : State :=
  match bankOf pgFnc 0x11C s with
  | none => s
  | some fn =>
    let was := bit (getReg pgFnc fn 0x11C s) 0
    let v := if selfHosted s then v &&& ~~~ 2#32 else v
    let s := writeByType pgFnc fn 0x11C v s
    if !was && bit v 0 then setReg pgFnc fn 0x128 0 (setReg pgFnc fn 0x12C 0 s) else s

/-- A row that enables the release ring. -/
def rrEnable (r : Requester) (v : Word) (s : State) : State :=
  if !(bit v 0) then s else blockWrite r pgFnc 0x11C (rrCtlWrite v) s

end Sys2Proof.Machine
end

