-- ==== Sys2Proof/Machine/LvnRec.lean ====
section
/-!
DEFINITION. The records of Leaven in HBM (R210, R226, R227), what a slot's release makes of them (R230), and the release
of a slot (R180).
-/
namespace Sys2Proof.Machine

/-! ## Session records (Table 8-1) -/

/-- Records of the session table. -/
abbrev sessCount : Nat := 262144

/-- Physical address of a session record. -/
def sessAddr (i : Nat) (s : State) : Nat := getPair pgLvn 0 0x108 s + 128 * i

/-- A word of a session record: of the copy on die, else of HBM (R212). -/
def sessW (i off : Nat) (s : State) : Word :=
  match tabFind i s.lvn.onDie with
  | some ws => nth 0 ws (off / 4)
  | none => hbmWord (sessAddr i s + off) s

/-- A word of a session record set. -/
def setSessW (i off : Nat) (v : Word) (s : State) : State :=
  match tabFind i s.lvn.onDie with
  | some ws =>
    let had := tabFind i s.lvn.recErr = some true
    let (l, s) := dieInject pgLvn i s.lvn.recErr s
    { s with lvn := { s.lvn with
        onDie := tabSet i (setNth ws (off / 4) v) s.lvn.onDie, recErr := if had then tabSet i true l else l } }
  | none => hbmPut (sessAddr i s + off) (toLE 4 v.toNat) s

/-- A record loaded on die. -/
def sessLoad (i : Nat) (s : State) : State :=
  if (tabFind i s.lvn.onDie).isSome then s
  else
    let ws := (List.range 32).map (fun k => hbmWord (sessAddr i s + 4 * k) s)
    let (l, s) := dieInject pgLvn i s.lvn.recErr s
    { s with lvn := { s.lvn with onDie := tabSet i ws s.lvn.onDie, recErr := l } }

/-- A record on die written back (R212). -/
def sessSync (i : Nat) (s : State) : State :=
  match tabFind i s.lvn.onDie with
  | some ws => hbmPut (sessAddr i s) (ws.map (fun w => toLE 4 w.toNat)).flatten s
  | none => s

/-- A record written back leaves the die. -/
def sessLeave (i : Nat) (s : State) : State :=
  let s := sessSync i s
  { s with lvn := { s.lvn with onDie := tabDel i s.lvn.onDie, recErr := tabDel i s.lvn.recErr } }

/-- A session's record holds an error that keeps it from being read: on die, or in HBM (R135, R139). -/
def sessBad (i : Nat) (s : State) : Bool :=
  if (tabFind i s.lvn.onDie).isSome then tabFind i s.lvn.recErr == some true else hbmBad (sessAddr i s) 128 s

/-- Leaven reads a session's record: its errors take effect, and whether it cannot be read (R135, R139, Table 5-4). -/
def sessFails (i : Nat) (s : State) : Bool × State :=
  if (tabFind i s.lvn.onDie).isNone then let (x, s) := hbmRead (sessAddr i s) 128 s; (x.isNone, s)
  else
    match tabFind i s.lvn.recErr with
    | none => (false, s)
    | some true => (true, faultAt 282 pgLvn 0 s)
    | some false => (false, { s with lvn := { s.lvn with recErr := tabDel i s.lvn.recErr } })

/-- STATE, SLOT, FUNC, PRIO, DL_CRIT, GRAPH, GEN and PEND of a session. -/
def sessState (i : Nat) (s : State) : Nat := fld (sessW i 0 s) 0 3
def sessPrio (i : Nat) (s : State) : Nat := fld (sessW i 0 s) 3 3
def sessCrit (i : Nat) (s : State) : Bool := bit (sessW i 0 s) 6
def sessSlot (i : Nat) (s : State) : Nat := fld (sessW i 0 s) 8 6
def sessGraph (i : Nat) (s : State) : Nat := fld (sessW i 0 s) 20 12
def sessGen (i : Nat) (s : State) : Nat := fld (sessW i 4 s) 0 16
def sessPend (i : Nat) (s : State) : Nat := fld (sessW i 4 s) 16 8

/-- STATE of a session set. -/
def setSessState (i st : Nat) (s : State) : State := setSessW i 0 (putFld (sessW i 0 s) 0 3 st) s

/-- PEND of a session set. -/
def setSessPend (i n : Nat) (s : State) : State := setSessW i 4 (putFld (sessW i 4 s) 16 8 n) s

/-- The session indices of a function's window (R210). -/
def sessWindow (fn : Nat) (s : State) : List Nat :=
  (span (getReg pgLvn fn 0x124 s).toNat (getReg pgLvn fn 0x128 s).toNat).filter (· < sessCount)

/-- A session index lies in a function's window. -/
def inSessWindow (fn i : Nat) (s : State) : Bool :=
  let b := (getReg pgLvn fn 0x124 s).toNat
  b ≤ i && i < b + (getReg pgLvn fn 0x128 s).toNat && i < sessCount

/-- A reference of a handle released by Leaven for a slot. -/
def leavenDrop (slot : Nat) (h : Word) (s : State) : State :=
  if h = 0 then s else (handleDrop ⟨slot, 0, 0, true⟩ (fld h 0 16) (fld h 16 16) s).2

/-- A session becomes FREE and its KV and spill references are released (R230, Table 8-3). -/
def freeSession (slot i : Nat) (s : State) : State :=
  let kv := sessW i 0x10 s
  let sp := sessW i 0x20 s
  leavenDrop slot sp (leavenDrop slot kv (sessLeave i (setSessState i 0 s)))

/-! ## Graph records (Table 8-6) -/

/-- Records of the graph table. -/
abbrev graphCount : Nat := 4096

/-- Physical address of a graph record. -/
def graphAddr (g : Nat) (s : State) : Nat := getPair pgLvn 0 0x110 s + 256 * g

/-- A graph's record cannot be read. -/
def graphBad (g : Nat) (s : State) : Bool := hbmBad (graphAddr g s) 256 s

/-- Leaven reads a graph's record: its errors take effect, and whether it cannot be read (R139, Table 5-4). -/
def graphFails (g : Nat) (s : State) : Bool × State := let (x, s) := hbmRead (graphAddr g s) 256 s; (x.isNone, s)

/-- A word of a graph record. -/
def graphW (g off : Nat) (s : State) : Word := hbmWord (graphAddr g s + off) s

/-- A word of a graph record set. -/
def setGraphW (g off : Nat) (v : Word) (s : State) : State := hbmPut (graphAddr g s + off) (toLE 4 v.toNat) s

/-- The offset of a version entry in its record. -/
def verOff (v : Nat) : Nat := 0x40 + 24 * v

/-- A graph is VALID and owned by a slot (R228). -/
def graphOwned (g slot : Nat) (s : State) : Bool := bit (graphW g 0 s) 0 && fld (graphW g 0 s) 8 6 == slot

/-- CUR_VALID and CUR_IDX. -/
def graphCur (g : Nat) (s : State) : Option Nat :=
  if bit (graphW g 4 s) 19 then some (fld (graphW g 4 s) 16 3) else none

/-- One hold of a version dropped; at 0 its references are released, the entry is free and its record is posted (R227). -/
def verDrop (g v : Nat) (s : State) : State :=
  let o := verOff v
  let n := (graphW g (o + 4) s).toNat - 1
  let slot := fld (graphW g 0 s) 8 6
  let c := slotOf slot s
  let s := setGraphW g (o + 4) (w32 n) s
  if n = 0 then
    let ver := fld (graphW g o s) 0 16
    let s := leavenDrop slot (graphW g (o + 8) s) s
    let s := leavenDrop slot (graphW g (o + 20) s) s
    let s := setGraphW g o (putFld (graphW g o s) 16 1 0) s
    release ⟨c.func, 4, slot, c.ctxId, c.func, g, ver⟩ s
  else s

/-- A graph's current hold dropped and CUR_VALID cleared (R228, R230). -/
def dropCurrent (g : Nat) (s : State) : State :=
  match graphCur g s with
  | none => s
  | some v => verDrop g v (setGraphW g 4 (putFld (graphW g 4 s) 19 1 0) s)

/-- The graphs whose records satisfy a test. A table in a region of HBM that was never written reads as zeros and holds none
(R137). -/
def graphsWith (f : Nat → Bool) (s : State) : List Nat :=
  let r := graphAddr 0 s / 2 ^ 21
  if tabGet false r s.hbc.valid || s.hbc.filling.contains r then (List.range graphCount).filter f else []

/-- A slot is released or killed: its sessions are FREE, its graphs have no current version (R230 steps 2 and 3). -/
def leavenTeardown (slot : Nat) (s : State) : State :=
  let mine := (sessWindow (slotOf slot s).func s).filter (fun i => sessState i s != 0 && sessSlot i s == slot)
  let s := mine.foldl (fun s i => freeSession slot i s) s
  (graphsWith (fun g => graphOwned g slot s) s).foldl (fun s g => dropCurrent g s) s

/-! ## The release of a slot (R180) -/

/-- Attestation requests dropped; their blocks may take another (R388). -/
def attDrop (f : AttReq → Bool) (s : State) : State :=
  let gone := s.sec.queue.filter f
  let s := { s with sec := { s.sec with queue := s.sec.queue.filter (fun a => !(f a)) } }
  gone.foldl (fun s a => setFld pgAtt a.block 0xC 0 3 0 s) s

/-- REFCNT reached 0: Leaven's records, fences abandoned, partition cleared, SLOT_RELEASED posted, slot FREE (R180). A scan of the
slot's fences that still runs is over with it (R204, Table 7-15). -/
def slotFree (k : Nat) (s : State) : State :=
  let c := slotOf k s
  let s := clearPartition c (abandonSlot k (leavenTeardown k (attDrop (fun a => a.slot == k) s)))
  let s := release ⟨c.func, 3, k, c.ctxId, c.func, k, 0⟩ s
  let s := if c.scan then { s with fnc := { s.fnc with scans := s.fnc.scans.erase c.func } } else s
  setSlot k { slotOf k s with state := 0, refcnt := 0, driver := false, scan := false } s

/-- A slot's REFCNT decreased by one; at 0 the slot is released (R180), unless its function is being disabled, which frees
the slot itself (R206). -/
def slotDrop (k : Nat) (s : State) : State :=
  let n := (slotOf k s).refcnt
  if (slotOf k s).state = 0 ∨ n = 0 then s
  else
    let s := setRef k (n - 1) s
    if n = 1 ∧ (tabFind (slotOf k s).func s.fe.disabling).isNone then slotFree k s else s

end Sys2Proof.Machine
end

