-- ==== Sys2Proof/Machine/SvlCore.lean ====
section
/-!
DEFINITION. Svaumon Link: the domain, routes, packets and flits, and the sending side of a port (R418 to R423, R425,
R426).
-/
namespace Sys2Proof.Machine

/-! ## The domain -/

/-- Own node number, dimension (above 4 acts as 4) and tag (Table 17-9). -/
def ownNode (s : State) : Nat := getFld (pgSvl 0) 0 0x200 0 4 s
def domDim (s : State) : Nat := min 4 (getFld (pgSvl 0) 0 0x200 4 3 s)
def domTag (s : State) : Word := getReg (pgSvl 0) 0 0x204 s

/-- Members of the domain. -/
def domNodes (s : State) : List Nat := List.range (2 ^ domDim s)

/-- The port on the route from node `n` to node `m`: the lowest differing dimension (R426). -/
def routePort (n m : Nat) : Option Nat := (List.range 4).find? (fun k => n / 2 ^ k % 2 != m / 2 ^ k % 2)

/-- A port is admitted and its page is reachable (R425). -/
def portUp (k : Nat) (s : State) : Bool := bit (getReg (pgSvl k) 0 0x100 s) 1 && !(dark (pgSvl k) s)

/-- A node is the own node, or reachable (R427). -/
def reachable (m : Nat) (s : State) : Bool :=
  m == ownNode s ||
  (m < 2 ^ domDim s && bit (getReg (pgSvl 0) 0 0x208 s) m &&
    (match routePort (ownNode s) m with | some k => portUp k s | none => false))

/-- A port's state. -/
def portOf (k : Nat) (s : State) : SvlPort := tabGet {} k s.svl.ports

/-- A port's state set. -/
def setPort (k : Nat) (p : SvlPort) (s : State) : State := { s with svl := { s.svl with ports := tabSet k p s.svl.ports } }

/-! ## Packets (Tables 17-3, 17-4) -/

/-- The virtual channel of a packet operation. -/
def vcOf (op : Nat) : Nat := if op = 1 ∨ op = 2 ∨ op = 4 ∨ op = 6 then 0 else if op < 10 then 1 else 2

/-- A packet's bytes: its header, then its data. -/
def packetBytes (p : Packet) : List Byte :=
  toLE 4 (p.op.toNat + p.dst.toNat * 2 ^ 4 + p.src.toNat * 2 ^ 8 + p.slot.toNat * 2 ^ 12 + p.tag.toNat * 2 ^ 20) ++
  toLE 4 (p.len.toNat + p.sub.toNat * 2 ^ 13 + p.pseq.toNat * 2 ^ 16) ++ toLE 8 p.arg.toNat ++ p.data

/-- Data bytes that follow a packet's header: a READ carries none (Table 17-4). -/
def dataLen (op len : Nat) : Nat := if op = 2 then 0 else len

/-- A packet from its header's 16 bytes and its data. -/
def packetOf (h : List Byte) (data : List Byte) : Packet :=
  let w0 := leNat (h.take 4)
  let w1 := leNat ((h.drop 4).take 4)
  { op := BitVec.ofNat 4 w0, dst := BitVec.ofNat 4 (w0 / 2 ^ 4), src := BitVec.ofNat 4 (w0 / 2 ^ 8),
    slot := BitVec.ofNat 6 (w0 / 2 ^ 12), tag := BitVec.ofNat 12 (w0 / 2 ^ 20),
    len := BitVec.ofNat 13 w1, sub := BitVec.ofNat 3 (w1 / 2 ^ 13), pseq := BitVec.ofNat 16 (w1 / 2 ^ 16),
    arg := BitVec.ofNat 64 (leNat ((h.drop 8).take 8)), data := data }

/-! ## Sending (R419 to R421) -/

/-- The 256 bytes of a flit (Tables 17-1, 17-2). -/
def flitBytes (ftype vc seq ack : Nat) (cr : List Nat) (payload : List Byte) : List Byte :=
  let head := toLE 4 (ftype + vc * 2 ^ 4 + seq % 4096 * 2 ^ 8 + ack % 4096 * 2 ^ 20) ++
    toLE 4 (nth 0 cr 0 + nth 0 cr 1 * 2 ^ 8 + nth 0 cr 2 * 2 ^ 16)
  let body := head ++ (payload ++ List.replicate 232 0).take 232
  fecEncode (body ++ toLE 4 (crc32c body).toNat)

/-- A flit leaves a port with the current ACK and the credits freed since the previous flit. -/
def sendFlit (k ftype vc seq : Nat) (payload : List Byte) (s : State) : State :=
  let p := portOf k s
  let cr := p.freed.map (min 255)
  emit (.flit k (flitBytes ftype vc seq (p.rxNext + 4095) cr payload))
    (setPort k { p with freed := List.zipWith (· - ·) p.freed cr } s)

/-- DATA flits go out in order by VC while the port is admitted, a credit is held and fewer than 1,024 flits are
unacknowledged. -/
def pump (k : Nat) : (fuel : Nat) → State → State
  | 0, s => s
  | fuel + 1, s =>
    let p := portOf k s
    if !(portUp k s) || p.retraining || 1024 ≤ p.retry.length then s
    else
      match p.txq.find? (fun e => 0 < nth 0 p.cr e.1) with
      | none => s
      | some e =>
        let s := setPort k { p with
          txq := p.txq.erase e, cr := setNth p.cr e.1 (nth 0 p.cr e.1 - 1), txSeq := (p.txSeq + 1) % 4096,
          retry := p.retry ++ [(p.txSeq, e.1, e.2)] } s
        pump k fuel (sendFlit k 1 e.1 p.txSeq e.2 s)

/-- The port sends what it can. -/
def pumpPort (k : Nat) (s : State) : State := pump k ((portOf k s).txq.length + 1) s

/-- A byte string cut into payloads of 232 bytes. -/
def payloads : (fuel : Nat) → List Byte → List (List Byte)
  | 0, _ => []
  | fuel + 1, bs => if bs.isEmpty then [] else bs.take 232 :: payloads fuel (bs.drop 232)

/-- A packet put on a port, in flits of its own. -/
def portSend (k : Nat) (p : Packet) (s : State) : State :=
  let x := portOf k s
  let bs := packetBytes p
  let vc := vcOf p.op.toNat
  pumpPort k (setPort k { x with txq := x.txq ++ (payloads (bs.length / 232 + 1) bs).map (fun b => (vc, b)) } s)

/-- A packet of this node sent on its route with the stream's next PSEQ; one to an unreachable node is dropped (R423,
R426). -/
def svlSend (p : Packet) (s : State) : State :=
  let m := p.dst.toNat
  match routePort (ownNode s) m with
  | none => { s with svl := { s.svl with inbox := s.svl.inbox ++ [p] } }
  | some k =>
    if !(reachable m s) then s
    else
      let key := m * 4 + vcOf p.op.toNat
      let q := tabGet 0 key s.svl.pOut
      let s := { s with svl := { s.svl with pOut := tabSet key ((q + 1) % 65536) s.svl.pOut } }
      portSend k { p with pseq := BitVec.ofNat 16 q } s

/-- A packet of this node for a slot. -/
def mkPacket (op dst slot tag len sub arg : Nat) (data : List Byte) (s : State) : Packet :=
  { op := BitVec.ofNat 4 op, dst := BitVec.ofNat 4 dst, src := BitVec.ofNat 4 (ownNode s), slot := BitVec.ofNat 6 slot,
    tag := BitVec.ofNat 12 tag, len := BitVec.ofNat 13 len, sub := BitVec.ofNat 3 sub, pseq := 0,
    arg := BitVec.ofNat 64 arg, data := data }

/-! ## Requests that wait for a response -/

/-- The lowest free tag; where none is free, the lowest tag of a SIGNAL or FENCE_RESET, which gets no response unless it
fails. -/
def freeTag (s : State) : Option Nat :=
  match (List.range 4096).find? (fun t => (tabFind t s.svl.tags).isNone) with
  | some t => some t
  | none => (s.svl.tags.find? (fun e => e.2.op == 6 && e.2.sub < 2)).map (·.1)

/-- A request sent with a tag of its own. -/
def svlRequest (rq : LinkReq) (slot arg : Nat) (data : List Byte) (s : State) : State :=
  match freeTag s with
  | none => s
  | some t =>
    let s := { s with svl := { s.svl with tags := tabSet t rq s.svl.tags } }
    svlSend (mkPacket rq.op rq.node slot t (if rq.op = 2 then rq.len else data.length) rq.sub arg data s) s

/-- A FENCE_OP to the node that a fence reference names: sub-operation 0 signal, 1 reset, 2 register wait, with 8 bytes of
status (R437). -/
def fenceOp (who : LinkWho) (slot sub : Nat) (a b : Word) (status : Nat) (cmd : List Word) (no start : Nat) (s : State) :
    State :=
  svlRequest { who := who, node := fld a 20 4, op := 6, sub := sub, va := 0, len := 8, cmd := cmd, no := no,
               start := start } slot
    (a.toNat + b.toNat * 2 ^ 32) (toLE 8 status) s

/-- The requests of a waiter are forgotten. -/
def dropTags (f : LinkReq → Bool) (s : State) : State :=
  { s with svl := { s.svl with tags := s.svl.tags.filter (fun e => !(f e.2)) } }

end Sys2Proof.Machine
end

