-- ==== Sys2Proof/Machine/Fe.lean ====
section
/-!
DEFINITION. Command streams: fetching, checks, order, records, batches and skips, jobs' starts, and the commands that are
no jobs (R182 to R197, R202, R219, R220, R437, R468).
-/
namespace Sys2Proof.Machine

/-! ## Streams -/

/-- Whose stream a fetcher runs. -/
def ownerOf : Fetcher → Owner
  | .queue k q => .queue k.val q.val
  | .batch b => .batch b.val

/-- A batch of Leaven. -/
def batchOf (b : Nat) (s : State) : Option Batch := tabFind b s.lvn.batches

/-- A batch set. -/
def setBatch (b : Nat) (v : Batch) (s : State) : State := { s with lvn := { s.lvn with batches := tabSet b v s.lvn.batches } }

/-- The slot of a stream. -/
def ownSlot (o : Owner) (s : State) : Nat :=
  match o with
  | .queue k _ => k
  | .batch b => match batchOf b s with | some x => x.slot | none => 0

/-- Where a stream stands. -/
def streamOf (o : Owner) (s : State) : Stream :=
  match o with
  | .queue k q => (queueOf k q s).str
  | .batch b => match batchOf b s with | some x => x.str | none => {}

/-- A stream set. -/
def setStream (o : Owner) (v : Stream) (s : State) : State :=
  match o with
  | .queue k q => setQueue k q { queueOf k q s with str := v } s
  | .batch b => match batchOf b s with | some x => setBatch b { x with str := v } s | none => s

/-- The jobs of a stream that have not retired. -/
def ownJobs (o : Owner) (s : State) : List (Nat × Job) := s.fe.jobs.filter (fun e => e.2.owner = o)

/-- The stream's commands act for a queue. -/
def isQueue : Owner → Bool
  | .queue _ _ => true
  | .batch _ => false

/-- The requester of a stream's own accesses. -/
def ownRq (o : Owner) : Nat := if isQueue o then rqFe else rqLvn

/-- How a fault record names an access of the stream that belongs to no job: by the START_SEQ that the command's own record
would carry, or by entry 0 of a batch (R471). -/
def ownRef (o : Owner) (s : State) : JobRef :=
  match o with
  | .queue k q => ⟨k, q, (queueOf k q s).str.started % 2 ^ 32, false⟩
  | .batch n => let t := tabGet (0, 0, 0) n s.fe.batchRef; ⟨t.1, t.2.1, t.2.2, false⟩

/-! ## Queue state, LTR, records -/

/-- LTR follows whether a queue is ACTIVE (R403). -/
def ltrUpdate (s : State) : State :=
  let on := s.fe.queues.any (fun e => e.2.state == 2)
  if on = s.pci.ltrActive ∨ selfHosted s then s
  else emit (.ltr (if on then some (getFld pgPci 0 0x10C 0 10 s) else none)) { s with pci := { s.pci with ltrActive := on } }

/-- The virtual address of a queue record. -/
def qrecVa (slot q : Nat) (s : State) : Nat := (slotOf slot s).qtbl + 64 * q

/-- Compatibility mode (R181). -/
def compat (s : State) : Bool := bit (getReg pgFe 0 0x100 s) 0

/-- The M9's own fields of the queue record written: WPTR (native mode), RPTR, CPL_PROD, STATE and ENA_ERR (Table 7-2). -/
def qSync (slot q : Nat) (s : State) : State :=
  let x := queueOf slot q s
  let own := toLE 4 x.rptr ++ toLE 4 x.cplProd ++ toLE 4 (x.state + x.enaErr * 2 ^ 8)
  if (slotOf slot s).state = 0 then s
  else if compat s then (vaWrite rqFe slot (qrecVa slot q s + 0x24) own s).2
  else (vaWrite rqFe slot (qrecVa slot q s + 0x20) (toLE 4 x.wptr ++ own) s).2

/-- A queue's state set; its context is in use at that moment (R181). -/
def setQState (slot q st : Nat) (s : State) : State :=
  let s := setSlot slot { slotOf slot s with lastUse := s.fe.us } s
  ltrUpdate (qSync slot q (setQueue slot q { queueOf slot q s with state := st } s))

/-- A fetcher's own access fails: one non-retryable record, and kind 1 of the Basin view (R468). For a bus error no cause
is stated: it is free. -/
def fetcherFault (o : Owner) (va : Nat) (k : XKind) (e : AccErr) (s : State) : State :=
  let j := ownRef o s
  let s := viewEvent (slotOf j.slot s).func 1 j.slot j.queue (nextSeq j s) s
  match e with
  | .xl c l => postFault (ownRq o) 0 j va c l k 0 s
  | .bus => let (f, s) := takeFree s; postFault (ownRq o) 0 j va (1 + f % 11) (f / 11 % 4) k 0 s

/-- The reason of a failed access (Table 7-5). -/
def accReason : AccErr → Nat
  | .xl _ _ => 0x0016
  | .bus => 0x0015

/-- An ACTIVE queue becomes HALTED. -/
def haltQueue (slot q : Nat) (s : State) : State := if (queueOf slot q s).state = 2 then setQState slot q 3 s else s

/-- A 64-bit account of a context record increased, saturating (R179). -/
def ctxAdd (slot off n : Nat) (s : State) : State :=
  let a := (slotOf slot s).ctx + off
  hbmPut a (toLE 8 (satAdd (2 ^ 64 - 1) (hbmNat a 8 s) n)) s

/-- What a completion record says (Table 7-3). -/
structure CplRec where
  status : Nat
  reason : Nat := 0
  detail : Nat := 0
  flags : Nat := 0
  energy : Nat := 0
  dur : Nat := 0
  start : Nat
deriving DecidableEq, Repr

/-- The 32 bytes of a completion record. -/
def cplBytes (slot q op : Nat) (r : CplRec) (s : State) : List Byte :=
  let x := queueOf slot q s
  toLE 4 x.cplProd ++
  toLE 4 (r.status + r.flags % 16 * 2 ^ 8 + (1 - x.cplProd / 2 ^ x.cplLog2 % 2) * 2 ^ 15 + r.reason * 2 ^ 16) ++
  toLE 4 (min r.energy (2 ^ 32 - 1)) ++
  toLE 4 (op + q * 2 ^ 8 + slot * 2 ^ 12 + (slotOf slot s).ctxId * 2 ^ 18) ++
  toLE 8 r.detail ++ toLE 4 (min r.dur (2 ^ 32 - 1)) ++ toLE 4 r.start

/-- A completion record written (R186): a failing write halts the queue (R468). -/
def writeRecord (slot q op : Nat) (irq : Bool) (r : CplRec) (s : State) : State :=
  if (slotOf slot s).state = 0 then s
  else
    let x := queueOf slot q s
    let va := x.cpl + 32 * (x.cplProd % 2 ^ x.cplLog2)
    match vaWrite rqFe slot va (cplBytes slot q op r s) s with
    | (.error e, s) => haltQueue slot q (fetcherFault (.queue slot q) va .wr e s)
    | (.ok _, s) =>
      let s := ctxAdd slot 0x50 1 s
      let s := qSync slot q (setQueue slot q { queueOf slot q s with cplProd := (x.cplProd + 1) % 2 ^ 32 } s)
      if irq then sendMsix (slotOf slot s).func x.vec s else s

/-- An ACTIVE queue with nothing left becomes IDLE (Table 7-6). -/
def idleCheck (o : Owner) (s : State) : State :=
  match o with
  | .queue k q =>
    let x := queueOf k q s
    if x.state = 2 ∧ (ownJobs o s).isEmpty ∧ x.str.wait = none ∧ x.str.frames = [] ∧ x.rptr = x.wptr then
      setQState k q 1 (setQueue k q { x with timer := 0 } s)
    else s
  | .batch _ => s

/-- The queue timer restarts: an item has completed, or a WAIT is satisfied (R188). -/
def restartTimer (o : Owner) (s : State) : State :=
  match o with
  | .queue k q => setQueue k q { queueOf k q s with timer := 0 } s
  | .batch _ => s

/-! ## The header and the fields of a command (Tables 7-7, 7-8, 8-2) -/

/-- Word `i` of a command. -/
def cw (c : List Word) (i : Nat) : Word := nth 0 c i

/-- The opcode of a command. -/
def opOf (c : List Word) : Nat := fld (cw c 0) 0 8

/-- OVL, IRQ, HREL, BATCH_END and ARGS. -/
def isOvl (c : List Word) : Bool := bit (cw c 0) 8
def isIrq (c : List Word) : Bool := bit (cw c 0) 9
def isHrel (c : List Word) : Bool := bit (cw c 0) 10
def isEnd (c : List Word) : Bool := bit (cw c 0) 11
def argsOf (c : List Word) : Nat := fld (cw c 0) 16 16

/-- The opcodes of jobs. -/
def isJob (op : Nat) : Bool := 1 ≤ op && op ≤ 0x0B

/-- A 64-bit value in two command words. -/
def cw64 (c : List Word) (i : Nat) : Nat := (cw c i).toNat + (cw c (i + 1)).toNat * 2 ^ 32

/-- The bits of ARGS and of words 1 to 7 that an opcode defines; none for a reserved opcode (R184, R190, R197, R211). -/
def opMasks (op : Nat) : Option (Nat × List Nat) :=
  let f := 0xFFFFFFFF
  if op = 0x00 ∨ op = 0x16 then some (0, [0, 0, 0, 0, 0, 0, 0])
  else if op = 0x01 ∨ op = 0x02 ∨ op = 0x04 ∨ op = 0x07 then some (0, [f, f, 0, 0, 0, 0, 0])
  else if op = 0x03 then some (0xF, [f, f, 0, 0, 0, 0, 0])
  else if op = 0x05 then some (0, [f, f, f, f, 0xFFFF, f, 0xFF])
  else if op = 0x06 then some (0, [f, f, 0xFF, f, 0, f, f])
  else if op = 0x08 then some (0, [0x3FFFF, 0xFFFF, f, f, 0, 0, 0])
  else if op = 0x09 then some (0, [0x3FFFF, 0xFFFF, f, f, f, f, 0])
  else if op = 0x0A then some (1, [0x3FFFF, 0xFFFF, f, f, f, 0, 0])
  else if op = 0x0B then some (1, [0xFFF, f, f, 0x1FFFF, f, 0, 0])
  else if op = 0x10 ∨ op = 0x12 then some (0, [0x1FFFFFF, 0xFFFF, 0, 0, 0, 0, 0])
  else if op = 0x11 then some (0, [0x1FFFFFF, 0x1FFFF, 0, 0, 0, 0, 0])
  else if op = 0x13 then some (1, [f, f, f, f, 0, 0, 0])
  else if op = 0x14 then some (0x3F, [f, f, f, f, f, f, 0xFFFF])
  else if op = 0x15 then some (1, [f, f, f, f, f, f, 0])
  else none

/-- A field lies outside the range or the alignment that Table 7-8 or 8-2 states (R184). -/
def fieldBad (c : List Word) : Bool :=
  let op := opOf c
  let a := argsOf c
  if op = 0x06 then cw64 c 6 % 4 != 0
  else if op = 0x0B then (cw c 3).toNat % 32 != 0 || (cw c 4).toNat = 0 || 65536 < (cw c 4).toNat
  else if op = 0x13 then (cw c 2).toNat % (if a % 2 = 1 then 8 else 4) != 0
  else if op = 0x14 then 8 ≤ a % 16
  else if op = 0x15 then (cw c 2).toNat % 32 != 0 || (cw c 3).toNat = 0 || 65536 < (cw c 3).toNat
  else false

/-- The stream's engine executes the opcode: by the queue's ENGINE, or by the list of R219. -/
def engineTakes (o : Owner) (op : Nat) (s : State) : Bool :=
  if op = 0 ∨ (0x10 ≤ op ∧ op ≤ 0x16 ∧ op ≠ 0x12) then true
  else
    match o with
    | .batch _ => op == 0x01 || (0x04 ≤ op && op ≤ 0x07)
    | .queue k q =>
      let e := (queueOf k q s).engine
      op == 0x12 || (op == 0x01 && e == 0) || (op == 0x02 && e == 1) || (op == 0x03 && e == 2) ||
      (op == 0x04 && (e == 3 || e == 4)) || (0x05 ≤ op && op ≤ 0x07 && 5 ≤ e && e ≤ 8) ||
      (0x08 ≤ op && op ≤ 0x0B && e == 9)

/-- A command that faults with BAD_CMD as it stands (R184). -/
def badCmd (o : Owner) (c : List Word) (s : State) : Bool :=
  match opMasks (opOf c) with
  | none => true
  | some (am, ms) =>
    fld (cw c 0) 12 4 != 0 || argsOf c &&& (0xFFFF ^^^ am) != 0 ||
    (List.range 7).any (fun i => (cw c (i + 1)).toNat &&& (0xFFFFFFFF ^^^ nth 0 ms i) != 0) ||
    fieldBad c || !(engineTakes o (opOf c) s)

/-! ## Names: handles and fences -/

/-- The words of a command that hold the handles it names. -/
def handleWords (c : List Word) : List Nat :=
  let op := opOf c
  if op = 0x01 ∨ op = 0x02 ∨ op = 0x03 ∨ op = 0x04 ∨ op = 0x06 ∨ op = 0x07 ∨ op = 0x13 ∨ op = 0x14 then [1]
  else if op = 0x05 then [1, 2]
  else if op = 0x08 ∨ op = 0x0A then [3]
  else if op = 0x09 then [5]
  else if op = 0x0B then [2, 5]
  else if op = 0x15 then (if argsOf c % 2 = 1 then [1, 5] else [1])
  else []

/-- A handle value as a stream's command words mean it: inside a graph buffer two values name the parameter object and the
batch record, the latter with the base and the extent of its slot (R220). -/
def meantHandle (o : Owner) (h : Word) (s : State) : Word × Option Nat :=
  match o with
  | .queue _ _ => (h, none)
  | .batch b =>
    match batchOf b s with
    | none => (h, none)
    | some x =>
      if h = 0x00010000#32 then (x.param, none)
      else if h = 0x00020000#32 then (x.area, some (b * 65536))
      else (h, none)

/-- A handle of a command word checked with a range (R202, R220): its virtual address. -/
def nameRange (o : Owner) (j : JobRef) (h : Word) (off len : Nat) (s : State) : Except (Nat × Nat) Nat × State :=
  let j := { j with slot := ownSlot o s }
  match meantHandle o h s with
  | (h', none) => checkRange j h' off len s
  | (h', some base) =>
    if 65536 < off + len then (.error (0x0004, h.toNat + off % 2 ^ 32 * 2 ^ 32), s)
    else checkRange j h' (base + off) len s

/-- A fence reference: index, generation, and the node it names if that is another one (R197, R437). -/
def fenceIdx (a : Word) : Nat := fld a 0 20
def fenceNode (a : Word) (s : State) : Option Nat :=
  if bit a 24 ∧ fld a 20 4 ≠ ownNode s then some (fld a 20 4) else none

/-- BAD_HANDLE's detail for a fence (Table 7-5). -/
def fenceDetail (a b : Word) : Nat := fenceIdx a + fld b 0 16 * 2 ^ 32

/-- The fence that a command names, if the name passes its check (R198). -/
def fenceNamed (o : Owner) (c : List Word) (s : State) : Option Nat :=
  let fn := (slotOf (ownSlot o s) s).func
  let a := cw c 1
  let g := fld (cw c 2) 0 16
  let op := opOf c
  if (fenceNode a s).isSome then none
  else if op = 0x11 then (if mayName fn (fenceIdx a) g s then some (fenceIdx a) else none)
  else if op = 0x10 ∨ op = 0x12 then (if maySignal fn (fenceIdx a) g s then some (fenceIdx a) else none)
  else none

/-- The fence of this node that a command names has an entry that cannot be read (R200). -/
def cmdFence (o : Owner) (c : List Word) (s : State) : Option (Nat × Nat) × State :=
  let slot := ownSlot o s
  if (fenceNode (cw c 1) s).isSome || opOf c < 0x10 || 0x12 < opOf c then (none, s)
  else nameFails (slotOf slot s).func { ownRef o s with slot := slot } (fenceIdx (cw c 1)) s

/-- The references of a command released at its retire (R202, R206). -/
def hrel (o : Owner) (c : List Word) (s : State) : State :=
  let slot := ownSlot o s
  if !(isHrel c) || (slotOf slot s).state = 0 || (tabFind (slotOf slot s).func s.fe.disabling).isSome then s
  else
    let j := { ownRef o s with slot := slot }
    let s := (handleWords c).foldl (fun s i =>
      let h := (meantHandle o (cw c i) s).1
      if h = 0 then s else (handleDrop j (fld h 0 16) (fld h 16 16) s).2) s
    match cmdFence o c s with
    | (some _, s) => s
    | (none, s) =>
      match fenceNamed o c s with
      | some i => (fenceDrop i s).2
      | none => s

/-! ## Fetching -/

/-- The fetch position: the address of the next command and its level; none where a ring is empty. -/
def fetchPos (o : Owner) (s : State) : Option (Nat × Nat) :=
  match (streamOf o s).frames, o with
  | f :: rest, _ => some (f.base + 32 * f.pos, rest.length + 1)
  | [], .queue k q =>
    let x := queueOf k q s
    if x.rptr = x.wptr then none else some (x.ring + 32 * (x.rptr % 2 ^ x.log2), 0)
  | [], .batch _ => none

/-- The stream takes commands: an ACTIVE queue of an ACTIVE slot, or a running batch of a slot that is ACTIVE or DRAINING
(Table 7-13), with no WAIT registered. -/
def fetching (o : Owner) (s : State) : Bool :=
  let st := (slotOf (ownSlot o s) s).state
  !(dark (if isQueue o then pgFe else pgLvn) s) && (streamOf o s).wait == none &&
  (match o with
   | .queue k q => st == 1 && (queueOf k q s).state == 2
   | .batch b => (st == 1 || st == 2) && (batchOf b s).isSome)

/-- Past the command at the fetch position. -/
def bump (o : Owner) (s : State) : State :=
  let t := streamOf o s
  match t.frames, o with
  | f :: rest, _ => setStream o { t with frames := { f with pos := f.pos + 1 } :: rest } s
  | [], .queue k q => qSync k q (setQueue k q { queueOf k q s with rptr := ((queueOf k q s).rptr + 1) % 2 ^ 32 } s)
  | [], .batch _ => s

/-- A command with BATCH_END ends the batch of a queue, and with it a skip (R196, R219). -/
def batchEnd (o : Owner) (c : List Word) (s : State) : State :=
  if isEnd c && isQueue o then
    let t := streamOf o s
    setStream o { t with batchSkip := none, batchNo := t.batchNo + 1 } s
  else s

/-- Buffers that have ended: the next repetition, or the return to the caller, where the CALL retires (R193). A skip to the end of
the batch goes on in the caller (R196 step 4). -/
def settle (o : Owner) : (fuel : Nat) → State → State
  | 0, s => s
  | fuel + 1, s =>
    let t := streamOf o s
    match t.frames with
    | [] => idleCheck o s
    | f :: rest =>
      if f.pos < f.count then s
      else if 0 < f.left ∧ t.batchSkip = none then
        setStream o { t with frames := { f with pos := 0, left := f.left - 1 } :: rest, condSkip := 0 } s
      else
        let s := setStream o { t with frames := rest, condSkip := 0 } s
        settle o fuel (batchEnd o f.cmd (hrel o f.cmd s))

/-- The end of a command that stands behind the fetch position: HREL, BATCH_END, ended buffers. -/
def retireCmd (o : Owner) (c : List Word) (s : State) : State := settle o 8 (batchEnd o c (hrel o c s))

/-- The end of the command at the fetch position. -/
def finish (o : Owner) (c : List Word) (s : State) : State := retireCmd o c (bump o s)

/-! ## Failures and skips (R194 to R196, R221) -/

/-- The fence status of a job status (Table 7-4). -/
def fenceStatus (st : Nat) : Nat := if st = 0 then 0 else if st = 2 then 2 else if st = 4 then 1 else 3

/-- The first failure of a step in issue order (R221). -/
def noteFail (b issue status reason : Nat) (s : State) : State :=
  match batchOf b s with
  | none => s
  | some x =>
    match x.fail with
    | some (i, _, _) => if i ≤ issue then s else setBatch b { x with fail := some (issue, status, reason) } s
    | none => setBatch b { x with fail := some (issue, status, reason) } s

/-- A job or a command of the stream ends other than OK: the skip starts where the policy says so and the batch is still the
same (R196); a step's rest is skipped always (R219). -/
def streamFail (o : Owner) (no status reason : Nat) (s : State) : State :=
  let t := streamOf o s
  match o with
  | .queue k q =>
    if (queueOf k q s).errPolicy && t.batchNo == no && t.batchSkip == none then
      setStream o { t with batchSkip := some (fenceStatus status) } s
    else s
  | .batch b =>
    let s := noteFail b no status reason s
    let t := streamOf o s
    if t.batchSkip == none then setStream o { t with batchSkip := some (fenceStatus status) } s else s

/-- The number by which the command at hand is known to `streamFail`: its batch, or its issue number. -/
def failNo (o : Owner) (s : State) : Nat :=
  match o with
  | .queue k q => (queueOf k q s).str.batchNo
  | .batch b => match batchOf b s with | some x => x.issue | none => 0

/-- A command that is no job fails: its record, and the policy (R186, R194). -/
def cmdFail (o : Owner) (c : List Word) (status reason detail : Nat) (dur : Nat) (s : State) : State :=
  let no := failNo o s
  let s :=
    match o with
    | .queue k q =>
      writeRecord k q (opOf c) (isIrq c)
        { status := status, reason := reason, detail := detail, dur := dur, start := (streamOf o s).started % 2 ^ 32 } s
    | .batch _ => s
  streamFail o no status reason s

/-- The status of a retired job, for the next SIGNAL (R195). -/
def noteSig (o : Owner) (st : Nat) (s : State) : State :=
  let t := streamOf o s
  if t.sig = 0 then setStream o { t with sig := st } s else s

/-- A command of a batch takes the next issue number (R221); the first one starts the step's time (R222, R229). -/
def issueNext (o : Owner) (s : State) : State :=
  match o with
  | .queue _ _ => s
  | .batch b =>
    match batchOf b s with
    | some x => setBatch b { x with issue := x.issue + 1, start := if x.issue = 0 then s.lvn.us else x.start } s
    | none => s

/-- The slot's link traffic is stopped by a SNAPSHOT (R436). -/
def linkStopped (slot : Nat) (s : State) : Bool := s.svl.stopped.contains slot

/-- Who waits for a response to a stream's remote fence operation. -/
def linkWho : Owner → LinkWho
  | .queue k q => .queue k q
  | .batch b => .batch b

/-- A SIGNAL with a status: performed, sent to its node, or failed (R194, R428, R437); in each case it is the queue's previous
SIGNAL from then on (R195). Nothing while the slot's link traffic
is stopped. No DETAIL is stated for LINK_LOST: it is free. -/
def signalWith (o : Owner) (c : List Word) (st : Nat) (fail : Nat → Nat → State → State) (s : State) : Option State :=
  let done := fun (s : State) => setStream o { streamOf o s with sig := 0 } s
  match fenceNode (cw c 1) s with
  | some m =>
    if linkStopped (ownSlot o s) s then none
    else if reachable m s then
      some (done (fenceOp (linkWho o) (ownSlot o s) 0 (cw c 1) (cw c 2) st c (failNo o s) ((streamOf o s).started % 2 ^ 32) s))
    else let (f, s) := takeFree (done s); some (fail 0x0200 (f % 2 ^ 64) s)
  | none =>
    match cmdFence o c s with
    | (some rd, s) => some (fail rd.1 rd.2 (done s))
    | (none, s) =>
      match fenceNamed o c s with
      | some i => some (done (fenceSignal i st s))
      | none => some (fail 0x0003 (fenceDetail (cw c 1) (cw c 2)) (done s))

/-- A skipped command (R196): a job's record, a SIGNAL's skip status; nothing else acts. -/
def skipCmd (o : Owner) (c : List Word) (st : Nat) (s : State) : Option State :=
  if isJob (opOf c) then
    let s := noteSig o st s
    some (match o with
      | .queue k q => writeRecord k q (opOf c) (isIrq c) { status := 5, start := (streamOf o s).started % 2 ^ 32 } s
      | .batch _ => s)
  else if opOf c = 0x10 then
    if !(ownJobs o s).isEmpty then none
    else
      signalWith o c st (fun reason detail s =>
        match o with
        | .queue k q =>
          writeRecord k q 0x10 (isIrq c)
            { status := 1, reason := reason, detail := detail, start := (streamOf o s).started % 2 ^ 32 } s
        | .batch _ => s) s
  else some s

/-- The command waits on earlier jobs (R185). -/
def mustWait (o : Owner) (c : List Word) (s : State) : Bool :=
  let op := opOf c
  !(ownJobs o s).isEmpty &&
    ((isJob op && !(isOvl c)) || op == 0x10 || op == 0x13 || op == 0x14 || (op == 0x15 && argsOf c % 2 == 1))

/-! ## The fetchers' choice (R184, R219) -/

/-- The lowest cluster of a mask. -/
def lowestCluster (m : Nat) : Nat := ((List.range 16).find? (fun n => m / 2 ^ n % 2 = 1)).getD 0

/-- The fetcher at which a stream's command competes, its PRIO, and the stream's place in the round-robin. A compute queue's is that
of the lowest cluster of its mask; each other engine has one. A batch's LAUNCH and DMA commands compete with the PRIO of the batch at
the fetchers of its clusters and of its DMA engine (R219). -/
def contender (o : Owner) (c : List Word) (s : State) : Nat × Nat × Nat :=
  match o with
  | .queue k q =>
    let x := queueOf k q s
    (if x.engine = 0 then lowestCluster x.cmask else 15 + x.engine, x.prio, 16 * k + q)
  | .batch b =>
    match batchOf b s with
    | none => (32 + b, 0, 1024 + b)
    | some x =>
      (if opOf c = 0x01 then lowestCluster x.mask
        else if 0x05 ≤ opOf c ∧ opOf c ≤ 0x07 then 20 + x.dma
        else 32 + b, x.prio, 1024 + b)

/-- The command at the fetch position of a runnable stream: the stream fetches, it waits neither for completion-ring space nor under
a hold, and the command does not wait for earlier jobs or for the link. -/
def readyCmd (o : Owner) (s : State) : Option (List Word) :=
  let busy := match o with | .queue k q => (queueOf k q s).held || (queueOf k q s).full | .batch _ => false
  if !(fetching o s) || busy then none
  else
    match fetchPos o s with
    | none => none
    | some (va, _) =>
      match (vaRead (ownRq o) (ownSlot o s) va 32 .rd s).1 with
      | .error _ => none
      | .ok bs =>
        let c := rowWords 4 8 bs
        let t := streamOf o s
        let idle := (ownJobs o s).isEmpty
        let link := 0x10 ≤ opOf c && opOf c ≤ 0x12 && (fenceNode (cw c 1) s).isSome && linkStopped (ownSlot o s) s
        if 0 < t.condSkip then some c
        else if t.batchSkip.isSome then (if opOf c = 0x10 ∧ (!idle ∨ link) then none else some c)
        else if badCmd o c s then some c
        else if mustWait o c s || link then none
        else some c

/-- The streams that may run commands. -/
def streams (s : State) : List Owner :=
  s.fe.queues.map (fun e => Owner.queue (e.1 / 16) (e.1 % 16)) ++ s.lvn.batches.map (fun e => Owner.batch e.1)

/-- The first contender is served before the second: by PRIO, and round-robin within one PRIO. -/
def servedBefore (a b : Nat × Nat × Nat) (s : State) : Bool :=
  let rank := fun (x : Nat × Nat × Nat) => (x.2.2 + 1028 - 1 - tabGet 1027 (8 * x.1 + x.2.1) s.fe.turn) % 1028
  a.1 == b.1 && (a.2.1 < b.2.1 || (a.2.1 == b.2.1 && rank a < rank b))

/-- The fetcher of a stream's command serves it now: no other runnable stream of the fetcher stands before it (R184). -/
def chosen (o : Owner) (c : List Word) (s : State) : Bool :=
  let me := contender o c s
  !((streams s).any (fun p => p != o &&
    match readyCmd p s with
    | some d => servedBefore (contender p d s) me s
    | none => false))

/-- A fetcher has served a stream. DESIGN CHOICE (log 91): the round-robin goes on command by command. -/
def took (o : Owner) (c : List Word) (s : State) : State :=
  let x := contender o c s
  { s with fe := { s.fe with turn := tabSet (8 * x.1 + x.2.1) x.2.2 s.fe.turn } }

/-- A row of a command: it acts when the command at the fetch position is one that the row selects and its fetcher serves it. A command under a COND
skip or a batch skip is passed over; a bad one faults; one that must wait for earlier jobs stays. `act` answers nothing
where the command is not ready. -/
def onCommand (f : Fetcher) (sel : List Word → Bool) (act : Owner → List Word → Nat → State → Option State)
    (s : State) : State :=
  let o := ownerOf f
  if !(fetching o s) then s
  else
    match fetchPos o s with
    | none => s
    | some (va, level) =>
      match vaRead (ownRq o) (ownSlot o s) va 32 .rd s with
      | (.error _, _) => s
      | (.ok bs, s') =>
        let c := rowWords 4 8 bs
        if !(sel c && chosen o c s) then s
        else
          let t := streamOf o s'
          let s' := took o c s'
          if 0 < t.condSkip then
            let s' := hrel o c (bump o s')
            settle o 8 (batchEnd o c (setStream o { streamOf o s' with condSkip := t.condSkip - 1 } s'))
          else
            match t.batchSkip with
            | some st =>
              match skipCmd o c st (issueNext o s') with
              | some s' => finish o c s'
              | none => s
            | none =>
              let s' := issueNext o s'
              if badCmd o c s' then
                let s' := cmdFail o c 1 0x0001 (opOf c + level * 2 ^ 8) 0 s'
                finish o c (if isJob (opOf c) then noteSig o 3 s' else s')
              else if mustWait o c s' then s
              else (act o c level s').getD s

/-- A command with an opcode. -/
def selOp (op : Nat) (c : List Word) : Bool := opOf c == op

/-! ## Jobs' starts (R180, R185, R186, R202) -/

/-- CPL_CONS read: the ring has room; nothing where the read fails, which halts the queue (R186, R468). -/
def ringRoom (slot q : Nat) (s : State) : Option Bool × State :=
  let va := qrecVa slot q s + 0x1C
  match vaRead rqFe slot va 4 .rd s with
  | (.error e, s) => (none, haltQueue slot q (fetcherFault (.queue slot q) va .rd e s))
  | (.ok bs, s) =>
    let x := queueOf slot q s
    (some ((w32 x.cplProd - w32 (leNat bs)).toNat < 2 ^ x.cplLog2), s)

/-- A job put into the state: its number. -/
def newJob (o : Owner) (c : List Word) (s : State) : Nat × State :=
  let t := streamOf o s
  let j := s.fe.nextJob
  let b : Job := { owner := o, cmd := c, startSeq := t.started % 2 ^ 32, startUs := s.fe.us, batch := failNo o s }
  let s := setStream o { t with started := t.started + 1 } s
  let s := { s with fe := { s.fe with nextJob := j + 1, jobs := tabSet j b s.fe.jobs } }
  (j, slotAcquire (ownSlot o s) s)

/-- Past the command of a job that has started: the references wait for the job's retire. -/
def passJob (o : Owner) (c : List Word) (s : State) : State := settle o 8 (batchEnd o c (bump o s))

/-- A job starts: its number, its first actions, and the next command. -/
def beginJob (o : Owner) (c : List Word) (act : Nat → State → State) (s : State) : State :=
  let s := match o with | .queue k q => setQueue k q { queueOf k q s with held := false } s | .batch _ => s
  let (j, s) := newJob o c s
  passJob o c (act j s)

/-- A job's command at the fetch position is held: its hold, as its start, needs room for the record in the completion ring
(R186, R213, R266). DESIGN CHOICE (log 43): what R186 asks of a start is asked of the hold. -/
def holdJob (o : Owner) (s : State) : Option State :=
  match o with
  | .batch _ => none
  | .queue k q =>
    if (queueOf k q s).full || (queueOf k q s).held then none
    else
      match ringRoom k q s with
      | (none, s) => some s
      | (some room, s) => some (setQueue k q { queueOf k q s with held := room, full := !room } s)

/-- A job starts: room in the completion ring, a reference of the slot, its first actions, and the next command. -/
def startJob (o : Owner) (c : List Word) (act : Nat → State → State) (s : State) : Option State :=
  match o with
  | .queue k q =>
    if (queueOf k q s).full then none
    else
      match ringRoom k q s with
      | (none, s) => some s
      | (some false, s) => some (setQueue k q { queueOf k q s with full := true } s)
      | (some true, s) => some (beginJob o c act s)
  | .batch _ => some (beginJob o c act s)

/-- The name of a job's accesses, with the slot whose tables they use. -/
def jobRefOf (o : Owner) (j : Nat) (s : State) : JobRef := { jobRef j s with slot := ownSlot o s }

/-- A job that a check ends at its start. -/
def jobFail (j : Nat) (rd : Nat × Nat) (s : State) : State := endJob j 1 rd.1 rd.2 s

/-- A range of a named object at a job's start: the rest of the start goes on with its address (R202). -/
def withRange (o : Owner) (j : Nat) (h : Word) (off len : Nat) (k : Nat → State → State) (s : State) : State :=
  match nameRange o (jobRef j s) h off len s with
  | (.error rd, s) => jobFail j rd s
  | (.ok va, s) => k va s

/-- A descriptor that a job names by W1 and W2: checked, aligned and read (R202, R469). -/
def withDesc (o : Owner) (j rq : Nat) (c : List Word) (size align : Nat) (k : Nat → List Word → State → State)
    (s : State) : State :=
  withRange o j (cw c 1) (cw c 2).toNat size (fun va s =>
    if va % align ≠ 0 then jobFail j (0x0017, va) s
    else
      match vaReadAll rq (ownSlot o s) va size .rd s with
      | (.error (e, at'), s) => endByAccess rq j at' .rd e s
      | (.ok bs, s) => k va (rowWords 4 (size / 4) bs) s) s

/-! ## The commands that are no jobs -/

/-- NOP (R190). -/
def nopCmd (o : Owner) (c : List Word) (_ : Nat) (s : State) : Option State := some (finish o c s)

/-- SIGNAL (R194, R195). -/
def signalCmd (o : Owner) (c : List Word) (_ : Nat) (s : State) : Option State :=
  (signalWith o c (streamOf o s).sig (fun reason detail s => cmdFail o c 1 reason detail 0 s) s).map (finish o c)

/-- A WAIT is satisfied with a status: POLICY = 1 skips to the end of the batch (R196). -/
def waitSkip (o : Owner) (c : List Word) (st : Nat) (s : State) : State :=
  let t := streamOf o s
  if st ≠ 0 ∧ bit (cw c 2) 16 ∧ t.batchSkip = none then setStream o { t with batchSkip := some st } s else s

/-- The waiter of a stream. -/
def waiterOf : Owner → Waiter
  | .queue k q => .queue k q
  | .batch b => .batch b

/-- A registered WAIT leaves the fence unit and the link: its reference of the slot is dropped. -/
def unregister (o : Owner) (s : State) : State :=
  let slot := ownSlot o s
  let s := setStream o { streamOf o s with wait := none } s
  let s := { s with fnc := { s.fnc with waits := s.fnc.waits.filter (fun w => w.who != waiterOf o) } }
  slotDrop slot (dropTags (fun r => r.who == linkWho o && r.op == 6 && r.sub == 2) s)

/-- What ends a registered WAIT: a fence status, or a failure with status, reason and detail. -/
inductive WaitEnd where
  | ok (st : Nat)
  | failed (status reason detail : Nat)
deriving DecidableEq, Repr

/-- A registered WAIT ends (R188, R194, R196). -/
def waitDone (o : Owner) (e : WaitEnd) (s : State) : State :=
  match (streamOf o s).wait with
  | none => s
  | some w =>
    let s := restartTimer o (unregister o s)
    let s :=
      match e with
      | .ok st => waitSkip o w.cmd st s
      | .failed st r d => cmdFail o w.cmd st r d (s.fe.us - w.startUs) s
    retireCmd o w.cmd s

/-- WAIT: satisfied at once by a signalled fence, else registered, in the fence unit or at the fence's node (R185, R197,
R428, R437). -/
def waitCmd (o : Owner) (c : List Word) (_ : Nat) (s : State) : Option State :=
  let slot := ownSlot o s
  let item : WaitItem :=
    { index := fenceIdx (cw c 1), gen := fld (cw c 2) 0 16, remote := (fenceNode (cw c 1) s).isSome,
      node := fld (cw c 1) 20 4, policy := bit (cw c 2) 16, cmd := c, startUs := s.fe.us }
  let register := fun (s : State) =>
    let s := bump o s
    slotAcquire slot (setStream o { streamOf o s with wait := some item } s)
  match fenceNode (cw c 1) s with
  | some m =>
    if linkStopped slot s then none
    else if reachable m s then some (fenceOp (linkWho o) slot 2 (cw c 1) (cw c 2 &&& 0xFFFF#32) 0 c 0 0 (register s))
    else some (finish o c (waitSkip o c 1 (restartTimer o s)))
  | none =>
    match cmdFence o c s with
    | (some rd, s) => some (finish o c (cmdFail o c 1 rd.1 rd.2 0 s))
    | (none, s) =>
      match fenceNamed o c s with
      | none => some (finish o c (cmdFail o c 1 0x0003 (fenceDetail (cw c 1) (cw c 2)) 0 s))
      | some i =>
        let e := fenceGet i s
        if e.signalled then some (finish o c (waitSkip o c e.status (restartTimer o s)))
        else
          let s := register s
          some { s with fnc := { s.fnc with waits := s.fnc.waits ++ [{ index := i, gen := item.gen, who := waiterOf o }] } }

/-- FENCE_RESET (R194, R437). -/
def fenceResetCmd (o : Owner) (c : List Word) (_ : Nat) (s : State) : Option State :=
  match fenceNode (cw c 1) s with
  | some m =>
    if linkStopped (ownSlot o s) s then none
    else if reachable m s then some (finish o c
      (fenceOp (linkWho o) (ownSlot o s) 1 (cw c 1) (cw c 2) 0 c (failNo o s) ((streamOf o s).started % 2 ^ 32) s))
    else some (finish o c s)
  | none =>
    match cmdFence o c s with
    | (some rd, s) => some (finish o c (cmdFail o c 1 rd.1 rd.2 0 s))
    | (none, s) =>
      match fenceNamed o c s with
      | none => some (finish o c (cmdFail o c 1 0x0003 (fenceDetail (cw c 1) (cw c 2)) 0 s))
      | some i => some (finish o c (fenceReset i s))

/-- A failed access of a command that is no job. -/
def cmdAccess (o : Owner) (c : List Word) (va : Nat) (k : XKind) (e : AccErr) (s : State) : State :=
  let (rd, s) := accessFault (ownRq o) (ownRef o s) va k e s
  cmdFail o c 1 rd.1 rd.2 0 s

/-- WRITE: one store (R194). -/
def writeCmd (o : Owner) (c : List Word) (_ : Nat) (s : State) : Option State :=
  let n := if argsOf c % 2 = 1 then 8 else 4
  some (finish o c (
    match nameRange o (ownRef o s) (cw c 1) (cw c 2).toNat n s with
    | (.error rd, s) => cmdFail o c 1 rd.1 rd.2 0 s
    | (.ok va, s) =>
      match vaWrite (ownRq o) (ownSlot o s) va (toLE n (cw64 c 3)) s with
      | (.error e, s) => cmdAccess o c va .wr e s
      | (.ok _, s) => s))

/-- The comparison of COND on `n`-byte values (R192). -/
def condTrue (op n v imm : Nat) : Bool :=
  if op = 0 then v == imm else if op = 1 then v != imm else if op = 2 then v < imm else if op = 3 then v ≤ imm
  else if op = 4 then sext (8 * n) v < sext (8 * n) imm else if op = 5 then sext (8 * n) v ≤ sext (8 * n) imm
  else if op = 6 then v != 0 else v == 0

/-- COND that holds: a skip, or a break out of the current called buffer (R192). -/
def condAct (o : Owner) (c : List Word) (level : Nat) (s : State) : State :=
  if argsOf c / 32 % 2 = 0 then
    let s := hrel o c (bump o s)
    settle o 8 (batchEnd o c (setStream o { streamOf o s with condSkip := fld (cw c 7) 0 16 } s))
  else if level = 0 then finish o c (cmdFail o c 1 0x0001 0x14 0 s)
  else
    let t := streamOf o s
    retireCmd o c (setStream o { t with frames :=
      match t.frames with
      | f :: rest => { f with pos := f.count, left := 0 } :: rest
      | [] => [] } s)

/-- COND (R192). -/
def condCmd (o : Owner) (c : List Word) (level : Nat) (s : State) : Option State :=
  let n := if argsOf c / 16 % 2 = 1 then 8 else 4
  some (
    match nameRange o (ownRef o s) (cw c 1) (cw c 2).toNat n s with
    | (.error rd, s) => finish o c (cmdFail o c 1 rd.1 rd.2 0 s)
    | (.ok va, s) =>
      match vaReadAll (ownRq o) (ownSlot o s) va n .rd s with
      | (.error (e, at'), s) => finish o c (cmdAccess o c at' .rd e s)
      | (.ok bs, s) =>
        let m := 2 ^ (8 * n)
        if condTrue (argsOf c % 16) n (leNat bs &&& (cw64 c 5 % m)) (cw64 c 3 % m) then condAct o c level s
        else finish o c s)

/-- A called buffer entered, or passed over where it repeats 0 times (R193). -/
def enterCall (o : Owner) (c : List Word) (va n : Nat) (s : State) : State :=
  if n = 0 then finish o c s
  else
    let s := bump o s
    let t := streamOf o s
    setStream o { t with
      frames := { base := va, count := (cw c 3).toNat, pos := 0, left := n - 1, cmd := c } :: t.frames, condSkip := 0 } s

/-- CALL (R193). -/
def callCmd (o : Owner) (c : List Word) (level : Nat) (s : State) : Option State :=
  some (
    if 4 ≤ level then finish o c (cmdFail o c 1 0x0002 0 0 s)
    else
      match nameRange o (ownRef o s) (cw c 1) (cw c 2).toNat (32 * (cw c 3).toNat) s with
      | (.error rd, s) => finish o c (cmdFail o c 1 rd.1 rd.2 0 s)
      | (.ok va, s) =>
        if argsOf c % 2 = 0 then enterCall o c va (cw c 4).toNat s
        else
          match nameRange o (ownRef o s) (cw c 5) (cw c 6).toNat 4 s with
          | (.error rd, s) => finish o c (cmdFail o c 1 rd.1 rd.2 0 s)
          | (.ok rva, s) =>
            match vaReadAll (ownRq o) (ownSlot o s) rva 4 .rd s with
            | (.error (e, at'), s) => finish o c (cmdAccess o c at' .rd e s)
            | (.ok bs, s) => enterCall o c va (leNat bs) s)

/-- RETURN: the current repetition ends (R193). -/
def retCmd (o : Owner) (c : List Word) (level : Nat) (s : State) : Option State :=
  some (
    if level = 0 then finish o c (cmdFail o c 1 0x0001 0x16 0 s)
    else
      let t := streamOf o s
      retireCmd o c (setStream o { t with frames :=
        match t.frames with
        | f :: rest => { f with pos := f.count } :: rest
        | [] => [] } s))

/-! ## Fetch faults and the full ring (R186, R468) -/

/-- FETCH_FAULT: a command cannot be fetched. A queue writes a record with OPCODE 0xFF and is HALTED at that command; a
step fails, and its fetcher passes on (R219). -/
def fetchFault (f : Fetcher) (s : State) : State :=
  let o := ownerOf f
  if !(fetching o s) then s
  else
    match fetchPos o s with
    | none => s
    | some (va, _) =>
      match vaRead (ownRq o) (ownSlot o s) va 32 .rd s with
      | (.ok _, _) => s
      | (.error e, s) =>
        let s := fetcherFault o va .rd e s
        match o with
        | .queue k q =>
          haltQueue k q (writeRecord k q 0xFF false
            { status := 1, reason := accReason e, detail := va, start := (streamOf o s).started % 2 ^ 32 } s)
        | .batch _ =>
          let s := issueNext o s
          settle o 8 (bump o (streamFail o (failNo o s) 1 (accReason e) s))

/-- CPL_CONS_RECHECK: while the ring is full, CPL_CONS is read again (R186). -/
def consRecheck (slot q : Nat) (s : State) : State :=
  let x := queueOf slot q s
  if !x.full || x.state ≠ 2 then s
  else
    match ringRoom slot q s with
    | (some false, s') => s'
    | (_, s') => setQueue slot q { queueOf slot q s' with full := false } s'

/-! ## Meanings -/

/-- FETCH_FAULT (R468). -/
def execFetchFault (fe : Fetcher) (s : State) : Out := toNext (fetchFault fe s)

/-- CPL_CONS_RECHECK (R186). -/
def execCplConsRecheck (slot : Fin 64) (q : Fin 16) (s : State) : Out := toNext (consRecheck slot.val q.val s)

/-- NOP (R190). -/
def execNop (fe : Fetcher) (s : State) : Out := toNext (onCommand fe (selOp 0x00) nopCmd s)

/-- SIGNAL (R195). -/
def execSignal (fe : Fetcher) (s : State) : Out := toNext (onCommand fe (selOp 0x10) signalCmd s)

/-- WAIT (R197). -/
def execWaitFence (fe : Fetcher) (s : State) : Out := toNext (onCommand fe (selOp 0x11) waitCmd s)

/-- FENCE_RESET (R198). -/
def execFenceReset (fe : Fetcher) (s : State) : Out := toNext (onCommand fe (selOp 0x12) fenceResetCmd s)

/-- WRITE (R194). -/
def execWriteCmd (fe : Fetcher) (s : State) : Out := toNext (onCommand fe (selOp 0x13) writeCmd s)

/-- COND (R192). -/
def execCond (fe : Fetcher) (s : State) : Out := toNext (onCommand fe (selOp 0x14) condCmd s)

/-- CALL (R193). -/
def execCall (fe : Fetcher) (s : State) : Out := toNext (onCommand fe (selOp 0x15) callCmd s)

/-- RETURN (R193). -/
def execRet (fe : Fetcher) (s : State) : Out := toNext (onCommand fe (selOp 0x16) retCmd s)

/-- A reserved opcode at the fetch position faults with BAD_CMD (R184). -/
def execReservedCommandOpcode (fe : Fetcher) (s : State) : Out :=
  toNext (onCommand fe (fun c => (opMasks (opOf c)).isNone) (fun _ _ _ _ => none) s)

end Sys2Proof.Machine
end

