-- ==== Sys2Proof/Machine/Gelu.lean ====
section
/-!
DEFINITION. The GELU table of R79: 256 segments over [-8, 8), each value the correctly rounded FP32 value of the real
number that R79 names, computed from that definition with 1,200-bit arithmetic.
-/
namespace Sys2Proof.Machine

/-- Entries 0 to 31 of `geluC0`. -/
def geluC00 : List Nat :=
  [0xA7B34E96, 0xA8137DC8, 0xA871B1D7, 0xA8C5428B, 0xA9205DA6, 0xA981DCF3, 0xA9D180D2, 0xAA2854F9,
   0xAA86B932, 0xAAD6CED9, 0xAB2A9484, 0xAB86EDF5, 0xABD4A034, 0xAC26E065, 0xAC827591, 0xACCB2E82,
   0xAD1D9A58, 0xAD738ABE, 0xADBB6FA2, 0xAE0FB11E, 0xAE5B73DC, 0xAEA6EC86, 0xAEFCF1DC, 0xAF3EE5F1,
   0xAF8F821F, 0xAFD6EC05, 0xB0204EA8, 0xB06E34EA, 0xB0B049C0, 0xB101F43F, 0xB13ED8C3, 0xB18B9672]

/-- Entries 32 to 63 of `geluC0`. -/
def geluC01 : List Nat :=
  [0xB1CB64B3, 0xB2139A3A, 0xB255643D, 0xB299A5F1, 0xB2DC656C, 0xB31D7392, 0xB360160D, 0xB39ED5FF,
   0xB3E049EC, 0xB41DBC70, 0xB45CFE43, 0xB49A33C8, 0xB4D659EF, 0xB5146597, 0xB54CAA83, 0xB58C94F3,
   0xB5C05E5D, 0xB603196C, 0xB631FC8E, 0xB670B178, 0xB6A21B39, 0xB6D97F6D, 0xB7115588, 0xB741767D,
   0xB7804203, 0xB7A963AB, 0xB7DED45F, 0xB811FC9A, 0xB83E880C, 0xB877AFA4, 0xB8A05B52, 0xB8CED0A4]

/-- Entries 64 to 95 of `geluC0`. -/
def geluC02 : List Nat :=
  [0xB904D6BD, 0xB929F88E, 0xB9589ED6, 0xB9897D2E, 0xB9ADD5E0, 0xB9DAEAB0, 0xBA094BC6, 0xBA2B86F4,
   0xBA557028, 0xBA8443A9, 0xBAA344BC, 0xBAC8BB9D, 0xBAF5CDAE, 0xBB15E447, 0xBB361288, 0xBB5C44E4,
   0xBB84B34C, 0xBB9F3DBF, 0xBBBE5028, 0xBBE2852A, 0xBC064197, 0xBC1E7DC0, 0xBC3A5477, 0xBC5A26F6,
   0xBC7E590F, 0xBC93A7D0, 0xBCAAB758, 0xBCC48B9E, 0xBCE1524D, 0xBD009A63, 0xBD122B40, 0xBD25699A]

/-- Entries 96 to 127 of `geluC0`. -/
def geluC03 : List Nat :=
  [0xBD3A5E7C, 0xBD510D16, 0xBD6971AE, 0xBD81C045, 0xBD8F9270, 0xBD9E1FE1, 0xBDAD5395, 0xBDBD1288,
   0xBDCD3B52, 0xBDDDA5D8, 0xBDEE2317, 0xBDFE7D08, 0xBE073B51, 0xBE0EE605, 0xBE16196B, 0xBE1CAD40,
   0xBE227686, 0xBE2747DB, 0xBE2AF1F3, 0xBE2D4418, 0xBE2E0CC0, 0xBE2D1A2C, 0xBE2A3B12, 0xBE253F50,
   0xBE1DF8A2, 0xBE143B52, 0xBE07DEED, 0xBDF17DCB, 0xBDCD765D, 0xBDA3718E, 0xBD6688B6, 0xBCF33DFE]

/-- Entries 128 to 159 of `geluC0`. -/
def geluC04 : List Nat :=
  [0x00000000, 0x3D066101, 0x3D8CBBA5, 0x3DDC8E72, 0x3E1944D1, 0x3E47411A, 0x3E782113, 0x3E95E257,
   0x3EB103AF, 0x3ECD6058, 0x3EEAE277, 0x3F04B975, 0x3F147CD0, 0x3F24AEFA, 0x3F354383, 0x3F462E09,
   0x3F57625F, 0x3F68D4B0, 0x3F7A79A5, 0x3F86233F, 0x3F8F1896, 0x3F981830, 0x3FA11DCF, 0x3FAA25A2,
   0x3FB32C4B, 0x3FBC2ED7, 0x3FC52AC7, 0x3FCE1E02, 0x3FD706D9, 0x3FDFE3FC, 0x3FE8B473, 0x3FF17797]

/-- Entries 160 to 191 of `geluC0`. -/
def geluC05 : List Nat :=
  [0x3FFA2D0C, 0x40016A5A, 0x4005B753, 0x4009FD96, 0x400E3D5B, 0x401276E9, 0x4016AA91, 0x401AD8B0,
   0x401F01A7, 0x402325D9, 0x402745AC, 0x402B6182, 0x402F79BE, 0x40338EBD, 0x4037A0D8, 0x403BB061,
   0x403FBDA6, 0x4043C8EF, 0x4047D27B, 0x404BDA87, 0x404FE146, 0x4053E6E9, 0x4057EB97, 0x405BEF78,
   0x405FF2A9, 0x4063F548, 0x4067F76B, 0x406BF929, 0x406FFA91, 0x4073FBB4, 0x4077FC9E, 0x407BFD58]

/-- Entries 192 to 223 of `geluC0`. -/
def geluC06 : List Nat :=
  [0x407FFDED, 0x4081FF31, 0x4083FF60, 0x4085FF84, 0x4087FFA1, 0x4089FFB7, 0x408BFFC8, 0x408DFFD6,
   0x408FFFE0, 0x4091FFE8, 0x4093FFEE, 0x4095FFF2, 0x4097FFF6, 0x4099FFF8, 0x409BFFFA, 0x409DFFFC,
   0x409FFFFD, 0x40A1FFFE, 0x40A3FFFE, 0x40A5FFFF, 0x40A7FFFF, 0x40A9FFFF, 0x40AC0000, 0x40AE0000,
   0x40B00000, 0x40B20000, 0x40B40000, 0x40B60000, 0x40B80000, 0x40BA0000, 0x40BC0000, 0x40BE0000]

/-- Entries 224 to 255 of `geluC0`. -/
def geluC07 : List Nat :=
  [0x40C00000, 0x40C20000, 0x40C40000, 0x40C60000, 0x40C80000, 0x40CA0000, 0x40CC0000, 0x40CE0000,
   0x40D00000, 0x40D20000, 0x40D40000, 0x40D60000, 0x40D80000, 0x40DA0000, 0x40DC0000, 0x40DE0000,
   0x40E00000, 0x40E20000, 0x40E40000, 0x40E60000, 0x40E80000, 0x40EA0000, 0x40EC0000, 0x40EE0000,
   0x40F00000, 0x40F20000, 0x40F40000, 0x40F60000, 0x40F80000, 0x40FA0000, 0x40FC0000, 0x40FE0000]

/-- The table c0 of R79: G at the start of each segment. -/
def geluC0 : List Nat :=
  geluC00 ++ geluC01 ++ geluC02 ++ geluC03 ++ geluC04 ++ geluC05 ++ geluC06 ++ geluC07

/-- Entries 0 to 31 of `geluC1`. -/
def geluC10 : List Nat :=
  [0xA96759F5, 0xA9BC681D, 0xAA18D33F, 0xAA76F181, 0xAAC6B883, 0xAB1F47BC, 0xAB7E5240, 0xABCA3AD8,
   0xAC202B4E, 0xAC7CB45C, 0xACC68ECD, 0xAD1B647E, 0xAD72412A, 0xADBC1579, 0xAE1171E2, 0xAE600C5C,
   0xAEABE0CD, 0xAF035486, 0xAF47E534, 0xAF97857D, 0xAFE4CA60, 0xB02C0AAB, 0xB080DA07, 0xB0C03C97,
   0xB10ED3CD, 0xB1536297, 0xB19BCC84, 0xB1E4BD2B, 0xB2273D7D, 0xB2739211, 0xB2B0A841, 0xB2FF3905]

/-- Entries 32 to 63 of `geluC1`. -/
def geluC11 : List Nat :=
  [0xB3379F83, 0xB3839405, 0xB3BBCF48, 0xB4057EF6, 0xB43D0370, 0xB48544F5, 0xB4BB2BE1, 0xB502E7DB,
   0xB5365DE6, 0xB57D074B, 0xB5AED29A, 0xB5F0989F, 0xB624E27E, 0xB66113AE, 0xB698FEC5, 0xB6CF25AC,
   0xB70BA8F6, 0xB73B8C86, 0xB77AD3AA, 0xB7A709F4, 0xB7DD90D0, 0xB8125747, 0xB84083D2, 0xB87C3629,
   0xB8A4869F, 0xB8D5C2CD, 0xB90A49AA, 0xB9322DCA, 0xB9649E5F, 0xB9920E01, 0xB9B9D549, 0xB9EB7354]

/-- Entries 64 to 95 of `geluC1`. -/
def geluC12 : List Nat :=
  [0xBA148745, 0xBA3A991E, 0xBA696E1E, 0xBA9162C8, 0xBAB4533C, 0xBADEB371, 0xBB08ECBA, 0xBB27A4CF,
   0xBB4C5CAB, 0xBB780897, 0xBB95DB83, 0xBBB44844, 0xBBD7EB83, 0xBC00B901, 0xBC18C971, 0xBC3486CF,
   0xBC54539A, 0xBC789349, 0xBC90D407, 0xBCA7F811, 0xBCC1E145, 0xBCDEB5B9, 0xBCFE93FC, 0xBD10C864,
   0xBD23DA41, 0xBD387C42, 0xBD4EA22E, 0xBD663576, 0xBD7F13CC, 0xBD8C86E5, 0xBD99F2D3, 0xBDA7A711]

/-- Entries 96 to 127 of `geluC1`. -/
def geluC13 : List Nat :=
  [0xBDB574D0, 0xBDC324BE, 0xBDD076E4, 0xBDDD22AA, 0xBDE8D714, 0xBDF33B45, 0xBDFBEF30, 0xBE01464E,
   0xBE035431, 0xBE03E9F8, 0xBE02CF82, 0xBDFF99B2, 0xBDF5567C, 0xBDE66CAD, 0xBDD27AB9, 0xBDB928AE,
   0xBD9A2AA0, 0xBD6A85F6, 0xBD148952, 0xBC48A820, 0x3C729457, 0x3D37C687, 0x3D9F7832, 0x3DE8D5C8,
   0x3E1BD4F8, 0x3E45C650, 0x3E72007D, 0x3E901DB7, 0x3EA8133D, 0x3EC0B4CC, 0x3ED9D36E, 0x3EF33DFE]

/-- Entries 128 to 159 of `geluC1`. -/
def geluC14 : List Nat :=
  [0x3F066101, 0x3F131649, 0x3F1FA59A, 0x3F2BF662, 0x3F37F124, 0x3F437FE1, 0x3F4E8E6C, 0x3F590AC2,
   0x3F62E547, 0x3F6C10FA, 0x3F748398, 0x3F7C35AF, 0x3F819150, 0x3F84A44B, 0x3F875430, 0x3F89A2AA,
   0x3F8B928B, 0x3F8D27AC, 0x3F8E66CB, 0x3F8F5568, 0x3F8FF99B, 0x3F9059F0, 0x3F907D3F, 0x3F906A86,
   0x3F9028CA, 0x3F8FBEF3, 0x3F8F33B4, 0x3F8E8D71, 0x3F8DD22B, 0x3F8D076E, 0x3F8C324C, 0x3F8B574D]

/-- Entries 160 to 191 of `geluC1`. -/
def geluC15 : List Nat :=
  [0x3F8A7A71, 0x3F899F2D, 0x3F88C86E, 0x3F87F89E, 0x3F8731AC, 0x3F867511, 0x3F85C3E2, 0x3F851ED2,
   0x3F848643, 0x3F83FA50, 0x3F837AD7, 0x3F830785, 0x3F829FE0, 0x3F824350, 0x3F81F127, 0x3F81A8A7,
   0x3F81690E, 0x3F813193, 0x3F810172, 0x3F80D7EC, 0x3F80B448, 0x3F8095DC, 0x3F807C04, 0x3F80662E,
   0x3F8053D2, 0x3F804476, 0x3F8037AD, 0x3F802D15, 0x3F802459, 0x3F801D2E, 0x3F801753, 0x3F801291]

/-- Entries 192 to 223 of `geluC1`. -/
def geluC16 : List Nat :=
  [0x3F800EB7, 0x3F800B9D, 0x3F800921, 0x3F800725, 0x3F800591, 0x3F800452, 0x3F800357, 0x3F800292,
   0x3F8001F8, 0x3F800181, 0x3F800125, 0x3F8000DE, 0x3F8000A7, 0x3F80007D, 0x3F80005E, 0x3F800046,
   0x3F800034, 0x3F800026, 0x3F80001C, 0x3F800015, 0x3F80000F, 0x3F80000B, 0x3F800008, 0x3F800006,
   0x3F800004, 0x3F800003, 0x3F800002, 0x3F800001, 0x3F800001, 0x3F800001, 0x3F800001, 0x3F800000]

/-- Entries 224 to 255 of `geluC1`. -/
def geluC17 : List Nat :=
  [0x3F800000, 0x3F800000, 0x3F800000, 0x3F800000, 0x3F800000, 0x3F800000, 0x3F800000, 0x3F800000,
   0x3F800000, 0x3F800000, 0x3F800000, 0x3F800000, 0x3F800000, 0x3F800000, 0x3F800000, 0x3F800000,
   0x3F800000, 0x3F800000, 0x3F800000, 0x3F800000, 0x3F800000, 0x3F800000, 0x3F800000, 0x3F800000,
   0x3F800000, 0x3F800000, 0x3F800000, 0x3F800000, 0x3F800000, 0x3F800000, 0x3F800000, 0x3F800000]

/-- The table c1 of R79: 16 times the rise of G over each segment. -/
def geluC1 : List Nat :=
  geluC10 ++ geluC11 ++ geluC12 ++ geluC13 ++ geluC14 ++ geluC15 ++ geluC16 ++ geluC17

end Sys2Proof.Machine
end

