-- ==== Sys2Proof/Machine/Me.lean ====
section
/-!
DEFINITION. The matrix engines (R61 to R89): queues, start gates, descriptor checks, the arithmetic of an operation with
its post-ops, residue checking and NaN-trap.
-/
namespace Sys2Proof.Machine

/-! ## Descriptors (Tables 3-2 to 3-5) -/

/-- A field of a descriptor word. -/
def df (d : List Word) (w lo n : Nat) : Nat := fld (nth 0 d w) lo n

/-- Reserved fields of an ME descriptor are not all 0. -/
def meReserved (d : List Word) : Bool :=
  df d 0 10 1 != 0 || df d 0 15 1 != 0 || df d 0 28 4 != 0 || df d 1 13 19 != 0 || df d 2 19 13 != 0 ||
  df d 3 19 13 != 0 || df d 4 19 13 != 0 || df d 6 19 13 != 0 || df d 9 19 13 != 0 || df d 7 6 26 != 0 ||
  df d 14 0 32 != 0 || df d 15 0 32 != 0

/-- Reserved fields of a panel-stream descriptor are not all 0. -/
def sdReserved (d : List Word) : Bool :=
  df d 0 5 27 != 0 || df d 1 19 13 != 0 || df d 2 20 12 != 0 || df d 3 19 13 != 0 || df d 4 16 16 != 0 ||
  (d.drop 5).any (· != 0)

/-- A_FMT and B_FMT. -/
def meA (d : List Word) : Nat := df d 0 0 4
def meB (d : List Word) : Nat := df d 0 4 4

/-- The combinations of Table 2-3. -/
def comboOk (a b : Nat) : Bool :=
  (a ≤ 1 && b ≤ 1) || (a == 2 && b == 2) || (a == 3 && b == 3) || ((a == 5 || a == 6) && (b == 5 || b == 6)) ||
  (a == 7 && b == 7) || (a == 4 && (b == 4 || b == 8))

/-- INT8 operands: an INT32 accumulator. -/
def meInt (d : List Word) : Bool := meA d == 4
/-- MX operands. -/
def meMx (d : List Word) : Bool := 5 ≤ meA d && meA d ≤ 7
/-- The 16-bit class (R76, R80). -/
def me16 (d : List Word) : Bool := (meA d == 2 && meB d == 2) || (meA d == 3 && meB d == 3)

/-- The ELEM code that a format needs (R73). -/
def elemOf (f : Nat) : Nat := if f = 2 ∨ f = 3 then 1 else if f = 8 then 2 else 0

/-- K, valid rows, valid columns. -/
def meK (d : List Word) : Nat := df d 1 0 13
def meM (d : List Word) : Nat := df d 0 20 4 + 1
def meN (d : List Word) : Nat := df d 0 24 4 + 1
/-- K-groups. -/
def meGroups (d : List Word) : Nat := (meK d + 31) / 32

/-- A stream's last byte beyond, for `n` rows or columns and `k` terms (R70, R72). -/
def streamEnd (d : List Word) (n k : Nat) : Nat :=
  let base := df d 1 0 19
  let st := df d 2 0 20
  let e := df d 0 0 2
  if e = 2 then base + (n - 1) * st + (k - 1) / 2 + 1
  else
    let sz := e + 1
    if df d 0 3 1 = 0 then base + (n - 1) * st + k * sz else base + (k - 1) * st + n * sz

/-- Addresses, strides and extents of a stream are good for an allocation of `size` bytes (R71, R72). -/
def streamOk (d : List Word) (n k size : Nat) : Bool :=
  let e := df d 0 0 2
  (e != 1 || df d 1 0 19 % 2 == 0) && df d 2 0 20 % 16 == 0 && streamEnd d n k ≤ size &&
  (df d 0 4 1 == 0 ||
    (df d 4 0 16 % 16 == 0 && 16 ≤ df d 4 0 16 &&
      df d 3 0 19 + ((k + 31) / 32 - 1) * df d 4 0 16 + n ≤ size))

/-- A stream is consistent with its format and role (R71, R73). -/
def streamMatches (d : List Word) (fmt role : Nat) (mx : Bool) : Bool :=
  df d 0 0 2 != 3 && df d 0 0 2 == elemOf fmt && df d 0 2 1 == role && (df d 0 4 1 == 1) == mx &&
  (fmt != 8 || df d 0 3 1 == 0)

/-- Bytes of an output or accumulator element. -/
def outSize (f : Nat) : Nat := if f = 0 ∨ f = 6 then 4 else if f = 1 ∨ f = 2 then 2 else 1
def cSize (f : Nat) : Nat := if f = 0 ∨ f = 3 then 4 else 2

/-- Every other address, stride and extent of the descriptor is good (R76 check 11). DESIGN CHOICE (log 87): C_ADDR and OUT_ADDR are
aligned to the element, the scale vector and BIAS_ADDR to 4 bytes, and the fields of C, of the output, of the scale vector and of the
bias are checked where the operation uses them; the manual states an alignment for BASE and for the strides only. -/
def meAddrsOk (d : List Word) (size : Nat) : Bool :=
  let cs := cSize (df d 0 8 2)
  let os := outSize (df d 0 16 4)
  let out := df d 0 14 1 = 1
  (df d 0 12 2 != 2 ||
    (df d 4 0 19 % cs == 0 && df d 5 0 16 % 16 == 0 && df d 4 0 19 + 15 * df d 5 0 16 + 16 * cs ≤ size)) &&
  (!out ||
    (df d 6 0 19 % os == 0 && df d 5 16 16 % 16 == 0 &&
      df d 6 0 19 + (meM d - 1) * df d 5 16 16 + meN d * os ≤ size)) &&
  (!(out && df d 7 0 1 = 1 && df d 7 1 1 = 1) || (df d 8 0 19 % 4 == 0 && df d 8 0 19 + 64 ≤ size)) &&
  (!(out && df d 7 2 1 = 1) || (df d 9 0 19 % 4 == 0 && df d 9 0 19 + 64 ≤ size))

/-- 16 words of a block's local memory. -/
def lmWords (b off n : Nat) (s : State) : List Word := rowWords 4 n (lmBytes b off (4 * n) s)

/-- The checks of R76 in their order: the first failing reason, or 0. -/
def meCheck (op : MeOp) (size : Nat) (tileInt : Bool) (s : State) : Nat :=
  let d := lmWords op.block op.addr 16 s
  let sda := df d 2 0 19
  let sdb := df d 3 0 19
  let a := lmWords op.block sda 16 s
  let b := lmWords op.block sdb 16 s
  if op.bad then 0x05
  else if meReserved d then 0x07
  else if !(comboOk (meA d) (meB d)) then 0x01
  else if 7 ≤ df d 0 16 4 ∨ df d 7 3 2 = 3 ∨ df d 0 12 2 = 3 ∨
      (df d 0 12 2 = 2 ∧ (if meInt d then df d 0 8 2 ≠ 3 else df d 0 8 2 = 3)) then 0x02
  else if meK d = 0 ∨ 4096 < meK d then 0x03
  else if meMx d ∧ meK d % 32 ≠ 0 then 0x04
  else if sda % 64 ≠ 0 ∨ sdb % 64 ≠ 0 ∨ size < sda + 64 ∨ size < sdb + 64 then 0x05
  else if sdReserved a ∨ sdReserved b then 0x07
  else if !(streamMatches a (meA d) 0 (meMx d)) || !(streamMatches b (meB d) 1 (meMx d)) then 0x06
  else if df d 0 12 2 = 1 ∧ tileInt ≠ meInt d then 0x08
  else if !(streamOk a (meM d) (meK d) size) || !(streamOk b (meN d) (meK d) size) || !(meAddrsOk d size) then 0x05
  else 0

/-! ## Arithmetic of an operation -/

/-- The floating format of an operand code. -/
def opFp (f : Nat) : FpFmt := if f = 1 ∨ f = 6 then .e5m2 else if f = 2 then .bf16 else if f = 3 then .fp16 else .e4m3

/-- The raw bits of element (i, k) of a stream. -/
def elemBits (b : Nat) (d : List Word) (i k : Nat) (s : State) : Nat :=
  let base := df d 1 0 19
  let st := df d 2 0 20
  let e := df d 0 0 2
  if e = 2 then leNat (lmBytes b (base + i * st + k / 2) 1 s) / 16 ^ (k % 2) % 16
  else
    let sz := e + 1
    if df d 0 3 1 = 0 then leNat (lmBytes b (base + i * st + k * sz) sz s)
    else leNat (lmBytes b (base + k * st + i * sz) sz s)

/-- The terms of one row or column: rows and columns that are not valid enter as zero (R70). -/
def termBits (b : Nat) (d : List Word) (valid k i : Nat) (s : State) : List Nat :=
  (List.range k).map (fun x => if i < valid then elemBits b d i x s else 0)

/-- The block scale of row or column i in group g; a row that is not valid takes part with zeros only. -/
def scaleBits (b : Nat) (d : List Word) (valid i g : Nat) (s : State) : Nat :=
  if i < valid then leNat (lmBytes b (df d 3 0 19 + g * df d 4 0 16 + i) 1 s) else 127

/-- An element's progress: the accumulator word, its flags, and the first INVALID as time, cause and group (R86). -/
structure Elem where
  acc : Word
  flags : Nat := 0
  first : Option (Nat × Nat × Nat) := none
deriving DecidableEq, Repr

/-- An INVALID noted at a time with a cause and a group; the first stands. -/
def Elem.note (e : Elem) (time cause g : Nat) : Elem :=
  { e with flags := e.flags ||| flInvalid, first := e.first.or (some (time, cause, g)) }

/-- The cause of an INVALID group result, in the order of R45. -/
def groupCause (nanScale : Bool) (ps : List (FV × FV)) : Nat :=
  if ps.any (fun p => p.1 == .nan || p.2 == .nan) then 0
  else if nanScale then 1
  else if ps.any (fun p => fvMul p.1 p.2 == .nan) then 2
  else 3

/-- One group of an FP32 accumulation. -/
def stepFp (e : Elem) (g : Nat) (res : Word × Nat) (cause : Nat) : Elem :=
  let e := if res.2 % 2 = 1 then e.note (1 + g) cause g else e
  let r := accAdd false e.acc res.1
  let e := if r.2 % 2 = 1 then e.note (1 + g) 4 g else e
  { e with acc := r.1 }

/-- The accumulation of element (i, j) over all groups (R42 to R48). -/
def dotElem (b : Nat) (d sa sb : List Word) (start : Elem) (as bs : List Nat) (i j : Nat) (s : State) : Elem :=
  let ga := groups32 (meK d) as
  let gb := groups32 (meK d) bs
  (List.range (meGroups d)).foldl (fun e g =>
    let ps := (nth [] ga g).zip (nth [] gb g)
    if meInt d then
      let fb := if meB d = 8 then 4 else 8
      let r := accInt (e.acc, e.flags) (ps.foldl (fun (t : Int) p => t + sext 8 p.1 * sext fb p.2) 0)
      { e with acc := r.1, flags := r.2 }
    else
      let xa := if meMx d then scaleBits b sa (meM d) i g s else 127
      let xb := if meMx d then scaleBits b sb (meN d) j g s else 127
      let sc : Int := (xa : Int) + (xb : Int) - 254
      let nanS := xa == 255 || xb == 255
      if meA d = 7 then
        stepFp e g (groupMxInt nanS sc (ps.map (fun p => (sext 8 p.1, sext 8 p.2)))) 1
      else
        let fs := ps.map (fun p => (fpDec (opFp (meA d)) p.1, fpDec (opFp (meB d)) p.2))
        stepFp e g (groupFp nanS sc fs) (groupCause nanS fs)) start

/-- The accumulator's start of element (i, j) (R41, R74, R75). -/
def startElem (b : Nat) (d : List Word) (t : Tile) (i j : Nat) (s : State) : Elem :=
  if df d 0 12 2 = 0 then { acc := 0 }
  else if df d 0 12 2 = 1 then { acc := nth 0 t.v (16 * i + j) }
  else
    let f := df d 0 8 2
    let bits := leNat (lmBytes b (df d 4 0 19 + i * df d 5 0 16 + j * cSize f) (cSize f) s)
    if f = 3 then { acc := w32 bits }
    else
      let r := loadAcc (if f = 0 then .fp32 else if f = 1 then .bf16 else .fp16) bits
      let e : Elem := { acc := r.1 }
      if r.2 % 2 = 1 then e.note 0 5 0 else e

/-! ## Post-ops (R77 to R79) -/

/-- A GELU evaluation reads the table: not for a NaN, at or above 8, or below −8. -/
def geluReads (x : Word) : Bool :=
  match f32 x with
  | .nan => false
  | v => fvLt v (.fin false 8 0) && !(fvLt v (.fin true 8 0))

/-- GELU by its fixed table (R79). -/
def gelu (x : Word) : Word :=
  match f32 x with
  | .nan => 0x7FC00000#32
  | v =>
    if !(fvLt v (.fin false 8 0)) then x
    else if fvLt v (.fin true 8 0) then 0
    else
      let i : Nat := Int.toNat (fvOn (-160) (fvAdd v (.fin false 8 0)) / 2 ^ 156)
      let d := f32 (toF32 (fvAdd v (fvOf (128 - (i : Int)) (-4))))
      plusZero (toF32 (fvAdd (fvMul (f32 (w32 (nth 0 geluC1 i))) d) (f32 (w32 (nth 0 geluC0 i)))))

/-- The output format of a code. -/
def outFmt (f : Nat) : FpFmt := if f = 1 then .bf16 else if f = 2 then .fp16 else if f = 3 then .e4m3 else if f = 4 then .e5m2 else .fp32

/-- A value delivered in OUT_FMT (Tables 2-4, 2-5): bits, flags. -/
def deliver32 (f : Nat) (v : FV) : Nat × Nat :=
  if f = 5 then outInt 8 v else if f = 6 then outInt 32 v else outFp (outFmt f) v

/-- One output element through the post-op unit: its bits and the element's flags and first INVALID. DESIGN CHOICE (log 87): among
the post-op steps of an operation's elements every INVALID of scale and bias (time 200) comes before every INVALID of the output
conversion (time 201); the manual orders elements that set INVALID in one cycle only. -/
def postElem (b : Nat) (d : List Word) (j : Nat) (e : Elem) (s : State) : Nat × Elem :=
  let f := df d 0 16 4
  let plain := df d 7 0 1 = 0 ∧ df d 7 2 1 = 0 ∧ df d 7 5 1 = 0 ∧ df d 7 3 2 = 0
  if meInt d ∧ plain then
    if f = 6 then (e.acc.toNat, e)
    else if f = 5 then
      let c := clampInt (-128) 127 e.acc.toInt
      (wrapInt 8 c.1, { e with flags := e.flags ||| (if c.2 then flIntSat else 0) })
    else
      let r := outFp (outFmt f) (f32 (toF32 (fvOf e.acc.toInt 0)))
      (r.1, { e with flags := e.flags ||| r.2 })
  else
    let y := if meInt d then toF32 (fvOf e.acc.toInt 0) else e.acc
    let (y, e) :=
      if df d 7 0 1 = 1 then
        let sc := if df d 7 1 1 = 1 then nth 0 (lmWords b (df d 8 0 19) 16 s) j else nth 0 d 8
        match fvMul (f32 y) (f32 sc) with
        | .nan => (0x7FC00000#32, e.note 200 6 0)
        | v => (plusZero (toF32 v), e)
      else (y, e)
    let (y, e) :=
      if df d 7 2 1 = 1 then
        let r := accAdd false y (nth 0 (lmWords b (df d 9 0 19) 16 s) j)
        (r.1, if r.2 % 2 = 1 then e.note 200 6 0 else e)
      else (y, e)
    let y := if df d 7 3 2 = 1 then opMax y 0 else if df d 7 3 2 = 2 then gelu y else y
    let y := plusZero (if df d 7 5 1 = 1 then opMin (opMax y (nth 0 d 10)) (nth 0 d 11) else y)
    let r := deliver32 f (f32 y)
    let e := if r.2 % 2 = 1 then e.note 201 7 0 else e
    (r.1, { e with flags := e.flags ||| r.2 })

/-! ## Queues and start gates (R61, R62, R81, R82) -/

/-- A transition waits at a cluster's gate. -/
def gateHas (p e : Nat) (start : Bool) (s : State) : Bool :=
  (tabGet [] (p / 5) s.cpt.gates).contains ⟨p, e, start⟩

/-- A request joins its cluster's gate. -/
def gateAsk (p e : Nat) (start : Bool) (s : State) : State :=
  { s with cpt := { s.cpt with gates := tabSet (p / 5) (tabGet [] (p / 5) s.cpt.gates ++ [⟨p, e, start⟩]) s.cpt.gates } }

/-- A request is withdrawn. -/
def gateCancel (p e : Nat) (start : Bool) (s : State) : State :=
  let left := (tabGet [] (p / 5) s.cpt.gates).filter (fun r => decide (r ≠ (⟨p, e, start⟩ : GateReq)))
  { s with cpt := { s.cpt with gates := tabSet (p / 5) left s.cpt.gates } }

/-- An operation reaches an ME: an idle ME asks for a start, a waiting stop is cancelled (R81, R82). -/
def meReceive (p e : Nat) (op : MeOp) (s : State) : State :=
  let m := meOf p e s
  let s := if m.run.isNone then setMe p e { m with run := some op } s else setMe p e { m with pend := some op } s
  if m.active then gateCancel p e false s
  else if gateHas p e true s then s
  else gateAsk p e true s

/-- An ME can take one more operation (R62). -/
def meAccepts (p e : Nat) (s : State) : Bool := (meOf p e s).pend.isNone

/-- GATE_WINDOW: at most 16 transitions in arrival order (R82). The window is timed by the cluster reference counter, which stops in
SLEEP (R28). DESIGN CHOICE (log 87): a window in which a request waited is one at whose end a request is left after the 16. -/
def gateWindow (c : Nat) (s : State) : State :=
  let q := tabGet [] c s.cpt.gates
  if q = [] ∨ !(counting s) then s
  else
    let s := (q.take 16).foldl (fun s r => setMe r.core r.me { meOf r.core r.me s with active := r.start } s) s
    let s := { s with cpt := { s.cpt with gates := tabSet c (q.drop 16) s.cpt.gates } }
    if 16 < q.length then count32 (pgCl c) 0 0x404 s else s

/-- ME_IDLE_TIMEOUT: an active ME whose queue has been empty asks for a stop (R81). -/
def meIdle (p e : Nat) (s : State) : State :=
  let m := meOf p e s
  if m.active && m.run.isNone && m.pend.isNone && !(gateHas p e false s) then gateAsk p e false s else s

/-! ## Start, finish, checks -/

/-- A count of R88 for Proofer's next sample. -/
def countAct (p : Nat) (k : EnergyKind) (j n : Nat) (s : State) : State :=
  let c := coreOf p s
  if n = 0 then s
  else if c.act.any (fun e => e.1 == k && e.2.1 == j) then
    setCore p { c with act := c.act.map (fun e => if e.1 = k ∧ e.2.1 = j then (k, j, e.2.2 + n) else e) } s
  else setCore p { c with act := c.act ++ [(k, j, n)] } s

/-- ME-cycles of an operation: the core's counter of its class, Proofer's count and the job's account (R88, R179). -/
def meCycles (p j cycles : Nat) (wide : Bool) (s : State) : State :=
  let s := countAct p (if wide then .me16Cycle else .me8Cycle) j cycles s
  let c := coreOf p s
  let s := if wide then setReg (pgSc p) 0 0x42C (w32 (min (2 ^ 32 - 1) ((c.me16 + cycles) / 256)))
        (setCore p { c with me16 := c.me16 + cycles } s)
      else setReg (pgSc p) 0 0x428 (w32 (min (2 ^ 32 - 1) ((c.me8 + cycles) / 256)))
        (setCore p { c with me8 := c.me8 + cycles } s)
  match tabFind j s.fe.jobs with
  | some b => setJob j { b with meCyc := b.meCyc + cycles } s
  | none => s

/-- The tile that an operation's job may use: one that holds no result of the job is as at the job's start (R74). -/
def meTile (m : Me) (job sel : Nat) : Tile :=
  let t := if sel = 1 then m.tile1 else m.tile0
  if t.owner.map (·.1) = some job then t else {}

/-- The operation at the front leaves; the pending one moves up. -/
def mePop (p e : Nat) (s : State) : State :=
  let m := meOf p e s
  setMe p e { m with run := m.pend, pend := none } s

/-- A rejected operation: the first rejection is recorded, the job ends with ME_DESC (R76). -/
def meReject (p e : Nat) (op : MeOp) (reason : Nat) (s : State) : State :=
  let d := lmWords op.block op.addr 16 s
  let s := if bit (getReg (pgSc p) 0 0x408 s) 31 then s
    else setReg (pgSc p) 0 0x40C (w32 (op.addr % 2 ^ 19)) (setReg (pgSc p) 0 0x408 (w32 (reason + e * 2 ^ 16 + 2 ^ 31)) s)
  let s := meCycles p op.job 24 (me16 d && !op.bad) s
  let s := mePop p e s
  endCompute op.job 1 0x0013 (lcore p s) s

/-- The streams that are active in a core: those of the operations that run (R69), each with its rate in bytes per cycle. -/
def activeStreams (p : Nat) (s : State) : List ((Nat × Nat) × Nat) :=
  ((coreOps p s).filter (·.started)).foldl (fun l o =>
    let put := fun (l : List ((Nat × Nat) × Nat)) (e : (Nat × Nat) × Nat) => if l.any (fun x => x.1 == e.1) then l else l ++ [e]
    let rate := fun (sd : List Word) => if df sd 0 0 2 = 2 then 8 else 16
    put (put l ((o.grp, df o.desc 2 0 19), rate o.sdA)) ((o.grp, df o.desc 3 0 19), rate o.sdB)) []

/-- Every running operation of a core notes how many streams are active with it, and whether they need more than 512 B per cycle
(R69). -/
def noteStreams (p : Nat) (s : State) : State :=
  let l := activeStreams p s
  let past := decide (512 < l.foldl (fun n e => n + e.2) 0)
  let c := coreOf p s
  setCore p { c with mes := c.mes.map (fun m => (m.1, { m.2 with run := m.2.run.map (fun o =>
    if o.started then { o with streams := max o.streams l.length, beyond := o.beyond || past } else o) })) } s

/-- An operation starts: it holds its descriptors (R64), and reads each of its panels for itself and for the later operations of its
issue group that name the same descriptor (R68). -/
def meBegin (p e : Nat) (op : MeOp) (d : List Word) (s : State) : State :=
  let c := coreOf p s
  let a := (op.grp, df d 2 0 19)
  let b := (op.grp, df d 3 0 19)
  let old := c.streams.filter (fun x => (coreOps p s).any (fun o => o.grp == x.1))
  let op := { op with
    started := true, desc := d, sdA := lmWords op.block (df d 2 0 19) 16 s, sdB := lmWords op.block (df d 3 0 19) 16 s,
    payA := !(old.contains a), payB := !(old.contains b) }
  let s := setCore p { c with streams := old ++ [a, b].filter (fun x => !(old.contains x)) } s
  noteStreams p (setMe p e { meOf p e s with run := some op } s)

/-- ME_OP_START: the operation at the front of the queue of an active ME is validated, and starts or is rejected (R64,
R76). -/
def meOpStart (p e : Nat) (s : State) : State :=
  let m := meOf p e s
  match m.run with
  | none => s
  | some op =>
    if op.started || !m.active || !(coreUp p s) then s
    else
      match blockOf op.block s with
      | none => s
      | some b =>
        if b.stopping then s else
        let d := lmWords op.block op.addr 16 s
        let t := meTile m op.job (df d 0 11 1)
        match meCheck op b.size t.int s with
        | 0 => meBegin p e op d s
        | r => meReject p e op r s

/-- The byte ranges of a stream's panels and scales, for `n` rows or columns (R70, R71). -/
def panelRanges (d sd : List Word) (n : Nat) : List (Nat × Nat) :=
  let e := df sd 0 0 2
  let base := df sd 1 0 19
  let st := df sd 2 0 20
  (if df sd 0 3 1 = 0 then
    (List.range n).map (fun i => (base + i * st, if e = 2 then (meK d + 1) / 2 else meK d * (e + 1)))
  else (List.range (meK d)).map (fun k => (base + k * st, n * (e + 1)))) ++
  (if df sd 0 4 1 = 1 then (List.range (meGroups d)).map (fun g => (df sd 3 0 19 + g * df sd 4 0 16, n)) else [])

/-- The byte ranges of local memory that an operation reads (R67, R70, R75). -/
def meRanges (op : MeOp) : List (Nat × Nat) :=
  let d := op.desc
  panelRanges d op.sdA (meM d) ++ panelRanges d op.sdB (meN d) ++
  (if df d 0 12 2 = 2 then (List.range 16).map (fun i => (df d 4 0 19 + i * df d 5 0 16, 16 * cSize (df d 0 8 2))) else []) ++
  (if df d 0 14 1 = 1 ∧ df d 7 0 1 = 1 ∧ df d 7 1 1 = 1 then [(df d 8 0 19, 64)] else []) ++
  (if df d 0 14 1 = 1 ∧ df d 7 2 1 = 1 then [(df d 9 0 19, 64)] else [])

/-- The byte ranges of local memory that an operation writes. -/
def meOutRanges (op : MeOp) : List (Nat × Nat) :=
  let d := op.desc
  if df d 0 14 1 = 1 then
    (List.range (meM d)).map (fun i => (df d 6 0 19 + i * df d 5 16 16, meN d * outSize (df d 0 16 4)))
  else []

/-- The bytes that ranges of two lists share. -/
def rangesMeet (a b : List (Nat × Nat)) : List (Nat × Nat) :=
  (a.map (fun x => b.filterMap (fun y =>
    let lo := max x.1 y.1
    let hi := min (x.1 + x.2) (y.1 + y.2)
    if lo < hi then some (lo, hi - lo) else none))).flatten

/-- An operation with the descriptors that it has read, or, before its start, with those that stand in local memory. -/
def opSeen (op : MeOp) (s : State) : MeOp :=
  if op.started ∨ op.bad then op
  else
    let d := lmWords op.block op.addr 16 s
    { op with desc := d, sdA := lmWords op.block (df d 2 0 19) 16 s, sdB := lmWords op.block (df d 3 0 19) 16 s }

/-- The other operations of an operation's block that are queued or running, as they are seen now. -/
def blockPeers (p e : Nat) (op : MeOp) (s : State) : List MeOp :=
  (((coreOf p s).mes.map (fun m => (if m.1 = e then [] else m.2.run.toList) ++ m.2.pend.toList)).flatten.filter
    (fun o => o.block == op.block)).map (fun o => opSeen o s)

/-- Ranges of a block's local memory whose values are undefined. -/
def lmFree (b : Nat) (rs : List (Nat × Nat)) (s : State) : State :=
  rs.foldl (fun s r =>
    let (bs, s) := freeBytes r.2 s
    { s with mem := { s.mem with lm := memWrite zeroByte (lmKey b r.1) bs s.mem.lm } }) s

/-- The bytes that an operation reads and that it or another operation, queued or running with it, writes (R66). -/
def clashIn (p e : Nat) (op : MeOp) (s : State) : List (Nat × Nat) :=
  rangesMeet (meRanges op) (op.wrote ++ meOutRanges op ++ ((blockPeers p e op s).map meOutRanges).flatten)

/-- The bytes that an operation writes and that it or another operation, queued or running with it, reads (R66). -/
def clashOut (p e : Nat) (op : MeOp) (s : State) : List (Nat × Nat) :=
  rangesMeet (meOutRanges op) (op.touched ++ meRanges op ++ ((blockPeers p e op s).map meRanges).flatten)

/-- The operations that stay behind note what a finished one wrote of what they read, and read of what they write (R66). -/
def noteClash (p e : Nat) (op : MeOp) (s : State) : State :=
  let c := coreOf p s
  let note := fun (o : MeOp) =>
    if o.block = op.block then
      { o with
        wrote := o.wrote ++ rangesMeet (meOutRanges op) (meRanges (opSeen o s)),
        touched := o.touched ++ rangesMeet (meRanges op) (meOutRanges (opSeen o s)) }
    else o
  setCore p { c with mes := c.mes.map (fun m =>
    (m.1, { m.2 with run := if m.1 = e then m.2.run else m.2.run.map note, pend := m.2.pend.map note })) } s

/-- Ranges of local memory read with their errors: whether one was uncorrectable. -/
def lmTouch (p b : Nat) (rs : List (Nat × Nat)) (s : State) : Bool × State :=
  rs.foldl (fun (a : Bool × State) r =>
    match lmRead p b r.1 r.2 a.2 with
    | (none, s) => (true, s)
    | (some _, s) => (a.1, s)) (false, s)

/-- The elements of an operation after its accumulation, row by row. -/
def meElems (op : MeOp) (t : Tile) (s : State) : List Elem :=
  let d := op.desc
  let as := (List.range 16).map (fun i => termBits op.block op.sdA (meM d) (meK d) i s)
  let bs := (List.range 16).map (fun j => termBits op.block op.sdB (meN d) (meK d) j s)
  (List.range 256).map (fun x =>
    let i := x / 16
    let j := x % 16
    dotElem op.block d op.sdA op.sdB (startElem op.block d t i j s) (nth [] as i) (nth [] bs j) i j s)

/-- Whether an operation makes a checked update at a stage (R83, R85). -/
def stageChecked (op : MeOp) (stage : Nat) (s : State) : Bool :=
  let d := op.desc
  if stage = 1 then
    if meInt d || meA d == 7 then false
    else
      (List.range (meM d)).any (fun i => (List.range (meN d)).any (fun j => (List.range (meK d)).any (fun k =>
        match fvMul (fpDec (opFp (meA d)) (elemBits op.block op.sdA i k s))
          (fpDec (opFp (meB d)) (elemBits op.block op.sdB j k s)) with
        | .fin _ _ _ => true
        | _ => false)))
  else true

/-- A residue mismatch: the source, the end of the operation's output, and the end of the job (R84). -/
def residue (p e : Nat) (s : State) : State :=
  let m := meOf p e s
  match m.run with
  | none => s
  | some op =>
    if !op.started || op.stopped then s
    else
      let s := setMe p e { m with run := some { op with stopped := true } } s
      faultDevice op.job 0x0014 (lcore p s) (fault p s)

/-- ME_INJ is armed for the ME and the operation makes a check at its stage: it takes effect (R85). -/
def injectHits (p e : Nat) (op : MeOp) (s : State) : Bool :=
  let v := getReg (pgSc p) 0 0x420 s
  bit v 16 && fld v 0 5 == e && stageChecked op (fld v 8 2) s

/-- An armed post-op table parity injection of the core's page: MODE 2 or 3 with BIT 0 (R369). -/
def parityArmed (p : Nat) (s : State) : Bool :=
  let v := getReg (pgSc p) 0 0x028 s
  bit v 16 && 2 ≤ fld v 8 2 && fld v 0 5 == 0

/-- A one-shot register's ARM clears and its DONE sets (R85, R369). -/
def injectDone (p off : Nat) (s : State) : State := setFld (pgSc p) 0 off 17 1 1 (setFld (pgSc p) 0 off 16 1 0 s)

/-- The first INVALID of an operation, by time, row and column (R86). -/
def firstInvalid (es : List Elem) : Option (Nat × Nat × Nat × Nat) :=
  (es.zipIdx).foldl (fun (best : Option (Nat × Nat × Nat × Nat)) e =>
    match e.1.first, best with
    | some (t, c, g), some b => if t < b.1 then some (t, c, g, e.2) else some b
    | some (t, c, g), none => some (t, c, g, e.2)
    | none, b => b) none

/-- NTRAP_CAPTURE: the first INVALID of the job on a core with NaN-trap enabled (R86, R87). -/
def ntrapCapture (p e : Nat) (op : MeOp) (es : List Elem) (s : State) : State :=
  match firstInvalid es with
  | none => s
  | some (_, cause, g, x) =>
    let v := getReg (pgSc p) 0 0x410 s
    let c := coreOf p s
    if c.inv.contains op.job then s
    else
    let s := setCore p { c with inv := c.inv ++ [op.job] } s
    if !(bit v 0) || bit v 31 then s
    else
      let s := setReg (pgSc p) 0 0x414
        (w32 (lcore p s % 64 + e * 2 ^ 8 + cause * 2 ^ 13 + x / 16 * 2 ^ 16 + x % 16 * 2 ^ 20)) s
      let s := setReg (pgSc p) 0 0x418 (nth 0 op.desc 12) s
      let s := setReg (pgSc p) 0 0x41C (w32 (if 5 ≤ cause then 0 else g % 256)) s
      setFld (pgSc p) 0 0x410 31 1 1 s

/-- The isolated cost of an operation at full rate (R80): start, groups, accumulator load, final result, output. -/
def meCost (d : List Word) : Nat :=
  24 + meGroups d * (if me16 d then 64 else 32) + (if df d 0 12 2 = 2 then 16 else 0) + 6 +
  (if df d 0 14 1 = 1 then 24 else 0)

/-- The least cost of an operation (R472). -/
def meLeast (d : List Word) : Nat := meGroups d * (if me16 d then 64 else 32)

/-- The most cycles that an operation can cost (R472): at full rate its isolated cost; beyond 512 B per cycle a group costs at most
what its largest panel takes at the least share of the port. -/
def meMost (op : MeOp) : Nat :=
  let d := op.desc
  let c := if me16 d then 64 else 32
  let panel := (if me16 d then 1024 else 512) + (if meMx d then 16 else 0)
  let share := max 1 (512 / max 1 op.streams)
  meCost d + meGroups d * (if op.beyond then max c ((panel + share - 1) / share) - c else 0)

/-- The waits for operands of an operation that took `cycles` (R69): none at full rate; otherwise what its groups took beyond their
cost, of which the overlap of the other phases with its neighbours, which R80 does not fix, leaves a part open: free in its
bounds. -/
def meWaits (op : MeOp) (cycles : Nat) (s : State) : Nat × State :=
  if !op.beyond then (0, s)
  else
    let lo := cycles - meCost op.desc
    let hi := min (cycles - meLeast op.desc) (meMost op - meCost op.desc)
    if hi ≤ lo then (lo, s)
    else
      let (f, s) := takeFree s
      (lo + f % (hi - lo + 1), s)

/-- The element of an operation's output, through the post-op unit where the output has it. -/
def mePosts (op : MeOp) (es : List Elem) (s : State) : List (Nat × Elem) :=
  let d := op.desc
  (es.zipIdx).map (fun x =>
    if df d 0 14 1 = 1 ∧ x.2 / 16 < meM d ∧ x.2 % 16 < meN d then postElem op.block d (x.2 % 16) x.1 s else (0, x.1))

/-- The output rows of an operation in local memory (R63). -/
def meStore (p : Nat) (op : MeOp) (posts : List (Nat × Elem)) (s : State) : State :=
  let d := op.desc
  let os := outSize (df d 0 16 4)
  if df d 0 14 1 = 1 then
    (List.range (meM d)).foldl (fun s i =>
      let row := ((List.range (meN d)).map (fun j => toLE os (nth (0, { acc := 0 }) posts (16 * i + j)).1)).flatten
      lmWrite p op.block (df d 6 0 19 + i * df d 5 16 16) row s) s
  else s

/-- The results of an operation: the tile, the output rows, the flags and NaN-trap (R59, R63, R74, R77). Bytes of its operands that
some operation's output overlaps read as free values, and bytes of its output that some operation reads become free values
(R66). -/
def meResults (p e : Nat) (op : MeOp) (s : State) : State :=
  let d := op.desc
  let m := meOf p e s
  let sel := df d 0 11 1
  let seen := lmFree op.block (clashIn p e op s) s
  let es := meElems op (meTile m op.job sel) seen
  let tile : Tile := { int := meInt d, v := es.map (·.acc), owner := some (op.job, op.block) }
  let posts := mePosts op es seen
  let bad := clashOut p e op s
  let s := noteClash p e op { s with free := seen.free }
  let m := meOf p e s
  let s := setMe p e (if sel = 1 then { m with tile1 := tile } else { m with tile0 := tile }) s
  let fl := posts.foldl (fun f x => f ||| x.2.flags) 0
  let s := ntrapCapture p e op (posts.map (·.2)) s
  let s := lmFree op.block bad (meStore p op posts s)
  let s := countAct p .outElem op.job (if df d 0 14 1 = 1 then meM d * meN d else 0) s
  addFlags op.job fl (setFld (pgSc p) 0 0x404 0 4 (getFld (pgSc p) 0 0x404 0 4 s ||| fl) s)

/-- How many GELU output elements of the operation read the table. -/
def tableReads (op : MeOp) (t : Tile) (s : State) : Nat :=
  let d := op.desc
  if df d 0 14 1 = 1 ∧ df d 7 3 2 = 2 then
    (((meElems op t s).zipIdx).filter (fun x =>
      x.2 / 16 < meM d && x.2 % 16 < meN d &&
      -- the input of step 3: the same steps without activation, clamp and conversion
      (let d1 := setNth d 7 (putFld (putFld (nth 0 d 7) 3 2 0) 5 1 0)
       let d2 := setNth d1 0 (putFld (nth 0 d1 0) 16 4 0)
       geluReads (w32 (postElem op.block d2 (x.2 % 16) x.1 s).1)))).length
  else 0

/-- Bytes that the operand port reads for an operation (R68, R88). -/
def portBytes (op : MeOp) : Nat :=
  let sum := fun (l : List (Nat × Nat)) => l.foldl (fun n r => n + r.2) 0
  (if op.payA then sum (panelRanges op.desc op.sdA (meM op.desc)) else 0) +
    (if op.payB then sum (panelRanges op.desc op.sdB (meN op.desc)) else 0)

/-- The operand buffer is written and read: whether an injected error of its array is uncorrectable (R67, R369). -/
def bufferTouch (p : Nat) (s : State) : Bool × State :=
  match takeInjection (pgSc p) s with
  | (some ue, s) => (ue, coreSram p 3 ue s)
  | (none, s) => (false, s)

/-- The end of an operation that nothing stopped: an uncorrectable operand, a residue mismatch and a table parity error end its job,
otherwise it has its results. DESIGN CHOICE (log 87): the manual gives a job that ends by a table parity error the status FAULT alone;
the model gives it ARITH_CHECK with the logical core, as R84 does for the other checks of the ME. -/
def meDeliver (p e : Nat) (op : MeOp) (s : State) : State :=
  match lmTouch p op.block (meRanges op) s with
  | (true, s) => faultDevice op.job 0x0015 0 s
  | (false, s) =>
    match bufferTouch p s with
    | (true, s) => faultDevice op.job 0x0015 0 s
    | (false, s) =>
      let reads := tableReads op (meTile (meOf p e s) op.job (df op.desc 0 11 1)) s
      let s := countAct p .tableRead op.job reads s
      if injectHits p e op s then residue p e (injectDone p 0x420 s)
      else if parityArmed p s && reads != 0 then
        faultDevice op.job 0x0014 (lcore p s) (fault p (injectDone p 0x028 s))
      else meResults p e op s

/-- ME_OP_FINISH: an operation that has run for `cycles` finishes (R63). A number of cycles outside the limits of R472 is no
finish. -/
def meOpFinish (p e cycles : Nat) (s : State) : State :=
  match (meOf p e s).run with
  | none => s
  | some op =>
    if !op.started || cycles < meLeast op.desc || meMost op < cycles then s
    else
      let s := meCycles p op.job cycles (me16 op.desc) s
      let s := countAct p .operandByte op.job (portBytes op) s
      let (w, s) := meWaits op cycles s
      let s := addFld (pgSc p) 0 0x424 0 32 w s
      let s := if op.stopped then s else meDeliver p e op s
      let s := mePop p e s
      let s := if jobEnded op.job s then coreForget op.job s p else s
      blockCheck op.block (kernelCheck op.job s)

/-- An ME operation of a group is queued or running on a masked ME (R63). -/
def groupOps (p b idx : Nat) (mask : BitVec 32) (s : State) : Bool :=
  (coreOf p s).mes.any (fun m =>
    mask.getLsbD m.1 && (m.2.run.toList ++ m.2.pend.toList).any (fun o => o.block == b && o.group == idx))

/-- Groups of a core whose me.wait is over go on (R63). -/
def meRelease (p : Nat) (s : State) : State :=
  let c := coreOf p s
  setCore p { c with groups := c.groups.map (fun g => (g.1, { g.2 with paths := g.2.paths.map (fun x =>
    match x.wait with
    | some (.me mask) => if groupOps p g.2.block g.2.idx mask s then x else { x with wait := none }
    | _ => x) })) } s

/-- A write of ME_INJ (R85, Table 3-9). -/
def meInjWrite (p : Nat) (v : Word) (s : State) : State := writeByType (pgSc p) 0 0x420 v s

/-! ## Meanings -/

/-- GATE_WINDOW (R82). -/
def execGateWindow (c : Fin 16) (s : State) : Out := toNext (gateWindow c.val s)

/-- ME_IDLE_TIMEOUT (R81). -/
def execMeIdleTimeout (p : Fin 80) (e : Fin 32) (s : State) : Out := toNext (meIdle p.val e.val s)

/-- ME_OP_START (R76). -/
def execMeOpStart (p : Fin 80) (e : Fin 32) (s : State) : Out := toNext (meOpStart p.val e.val s)

/-- ME_OP_FINISH (R63). -/
def execMeOpFinish (p : Fin 80) (e : Fin 32) (cycles : Nat) (s : State) : Out := toNext (meRelease p.val (meOpFinish p.val e.val cycles s))

/-- RESIDUE_MISMATCH (R84). -/
def execResidueMismatch (p : Fin 80) (e : Fin 32) (stage : Fin 4) (s : State) : Out :=
  toNext (match (meOf p.val e.val s).run with
    | some op => if op.started && stageChecked op stage.val s then residue p.val e.val s else s
    | none => s)

/-- ME_INJ_ARM (R85). -/
def execMeInjArm (r : Requester) (p : Fin 80) (v : Word) (s : State) : Out :=
  toNext (blockWrite r (pgSc p.val) 0x420 (meInjWrite p.val v) s)

end Sys2Proof.Machine
end

