-- ==== Sys2Proof/Machine/Shader.lean ====
section
/-!
DEFINITION. Shader instructions on thread groups (R91 to R108, R118 to R132): the issue of a path, operands, arithmetic,
branches, memory accesses, fences and barriers. A row executes one instruction of the current path of a group.
-/
namespace Sys2Proof.Machine

/-! ## Threads and registers -/

/-- The threads of a mask, in ascending order. -/
def threadsOf (m : BitVec 32) : List Nat := (List.range 32).filter (fun t => m.getLsbD t)

/-- The mask of some threads. -/
def maskOf (l : List Nat) : BitVec 32 := l.foldl (fun m t => m ||| oneBit t) 0

/-- Threads in a mask. -/
def popcount (m : BitVec 32) : Nat := (threadsOf m).length

/-- A source register of a thread: 255 reads as 0 (Table 4-1); one that nothing has written holds the undefined start
value (R95). -/
def regOf (x : Group) (t n : Nat) : Word :=
  if n = 255 then 0 else (tabFind (t * 512 + n) x.regs).getD (Config.startReg x.seed t n)

/-- A destination register of a thread: 255 discards the result. -/
def regPut (t n : Nat) (v : Word) (x : Group) : Group :=
  if n = 255 then x else { x with regs := tabSet (t * 512 + n) v x.regs }

/-- Predicate `k` of a thread. -/
def predOf (x : Group) (t k : Nat) : Bool :=
  ((tabFind (t * 512 + 256 + k) x.regs).getD (Config.startReg x.seed t (256 + k))).getLsbD 0

/-- The threads of a path that execute an instruction (Table 4-1: PRED 15 always executes). -/
def liveMask (x : Group) (i : Insn) (m : BitVec 32) : BitVec 32 :=
  if i.pred = 15 then m else maskOf ((threadsOf m).filter (fun t => predOf x t i.pred.toNat != i.pneg))

/-- How an opcode uses its fields: how many registers from each register field, 0 where the field is reserved, and the
IMM bits that it uses. -/
structure Uses where
  dst : Nat := 0
  src0 : Nat := 0
  src1 : Nat := 0
  src2 : Nat := 0
  imm : Nat := 0
  /-- The manual leaves the opcode's modifiers to the instruction set: IMM is not checked. -/
  anyImm : Bool := false
  /-- The manual leaves all the operands of the opcode to the instruction set: no register field is checked. -/
  anyReg : Bool := false
  /-- The opcode of Tables 4-2 and 9-7; none: one that the manual does not give. -/
  op : Option Nat := none

/-- A field that the opcode does not use holds 255 (R91). -/
def fieldOk (n : Nat) (v : BitVec 8) : Bool := n != 0 || v == 255

/-- A register, or a tuple of registers, below REGS (R93). -/
def rangeOk (n nregs : Nat) (v : BitVec 8) : Bool := n == 0 || v == 255 || v.toNat + n ≤ nregs

/-- The reason that an instruction word ends its job with, or 0: ILLEGAL_INSN, then REG_RANGE (R91, R93). -/
def insnCheck (u : Uses) (i : Insn) (nregs : Nat) : Nat :=
  if u.anyReg then 0
  else if !(fieldOk u.dst i.dst && fieldOk u.src0 i.src0 && fieldOk u.src1 i.src1 && fieldOk u.src2 i.src2)
      || (!u.anyImm && i.imm.toNat &&& u.imm != i.imm.toNat) then 0x09
  else if !(rangeOk u.dst nregs i.dst && rangeOk u.src0 nregs i.src0 && rangeOk u.src1 nregs i.src1
      && rangeOk u.src2 nregs i.src2) then 0x0A
  else 0

/-! ## The instruction store (R24, R91, R92) -/

/-- The opcodes that Tables 4-2 and 9-7 give. -/
def boundOps : List Nat :=
  [0xB0, 0xB1, 0xB2, 0xB3, 0xB4, 0xB5, 0xB8, 0xB9, 0xBF, 0xC0, 0xC1, 0xD0, 0xD1, 0xD8, 0xD9, 0xDA, 0xDB]

/-- The fields of an instruction at their places in the instruction word (Table 4-1), OP aside. -/
def insnFields (i : Insn) : Nat :=
  i.dst.toNat * 2 ^ 8 + i.src0.toNat * 2 ^ 16 + i.src1.toNat * 2 ^ 24 + i.src2.toNat * 2 ^ 32 + i.pred.toNat * 2 ^ 40 +
    b2n i.pneg * 2 ^ 44 + i.imm.toNat * 2 ^ 45

/-- An instruction word of the store spells the instruction: its fields, and its opcode, which is none that the tables bind where
the instruction's own opcode is not given (Tables 4-1, 4-2, 9-7). -/
def spells (u : Uses) (i : Insn) (w : Nat) : Bool :=
  w / 256 * 256 == insnFields i &&
  match u.op with
  | some o => w % 256 == o
  | none => !(boundOps.contains (w % 256))

/-- The address of a group's code image: its draw's pixel code in a pixel group, or its kernel's. -/
def codeVa (x : Group) (s : State) : Option Nat :=
  match x.pix with
  | some q => ((tabFind x.job s.tlr.passes).bind (fun y => tabFind q.draw y.code)).map (·.1)
  | none => (kernelOf x.job s).map (·.code)

/-- The image of a group in its core's instruction store. -/
def imageOf (p : Nat) (x : Group) (s : State) : Option Image :=
  (codeVa x s).bind (fun va => (coreOf p s).images.find? (fun m => m.job == x.job && m.va == va))

/-- The instruction word at a program counter; nothing where the image does not reach so far: what a core executes there is not
stated. -/
def insnWord (p : Nat) (x : Group) (pc : Nat) (s : State) : Option Nat :=
  match imageOf p x s with
  | some m => if pc + 8 ≤ m.bytes.length then some (leNat ((m.bytes.drop pc).take 8)) else none
  | none => none

/-- The word at a path's program counter is read from the instruction store, with its error (R134, R139): whether it was
uncorrectable. -/
def fetchTouch (p : Nat) (x : Group) (pc : Nat) (s : State) : Bool × State :=
  match imageOf p x s with
  | none => (false, s)
  | some m =>
    match tabFind (pc / 8) m.err with
    | none => (false, s)
    | some true => (true, coreSram p 2 true s)
    | some false =>
      let c := coreOf p s
      (false, coreSram p 2 false (setCore p { c with images := c.images.map (fun y =>
        if y.job = m.job ∧ y.va = m.va then { y with err := tabDel (pc / 8) y.err } else y) } s))

/-! ## The register file's errors (R134, R135) -/

/-- The registers that a field names. -/
def fieldRegs (n : Nat) (v : BitVec 8) : List Nat := if v = 255 then [] else (List.range n).map (fun k => v.toNat + k)

/-- The source registers of an instruction. -/
def srcRegs (u : Uses) (i : Insn) : List Nat := fieldRegs u.src0 i.src0 ++ fieldRegs u.src1 i.src1 ++ fieldRegs u.src2 i.src2

/-- The source registers of the executing threads are read with their errors: whether one was uncorrectable. -/
def regTouch (p : Nat) (u : Uses) (i : Insn) (ex : BitVec 32) (x : Group) (s : State) : Bool × Group × State :=
  let hit := fun (e : Nat × Bool) => ex.getLsbD (e.1 / 512) && (srcRegs u i).contains (e.1 % 512)
  let errs := x.regErr.filter hit
  (errs.any (·.2), { x with regErr := x.regErr.filter (fun e => !(hit e) || e.2) },
    errs.foldl (fun s e => coreSram p 0 e.2 s) s)

/-- What the results of an instruction do to the errors of its destination registers: a register written anew loses its error, and an
armed injection of the core's page spoils the first one (R369). -/
def regDone (p g : Nat) (u : Uses) (i : Insn) (ex : BitVec 32) (x : Group) (s : State) : State :=
  let ds := fieldRegs u.dst i.dst
  if ds = [] ∨ ex = 0 then s
  else
    match groupOf p g s with
    | none => s
    | some y =>
      if y.block ≠ x.block ∨ y.idx ≠ x.idx then s
      else
        let left := y.regErr.filter (fun e => !(ex.getLsbD (e.1 / 512) && ds.contains (e.1 % 512)))
        let key := (threadsOf ex).headD 0 * 512 + ds.headD 0
        let s := if left = y.regErr then s else setGroup p g { y with regErr := left } s
        coreInject p (fun ue s => setGroup p g { y with regErr := tabSet key ue left } s) s

/-! ## Turns (R97 to R99) -/

/-- A path is runnable (R97). -/
def runnable (x : Path) : Bool :=
  match x.wait with
  | none => true
  | some .data => true
  | some _ => false

/-- Two paths stand at the same program counter with nothing to wait for. -/
def sameSpot (x y : Path) : Bool := x.wait.isNone && y.wait.isNone && x.pc == y.pc

/-- Paths at the same program counter merged, at the first one's place (R99). -/
def mergePaths (l : List Path) : List Path :=
  l.foldl (fun acc y =>
    if acc.any (sameSpot y) then
      acc.map (fun z => if sameSpot y z then { z with mask := z.mask ||| y.mask, back := 0, demoted := false } else z)
    else acc ++ [y]) []

/-- The turn at an issue slot: the group with its current path first, and whether the 32-slot limit ended a turn. -/
def turnOf (x : Group) : Option (Group × Bool) :=
  match x.paths with
  | [] => none
  | cur :: rest =>
    let full := runnable cur && 32 ≤ cur.slots && rest.any runnable && !x.turnOver
    if runnable cur && !full && !(cur.demoted && 1 ≤ cur.slots) && !x.turnOver then some (x, false)
    else
      let ring := match mergePaths x.paths with
        | [] => []
        | c :: r => r ++ [c]
      match ring.dropWhile (fun y => !(runnable y)) with
      | [] => none
      | h :: t =>
        some ({ x with paths := { h with slots := 0 } :: (t ++ ring.takeWhile (fun y => !(runnable y))), turnOver := false },
          full)

/-- What an instruction is executed on: the core, the group slot, the group with its current path first, that path, the
other paths, and the threads that execute. -/
structure Iss where
  p : Nat
  g : Nat
  x : Group
  cur : Path
  rest : List Path
  ex : BitVec 32

/-- The group's block is being preempted (R114). -/
def blockStopping (b : Nat) (s : State) : Bool :=
  match blockOf b s with
  | some v => v.stopping
  | none => false

/-- An instruction meets an uncorrectable error of one of its core's SRAMs: its job ends with BUS_ERROR (Table 5-4). -/
def insnBus (j detail : Nat) (s : State) : State := faultDevice j 0x0015 detail s

/-- One issue slot of a group: `act` answers nothing where the group is not ready, and the state is then unchanged; so it is where
the instruction store holds another instruction at the path's program counter. -/
def issue (p g : Nat) (i : Insn) (u : Uses) (act : Iss → State → Option State) (s : State) : State :=
  match groupOf p g s with
  | none => s
  | some x =>
    if jobEnded x.job s || !(coreUp p s) || blockStopping x.block s then s
    else
      match turnOf x with
      | none => s
      | some (y, full) =>
        match y.paths with
        | [] => s
        | cur :: rest =>
          if cur.wait.isSome || ((insnWord p y cur.pc s).map (spells u i)).getD true == false then s
          else
            let s' := if full then count32 (pgSc p) 0 0x110 s else s
            match fetchTouch p y cur.pc s' with
            | (true, s') => insnBus x.job ((codeVa y s).getD 0 + cur.pc) s'
            | (false, s') =>
              match insnCheck u i y.nregs with
              | 0 =>
                let ex := liveMask y i cur.mask
                match regTouch p u i ex y s' with
                | (true, _, s') => insnBus x.job 0 s'
                | (false, y, s') => ((act ⟨p, g, y, cur, rest, ex⟩ s').map (regDone p g u i ex y)).getD s
              | r => faultInsn p x.job r cur.pc s'

/-- The executing path one instruction on. -/
def nextPath (a : Iss) : Path := { a.cur with pc := a.cur.pc + 8, slots := a.cur.slots + 1 }

/-- The group after an instruction that only advances. -/
def stepPath (a : Iss) (x : Group) : Group := { x with paths := nextPath a :: a.rest }

/-- The group after an instruction at which its executing threads wait, as the `n`-th wait at a barrier; the others go on as the
current path. -/
def stepWait (a : Iss) (w : PathWait) (n : Nat) (x : Group) : Group :=
  let stay := a.cur.mask &&& ~~~ a.ex
  if a.ex = 0 then stepPath a x
  else if stay = 0 then { x with paths := { nextPath a with wait := some w, since := n } :: a.rest, turnOver := true }
  else { x with paths := { nextPath a with mask := stay } ::
      { nextPath a with mask := a.ex, wait := some w, since := n, slots := 0 } :: a.rest }

/-- The next number of an issue group or of a wait is used up. -/
def bumpSeq (s : State) : State := { s with cpt := { s.cpt with seq := s.cpt.seq + 1 } }

/-- The group advanced and put back. -/
def advance (a : Iss) (x : Group) (s : State) : State := setGroup a.p a.g (stepPath a x) s

/-- The lowest executing thread: a group-wide operand is taken from it. -/
def leader (a : Iss) : Nat := (threadsOf a.ex).headD 0

/-- A fault of the instruction. -/
def insnFault (a : Iss) (reason : Nat) (s : State) : State := faultInsn a.p a.x.job reason a.cur.pc s

/-! ## Arithmetic (R56 to R58) -/

/-- Source registers and result width of an arithmetic instruction: sources, bits, words in the destination. -/
def aluShape : AluOp → Nat × Nat
  | .fadd | .fsub | .fmul | .fdiv | .fmin | .fmax => (2, 32)
  | .ffma => (3, 32)
  | .fsqrt => (1, 32)
  | .hadd | .hsub | .hmul | .hdiv | .hmin | .hmax => (2, 16)
  | .hfma => (3, 16)
  | .hsqrt => (1, 16)
  | .cvtFF _ d _ => (1, fmtBits d)
  | .cvtFI _ d _ => (1, (intBits d).1)
  | .cvtIF _ d _ => (1, fmtBits d)
  | .unimpl => (0, 32)

/-- The arithmetic of one format. -/
def aluFp (f : FpFmt) (op : AluOp) (a b c : FV) : Nat :=
  match op with
  | .fadd | .hadd => fpEnc f (fvAdd a b)
  | .fsub | .hsub => fpEnc f (fvAdd a (fvMinus b))
  | .fmul | .hmul => fpEnc f (fvMul a b)
  | .ffma | .hfma => fpEnc f (fvAdd (fvMul a b) c)
  | .fdiv | .hdiv => fpEnc f (fvDiv a b).1 (fvDiv a b).2
  | .fsqrt | .hsqrt => fpEnc f (fvSqrt a).1 (fvSqrt a).2
  | .fmin | .hmin => fpEnc f (fvMinNum a b)
  | .fmax | .hmax => fpEnc f (fvMaxNum a b)
  | _ => 0

/-- The bits of a result, at the low end of the destination. -/
def aluBits (op : AluOp) (a b c : Word) : Nat :=
  match op with
  | .fadd | .fsub | .fmul | .ffma | .fdiv | .fsqrt | .fmin | .fmax => aluFp .fp32 op (f32 a) (f32 b) (f32 c)
  | .hadd | .hsub | .hmul | .hfma | .hdiv | .hsqrt | .hmin | .hmax =>
    let h := fun (w : Word) => fpDec .fp16 (w.toNat % 65536)
    aluFp .fp16 op (h a) (h b) (h c)
  | .cvtFF f d sat => cvtFp f d sat (a.toNat % 2 ^ fmtBits f)
  | .cvtFI f d rz => cvtFpInt f d rz (a.toNat % 2 ^ fmtBits f)
  | .cvtIF f d sat => cvtIntFp f d sat a
  | .unimpl => 0

/-- A result of `n` bits in a register: the manual does not state the bits above it, so they are free. -/
def widen (n bits : Nat) (s : State) : Word × State :=
  if 32 ≤ n then (w32 bits, s)
  else
    let (f, s) := takeFreeWord s
    (putFld f 0 n bits, s)

/-- Threads executed one by one, in ascending order. -/
def eachThread (a : Iss) (f : Nat → Group × State → Group × State) (s : State) : Group × State :=
  (threadsOf a.ex).foldl (fun r t => f t r) (a.x, s)

/-- An arithmetic or conversion instruction. -/
def aluStep (op : AluOp) (i : Insn) (a : Iss) (s : State) : Option State :=
  match op with
  | .unimpl => some (insnFault a 0x09 s)
  | _ =>
    let r := eachThread a (fun t r =>
      let bits := aluBits op (regOf a.x t i.src0.toNat) (regOf a.x t i.src1.toNat) (regOf a.x t i.src2.toNat)
      let (w, s) := widen (aluShape op).2 bits r.2
      (regPut t i.dst.toNat w r.1, s)) s
    some (advance a r.1 r.2)

/-- The fields of an arithmetic instruction; an unimplemented opcode is ILLEGAL_INSN whatever its fields. -/
def aluUses (op : AluOp) : Uses :=
  match op with
  | .unimpl => { anyImm := true, anyReg := true }
  | _ =>
    let n := (aluShape op).1
    { dst := 1, src0 := 1, src1 := if 2 ≤ n then 1 else 0, src2 := if 3 ≤ n then 1 else 0, anyImm := true }

/-- ALU_INSN (R56, R91). -/
def aluInsn (p g : Nat) (op : AluOp) (i : Insn) (s : State) : State := issue p g i (aluUses op) (aluStep op i) s

/-! ## Branches (R97, R98) -/

/-- A taken branch of a path: a backward one counts, and the 64th demotes (R98). -/
def takeBranch (p target : Nat) (x : Path) (s : State) : Path × State :=
  if target ≤ x.pc then
    let n := x.back + 1
    if n = 64 then ({ x with pc := target, back := n, demoted := true }, count32 (pgSc p) 0 0x10C s)
    else ({ x with pc := target, back := n }, s)
  else ({ x with pc := target }, s)

/-- A branch: the threads that fall through stay the current path, the others form a path directly after it. DESIGN CHOICE (log 88):
where a backward branch divides a path, the part that takes it carries the raised count and the demotion, and the part that falls
through keeps the count that it had. -/
def branchStep (target : Nat) (a : Iss) (s : State) : Option State :=
  let stay := a.cur.mask &&& ~~~ a.ex
  if a.ex = 0 then some (advance a a.x s)
  else
    let (t, s) := takeBranch a.p target a.cur s
    if stay = 0 then
      some (setGroup a.p a.g { a.x with paths := { t with slots := a.cur.slots + 1 } :: a.rest } s)
    else
      some (setGroup a.p a.g
        { a.x with paths := { nextPath a with mask := stay } :: { t with mask := a.ex, slots := 0 } :: a.rest } s)

/-! ## Loads, stores and atomics (R106, R107, R118, R121, R122, R130) -/

/-- Bytes of an access width. -/
def accBytes : AccW → Nat
  | .b1 => 1
  | .b2 => 2
  | .b4 => 4
  | .b8 => 8

/-- Registers of an access width. -/
def accRegs (w : AccW) : Nat := if w = .b8 then 2 else 1

/-- A register, or a pair for 8 bytes, low word first. -/
def regVal (x : Group) (t : Nat) (n : BitVec 8) (regs : Nat) : Nat :=
  (regOf x t n.toNat).toNat + (if regs = 2 ∧ n ≠ 255 then (regOf x t (n.toNat + 1)).toNat * 2 ^ 32 else 0)

/-- A loaded value into its register or pair; the bits above a byte or half-word are free. -/
def regLoad (t : Nat) (dst : BitVec 8) (n v : Nat) (r : Group × State) : Group × State :=
  let (w, s) := widen (8 * n) v r.2
  let x := regPut t dst.toNat w r.1
  (if n = 8 ∧ dst ≠ 255 then regPut t (dst.toNat + 1) (w32 (v / 2 ^ 32)) x else x, s)

/-- Where an access of a thread leads: local memory of a block on a core, cluster memory, global space, or a reason. -/
inductive Place where
  | lm (core block off : Nat)
  | cm (off : Nat)
  | gl (va : Nat)
  | bad (reason : Nat)
deriving DecidableEq, Repr

/-- The peer block of a rank in the block cluster of a block (R107). -/
def peerOf (b : Block) (rank : Nat) (s : State) : Option (Nat × Block) :=
  (clusterBlocks b.job b.bcl s).find? (fun e => e.2.rank == rank)

/-- The slot of a group's context. -/
def groupSlot (x : Group) (s : State) : Nat := (jobRef x.job s).slot

/-- The place of an access of `n` bytes: its space code and its limits (R106, R107, R118, R119). -/
def placeOf (a : Iss) (i : Insn) (t n : Nat) (s : State) : Place :=
  let code := i.imm.toNat % 8
  let lo := (regOf a.x t i.src0.toNat).toNat
  match code with
  | 0 =>
    match blockOf a.x.block s with
    | some b => if lo + n ≤ b.size then .lm b.core a.x.block lo else .bad 0x0E
    | none => .bad 0x0E
  | 1 => if cmInside (groupSlot a.x s) lo n s then .cm lo else .bad 0x0F
  | 2 => .gl (regVal a.x t i.src0 2)
  | 3 =>
    match blockOf a.x.block s with
    | some b =>
      match peerOf b (i.imm.toNat / 8 % 4) s with
      | some (k, d) => if lo + n ≤ d.size then .lm d.core k lo else .bad 0x0E
      | none => .bad 0x0E
    | none => .bad 0x0E
  | _ => .bad 0x09

/-- Fields of a memory instruction: IMM[4:0] names the space and the rank; a global address takes a register pair. -/
def memUses (i : Insn) (dst data cmp : Nat) : Uses :=
  { dst := dst, src0 := if i.imm.toNat % 8 = 2 then 2 else 1, src1 := data, src2 := cmp, imm := 31 }

/-- The state so far of an instruction that works thread by thread: a fault stops it. -/
structure Run where
  x : Group
  s : State
  dead : Bool := false
  /-- Host reads that the instruction needs. -/
  host : List HostRd := []

/-- The instruction ends its job. -/
def Run.die (r : Run) (f : State → State) : Run := { r with s := f r.s, dead := true }

/-- The pieces of an access that lie in one 64-byte line each, as line number and bytes. -/
def linePieces (va : Nat) (bs : List Byte) : List (Nat × Nat × List Byte) :=
  (chunksOf 64 va bs.length).map (fun l =>
    let lo := max va (l * 64)
    let hi := min (va + bs.length) (l * 64 + 64)
    (l, lo - l * 64, (bs.drop (lo - va)).take (hi - lo)))

/-- The pieces of a thread's load that lie in host memory: each takes a PCIe read of its own, whose data comes into its bytes of the
register (R121, R399). -/
def hostPieces (p g t slot va n dst : Nat) (s : State) : List HostRd :=
  (pagePieces va n).filterMap (fun c =>
    match (translate p slot c.1 .rd s).1 with
    | .ok (.host a q) => some ⟨slot, q, c.1, a, c.2, .thread p g t dst n (c.1 - va)⟩
    | _ => none)

/-- A load by one thread. -/
def loadOne (a : Iss) (i : Insn) (n t : Nat) (r : Run) : Run :=
  if r.dead then r
  else
    let slot := groupSlot a.x r.s
    match placeOf a i t n r.s with
    | .bad reason => r.die (insnFault a reason)
    | .lm core b off =>
      match lmRead core b off n r.s with
      | (none, s) => { r with s := faultDevice a.x.job 0x0015 off s, dead := true }
      | (some bs, s) => let y := regLoad t i.dst n (leNat bs) (r.x, s); { r with x := y.1, s := y.2 }
    | .cm off =>
      match cmRead (a.p / 5) slot off n r.s with
      | (none, s) => { r with s := faultDevice a.x.job 0x0015 off s, dead := true }
      | (some bs, s) => let y := regLoad t i.dst n (leNat bs) (r.x, s); { r with x := y.1, s := y.2 }
    | .gl va =>
      match vaReadAll a.p slot va n .rd r.s with
      | (.error e, s) => { r with s := faultAccess a.p a.x.job e.2 .rd e.1 s, dead := true }
      | (.ok bs, s) =>
        let h := hostPieces a.p a.g t slot va n i.dst.toNat s
        let y := regLoad t i.dst n (leNat (wbOverlay a.p slot va bs s)) (r.x, s)
        { r with x := y.1, s := y.2, host := r.host ++ h }

/-- A load: a host-memory load issues its PCIe reads and waits; without enough tags the group is not ready (R399). -/
def loadStep (w : AccW) (i : Insn) (a : Iss) (s : State) : Option State :=
  let n := accBytes w
  let r := (threadsOf a.ex).foldl (fun r t => loadOne a i n t r) { x := a.x, s := s }
  if r.dead then some r.s
  else if r.host = [] then some (advance a r.x r.s)
  else if 1024 < r.s.pci.reads.length + r.host.length then none
  else
    let s := r.host.foldl (fun s h => hostIssue h.slot h.attr h.va h.addr h.len h.waiter s) r.s
    some (setGroup a.p a.g { r.x with paths := { nextPath a with wait := some .data } :: a.rest } s)

/-- A store by one thread: to the SRAMs at once, to global space through the write buffer (R122). -/
def storeOne (a : Iss) (i : Insn) (n t : Nat) (r : Run) : Run :=
  if r.dead then r
  else
    let slot := groupSlot a.x r.s
    let bs := toLE n (regVal a.x t i.src1 (if n = 8 then 2 else 1))
    match placeOf a i t n r.s with
    | .bad reason => r.die (insnFault a reason)
    | .lm core b off => { r with s := lmWrite core b off bs r.s }
    | .cm off =>
      let s := cmWrite (a.p / 5) slot off bs r.s
      { r with s := match blockOf a.x.block s with
        | some b => setBlock a.x.block { b with stored := true } s
        | none => s }
    | .gl va =>
      (linePieces va bs).foldl (fun r l =>
        if r.dead then r
        else
          match translate a.p slot (l.1 * 64 + l.2.1) .wr r.s with
          | (.error (c, lv), s) =>
            { r with s := faultAccess a.p a.x.job (l.1 * 64 + l.2.1) .wr (.xl c lv) s, dead := true }
          | (.ok (.hbm pa), s) => { r with s := wbPut a.p slot l.1 none (pa - l.2.1) l.2.1 l.2.2 s }
          | (.ok (.host pa q), s) => { r with s := wbPut a.p slot l.1 (some q) (pa - l.2.1) l.2.1 l.2.2 s }
          | (.ok .needAts, s) =>
            { r with s := faultAccess a.p a.x.job (l.1 * 64 + l.2.1) .wr (.xl cAtsMiss 0) s, dead := true }) r

/-- A store or atomic resets its path's count and ends its demotion (R98). -/
def calm (a : Iss) : Iss := if a.ex = 0 then a else { a with cur := { a.cur with back := 0, demoted := false } }

/-- A store. -/
def storeStep (w : AccW) (i : Insn) (a : Iss) (s : State) : Option State :=
  let a := calm a
  let r := (threadsOf a.ex).foldl (fun r t => storeOne a i (accBytes w) t r) { x := a.x, s := s }
  if r.dead then some r.s else some (advance a r.x r.s)

/-- The new value of an atomic on `n` bytes (R130). -/
def atomVal (op : AtomOp) (n old v cmp : Nat) : Nat :=
  let m := 2 ^ (8 * n)
  let lt := fun (x y : Nat) => sext (8 * n) x < sext (8 * n) y
  match op with
  | .add => (old + v) % m
  | .sub => (old + (m - v % m)) % m
  | .fadd => (toF32 (fvAdd (f32 (w32 old)) (f32 (w32 v)))).toNat
  | .smin => if lt v old then v else old
  | .smax => if lt old v then v else old
  | .umin => min old v
  | .umax => max old v
  | .and => old &&& v
  | .or => old ||| v
  | .xor => old ^^^ v
  | .xchg => v
  | .cas => if old = cmp then v else old

/-- PCIe has an AtomicOp for the operation (R130). -/
def hostAtomic (op : AtomOp) : Bool := op == .add || op == .xchg || op == .cas

/-- An atomic by one thread. -/
def atomicOne (a : Iss) (op : AtomOp) (i : Insn) (n t : Nat) (r : Run) : Run :=
  if r.dead then r
  else
    let slot := groupSlot a.x r.s
    let regs := if n = 8 then 2 else 1
    let f := fun (old : Nat) => atomVal op n old (regVal a.x t i.src1 regs) (regVal a.x t i.src2 regs)
    let bus := fun (va : Nat) (s : State) => { r with s := faultDevice a.x.job 0x0015 va s, dead := true }
    let back := fun (old : Nat) (s : State) =>
      let y := regLoad t i.dst n old (r.x, s)
      { r with x := y.1, s := y.2 }
    let addr := if i.imm.toNat % 8 = 2 then regVal a.x t i.src0 2 else (regOf a.x t i.src0.toNat).toNat
    if addr % n ≠ 0 ∧ i.imm.toNat % 8 ≤ 3 then r.die (insnFault a 0x11)
    else
      match placeOf a i t n r.s with
      | .bad reason => r.die (insnFault a reason)
      | .lm core b off =>
        match lmRead core b off n r.s with
        | (none, s) => bus off s
        | (some bs, s) => back (leNat bs) (lmWrite core b off (toLE n (f (leNat bs))) s)
      | .cm off =>
        match cmRead (a.p / 5) slot off n r.s with
        | (none, s) => bus off s
        | (some bs, s) =>
          let s := cmWrite (a.p / 5) slot off (toLE n (f (leNat bs))) s
          back (leNat bs) (match blockOf a.x.block s with
            | some b => setBlock a.x.block { b with stored := true } s
            | none => s)
      | .gl va =>
        match translate a.p slot va .at r.s with
        | (.error (c, lv), s) => { r with s := faultAccess a.p a.x.job va .at (.xl c lv) s, dead := true }
        | (.ok .needAts, s) => { r with s := faultAccess a.p a.x.job va .at (.xl cAtsMiss 0) s, dead := true }
        | (.ok (.hbm pa), s) =>
          let s := wbFlush a.p (fun e => e.slot == slot && e.line == va / 64) s
          match hbmRead pa n s with
          | (none, s) => { r with s := faultAccess a.p a.x.job va .at .bus s, dead := true }
          | (some bs, s) => back (leNat bs) (hbmPut pa (toLE n (f (leNat bs))) s)
        | (.ok (.host pa q), s) =>
          if !(hostAtomic op) then { r with s := insnFault a 0x12 s, dead := true }
          else
            let s := wbFlush a.p (fun e => e.slot == slot && e.line == va / 64) s
            let old := leNat (hostBytes pa n s)
            back old (hostPut pa (toLE n (f old)) (emit (.hostAtomic pa n q) s))

/-- An atomic: there is no 64-bit floating-point add (R130). -/
def atomicStep (op : AtomOp) (w64 : Bool) (i : Insn) (a : Iss) (s : State) : Option State :=
  if w64 && op == .fadd then some (insnFault a 0x09 s)
  else
    let a := calm a
    let r := (threadsOf a.ex).foldl (fun r t => atomicOne a op i (if w64 then 8 else 4) t r) { x := a.x, s := s }
    if r.dead then some r.s else some (advance a r.x r.s)

/-! ## Barriers (R101 to R105) -/

/-- Threads of a group that wait at the `wsync` of a mask. -/
def wsyncArrived (m : BitVec 32) (x : Group) : BitVec 32 :=
  x.paths.foldl (fun r y => if y.wait = some (.wsync m) then r ||| y.mask else r) 0

/-- A `wsync` whose live threads have all arrived (R101, R103). -/
def wsyncDone (x : Group) (y : Path) : Bool :=
  match y.wait with
  | some (.wsync m) => x.live &&& m &&& ~~~ (wsyncArrived m x) == 0
  | _ => false

/-- Paths of completed `wsync`s: those from the same one at one program counter merge where they stand (R99). -/
def wsyncMerge (x : Group) : List Path :=
  x.paths.foldl (fun acc y =>
    let same := fun (z : Path) => wsyncDone x y && z.wait == y.wait && z.pc == y.pc
    if acc.any same then
      acc.map (fun z => if same z then { z with mask := z.mask ||| y.mask, back := 0, demoted := false } else z)
    else acc ++ [y]) []

/-- Completed `wsync`s release their threads. -/
def wsyncFree (x : Group) : Group :=
  { x with paths := (wsyncMerge x).map (fun z => if wsyncDone x z then { z with wait := none } else z) }

/-- A `wsync` of its mask: SRC0 of the lowest executing thread. -/
def wsyncStep (i : Insn) (a : Iss) (s : State) : Option State :=
  let m := regOf a.x (leader a) i.src0.toNat
  some (setGroup a.p a.g (wsyncFree (stepWait a (.wsync m) s.cpt.seq a.x)) (bumpSeq s))

/-- The groups of a block: core, slot and group. -/
def blockGroups (b : Nat) (s : State) : List (Nat × Nat × Group) :=
  match blockOf b s with
  | some v => ((coreOf v.core s).groups.filter (fun g => g.2.block == b)).map (fun g => (v.core, g.1, g.2))
  | none => []

/-- Live threads of some groups. -/
def liveOf (l : List (Nat × Nat × Group)) : Nat := l.foldl (fun n e => n + popcount e.2.2.live) 0

/-- Threads of some groups that wait for `w`. -/
def waitingOf (w : PathWait) (l : List (Nat × Nat × Group)) : Nat :=
  l.foldl (fun n e => e.2.2.paths.foldl (fun n y => if y.wait = some w then n + popcount y.mask else n) n) 0

/-- Every path of some groups that waits for `w` is released. -/
def releaseAll (w : PathWait) (l : List (Nat × Nat × Group)) (s : State) : State :=
  l.foldl (fun s e =>
    match groupOf e.1 e.2.1 s with
    | some x => setGroup e.1 e.2.1
        { x with paths := x.paths.map (fun y => if y.wait = some w then { y with wait := none } else y) } s
    | none => s) s

/-- A gate of a block. -/
def gateOf (b g : Nat) (s : State) : Gate :=
  match blockOf b s with
  | some v => tabGet {} g v.gates
  | none => {}

/-- A gate set. -/
def setGate (b g : Nat) (v : Gate) (s : State) : State :=
  match blockOf b s with
  | some x => setBlock b { x with gates := tabSet g v x.gates } s
  | none => s

/-- The arrivals that a gate expects (Table 4-4). -/
def gateExpect (b g : Nat) (s : State) : Nat :=
  let n := (gateOf b g s).n
  if n = 0 then liveOf (blockGroups b s) else n

/-- A group with the highest `k` threads of its released current path held at a gate again: they arrived beyond the
expected count, in the next phase (R102). -/
def holdBack (a : Iss) (g k : Nat) (s : State) : State :=
  if k = 0 then s
  else
    match groupOf a.p a.g s with
    | none => s
    | some x =>
      let late := maskOf ((threadsOf a.ex).drop (popcount a.ex - k))
      setGroup a.p a.g { x with paths := (x.paths.map (fun y =>
        if y.mask &&& a.ex = 0 then [y]
        else if y.mask &&& ~~~ late = 0 then [{ y with wait := some (.gate g) }]
        else [{ y with mask := y.mask &&& ~~~ late }, { y with mask := y.mask &&& late, wait := some (.gate g), slots := 0 }])).flatten } s

/-- The executing threads arrive at a gate; with `join` they wait there (R101, R102, R127). -/
def gateArrive (join : Bool) (i : Insn) (a : Iss) (s : State) : Option State :=
  let g := i.imm.toNat % 16
  let b := a.x.block
  let k := popcount a.ex
  let s := if join then setGroup a.p a.g (stepWait a (.gate g) s.cpt.seq a.x) (bumpSeq s) else advance a a.x s
  let v := gateOf b g s
  let e := gateExpect b g s
  let total := v.arr + k
  if k = 0 ∨ total < e then some (setGate b g { v with arr := total } s)
  else
    let s := setGate b g { v with arr := total % e, cfg := [] } s
    let s := releaseAll (.gate g) (blockGroups b s) s
    some (if join then holdBack a g (min k (total % e)) s else s)

/-- gate.cfg: two threads must not give one gate different counts in the same interval between phases (R102). -/
def gateCfgStep (i : Insn) (a : Iss) (s : State) : Option State :=
  let g := i.imm.toNat % 16
  let v := gateOf a.x.block g s
  let ns := (threadsOf a.ex).map (fun t => (a.x.idx * 32 + t, (regOf a.x t i.src0.toNat).toNat))
  match ns with
  | [] => some (advance a a.x s)
  | (_, n) :: _ =>
    if 1024 < n || v.arr != 0 || ns.any (·.2 != n) || v.cfg.any (fun c => c.2 != n && ns.any (·.1 != c.1)) then
      some (insnFault a 0x0B s)
    else
      some (advance a a.x (setGate a.x.block g
        { v with n := n, cfg := v.cfg ++ ns.filter (fun c => !(v.cfg.contains c)) } s))

/-- The groups of a block cluster. -/
def bclGroups (job bcl : Nat) (s : State) : List (Nat × Nat × Group) :=
  ((clusterBlocks job bcl s).map (fun e => blockGroups e.1 s)).flatten

/-- The groups of a job. -/
def jobGroups (job : Nat) (s : State) : List (Nat × Nat × Group) :=
  ((s.cpt.blocks.filter (fun e => e.2.job == job && !e.2.pix)).map (fun e => blockGroups e.1 s)).flatten

/-- A barrier over groups completes when every live thread waits at it. -/
def allWait (w : PathWait) (l : List (Nat × Nat × Group)) (s : State) : State :=
  if waitingOf w l = liveOf l then releaseAll w l s else s

/-- gate.bcl. -/
def gateBclStep (a : Iss) (s : State) : Option State :=
  let s := setGroup a.p a.g (stepWait a .bcl s.cpt.seq a.x) (bumpSeq s)
  match blockOf a.x.block s with
  | some b => some (allWait .bcl (bclGroups b.job b.bcl s) s)
  | none => some s

/-- gate.dev: only in a cooperative kernel (R105); it acts as fence.device in each arriving thread (R127). -/
def gateDevStep (a : Iss) (s : State) : Option State :=
  match kernelOf a.x.job s with
  | some k =>
    if !k.coop || a.x.pix.isSome then some (insnFault a 0x0B s)
    else
      let s := setGroup a.p a.g (stepWait a .dev s.cpt.seq a.x) (bumpSeq s)
      let s := if a.ex = 0 then s else wbFlushAll a.p s
      some (allWait .dev (jobGroups a.x.job s) s)
  | none => some (insnFault a 0x0B s)

/-- mask.live. -/
def maskLiveStep (i : Insn) (a : Iss) (s : State) : Option State :=
  some (advance a ((threadsOf a.ex).foldl (fun x t => regPut t i.dst.toNat a.x.live x) a.x) s)

/-- The uncounted gates of a block after exits: one whose arrivals reach the new expected count completes (R103). -/
def gatesRecheck (b : Nat) (s : State) : State :=
  (List.range 16).foldl (fun s g =>
    let v := gateOf b g s
    if v.n = 0 ∧ 0 < v.arr ∧ liveOf (blockGroups b s) ≤ v.arr then
      releaseAll (.gate g) (blockGroups b s) (setGate b g { v with arr := 0, cfg := [] } s)
    else s) s

/-- The barriers of a block after exits of its threads (R103). -/
def exitRecheck (b : Nat) (s : State) : State :=
  let s := gatesRecheck b s
  match blockOf b s with
  | some v =>
    let s := allWait .bcl (bclGroups v.job v.bcl s) s
    allWait .dev (jobGroups v.job s) s
  | none => s

/-- The executing threads exit: they leave the group, and an empty group leaves the core (R101, R103, R108). -/
def exitStep (a : Iss) (s : State) : Option State :=
  let stay := a.cur.mask &&& ~~~ a.ex
  if a.ex = 0 then some (advance a a.x s)
  else
    let live := a.x.live &&& ~~~ a.ex
    let paths := if stay = 0 then
        (match a.rest.reverse with
        | [] => []
        | l :: r => l :: r.reverse)
      else { nextPath a with mask := stay } :: a.rest
    let x := wsyncFree { a.x with
      live := live, paths := paths, turnOver := stay == 0,
      rays := a.x.rays.filter (fun r => !(a.ex.getLsbD r.1)) }
    let s :=
      if live = 0 then
        let c := coreOf a.p s
        setCore a.p { c with groups := tabDel a.g c.groups } s
      else setGroup a.p a.g x s
    let s := exitRecheck a.x.block s
    some (if live = 0 then blockCheck a.x.block s else s)

/-! ## Matrix-engine instructions (R61 to R63) -/

/-- The MEs of a mask. -/
def meList (m : Word) : List Nat := (List.range 32).filter (fun e => m.getLsbD e)

/-- me.go: every masked ME takes one operation, or the group is not ready (R62). -/
def meGoStep (i : Insn) (a : Iss) (s : State) : Option State :=
  if a.ex = 0 then some (advance a a.x s)
  else
    let base := (regOf a.x (leader a) i.src0.toNat).toNat
    let mes := meList (regOf a.x (leader a) i.src1.toNat)
    if mes.any (fun e => !(meAccepts a.p e s)) then none
    else
      let size := match blockOf a.x.block s with | some b => b.size | none => 0
      let n := s.cpt.seq
      some (mes.foldl (fun s e => meReceive a.p e
        { job := a.x.job, block := a.x.block, group := a.x.idx, addr := base + 64 * e, grp := n,
          bad := base % 64 != 0 || decide (size < base + 64 * e + 64) } s) (bumpSeq (advance a a.x s)))

/-- me.wait: the threads wait while an operation of their group is queued or running on a masked ME. -/
def meWaitStep (i : Insn) (a : Iss) (s : State) : Option State :=
  let m := regOf a.x (leader a) i.src0.toNat
  if groupOps a.p a.x.block a.x.idx m s then some (setGroup a.p a.g (stepWait a (.me m) 0 a.x) s)
  else some (advance a a.x s)

/-! ## Meanings -/

/-- ME_GO (R61). -/
def execMeGo (p : Fin 80) (g : Fin 64) (i : Insn) (s : State) : Out :=
  toNext (issue p.val g.val i { op := some 0xC0, src0 := 1, src1 := 1 } (meGoStep i) s)

/-- ME_WAIT (R63). -/
def execMeWait (p : Fin 80) (g : Fin 64) (i : Insn) (s : State) : Out :=
  toNext (issue p.val g.val i { op := some 0xC1, src0 := 1 } (meWaitStep i) s)

/-- ALU_INSN (R56). -/
def execAluInsn (p : Fin 80) (g : Fin 64) (op : AluOp) (i : Insn) (s : State) : Out := toNext (aluInsn p.val g.val op i s)

/-- BRANCH (R98). The operands of a branch are the instruction set's: no field is checked. -/
def execBranch (p : Fin 80) (g : Fin 64) (target : Nat) (i : Insn) (s : State) : Out :=
  toNext (issue p.val g.val i { anyImm := true, anyReg := true } (branchStep target) s)

/-- LOAD (R118). -/
def execLoad (p : Fin 80) (g : Fin 64) (w : AccW) (i : Insn) (s : State) : Out :=
  toNext (issue p.val g.val i (memUses i (accRegs w) 0 0) (loadStep w i) s)

/-- STORE (R122). -/
def execStore (p : Fin 80) (g : Fin 64) (w : AccW) (i : Insn) (s : State) : Out :=
  toNext (issue p.val g.val i (memUses i 0 (accRegs w) 0) (storeStep w i) s)

/-- ATOMIC (R130). -/
def execAtomic (p : Fin 80) (g : Fin 64) (op : AtomOp) (w64 : Bool) (i : Insn) (s : State) : Out :=
  let n := if w64 then 2 else 1
  toNext (issue p.val g.val i (memUses i n n (if op = .cas then n else 0)) (atomicStep op w64 i) s)

/-- The instruction `fence` (R126): with IMM[0] = 1 every entry of the core's write buffer is written out; local and cluster accesses
are performed at once, so nothing is left to wait for with IMM[0] = 0. -/
def fenceStep (i : Insn) (a : Iss) (s : State) : Option State :=
  some (advance a a.x (if a.ex = 0 || !(i.imm.getLsbD 0) then s else wbFlushAll a.p s))

/-- The fields of `fence`. -/
def fenceUses : Uses := { op := some 0xB8, imm := 1 }

/-- FENCE_CLUSTER (R126): `fence` with IMM[0] = 0. -/
def execFenceCluster (p : Fin 80) (g : Fin 64) (i : Insn) (s : State) : Out :=
  toNext (issue p.val g.val i fenceUses (fenceStep i) s)

/-- FENCE_DEVICE (R126): `fence` with IMM[0] = 1. -/
def execFenceDevice (p : Fin 80) (g : Fin 64) (i : Insn) (s : State) : Out :=
  toNext (issue p.val g.val i fenceUses (fenceStep i) s)

/-- WSYNC (R101). -/
def execWsync (p : Fin 80) (g : Fin 64) (i : Insn) (s : State) : Out :=
  toNext (issue p.val g.val i { op := some 0xB0, src0 := 1 } (wsyncStep i) s)

/-- GATE_CFG (R102). -/
def execGateCfg (p : Fin 80) (g : Fin 64) (i : Insn) (s : State) : Out :=
  toNext (issue p.val g.val i { op := some 0xB1, src0 := 1, imm := 15 } (gateCfgStep i) s)

/-- GATE_JOIN (R102). -/
def execGateJoin (p : Fin 80) (g : Fin 64) (i : Insn) (s : State) : Out :=
  toNext (issue p.val g.val i { op := some 0xB2, imm := 15 } (gateArrive true i) s)

/-- GATE_PASS (R102). -/
def execGatePass (p : Fin 80) (g : Fin 64) (i : Insn) (s : State) : Out :=
  toNext (issue p.val g.val i { op := some 0xB3, imm := 15 } (gateArrive false i) s)

/-- GATE_BCL (R101). -/
def execGateBcl (p : Fin 80) (g : Fin 64) (i : Insn) (s : State) : Out :=
  toNext (issue p.val g.val i { op := some 0xB4 } gateBclStep s)

/-- GATE_DEV (R101). -/
def execGateDev (p : Fin 80) (g : Fin 64) (i : Insn) (s : State) : Out :=
  toNext (issue p.val g.val i { op := some 0xB5 } gateDevStep s)

/-- MASK_LIVE (R101). -/
def execMaskLive (p : Fin 80) (g : Fin 64) (i : Insn) (s : State) : Out :=
  toNext (issue p.val g.val i { op := some 0xB9, dst := 1 } (maskLiveStep i) s)

end Sys2Proof.Machine
end

