-- ==== Sys2Proof/Machine/Link.lean ====
section
/-!
DEFINITION. Svaumon ports and packets: receiving flits, retry, training, forwarding, and the accesses that a peer's
packets make (R418 to R428, R437).
-/
namespace Sys2Proof.Machine

/-- The link engine as a requester of the MMU, for its own and for inbound accesses (R424, R429). -/
abbrev rqLink : Nat := 92

/-- The reasons of Table 17-5. -/
abbrev rLinkLost : Nat := 0x0200
abbrev rCollMismatch : Nat := 0x0201
abbrev rCollAbort : Nat := 0x0202

/-! ## Ports -/

/-- A port is trained and its page is reachable. -/
def portTrained (k : Nat) (s : State) : Bool := bit (getReg (pgSvl k) 0 0x100 s) 0 && !(dark (pgSvl k) s)

/-- The nodes whose route starts at a port (R427). -/
def portNodes (k : Nat) (s : State) : List Nat := (domNodes s).filter (fun m => routePort (ownNode s) m == some k)

/-- DOM_STS.UP: every port below D is admitted. Condition 1 of SVL0 arises on a change (Table 18-3). -/
def domUpdate (s : State) : State :=
  let up := (List.range (domDim s)).all (fun k => bit (getReg (pgSvl k) 0 0x100 s) 1)
  if bit (getReg (pgSvl 0) 0 0x208 s) 16 = up then s
  else raiseIrq (pgSvl 0) 1 (setFld (pgSvl 0) 0 0x208 16 1 (b2n up) s)

/-- REACH of the nodes behind a port. -/
def setReach (k v : Nat) (s : State) : State :=
  (portNodes k s).foldl (fun s m => setFld (pgSvl 0) 0 0x208 m 1 v s) s

/-- A port goes down: UP, ADMITTED and REACH fall, and what it held is lost (R427, R428). -/
def portFall (k : Nat) (s : State) : State :=
  let was := bit (getReg (pgSvl k) 0 0x100 s) 0
  let s := setReach k 0 (setFld (pgSvl k) 0 0x100 0 2 0 s)
  let s := setPort k {} s
  domUpdate (if was then raiseIrq (pgSvl k) 0 s else s)

/-- The DEVICE_ID's first two words (R379). -/
def deviceIdWord (i : Nat) : Word := w32 (leNat (((Config.shake256 Config.identityKey).drop (4 * i)).take 4))

/-- The payload of a TRAIN flit: DEVICE_ID bytes 0 to 7, NODE, D, DOM_TAG and the credits (R421, R425). -/
def trainPayload (s : State) : List Byte :=
  toLE 4 (deviceIdWord 0).toNat ++ toLE 4 (deviceIdWord 1).toNat ++ toLE 4 (ownNode s + domDim s * 2 ^ 4) ++
  toLE 4 (domTag s).toNat ++ toLE 4 256 ++ toLE 4 256 ++ toLE 4 64

/-- A port below D that is enabled and down may train. -/
def mayTrain (k : Nat) (s : State) : Bool :=
  bit (getReg (pgSvl k) 0 0x104 s) 0 && k < domDim s && !(portTrained k s) && !(dark (pgSvl k) s)

/-- ADM_ERR of a training exchange (R425): 0 where the port is admitted. -/
def admErr (k : Nat) (t : TrainInfo) (s : State) : Nat :=
  if !t.ok then 4
  else if t.node.toNat ≠ ownNode s ^^^ 2 ^ k then 1
  else if min 4 t.dim.toNat ≠ domDim s then 2
  else if t.tag ≠ domTag s then 3
  else 0

/-- PORT_TRAINING. -/
def portTraining (k : Nat) (t : TrainInfo) (s : State) : State :=
  if !(mayTrain k s) then s
  else
    let pg := pgSvl k
    let e := admErr k t s
    let s := setFld pg 0 0x100 8 3 e s
    let s := if e = 4 then s
      else setReg pg 0 0x118 t.peerId0 (setReg pg 0 0x11C t.peerId1 (setFld pg 0 0x100 4 4 t.node.toNat s))
    if e ≠ 0 then s
    else
      let s := setPort k { cr := [t.cr0, t.cr1, t.cr2] } (setFld pg 0 0x100 0 2 3 s)
      domUpdate (setReach k 1 s)

/-- PORT_RETRAIN_TIMER: a port that is down trains again every 1 ms (R425). -/
def portRetrain (k : Nat) (s : State) : State :=
  if mayTrain k s && 1000 ≤ (portOf k s).train then
    sendFlit k 4 0 0 (trainPayload s) (setPort k { portOf k s with train := 0 } s)
  else s

/-! ## Retry (R420, R422) -/

/-- A fast retrain starts; the event counts for the port's SVL_LINK source. -/
def startRetrain (k : Nat) (s : State) : State :=
  fault (224 + k) (setPort k { portOf k s with retraining := true, replays := 0 } s)

/-- Every unacknowledged flit is replayed in order; the eighth replay without an advance of ACK is a retry exhaustion. -/
def replay (k : Nat) (s : State) : State :=
  let p := portOf k s
  if p.retry.isEmpty then s
  else
    let s := count32 (pgSvl k) 0 0x108 (setPort k { p with replays := p.replays + 1 } s)
    let s := p.retry.foldl (fun s e => sendFlit k 1 e.2.1 e.1 e.2.2 s) s
    if 8 ≤ p.replays + 1 then startRetrain k s else s

/-- ACK and the credit fields of a received flit (Table 17-2). -/
def ackFlit (k : Nat) (w0 w1 : Word) (s : State) : State :=
  let p := portOf k s
  let ack := fld w0 20 12
  let p := { p with cr := List.zipWith (· + ·) p.cr [fld w1 0 8, fld w1 8 8, fld w1 16 8] }
  let p :=
    match p.retry.findIdx? (fun e => e.1 == ack) with
    | some i => { p with retry := p.retry.drop (i + 1), replays := 0 }
    | none => p
  setPort k p s

/-- A discarded flit: counted, and one NAK until a flit arrives in order. -/
def discardFlit (k : Nat) (s : State) : State :=
  let s := count32 (pgSvl k) 0 0x110 s
  let p := portOf k s
  if p.nak then s else sendFlit k 2 0 p.txSeq [] (setPort k { p with nak := true } s)

/-- A flit received on a trained port: corrected, checked by its CRC, its ACK and credits taken; a row acts on its own
FTYPE only. -/
def rxFlit (k ftype : Nat) (flit : List Byte) (act : List Byte → State → State) (s : State) : State :=
  if !(portTrained k s) then s
  else
    let d := fecDecode flit
    let body := d.1.take 240
    let s' := addFld (pgSvl k) 0 0x10C 0 32 d.2 s
    if flit.length ≠ 256 ∨ leNat ((d.1.drop 240).take 4) ≠ (crc32c body).toNat then discardFlit k s'
    else
      let w0 := w32 (leNat (body.take 4))
      let w1 := w32 (leNat ((body.drop 4).take 4))
      if fld w0 0 4 ≠ ftype then s else pumpPort k (act body (ackFlit k w0 w1 s'))

/-! ## Packets for this node and for others (R423, R426) -/

/-- A header with a reserved OP or field, or on the wrong channel; an ATOMIC with another operand size (Tables 17-3,
17-4). -/
def packetBad (vc : Nat) (w0 : Word) (p : Packet) : Bool :=
  let op := p.op.toNat
  let sub := p.sub.toNat
  let len := p.len.toNat
  let a := p.arg.toNat
  op == 0 || 14 ≤ op || vcOf op != vc || fld w0 18 2 != 0 || 4096 < len ||
  (if op = 1 then 2 ≤ sub else if op = 4 then false else if op = 6 then 3 ≤ sub else sub != 0) ||
  ((op == 1 || op == 2 || op == 4) && a / 2 ^ 48 != 0) ||
  (op == 4 && (if sub = 2 then len != 8 && len != 16 else len != 4 && len != 8)) ||
  (op == 6 && (a / 2 ^ 25 % 2 ^ 7 != 0 || a / 2 ^ 48 != 0 || len != 8))

/-- The 4 data bytes of an ACK or an ERROR_RSP. -/
def reasonData (err : Bool) (reason : Nat) : List Byte := toLE 4 (b2n err + reason * 2 ^ 16)

/-- A response to a packet's source. -/
def reply (p : Packet) (op : Nat) (data : List Byte) (s : State) : State :=
  svlSend (mkPacket op p.src.toNat p.slot.toNat p.tag.toNat data.length 0 0 data s) s

/-- A packet that cannot be forwarded: a READ, an ATOMIC and a WRITE that requests an ACK are answered with LINK_LOST. -/
def forwardLost (p : Packet) (s : State) : State :=
  let op := p.op.toNat
  if op = 2 ∨ op = 4 then reply p 9 (reasonData false rLinkLost) s
  else if op = 1 ∧ p.sub.toNat = 1 then reply p 8 (reasonData true rLinkLost) s
  else s

/-- A whole packet that a port has received. -/
def packetIn (k vc : Nat) (h data : List Byte) (s : State) : State :=
  let p := packetOf h data
  if packetBad vc (w32 (leNat (h.take 4))) p then count32 (pgSvl k) 0 0x110 s
  else
    match routePort (ownNode s) p.dst.toNat with
    | none => { s with svl := { s.svl with inbox := s.svl.inbox ++ [p] } }
    | some j => if portUp j s then portSend j p s else forwardLost p s

/-- The packets in the bytes of a virtual channel; what is left of an unfinished one waits for the next flit. -/
def takePackets (k vc : Nat) : (fuel : Nat) → List Byte → State → State
  | 0, _, s => s
  | fuel + 1, bs, s =>
    let keep := fun (l : List Byte) (s : State) =>
      setPort k { portOf k s with part := tabSet vc l (portOf k s).part } s
    if leNat (bs.take 1) % 16 = 0 then keep [] s
    else if bs.length < 16 then keep bs s
    else
      let h := bs.take 16
      let n := dataLen (leNat (h.take 1) % 16) (leNat ((h.drop 4).take 2) % 2 ^ 13)
      if bs.length < 16 + n then keep bs s
      else takePackets k vc fuel (bs.drop (16 + n)) (packetIn k vc h ((bs.drop 16).take n) s)

/-- DATA_FLIT_RECEIVE: a flit in order is accepted, its slot is free again, and the next flit carries the ACK; another is
discarded. -/
def dataFlit (k : Nat) (body : List Byte) (s : State) : State :=
  let w0 := w32 (leNat (body.take 4))
  let vc := fld w0 4 2
  let p := portOf k s
  if fld w0 8 12 ≠ p.rxNext then discardFlit k s
  else
    let freed := if vc < 3 then setNth p.freed vc (nth 0 p.freed vc + 1) else p.freed
    let s := setPort k { p with rxNext := (p.rxNext + 1) % 4096, nak := false, freed := freed } s
    let s :=
      if vc = 3 ∨ fld w0 6 2 ≠ 0 ∨ leNat ((body.drop 7).take 1) ≠ 0 then count32 (pgSvl k) 0 0x110 s
      else
        let bs := tabGet [] vc p.part ++ body.drop 8
        takePackets k vc (bs.length / 16 + 2) bs s
    sendFlit k 0 0 (portOf k s).txSeq [] s

/-! ## Inbound accesses (R424) -/

/-- The packet is the first of its stream that waits here, and is taken out. -/
def takePacket (op : Nat) (p : Packet) (s : State) : Option State :=
  let same := fun (q : Packet) => q.src == p.src && vcOf q.op.toNat == vcOf p.op.toNat
  if dark (pgSvl 0) s || p.op.toNat != op || s.svl.inbox.find? same != some p then none
  else some { s with svl := { s.svl with inbox := s.svl.inbox.erase p } }

/-- A row for a packet. -/
def onPacket (op : Nat) (p : Packet) (act : State → State) (s : State) : State :=
  match takePacket op p s with
  | some s' => act s'
  | none => s

/-- The port at which a packet from a node arrives: the highest dimension of its route (R426). -/
def arrivalPort (p : Packet) (s : State) : Nat :=
  ((List.range 4).reverse.find? (fun k => ownNode s / 2 ^ k % 2 != p.src.toNat / 2 ^ k % 2)).getD 0

/-- A refused inbound access is counted at the port it came by. -/
def countRefused (p : Packet) (s : State) : State := count32 (pgSvl (arrivalPort p s)) 0 0x114 s

/-- The slot is ACTIVE and takes inbound accesses. -/
def slotOpen (slot : Nat) (s : State) : Bool :=
  (slotOf slot s).state == 1 && bit (getReg (pgSvl 0) 0 (0x20C + 4 * (slot / 32)) s) (slot % 32)

/-- The reason for which an inbound access of `n` bytes is refused; each page is translated. -/
def inboundRefused (p : Packet) (n : Nat) (k : XKind) (s : State) : Option Nat × State :=
  if !(slotOpen p.slot.toNat s) then (some 0x0016, s)
  else
    (pagePieces p.arg.toNat n).foldl
      (fun (acc : Option Nat × State) q =>
        match acc with
        | (some r, s) => (some r, s)
        | (none, s) =>
          match translate rqLink p.slot.toNat q.1 k s with
          | (.error _, s) => (some 0x0016, s)
          | (.ok .needAts, s) => (some 0x0016, s)
          | (.ok _, s) => (none, s)) (none, s)

/-- The ACK that a WRITE asks for. -/
def ackWrite (p : Packet) (err : Option Nat) (s : State) : State :=
  if p.sub.toNat % 2 = 1 then reply p 8 (reasonData err.isSome (err.getD 0)) s else s

/-- A WRITE is performed, or discarded. -/
def linkWrite (p : Packet) (s : State) : State :=
  match inboundRefused p p.data.length .wr s with
  | (some r, s) => ackWrite p (some r) (countRefused p s)
  | (none, s) =>
    match vaWriteAll rqLink p.slot.toNat p.arg.toNat p.data s with
    | (.ok _, s) => ackWrite p none s
    | (.error _, s) => ackWrite p (some 0x0016) s

/-- A READ is answered. -/
def linkRead (p : Packet) (s : State) : State :=
  match inboundRefused p p.len.toNat .rd s with
  | (some r, s) => reply p 9 (reasonData false r) (countRefused p s)
  | (none, s) =>
    match vaReadAll rqLink p.slot.toNat p.arg.toNat p.len.toNat .rd s with
    | (.ok bs, s) => reply p 3 bs s
    | (.error _, s) => reply p 9 (reasonData false 0x0015) s

/-- The ATOMIC operation of a SUB value. -/
def subAtomic (sub : Nat) : AtomOp := nth .add [.add, .xchg, .cas, .smin, .smax, .and, .or, .xor] sub

/-- An ATOMIC is performed at the owning controller and answered with the old value (R130, R131). -/
def linkAtomic (p : Packet) (s : State) : State :=
  let op := subAtomic p.sub.toNat
  let n := if op = .cas then p.data.length / 2 else p.data.length
  let f := fun (old : Nat) => toLE n (atomVal op n old (leNat (p.data.take n)) (leNat (p.data.drop n)))
  let va := p.arg.toNat
  let fail := fun (r : Nat) (s : State) => reply p 9 (reasonData false r) s
  match inboundRefused p n .at s with
  | (some r, s) => fail r (countRefused p s)
  | (none, s) =>
    if va % n ≠ 0 then fail 0x0011 s
    else
      match translate rqLink p.slot.toNat va .at s with
      | (.ok (.hbm pa), s) =>
        match hbmRead pa n s with
        | (none, s) => fail 0x0015 s
        | (some bs, s) => reply p 5 bs (hbmPut pa (f (leNat bs)) s)
      | (.ok (.host pa q), s) =>
        if !(hostAtomic op) then fail 0x0012 s
        else
          let bs := hostBytes pa n s
          reply p 5 bs (hostPut pa (f (leNat bs)) (emit (.hostAtomic pa n q) s))
      | (_, s) => fail 0x0016 s

/-! ## Fence operations of a peer (R437) -/

/-- A packet's fence reference: index and generation. -/
def pktFence (p : Packet) : Nat × Nat := (p.arg.toNat % 2 ^ 20, p.arg.toNat / 2 ^ 32 % 2 ^ 16)

/-- A FENCE_OP checked as the slot of the same number: performed, or answered with BAD_HANDLE, or with BUS_ERROR where the entry
cannot be read (R200). -/
def linkFence (p : Packet) (ok : Nat → Nat → Nat → State → Bool) (act : Nat → State → State) (s : State) : State :=
  let f := pktFence p
  if !(slotOpen p.slot.toNat s) then reply p 9 (reasonData false 0x0003) (countRefused p s)
  else
    let fn := (slotOf p.slot.toNat s).func
    match nameFails fn ⟨p.slot.toNat, 0, 0, true⟩ f.1 s with
    | (some rd, s) => reply p 9 (reasonData false rd.1) s
    | (none, s) => if ok fn f.1 f.2 s then act f.1 s else reply p 9 (reasonData false 0x0003) s

/-- A FENCE_NOTIFY to a waiter on another node. -/
def notify (node slot tag st : Nat) (s : State) : State := svlSend (mkPacket 7 node slot tag 8 0 0 (toLE 8 st) s) s

/-- A remote WAIT registers, or is answered at once where the fence is signalled. -/
def linkRegister (p : Packet) (i : Nat) (s : State) : State :=
  let e := fenceGet i s
  if e.signalled then notify p.src.toNat p.slot.toNat p.tag.toNat e.status s
  else
    { s with fnc := { s.fnc with waits := s.fnc.waits ++
      [{ index := i, gen := e.gen, who := .remote p.src.toNat p.slot.toNat p.tag.toNat }] } }

/-! ## Meanings -/

/-- PORT_TRAINING (R425). -/
def execPortTraining (k : Fin 4) (t : TrainInfo) (s : State) : Out := toNext (portTraining k.val t s)

/-- PORT_RETRAIN_TIMER (R425). -/
def execPortRetrainTimer (k : Fin 4) (s : State) : Out := toNext (portRetrain k.val s)

/-- DATA_FLIT_RECEIVE (R420). -/
def execDataFlitReceive (k : Fin 4) (flit : List Byte) (s : State) : Out :=
  toNext (rxFlit k.val 1 flit (dataFlit k.val) s)

/-- NAK_RECEIVE (R420). -/
def execNakReceive (k : Fin 4) (flit : List Byte) (s : State) : Out :=
  toNext (rxFlit k.val 2 flit (fun _ s => replay k.val s) s)

/-- IDLE_FLIT_RECEIVE (R420). -/
def execIdleFlitReceive (k : Fin 4) (flit : List Byte) (s : State) : Out := toNext (rxFlit k.val 0 flit (fun _ s => s) s)

/-- HEARTBEAT_RECEIVE (R427). -/
def execHeartbeatReceive (k : Fin 4) (flit : List Byte) (s : State) : Out :=
  toNext (rxFlit k.val 3 flit (fun _ s => setPort k.val { portOf k.val s with loss := 0 } s) s)

/-- HEARTBEAT_SEND (R427): HB_US counts have passed; 0 acts as 1. -/
def execHeartbeatSend (k : Fin 4) (s : State) : Out :=
  toNext (
    let p := portOf k.val s
    if portUp k.val s && max 1 (getFld (pgSvl k.val) 0 0x104 8 8 s) ≤ p.hb then
      sendFlit k.val 3 0 p.txSeq [] (setPort k.val { p with hb := 0 } s)
    else s)

/-- LANE_ERROR (R422). -/
def execLaneError (k : Fin 4) (s : State) : Out :=
  toNext (if portTrained k.val s then startRetrain k.val s else s)

/-- LINK_WRITE (R424). -/
def execLinkWrite (p : Packet) (s : State) : Out := toNext (onPacket 1 p (linkWrite p) s)

/-- LINK_READ (R424). -/
def execLinkRead (p : Packet) (s : State) : Out := toNext (onPacket 2 p (linkRead p) s)

/-- LINK_ATOMIC (R424). -/
def execLinkAtomic (p : Packet) (s : State) : Out := toNext (onPacket 4 p (linkAtomic p) s)

/-- LINK_FENCE_SIGNAL (R437). -/
def execLinkFenceSignal (p : Packet) (s : State) : Out :=
  toNext (if p.sub.toNat ≠ 0 then s
    else onPacket 6 p (linkFence p maySignal (fun i s => fenceSignal i (leNat (p.data.take 1)) s)) s)

/-- LINK_FENCE_RESET (R437). -/
def execLinkFenceReset (p : Packet) (s : State) : Out :=
  toNext (if p.sub.toNat ≠ 1 then s else onPacket 6 p (linkFence p maySignal fenceReset) s)

/-- LINK_FENCE_REGISTER_WAIT (R437). -/
def execLinkFenceRegisterWait (p : Packet) (s : State) : Out :=
  toNext (if p.sub.toNat ≠ 2 then s else onPacket 6 p (linkFence p mayName (linkRegister p)) s)

end Sys2Proof.Machine
end

