-- ==== Sys2Proof/Machine/LinkRing.lean ====
section
/-!
DEFINITION. The link engine's rings, the responses that their requests wait for, the release of fences' waits, and
collectives (R197, R428 to R437).
-/
namespace Sys2Proof.Machine

/-! ## Rings (R429, R430, Table 17-9) -/

/-- A ring register's field. -/
def lrFld (r off lo n : Nat) (s : State) : Nat := getFld (pgSvl 0) r off lo n s

/-- SLOT, STATE, LOOP and GROUP of a ring. -/
def lrSlot (r : Nat) (s : State) : Nat := lrFld r 0x220 0 6 s
def lrState (r : Nat) (s : State) : Nat := lrFld r 0x230 0 2 s
def lrLoop (r : Nat) (s : State) : Bool := lrFld r 0x220 12 1 s = 1
def lrGroup (r : Nat) (s : State) : Nat := lrFld r 0x220 16 8 s

/-- 2ⁿ descriptors of a ring. -/
def lrSize (r : Nat) (s : State) : Nat := 2 ^ (max 4 (min 12 (lrFld r 0x220 8 4 s)))

/-- STATE set. -/
def setLrState (r st : Nat) (s : State) : State := setFld (pgSvl 0) r 0x230 0 2 st s

/-- A ring's own state. -/
def lringOf (r : Nat) (s : State) : LRing := tabGet {} r s.svl.rings

/-- A ring's own state set. -/
def setLring (r : Nat) (x : LRing) (s : State) : State := { s with svl := { s.svl with rings := tabSet r x s.svl.rings } }

/-- What a ring executes, set. -/
def setRun (r : Nat) (x : LinkRun) (s : State) : State := setLring r { lringOf r s with run := some x } s

/-- The descriptor that runs next, by number. -/
def lrIndex (r : Nat) (s : State) : Nat :=
  if lrLoop r s then
    let p := (lringOf r s).pos
    if (getReg (pgSvl 0) r 0x224 s).toNat ≤ p then 0 else p
  else (getReg (pgSvl 0) r 0x228 s).toNat

/-- A ring has a descriptor to run. -/
def lrWork (r : Nat) (s : State) : Bool :=
  if lrLoop r s then getReg (pgSvl 0) r 0x224 s != 0 else getReg (pgSvl 0) r 0x224 s != getReg (pgSvl 0) r 0x228 s

/-- IDLE and ACTIVE follow the work. -/
def lrKick (r : Nat) (s : State) : State :=
  if lrState r s = 1 ∧ lrWork r s then setLrState r 2 s
  else if lrState r s = 2 ∧ !(lrWork r s) ∧ (lringOf r s).run = none then setLrState r 1 s
  else s

/-- The first failure is captured (R430). -/
def lrNote (r reason : Nat) (s : State) : State :=
  if bit (getReg (pgSvl 0) r 0x234 s) 31 then s
  else
    let n := (getReg (pgSvl 0) r 0x228 s).toNat % 2 ^ 31
    setReg (pgSvl 0) r 0x234 (w32 (n + 2 ^ 31)) (setFld (pgSvl 0) r 0x230 16 16 reason s)

/-- A descriptor's OP, NODE, LEN and addresses (Table 17-6). -/
def ldOp (d : List Word) : Nat := fld (nth 0 d 0) 0 4
def ldNode (d : List Word) : Nat := fld (nth 0 d 0) 4 4
def ldBit (d : List Word) (k : Nat) : Bool := bit (nth 0 d 0) k
def ldLen (d : List Word) : Nat := (nth 0 d 1).toNat
def ldSrc (d : List Word) : Nat := (nth 0 d 2).toNat + fld (nth 0 d 3) 0 16 * 2 ^ 32
def ldDst (d : List Word) : Nat := (nth 0 d 4).toNat + fld (nth 0 d 5) 0 16 * 2 ^ 32

/-- A collective (R433). -/
def isColl (d : List Word) : Bool := 4 ≤ ldOp d && ldOp d ≤ 8

/-- A reserved bit of a fence reference. -/
def fenceRsv (a b : Word) : Bool := fld a 25 7 != 0 || fld b 16 16 != 0

/-- A bad descriptor (Table 17-6, R197, R433). -/
def ldBad (r : Nat) (d : List Word) (s : State) : Bool :=
  let op := ldOp d
  let n := if ldBit d 15 then 8 else 4
  9 ≤ op || fld (nth 0 d 0) 16 16 != 0 || fld (nth 0 d 3) 16 16 != 0 || fld (nth 0 d 5) 16 16 != 0 ||
  nth 0 d 14 != 0 || nth 0 d 15 != 0 || (ldBit d 8 && fenceRsv (nth 0 d 6) (nth 0 d 7)) ||
  (ldBit d 10 && fenceRsv (nth 0 d 8) (nth 0 d 9)) || (isColl d && lrGroup r s == 0) ||
  (op == 3 && ldDst d % n != 0) || (op == 4 && ldLen d % (if ldBit d 11 then 2 else 4) != 0) ||
  (op == 6 && 2 ^ domDim s ≤ ldNode d)

/-- The requests of a ring are forgotten. -/
def lrForget (r : Nat) (s : State) : State :=
  let s := dropTags (fun q => q.who == .ring r) s
  { s with fnc := { s.fnc with waits := s.fnc.waits.filter (fun w => w.who != .ring r) } }

/-! ## Collectives: packets (R433 to R436) -/

/-- ARG of a collective's packet: CSEQ, and GROUP above it. -/
def collArg (g c : Nat) : Nat := c % 2 ^ 32 + g * 2 ^ 32

/-- What members must agree on: OP, FMT, NODE, LEN. -/
def collSig (d : List Word) : Nat := ldOp d + b2n (ldBit d 11) * 2 ^ 4 + ldNode d * 2 ^ 8 + ldLen d * 2 ^ 32

/-- The other members of the domain. -/
def collPeers (s : State) : List Nat := (domNodes s).filter (· != ownNode s)

/-- The header of a COLL_STEP's data: kind (0 data, 1 abort), step, what members agree on, offset. -/
def collHead (kind step sig off : Nat) : List Byte := toLE 4 (kind + step * 2 ^ 4) ++ toLE 8 sig ++ toLE 4 off

/-- Bytes of a step sent to a member, in packets of at most 4 KiB. -/
def collData (slot g c node step sig : Nat) (bs : List Byte) (s : State) : State :=
  (List.range (bs.length / 4080 + 1)).foldl (fun s i =>
    let part := (bs.drop (4080 * i)).take 4080
    if part.isEmpty ∧ i ≠ 0 then s
    else
      let data := collHead 0 step sig (4080 * i) ++ part
      svlSend (mkPacket 10 node slot 0 data.length 0 (collArg g c) data s) s) s

/-- An abort sent to every other member. -/
def collAborts (slot g c mismatch : Nat) (s : State) : State :=
  (collPeers s).foldl (fun s m =>
    let data := collHead 1 mismatch 0 0
    svlSend (mkPacket 10 m slot 0 data.length 0 (collArg g c) data s) s) s

/-- A BARRIER or a SNAP_MARK sent to every other member. -/
def collCall (op slot g c : Nat) (s : State) : State :=
  (collPeers s).foldl (fun s m => svlSend (mkPacket op m slot 0 0 0 (collArg g c) [] s) s) s

/-- A member is known to have issued an aborted CSEQ; the abort is held until every member has. -/
def noteAbort (g c m : Nat) (s : State) : State :=
  let old := match s.svl.aborts.find? (fun a => a.1 == g && a.2.1 == c) with | some a => a.2.2 | none => 0
  let new := old ||| 2 ^ m
  let rest := s.svl.aborts.filter (fun a => !(a.1 == g && a.2.1 == c))
  let all := (domNodes s).all (fun m => new / 2 ^ m % 2 == 1)
  { s with svl := { s.svl with aborts := if all then rest else rest ++ [(g, c, new)] } }

/-- The packets of a collective that wait here. -/
def collMsgs (g c : Nat) (s : State) : List CollMsg := s.svl.coll.filter (fun m => m.group == g && m.cseq == c)

/-- Packets of a collective used up. -/
def collDrop (f : CollMsg → Bool) (s : State) : State := { s with svl := { s.svl with coll := s.svl.coll.filter (fun m => !(f m)) } }

/-- The slot's link traffic goes on (R436). -/
def collResume (r : Nat) (x : LinkRun) (s : State) : State :=
  if ldOp x.desc = 8 ∧ x.phase = 3 ∧ x.step ≠ 0 then
    { s with svl := { s.svl with stopped := s.svl.stopped.erase (lrSlot r s) } }
  else s

/-- A collective ends other than OK: aborts to every member, and nothing of it is held (R433). -/
def collFail (r : Nat) (x : LinkRun) (mismatch : Nat) (s : State) : State :=
  if isColl x.desc && x.phase == 3 then
    let g := lrGroup r s
    let s := collAborts (lrSlot r s) g x.cseq mismatch (collResume r x s)
    noteAbort g x.cseq (ownNode s) (collDrop (fun m => m.group == g && m.cseq == x.cseq) s)
  else s

/-! ## The end of a descriptor (R430) -/

/-- Step 4: the descriptor has ended. -/
def lrDone (r : Nat) (s : State) : State :=
  let i := lrIndex r s
  let s := setLring r { lringOf r s with run := none, pos := i + 1, timer := 0 } s
  lrKick r (wrap32 (pgSvl 0) r 0x228 s)

/-- Step 3: the fence at 0x20 is signalled; a remote one waits while the slot's link traffic is stopped. -/
def lrSignal (r : Nat) (x : LinkRun) (s : State) : State :=
  let a := nth 0 x.desc 8
  let b := nth 0 x.desc 9
  let slot := lrSlot r s
  if !(ldBit x.desc 10) || fenceRsv a b then lrDone r s
  else
    match fenceNode a s with
    | some m =>
      if linkStopped slot s then setRun r { x with phase := 4 } s
      else if reachable m s then lrDone r (fenceOp (.ring r) slot 0 a b x.status [] 0 0 s)
      else lrDone r (lrNote r rLinkLost s)
    | none =>
      match nameFails (slotOf slot s).func ⟨slot, 0, 0, true⟩ (fenceIdx a) s with
      | (some rd, s) => lrDone r (lrNote r rd.1 s)
      | (none, s) =>
        if maySignal (slotOf slot s).func (fenceIdx a) (fld b 0 16) s then lrDone r (fenceSignal (fenceIdx a) x.status s)
        else lrDone r (lrNote r 0x0003 s)

/-- A descriptor ends with a fence status. -/
def lrEnd (r st : Nat) (s : State) : State :=
  match (lringOf r s).run with
  | none => s
  | some x =>
    let x := { x with status := st, phase := 4 }
    lrSignal r x (setRun r x (lrForget r s))

/-- A descriptor fails with a reason. -/
def lrFailWith (r st reason mismatch : Nat) (s : State) : State :=
  match (lringOf r s).run with
  | none => s
  | some x => lrEnd r st (lrNote r reason (collFail r x mismatch s))

/-- A descriptor ends with FAULT. -/
def lrFail (r reason : Nat) (s : State) : State := lrFailWith r 3 reason (b2n (reason = rCollMismatch)) s

/-! ## PUT, GET and ATOMIC (R431) -/

/-- The WRITEs of a PUT: local data, the pieces of the remote range, an ACK for the last. -/
def putSend (r slot node src dst len : Nat) (s : State) : Except Nat Unit × State :=
  (pagePieces dst len).foldl
    (fun (acc : Except Nat Unit × State) p =>
      match acc with
      | (.error e, s) => (.error e, s)
      | (.ok _, s) =>
        match vaReadAll rqLink slot (src + (p.1 - dst)) p.2 .rd s with
        | (.error (e, _), s) => (.error (accReason e), s)
        | (.ok bs, s) =>
          if p.1 + p.2 = dst + len then
            (.ok (), svlRequest { who := .ring r, node := node, op := 1, sub := 1, va := 0, len := 0 } slot p.1 bs s)
          else (.ok (), svlSend (mkPacket 1 node slot 0 bs.length 0 p.1 bs s) s)) (.ok (), s)

/-- A tag is free. -/
def tagFree (s : State) : Bool := (List.range 4096).any (fun t => (tabFind t s.svl.tags).isNone)

/-- The READs of a GET while tags are free. -/
def getIssue (r slot node src dst len : Nat) : (fuel : Nat) → LinkRun → State → State
  | 0, x, s => setRun r x s
  | fuel + 1, x, s =>
    if len ≤ x.off ∨ !(tagFree s) then setRun r x s
    else
      let n := min (len - x.off) (pageLeft (src + x.off))
      let q : LinkReq := { who := .ring r, node := node, op := 2, sub := 0, va := dst + x.off, len := n }
      getIssue r slot node src dst len fuel { x with off := x.off + n } (svlRequest q slot (src + x.off) [] s)

/-- The ring waits for responses. -/
def lrWaiting (r : Nat) (s : State) : Bool := s.svl.tags.any (fun e => e.2.who == .ring r && (e.2.op != 6))

/-- The operand bytes of an ATOMIC: operand, then the compare value. -/
def atomicData (d : List Word) : List Byte :=
  let n := if ldBit d 15 then 8 else 4
  let v := fun (i : Nat) => toLE n ((nth 0 d i).toNat + (nth 0 d (i + 1)).toNat * 2 ^ 32)
  if fld (nth 0 d 0) 12 3 = 2 then v 10 ++ v 12 else v 10

/-! ## Collectives: running them -/

/-- FP32 words as bytes. -/
def vecBytes (v : List Word) : List Byte := (v.map (fun w => toLE 4 w.toNat)).flatten

/-- The data of a step from a member, in offset order, once all of it is here. -/
def stepData (g c src step need : Nat) (s : State) : Option (List Byte) :=
  let ms := (collMsgs g c s).filter (fun m => m.kind == 0 && m.src == src && m.step == step)
  let bs := (ms.map (·.data)).flatten
  if ms.isEmpty ∨ bs.length < need then none else some bs

/-- A packet of the collective does not agree with this member's descriptor (R433). -/
def collDiffers (d : List Word) (m : CollMsg) : Bool :=
  if m.kind = 0 then m.sig != collSig d
  else if m.kind = 1 then ldOp d != 7 && ldOp d != 8
  else ldOp d != 8

/-- Every other member's packet of a kind is here, one of each is used up. -/
def takeCalls (g c kind : Nat) (s : State) : Option State :=
  let one := fun (m : Nat) => (collMsgs g c s).find? (fun x => x.kind == kind && x.src == m)
  if (collPeers s).all (fun m => (one m).isSome) then
    some ((collPeers s).foldl (fun s m =>
      match one m with
      | some x => { s with svl := { s.svl with coll := s.svl.coll.erase x } }
      | none => s) s)
  else none

/-- A collective's output is written and the descriptor ends. -/
def collWrite (r : Nat) (x : LinkRun) (bs : List Byte) (s : State) : State :=
  match vaWriteAll rqLink (lrSlot r s) (ldDst x.desc) bs s with
  | (.error (e, _), s) => lrFail r (accReason e) s
  | (.ok _, s) =>
    let g := lrGroup r s
    lrEnd r 0 (collDrop (fun m => m.group == g && m.cseq == x.cseq) s)

/-- The sum of a step's pair: low + high (R49, R434). -/
def pairSum (ownLow : Bool) (own other : List Word) : List Word × Nat :=
  let l := List.zipWith (fun a b => if ownLow then accAdd true a b else accAdd true b a) own other
  (l.map (·.1), l.foldl (fun f e => f ||| e.2) 0)

/-- The result of an ALLREDUCE in FMT, with its flags (Table 2-4). -/
def reduceOut (d : List Word) (v : List Word) : List Byte × Nat :=
  let o := v.map (fun w => outFp (if ldBit d 11 then .bf16 else .fp32) (f32 w))
  ((o.map (fun e => toLE (if ldBit d 11 then 2 else 4) e.1)).flatten, o.foldl (fun f e => f ||| e.2) 0)

/-- The children of a node in the dimension-ordered tree of a root: its index in the tree with one higher bit set. -/
def treeKids (root n dim : Nat) : List Nat :=
  let x := n ^^^ root
  ((List.range dim).filter (fun k => x < 2 ^ k)).map (fun k => (x ||| 2 ^ k) ^^^ root)

/-- The parent of a node that is not the root: its index with the highest bit cleared. -/
def treeParent (root n : Nat) : Nat :=
  let x := n ^^^ root
  (x - 2 ^ Nat.log2 x) ^^^ root

/-- A collective goes as far as its packets let it: ALLREDUCE, ALLGATHER, BROADCAST, BARRIER, SNAPSHOT (R434 to R436). -/
def collRun (r : Nat) : (fuel : Nat) → LinkRun → State → State
  | 0, x, s => setRun r x s
  | fuel + 1, x, s =>
    let d := x.desc
    let g := lrGroup r s
    let n := ownNode s
    let dim := domDim s
    let slot := lrSlot r s
    let peer := n ^^^ 2 ^ x.step
    let s := setRun r x s
    if (collMsgs g x.cseq s).any (collDiffers d) then lrFail r rCollMismatch s
    else if ldOp d = 4 then
      if dim ≤ x.step then
        let o := reduceOut d x.vec
        collWrite r x o.1 (setFld (pgSvl 0) r 0x230 4 4 (x.flags ||| o.2) s)
      else
        match stepData g x.cseq peer x.step (4 * x.vec.length) s with
        | none => s
        | some bs =>
          let p := pairSum (n < peer) x.vec (rowWords 4 x.vec.length bs)
          let x := { x with vec := p.1, flags := x.flags ||| p.2, step := x.step + 1 }
          let s := setFld (pgSvl 0) r 0x230 4 4 x.flags s
          let s := if x.step < dim then collData slot g x.cseq (n ^^^ 2 ^ x.step) x.step (collSig d) (vecBytes x.vec) s else s
          collRun r fuel x s
    else if ldOp d = 5 then
      if dim ≤ x.step then collWrite r x x.got s
      else
        match stepData g x.cseq peer x.step x.got.length s with
        | none => s
        | some bs =>
          let x := { x with got := if n < peer then x.got ++ bs else bs ++ x.got, step := x.step + 1 }
          let s := if x.step < dim then collData slot g x.cseq (n ^^^ 2 ^ x.step) x.step (collSig d) x.got s else s
          collRun r fuel x s
    else if ldOp d = 6 then
      let root := ldNode d
      match (if n = root then some x.got else stepData g x.cseq (treeParent root n) 0 (ldLen d) s) with
      | none => s
      | some bs =>
        collWrite r x bs ((treeKids root n dim).foldl (fun s m => collData slot g x.cseq m 0 (collSig d) bs s) s)
    else if ldOp d = 7 then
      match takeCalls g x.cseq 1 s with
      | none => s
      | some s => lrEnd r 0 s
    else
      match takeCalls g x.cseq (if x.step = 1 then 2 else 1) s with
      | none => s
      | some s =>
        if x.step = 0 then
          let s := { s with svl := { s.svl with stopped := s.svl.stopped ++ [slot] } }
          collRun r fuel { x with step := 1 } (collCall 12 slot g x.cseq s)
        else if x.step = 1 then collRun r fuel { x with step := 2 } (collCall 11 slot g x.cseq s)
        else lrEnd r 0 (collResume r x s)

/-- The local input of a collective: nothing for BARRIER, SNAPSHOT and a member that is not BROADCAST's root. -/
def collInput (d : List Word) (s : State) : Nat :=
  if ldOp d = 4 ∨ ldOp d = 5 ∨ (ldOp d = 6 ∧ ldNode d = ownNode s) then ldLen d else 0

/-- A collective is issued: its CSEQ; an abort that is held ends it at once; its first packets (R433). -/
def collStart (r : Nat) (x : LinkRun) (s : State) : State :=
  let d := x.desc
  let g := lrGroup r s
  let slot := lrSlot r s
  let c := (lringOf r s).cseq
  let s := setLring r { lringOf r s with cseq := (c + 1) % 2 ^ 32 } s
  let x := { x with phase := 3, cseq := c }
  let s := setRun r x (if ldOp d = 4 then setFld (pgSvl 0) r 0x230 4 4 0 s else s)
  if s.svl.aborts.any (fun a => a.1 == g && a.2.1 == c) then lrFail r rCollAbort s
  else if (collPeers s).any (fun m => !(reachable m s)) then lrFail r rLinkLost s
  else
    match vaReadAll rqLink slot (ldSrc d) (collInput d s) .rd s with
    | (.error (e, _), s) => lrFail r (accReason e) s
    | (.ok bs, s) =>
      let n := ownNode s
      let es := if ldBit d 11 then 2 else 4
      let x := if ldOp d = 4 then { x with vec := rowWords es (bs.length / es) bs } else { x with got := bs }
      let s :=
        if ldOp d = 4 ∧ 0 < domDim s then collData slot g c (n ^^^ 1) 0 (collSig d) (vecBytes x.vec) s
        else if ldOp d = 5 ∧ 0 < domDim s then collData slot g c (n ^^^ 1) 0 (collSig d) bs s
        else if ldOp d = 7 ∨ ldOp d = 8 then collCall 11 slot g c s
        else s
      collRun r 8 x s

/-! ## Executing a descriptor (R430) -/

/-- Step 2. Packets wait while the slot's link traffic is stopped (R436). -/
def lrExecute (r : Nat) (x : LinkRun) (s : State) : State :=
  let d := x.desc
  let op := ldOp d
  let node := ldNode d
  let slot := lrSlot r s
  let x := { x with phase := 2 }
  let s := setRun r x s
  if op = 0 then lrEnd r 0 s
  else if linkStopped slot s then s
  else if isColl d then collStart r x s
  else if !(reachable node s) then lrFail r rLinkLost s
  else
    let x := { x with phase := 3 }
    let s := setRun r x s
    if op = 1 then
      if ldLen d = 0 then lrEnd r 0 s
      else
        match putSend r slot node (ldSrc d) (ldDst d) (ldLen d) s with
        | (.error e, s) => lrFail r e s
        | (.ok _, s) => s
    else if op = 2 then
      if ldLen d = 0 then lrEnd r 0 s
      else getIssue r slot node (ldSrc d) (ldDst d) (ldLen d) (ldLen d / 4096 + 3) x s
    else
      svlRequest { who := .ring r, node := node, op := 4, sub := fld (nth 0 d 0) 12 3, va := ldSrc d,
                   len := if ldBit d 15 then 8 else 4 } slot (ldDst d) (atomicData d) s

/-- The wait of step 1 is satisfied with a status. -/
def lrMet (r st : Nat) (s : State) : State :=
  match (lringOf r s).run with
  | none => s
  | some x => if st = 0 then lrExecute r x s else lrEnd r st s

/-- Step 1. -/
def lrWaitStep (r : Nat) (x : LinkRun) (s : State) : State :=
  let a := nth 0 x.desc 6
  let b := nth 0 x.desc 7
  let slot := lrSlot r s
  let fn := (slotOf slot s).func
  let i := fenceIdx a
  let g := fld b 0 16
  let reset := ldBit x.desc 9
  if !(ldBit x.desc 8) then lrExecute r x s
  else
    match fenceNode a s with
    | some m =>
      if linkStopped slot s then s
      else if reachable m s then
        fenceOp (.ring r) slot 2 a b 0 [] 0 0 (setRun r { x with phase := 1 } s)
      else lrMet r 1 s
    | none =>
      match nameFails fn ⟨slot, 0, 0, true⟩ i s with
      | (some rd, s) => lrFail r rd.1 s
      | (none, s) =>
        if !(mayName fn i g s) || (reset && !(maySignal fn i g s)) then lrFail r 0x0003 s
        else
          let e := fenceGet i s
          if e.signalled then lrMet r e.status (if reset then fenceReset i s else s)
          else
            let s := setRun r { x with phase := 1 } s
            { s with fnc := { s.fnc with waits := s.fnc.waits ++
              [{ index := i, gen := g, who := .ring r, reset := reset }] } }

/-- A row of a descriptor: the next one is fetched where its OP is the row's, and it runs until it waits; one whose packets
had to wait goes on. A descriptor that cannot be read, or a bad one, ends under any row. -/
def lrStep (r op : Nat) (s : State) : State :=
  if dark (pgSvl 0) s || lrState r s != 2 then s
  else
    match (lringOf r s).run with
    | some x =>
      if ldOp x.desc ≠ op then s
      else if x.phase = 0 then lrWaitStep r x s
      else if x.phase = 2 then lrExecute r x s
      else if x.phase = 4 then lrSignal r x s
      else s
    | none =>
      if !(lrWork r s) then s
      else
        let va := getPair (pgSvl 0) r 0x218 s + 64 * (lrIndex r s % lrSize r s)
        match vaReadAll rqLink (lrSlot r s) va 64 .rd s with
        | (.error (e, _), s) => lrFail r (accReason e) (setRun r { desc := [] } s)
        | (.ok bs, s') =>
          let d := rowWords 4 16 bs
          if ldOp d ≠ op ∧ ldOp d < 9 then s
          else
            let s' := setRun r { desc := d } s'
            if ldBad r d s' then lrFail r 0x0017 s' else lrWaitStep r { desc := d } s'

/-! ## Responses -/

/-- The request that a response answers. -/
def requestOf (p : Packet) (s : State) : Option LinkReq :=
  match tabFind p.tag.toNat s.svl.tags with
  | some q => if q.node = p.src.toNat then some q else none
  | none => none

/-- A request is answered. -/
def tagDone (p : Packet) (s : State) : State := { s with svl := { s.svl with tags := tabDel p.tag.toNat s.svl.tags } }

/-- The ring's descriptor ends OK once no response is outstanding and a GET has asked for all. -/
def lrCheck (r : Nat) (s : State) : State :=
  match (lringOf r s).run with
  | none => s
  | some x =>
    let d := x.desc
    let s := if ldOp d = 2 ∧ x.off < ldLen d then
        getIssue r (lrSlot r s) (ldNode d) (ldSrc d) (ldDst d) (ldLen d) (ldLen d / 4096 + 3) x s else s
    if lrWaiting r s then s else lrEnd r 0 s

/-- READ_RSP and ATOMIC_RSP: the data goes to local memory. -/
def linkData (op : Nat) (p : Packet) (s : State) : State :=
  match requestOf p s with
  | some q =>
    match q.who with
    | .ring r =>
      if q.op ≠ op then s
      else
        let s := tagDone p s
        match vaWriteAll rqLink (lrSlot r s) q.va (p.data.take q.len) s with
        | (.error (e, _), s) => lrFail r (accReason e) s
        | (.ok _, s) => lrCheck r s
    | _ => s
  | none => s

/-- A remote operation of a command fails: its record and the policy of its batch (R194, R196, R437). -/
def remoteFail (o : Owner) (q : LinkReq) (reason : Nat) (s : State) : State :=
  let a := cw q.cmd 1
  let b := cw q.cmd 2
  if q.cmd = [] then s
  else if q.sub = 2 then waitDone o (.failed 1 reason (fenceDetail a b)) s
  else
    let s :=
      match o with
      | .queue k n =>
        writeRecord k n (opOf q.cmd) (isIrq q.cmd)
          { status := 1, reason := reason, detail := fenceDetail a b, start := q.start } s
      | .batch _ => s
    streamFail o q.no 1 reason s

/-- ERROR_RSP, or an ACK with its error bit: the request fails with the reason given. -/
def linkError (p : Packet) (s : State) : State :=
  match requestOf p s with
  | none => s
  | some q =>
    let reason := leNat (p.data.take 4) / 2 ^ 16 % 2 ^ 16
    let s := tagDone p s
    match q.who with
    | .ring r => if q.op = 6 ∧ q.sub < 2 then lrNote r reason s else lrFail r reason s
    | .queue k n => remoteFail (.queue k n) q reason s
    | .batch b => remoteFail (.batch b) q reason s

/-- LINK_ACK. -/
def linkAck (p : Packet) (s : State) : State :=
  if leNat (p.data.take 1) % 2 = 1 then linkError p s
  else
    match requestOf p s with
    | some q =>
      match q.who with
      | .ring r => if q.op = 1 then lrCheck r (tagDone p s) else s
      | _ => s
    | none => s

/-- FENCE_NOTIFY: a remote WAIT is satisfied; a ring's wait with RESET_WAIT also resets the fence. -/
def fenceNotify (p : Packet) (s : State) : State :=
  match requestOf p s with
  | none => s
  | some q =>
    if q.op ≠ 6 ∨ q.sub ≠ 2 then s
    else
      let st := leNat (p.data.take 1)
      let s := tagDone p s
      match q.who with
      | .queue k n => waitDone (.queue k n) (.ok st) s
      | .batch b => waitDone (.batch b) (.ok st) s
      | .ring r =>
        match (lringOf r s).run with
        | some x =>
          let a := nth 0 x.desc 6
          let s := if ldBit x.desc 9 then fenceOp (.ring r) (lrSlot r s) 1 a (nth 0 x.desc 7) 0 [] 0 0 s else s
          lrMet r st s
        | none => s

/-! ## The release of a fence's waits (R197, Table 7-11) -/

/-- One WAIT that has its fence's status, or whose fence was destroyed. -/
def releaseWait (w : FWait) (s : State) : State :=
  match w.got with
  | none => s
  | some st =>
    let s := { s with fnc := { s.fnc with waits := s.fnc.waits.erase w } }
    let e : WaitEnd := if st = 256 then .failed 1 0x0003 (w.index + w.gen * 2 ^ 32) else .ok st
    match w.who with
    | .queue k q => waitDone (.queue k q) e s
    | .batch b => waitDone (.batch b) e s
    | .ring r => if st = 256 then lrFail r 0x0003 s else lrMet r st s
    | .remote node slot tag =>
      if st = 256 then svlSend (mkPacket 9 node slot tag 4 0 0 (reasonData false 0x0003) s) s
      else notify node slot tag st s

/-- FENCE_WAIT_RELEASE: the WAITs registered on a fence that have its status. -/
def waitRelease (i : Nat) (s : State) : State :=
  (s.fnc.waits.filter (fun w => w.index == i && w.got.isSome)).foldl (fun s w => releaseWait w s) s

/-! ## Packets of collectives -/

/-- The ring that runs a collective of a group and CSEQ. -/
def collRing (g c : Nat) (s : State) : Option (Nat × LinkRun) :=
  (List.range 16).findSome? (fun r =>
    match (lringOf r s).run with
    | some x => if lrGroup r s = g ∧ isColl x.desc ∧ x.phase = 3 ∧ x.cseq = c then some (r, x) else none
    | none => none)

/-- A packet of a collective arrives: it is used by the ring that runs it, or waits for it. -/
def collArrive (m : CollMsg) (s : State) : State :=
  let s := { s with svl := { s.svl with coll := s.svl.coll ++ [m] } }
  match collRing m.group m.cseq s with
  | some (r, x) => collRun r 8 x s
  | none => s

/-- GROUP and CSEQ of a packet. -/
def pktColl (p : Packet) : Nat × Nat := (p.arg.toNat / 2 ^ 32 % 2 ^ 8, p.arg.toNat % 2 ^ 32)

/-- COLL_STEP: data of a step, or an abort (R433, R434). -/
def collStep (p : Packet) (s : State) : State :=
  let g := (pktColl p).1
  let c := (pktColl p).2
  let w0 := leNat (p.data.take 4)
  if w0 % 16 = 0 then
    collArrive ⟨g, c, p.src.toNat, 0, w0 / 16 % 16, leNat ((p.data.drop 4).take 8), leNat ((p.data.drop 12).take 4),
      p.data.drop 16⟩ s
  else
    let s := noteAbort g c p.src.toNat s
    match collRing g c s with
    | some (r, _) => lrFailWith r 3 (if w0 / 16 % 16 = 1 then rCollMismatch else rCollAbort) (w0 / 16 % 16) s
    | none => s

/-- SNAP_MARK acts once the VC0 packets of its source that came before it have been performed (R436). -/
def snapReady (p : Packet) (s : State) : Bool := !(s.svl.inbox.any (fun q => q.src == p.src && vcOf q.op.toNat == 0))

/-! ## Registers of the rings, timeouts, losses -/

/-- LR_PROD_WRITE: descriptors are added. -/
def lrProdWrite (v : Word) (s : State) : State :=
  let r := getFld (pgSvl 0) 0 0x214 0 4 s
  lrKick r (setReg (pgSvl 0) r 0x224 v s)

/-- A write of LR_CTL (Table 17-9): other fields are fixed while EN is 1; EN from 0 to 1 starts the ring, from 1 to 0 stops
it. -/
def lrCtlWrite (v : Word) (s : State) : State :=
  let r := getFld (pgSvl 0) 0 0x214 0 4 s
  let was := lrFld r 0x220 13 1 s = 1
  let s := if was then setFld (pgSvl 0) r 0x220 13 1 (fld v 13 1) s else writeByType (pgSvl 0) r 0x220 v s
  if !was && bit v 13 then lrKick r (setLrState r 1 (setLring r { lringOf r s with run := none, pos := 0, timer := 0 } s))
  else if was && !(bit v 13) then
    let s := match (lringOf r s).run with | some x => collFail r x 0 s | none => s
    setLrState r 0 (setLring r { lringOf r s with run := none, timer := 0 } (lrForget r s))
  else s

/-- RESUME of LR_CMD: a HALTED ring goes on at the next descriptor. -/
def lrResume (s : State) : State :=
  let r := getFld (pgSvl 0) 0 0x214 0 4 s
  if lrState r s = 3 then lrKick r (setLrState r 1 s) else s

/-- RESET of LR_CMD: a HALTED ring is IDLE behind its descriptors, or before descriptor 0 in LOOP mode. -/
def lrReset (s : State) : State :=
  let r := getFld (pgSvl 0) 0 0x214 0 4 s
  if lrState r s ≠ 3 then s
  else
    let s := if lrLoop r s then setLring r { lringOf r s with pos := 0 } s
      else setReg (pgSvl 0) r 0x228 (getReg (pgSvl 0) r 0x224 s) s
    setLrState r 1 s

/-- LINK_RING_TIMEOUT: the descriptor ends with TIMEOUT and the ring is HALTED. A descriptor that no row has fetched yet is
read for its fence. -/
def lrTimeout (r : Nat) (s : State) : State :=
  if lrState r s ≠ 2 ∨ (lringOf r s).timer < max 1 (getReg (pgSvl 0) r 0x22C s).toNat then s
  else
    let s :=
      match (lringOf r s).run with
      | some _ => s
      | none =>
        let va := getPair (pgSvl 0) r 0x218 s + 64 * (lrIndex r s % lrSize r s)
        match vaReadAll rqLink (lrSlot r s) va 64 .rd s with
        | (.error _, s) => setRun r { desc := [] } s
        | (.ok bs, s) => setRun r { desc := rowWords 4 16 bs } s
    lrFailWith r 2 0x0005 0 (setLrState r 3 s)

/-- The descriptors and waits that need a lost port (R428). -/
def portConsequences (s : State) : State :=
  let gone := fun (m : Nat) => !(reachable m s)
  let rings := (List.range 16).filter (fun r =>
    match (lringOf r s).run with
    | some x =>
      (isColl x.desc && x.phase == 3) ||
      s.svl.tags.any (fun e => e.2.who == .ring r && gone e.2.node && e.2.op != 6)
    | none => false)
  let waits := s.svl.tags.filter (fun e => gone e.2.node && e.2.op == 6 && e.2.sub == 2)
  let s := { s with svl := { s.svl with tags := s.svl.tags.filter (fun e => !(gone e.2.node && e.2.op == 6)) } }
  let s := rings.foldl (fun s r => lrFail r rLinkLost s) s
  waits.foldl (fun s e =>
    match e.2.who with
    | .queue k q => waitDone (.queue k q) (.ok 1) s
    | .batch b => waitDone (.batch b) (.ok 1) s
    | .ring r => lrMet r 1 s) s

/-- Peer loss (R427, R428). -/
def peerLost (k : Nat) (s : State) : State := portConsequences (fault (220 + k) (portFall k s))

/-- PEER_LOSS: LOSS_US counts without a HEARTBEAT; 0 acts as 1. -/
def peerLoss (k : Nat) (s : State) : State :=
  if portUp k s && max 1 (getFld (pgSvl k) 0 0x104 16 8 s) ≤ (portOf k s).loss then peerLost k s else s

/-- LINK_RETRAIN_COMPLETE: replay resumes, or the port stays down (R422). -/
def retrainDone (k : Nat) (ok : Bool) (s : State) : State :=
  let p := portOf k s
  if !p.retraining then s
  else if ok then pumpPort k (replay k (setPort k { p with retraining := false } s))
  else peerLost k s

/-- A write of PORT_CTL: a port whose EN is cleared goes down. -/
def portCtlWrite (k : Nat) (v : Word) (s : State) : State :=
  let s := writeByType (pgSvl k) 0 0x104 v s
  if !(bit v 0) && bit (getReg (pgSvl k) 0 0x100 s) 0 then portConsequences (portFall k s) else s

/-- A slot is killed or its function disabled: its rings stop, their collectives abort, and its link requests are forgotten
(R432). -/
def linkKill (slot : Nat) (s : State) : State :=
  let s := ((List.range 16).filter (fun r => lrState r s != 0 && lrSlot r s == slot)).foldl (fun s r =>
    let s := match (lringOf r s).run with | some x => collFail r x 0 s | none => s
    setLrState r 0 (setLring r { lringOf r s with run := none, timer := 0 } (lrForget r s))) s
  dropTags (fun q => match q.who with | .queue k _ => k == slot | _ => false) s

/-! ## Meanings -/

/-- FENCE_WAIT_RELEASE (R197). -/
def execFenceWaitRelease (index : Nat) (s : State) : Out := toNext (waitRelease index s)

/-- LINK_RETRAIN_COMPLETE (R422). -/
def execLinkRetrainComplete (k : Fin 4) (ok : Bool) (s : State) : Out := toNext (retrainDone k.val ok s)

/-- PEER_LOSS (R427). -/
def execPeerLoss (k : Fin 4) (s : State) : Out := toNext (peerLoss k.val s)

/-- LINK_READ_RSP (R431). -/
def execLinkReadRsp (p : Packet) (s : State) : Out := toNext (onPacket 3 p (linkData 2 p) s)

/-- LINK_ATOMIC_RSP (R431). -/
def execLinkAtomicRsp (p : Packet) (s : State) : Out := toNext (onPacket 5 p (linkData 4 p) s)

/-- FENCE_NOTIFY (R437). -/
def execFenceNotify (p : Packet) (s : State) : Out := toNext (onPacket 7 p (fenceNotify p) s)

/-- LINK_ACK (R431). -/
def execLinkAck (p : Packet) (s : State) : Out := toNext (onPacket 8 p (linkAck p) s)

/-- ERROR_RSP (R424). -/
def execErrorRsp (p : Packet) (s : State) : Out := toNext (onPacket 9 p (linkError p) s)

/-- COLL_STEP (R434). -/
def execCollStep (p : Packet) (s : State) : Out := toNext (onPacket 10 p (collStep p) s)

/-- LINK_BARRIER (R436). -/
def execLinkBarrier (p : Packet) (s : State) : Out :=
  toNext (onPacket 11 p (collArrive { group := (pktColl p).1, cseq := (pktColl p).2, src := p.src.toNat, kind := 1 }) s)

/-- SNAP_MARK (R436). -/
def execSnapMark (p : Packet) (s : State) : Out :=
  toNext (if !(snapReady p s) then s
    else onPacket 12 p (collArrive { group := (pktColl p).1, cseq := (pktColl p).2, src := p.src.toNat, kind := 2 }) s)

/-- LR_PROD_WRITE (R429). -/
def execLrProdWrite (r : Requester) (v : Word) (s : State) : Out :=
  toNext (blockWrite r (pgSvl 0) 0x224 (lrProdWrite v) s)

/-- LINK_PUT (R431). -/
def execLinkPut (ring : Fin 16) (s : State) : Out := toNext (lrStep ring.val 1 s)

/-- LINK_GET (R431). -/
def execLinkGet (ring : Fin 16) (s : State) : Out := toNext (lrStep ring.val 2 s)

/-- LINK_DESC_ATOMIC (R431). -/
def execLinkDescAtomic (ring : Fin 16) (s : State) : Out := toNext (lrStep ring.val 3 s)

/-- ALLREDUCE (R434). -/
def execAllreduce (ring : Fin 16) (s : State) : Out := toNext (lrStep ring.val 4 s)

/-- ALLGATHER (R435). -/
def execAllgather (ring : Fin 16) (s : State) : Out := toNext (lrStep ring.val 5 s)

/-- BROADCAST (R435). -/
def execBroadcast (ring : Fin 16) (s : State) : Out := toNext (lrStep ring.val 6 s)

/-- BARRIER (R436). -/
def execLinkDescBarrier (ring : Fin 16) (s : State) : Out := toNext (lrStep ring.val 7 s)

/-- SNAPSHOT (R436). -/
def execSnapshot (ring : Fin 16) (s : State) : Out := toNext (lrStep ring.val 8 s)

/-- NOP of a link ring (R430). -/
def execLinkDescNop (ring : Fin 16) (s : State) : Out := toNext (lrStep ring.val 0 s)

/-- LINK_RING_TIMEOUT (R430). -/
def execLinkRingTimeout (ring : Fin 16) (s : State) : Out := toNext (lrTimeout ring.val s)

/-- LR_RESUME (R430): a write of LR_CMD with RESUME = 1. -/
def execLrResume (r : Requester) (v : Word) (s : State) : Out :=
  toNext (if bit v 0 then blockWrite r (pgSvl 0) 0x238 lrResume s else s)

/-- LR_RESET (R430): a write of LR_CMD with RESET = 1. -/
def execLrReset (r : Requester) (v : Word) (s : State) : Out :=
  toNext (if bit v 1 then blockWrite r (pgSvl 0) 0x238 lrReset s else s)

end Sys2Proof.Machine
end

