-- ==== Sys2Proof/Machine/Codec.lean ====
section
/-!
DEFINITION. The lossless stream format of the compression engines (R286 to R295, R298): headers, prediction, classes, code
tables, blocks, and decoding with every check.
-/
namespace Sys2Proof.Machine

/-- Bytes of a block of uncompressed data (R286). -/
abbrev czBlock : Nat := 65536

/-! ## The stream header (Table 11-2) -/

/-- A stream header. -/
structure CzHdr where
  tensor : Bool
  /-- The ESIZE field. -/
  esz : Nat
  pred : Nat
  nc0 : Nat
  nc1 : Nat
  rb0 : Nat
  rb1 : Nat
  rows0 : Nat
  rows1 : Nat
  cs : Nat
deriving DecidableEq, Repr

/-- A header from its 32 bytes. -/
def czHdrOf (bs : List Byte) : CzHdr :=
  let w := fun i => leNat ((bs.drop (4 * i)).take 4)
  { tensor := w 1 % 2 = 1, esz := w 1 / 2 % 4, pred := w 1 / 8 % 8, nc0 := w 1 / 2 ^ 8 % 8, nc1 := w 1 / 2 ^ 12 % 8,
    rb0 := w 2 % 65536, rb1 := w 2 / 65536, rows0 := w 3 % 65536, rows1 := w 3 / 65536, cs := w 4 }

/-- The 32 bytes of a header. -/
def czHdrBytes (h : CzHdr) : List Byte :=
  toLE 4 0x00015A43 ++
  toLE 4 ((if h.tensor then 1 else 0) + h.esz * 2 + h.pred * 8 + h.nc0 * 2 ^ 8 + h.nc1 * 2 ^ 12) ++
  toLE 4 (h.rb0 + h.rb1 * 65536) ++ toLE 4 (h.rows0 + h.rows1 * 65536) ++ toLE 4 h.cs ++ List.replicate 12 0

/-- Bytes of an element. -/
def czEsz (h : CzHdr) : Nat := 2 ^ h.esz

/-- A plane's geometry (R287). -/
def planeOk (h : CzHdr) (rb nc : Nat) : Bool := rb != 0 && rb % (nc * czEsz h) == 0 && rb ≤ 32768

/-- A header is valid (R287): ID, VERSION, the reserved bits and the mode's conditions. -/
def czHdrOk (bs : List Byte) : Bool :=
  let h := czHdrOf bs
  bs == czHdrBytes h && h.esz != 3 && h.nc0 ≤ 4 && h.nc1 ≤ 4 &&
  (if h.tensor then
    (h.pred == 0 || h.pred == 5 || h.pred == 6) && h.nc0 == 0 && h.nc1 == 0 && h.rb0 == 0 && h.rb1 == 0 && h.rows0 == 0 &&
    h.rows1 == 0 && (if h.pred = 6 then 1 ≤ h.cs && h.cs ≤ 32768 / czEsz h else h.cs == 0)
  else
    h.pred ≤ 4 && h.esz ≤ 1 && 1 ≤ h.nc0 && planeOk h h.rb0 h.nc0 &&
    (if h.nc1 = 0 then h.rb1 == 0 && h.rows1 == 0 else planeOk h h.rb1 h.nc1))

/-- The image size (R287). -/
def czImage (h : CzHdr) : Nat := h.rb0 * h.rows0 + h.rb1 * h.rows1

/-! ## Prediction (R290, R291, R295) -/

/-- The plane of a stream position: its start, its row bytes and its components. Bytes past the image go on with the last
plane. -/
def planeAt (h : CzHdr) (q : Nat) : Nat × Nat × Nat :=
  if h.nc1 ≠ 0 ∧ h.rb0 * h.rows0 ≤ q then (h.rb0 * h.rows0, h.rb1, h.nc1) else (0, h.rb0, h.nc0)

/-- The history span S at a stream position (R295). -/
def czSpan (h : CzHdr) (pos : Nat) : Nat :=
  if h.tensor then (if h.pred = 6 then h.cs * czEsz h else if h.pred = 5 then czEsz h else 0)
  else let p := planeAt h pos; p.2.1 + p.2.2 * czEsz h

/-- The prediction of the element at a stream position; `get` gives the original element at a position. -/
def czPred (h : CzHdr) (get : Nat → Nat) (q : Nat) : Nat :=
  let e := czEsz h
  if h.pred = 0 then 0
  else if h.tensor then
    let back := if h.pred = 5 then e else h.cs * e
    if back ≤ q then get (q - back) else 0
  else
    let (start, rb, nc) := planeAt h q
    let y := (q - start) / rb
    let x := (q - start) % rb
    let d := nc * e
    let (a, b, c) :=
      if y = 0 then (let a := if d ≤ x then get (q - d) else 0; (a, a, a))
      else if x < d then (let b := get (q - rb); (b, b, b))
      else (get (q - d), get (q - rb), get (q - rb - d))
    if h.pred = 1 then a else if h.pred = 2 then b else if h.pred = 3 then c
    else if max a b ≤ c then min a b
    else if c ≤ min a b then max a b
    else (a + b - c) % 2 ^ (8 * e)

/-- The element of a buffer at a stream position; bytes before the buffer read 0. -/
def czGet (buf : Array Byte) (base e q : Nat) : Nat :=
  if q < base then 0 else leNat ((List.range e).map (fun i => buf.getD (q - base + i) 0))

/-- The zigzag value of an element (R292 steps 1 and 2). -/
def czZig (w x pred : Nat) : Nat :=
  let r := (x + 2 ^ w - pred) % 2 ^ w
  if r < 2 ^ (w - 1) then 2 * r else 2 * (2 ^ w - r) - 1

/-- The element of a zigzag value. -/
def czZag (w z pred : Nat) : Nat :=
  if z % 2 = 0 then (pred + z / 2) % 2 ^ w else (pred + 2 ^ w - (z + 1) / 2) % 2 ^ w

/-- The class of a zigzag value (R292 step 3). -/
def czClass (z : Nat) : Nat := if z = 0 then 0 else Nat.log2 z + 1

/-! ## Code tables (R293) -/

/-- The static lengths (Table 11-3). -/
def czStatic : List Nat := [2, 2, 3, 3, 3, 5, 5, 5] ++ List.replicate 25 10

/-- The sum of 2^(15 − L) over the classes in use. -/
def kraft (lens : List Nat) : Nat := lens.foldl (fun n l => if l = 0 then n else n + 2 ^ (15 - l)) 0

/-- The classes in use in code order: by length, then by class. -/
def codeOrder (lens : List Nat) : List (Nat × Nat) :=
  ((List.range 15).map (fun l => (lens.zipIdx.filter (fun p => p.1 == l + 1)).map (fun p => (l + 1, p.2)))).flatten

/-- The canonical codes: length, class, code. -/
def czCodes (lens : List Nat) : List (Nat × Nat × Nat) :=
  ((codeOrder lens).foldl (fun (acc : List (Nat × Nat × Nat) × Nat × Nat) p =>
    let code := acc.2.1 * 2 ^ (p.1 - acc.2.2)
    ((p.1, p.2, code) :: acc.1, code + 1, p.1)) ([], 0, 1)).1.reverse

/-- A package of the length-limited optimum: its weight, and how often it holds each class. -/
abbrev Pkg := Nat × List Nat

/-- A package put into an ascending list. -/
def pkgInsert (p : Pkg) : List Pkg → List Pkg
  | [] => [p]
  | q :: t => if p.1 < q.1 then p :: q :: t else q :: pkgInsert p t

/-- Neighbours packaged in pairs. -/
def pkgPairs : List Pkg → List Pkg
  | a :: b :: t => (a.1 + b.1, List.zipWith (· + ·) a.2 b.2) :: pkgPairs t
  | _ => []

/-- A length-limited optimum for class counts, by packaging and merging. -/
def pkgMerge (counts : List Nat) : List Nat :=
  let unit := fun k => (List.range counts.length).map (fun i => if i = k then 1 else 0)
  let leaves : List Pkg := (counts.zipIdx.filter (fun p => p.1 != 0)).foldl (fun l p => pkgInsert (p.1, unit p.2) l) []
  if leaves.length ≤ 1 then counts.map (fun c => if c = 0 then 0 else 1)
  else
    let cur := (List.range 14).foldl (fun (cur : List Pkg) _ => (pkgPairs cur).foldl (fun l p => pkgInsert p l) leaves) leaves
    (cur.take (2 * leaves.length - 2)).foldl (fun acc p => List.zipWith (· + ·) acc p.2) (counts.map (fun _ => 0))

/-- Bits that a block's codes take with given lengths. -/
def codeCost (counts lens : List Nat) : Nat := (List.zipWith (· * ·) counts lens).foldl (· + ·) 0

/-- The dynamic lengths of a block: some length-limited optimum for its counts. Which of several optima the engine takes is
free. -/
def czDynamic (counts : List Nat) : List Nat :=
  let best := pkgMerge counts
  let l := Config.czLengths counts
  if l.length = counts.length ∧ (List.zipWith (fun c n => (c == 0) == (n == 0) && n ≤ 15) counts l).all (· == true) ∧
      kraft l ≤ 2 ^ 15 ∧ codeCost counts l = codeCost counts best ∧ l.any (1 < ·) = best.any (1 < ·) then l
  else best

/-- The 17 bytes of a dynamic table. -/
def czTableBytes (lens : List Nat) : List Byte :=
  (List.range 17).map (fun i => BitVec.ofNat 8 (nth 0 lens (2 * i) + 16 * nth 0 lens (2 * i + 1)))

/-- The lengths of a dynamic table, if it is valid for elements of `w` bits. -/
def czTableOf (bs : List Byte) (w : Nat) : Option (List Nat) :=
  let nib := (bs.map (fun b => [b.toNat % 16, b.toNat / 16])).flatten
  let lens := nib.take 33
  if bs.length < 17 ∨ nth 0 nib 33 ≠ 0 ∨ (lens.drop (w + 1)).any (· != 0) ∨ 2 ^ 15 < kraft lens ∨
      ((lens.filter (· != 0)).length = 1 ∧ !(lens.contains 1)) then none
  else some lens

/-! ## Bits -/

/-- `n` bits of a number, the most significant first. -/
def bitsMsb (v n : Nat) : List Bool := (List.range n).map (fun i => v / 2 ^ (n - 1 - i) % 2 == 1)

/-- `n` bits of a number, the least significant first. -/
def bitsLsb (v n : Nat) : List Bool := (List.range n).map (fun i => v / 2 ^ i % 2 == 1)

/-- Bits packed into bytes, bit 0 first, padded with 0. -/
def packBits : (fuel : Nat) → List Bool → List Byte
  | 0, _ => []
  | fuel + 1, l =>
    if l.isEmpty then []
    else BitVec.ofNat 8 ((l.take 8).zipIdx.foldl (fun n p => n + (if p.1 then 2 ^ p.2 else 0)) 0) :: packBits fuel (l.drop 8)

/-- The bits of a byte string. -/
def unpackBits (bs : List Byte) : List Bool := (bs.map (fun b => bitsLsb b.toNat 8)).flatten

/-! ## Encoding -/

/-- One element's bits. -/
def czElement (codes : List (Nat × Nat × Nat)) (z : Nat) : List Bool :=
  let k := czClass z
  match codes.find? (fun c => c.2.1 == k) with
  | some c => bitsMsb c.2.2 c.1 ++ (if 2 ≤ k then bitsLsb (z - 2 ^ (k - 1)) (k - 1) else [])
  | none => []

/-- The block header's 8 bytes (R288). -/
def czBlockHdr (typ : Nat) (last : Bool) (payload raw : Nat) : List Byte :=
  toLE 4 (typ + (if last then 4 else 0) + payload * 2 ^ 8) ++ toLE 4 raw

/-- A block of `n` elements at a stream position, coded: nothing where the coded form is larger than the block. -/
def czCode (h : CzHdr) (get : Nat → Nat) (q n : Nat) (dyn : Bool) : Option (List Byte) :=
  let e := czEsz h
  let zs := (List.range n).map (fun i => czZig (8 * e) (get (q + i * e)) (czPred h get (q + i * e)))
  let counts := (List.range 33).map (fun k => (zs.filter (fun z => czClass z == k)).length)
  let lens := if dyn then czDynamic counts else czStatic
  let codes := czCodes lens
  let bits := (zs.map (czElement codes)).flatten
  let body := (if dyn then czTableBytes lens else []) ++ packBits (bits.length / 8 + 1) bits
  if body.length ≤ n * e then some body else none

/-- The blocks of a job's input, with the output bytes of each and whether it is raw. -/
def czBlocks (h : CzHdr) (get : Nat → Nat) (data : List Byte) (pos : Nat) (dyn last : Bool) :
    (fuel : Nat) → (off : Nat) → List (Nat × Bool × List Byte)
  | 0, _ => []
  | fuel + 1, off =>
    let n := min czBlock (data.length - off)
    let lb := last && data.length ≤ off + czBlock
    let raw := (data.drop off).take n
    let blk :=
      match (if n = 0 then none else czCode h get (pos + off) (n / czEsz h) dyn) with
      | some body => (n, false, czBlockHdr (if dyn then 2 else 1) lb body.length n ++ body)
      | none => (n, true, czBlockHdr 0 lb n n ++ raw)
    if data.length ≤ off + czBlock then [blk] else blk :: czBlocks h get data pos dyn last fuel (off + czBlock)

/-- A CRC-32C register continued over bytes, without the final inversion. -/
def crcGo (c : Word) (bs : List Byte) : Word :=
  bs.foldl (fun c b => (List.range 8).foldl
    (fun (x : Word) _ => if x.getLsbD 0 then (x >>> 1) ^^^ 0x82F63B78#32 else x >>> 1) (c ^^^ b.zeroExtend 32)) c

/-- One job's share of a stream: the header with FIRST, the blocks, the trailer with LAST (R286, R289, R295). -/
def czCompress (h : CzHdr) (hist data : List Byte) (pos : Nat) (dyn first last : Bool) (crc : Word) :
    List Byte × List (Nat × Bool × List Byte) :=
  let buf := (hist ++ data).toArray
  let get := czGet buf (pos - hist.length) (czEsz h)
  let blocks := if data.isEmpty && !last then []
    else czBlocks h get data pos dyn last (data.length / czBlock + 1) 0
  ((if first then czHdrBytes h else []) ++ (blocks.map (·.2.2)).flatten ++
    (if last then toLE 8 (pos + data.length) ++ toLE 4 (~~~ (crcGo crc data)).toNat ++ toLE 4 0 else []), blocks)

/-! ## Decoding (R298) -/

/-- The class at the head of a bit string, and the rest. -/
def czSymbol (codes : List (Nat × Nat × Nat)) : (fuel : Nat) → (len code : Nat) → List Bool → Option (Nat × List Bool)
  | 0, _, _, _ => none
  | _ + 1, _, _, [] => none
  | fuel + 1, len, code, b :: t =>
    let code := 2 * code + (if b then 1 else 0)
    match codes.find? (fun c => c.1 == len + 1 && c.2.2 == code) with
    | some c => some (c.2.1, t)
    | none => czSymbol codes fuel (len + 1) code t

/-- `n` elements decoded onto the output so far; the bits left. -/
def czElements (h : CzHdr) (base : Nat) (codes : List (Nat × Nat × Nat)) :
    (n : Nat) → Array Byte → List Bool → Option (Array Byte × List Bool)
  | 0, out, bits => some (out, bits)
  | n + 1, out, bits =>
    let e := czEsz h
    let w := 8 * e
    match czSymbol codes 15 0 0 bits with
    | none => none
    | some (k, bits) =>
      if w < k ∨ bits.length < k - 1 then none
      else
        let x := (bits.take (k - 1)).zipIdx.foldl (fun n p => n + (if p.1 then 2 ^ p.2 else 0)) 0
        let z := if k = 0 then 0 else 2 ^ (k - 1) + x
        let v := czZag w z (czPred h (czGet out base e) (base + out.size))
        czElements h base codes n (out ++ (toLE e v).toArray) (bits.drop (k - 1))

/-- One block's payload decoded onto the output. -/
def czPayload (h : CzHdr) (base typ raw : Nat) (body : List Byte) (out : Array Byte) : Option (Array Byte) :=
  let w := 8 * czEsz h
  if typ = 0 then (if body.length = raw then some (out ++ body.toArray) else none)
  else
    match (if typ = 1 then some (czStatic, body) else (czTableOf (body.take 17) w).map (fun l => (l, body.drop 17))) with
    | none => none
    | some (lens, body) =>
      match czElements h base (czCodes lens) (raw / czEsz h) out (unpackBits body) with
      | some (out, bits) => if bits.length < 8 ∧ bits.all (· == false) then some out else none
      | none => none

/-- Why decoding fails: corrupt at an input offset, out of space, or a CRC that differs. -/
inductive CzFail where
  | corrupt (off : Nat)
  | space
  | check (crc : Word)
deriving DecidableEq, Repr

/-- The blocks of a job's input from `off`: the output, the offset behind the last block, and that block's own offset. -/
def czUnblocks (h : CzHdr) (base hist cap : Nat) (last : Bool) :
    (fuel : Nat) → (off prev : Nat) → List Byte → Array Byte → Except CzFail (Array Byte × Nat)
  | 0, _, prev, _, _ => .error (.corrupt prev)
  | fuel + 1, off, prev, bs, out =>
    if bs.isEmpty then (if last then .error (.corrupt prev) else .ok (out, off))
    else if bs.length < 8 then .error (.corrupt off)
    else
      let w0 := leNat (bs.take 4)
      let w1 := leNat ((bs.drop 4).take 4)
      let typ := w0 % 4
      let lb := w0 / 4 % 2 = 1
      let pay := w0 / 2 ^ 8
      let raw := w1 % 2 ^ 17
      let body := (bs.drop 8).take pay
      if typ = 3 ∨ w0 / 8 % 32 ≠ 0 ∨ w1 / 2 ^ 17 ≠ 0 ∨ body.length ≠ pay ∨ (lb ∧ last = false) ∨
          (if lb then raw % czEsz h ≠ 0 ∨ czBlock < raw else raw ≠ czBlock) then .error (.corrupt off)
      else
        match czPayload h base typ raw body out with
        | none => .error (.corrupt off)
        | some out =>
          if cap < out.size - hist then .error .space
          else if lb then .ok (out, off + 8 + pay)
          else czUnblocks h base hist cap last fuel (off + 8 + pay) off (bs.drop (8 + pay)) out

/-- One job's input decoded: the output and the stream's header. -/
def czDecompress (h0 : Option CzHdr) (hist buf : List Byte) (pos cap : Nat) (first last : Bool) (crc : Word) :
    Except CzFail (List Byte × CzHdr) :=
  let hd := buf.take 32
  if first ∧ (buf.length < 32 ∨ czHdrOk hd = false) then .error (.corrupt 0)
  else
    let h := if first then czHdrOf hd else h0.getD (czHdrOf [])
    let off := if first then 32 else 0
    match czUnblocks h (pos - hist.length) hist.length cap last (buf.length / 8 + 2) off off (buf.drop off) hist.toArray with
    | .error e => .error e
    | .ok (out, endOff) =>
      let out := out.toList.drop hist.length
      if !last then .ok (out, h)
      else
        let t := buf.drop endOff
        let sum := ~~~ (crcGo crc out)
        if t.length < 16 ∨ leNat (t.take 8) ≠ pos + out.length then .error (.corrupt endOff)
        else if leNat ((t.drop 8).take 4) ≠ sum.toNat then .error (.check sum)
        else .ok (out, h)

end Sys2Proof.Machine
end

