-- ==== Sys2Proof/Machine/Rt.lean ====
section
/-!
DEFINITION. Ray traversal (R109 to R113): a deterministic walk of a bounding hierarchy with exact arithmetic, and the
instructions that start, resume and end it.
-/
namespace Sys2Proof.Machine

/-! ## Exact values -/

/-- A finite value as a rational number. -/
def fvRat (neg : Bool) (m : Nat) (e : Int) : Rat :=
  let v : Rat := if 0 ≤ e then ((m * 2 ^ e.toNat : Nat) : Rat) else mkRat m (2 ^ (-e).toNat)
  if neg then -v else v

/-- A binary32 word as a number: an infinity stands beyond every distance that finite operands give, a NaN is none. -/
def ratOf (w : Word) : Option Rat :=
  match f32 w with
  | .nan => none
  | .inf n => some (if n then -(2 ^ 4096 : Nat) else (2 ^ 4096 : Nat))
  | .zero _ => some 0
  | .fin n m e => some (fvRat n m e)

/-- Three words as a point. -/
def v3Of (a b c : Word) : Option V3 :=
  match ratOf a, ratOf b, ratOf c with
  | some x, some y, some z => some ⟨x, y, z⟩
  | _, _, _ => none

def v3Sub (a b : V3) : V3 := ⟨a.x - b.x, a.y - b.y, a.z - b.z⟩
def v3Dot (a b : V3) : Rat := a.x * b.x + a.y * b.y + a.z * b.z
def v3Cross (a b : V3) : V3 := ⟨a.y * b.z - a.z * b.y, a.z * b.x - a.x * b.z, a.x * b.y - a.y * b.x⟩

/-- The exponent of a positive number: `2^l ≤ r < 2^(l+1)`. -/
def ratLog (r : Rat) : Int :=
  let n := r.num.natAbs
  let l : Int := (Nat.log2 n : Int) - (Nat.log2 r.den : Int)
  if (if 0 ≤ l then r.den * 2 ^ l.toNat ≤ n else r.den ≤ n * 2 ^ (-l).toNat) then l else l - 1

/-- A number rounded to binary32 towards +∞ or −∞ (R111). -/
def ratRound (up : Bool) (r : Rat) : Rat :=
  if r = 0 then 0
  else
    let qe := max (ratLog (if r < 0 then -r else r) - 23) (-149)
    let unit : Rat := if 0 ≤ qe then ((2 ^ qe.toNat : Nat) : Rat) else mkRat 1 (2 ^ (-qe).toNat)
    let q := r / unit
    ((if up then q.ceil else q.floor) : Rat) * unit

/-- A number as a binary32 word, rounded towards +∞ or −∞. -/
def ratWord (up : Bool) (r : Rat) : Word :=
  if r = 0 then 0
  else
    let qe := max (ratLog (if r < 0 then -r else r) - 23) (-149)
    let unit : Rat := if 0 ≤ qe then ((2 ^ qe.toNat : Nat) : Rat) else mkRat 1 (2 ^ (-qe).toNat)
    toF32 (fvOf (if up then (r / unit).ceil else (r / unit).floor) qe)

/-- The ray of a tuple, unless a component is a NaN. -/
def rtRay (w : List Word) : Option RtRay :=
  match v3Of (nth 0 w 0) (nth 0 w 1) (nth 0 w 2), v3Of (nth 0 w 4) (nth 0 w 5) (nth 0 w 6), ratOf (nth 0 w 3),
    ratOf (nth 0 w 7) with
  | some o, some d, some lo, some hi => some ⟨o, d, lo, hi⟩
  | _, _, _, _ => none

/-! ## Box and triangle tests (R111) -/

/-- One axis of a box: the interval narrowed, or a miss. -/
def slab (o d lo hi : Rat) (i : Option (Rat × Rat)) : Option (Rat × Rat) :=
  match i with
  | none => none
  | some (a, b) =>
    if d = 0 then (if lo ≤ o ∧ o ≤ hi then some (a, b) else none)
    else
      let near := if 0 < d then (lo - o) / d else (hi - o) / d
      let far := if 0 < d then (hi - o) / d else (lo - o) / d
      let a := max a (ratRound false near)
      let b := min b (ratRound true far)
      if a ≤ b then some (a, b) else none

/-- The entry distance of a box that the ray meets in its interval. -/
def boxEntry (r : RtRay) (lo hi : V3) : Option Rat :=
  (slab r.o.z r.d.z lo.z hi.z (slab r.o.y r.d.y lo.y hi.y (slab r.o.x r.d.x lo.x hi.x
    (if r.lo ≤ r.hi then some (r.lo, r.hi) else none)))).map (·.1)

/-- The sign of a number, and of the first component of a point that is not 0. -/
def ratSign (v : Rat) : Int := if 0 < v then 1 else if v < 0 then -1 else 0
def v3Sign (n : V3) : Int := if n.x ≠ 0 then ratSign n.x else if n.y ≠ 0 then ratSign n.y else ratSign n.z

/-- The side of the edge from `b` to `c`, seen from the ray's origin, on which a ray of direction `d` passes: by its edge function,
and where that is 0 as though the direction were displaced by (ε, ε², ε³) and the origin by a (δ, δ², δ³) that is smaller by far, so
that triangles of one winding that share an edge or vertex share no ray, and a ray that crosses it, or starts on it, meets one of
them (R111). -/
def edgeSide (d b c : V3) : Int :=
  let n := v3Cross b c
  let a := ratSign (v3Dot d n)
  if a ≠ 0 then a else if v3Sign n ≠ 0 then v3Sign n else v3Sign (v3Cross d (v3Sub c b))

/-- A triangle's intersection: the distance, the barycentric weights, and whether the triangle is front-facing. -/
def triHit (r : RtRay) (v0 v1 v2 : V3) : Option (Rat × V3 × Bool) :=
  let a := v3Sub v0 r.o
  let b := v3Sub v1 r.o
  let c := v3Sub v2 r.o
  let s0 := edgeSide r.d b c
  let s1 := edgeSide r.d c a
  let s2 := edgeSide r.d a b
  let n := v3Cross (v3Sub v1 v0) (v3Sub v2 v0)
  let det := v3Dot r.d n
  if s0 = 0 ∨ s0 ≠ s1 ∨ s1 ≠ s2 ∨ det = 0 then none
  else
    let t := v3Dot a n / det
    if r.lo ≤ t ∧ t ≤ r.hi then
      some (t, ⟨v3Dot r.d (v3Cross b c) / det, v3Dot r.d (v3Cross c a) / det, v3Dot r.d (v3Cross a b) / det⟩, decide (det < 0))
    else none

/-! ## Traversal -/

/-- How a walk ends. -/
inductive RtEnd where
  | miss
  | hit (h : RtHit)
  | candidate (h : RtHit)
  | overflow
  | bad
  | range
  | access (e : AccErr) (va : Nat)
  | sram (off : Nat)
deriving DecidableEq, Repr

/-- What a walk is made for: the core, its block and slot, and the flags of its ray. -/
structure RtCtx where
  p : Nat
  block : Nat
  slot : Nat
  flags : Nat

/-- A node's bytes: from the block's local memory, or from global space (R109, R112). -/
def rtRead (c : RtCtx) (addr n : Nat) (s : State) : Except RtEnd (List Byte) × State :=
  if addr / 2 ^ 47 % 2 = 1 ∧ addr / 2 ^ 19 % 2 ^ 28 = 0 then
    let off := addr % 2 ^ 19
    match blockOf c.block s with
    | none => (.error .range, s)
    | some b =>
      if b.size < off + n then (.error .range, s)
      else
        match lmRead c.p c.block off n s with
        | (none, s) => (.error (.sram off), s)
        | (some bs, s) => (.ok bs, s)
  else
    match vaReadAll c.p c.slot addr n .rd s with
    | (.error (e, va), s) => (.error (.access e va), s)
    | (.ok bs, s) => (.ok (wbOverlay c.p c.slot addr bs s), s)

/-- The address of a reference. -/
def refAddr (r : Nat) : Nat := r / 64 % 2 ^ 42 * 64

/-- The children of a box node that the ray meets, nearest first (R111). -/
def boxKids (ray : RtRay) (w : List Word) : List Nat :=
  let kids := (List.range 4).filterMap (fun c =>
    let ref := (nth 0 w (24 + 2 * c)).toNat + (nth 0 w (25 + 2 * c)).toNat * 2 ^ 32
    if ref % 4 = 0 ∧ ref / 2 ^ 48 = 0 then none
    else if ref / 2 ^ 48 ≠ 0 then some (ray.lo, ref)
    else
      match v3Of (nth 0 w (6 * c)) (nth 0 w (6 * c + 1)) (nth 0 w (6 * c + 2)),
        v3Of (nth 0 w (6 * c + 3)) (nth 0 w (6 * c + 4)) (nth 0 w (6 * c + 5)) with
      | some lo, some hi => (boxEntry ray lo hi).map (fun t => (t, ref))
      | _, _ => none)
  let ins := fun (e : Rat × Nat) (l : List (Rat × Nat)) =>
    l.takeWhile (fun x => decide (x.1 < e.1)) ++ e :: l.dropWhile (fun x => decide (x.1 < e.1))
  (kids.foldr ins []).map (·.2)

/-- A walk's progress: its stack, the closest hit so far, and its end. -/
structure RtRun where
  stack : List RtFrame
  best : Option RtHit := none
  fin : Option RtEnd := none
deriving DecidableEq, Repr

/-- A hit taken as the closest (R110: flag 0 ends the walk). -/
def rtTake (flags : Nat) (h : RtHit) (r : RtRun) : RtRun :=
  if flags % 2 = 1 then { r with best := some h, fin := some (.hit h) } else { r with best := some h }

/-- A triangle is opaque: by its record or its instance, unless the ray's flags force the one or the other. DESIGN CHOICE (log 89):
flag 3 wins where flags 3 and 4 are both set, and flag 4 wins over FORCE_OPAQUE of the instance. -/
def rtOpaque (flags : Nat) (inst : Option RtInst) (w : Word) : Bool :=
  if flags.testBit 3 then true
  else if flags.testBit 4 then false
  else w.getLsbD 0 || (match inst with | some i => i.opaque' | none => false)

/-- One triangle record: a hit nearer than the closest so far is taken, or, where it is not opaque, becomes a candidate. -/
def rtTri (flags : Nat) (f : RtFrame) (w : List Word) (r : RtRun) : RtRun :=
  if (nth 0 w 11).toNat / 2 ≠ 0 then { r with fin := some .bad }
  else
    match v3Of (nth 0 w 0) (nth 0 w 1) (nth 0 w 2), v3Of (nth 0 w 3) (nth 0 w 4) (nth 0 w 5),
      v3Of (nth 0 w 6) (nth 0 w 7) (nth 0 w 8) with
    | some v0, some v1, some v2 =>
      match triHit f.ray v0 v1 v2 with
      | none => r
      | some (t, bary, front) =>
        let culled := (flags.testBit 1 && !front) || (flags.testBit 2 && front)
        let closer := match r.best with | some b => decide (t < b.t) | none => true
        let h : RtHit := ⟨t, bary, nth 0 w 9, nth 0 w 10, f.inst⟩
        if culled || !closer then r
        else if rtOpaque flags f.inst (nth 0 w 11) then rtTake flags h r
        else { r with fin := some (.candidate h) }
    | _, _, _ => r

/-- The ray in an instance's space: the matrix applied exactly. -/
def rtInto (w : List Word) (r : RtRay) : Option RtRay :=
  let row := fun (i : Nat) => v3Of (nth 0 w (4 * i)) (nth 0 w (4 * i + 1)) (nth 0 w (4 * i + 2))
  match row 0, row 1, row 2, v3Of (nth 0 w 3) (nth 0 w 7) (nth 0 w 11) with
  | some a, some b, some c, some t =>
    some { r with
      o := ⟨v3Dot a r.o + t.x, v3Dot b r.o + t.y, v3Dot c r.o + t.z⟩,
      d := ⟨v3Dot a r.d, v3Dot b r.d, v3Dot c r.d⟩ }
  | _, _, _, _ => none

/-- One reference visited: what it adds to the stack above the level that named it, or an end. -/
def rtVisit (c : RtCtx) (f : RtFrame) (ref : Nat) (s : State) : Except RtEnd (List RtFrame) × State :=
  if ref / 2 ^ 48 ≠ 0 then (.error .bad, s)
  else if ref % 4 = 0 then (.ok [], s)
  else if ref % 4 = 1 then
    match rtRead c (refAddr ref) 128 s with
    | (.error e, s) => (.error e, s)
    | (.ok bs, s) => (.ok [{ f with refs := boxKids f.ray (rowWords 4 32 bs), tris := [] }], s)
  else if ref % 4 = 2 then
    let n := ref / 4 % 16 + 1
    match rtRead c (refAddr ref) (48 * n) s with
    | (.error e, s) => (.error e, s)
    | (.ok bs, s) =>
      (.ok [{ f with refs := [], tris := (List.range n).map (fun i => rowWords 4 12 (bs.drop (48 * i))) }], s)
  else if f.inst.isSome then (.error .bad, s)
  else
    match rtRead c (refAddr ref) 128 s with
    | (.error e, s) => (.error e, s)
    | (.ok bs, s) =>
      let w := rowWords 4 32 bs
      let root := (nth 0 w 12).toNat + (nth 0 w 13).toNat * 2 ^ 32
      let m := (nth 0 w 15).toNat
      if 512 ≤ m ∨ (w.drop 16).any (· != 0) ∨ root % 4 = 0 ∨ root / 2 ^ 48 ≠ 0 then (.error .bad, s)
      else if m % 256 &&& (c.flags / 256 % 256) = 0 then (.ok [], s)
      else
        match rtInto w f.ray with
        | some ray => (.ok [{ refs := [root], ray := ray, inst := some ⟨nth 0 w 14, m.testBit 8⟩ }], s)
        | none => (.ok [], s)

/-- The walk, from wherever its stack stands: one entry of the 64-entry stack a level (R112). -/
def rtWalk (c : RtCtx) : (fuel : Nat) → RtRun → State → RtRun × State
  | 0, r, s => ({ r with fin := some .overflow }, s)
  | fuel + 1, r, s =>
    if r.fin.isSome then (r, s)
    else
      match r.stack with
      | [] => ({ r with fin := some (match r.best with | some h => .hit h | none => .miss) }, s)
      | f :: rest =>
        match f.tris, f.refs with
        | w :: ws, _ => rtWalk c fuel (rtTri c.flags f w { r with stack := { f with tris := ws } :: rest }) s
        | [], [] => rtWalk c fuel { r with stack := rest } s
        | [], ref :: refs =>
          match rtVisit c f ref s with
          | (.error e, s) => ({ r with fin := some e }, s)
          | (.ok up, s) =>
            let stack := up ++ { f with refs := refs } :: rest
            if 64 < stack.length then ({ r with fin := some .overflow }, s) else rtWalk c fuel { r with stack := stack } s

/-- A ray's traversal, from its beginning or from where it paused (R113). DESIGN CHOICE (log 89): a ray with a NaN component meets
nothing, and a node whose box, triangle or matrix holds a NaN is not met. -/
def rtTraverse (c : RtCtx) (y : Ray) (s : State) : RtRun × State :=
  match y.stack with
  | some fs => rtWalk c (2 ^ 40) { stack := fs, best := y.best } s
  | none =>
    if y.root % 4 = 0 ∨ y.root / 2 ^ 48 ≠ 0 then ({ stack := [], fin := some .bad }, s)
    else
      match rtRay y.ray with
      | none => ({ stack := [], fin := some .miss }, s)
      | some r => rtWalk c (2 ^ 40) { stack := [{ refs := [y.root], ray := r, inst := none }] } s

/-! ## Results (R110, R113) -/

/-- Free words for the result registers that the manual leaves open. -/
def freeWords (n : Nat) (s : State) : List Word × State :=
  ((List.range n).map (fun i => Config.freeWord (s.free + i)), { s with free := s.free + n })

/-- t, u and v of a hit: its distance and two of its barycentric weights. The manual states neither a rounding nor which weights these
are: each is free among the possible ones (log 27). -/
def rtTuv (h : RtHit) (s : State) : List Word × State :=
  let (f, s) := takeFree s
  let w := [h.bary.x, h.bary.y, h.bary.z]
  let u := f / 8 % 3
  let v := (u + 1 + f / 24 % 2) % 3
  ([ratWord (f % 2 == 1) h.t, ratWord (f / 2 % 2 == 1) (nth 0 w u), ratWord (f / 4 % 2 == 1) (nth 0 w v)], s)

/-- The seven result words. The registers that a status leaves without meaning are free. -/
def rtWords (status : Nat) (h : Option RtHit) (s : State) : List Word × State :=
  let (fw, s) := freeWords 6 s
  match h with
  | some h =>
    let (tuv, s) := rtTuv h s
    ([w32 status] ++ tuv ++ [h.prim, h.geom, match h.inst with | some i => i.id | none => nth 0 fw 5], s)
  | none => (w32 status :: fw, s)

/-- Rays in flight in a core (RT_STS). -/
def raysInFlight (p : Nat) (s : State) : Nat :=
  (coreOf p s).groups.foldl (fun n g => n + (g.2.rays.filter (fun r => !r.2.paused)).length) 0

/-- A group's host reads. -/
def groupReads (p g : Nat) (s : State) : Bool :=
  s.pci.reads.any (fun e => match e.2.waiter with | .thread p' g' _ _ _ _ => p' == p && g' == g | _ => false)

/-- A group whose data has come goes on. -/
def dataCheck (p g : Nat) (s : State) : State :=
  match groupOf p g s with
  | none => s
  | some x =>
    if groupReads p g s || x.rays.any (fun r => !r.2.paused) then s
    else setGroup p g
      { x with paths := x.paths.map (fun y => if y.wait = some .data then { y with wait := none } else y) } s

/-- A ray's result written to its thread's registers; a candidate leaves the ray paused, with its traversal as it stands. -/
def rtDeliver (p g t status : Nat) (h : Option RtHit) (pause : Option RtRun) (s : State) : State :=
  let (ws, s) := rtWords status h s
  match groupOf p g s with
  | none => s
  | some x =>
    match tabFind t x.rays with
    | none => s
    | some y =>
      let x := if y.dst = 255 then x
        else (ws.zipIdx).foldl (fun x w => regPut t (y.dst + w.2) w.1 x) x
      let rays := match pause with
        | some r => tabSet t { y with stack := some r.stack, best := r.best, cand := h, paused := true } x.rays
        | none => tabDel t x.rays
      dataCheck p g (setGroup p g { x with rays := rays } s)

/-- RT_TRACE_RESULT: the traversal of a thread's ray ends (R111 to R113). -/
def rtResult (p g t : Nat) (s : State) : State :=
  match groupOf p g s with
  | none => s
  | some x =>
    match tabFind t x.rays with
    | none => s
    | some y =>
      if y.paused || jobEnded x.job s || !(coreUp p s) || blockStopping x.block s then s
      else
        let pc := ((x.paths.headD { mask := 0, pc := 8 }).pc) - 8
        let (r, s) := rtTraverse ⟨p, x.block, groupSlot x s, y.flags⟩ y s
        match r.fin.getD .overflow with
        | .miss => rtDeliver p g t 0 none none s
        | .hit h => rtDeliver p g t 1 (some h) none s
        | .candidate h => rtDeliver p g t 2 (some h) (some r) s
        | .overflow => rtDeliver p g t 3 none none s
        | .bad => faultInsn p x.job 0x10 pc s
        | .range => faultInsn p x.job 0x0E pc s
        | .access err va => faultAccess p x.job va .rd err s
        | .sram off => faultDevice x.job 0x0015 off s

/-! ## Instructions -/

/-- The rays of the executing threads set going; the path waits for their results. -/
def rtStart (a : Iss) (rays : Tab Ray) (s : State) : State :=
  setGroup a.p a.g { a.x with rays := rays, paths := { nextPath a with wait := some .data } :: a.rest } s

/-- rt.trace: a core holds 128 rays in flight. DESIGN CHOICE (log 89): a paused traversal of the thread is dropped. -/
def rtTraceStep (i : Insn) (a : Iss) (s : State) : Option State :=
  if a.ex = 0 then some (advance a a.x s)
  else if 128 < raysInFlight a.p s + popcount a.ex then none
  else
    some (rtStart a ((threadsOf a.ex).foldl (fun l t =>
      tabSet t
        { dst := i.dst.toNat,
          ray := (List.range 8).map (fun k => if i.src0 = 255 then 0 else regOf a.x t (i.src0.toNat + k)),
          root := regVal a.x t i.src1 2,
          flags := (regOf a.x t i.src2.toNat).toNat } l) a.x.rays) s)

/-- A candidate answered: taken as the closest hit, which ends the walk under flag 0, or discarded (R110, R113). -/
def rtAnswer (accept : Bool) (y : Ray) : Ray :=
  let z := { y with cand := none, paused := false }
  if accept then { z with best := y.cand, stack := if y.flags % 2 = 1 then some [] else y.stack } else z

/-- rt.cont: each executing thread has a paused traversal (R113). -/
def rtContStep (i : Insn) (a : Iss) (s : State) : Option State :=
  if a.ex = 0 then some (advance a a.x s)
  else if (threadsOf a.ex).any (fun t => match tabFind t a.x.rays with | some y => !y.paused | none => true) then
    some (insnFault a 0x09 s)
  else if 128 < raysInFlight a.p s + popcount a.ex then none
  else
    some (rtStart a ((threadsOf a.ex).foldl (fun l t =>
      match tabFind t l with
      | some y => tabSet t { rtAnswer (i.imm.getLsbD 0) y with dst := i.dst.toNat } l
      | none => l) a.x.rays) s)

/-! ## Meanings -/

/-- RT_TRACE (R110). -/
def execRtTrace (p : Fin 80) (g : Fin 64) (i : Insn) (s : State) : Out :=
  toNext (issue p.val g.val i { op := some 0xD0, dst := 7, src0 := 8, src1 := 2, src2 := 1 } (rtTraceStep i) s)

/-- RT_CONT (R113). -/
def execRtCont (p : Fin 80) (g : Fin 64) (i : Insn) (s : State) : Out :=
  toNext (issue p.val g.val i { op := some 0xD1, dst := 7, imm := 1 } (rtContStep i) s)

/-- RT_TRACE_RESULT (R111). -/
def execRtTraceResult (p : Fin 80) (g : Fin 64) (t : Fin 32) (s : State) : Out := toNext (rtResult p.val g.val t.val s)

end Sys2Proof.Machine
end

