-- ==== Sys2Proof/Machine/Place.lean ====
section
/-!
DEFINITION. Placement, preemption and restoring of blocks (R92 to R95, R105, R108, R114, R120, R257, R304, R323, R333).
-/
namespace Sys2Proof.Machine

/-! ## Room on a core (R92, R94) -/

/-- A thread's register allocation (R93). -/
def regAlloc (regs : Nat) : Nat := (regs + 7) / 8 * 8

/-- The blocks on a core. -/
def coreBlocks (p : Nat) (s : State) : List (Nat × Block) := s.cpt.blocks.filter (fun e => e.2.core == p && !e.2.pix)

/-- Registers that the resident blocks of a core hold, exited groups included (R94). -/
def coreRegs (p : Nat) (s : State) : Nat :=
  (coreBlocks p s).foldl (fun n b => n + 32 * regAlloc b.2.nregs * b.2.groups) 0

/-- Register-file entries allocated on a core: those of its blocks and of its pixel groups (Table 4-10, R250). -/
def regsUsed (p : Nat) (s : State) : Nat :=
  (coreOf p s).groups.foldl (fun n g => if g.2.pix.isSome then n + 32 * regAlloc g.2.nregs else n) (coreRegs p s)

/-- Local memory that the blocks of a core hold. -/
def coreLocal (p : Nat) (s : State) : Nat := (coreBlocks p s).foldl (fun n b => n + b.2.size) 0

/-- The instruction store holds an image already, or has room for it beside the images of live jobs (R92). -/
def imageFits (p j va bytes : Nat) (s : State) : Bool :=
  (coreOf p s).images.any (fun m => m.job == j && m.va == va) ||
  (coreOf p s).images.foldl (fun n m => if jobEnded m.job s then n else n + m.bytes.length) bytes
    ≤ getFld pgCap 0 0x108 8 8 s * 1024

/-- A core has room for one block more: the limits of R94 beside the reservation of R257. -/
def coreRoom (p j groups regs size va bytes : Nat) (s : State) : Bool :=
  let c := coreOf p s
  c.groups.length + groups ≤ 64 && (coreBlocks p s).length + 1 ≤ 32 &&
  coreRegs p s + 32 * regAlloc regs * groups ≤ 65536 - c.psRes && coreLocal p s + size ≤ 2 ^ 19 - c.carve &&
  imageFits p j va bytes s

/-- An enabled core: it has a logical index and is not fenced. -/
def coreEnabled (p : Nat) (s : State) : Bool := (logicalOf p s).isSome && !(fenced (pgSc p) s) && !(inReset (pgSc p) s)

/-- The cores of a block cluster: distinct, enabled, in one cluster of the mask, in ascending logical order (R107,
R108). -/
def coresOk (mask : Nat) (ps : List Nat) (s : State) : Bool :=
  match ps with
  | [] => false
  | p :: _ =>
    let c := p / 5
    nbits mask c 1 == 1 && ps.all (fun q => q / 5 == c && coreEnabled q s) &&
    (ps.zip (ps.drop 1)).all (fun e => (logicalOf e.1 s).getD 0 < (logicalOf e.2 s).getD 0) &&
    !(fenced (pgCl c) s) && !(inReset (pgCl c) s)

/-- A cluster fetcher admits the block: no other job's work is resident in the cluster, or there is headroom in the budget
and in temperature (R323). -/
def admitted (j c : Nat) (s : State) : Bool :=
  let pct := getFld pgPwr 0 0x120 0 8 s
  (clusterJobs c s).all (· == j) ||
    (tabGet 0 c s.pwr.prevCl * 100 ≤ clAllow c s * (100 - pct) * (10 ^ 9 * (Config.vRefMv ^ 2 * 1024)) &&
      tabGet 0 c s.pwr.prevCl < clAllow c s * (10 ^ 9 * (Config.vRefMv ^ 2 * 1024)) &&
      0 < getFld pgPwr 0 (0x1B0 + 4 * c) 24 8 s)

/-- A gated core, and its cluster's domain, powered for its first placement (R304). -/
def wakeCore (p : Nat) (s : State) : State :=
  let s := if powered (pgCl (p / 5)) s then s else restoreDomain (80 + p / 5) s
  if powered (pgSc p) s then s else restoreDomain p s

/-- The lowest free group slot of a core. -/
def freeGroupSlot (p : Nat) (s : State) : Nat :=
  ((List.range 64).find? (fun g => (groupOf p g s).isNone)).getD 0

/-- A group put into the lowest free slot of a core. -/
def putGroup (p : Nat) (x : Group) (s : State) : State := setGroup p (freeGroupSlot p s) x s

/-! ## Placement -/

/-- The initial registers of a group's threads (R191). -/
def startRegs (k : Kernel) (index rank idx : Nat) : Tab Word :=
  ((List.range 32).map (fun t =>
    ([w32 (idx * 32 + t), w32 (index % k.gx), w32 (index / k.gx % k.gy), w32 (index / (k.gx * k.gy)), w32 rank,
      w32 k.param, w32 (k.param / 2 ^ 32)].zipIdx).map (fun e => (t * 512 + e.2, e.1)))).flatten

/-- A code image of a job staged into a core's instruction store, as the core's instruction fetch (R24, R92, Table 5-4); an armed
injection of the core's page spoils its first word (R369). -/
def stageText (p j slot va n : Nat) (s : State) : State :=
  if (coreOf p s).images.any (fun m => m.job == j && m.va == va) then s
  else
    match vaReadAll p slot va n .ex s with
    | (.error (e, va), s) => faultAccess p j va .ex e s
    | (.ok bs, s) =>
      let put := fun (err : Tab Bool) (s : State) =>
        let c := coreOf p s
        setCore p { c with
          images := c.images.filter (fun m => !(jobEnded m.job s)) ++ [{ job := j, va := va, bytes := bs, err := err }] } s
      match takeInjection (pgSc p) s with
      | (some ue, s) => put [(0, ue)] s
      | (none, s) => put [] s

/-- A kernel's code image staged into a core. -/
def stageImage (p j : Nat) (k : Kernel) (s : State) : State := stageText p j k.slot k.code k.codeBytes s

/-- The cores that can take part in a kernel as things stand: enabled, powered, in a cluster of its mask, with room for its
image. -/
def partCores (j : Nat) (k : Kernel) (s : State) : List Nat :=
  (List.range 80).filter (fun p => nbits k.mask (p / 5) 1 == 1 && coreEnabled p s && powered (pgSc p) s && !(fenced (pgCl (p / 5)) s) &&
    !(inReset (pgCl (p / 5)) s) && imageFits p j k.code k.codeBytes s)

/-- Before a kernel's first group issues its image is staged into every core that can take part (R24); a core that joins later stages
it as its first block is placed (R92). -/
def stageFirst (j : Nat) (s : State) : State :=
  match kernelOf j s with
  | none => s
  | some k =>
    if k.next ≠ 0 then s
    else (partCores j k s).foldl (fun s p => if jobEnded j s then s else stageImage p j k s) s

/-- One block of a kernel put on a core with its groups (R94, R95, R102). -/
def putBlock (j : Nat) (k : Kernel) (index rank p : Nat) (s : State) : State :=
  let b := s.cpt.nextBlock
  let s := { s with cpt := { s.cpt with nextBlock := b + 1 } }
  let s := setBlock b
    { job := j, core := p, index := index, bcl := index / k.bclSize, rank := rank, size := k.localBytes, groups := k.groups,
      nregs := k.regs }
    (lmClear b (coreBegin p j s))
  (List.range k.groups).foldl (fun s idx =>
    let seed := s.free
    putGroup p
      { job := j, block := b, idx := idx, live := BitVec.allOnes 32, regs := startRegs k index rank idx, seed := seed,
        paths := [{ mask := BitVec.allOnes 32, pc := 0 }], nregs := k.regs } { s with free := seed + 1 }) s

/-- A block cluster may go to its cores now. -/
def clusterRoom (j : Nat) (k : Kernel) (ps : List Nat) (s : State) : Bool :=
  coresOk k.mask ps s && ps.all (fun p => coreRoom p j k.groups k.regs k.localBytes k.code k.codeBytes s) &&
  admitted j (ps.headD 0 / 5) s

/-- One block cluster placed: cores powered, images staged, blocks put by rank. -/
def placeCluster (j : Nat) (ps : List Nat) (s : State) : State :=
  let s := stageFirst j s
  let s := ps.foldl (fun s p =>
    match kernelOf j s with
    | some k => if jobEnded j s then s else stageImage p j k (wakeCore p s)
    | none => s) s
  if jobEnded j s then s
  else
    (ps.zipIdx).foldl (fun s e =>
      match kernelOf j s with
      | none => s
      | some k =>
        let s := putBlock j k k.next e.2 e.1 s
        setKernel j { k with
          next := k.next + 1, cores := if k.cores.contains e.1 then k.cores else k.cores ++ [e.1] } s) s

/-- A list cut into runs of `n`. -/
def runsOf (n : Nat) (l : List Nat) : List (List Nat) :=
  if n = 0 then [] else (List.range ((l.length + n - 1) / n)).map (fun i => (l.drop (i * n)).take n)

/-- Block clusters placed one after the other; nothing where one finds no room. -/
def placeAll (j : Nat) : List (List Nat) → State → Option State
  | [], s => some s
  | ps :: rest, s =>
    match kernelOf j s with
    | none => none
    | some k =>
      if jobEnded j s then some s
      else if clusterRoom j k ps s then placeAll j rest (placeCluster j ps s)
      else none

/-- The cores of a placement are usable in this device state; a gated cluster ends DOZE first, and the work is held
(R333). -/
def dozeHold (ps : List Nat) (s : State) : Bool := devState s == 1 && ps.any (fun p => !(powered (pgCl (p / 5)) s))

/-- The first block of a compositor-priority queue that has preempted: the latency since its doorbell (R259). -/
def cpriPlaced (slot : Nat) (s : State) : State :=
  match s.tlr.cpri with
  | some (k, t) =>
    if k = slot then setFld pgTlr 0 0x11C 0 16 (min (s.fe.us - t) 0xFFFF) { s with tlr := { s.tlr with cpri := none } } else s
  | none => s

/-- BLOCK_PLACE: the next block cluster of a kernel, or every block of a cooperative one (R94, R105, R108). -/
def blockPlace (j : Nat) (ps : List Nat) (s : State) : State :=
  match kernelOf j s with
  | none => s
  | some k =>
    let left := kernelBlocks k - k.next
    let need := if k.coop then left else min left k.bclSize
    if jobEnded j s || k.paused || need = 0 || ps.length != need || 2 ≤ devState s || ps.any (fun p => 80 ≤ p) then s
    else if dozeHold ps s then endDoze s
    else
      match placeAll j (runsOf k.bclSize ps) s with
      | some s' => cpriPlaced k.slot s'
      | none => s

/-! ## Preemption (R65, R114) -/

/-- The blocks of a unit: a block cluster, or every block of a cooperative kernel. -/
def unitBlocks (j unit : Nat) (s : State) : List (Nat × Block) :=
  match kernelOf j s with
  | some k => s.cpt.blocks.filter (fun e => e.2.job == j && !e.2.pix && (k.coop || e.2.bcl == unit))
  | none => []

/-- A unit is preempted: placing stops, the unit's groups stop between instructions, and stores are drained. -/
def preemptRequest (j unit : Nat) (s : State) : State :=
  let bs := unitBlocks j unit s
  match kernelOf j s with
  | none => s
  | some k =>
    if bs = [] ∨ jobEnded j s then s
    else
      let s := setKernel j { k with paused := true } s
      let s := bs.foldl (fun s e => setBlock e.1 { e.2 with stopping := true } s) s
      bs.foldl (fun s e => wbFlushAll e.2.core s) s

/-- An operation of the blocks that has started and not finished (R65). -/
def unitBusy (bs : List (Nat × Block)) (s : State) : Bool :=
  bs.any (fun e =>
    (coreOps e.2.core s).any (fun o => o.block == e.1 && o.started) ||
    (blockGroups e.1 s).any (fun g => groupReads g.1 g.2.1 s))

/-- What an ME holds for a block: the tiles with the block's results, and its operations that have not started. -/
def saveMe (b : Nat) (m : Me) : Me :=
  let mine := fun (t : Tile) => if t.owner.map (·.2) = some b then t else {}
  { meKeep (fun o => o.block == b) m with active := false, tile0 := mine m.tile0, tile1 := mine m.tile1 }

/-- An ME without a unit's operations. -/
def stripMe (bs : List Nat) (m : Me) : Me := meKeep (fun o => !(bs.contains o.block)) m

/-- A core's save area holds saved state (R114): its layout is the M9's own, so each of its bytes becomes a free value; what is
restored is what `Saved` and `MidTile` hold (log 31). -/
def saveArea (slot p : Nat) (s : State) : State :=
  let (bs, s) := freeBytes (2 ^ 20) s
  hbmPut ((slotOf slot s).saveBase + lcore p s * 2 ^ 20) bs s

/-- PREEMPT_SAVE_COMPLETE: the unit's state stands in the save area, and the cores are free. -/
def saveComplete (j unit cycles : Nat) (s : State) : State :=
  let bs := unitBlocks j unit s
  match bs with
  | [] => s
  | (_, b0) :: _ =>
    if bs.any (fun e => !e.2.stopping) || unitBusy bs s || jobEnded j s then s
    else
      let ids := bs.map (·.1)
      let saved : Saved :=
        { job := j, unit := unit, cluster := b0.core / 5, pinned := bs.any (fun e => e.2.stored), blocks := bs,
          groups := (bs.map (fun e => (blockGroups e.1 s).map (fun g => (g.2.1, g.2.2)))).flatten,
          mes := (bs.map (fun e => (coreOf e.2.core s).mes.map (fun m => (e.1, m.1, saveMe e.1 m.2)))).flatten }
      let s := bs.foldl (fun s e =>
        let p := e.2.core
        let c := coreOf p s
        let s := setCore p { c with
          groups := c.groups.filter (fun g => g.2.block != e.1), mes := c.mes.map (fun m => (m.1, stripMe ids m.2)) } s
        saveArea (jobRef j s).slot p (setReg (pgSc p) 0 0x118 (w32 (min cycles (2 ^ 32 - 1))) s)) s
      { s with cpt := { s.cpt with
        blocks := s.cpt.blocks.filter (fun e => !(ids.contains e.1)), saved := s.cpt.saved ++ [saved] } }

/-- An ME of a core can take a saved ME's operations (R65). -/
def meRoom (p : Nat) (e : Nat) (m : Me) (s : State) : Bool :=
  let n := m.run.toList.length + m.pend.toList.length
  let h := (meOf p e s).run.toList.length + (meOf p e s).pend.toList.length
  n + h ≤ 2

/-- A saved ME's tiles and operations on a core; a tile that the block did not hold stays as it is. -/
def restoreMe (p e : Nat) (m : Me) (s : State) : State :=
  let h := meOf p e s
  let put := fun (t old : Tile) => if t.owner.isSome then t else old
  let s := if m.tile0.owner.isSome || m.tile1.owner.isSome then
      setMe p e { h with tile0 := put m.tile0 h.tile0, tile1 := put m.tile1 h.tile1 } s
    else s
  (m.run.toList ++ m.pend.toList).foldl (fun s o => meReceive p e o s) s

/-- One block restored on a core, with its groups and its MEs' state. -/
def restoreBlock (x : Saved) (b : Nat) (v : Block) (p : Nat) (s : State) : State :=
  let s := wakeCore p s
  let s := coreBegin p x.job s
  let s := setBlock b { v with core := p, stopping := false } s
  let s := (x.groups.filter (fun g => g.2.block == b)).foldl (fun s g => putGroup p g.2 s) s
  (x.mes.filter (fun m => m.1 == b)).foldl (fun s m => restoreMe p m.2.1 m.2.2 s) s

/-- A saved block cluster may go to its cores: R94, one cluster, and the cluster it came from where it stored to cluster
memory (R114, R120). -/
def restoreRoom (x : Saved) (k : Kernel) (bs : List (Nat × Block)) (ps : List Nat) (s : State) : Bool :=
  coresOk k.mask ps s && (!x.pinned || k.coop || ps.headD 0 / 5 == x.cluster) &&
  (bs.zip ps).all (fun e => coreRoom e.2 x.job e.1.2.groups k.regs e.1.2.size k.code k.codeBytes s &&
    (!x.pinned || !e.1.2.stored || !k.coop || e.2 / 5 == e.1.2.core / 5) &&
    (x.mes.filter (fun m => m.1 == e.1.1)).all (fun m => meRoom e.2 m.2.1 m.2.2 s)) &&
  admitted x.job (ps.headD 0 / 5) s

/-- A saved unit restored, block cluster by block cluster. -/
def restoreAll (x : Saved) (k : Kernel) : List (Nat × Block) → List (List Nat) → State → Option State
  | _, [], s => some s
  | bs, ps :: rest, s =>
    let now := bs.take ps.length
    if jobEnded x.job s then some s
    else if restoreRoom x k now ps s then
      let s := ps.foldl (fun s p => if jobEnded x.job s then s else stageImage p x.job k (wakeCore p s)) s
      let s := if jobEnded x.job s then s
        else (now.zip ps).foldl (fun s e => restoreBlock x e.1.1 e.1.2 e.2 s) s
      restoreAll x k (bs.drop ps.length) rest s
    else none

/-- PREEMPT_RESTORE (R114, R120): the kernel goes on placing once none of its units is saved or stopping. -/
def preemptRestore (j unit : Nat) (ps : List Nat) (s : State) : State :=
  match s.cpt.saved.find? (fun x => x.job == j && x.unit == unit), kernelOf j s with
  | some x, some k =>
    if jobEnded j s || ps.length != x.blocks.length || 2 ≤ devState s || ps.any (fun p => 80 ≤ p) then s
    else if dozeHold ps s then endDoze s
    else
      match restoreAll x k x.blocks (runsOf k.bclSize ps) s with
      | none => s
      | some s =>
        if jobEnded j s then s
        else
          let left := s.cpt.saved.filter (fun y => !(y.job == j && y.unit == unit))
          let busy := left.any (fun y => y.job == j) || s.cpt.blocks.any (fun e => e.2.job == j && e.2.stopping)
          let s := { s with cpt := { s.cpt with saved := left } }
          match kernelOf j s with
          | some k => setKernel j { k with
              paused := busy, cores := (k.cores ++ ps).eraseDups } s
          | none => s
  | _, _ => s

/-! ## Meanings -/

/-- BLOCK_PLACE (R94). -/
def execBlockPlace (job : Nat) (cores : List (Fin 80)) (s : State) : Out := toNext (blockPlace job (cores.map (·.val)) s)

/-- PREEMPT_SAVE_COMPLETE (R114). -/
def execPreemptSaveComplete (job unit cycles : Nat) (s : State) : Out := toNext (saveComplete job unit cycles s)

/-- PREEMPT_RESTORE (R120). -/
def execPreemptRestore (job unit : Nat) (cores : List (Fin 80)) (s : State) : Out :=
  toNext (preemptRestore job unit (cores.map (·.val)) s)

end Sys2Proof.Machine
end

