-- ==== Sys2Proof/Machine/Launch.lean ====
section
/-!
DEFINITION. The starts of compute and DMA jobs: LAUNCH, DMA_COPY, DMA_FILL and DMA_GATHER (R25, R92, R93, R105, R173, R190,
R191, R202, R469).
-/
namespace Sys2Proof.Machine

/-! ## LAUNCH -/

/-- A REGS value of R93. -/
def regsOk (n : Nat) : Bool := n == 255 || (16 ≤ n && n ≤ 248 && n % 8 == 0)

/-- The launch descriptor's own checks: reserved bits, ranges, alignments and block clusters (Table 7-9, R191). -/
def launchBad (d : List Word) : Bool :=
  let w := dWord d
  let f := w 6
  let blocks := w 3 * w 4 * w 5
  w 1 % 256 != 0 || w 2 % 8 != 0 || !(regsOk (f % 256)) || f / 2 ^ 8 % 64 == 0 || 32 < f / 2 ^ 8 % 64 ||
  f / 2 ^ 18 != 0 || 256 < w 7 || (List.range 6).any (fun i => w (10 + i) != 0) ||
  blocks % (f / 2 ^ 14 % 4 + 1) != 0

/-- The kernel that a launch descriptor gives. -/
def launchKernel (d : List Word) (slot code param mask : Nat) : Kernel :=
  let w := dWord d
  let f := w 6
  { slot := slot, code := code, codeBytes := w 2, gx := w 3, gy := w 4, gz := w 5, regs := f % 256,
    groups := f / 2 ^ 8 % 64, bclSize := f / 2 ^ 14 % 4 + 1, coop := f / 2 ^ 16 % 2 == 1, ntrap := f / 2 ^ 17 % 2 == 1,
    localBytes := w 7 * 2048, param := param, mask := if mask = 0 then 0xFFFF else mask }

/-- Blocks of a kernel that an empty core holds at once (R94). -/
def blocksPerCore (k : Kernel) : Nat :=
  let a := min 32 (min (64 / k.groups) (65536 / (32 * regAlloc k.regs * k.groups)))
  if k.localBytes = 0 then a else min a (2 ^ 19 / k.localBytes)

/-- Enabled cores of a cluster. -/
def clusterCores (c : Nat) (s : State) : List Nat := (span (5 * c) 5).filter (fun p => coreEnabled p s)

/-- Blocks of a kernel that the enabled cores of its clusters hold at once, in whole block clusters on distinct cores of one
cluster (R105, R108). -/
def coopRoom (k : Kernel) (s : State) : Nat :=
  ((List.range 16).filter (fun c => nbits k.mask c 1 == 1)).foldl (fun n c =>
    let cores := (clusterCores c s).length
    if cores < k.bclSize then n else n + cores * blocksPerCore k / k.bclSize * k.bclSize) 0

/-- A launch that starts no thread group: the core and the offset in its DETAIL are not stated and are free. -/
def launchFail (j reason : Nat) (s : State) : State :=
  let (f, s) := takeFree s
  jobFail j (reason, f % 64 + f / 64 % 2 ^ 32 * 2 ^ 32) s

/-- The clusters that may run a stream's launches. -/
def ownMask (o : Owner) (s : State) : Nat :=
  match o with
  | .queue k q => (queueOf k q s).cmask
  | .batch b => match batchOf b s with | some x => x.mask | none => 0

/-- A kernel accepted: one without blocks ends OK at once, one that cannot be resident or staged faults (R92, R105, R191). -/
def launchKernelStart (j : Nat) (k : Kernel) (s : State) : State :=
  if getFld pgCap 0 0x108 8 8 s * 1024 < k.codeBytes then launchFail j 0x000D s
  else if kernelBlocks k = 0 then endJob j 0 0 0 s
  else if k.coop && coopRoom k s < kernelBlocks k then launchFail j 0x000C s
  else setKernel j k s

/-- The launch with its descriptor: the handles, then the kernel. -/
def launchDesc (start : Nat → Kernel → State → State) (o : Owner) (j va : Nat) (d : List Word) (s : State) : State :=
  let w := dWord d
  if launchBad d then jobFail j (0x0017, va) s
  else
    match checkRange (jobRefOf o j s) (nth 0 d 0) (w 1) (w 2) s with
    | (.error rd, s) => jobFail j rd s
    | (.ok code, s) =>
      if w 8 = 0 then start j (launchKernel d (ownSlot o s) code 0 (ownMask o s)) s
      else
        match checkRange (jobRefOf o j s) (nth 0 d 8) (w 9) 0 s with
        | (.error rd, s) => jobFail j rd s
        | (.ok param, s) => start j (launchKernel d (ownSlot o s) code param (ownMask o s)) s

/-- LAUNCH (R191). -/
def launchCmd (o : Owner) (c : List Word) (_ : Nat) (s : State) : Option State :=
  startJob o c (fun j s => withDesc o j rqFe c 64 64 (launchDesc launchKernelStart o j) s) s

/-! ## DMA commands -/

/-- The DMA engine of a stream: the queue's, or the graph's DMA_SEL (R219). -/
def ownDma (o : Owner) (s : State) : Nat :=
  match o with
  | .queue k q => (queueOf k q s).engine - 5
  | .batch b => match batchOf b s with | some x => x.dma | none => 0

/-- DMA_COPY: a copy of no bytes checks its handles and ends OK (R190). -/
def dmaCopyCmd (o : Owner) (c : List Word) (_ : Nat) (s : State) : Option State :=
  let len := (cw c 6).toNat + fld (cw c 7) 0 8 * 2 ^ 32
  let so := (cw c 3).toNat + fld (cw c 5) 0 8 * 2 ^ 32
  let d := (cw c 4).toNat + fld (cw c 5) 8 8 * 2 ^ 32
  startJob o c (fun j s =>
    withRange o j (cw c 1) so len (fun src s =>
      withRange o j (cw c 2) d len (fun dst s =>
        if len = 0 then endJob j 0 0 0 s else dmaStart (ownDma o s) j (ownSlot o s) (.copy src dst len) s) s) s) s

/-- DMA_FILL (R190). -/
def dmaFillCmd (o : Owner) (c : List Word) (_ : Nat) (s : State) : Option State :=
  let len := cw64 c 6
  let off := (cw c 2).toNat + fld (cw c 3) 0 8 * 2 ^ 32
  startJob o c (fun j s =>
    withRange o j (cw c 1) off len (fun dst s =>
      if len = 0 then endJob j 0 0 0 s else dmaStart (ownDma o s) j (ownSlot o s) (.fill dst len (cw c 4)) s) s) s

/-- DMA_GATHER: the channel reads the descriptor (R173). -/
def dmaGatherCmd (o : Owner) (c : List Word) (_ : Nat) (s : State) : Option State :=
  startJob o c (fun j s =>
    withRange o j (cw c 1) (cw c 2).toNat 64 (fun va s =>
      if va % 64 ≠ 0 then jobFail j (0x0017, va) s
      else dmaStart (ownDma o s) j (ownSlot o s) (.gather va) s) s) s

/-! ## Meanings -/

/-- LAUNCH (R191). -/
def execLaunch (fe : Fetcher) (s : State) : Out := toNext (onCommand fe (selOp 0x01) launchCmd s)

/-- DMA_COPY (R190). -/
def execDmaCopy (fe : Fetcher) (s : State) : Out := toNext (onCommand fe (selOp 0x05) dmaCopyCmd s)

/-- DMA_FILL (R190). -/
def execDmaFill (fe : Fetcher) (s : State) : Out := toNext (onCommand fe (selOp 0x06) dmaFillCmd s)

/-- DMA_GATHER (R173). -/
def execDmaGather (fe : Fetcher) (s : State) : Out := toNext (onCommand fe (selOp 0x07) dmaGatherCmd s)

end Sys2Proof.Machine
end

