-- ==== Sys2Proof/Machine/Cz.lean ====
section
/-!
DEFINITION. The compression engines: stream contexts, CZ_JOB, its checks, its commit and its failures (R284, R285, R295 to
R299, R469).
-/
namespace Sys2Proof.Machine

/-! ## Contexts (R299) -/

/-- A context holds a composer stream. -/
def isFrame : CzUse → Bool
  | .frame _ => true
  | _ => false

/-- The contexts of an engine that hold a stream. -/
def czHeld (z : Nat) (s : State) : List (Nat × CzUse) := s.cz.ctx.filter (fun e => e.1 / 4 == z)

/-- The lowest free context of an engine. -/
def czFree (z : Nat) (s : State) : Option Nat := (List.range 4).find? (fun c => (tabFind (z * 4 + c) s.cz.ctx).isNone)

/-- A context that a stream may take: COMP_RES of them are kept for composer streams, which may take any. -/
def czAvail (z : Nat) (composer : Bool) (s : State) : Option Nat :=
  let res := getFld (pgCz z) 0 0x100 0 2 s
  let frames := ((czHeld z s).filter (fun e => isFrame e.2)).length
  let others := ((czHeld z s).filter (fun e => !(isFrame e.2))).length
  if composer then czFree z s
  else if others + (frames - res) < 4 - res then czFree z s
  else none

/-- CZ_STS follows the contexts (Table 11-6). -/
def czSync (z : Nat) (s : State) : State :=
  setReg (pgCz z) 0 0x104
    (w32 ((czHeld z s).foldl (fun n e => n + 2 ^ (e.1 % 4) + (if isFrame e.2 then 2 ^ (4 + e.1 % 4) else 0)) 0)) s

/-- A context taken. -/
def czTake (z c : Nat) (u : CzUse) (s : State) : State :=
  czSync z { s with cz := { s.cz with ctx := tabSet (z * 4 + c) u s.cz.ctx } }

/-- The first waiting park or restore of an engine takes a context. -/
def czNext (z : Nat) (s : State) : State :=
  match s.cz.waiting.find? (fun w => w.1 == z), czAvail z false s with
  | some w, some c => czTake z c w.2 { s with cz := { s.cz with waiting := s.cz.waiting.erase w } }
  | _, _ => s

/-- A context freed. -/
def czGive (key : Nat) (s : State) : State :=
  czNext (key / 4) (czSync (key / 4) { s with cz := { s.cz with ctx := tabDel key s.cz.ctx } })

/-- A park or restore takes a context of an engine, or waits for one. -/
def czQueue (z : Nat) (u : CzUse) (s : State) : State :=
  czNext z { s with cz := { s.cz with waiting := s.cz.waiting ++ [(z, u)] } }

/-- The context of a use, if it holds one. -/
def czCtxOf (u : CzUse) (s : State) : Option Nat := (s.cz.ctx.find? (fun e => e.2 == u)).map (·.1)

/-- A use leaves the engines, waiting or running. -/
def czLeave (u : CzUse) (s : State) : State :=
  let s := { s with cz := { s.cz with waiting := s.cz.waiting.filter (fun w => w.2 != u) } }
  match czCtxOf u s with
  | some k => czGive k s
  | none => s

/-! ## Counters, free bytes -/

/-- MiB counted from bytes (Table 11-6). -/
def czMib (z off n : Nat) (s : State) : State :=
  let t := if off = 0x108 then s.cz.inB else s.cz.outB
  let b := tabGet 0 z t + n
  let t' := tabSet z (b % 2 ^ 20) t
  let s := { s with cz := if off = 0x108 then { s.cz with inB := t' } else { s.cz with outB := t' } }
  addFld (pgCz z) 0 off 0 32 (b / 2 ^ 20) s

/-- What a stream that fails has processed, written and coded raw counts too; how much that is when it fails is not stated and is
free within its input of `n` bytes and its output space (R302; log 94). -/
def czPartial (z n cap : Nat) (s : State) : State :=
  let (a, s) := takeFree s
  let (b, s) := takeFree s
  let (c, s) := takeFree s
  addFld (pgCz z) 0 0x110 0 32 (c % ((n + 65535) / 65536 + 1)) (czMib z 0x10C (b % (cap + 1)) (czMib z 0x108 (a % (n + 1)) s))

/-- A stream or a job failed, and whether on corrupt input. -/
def czFailed (z : Nat) (corrupt : Bool) (s : State) : State :=
  let s := count32 (pgCz z) 0 0x114 s
  if corrupt then count32 (pgCz z) 0 0x118 s else s

/-- A range of memory whose contents the manual leaves undefined; pages that fail are left. -/
def scramble (rq slot va n : Nat) (s : State) : State :=
  (pagePieces va n).foldl (fun s p =>
    let (bs, s) := freeBytes p.2 s
    (vaWrite rq slot p.1 bs s).2) s

/-- The bytes that two ranges share. -/
def overlap (a n b m : Nat) : Nat × Nat := (max a b, min (a + n) (b + m) - max a b)

/-! ## CZ_JOB's start (R284, R285, R296) -/

/-- The reserved fields of a job descriptor that Table 11-1 lists: 0x00 [31:4], 0x34 to 0x3F, 0x80 to 0xFF. -/
def czReserved (d : List Word) : Bool :=
  dWord d 0 / 16 != 0 || (List.range 3).any (fun i => dWord d (13 + i) != 0) ||
  (List.range 32).any (fun i => dWord d (32 + i) != 0)

/-- What the state record of a stream says: header, position, compressed bytes, CRC register; nothing where it is not valid
for the direction (R296). -/
def czState (bs : List Byte) (dec : Bool) : Option (List Byte × Nat × Nat × Word) :=
  let n := fun o k => leNat ((bs.drop o).take k)
  if n 0x34 4 ≠ 1 + (if dec then 2 else 0) ∨ leNat ((bs.drop 0xFFC).take 4) ≠ (crc32c (bs.take 0xFFC)).toNat ∨
      czHdrOk (bs.take 32) = false then none
  else some (bs.take 32, n 0x20 8, n 0x28 8, w32 (n 0x30 4))

/-- A job that passed its checks takes its context. -/
def czAccept (z j : Nat) (x : CzJob) (s : State) : State :=
  match czAvail z false s with
  | none => s
  | some c =>
    let s := prefetch (rqCz z) x.slot x.ova x.cap (prefetch (rqCz z) x.slot x.iva x.n s)
    czTake z c (.job j) { s with cz := { s.cz with jobs := tabSet j x s.cz.jobs } }

/-- The checks that follow the header: IN_LEN, input, output, and the history, whose extent is the history span (R285, R295). -/
def czRanges (o : Owner) (z j : Nat) (d : List Word) (x : CzJob) (s : State) : State :=
  let h := czHdrOf x.hdr
  let n := dWord d 3
  let r := jobRefOf o j s
  if !x.dec && ((!x.last && n % czBlock != 0) || (x.last && n % czEsz h != 0) ||
      (!h.tensor && x.first && x.last && n != czImage h)) then jobFail j (0x0017, x.dva) s
  else
    match checkRange r (nth 0 d 1) (dWord d 2) n s with
    | (.error rd, s) => jobFail j rd s
    | (.ok iva, s) =>
      match checkRange r (nth 0 d 4) (dWord d 5) (dWord d 6) s with
      | (.error rd, s) => jobFail j rd s
      | (.ok ova, s) =>
        let x := { x with iva := iva, n := n, ova := ova, cap := dWord d 6 }
        if x.first then czAccept z j x s
        else
          match checkRange r (nth 0 d 10) (dWord d 11) (czSpan h x.pos) s with
          | (.error rd, s) => jobFail j rd s
          | (.ok hva, s) => czAccept z j { x with hva := hva, hn := min x.pos (czSpan h x.pos) } s

/-- The stream header: from the template, from the state record, or from the input. -/
def czHeader (o : Owner) (z j : Nat) (d : List Word) (x : CzJob) (tmpl : List Byte) (s : State) : State :=
  if x.first then czRanges o z j d { x with hdr := if x.dec then [] else tmpl } s
  else
    match vaReadAll (rqCz z) x.slot x.sva 4096 .rd s with
    | (.error (e, va), s) => endByAccess (rqCz z) j va .rd e s
    | (.ok bs, s) =>
      match czState bs x.dec with
      | none => jobFail j (0x0183, 0) s
      | some (hd, pos, comp, crc) => czRanges o z j d { x with hdr := hd, pos := pos, comp := comp, crc := crc } s

/-- A misaligned STATE_OFF: the address in DETAIL is free where STATE names no object (R469). -/
def czStateOff (o : Owner) (j : Nat) (d : List Word) (s : State) : State :=
  if dWord d 8 = 0 then let (f, s) := takeFree s; jobFail j (0x0017, f % 2 ^ 64) s
  else
    match checkHandle (jobRefOf o j s) (nth 0 d 8) s with
    | (.error rd, s) => jobFail j rd s
    | (.ok e, s) => jobFail j (0x0017, e.base + dWord d 9) s

/-- A descriptor read: its own checks, then the state record. -/
def czDesc (o : Owner) (z j va : Nat) (d : List Word) (s : State) : State :=
  let f := dWord d 0
  let x : CzJob :=
    { slot := ownSlot o s, dva := va, dec := f % 2 = 1, first := f / 2 % 2 = 1, last := f / 4 % 2 = 1, dyn := f / 8 % 2 = 1,
      iva := 0, n := 0, ova := 0, cap := 0, sva := 0, hva := 0, hn := 0, pos := 0, comp := 0, crc := 0xFFFFFFFF#32, hdr := [] }
  let tmpl := ((List.range 8).map (fun i => toLE 4 (dWord d (16 + i)))).flatten
  if czReserved d || (!x.dec && x.first && !(czHdrOk tmpl)) || (!x.first && (dWord d 8 == 0 || dWord d 10 == 0)) then
    jobFail j (0x0017, va) s
  else if dWord d 9 % 4096 ≠ 0 then czStateOff o j d s
  else if x.first ∧ x.last then czHeader o z j d x tmpl s
  else
    match checkRange (jobRefOf o j s) (nth 0 d 8) (dWord d 9) 4096 s with
    | (.error rd, s) => jobFail j rd s
    | (.ok sva, s) => czHeader o z j d { x with sva := sva } tmpl s

/-- A job that a check has ended counts as failed. -/
def czStarted (z j : Nat) (s : State) : State :=
  match tabFind j s.fe.jobs with
  | some b => if b.fin.isSome then czFailed z false s else s
  | none => s

/-- CZ_JOB on an engine: held while no context is free for it. -/
def czJobOn (z : Nat) (o : Owner) (c : List Word) (s : State) : Option State :=
  if (czAvail z false s).isNone then
    match o with
    | .queue k q => some (setQueue k q { queueOf k q s with held := true } s)
    | .batch _ => none
  else startJob o c (fun j s => czStarted z j (withDesc o j (rqCz z) c 256 256 (czDesc o z j) s)) s

/-- CZ_JOB (R284). No engine is stated for a graph buffer's CZ_JOB (R219): it is free. -/
def czJobCmd (o : Owner) (c : List Word) (_ : Nat) (s : State) : Option State :=
  match o with
  | .queue k q => czJobOn ((queueOf k q s).engine - 3) o c s
  | .batch _ => let (f, s) := takeFree s; czJobOn (f % 2) o c s

/-! ## Commit and failure (R297, R298) -/

/-- A job leaves its engine. -/
def czRelease (j : Nat) (s : State) : State :=
  czLeave (.job j) { s with cz := { s.cz with jobs := tabDel j s.cz.jobs } }

/-- A job fails: it commits nothing, and the bytes of its output space are undefined. -/
def czFail (z j : Nat) (x : CzJob) (corrupt : Bool) (s : State) : State :=
  czRelease j (czFailed z corrupt (czPartial z x.n x.cap (scramble (rqCz z) x.slot x.ova x.cap s)))

/-- A job that a kill, a timeout or a disable has ended (R297). -/
def czStop (j : Nat) (s : State) : State :=
  match czCtxOf (.job j) s, tabFind j s.cz.jobs with
  | some k, some x => czFail (k / 4) j x false s
  | _, _ => s

/-- The state record that a job with LAST = 0 writes (R296); the engine's own part is free. -/
def czStateBytes (x : CzJob) (hdr : List Byte) (pos comp : Nat) (crc : Word) (s : State) : List Byte × State :=
  let (w, s) := freeBytes (0xFFC - 0x38) s
  let bs := hdr ++ toLE 8 pos ++ toLE 8 comp ++ toLE 4 crc.toNat ++ toLE 4 (1 + (if x.dec then 2 else 0)) ++ w
  (bs ++ toLE 4 (crc32c bs).toNat, s)

/-- Writes in order; the first failing one stops them. -/
def writeSeq (rq slot : Nat) : List (Nat × List Byte) → State → Except (AccErr × Nat) Unit × State
  | [], s => (.ok (), s)
  | (va, bs) :: t, s =>
    match vaWriteAll rq slot va bs s with
    | (.error e, s) => (.error e, s)
    | (.ok _, s) => writeSeq rq slot t s

/-- Whether ranges may be written: the first failing access, and nothing is written (R297). -/
def mayWrite (rq slot : Nat) : List (Nat × Nat) → State → Except (AccErr × Nat) Unit × State
  | [], s => (.ok (), s)
  | (va, _) :: t, s =>
    match translate rq slot va .wr s with
    | (.error (c, l), s) => (.error (.xl c l, va), s)
    | (.ok .needAts, s) => (.error (.xl cAtsMiss 0, va), s)
    | (.ok _, s) => mayWrite rq slot t s

/-- A job whose output is whole commits: OUT_LEN, CRC and the state record change all or not at all (R297). -/
def czDone (z j : Nat) (x : CzJob) (hdr out : List Byte) (raw : Nat) (crc : Word) (s : State) : State :=
  let len := out.length
  let sum := ~~~ crc
  let (st, s) := if x.last then ([], s)
    else
      let (b, s) := czStateBytes x hdr (x.pos + (if x.dec then len else x.n)) (x.comp + (if x.dec then x.n else len)) crc s
      ([(x.sva, b)], s)
  let own := [(x.dva + 0x1C, toLE 4 len), (x.dva + 0x30, toLE 4 sum.toNat)] ++ st
  match writeSeq (rqCz z) x.slot [(x.ova, out)] s with
  | (.error (e, va), s) => czFail z j x false (endByAccess (rqCz z) j va .wr e s)
  | (.ok _, s) =>
  match mayWrite (rqCz z) x.slot (own.map (fun w => pagePieces w.1 w.2.length)).flatten s with
  | (.error (e, va), s) => czFail z j x false (endByAccess (rqCz z) j va .wr e s)
  | (.ok _, s) =>
  match writeSeq (rqCz z) x.slot own s with
  | (.error (e, va), s) => czFail z j x false (endByAccess (rqCz z) j va .wr e s)
  | (.ok _, s) =>
    let v := overlap x.iva x.n x.ova x.cap
    let s := scramble (rqCz z) x.slot v.1 v.2 s
    let s := addFld (pgCz z) 0 0x110 0 32 raw (czMib z 0x10C len (czMib z 0x108 x.n s))
    czRelease j (endJob j 0 0 (len + sum.toNat * 2 ^ 32) s)

/-- A stream that fails: its reason and detail. How many input bytes CZ_OUT_SPACE names is not stated: it is free up to the
input's length. -/
def czReason (e : CzFail) (n : Nat) (s : State) : (Nat × Nat × Bool) × State :=
  match e with
  | .corrupt off => ((0x0181, off, true), s)
  | .check c => ((0x0182, c.toNat, true), s)
  | .space => let (f, s) := takeFree s; ((0x0180, f % (n + 1), false), s)

/-- A job ends with an error of its stream. -/
def czError (z j : Nat) (x : CzJob) (e : CzFail) (s : State) : State :=
  let (r, s) := czReason e x.n s
  czFail z j x r.2.2 (endJob j 1 r.1 r.2.1 s)

/-- CZ_COMMIT of a job: input and history are read, the stream is coded or decoded, and the job commits or fails. -/
def czCommitJob (z j : Nat) (x : CzJob) (s : State) : State :=
  match vaReadAll (rqCz z) x.slot x.hva x.hn .rd s with
  | (.error (e, va), s) => czFail z j x false (endByAccess (rqCz z) j va .rd e s)
  | (.ok hist, s) =>
    match vaReadAll (rqCz z) x.slot x.iva x.n .rd s with
    | (.error (e, va), s) => czFail z j x false (endByAccess (rqCz z) j va .rd e s)
    | (.ok buf, s) =>
      if x.dec then
        match czDecompress (some (czHdrOf x.hdr)) hist buf x.pos x.cap x.first x.last x.crc with
        | .error e => czError z j x e s
        | .ok (out, h) => czDone z j x (czHdrBytes h) out 0 (crcGo x.crc out) s
      else
        let r := czCompress (czHdrOf x.hdr) hist buf x.pos x.dyn x.first x.last x.crc
        if x.cap < r.1.length then czError z j x .space s
        else czDone z j x x.hdr r.1 (r.2.filter (·.2.1)).length (crcGo x.crc buf) s

/-- CZ_COMMIT of a context that holds a job. -/
def czCommit (z c : Nat) (s : State) : State :=
  match tabFind (z * 4 + c) s.cz.ctx with
  | some (.job j) =>
    match tabFind j s.cz.jobs with
    | some x => if jobEnded j s then czStop j s else czCommitJob z j x s
    | none => s
  | _ => s

/-! ## Meanings -/

/-- CZ_JOB (R284). -/
def execCzJob (fe : Fetcher) (s : State) : Out := toNext (onCommand fe (selOp 0x04) czJobCmd s)

/-- CZ_COMMIT (R297). -/
def execCzCommit (z : Fin 2) (ctx : Fin 4) (s : State) : Out := toNext (czCommit z.val ctx.val s)

end Sys2Proof.Machine
end

