-- ==== Sys2Proof/Machine/JobEnd.lean ====
section
/-!
DEFINITION. The end of jobs: the record and the accounts of JOB_COMPLETE, and how the engines of compute, DMA and CZ end
a job that a timeout, a kill or a disable stops (R104, R168, R179, R186, R187, R189, R195, R196, R202, R204).
-/
namespace Sys2Proof.Machine

/-! ## JOB_COMPLETE -/

/-- The record of an ended job, or its part in the figures of its batch (R186, R221, R229). -/
def jobRecord (b : Job) (f : JobEnd) (uj : Nat) (s : State) : State :=
  match b.owner with
  | .queue k q =>
    writeRecord k q (opOf b.cmd) (isIrq b.cmd)
      { status := f.status, reason := f.reason, detail := f.detail, flags := b.flags, energy := uj,
        dur := s.fe.us - b.startUs, start := b.startSeq } s
  | .batch n =>
    match batchOf n s with
    | some x => setBatch n { x with energy := x.energy + uj, flags := x.flags ||| b.flags } s
    | none => s

/-- A job retires with its record, once its writes are performed and with them the fills that they wait for (R128, R137): the next
SIGNAL's status, the policy, its references, and its queue's timer (R186, R187, R195, R196, R202, R180). A session's record on die
goes back to HBM before each of its records (R212). A job that its queue's
timeout ended has met the policy there (R189). -/
def retireCore (j : Nat) (b : Job) (f : JobEnd) (uj : Nat) (s : State) : State :=
  let s := settleFills s.hbc.filling s
  let o := b.owner
  let slot := ownSlot o s
  let op := opOf b.cmd
  let s := if 0x08 ≤ op ∧ op ≤ 0x0A then sessSync (fld (cw b.cmd 1) 0 18) s else s
  let s := noteSig o (fenceStatus f.status) (jobRecord b f uj s)
  let s := if f.status = 0 ∨ (f.status = 2 ∧ isQueue o) then s else streamFail o b.batch f.status f.reason s
  let s := hrel o b.cmd s
  let s := { s with
    fe := { s.fe with jobs := tabDel j s.fe.jobs }, cpt := { s.cpt with kernels := tabDel j s.cpt.kernels } }
  restartTimer o (slotDrop slot s)

/-- A job retires, and its queue is IDLE where nothing is left (Table 7-6). -/
def retireJob (j : Nat) (b : Job) (f : JobEnd) (uj : Nat) (s : State) : State := idleCheck b.owner (retireCore j b f uj s)

/-- The accounts of a context take a job's core-cycles, ME-cycles and energy (R179). -/
def jobAccounts (b : Job) (s : State) : State :=
  let slot := ownSlot b.owner s
  if (slotOf slot s).state = 0 then s
  else ctxAdd slot 0x48 (toUj b.energy) (ctxAdd slot 0x40 (b.meCyc / 256) (ctxAdd slot 0x38 (b.coreCyc / 256) s))

/-- An ended job none of whose ME operations still runs retires in a way. -/
def retireWith (act : Nat → Job → JobEnd → Nat → State → State) (j : Nat) (s : State) : State :=
  match tabFind j s.fe.jobs with
  | none => s
  | some b =>
    match b.fin with
    | none => s
    | some f => if jobHasOps j s then s else act j b f (toUj b.energy) (jobAccounts b s)

/-- JOB_COMPLETE. -/
def jobComplete (j : Nat) (s : State) : State := retireWith retireJob j s

/-! ## Barrier stalls (R104) -/

/-- ID, KIND, ARRIVED and EXPECTED of the barrier that a path of a group waits at, on its core. -/
def stallOf (p : Nat) (x : Group) (w : PathWait) (s : State) : Option (Nat × Nat × Nat × Nat) :=
  let here := fun (l : List (Nat × Nat × Group)) => l.filter (fun e => e.1 == p)
  match w with
  | .wsync m => some (0, 0, popcount (wsyncArrived m x), popcount (x.live &&& m))
  | .gate g =>
    let v := gateOf x.block g s
    some (g, if v.n = 0 then 1 else 2, v.arr, gateExpect x.block g s)
  | .bcl =>
    match blockOf x.block s with
    | some b => let l := here (bclGroups b.job b.bcl s); some (0, 3, waitingOf .bcl l, liveOf l)
    | none => none
  | .dev => let l := here (jobGroups x.job s); some (0, 4, waitingOf .dev l, liveOf l)
  | _ => none

/-- The barriers at which threads of a job wait on a core, each with the order of the wait. -/
def coreStalls (j p : Nat) (s : State) : List (Nat × Nat × Nat × Nat × Nat) :=
  ((coreOf p s).groups.filter (fun g => g.2.job == j)).foldl (fun l g =>
    l ++ g.2.paths.filterMap (fun y => (y.wait.bind (fun w => stallOf p g.2 w s)).map (fun e => (y.since, e)))) []

/-- BAR_STALL of a core captures the barrier that stalled first, the one with the oldest wait, unless a capture is held (R104). -/
def stallCapture (j p : Nat) (s : State) : State :=
  match coreStalls j p s with
  | [] => s
  | h :: l =>
    if bit (getReg (pgSc p) 0 0x114 s) 31 then s
    else
      let e := (l.foldl (fun (a b : Nat × Nat × Nat × Nat × Nat) => if b.1 < a.1 then b else a) h).2
      setReg (pgSc p) 0 0x114 (w32 (e.1 + e.2.1 * 2 ^ 4 + min e.2.2.1 2047 * 2 ^ 8 + min e.2.2.2 2047 * 2 ^ 19 + 2 ^ 31)) s

/-- Some thread of the job waits at a barrier. -/
def jobStalled (j : Nat) (s : State) : Bool := (usedCores s).any (fun p => !(coreStalls j p s).isEmpty)

/-- The first logical core whose BAR_STALL is VALID (Table 7-5). -/
def firstStall (s : State) : Nat :=
  ((List.range 64).find? (fun l => physOf l s < 80 && bit (getReg (pgSc (physOf l s)) 0 0x114 s) 31)).getD 0

/-- The reason and detail of a job that times out, with the captures (R104, R189). -/
def timeoutReason (j : Nat) (s : State) : (Nat × Nat) × State :=
  if jobStalled j s then
    let s := (usedCores s).foldl (fun s p => stallCapture j p s) s
    ((0x0006, firstStall s), s)
  else ((0x0005, 0), s)

/-! ## Stopping jobs -/

/-- The channel that holds a job's transfer. -/
def jobChan (j : Nat) (s : State) : Option (Nat × Chan) := s.dma.chans.find? (fun e => e.2.job == j)

/-- A DMA job ends: its channel is free, or its place among the waiting jobs (R168, R470). -/
def dmaStop (j status reason detail : Nat) (s : State) : State :=
  match jobChan j s with
  | some (c, ch) => chanEnd c ch status reason detail s
  | none =>
    endJob j status reason detail { s with dma := { s.dma with waiting := s.dma.waiting.filter (fun w => w.2.1 != j) } }

/-- A job of a compute, DMA or CZ engine ends at once with a status (R187). -/
def endEngine (j status reason detail : Nat) (s : State) : State :=
  if jobEnded j s then s
  else if (kernelOf j s).isSome || (tabFind j s.tlr.passes).isSome then endCompute j status reason detail s
  else if (tabFind j s.cz.jobs).isSome then czStop j (endJob j status reason detail s)
  else dmaStop j status reason detail s

/-- A running job ends with TIMEOUT (R189 step 1). -/
def timeoutEngine (j : Nat) (s : State) : State :=
  if jobEnded j s then s
  else
    let (rd, s) := timeoutReason j s
    endEngine j 2 rd.1 rd.2 s

end Sys2Proof.Machine
end

