-- ==== Sys2Proof/Machine/Leaven.lean ====
section
/-!
DEFINITION. Leaven: the session commands, park and restore, graph commits, batches and their ends, deadlines, teardown
(R21, R22, R211 to R231).
-/
namespace Sys2Proof.Machine

/-! ## Commands and their names (R211, R221) -/

/-- DETAIL of a Leaven command: its session or graph, and a 16-bit value (R221). -/
def lvnDetail (i v : Nat) : Nat := i % 2 ^ 18 + v % 65536 * 2 ^ 32

/-- A Leaven command ends with FAULT. -/
def lvnFail (j i v reason : Nat) (s : State) : State := endJob j 1 reason (lvnDetail i v) s

/-- A Leaven command ends OK. -/
def lvnOk (j i v : Nat) (s : State) : State := endJob j 0 0 (lvnDetail i v) s

/-- Reasons of Table 8-5. -/
abbrev rSessState : Nat := 0x01C0
abbrev rDeadline : Nat := 0x01C1
abbrev rGraphEmpty : Nat := 0x01C2
abbrev rSpillSpace : Nat := 0x01C3
abbrev rKvRange : Nat := 0x01C4
abbrev rBatchArea : Nat := 0x01C5

/-- INDEX of a session command. -/
def sessIdx (c : List Word) : Nat := fld (cw c 1) 0 18

/-- A command names its session validly (R211). -/
def sessNamed (slot : Nat) (c : List Word) (s : State) : Bool :=
  let i := sessIdx c
  inSessWindow (slotOf slot s).func i s && sessGen i s == fld (cw c 2) 0 16 && sessSlot i s == slot

/-- A command of Leaven on its queue: held while `wait` says so (R213), else started. -/
def lvnCmd (wait : Nat → List Word → State → Bool) (act : Owner → Nat → Nat → List Word → State → State)
    (o : Owner) (c : List Word) (_ : Nat) (s : State) : Option State :=
  match o with
  | .batch _ => none
  | .queue k _ =>
    if wait k c s then holdJob o s else startJob o c (fun j s => act o k j c s) s

/-- A command of a session whose record cannot be read ends with BUS_ERROR (Table 5-4). -/
def onSession (act : Owner → Nat → Nat → List Word → State → State) (o : Owner) (slot j : Nat) (c : List Word) (s : State) :
    State :=
  let i := sessIdx c
  if !(inSessWindow (slotOf slot s).func i s) then act o slot j c s
  else
    match sessFails i s with
    | (true, s) => lvnFail j i 0 0x0015 s
    | (false, s) => act o slot j c s

/-- A command of a graph whose record cannot be read ends with BUS_ERROR (Table 5-4). -/
def onGraph (act : Owner → Nat → Nat → List Word → State → State) (o : Owner) (slot j : Nat) (c : List Word) (s : State) :
    State :=
  let g := fld (cw c 1) 0 12
  match graphFails g s with
  | (true, s) => lvnFail j g 0 0x0015 s
  | (false, s) => act o slot j c s

/-- A reference acquired on a handle: nothing for the null handle (R200). -/
def acquireRef (r : JobRef) (h : Word) (s : State) : Except Nat Unit × State :=
  if h = 0 then (.ok (), s)
  else
    match handleAcquire r (fld h 0 16) (fld h 16 16) s with
    | (.error rd, s) => (.error rd.1, s)
    | (.ok n, s) => (if n = 1 then .error 0x0003 else .ok (), s)

/-- A KV region in an object: KV_RANGE where it lies beyond (R215, R225). -/
def kvRegion (r : JobRef) (h : Word) (off len : Nat) (s : State) : Except Nat Nat × State :=
  match checkRange r h off len s with
  | (.ok va, s) => (.ok va, s)
  | (.error rd, s) => (.error (if rd.1 = 0x0004 then rKvRange else rd.1), s)

/-! ## SESS_OPEN (R215) -/

/-- The record that an open sets up from its template. -/
def openRecord (slot fn gen : Nat) (t : List Word) : List Word :=
  [ w32 (1 + dWord t 0 / 8 % 16 * 8 + slot * 2 ^ 8 + fn * 2 ^ 14 + dWord t 0 / 2 ^ 20 * 2 ^ 20), w32 gen, nth 0 t 2, 0,
    nth 0 t 4, nth 0 t 5, nth 0 t 6, nth 0 t 7, 0, 0, 0, 0, nth 0 t 12, nth 0 t 13, 0, 0 ] ++ List.replicate 16 0

/-- The open with its template. -/
def openWith (r : JobRef) (slot j i : Nat) (t : List Word) (s : State) : State :=
  let put := fun (s : State) =>
    let gen := (sessGen i s + 1) % 65536
    lvnOk j i gen (hbmPut (sessAddr i s)
      ((openRecord slot (slotOf slot s).func gen t).map (fun w => toLE 4 w.toNat)).flatten s)
  if dWord t 7 < dWord t 6 then lvnFail j i 0 rKvRange s
  else if nth 0 t 4 = 0 then put s
  else
    match kvRegion r (nth 0 t 4) (dWord t 5) (dWord t 7) s with
    | (.error e, s) => lvnFail j i 0 e s
    | (.ok _, s) =>
      match acquireRef r (nth 0 t 4) s with
      | (.error e, s) => lvnFail j i 0 e s
      | (.ok _, s) => put s

/-- SESS_OPEN of a session. -/
def openAct (o : Owner) (slot j : Nat) (c : List Word) (s : State) : State :=
  let i := sessIdx c
  let r := jobRefOf o j s
  if !(inSessWindow (slotOf slot s).func i s) then lvnFail j i 0 0x0003 s
  else if sessState i s ≠ 0 then lvnFail j i 0 rSessState s
  else
    match checkRange r (cw c 3) (cw c 4).toNat 64 s with
    | (.error rd, s) => lvnFail j i 0 rd.1 s
    | (.ok va, s) =>
      match vaReadAll rqLvn slot va 64 .rd s with
      | (.error (e, at'), s) =>
        let (rd, s) := accessFault rqLvn r at' .rd e s
        lvnFail j i 0 rd.1 s
      | (.ok bs, s) => openWith r slot j i (rowWords 4 16 bs) s

/-! ## Versions (R227, R228) -/

/-- The lowest unused version entry of a graph. -/
def verFree (g : Nat) (s : State) : Option Nat := (List.range 8).find? (fun v => !(bit (graphW g (verOff v) s) 16))

/-- A SESS_STEP's hold of a version taken. -/
def verAdd (g v : Nat) (s : State) : State := setGraphW g (verOff v + 4) (graphW g (verOff v + 4) s + 1) s

/-- A SESS_STEP's hold of its version dropped; a graph that a function disable has cleared has none (R230). -/
def stepVerDrop (x : SStep) (s : State) : State := if bit (graphW x.graph 0 s) 0 then verDrop x.graph x.vi s else s

/-- GRAPH_COMMIT is held while all 8 entries are USED. -/
def commitHeld (slot : Nat) (c : List Word) (s : State) : Bool :=
  let g := fld (cw c 1) 0 12
  !(graphBad g s) && graphOwned g slot s && (verFree g s).isNone

/-- The commit of a checked version: entry filled, current version switched, the previous hold dropped (R228 steps 3
and 4). -/
def commitVer (j g v : Nat) (c : List Word) (s : State) : State :=
  let n := (graphW g 0x1C s).toNat
  let ver := if n = 0 then 1 else (fld (graphW g 4 s) 0 16 + 1) % 65536
  let o := verOff v
  let s := setGraphW g o (w32 (ver + 2 ^ 16)) (setGraphW g (o + 4) 1 (setGraphW g (o + 8) (cw c 2) s))
  let s := setGraphW g (o + 12) (cw c 3) (setGraphW g (o + 16) (cw c 4) (setGraphW g (o + 20) (cw c 5) s))
  let old := graphCur g s
  let s := setGraphW g 0x1C (w32 (n + 1)) (setGraphW g 4 (w32 (ver + v * 2 ^ 16 + 2 ^ 19)) s)
  let s := match old with | some p => verDrop g p s | none => s
  lvnOk j g ver s

/-- GRAPH_COMMIT with RETIRE = 0: the handles, their references, the version. -/
def commitAct (o : Owner) (slot j : Nat) (c : List Word) (s : State) : State :=
  let g := fld (cw c 1) 0 12
  let r := jobRefOf o j s
  match graphOwned g slot s, verFree g s with
  | true, some v =>
    match checkRange r (cw c 2) (cw c 3).toNat (32 * (cw c 4).toNat) s with
    | (.error rd, s) => lvnFail j g 0 rd.1 s
    | (.ok _, s) =>
      match (if cw c 5 = 0 then (.ok 0, s) else checkRange r (cw c 5) 0 0 s : Except (Nat × Nat) Nat × State) with
      | (.error rd, s) => lvnFail j g 0 rd.1 s
      | (.ok _, s) =>
        match acquireRef r (cw c 2) s with
        | (.error e, s) => lvnFail j g 0 e s
        | (.ok _, s) =>
          match acquireRef r (cw c 5) s with
          | (.error e, s) => lvnFail j g 0 e (leavenDrop slot (cw c 2) s)
          | (.ok _, s) => commitVer j g v c s
  | _, _ => lvnFail j g 0 rGraphEmpty s

/-- GRAPH_COMMIT with RETIRE = 1. -/
def retireAct (_ : Owner) (slot j : Nat) (c : List Word) (s : State) : State :=
  let g := fld (cw c 1) 0 12
  if graphOwned g slot s then lvnOk j g 0 (dropCurrent g s) else lvnFail j g 0 rGraphEmpty s

/-! ## SESS_STEP (R212, R213, R216, R225, R227) -/

/-- Records that Leaven holds on die (R212). -/
abbrev onDieMax : Nat := 8192

/-- A SESS_STEP is held: parking, PEND = 255, or no room on die (R212, Table 8-3). -/
def stepHeld (slot : Nat) (c : List Word) (s : State) : Bool :=
  let i := sessIdx c
  let st := sessState i s
  sessNamed slot c s && !(sessBad i s) &&
    (st == 4 || ((st == 2 || st == 3) && sessPend i s == 255) ||
      ((st == 1 || st == 5) && onDieMax ≤ s.lvn.onDie.length))

/-- A step starts: its version's hold, the record on die, PEND, and the pending step itself. -/
def stepEnter (j i v : Nat) (c : List Word) (s : State) : State :=
  let g := sessGraph i s
  let ver := fld (graphW g (verOff v) s) 0 16
  let s := sessLoad i (verAdd g v s)
  let st := sessState i s
  let s := setSessPend i (sessPend i s + 1) s
  let s := if st = 1 then setSessState i 2 s else if st = 5 then setSessState i 6 s else s
  let x : SStep :=
    { session := i, job := j, graph := g, ver := ver, vi := v, start := s.lvn.us, user := cw64 c 3,
      deadline := (sessW i 8 s).toNat, crit := sessCrit i s }
  { s with lvn := { s.lvn with steps := s.lvn.steps ++ [x] } }

/-- The engine of park and restore. -/
def parkEngine (s : State) : Nat := getFld pgLvn 0 0x100 3 1 s

/-- A step on a PARKED session: the new region, its reference, then the restore (R225). -/
def stepRestore (r : JobRef) (slot j i v : Nat) (c : List Word) (s : State) : State :=
  if (sessW i 0x1C s).toNat < (sessW i 0x18 s).toNat then lvnFail j i 0 rKvRange s
  else
    match kvRegion r (cw c 5) (cw c 6).toNat (sessW i 0x1C s).toNat s with
    | (.error e, s) => lvnFail j i 0 e s
    | (.ok _, s) =>
      match acquireRef r (cw c 5) s with
      | (.error e, s) => lvnFail j i 0 e s
      | (.ok _, s) =>
        let s := stepEnter j i v c s
        let s := { s with lvn := { s.lvn with restores := tabSet i (slot, cw c 5, (cw c 6).toNat) s.lvn.restores } }
        czQueue (parkEngine s) (.restore i) s

/-- SESS_STEP of a session: Table 8-3 has one start in IDLE, READY, RUNNING and PARKED. -/
def stepAct (o : Owner) (slot j : Nat) (c : List Word) (s : State) : State :=
  let i := sessIdx c
  let st := sessState i s
  if !(sessNamed slot c s) then lvnFail j i 0 0x0003 s
  else if st = 0 ∨ st = 4 ∨ 5 < st then lvnFail j i 0 rSessState s
  else
    match graphFails (sessGraph i s) s with
    | (true, s) => lvnFail j i 0 0x0015 s
    | (false, s) =>
      match graphCur (sessGraph i s) s with
      | none => lvnFail j i 0 rGraphEmpty s
      | some v => if st = 5 then stepRestore (jobRefOf o j s) slot j i v c s else stepEnter j i v c s

/-! ## SESS_CLOSE (R216, R224) -/

/-- A close is held until the session is IDLE or PARKED; a park of a PARKED session is not held. -/
def closeHeld (slot : Nat) (c : List Word) (s : State) : Bool :=
  let st := sessState (sessIdx c) s
  sessNamed slot c s && !(sessBad (sessIdx c) s) && (st == 2 || st == 3 || st == 4 || st == 6)

/-- SESS_CLOSE with PARK = 0. -/
def closeAct (_ : Owner) (slot j : Nat) (c : List Word) (s : State) : State :=
  let i := sessIdx c
  let st := sessState i s
  if !(sessNamed slot c s) then lvnFail j i 0 0x0003 s
  else if st = 1 ∨ st = 5 then lvnOk j i 0 (freeSession slot i s)
  else lvnFail j i 0 rSessState s

/-- A park starts: its reference, the SPILL fields, the engine (R224). -/
def parkStart (r : JobRef) (j i : Nat) (c : List Word) (s : State) : State :=
  match acquireRef r (cw c 3) s with
  | (.error e, s) => lvnFail j i 0 e s
  | (.ok _, s) =>
    let s := setSessW i 0x20 (cw c 3) (setSessW i 0x24 (cw c 4) (setSessW i 0x2C (cw c 5) (setSessState i 4 s)))
    czQueue (parkEngine s) (.park i) { s with lvn := { s.lvn with parks := tabSet i j s.lvn.parks } }

/-- SESS_CLOSE with PARK = 1. -/
def parkAct (o : Owner) (slot j : Nat) (c : List Word) (s : State) : State :=
  let i := sessIdx c
  let r := jobRefOf o j s
  let n := (sessW i 0x18 s).toNat
  if !(sessNamed slot c s) then lvnFail j i 0 0x0003 s
  else if sessState i s ≠ 1 then lvnFail j i 0 rSessState s
  else if (cw c 5).toNat < n + (n + 63) / 64 + 64 then lvnFail j i 0 rSpillSpace s
  else
    match checkRange r (cw c 3) (cw c 4).toNat (cw c 5).toNat s with
    | (.error rd, s) => lvnFail j i 0 rd.1 s
    | (.ok _, s) =>
      if n = 0 then parkStart r j i c s
      else
        match checkRange r (sessW i 0x10 s) (sessW i 0x14 s).toNat n s with
        | (.error rd, s) => lvnFail j i 0 rd.1 s
        | (.ok _, s) => parkStart r j i c s

/-- The name of accesses that Leaven makes for a command that may have ended: its job's, or none. -/
def lvnRef (slot j : Nat) (s : State) : JobRef := { jobRef j s with slot := slot }

/-- A park that an access stops: the session is IDLE again, without the spill (R224 states no failure). -/
def parkFail (slot i j reason : Nat) (s : State) : State :=
  let sp := sessW i 0x20 s
  let s := setSessW i 0x20 0 (setSessW i 0x24 0 (setSessW i 0x28 0 (setSessW i 0x2C 0 (setSessState i 1 s))))
  lvnFail j i 0 reason (leavenDrop slot sp s)

/-- The park's compressed stream: the element size and the tables of the stream are not stated and are free. -/
def parkStream (data : List Byte) (s : State) : (List Byte × Nat) × State :=
  let (f, s) := takeFree s
  let e := if data.length % 2 ^ (f % 3) = 0 then f % 3 else 0
  let h : CzHdr :=
    { tensor := true, esz := e, pred := 5, nc0 := 0, nc1 := 0, rb0 := 0, rb1 := 0, rows0 := 0, rows1 := 0, cs := 0 }
  let r := czCompress h [] data 0 (f / 3 % 2 = 1) true true 0xFFFFFFFF#32
  ((r.1, (r.2.filter (·.2.1)).length), s)

/-- The longest stream of `n` bytes (R294). -/
def parkBound (n : Nat) : Nat := n + 8 * max 1 ((n + 65535) / 65536) + 48

/-- The park's data read: the KV cache, or nothing. -/
def parkRead (r : JobRef) (z slot i : Nat) (s : State) : Except Nat (List Byte) × State :=
  let n := (sessW i 0x18 s).toNat
  if n = 0 then (.ok [], s)
  else
    match checkRange r (sessW i 0x10 s) (sessW i 0x14 s).toNat n s with
    | (.error rd, s) => (.error rd.1, s)
    | (.ok va, s) =>
      match vaReadAll (rqCz z) slot va n .rd s with
      | (.error (e, at'), s) => let (rd, s) := accessFault (rqCz z) r at' .rd e s; (.error rd.1, s)
      | (.ok bs, s) => (.ok bs, s)

/-- Bytes written into a range of an object. -/
def lvnWrite (r : JobRef) (z slot : Nat) (h : Word) (off : Nat) (bs : List Byte) (s : State) : Except Nat Unit × State :=
  match checkRange r h off bs.length s with
  | (.error rd, s) => (.error rd.1, s)
  | (.ok va, s) =>
    match vaWriteAll (rqCz z) slot va bs s with
    | (.error (e, at'), s) => let (rd, s) := accessFault (rqCz z) r at' .wr e s; (.error rd.1, s)
    | (.ok _, s) => (.ok (), s)

/-- PARK_COMPLETE: the KV cache compressed into the spill stream (R224 steps 2 to 4). -/
def parkDone (z i : Nat) (s : State) : State :=
  let j := tabGet 0 i s.lvn.parks
  let slot := sessSlot i s
  let s := czLeave (.park i) { s with lvn := { s.lvn with parks := tabDel i s.lvn.parks } }
  let r := lvnRef slot j s
  match parkRead r z slot i s with
  | (.error e, s) => parkFail slot i j e (czFailed z false (czPartial z (sessW i 0x18 s).toNat (parkBound (sessW i 0x18 s).toNat) s))
  | (.ok data, s) =>
    let ((out, raw), s) := parkStream data s
    match lvnWrite r z slot (sessW i 0x20 s) (sessW i 0x24 s).toNat out s with
    | (.error e, s) => parkFail slot i j e (czFailed z false (czPartial z data.length (parkBound data.length) s))
    | (.ok _, s) =>
      let s := addFld (pgCz z) 0 0x110 0 32 raw (czMib z 0x10C out.length (czMib z 0x108 data.length s))
      let kv := sessW i 0x10 s
      let s := leavenDrop slot kv (setSessW i 0x28 (w32 out.length) s)
      lvnOk j i 0 (setSessState i 5 (setSessW i 0x10 0 (setSessW i 0x14 0 s)))

/-- A session leaves parking or restoring. -/
def sessCancel (i : Nat) (s : State) : State :=
  let s := { s with lvn := { s.lvn with parks := tabDel i s.lvn.parks, restores := tabDel i s.lvn.restores } }
  czLeave (.restore i) (czLeave (.park i) s)

/-- PARK_COMPLETE of a session that is PARKING with a context. -/
def parkComplete (i : Nat) (s : State) : State :=
  match czCtxOf (.park i) s with
  | some k => if sessState i s = 4 then parkDone (k / 4) i s else sessCancel i s
  | none => s

/-- The pending steps of a session that no batch holds. -/
def sessSteps (i : Nat) (s : State) : List SStep := s.lvn.steps.filter (fun x => x.session == i)

/-- A restore that fails: the session is PARKED again without the new region, and its pending steps end (R225 states no
failure of the decompression). -/
def restoreFail (slot i reason : Nat) (h : Word) (s : State) : State :=
  let mine := sessSteps i s
  let s := leavenDrop slot h (sessLeave i (setSessPend i 0 (setSessState i 5 s)))
  let s := { s with lvn := { s.lvn with steps := s.lvn.steps.filter (fun x => x.session != i) } }
  mine.foldl (fun s x => stepVerDrop x (lvnFail x.job i x.ver reason s)) s

/-- The spill stream decompressed into the new region. -/
def restoreData (r : JobRef) (z slot i : Nat) (h : Word) (off : Nat) (s : State) : Except Nat (Nat × Nat) × State :=
  let n := (sessW i 0x28 s).toNat
  match checkRange r (sessW i 0x20 s) (sessW i 0x24 s).toNat n s with
  | (.error rd, s) => (.error rd.1, czFailed z false s)
  | (.ok va, s) =>
    match vaReadAll (rqCz z) slot va n .rd s with
    | (.error (e, at'), s) =>
      let (rd, s) := accessFault (rqCz z) r at' .rd e s
      (.error rd.1, czFailed z false (czPartial z n (sessW i 0x1C s).toNat s))
    | (.ok bs, s) =>
      match czDecompress none [] bs 0 (sessW i 0x1C s).toNat true true 0xFFFFFFFF#32 with
      | .error e => let (x, s) := czReason e n s; (.error x.1, czFailed z x.2.2 (czPartial z n (sessW i 0x1C s).toNat s))
      | .ok (out, _) =>
        match lvnWrite r z slot h off out s with
        | (.error e, s) => (.error e, czFailed z false (czPartial z n (sessW i 0x1C s).toNat s))
        | (.ok _, s) => (.ok (n, out.length), s)

/-- RESTORE_COMPLETE: the KV cache stands in its new region (R225). -/
def restoreDone (z i : Nat) (s : State) : State :=
  let (slot, h, off) := tabGet (0, 0, 0) i s.lvn.restores
  let s := czLeave (.restore i) { s with lvn := { s.lvn with restores := tabDel i s.lvn.restores } }
  let j := match sessSteps i s with | x :: _ => x.job | [] => s.fe.nextJob
  match restoreData (lvnRef slot j s) z slot i h off s with
  | (.error e, s) => restoreFail slot i e h s
  | (.ok (n, m), s) =>
    let s := czMib z 0x10C m (czMib z 0x108 n s)
    let sp := sessW i 0x20 s
    let s := setSessW i 0x10 h (setSessW i 0x14 (w32 off) s)
    let s := setSessW i 0x20 0 (setSessW i 0x24 0 (setSessW i 0x28 0 (setSessW i 0x2C 0 s)))
    let s := leavenDrop slot sp s
    if sessPend i s = 0 then sessLeave i (setSessState i 1 s) else setSessState i 2 s

/-- RESTORE_COMPLETE of a session that is RESTORING with a context. -/
def restoreComplete (i : Nat) (s : State) : State :=
  match czCtxOf (.restore i) s with
  | some k => if sessState i s = 6 then restoreDone (k / 4) i s else sessCancel i s
  | none => s

/-! ## Batch formation (R21, R22, R217, R218) -/

/-- The oldest pending step of each READY session. -/
def readySteps (s : State) : List SStep :=
  s.lvn.steps.foldl (fun l x =>
    if sessState x.session s == 2 && !(l.any (fun y => y.session == x.session)) then l ++ [x] else l) []

/-- The head step: lowest PRIO, then the earliest start, then the lowest session index. -/
def headStep (s : State) : Option SStep :=
  (readySteps s).foldl (fun h x =>
    match h with
    | none => some x
    | some y =>
      let a := (sessPrio x.session s, x.start, x.session)
      let b := (sessPrio y.session s, y.start, y.session)
      if a.1 < b.1 || (a.1 == b.1 && (a.2.1 < b.2.1 || (a.2.1 == b.2.1 && a.2.2 < b.2.2))) then some x else h) none

/-- A field that acts as its nearest limit where it lies outside it. -/
def limited (lo hi v : Nat) : Nat := max lo (min hi v)

/-- The allowance A of R217. -/
def stepAllowance (g : Nat) (s : State) : Nat :=
  (getReg pgPwr 0 0x1A8 s).toNat * limited 1 256 (getFld pgLvn 0 0x100 8 9 s) / 256 * (graphW g 0x18 s).toNat / 100 /
    (s.lvn.batches.length + 1)

/-- A class admitted in part goes round-robin from its pointer, which moves to the last session admitted (R218). -/
def roundRobin (c take : Nat) (l : List Nat) (s : State) : List Nat × State :=
  if take = 0 ∨ take = l.length then (l.take take, s)
  else
    let p := tabGet 0 c s.lvn.ptr
    let got := ((l.filter (p ≤ ·)) ++ (l.filter (· < p))).take take
    (got, { s with lvn := { s.lvn with ptr := tabSet c (got.getLastD 0 + 1) s.lvn.ptr } })

/-- A number put into a rising list. -/
def insertNat (a : Nat) : List Nat → List Nat
  | [] => [a]
  | b :: t => if a ≤ b then a :: b :: t else b :: insertNat a t

/-- Sessions admitted class by class, within the room and the width limit. -/
def admitClasses (room cap : Nat) (cands : List (Nat × Nat)) : List Nat → List Nat → State → List Nat × State
  | [], acc, s => (acc, s)
  | c :: t, acc, s =>
    let l := (cands.filter (fun e => e.2 == c)).foldl (fun l e => insertNat e.1 l) []
    let w := acc.length
    let take := min l.length (min (room - min room w) (cap - w))
    let (got, s) := roundRobin c take l s
    if take < l.length then (acc ++ got, s) else admitClasses room cap cands t (acc ++ got) s

/-- A 32-bit field's value; the manual states no value for a number that does not fit: it is free. -/
def fit32 (n : Nat) (s : State) : Nat × State :=
  if n < 2 ^ 32 then (n, s) else let (f, s) := takeFree s; (f % 2 ^ 32, s)

/-- KV_VA of an entry: the object's address and KV_OFF; without a usable handle the value is not stated and is free. -/
def entryKv (r : JobRef) (i : Nat) (s : State) : Nat × State :=
  match checkHandle { r with slot := sessSlot i s } (sessW i 0x10 s) s with
  | (.ok e, s) => (e.base + (sessW i 0x14 s).toNat, s)
  | (.error _, s) => let (f, s) := takeFree s; (f % 2 ^ 64, s)

/-- The 64 bytes of an entry of the batch record (Table 8-4). -/
def entryBytes (r : JobRef) (x : SStep) (s : State) : List Byte × State :=
  let i := x.session
  let (kv, s) := entryKv r i s
  (toLE 4 i ++ toLE 4 (sessGen i s + sessPrio i s * 2 ^ 16) ++ toLE 8 x.user ++ toLE 8 kv ++
    toLE 4 (sessW i 0x18 s).toNat ++ toLE 4 (sessW i 0x1C s).toNat ++ toLE 4 (sessW i 0x48 s).toNat ++
    List.replicate 28 0, s)

/-- The batch record (Table 8-4). -/
def batchRecord (r : JobRef) (x : Batch) (seq allow : Nat) (s : State) : List Byte × State :=
  let w := x.entries.length
  let (a, s) := fit32 allow s
  let (e, s) := fit32 ((graphW x.graph 0x10 s).toNat + w * (graphW x.graph 0x14 s).toNat) s
  let head := toLE 4 w ++ toLE 4 (x.graph + x.ver * 2 ^ 16) ++ toLE 4 seq ++ toLE 4 (getReg pgPwr 0 0x1A0 s).toNat ++
    toLE 4 a ++ toLE 4 e ++ List.replicate 40 0
  x.entries.foldl (fun p y => let (b, s) := entryBytes r y p.2; (p.1 ++ b, s)) (head, s)

/-- The batch object's check: HANDLE_RANGE means that it is too small (Table 8-5). -/
def batchArea (r : JobRef) (h : Word) (s : State) : Except Nat Nat × State :=
  match checkRange r h 0 ((getFld pgLvn 0 0x100 1 2 s + 1) * 65536) s with
  | (.ok va, s) => (.ok va, s)
  | (.error rd, s) => (.error (if rd.1 = 0x0004 then rBatchArea else rd.1), s)

/-- A batch's start: its record, then its commands; or the reason why the step cannot run (R219, R220). -/
def batchStart (b : Nat) (r : JobRef) (x : Batch) (seq allow : Nat) (s : State) : Except Nat Frame × State :=
  match batchArea r x.area s with
  | (.error e, s) => (.error e, s)
  | (.ok base, s) =>
    let (bs, s) := batchRecord r x seq allow s
    match vaWriteAll rqLvn x.slot (base + b * 65536) bs s with
    | (.error (e, at'), s) => let (rd, s) := accessFault rqLvn r at' .wr e s; (.error rd.1, s)
    | (.ok _, s) =>
      let o := verOff x.vi
      let n := (graphW x.graph (o + 16) s).toNat
      match checkRange r (graphW x.graph (o + 8) s) (graphW x.graph (o + 12) s).toNat (32 * n) s with
      | (.error rd, s) => (.error rd.1, s)
      | (.ok va, s) => (.ok { base := va, count := n, pos := 0, left := 0, cmd := [] }, s)

/-- The clusters of a graph; 0 names every one. -/
def graphMask (g : Nat) (s : State) : Nat := let m := fld (graphW g 8 s) 0 16; if m = 0 then 0xFFFF else m

/-- The batch of some admitted steps put into a batch slot. -/
def batchPut (b : Nat) (h : SStep) (es : List SStep) (allow : Nat) (s : State) : State :=
  let g := h.graph
  let slot := fld (graphW g 0 s) 8 6
  let x : Batch :=
    { graph := g, ver := h.ver, vi := h.vi, slot := slot, entries := es, mask := graphMask g s,
      dma := fld (graphW g 8 s) 16 2, prio := es.foldl (fun m y => min m (sessPrio y.session s)) 7, param := graphW g (verOff h.vi + 20) s, area := graphW g 0x0C s, str := {} }
  let first := match es with | y :: _ => jobRef y.job s | [] => ⟨0, 0, 0, true⟩
  let seq := s.lvn.seq
  let s := { s with
    lvn := { s.lvn with
      seq := (seq + 1) % 2 ^ 32, batches := tabSet b x s.lvn.batches,
      steps := s.lvn.steps.filter (fun y => !(es.any (fun e => e.job == y.job))) },
    fe := { s.fe with batchRef := tabSet b (first.slot, first.queue, first.start) s.fe.batchRef } }
  let s := es.foldl (fun s y => setSessState y.session 3 s) s
  let r : JobRef := { first with slot := slot }
  match graphFails g s with
  | (true, s) => setBatch b { x with fail := some (0, 1, 0x0015) } s
  | (false, s) =>
    match batchStart b r x seq allow s with
    | (.error e, s) => setBatch b { x with fail := some (0, 1, e) } s
    | (.ok f, s) => setBatch b { x with str := { frames := [f] } } s

/-- The lowest free batch slot. -/
def freeBatch (s : State) : Option Nat :=
  (List.range (getFld pgLvn 0 0x100 1 2 s + 1)).find? (fun b => (tabFind b s.lvn.batches).isNone)

/-- The batch formed around a head step (R217). -/
def formAround (b : Nat) (h : SStep) (s : State) : State :=
  let cands := (readySteps s).filter (fun x => x.graph == h.graph && x.ver == h.ver && x.vi == h.vi)
  let a := stepAllowance h.graph s
  let fixed := (graphW h.graph 0x10 s).toNat
  let room := if fixed < a then (a - fixed) / max (graphW h.graph 0x14 s).toNat 1 else 0
  let cap := limited 1 512 (getFld pgLvn 0 0x118 0 10 s)
  let (got, s) := admitClasses room cap (cands.map (fun x => (x.session, sessPrio x.session s))) (List.range 8) [] s
  let s := if got.isEmpty then count32 pgLvn 0 0x138 s else s
  let ids := if got.isEmpty then [h.session] else got
  let es := ids.filterMap (fun i => cands.find? (fun x => x.session == i))
  let s := addFld pgLvn 0 0x134 0 32 (cands.length - es.length) (count32 pgLvn 0 0x12C s)
  let cls := es.foldl (fun m x => max m (sessPrio x.session s)) 0
  let s := setReg pgLvn 0 0x13C (w32 (es.length + cls * 2 ^ 16)) (setReg pgLvn 0 0x140 (getReg pgPwr 0 0x1A0 s) s)
  batchPut b h es a s

/-- The cores of a graph. -/
def graphCores (g : Nat) (s : State) : List Nat := (List.range 80).filter (fun p => nbits (graphMask g s) (p / 5) 1 == 1)

/-- BATCH_FORM; in DOZE the batch waits for its gated clusters (R333). -/
def batchForm (s : State) : State :=
  if dark pgLvn s || !(bit (getReg pgLvn 0 0x100 s) 0) then s
  else
    match freeBatch s, headStep s with
    | some b, some h => if dozeHold (graphCores h.graph s) s then endDoze s else formAround b h s
    | _, _ => s

/-! ## The end of a batch (R221, R223, R229) -/

/-- The 32 bits of a signed quotient rounded towards zero added to a word (R229). -/
def ease (old new : Nat) : Word := w32 ((old : Int) + Int.tdiv ((new : Int) - old) 8).toNat

/-- The KV_LEN that a graph left in an entry: none where it cannot be read. -/
def entryKvLen (b k : Nat) (x : Batch) (s : State) : Option Nat × State :=
  let r := { ownRef (.batch b) s with slot := x.slot }
  match checkRange r x.area (b * 65536 + 0x40 + 64 * k + 0x18) 4 s with
  | (.error _, s) => (none, s)
  | (.ok va, s) =>
    match vaRead rqLvn x.slot va 4 .rd s with
    | (.error e, s) => (none, (accessFault rqLvn r va .rd e s).2)
    | (.ok bs, s) => (some (leNat bs), s)

/-- An entry's new KV_LEN taken over, and whether it is beyond KV_CAP (R221 step 1). -/
def takeKvLen (b k i : Nat) (x : Batch) (s : State) : Bool × State :=
  if x.fail.any (fun f => f.1 == 0) then (false, s)
  else
    match entryKvLen b k x s with
    | (none, s) => (false, s)
    | (some n, s) => if (sessW i 0x1C s).toNat < n then (true, s) else (false, setSessW i 0x18 (w32 n) s)

/-- A session's record after its step (Table 8-1, R229). -/
def sessAfter (x : Batch) (y : SStep) (share : Nat) (s : State) : State :=
  let i := y.session
  let acc := satAdd (2 ^ 64 - 1) ((sessW i 0x40 s).toNat + (sessW i 0x44 s).toNat * 2 ^ 32) share
  let s := setSessW i 0x40 (w32 acc) (setSessW i 0x44 (w32 (acc / 2 ^ 32)) s)
  let s := setSessW i 0x48 (sessW i 0x48 s + 1) (setSessW i 0x50 (w32 share) s)
  let s := setSessW i 0x54 (w32 x.ver) (setSessW i 0x58 (w32 (s.lvn.us - y.start)) s)
  let p := sessPend i s - 1
  let s := setSessPend i p s
  if p = 0 then sessLeave i (setSessState i 1 s) else sessSync i (setSessState i 2 s)

/-- Status and reason of an entry's record: a failure of the step, one of the entry's own, a deadline miss, or OK. -/
def entryStatus (x : Batch) (y : SStep) (bad : Option Nat) : Nat × Nat :=
  match x.fail with
  | some (_, st, r) => (st, r)
  | none => match bad with | some e => (1, e) | none => if y.missed then (if y.crit then 1 else 0, rDeadline) else (0, 0)

/-- The record of an entry's SESS_STEP, unless it has ended already (R221, R222). -/
def entryRecord (x : Batch) (y : SStep) (bad : Option Nat) (share : Nat) (s : State) : State :=
  if y.gone then s
  else
    let sr := entryStatus x y bad
    let s := endJob y.job sr.1 sr.2 (lvnDetail y.session y.ver) s
    match tabFind y.job s.fe.jobs with
    | some b =>
      match b.fin with
      | some f => stepVerDrop y (retireJob y.job { b with flags := x.flags } f share s)
      | none => s
    | none => stepVerDrop y s

/-- A step has reached its deadline and is no miss yet. -/
def dueStep (i : Nat) (s : State) (x : SStep) : Bool :=
  x.session == i && x.deadline != 0 && !x.missed && !x.gone && x.start + x.deadline ≤ s.lvn.us

/-- A miss of a step: the counts and the view (R223). -/
def missStep (i job : Nat) (crit : Bool) (s : State) : State :=
  let s := setSessW i 0x4C (w32 (satAdd (2 ^ 32 - 1) (sessW i 0x4C s).toNat 1)) (count32 pgLvn 0 0x130 s)
  let r := jobRef job s
  let fn := (slotOf r.slot s).func
  let s := viewEvent fn 3 r.slot r.queue (nextSeq r s) s
  if crit then viewEvent fn 5 r.slot r.queue (nextSeq r s) s else s

/-- One entry of an ended batch. A step whose deadline has passed by then is a miss (R223). -/
def entryEnd (b : Nat) (x : Batch) (k : Nat) (y : SStep) (s : State) : State :=
  let w := x.entries.length
  let i := y.session
  let share := x.energy / w + (if k < x.energy % w then 1 else 0)
  if sessState i s = 3 then
    let (ue, s) := sessFails i s
    let due := dueStep i s y
    let s := if due then missStep i y.job y.crit s else s
    let (bad, s) := takeKvLen b k i x s
    entryRecord x { y with missed := y.missed || due } (if ue then some 0x0015 else if bad then some rKvRange else none) share
      (sessAfter x y share s)
  else entryRecord x y none share s

/-- The graph's estimates after a batch (R229). -/
def graphEstimates (x : Batch) (s : State) : State :=
  let fixed := (graphW x.graph 0x10 s).toNat
  let per := if fixed < x.energy then (x.energy - fixed) / x.entries.length else 0
  let t := if x.issue = 0 then 0 else s.lvn.us - x.start
  let s := setGraphW x.graph 0x14 (ease (graphW x.graph 0x14 s).toNat per) s
  setGraphW x.graph 0x18 (ease (graphW x.graph 0x18 s).toNat t) s

/-- Every job and command of a batch's step has ended. -/
def batchOver (b : Nat) (x : Batch) (s : State) : Bool :=
  x.str.frames.isEmpty && x.str.wait.isNone && (ownJobs (.batch b) s).isEmpty

/-- BATCH_END: each session's record and completion record, in entry order. -/
def batchFinish (b : Nat) (s : State) : State :=
  match batchOf b s with
  | none => s
  | some x =>
    if !(batchOver b x s) then s
    else
      let es := (List.range x.entries.length).zip x.entries
      let s := es.foldl (fun s e => entryEnd b x e.1 e.2 s) (if bit (graphW x.graph 0 s) 0 then graphEstimates x s else s)
      { s with
        lvn := { s.lvn with batches := tabDel b s.lvn.batches },
        fe := { s.fe with batchRef := tabDel b s.fe.batchRef } }

/-! ## Timers and deadlines (R222, R223) -/

/-- The rest of a batch's step is stopped: its jobs end, a WAIT ends, its unstarted commands are skipped. -/
def stopStep (b status reason : Nat) (endOne : Nat → State → State) (s : State) : State :=
  let o := Owner.batch b
  let s := (ownJobs o s).foldl (fun s e => endOne e.1 s) s
  let s := waitDone o (.failed status reason 0) s
  streamFail o (failNo o s + 1) status reason s

/-- STEP_TIMEOUT: the step timer has reached STEP_TMO. -/
def stepTimeout (b : Nat) (s : State) : State :=
  match batchOf b s with
  | none => s
  | some x =>
    if x.timer < max 1 (getReg pgLvn 0 0x11C s).toNat || batchOver b x s then s
    else stopStep b 2 0x0005 timeoutEngine s

/-- DEADLINE_MISS: the first due step of a session, in a batch or pending. -/
def deadlineMiss (i : Nat) (s : State) : State :=
  let mark := fun (x : SStep) (y : SStep) => if y.job = x.job then { y with missed := true } else y
  match s.lvn.batches.find? (fun b => b.2.entries.any (dueStep i s)) with
  | some (b, x) =>
    match x.entries.find? (dueStep i s) with
    | some y => missStep i y.job y.crit (setBatch b { x with entries := x.entries.map (mark y) } s)
    | none => s
  | none =>
    match s.lvn.steps.find? (dueStep i s) with
    | some y => missStep i y.job y.crit { s with lvn := { s.lvn with steps := s.lvn.steps.map (mark y) } }
    | none => s

/-! ## Steps that end by themselves, and teardown (R222, R230) -/

/-- A pending step is taken out of its session: PEND decreases, and a READY session without steps is IDLE. -/
def stepRemove (x : SStep) (s : State) : State :=
  let i := x.session
  let s := { s with lvn := { s.lvn with steps := s.lvn.steps.filter (fun y => y.job != x.job) } }
  if sessState i s = 0 then s
  else
    let p := sessPend i s - 1
    let s := setSessPend i p s
    if sessState i s = 2 ∧ p = 0 then sessLeave i (setSessState i 1 s) else s

/-- DETAIL of a Leaven command that ends from outside: its session or graph, and for a SESS_STEP the version it captured (R221). -/
def stopDetail (j : Nat) (s : State) : Nat :=
  match tabFind j s.fe.jobs with
  | none => 0
  | some b =>
    let w := cw b.cmd 1
    let all := s.lvn.steps ++ (s.lvn.batches.map (fun e => e.2.entries)).flatten
    let ver := match all.find? (fun x => x.job == j) with | some x => x.ver | none => 0
    lvnDetail (if opOf b.cmd = 0x0B then fld w 0 12 else fld w 0 18) ver

/-- A SESS_STEP whose batch runs takes the flags of the batch's jobs so far (R59, R221). -/
def stepFlags (j : Nat) (s : State) : State :=
  match s.lvn.batches.find? (fun b => b.2.entries.any (fun x => x.job == j)), tabFind j s.fe.jobs with
  | some (n, x), some b =>
    setJob j { b with flags := (ownJobs (.batch n) s).foldl (fun f e => f ||| e.2.flags) (b.flags ||| x.flags) } s
  | _, _ => s

/-- The job of a Leaven command ends from outside: a pending step is removed, one in a batch gets no second record. -/
def lvnStop (j status reason : Nat) (s : State) : State :=
  let s := endJob j status reason (stopDetail j s) (stepFlags j s)
  match s.lvn.steps.find? (fun x => x.job == j) with
  | some x => stepVerDrop x (stepRemove x s)
  | none =>
    match s.lvn.batches.find? (fun b => b.2.entries.any (fun x => x.job == j && !x.gone)) with
    | some (b, x) =>
      let s := setBatch b { x with entries := x.entries.map (fun y => if y.job = j then { y with gone := true } else y) } s
      match x.entries.find? (fun y => y.job == j) with
      | some y => stepVerDrop y s
      | none => s
    | none => s

/-- A batch stops for its slot's end: its jobs end, nothing more starts, and its entries get one record each. -/
def batchKill (b status reason : Nat) (s : State) : State :=
  let s := stopStep b status reason (fun j s => endEngine j status reason 0 s) s
  match batchOf b s with
  | some x => setBatch b { x with fail := some (0, status, reason), str := { x.str with frames := [] } } s
  | none => s

/-- The handle of the region that a session is being restored into, if it is. -/
def restoreRef (slot i : Nat) (s : State) : State :=
  match tabFind i s.lvn.restores with
  | some (_, h, _) => leavenDrop slot h s
  | none => s

/-- A slot is released or killed (R230): its pending steps and its batches stop, its sessions are FREE, its graphs have no
current version. -/
def leavenKill (slot : Nat) (s : State) : State :=
  let mine := (sessWindow (slotOf slot s).func s).filter (fun i => sessState i s != 0 && sessSlot i s == slot)
  let s := (s.lvn.steps.filter (fun x => mine.contains x.session)).foldl (fun s x => lvnStop x.job 4 0x0007 s) s
  let s := (s.lvn.batches.filter (fun b => b.2.slot == slot)).foldl (fun s b => batchKill b.1 4 0x0007 s) s
  let s := mine.foldl (fun s i => sessCancel i (restoreRef slot i s)) s
  leavenTeardown slot s

/-- A function is disabled (R230): pending steps end, its sessions are FREE, VALID of its graphs is clear, no reference is
released. -/
def leavenDisable (fn : Nat) (s : State) : State :=
  let mine := (sessWindow fn s).filter (fun i => sessState i s != 0)
  let s := (graphsWith (fun g => bit (graphW g 0 s) 0 && fld (graphW g 0 s) 14 6 == fn) s).foldl
    (fun s g => setGraphW g 0 (putFld (graphW g 0 s) 0 1 0) s) s
  let s := (s.lvn.steps.filter (fun x => mine.contains x.session)).foldl (fun s x => lvnStop x.job 4 0x0008 s) s
  let s := (s.lvn.batches.filter (fun b => (slotOf b.2.slot s).func == fn)).foldl (fun s b => batchKill b.1 4 0x0008 s) s
  mine.foldl (fun s i => sessLeave i (setSessState i 0 (sessCancel i s))) s

/-! ## Meanings -/

/-- A command of GRAPH_COMMIT or SESS_CLOSE with its flag, RETIRE or PARK. -/
def selFlag (op flag : Nat) (c : List Word) : Bool := opOf c == op && argsOf c % 2 == flag

/-- SESS_OPEN (R215). -/
def execSessOpen (fe : Fetcher) (s : State) : Out :=
  toNext (onCommand fe (selOp 0x08) (lvnCmd (fun _ _ _ => false) (onSession openAct)) s)

/-- SESS_STEP (R216, R227). -/
def execSessStep (fe : Fetcher) (s : State) : Out := toNext (onCommand fe (selOp 0x09) (lvnCmd stepHeld (onSession stepAct)) s)

/-- SESS_CLOSE with PARK = 0 (R216). -/
def execSessClose (fe : Fetcher) (s : State) : Out := toNext (onCommand fe (selFlag 0x0A 0) (lvnCmd closeHeld (onSession closeAct)) s)

/-- SESS_CLOSE with PARK = 1 (R224). -/
def execSessPark (fe : Fetcher) (s : State) : Out := toNext (onCommand fe (selFlag 0x0A 1) (lvnCmd closeHeld (onSession parkAct)) s)

/-- PARK_COMPLETE (R224). -/
def execParkComplete (session : Nat) (s : State) : Out := toNext (parkComplete session s)

/-- RESTORE_COMPLETE (R225). -/
def execRestoreComplete (session : Nat) (s : State) : Out := toNext (restoreComplete session s)

/-- GRAPH_COMMIT with RETIRE = 0 (R228). -/
def execGraphCommit (fe : Fetcher) (s : State) : Out :=
  toNext (onCommand fe (selFlag 0x0B 0) (lvnCmd commitHeld (onGraph commitAct)) s)

/-- GRAPH_COMMIT with RETIRE = 1 (R228). -/
def execGraphRetire (fe : Fetcher) (s : State) : Out :=
  toNext (onCommand fe (selFlag 0x0B 1) (lvnCmd (fun _ _ _ => false) (onGraph retireAct)) s)

/-- BATCH_FORM (R217). -/
def execBatchForm (s : State) : Out := toNext (batchForm s)

/-- BATCH_END (R221). -/
def execBatchEnd (b : Fin 4) (s : State) : Out := toNext (batchFinish b.val s)

/-- STEP_TIMEOUT (R222). -/
def execStepTimeout (b : Fin 4) (s : State) : Out := toNext (stepTimeout b.val s)

/-- DEADLINE_MISS (R223). -/
def execDeadlineMiss (session : Nat) (s : State) : Out := toNext (deadlineMiss session s)

end Sys2Proof.Machine
end

