-- ==== Sys2Proof/Machine/Pixels.lean ====
section
/-!
DEFINITION. FP32 operations on words and the pixel formats that the composer and the tiler share (R235, R273 to R276,
Table 9-4).
-/
namespace Sys2Proof.Machine

/-! ## Single FP32 operations with RNE -/

/-- a + b. -/
def fAdd (a b : Word) : Word := toF32 (fvAdd (f32 a) (f32 b))

/-- a − b. -/
def fSub (a b : Word) : Word := toF32 (fvAdd (f32 a) (fvMinus (f32 b)))

/-- a × b. -/
def fMul (a b : Word) : Word := toF32 (fvMul (f32 a) (f32 b))

/-- a ÷ b. -/
def fDiv (a b : Word) : Word := let q := fvDiv (f32 a) (f32 b); toF32 q.1 q.2

/-- An integer. -/
def fInt (i : Int) : Word := toF32 (fvOf i 0)

/-- A decimal constant `n ÷ d` rounded to FP32. -/
def fRat (n d : Int) : Word := let q := fvDiv (fvOf n 0) (fvOf d 0); toF32 q.1 q.2

/-- 1 and 0. -/
abbrev fOne : Word := 0x3F800000#32
abbrev fZero : Word := 0#32

/-- a < b. -/
def fLt (a b : Word) : Bool := fvLt (f32 a) (f32 b)

/-- A value is a NaN. -/
def isNan (a : Word) : Bool := 0x7F800000 < a.toNat % 2 ^ 31

/-- A value clamped to `[lo, hi]`; a NaN stays. -/
def fClamp (lo hi a : Word) : Word := if fLt a lo then lo else if fLt hi a then hi else a

/-- A value clamped to `[0, 1]`. -/
def fUnit (a : Word) : Word := fClamp fZero fOne a

/-- A sum of terms in order. -/
def fSum : List Word → Word
  | [] => fZero
  | a :: t => t.foldl fAdd a

/-! ## Components -/

/-- A k-bit unorm value: n ÷ (2^k − 1). -/
def unormDec (k n : Nat) : Word := fDiv (fInt n) (fInt (2 ^ k - 1))

/-- A value as a k-bit unorm: clamped, a NaN gives 0, × (2^k − 1), RNE to an integer. -/
def unormEnc (k : Nat) (a : Word) : Nat :=
  if isNan a then 0 else (fvToInt false (f32 (fMul (fUnit a) (fInt (2 ^ k - 1))))).toNat

/-- A binary16 value. -/
def halfDec (n : Nat) : Word := toF32 (fpDec .fp16 (n % 65536))

/-- A value as binary16: RNE, saturated at ±65,504, 0x7E00 for a NaN, −0 as +0 (R276). -/
def halfEnc (a : Word) : Nat :=
  if isNan a then 0x7E00
  else
    let h := fpEnc .fp16 (f32 a)
    if h % 32768 = 0x7C00 then h / 32768 * 32768 + 0x7BFF else if h = 0x8000 then 0 else h

/-! ## Colour formats (Table 9-4, codes 1 to 5) -/

/-- Bytes of a pixel. -/
def colorSize (f : Nat) : Nat := if f = 3 then 8 else 4

/-- R, G, B, A of a pixel; components that a format does not hold are 0, 0 and 1. -/
def colorDec (f n : Nat) : List Word :=
  let b := fun lo k => n / 2 ^ lo % 2 ^ k
  if f = 1 then [unormDec 8 (b 0 8), unormDec 8 (b 8 8), unormDec 8 (b 16 8), unormDec 8 (b 24 8)]
  else if f = 2 then [unormDec 10 (b 0 10), unormDec 10 (b 10 10), unormDec 10 (b 20 10), unormDec 2 (b 30 2)]
  else if f = 3 then [halfDec (b 0 16), halfDec (b 16 16), halfDec (b 32 16), halfDec (b 48 16)]
  else if f = 4 then [halfDec (b 0 16), halfDec (b 16 16), fZero, fOne]
  else [w32 n, fZero, fZero, fOne]

/-- A pixel of R, G, B, A. -/
def colorEnc (f : Nat) (c : List Word) : Nat :=
  let x := fun i => nth fZero c i
  if f = 1 then unormEnc 8 (x 0) + unormEnc 8 (x 1) * 2 ^ 8 + unormEnc 8 (x 2) * 2 ^ 16 + unormEnc 8 (x 3) * 2 ^ 24
  else if f = 2 then unormEnc 10 (x 0) + unormEnc 10 (x 1) * 2 ^ 10 + unormEnc 10 (x 2) * 2 ^ 20 + unormEnc 2 (x 3) * 2 ^ 30
  else if f = 3 then halfEnc (x 0) + halfEnc (x 1) * 2 ^ 16 + halfEnc (x 2) * 2 ^ 32 + halfEnc (x 3) * 2 ^ 48
  else if f = 4 then halfEnc (x 0) + halfEnc (x 1) * 2 ^ 16
  else (x 0).toNat

/-! ## Y, Cb, Cr (R275, Table 10-5) -/

/-- Kr and Kb of a conversion, and whether its range is full. -/
def cscOf (c : Nat) : Word × Word × Bool :=
  if c = 1 then (fRat 2627 10000, fRat 593 10000, false)
  else if c = 2 then (fRat 299 1000, fRat 114 1000, false)
  else (fRat 2126 10000, fRat 722 10000, c == 3)

/-- Offset and scale of luma, and of chroma, for n-bit samples. -/
def yuvRange (full : Bool) (n : Nat) : (Int × Int) × (Int × Int) :=
  if full then ((0, 2 ^ n - 1), (2 ^ (n - 1), 2 ^ n - 1))
  else ((16 * 2 ^ (n - 8), 219 * 2 ^ (n - 8)), (128 * 2 ^ (n - 8), 224 * 2 ^ (n - 8)))

/-- Samples to R, G, B with alpha 1. -/
def yuvToRgb (csc n : Nat) (y u v : Word) : List Word :=
  let (kr, kb, full) := cscOf csc
  let (ly, lc) := yuvRange full n
  let norm := fun (o : Int × Int) (a : Word) => fDiv (fSub a (fInt o.1)) (fInt o.2)
  let y := norm ly y
  let cb := norm lc u
  let cr := norm lc v
  let two := fInt 2
  let r := fAdd y (fMul (fMul two (fSub fOne kr)) cr)
  let b := fAdd y (fMul (fMul two (fSub fOne kb)) cb)
  let g := fDiv (fSub (fSub y (fMul kr r)) (fMul kb b)) (fSub (fSub fOne kr) kb)
  [fUnit r, fUnit g, fUnit b, fOne]

/-- R, G, B to Y, Cb, Cr before quantisation: the inverse equations. -/
def rgbToYuv (csc : Nat) (c : List Word) : Word × Word × Word :=
  let (kr, kb, _) := cscOf csc
  let (r, g, b) := (nth fZero c 0, nth fZero c 1, nth fZero c 2)
  let two := fInt 2
  let y := fSum [fMul kr r, fMul (fSub (fSub fOne kr) kb) g, fMul kb b]
  (y, fDiv (fSub b y) (fMul two (fSub fOne kb)), fDiv (fSub r y) (fMul two (fSub fOne kr)))

/-- An n-bit sample of a normalised value: scaled, offset, clamped to the code range, RNE. -/
def yuvCode (n : Nat) (o : Int × Int) (a : Word) : Nat :=
  if isNan a then 0
  else (fvToInt false (f32 (fClamp fZero (fInt (2 ^ n - 1)) (fAdd (fMul a (fInt o.2)) (fInt o.1))))).toNat

end Sys2Proof.Machine
end

