-- ==== Sys2Proof/Machine/CmpPix.lean ====
section
/-!
DEFINITION. The composer's pixels: layers read, scaled, converted and blended, and the frame written to memory and to its
CZ stream (R273 to R277, R280, R300).
-/
namespace Sys2Proof.Machine

/-! ## The copies of a channel (Tables 10-2, 10-3) -/

/-- A word of the active copy, and of the shadow copy. -/
def actW (c k : Nat) (s : State) : Word := getReg pgCmp c (0x600 + 4 * k) s
def shadowW (c k : Nat) (s : State) : Word := getReg pgCmp c (0x200 + 4 * k) s

/-- Part 8 of a copy is its header, parts 0 to 7 are its layer entries: the index of the part's first word. -/
def partAt (p : Nat) : Nat := if p = 8 then 0 else 16 + 16 * p

/-- The 16 words of a part of the active or the shadow copy. -/
def actPart (c p : Nat) (s : State) : List Word := (List.range 16).map (fun i => actW c (partAt p + i) s)
def shadowPart (c p : Nat) (s : State) : List Word := (List.range 16).map (fun i => shadowW c (partAt p + i) s)

/-- A channel's slot, width and height. -/
def chSlot (c : Nat) (s : State) : Nat := getFld pgCmp c 0x108 8 6 s
def hActive (c : Nat) (s : State) : Nat := getFld pgCmp c 0x118 0 16 s
def vActive (c : Nat) (s : State) : Nat := getFld pgCmp c 0x11C 0 16 s

/-- The subsampled formats NV12 and P010 (Table 10-4). -/
def is420 (f : Nat) : Bool := f == 4 || f == 5

/-- Bits of a sample, and bytes of a luma sample, of a subsampled format. -/
def yuvBits (f : Nat) : Nat := if f = 5 then 10 else 8
def lumaSize (f : Nat) : Nat := if f = 5 then 2 else 1

/-- A multiple of 64 at or above a number. -/
def up64 (n : Nat) : Nat := (n + 63) / 64 * 64

/-! ## Reading layers (R280) -/

/-- A layer as it was read: its entry, its rows and its chroma rows; a row that was not read is empty and reads as zero. -/
structure LayerImg where
  w : List Word
  rows : List (List Byte)
  chroma : List (List Byte)
deriving DecidableEq, Repr

/-- The end of a stream of rows. -/
def rowsEnd (l : List (Nat × Nat)) : Nat := match l.getLast? with | some x => x.1 + x.2 | none => 0

/-- Rows read in order, with the pages ahead filled up to the end of the stream (R155); the first failing one ends the reading
of its layer. Answers the reason of the failure. -/
def cmpRows (slot top : Nat) (r : JobRef) : List (Nat × Nat) → State → (List (List Byte) × Option Nat) × State
  | [], s => (([], none), s)
  | (va, n) :: t, s =>
    match vaReadAll rqCmp slot va n .rd (prefetch rqCmp slot va (top - va) s) with
    | (.error (e, at'), s) => let (rd, s) := accessFault rqCmp r at' .rd e s; (([], some rd.1), s)
    | (.ok bs, s) => let ((l, e), s) := cmpRows slot top r t s; ((bs :: l, e), s)

/-- The rows of a layer's source rectangle, by address and length: the image's rows, then its chroma rows. -/
def layerSpans (base : Nat) (w : List Word) : List (Nat × Nat) × List (Nat × Nat) :=
  let f := dWord w 0 / 16 % 16
  let pitch := dWord w 3 % 2 ^ 24
  let sx := dWord w 4 % 65536
  let sy := dWord w 4 / 65536
  let sw := dWord w 5 % 65536
  let sh := dWord w 5 / 65536
  let a := base + dWord w 2
  let b := if is420 f then lumaSize f else colorSize f
  let c := a + up64 (pitch * (sy + sh))
  ((List.range sh).map (fun y => (a + pitch * (sy + y) + sx * b, sw * b)),
    if is420 f then (List.range (sh / 2)).map (fun y => (c + pitch * (sy / 2 + y) + sx / 2 * 2 * b, sw / 2 * 2 * b)) else [])

/-- A layer read. A handle that has become invalid reads as zero. -/
def layerRead (slot : Nat) (r : JobRef) (w : List Word) (s : State) : (LayerImg × Option Nat) × State :=
  match checkHandle { r with slot := slot } (nth 0 w 1) s with
  | (.error rd, s) => ((⟨w, [], []⟩, if rd.1 = 0x0003 then none else some rd.1), s)
  | (.ok e, s) =>
    let (l, k) := layerSpans e.base w
    match cmpRows slot (rowsEnd l) r l s with
    | ((rows, some x), s) => ((⟨w, rows, []⟩, some x), s)
    | ((rows, none), s) => let ((ch, x), s) := cmpRows slot (rowsEnd k) r k s; ((⟨w, rows, ch⟩, x), s)

/-! ## Samples and filters (R273, R274) -/

/-- `n` bytes at an offset of a row, 0 where the row holds none. -/
def rowNat (rows : List (List Byte)) (y o n : Nat) : Nat := leNat (((nth [] rows y).drop o).take n)

/-- A sample of a subsampled format: its n-bit code. -/
def codeAt (f : Nat) (rows : List (List Byte)) (y i : Nat) : Nat :=
  if f = 5 then rowNat rows y (2 * i) 2 / 64 else rowNat rows y i 1

/-- The built-in coefficient table: horizontal, then vertical taps, phase-major. -/
def builtinCoef : List Int :=
  ((List.range 64).map (fun (p : Nat) => [0, 0, 16 * (64 - (p : Int)), 16 * (p : Int), 0, 0])).flatten ++
  ((List.range 64).map (fun (p : Nat) => [0, 16 * (64 - (p : Int)), 16 * (p : Int), 0])).flatten

/-- A coefficient table from its 1,280 bytes. -/
def coefOf (bs : List Byte) : List Int := (List.range 640).map (fun i => sext 16 (leNat ((bs.drop (2 * i)).take 2)))

/-- The source position of an output position in 16.16 fixed point. -/
def srcPos (src dst x : Nat) : Int := ((2 * x + 1) * (src * 65536 / dst : Nat) - 65536 : Int) / 2

/-- A tap position clamped to `[0, n − 1]`. -/
def tapAt (n : Nat) (i : Int) : Nat := if i < 0 then 0 else min i.toNat (n - 1)

/-- The 4 × 6 filter at a position, over `get x y` in a rectangle of `w` × `h`. -/
def polyphase (coef : List Int) (w h : Nat) (px py : Int) (get : Nat → Nat → Word) : Word :=
  let (bx, hx) := (px / 65536, (px % 65536 / 1024).toNat)
  let (by', hy) := (py / 65536, (py % 65536 / 1024).toNat)
  let scale := fun (c : Int) => fRat c 1024
  fSum ((List.range 6).map (fun (i : Nat) =>
    let x := tapAt w (bx - 2 + i)
    fMul (scale (nth 0 coef (hx * 6 + i)))
      (fSum ((List.range 4).map (fun (j : Nat) =>
        fMul (scale (nth 0 coef (384 + hy * 4 + j))) (get x (tapAt h (by' - 1 + j))))))))

/-- A layer's colour at a position relative to its destination: R, G, B, A. -/
def layerColor (coef : List Int) (m : LayerImg) (x y : Nat) : List Word :=
  let f := dWord m.w 0 / 16 % 16
  let (sw, sh) := (dWord m.w 5 % 65536, dWord m.w 5 / 65536)
  let (dw, dh) := (dWord m.w 7 % 65536, dWord m.w 7 / 65536)
  let px := srcPos sw dw x
  let py := srcPos sh dh y
  if is420 f then
    let n := yuvBits f
    let lim := fun a => fClamp fZero (fInt (2 ^ n - 1)) a
    let luma := polyphase coef sw sh px py (fun i j => fInt (codeAt f m.rows j i))
    let ch := fun k => polyphase coef (sw / 2) (sh / 2) (px / 2) ((py - 32768) / 2)
      (fun i j => fInt (codeAt f m.chroma j (2 * i + k)))
    yuvToRgb (dWord m.w 0 / 2 ^ 8 % 4) n (lim luma) (lim (ch 0)) (lim (ch 1))
  else
    let px8 := fun i j => colorDec f (rowNat m.rows j (i * colorSize f) (colorSize f))
    if dWord m.w 0 / 2 % 2 = 0 then px8 x y
    else (List.range 4).map (fun k =>
      let v := polyphase coef sw sh px py (fun i j => nth fZero (px8 i j) k)
      if f = 3 then v else fUnit v)

/-! ## Blending and output (R276, R277) -/

/-- A layer blended over a pixel, where it covers the pixel. -/
def blendLayer (coef : List Int) (x y : Nat) (d : List Word) (m : LayerImg) : List Word :=
  let w := m.w
  let (dx, dy) := (dWord w 6 % 65536, dWord w 6 / 65536)
  let (dw, dh) := (dWord w 7 % 65536, dWord w 7 / 65536)
  if x < dx || dx + dw ≤ x || y < dy || dy + dh ≤ y then d
  else
    let src := layerColor coef m (x - dx) (y - dy)
    let g := unormDec 16 (dWord w 0 / 65536)
    let opaq := dWord w 0 / 8 % 2 = 1 || is420 (dWord w 0 / 16 % 16)
    let a := fMul g (if opaq then fOne else nth fZero src 3)
    let rest := fSub fOne a
    let f := if dWord w 0 / 4 % 2 = 1 then g else a
    ((List.range 3).map (fun k => fAdd (fMul f (nth fZero src k)) (fMul rest (nth fZero d k)))) ++
      [fAdd a (fMul rest (nth fZero d 3))]

/-- The rows of a frame's output: plane, row and bytes, in the order in which the planes follow each other. -/
def outRows (h : List Word) (pix : Nat → Nat → List Word) (w lines : Nat) : List (Nat × Nat × List Byte) :=
  let f := dWord h 0 % 16
  if is420 f then
    let csc := dWord h 0 / 16 % 4
    let n := yuvBits f
    let (_, _, full) := cscOf csc
    let (ly, lc) := yuvRange full n
    let code := fun (v : Nat) => if f = 5 then toLE 2 (v * 64) else toLE 1 v
    let conv := fun x y => rgbToYuv csc (pix x y)
    let mean := fun (get : Word × Word × Word → Word) x y =>
      fDiv (fSum [get (conv (2 * x) (2 * y)), get (conv (2 * x + 1) (2 * y)), get (conv (2 * x) (2 * y + 1)),
        get (conv (2 * x + 1) (2 * y + 1))]) (fInt 4)
    (List.range lines).map (fun y => (0, y, ((List.range w).map (fun x => code (yuvCode n ly (conv x y).1))).flatten)) ++
    (List.range (lines / 2)).map (fun y => (1, y, ((List.range (w / 2)).map (fun x =>
      code (yuvCode n lc (mean (·.2.1) x y)) ++ code (yuvCode n lc (mean (·.2.2) x y)))).flatten))
  else
    (List.range lines).map (fun y =>
      (0, y, ((List.range w).map (fun x => toLE (colorSize f) (colorEnc f (pix x y)))).flatten))

/-- The coefficient table that a header names, or the built-in one; a table that cannot be read leaves the reason. -/
def coefRead (slot : Nat) (r : JobRef) (h : List Word) (s : State) : (List Int × Option Nat) × State :=
  if dWord h 8 = 0 then ((builtinCoef, none), s)
  else
    match checkRange { r with slot := slot } (nth 0 h 8) (dWord h 9) 1280 s with
    | (.error rd, s) => (([], if rd.1 = 0x0003 then none else some rd.1), s)
    | (.ok va, s) =>
      match vaReadAll rqCmp slot va 1280 .rd s with
      | (.error (e, at'), s) => let (rd, s) := accessFault rqCmp r at' .rd e s; (([], some rd.1), s)
      | (.ok bs, s) => ((coefOf bs, none), s)

/-- The frame's enabled layers read in ascending order, and the first failure. -/
def layersRead (slot : Nat) (r : JobRef) (c : Nat) (s : State) : (List LayerImg × Option Nat) × State :=
  (List.range 8).foldl (fun p l =>
    let w := actPart c l p.2
    if dWord w 0 % 2 = 0 then p
    else
      let ((m, e), s) := layerRead slot r w p.2
      ((p.1.1 ++ [m], p.1.2.orElse (fun _ => e)), s)) (([], none), s)

/-- The output rows of a channel's frame, up to a number of lines, and the first failure of its reads. -/
def frameRows (c lines : Nat) (r : JobRef) (s : State) : (List (Nat × Nat × List Byte) × Option Nat) × State :=
  let slot := chSlot c s
  let h := actPart c 8 s
  let ((coef, e0), s) := coefRead slot r h s
  let ((ms, e1), s) := layersRead slot r c s
  let bg := colorDec 1 (dWord h 1)
  ((outRows h (fun x y => ms.foldl (blendLayer coef x y) bg) (hActive c s) lines, e0.orElse (fun _ => e1)), s)

/-- A row written: the pages that pass; the failing ones are dropped (R160, R280). Answers the first failure and the bytes
dropped. -/
def rowWrite (rq slot va : Nat) (bs : List Byte) (s : State) : (Option (AccErr × Nat) × Nat) × State :=
  (pagePieces va bs.length).foldl (fun p q =>
    match vaWrite rq slot q.1 ((bs.drop (q.1 - va)).take q.2) p.2 with
    | (.error e, s) => ((p.1.1.orElse (fun _ => some (e, q.1)), p.1.2 + q.2), s)
    | (.ok _, s) => (p.1, s)) ((none, 0), s)

/-- A failed output write: one record with the bytes dropped of its row, and the view (R160, R280). -/
def writeFault (rq slot : Nat) (r : JobRef) (e : AccErr) (va dropped : Nat) (s : State) : Nat × State :=
  let fn := (slotOf slot s).func
  match e with
  | .xl k l =>
    let s := viewEvent fn (if k = cWriteDenied then 0 else 1) r.slot r.queue (nextSeq r s) s
    (0x0016, postFault rq 0 { r with slot := slot } va k l .wr dropped s)
  | .bus => (0x0015, if r.nojob then s else viewEvent fn 6 r.slot r.queue (nextSeq r s) s)

/-- The frame's rows written to its output buffer (R277); only the first failure is recorded. -/
def memOut (c seq : Nat) (r : JobRef) (rows : List (Nat × Nat × List Byte)) (s : State) : Option Nat × State :=
  let slot := chSlot c s
  let h := actPart c 8 s
  match checkHandle { r with slot := slot } (nth 0 h 2) s with
  | (.error rd, s) => (if rd.1 = 0x0003 then none else some rd.1, s)
  | (.ok e, s) =>
    let pitch := dWord h 4 % 2 ^ 24
    let base := e.base + dWord h 3 + seq % (dWord h 0 / 65536 % 32) * dWord h 5
    let lines := vActive c s
    let vaOf := fun (x : Nat × Nat × List Byte) => base + (if x.1 = 1 then pitch * lines else 0) + pitch * x.2.1
    let top := match rows.getLast? with | some x => vaOf x + x.2.2.length | none => base
    rows.foldl (fun p x =>
      let va := vaOf x
      match rowWrite rqCmp slot va x.2.2 (prefetch rqCmp slot va (top - va) p.2) with
      | ((none, _), s) => (p.1, s)
      | ((some (e, at'), n), s) =>
        if p.1.isSome then (p.1, s) else let (rd, s) := writeFault rqCmp slot r e at' n s; (some rd, s)) (none, s)

/-! ## The frame's CZ stream (R300) -/

/-- The header of a composer stream (Table 11-5). -/
def frameHdr (f pred w h : Nat) : CzHdr :=
  let two := is420 f
  let e := if f = 3 ∨ f = 5 then 2 else 1
  { tensor := false, esz := e - 1, pred := pred, nc0 := if two then 1 else 4, nc1 := if two then 2 else 0,
    rb0 := if two then w * e else w * 4 * e, rb1 := if two then w * e else 0, rows0 := h, rows1 := if two then h / 2 else 0,
    cs := 0 }

/-- The stream descriptor of a frame header, read and checked: its address and words. -/
def frameCzDesc (z slot : Nat) (r : JobRef) (h : List Word) (s : State) : Option (Nat × List Word) × State :=
  match checkRange { r with slot := slot } (nth 0 h 6) (dWord h 7) 256 s with
  | (.error _, s) => (none, s)
  | (.ok va, s) =>
    if va % 256 ≠ 0 then (none, s)
    else
      match vaReadAll (rqCz z) slot va 256 .rd s with
      | (.error (e, at'), s) => (none, (accessFault (rqCz z) r at' .rd e s).2)
      | (.ok bs, s) =>
        let d := rowWords 4 64 bs
        let f := dWord d 0
        if f % 8 != 6 || f / 16 != 0 || dWord d 1 != 0 || dWord d 8 != 0 || dWord d 10 != 0 || 4 < dWord d 17 / 8 % 8 ||
            (List.range 3).any (fun i => dWord d (13 + i) != 0) then (none, s)
        else (some (va, d), s)

/-- The stream's bytes written with its length and CRC; false where it fails. -/
def czOutPut (z slot seq count : Nat) (r : JobRef) (va : Nat) (d : List Word) (out : List Byte) (crc : Word) (s : State) :
    Bool × State :=
  let cap := dWord d 6
  let i := seq % count
  if cap < out.length then (false, s)
  else
    match checkRange { r with slot := slot } (nth 0 d 4) (dWord d 5 + i * cap) cap s with
    | (.error _, s) => (false, s)
    | (.ok ova, s) =>
      match writeSeq (rqCz z) slot [(ova, out), (va + 0x80 + 8 * i, toLE 4 out.length ++ toLE 4 crc.toNat)] s with
      | (.error (e, at'), s) => (false, (accessFault (rqCz z) r at' .wr e s).2)
      | (.ok _, s) => (true, s)

/-- The frame's CZ stream coded and committed: false where it fails. -/
def frameCz (c z seq : Nat) (r : JobRef) (rows : List (Nat × Nat × List Byte)) (s : State) : Bool × State :=
  let slot := chSlot c s
  let h := actPart c 8 s
  match frameCzDesc z slot r h s with
  | (none, s) => (false, s)
  | (some (va, d), s) =>
    let data := (rows.map (·.2.2)).flatten
    let hd := frameHdr (dWord h 0 % 16) (dWord d 17 / 8 % 8) (hActive c s) (vActive c s)
    let x := czCompress hd [] data 0 (dWord d 0 / 8 % 2 = 1) true true 0xFFFFFFFF#32
    match czOutPut z slot seq (dWord h 0 / 65536 % 32) r va d x.1 (~~~ (crcGo 0xFFFFFFFF#32 data)) s with
    | (false, s) => (false, s)
    | (true, s) =>
      (true, addFld (pgCz z) 0 0x110 0 32 (x.2.filter (·.2.1)).length
        (czMib z 0x10C x.1.length (czMib z 0x108 data.length s)))

end Sys2Proof.Machine
end

