-- ==== Sys2Proof/Machine/Cmp.lean ====
section
/-!
DEFINITION. Composer channels: enable, COMPOSE, commits at frame boundaries, deadlines, completion and abandonment (R262 to
R272, R277 to R282).
-/
namespace Sys2Proof.Machine

/-! ## Channel state -/

/-- A channel. -/
def cchan (c : Nat) (s : State) : CChan := tabGet {} c s.cmp

/-- A channel set. -/
def setCchan (c : Nat) (x : CChan) (s : State) : State := { s with cmp := tabSet c x s.cmp }

/-- EN, COMMIT_ARM and LATE_PEND of a channel. -/
def chEnabled (c : Nat) (s : State) : Bool := bit (getReg pgCmp c 0x108 s) 0
def chArmed (c : Nat) (s : State) : Bool := bit (getReg pgCmp c 0x10C s) 1
def latePend (c : Nat) (s : State) : Nat := getFld pgCmp c 0x10C 8 8 s

/-- Reasons of Table 10-7. -/
abbrev rLayerLate : Nat := 0x0140
abbrev rFrameDeadline : Nat := 0x0141
abbrev rChOwner : Nat := 0x0142
abbrev rCzFailed : Nat := 0x0143
abbrev rChDisabled : Nat := 0x0144

/-! ## What a part names -/

/-- A handle, or a fence by index and generation. -/
inductive CmpRef where
  | hnd (h : Word)
  | fnc (idx gen : Nat)
deriving DecidableEq, Repr

/-- The handles that a part names, with offset and extent: OUT with MEM_EN, CZ with CZ_EN, COEF where it is not 0; BUF of a
layer in use. -/
def partHandles (p : Nat) (w : List Word) (hAct vAct : Nat) : List (Word × Nat × Nat) :=
  if p = 8 then
    let f := dWord w 0 % 16
    let b := if is420 f then lumaSize f else colorSize f
    let rows := if is420 f then vAct + vAct / 2 else vAct
    let len := (dWord w 0 / 65536 % 32 - 1) * dWord w 5 + dWord w 4 % 2 ^ 24 * (rows - 1) + hAct * b
    (if dWord w 0 / 2 ^ 8 % 2 = 1 then [(nth 0 w 2, dWord w 3, len)] else []) ++
    (if dWord w 0 / 2 ^ 9 % 2 = 1 then [(nth 0 w 6, dWord w 7, 256)] else []) ++
    (if dWord w 8 = 0 then [] else [(nth 0 w 8, dWord w 9, 1280)])
  else if dWord w 0 % 2 = 0 then []
  else
    let (l, k) := layerSpans 0 w
    let e := match k.getLast?, l.getLast? with
      | some x, _ => x.1 + x.2
      | none, some x => x.1 + x.2
      | none, none => 0
    [(nth 0 w 1, dWord w 2, e - dWord w 2)]

/-- The fences that a layer entry names: ready, then release; the release fence is one to signal. -/
def partFences (p : Nat) (w : List Word) : List (Bool × Word × Word) :=
  if p = 8 then []
  else (if dWord w 0 / 2 ^ 11 % 2 = 1 then [(false, nth 0 w 8, nth 0 w 9)] else []) ++
    (if dWord w 0 / 2 ^ 12 % 2 = 1 then [(true, nth 0 w 10, nth 0 w 11)] else [])

/-- The references that a part holds. -/
def partRefs (c p : Nat) (w : List Word) (s : State) : List CmpRef :=
  (partHandles p w (hActive c s) (vActive c s)).map (fun e => .hnd e.1) ++
  (partFences p w).map (fun e => .fnc (fenceIdx e.2.1) (fld e.2.2 0 16))

/-- A reference released. -/
def refDrop (slot : Nat) (s : State) : CmpRef → State
  | .hnd h => leavenDrop slot h s
  | .fnc i g =>
    match fenceFails ⟨slot, 0, 0, true⟩ i s with
    | (some _, s) => s
    | (none, s) => if (fenceGet i s).valid && (fenceGet i s).gen == g then (fenceDrop i s).2 else s

/-- A reference acquired: a saturated count stays as it is (R200). -/
def refAdd (r : JobRef) (x : CmpRef) (s : State) : Except Nat Unit × State :=
  match x with
  | .hnd h => acquireRef r h s
  | .fnc i _ =>
    match fenceFails r i s with
    | (some rd, s) => (.error rd.1, s)
    | (none, s) =>
      let e := fenceGet i s
      (.ok (), if 2 ^ 32 - 1 ≤ e.refcnt then s else fencePut i { e with refcnt := e.refcnt + 1 } s)

/-- The references of a part of a copy released. -/
def releasePart (c p : Nat) (w : List Word) (s : State) : State :=
  (partRefs c p w s).foldl (refDrop (chSlot c s)) s

/-- The reference is one on a fence that the slot owns. -/
def ownedFence (slot : Nat) (s : State) : CmpRef → Bool
  | .hnd _ => false
  | .fnc i g => (fenceGet i s).valid && (fenceGet i s).gen == g && (fenceGet i s).ownerSlot == slot

/-- The release fence of a layer entry signalled OK, where the slot may signal it (R271). -/
def signalRelease (c : Nat) (w : List Word) (s : State) : State :=
  let i := fenceIdx (nth 0 w 10)
  if dWord w 0 / 2 ^ 12 % 2 = 1 && (fenceNode (nth 0 w 10) s).isNone &&
      maySignal (slotOf (chSlot c s) s).func i (fld (nth 0 w 11) 0 16) s then fenceSignal i 0 s
  else s

/-- A layer's ready fence does not hold it back: none is named, or it is signalled OK (R269). -/
def layerReady (c : Nat) (w : List Word) (s : State) : Bool :=
  let i := fenceIdx (nth 0 w 8)
  dWord w 0 / 2 ^ 11 % 2 == 0 ||
    ((fenceNode (nth 0 w 8) s).isNone && mayName (slotOf (chSlot c s) s).func i (fld (nth 0 w 9) 0 16) s &&
      (fenceGet i s).signalled && (fenceGet i s).status == 0)

/-! ## The shadow copy (R266, R268, R270) -/

/-- A pending layer's shadow state is replaced: its release fence is signalled OK, and its references are released
(R270). A part that is not pending has none left but those of a commit that is still armed. -/
def replaceShadow (c p : Nat) (s : State) : State :=
  let w := shadowPart c p s
  let x := cchan c s
  let pend := p < 8 && latePend c s / 2 ^ p % 2 == 1
  let s := if pend then signalRelease c w s else s
  let s := if x.shRef.contains p then releasePart c p w s else s
  let s := setCchan c { cchan c s with shRef := (cchan c s).shRef.filter (· != p) } s
  if pend then setFld pgCmp c 0x10C (8 + p) 1 0 s else s

/-- The PF writes a word of the shadow copy: discarded while a commit is armed (R268). -/
def shadowWrite (c k : Nat) (v : Word) (s : State) : State :=
  if chArmed c s then s
  else
    let p := if k < 16 then 8 else (k - 16) / 16
    setReg pgCmp c (0x200 + 4 * k) v (replaceShadow c p s)

/-- CH_COMMIT.ARM (R268). -/
def commitArm (v : Word) (s : State) : State :=
  let c := getFld pgCmp 0 0x104 0 4 s
  if !(bit v 0) || chArmed c s then s
  else
    let s := setFld pgCmp c 0x10C 1 1 1 (setFld pgCmp c 0x110 0 1 1 s)
    setCchan c { cchan c s with armed := none } s

/-! ## COMPOSE (R264, R266, R267) -/

/-- A privileged channel. -/
def privileged (c : Nat) : Bool := c == 14 || c == 15

/-- A layer entry of a descriptor breaks a rule of R267 or a range of Table 10-3. DESIGN CHOICE (log 56): the format, the sizes
and the alignments are checked of enabled entries only; the other bullets of R267 hold for every entry. -/
def layerBad (c l : Nat) (w : List Word) (hAct vAct : Nat) : Bool :=
  let n := dWord w
  let en := n 0 % 2 = 1
  let video := n 0 / 2 % 2 = 1
  let f := n 0 / 16 % 16
  let (sx, sy, sw, sh) := (n 4 % 65536, n 4 / 65536, n 5 % 65536, n 5 / 65536)
  let (dx, dy, dw, dh) := (n 6 % 65536, n 6 / 65536, n 7 % 65536, n 7 / 65536)
  n 0 / 2 ^ 13 % 8 != 0 || (List.range 4).any (fun i => n (12 + i) != 0) ||
  (n 0 / 2 ^ 11 % 2 == 1 && (n 8 / 2 ^ 25 != 0 || n 9 / 2 ^ 16 != 0)) ||
  (n 0 / 2 ^ 12 % 2 == 1 && (n 10 / 2 ^ 25 != 0 || n 11 / 2 ^ 16 != 0)) ||
  (!(privileged c) && (if l ≤ 2 then video != (l == 0) else en)) ||
  (is420 f && (sx % 2 == 1 || sy % 2 == 1 || sw % 2 == 1 || sh % 2 == 1)) ||
  hAct < dx + dw || vAct < dy + dh ||
  (en && (f == 0 || 5 < f || n 2 % 64 != 0 || n 3 % 2 ^ 24 % 64 != 0 || sw == 0 || 8192 < sw || sh == 0 || 8192 < sh ||
    (!video && (sw != dw || sh != dh || is420 f)) ||
    (video && (dw < (sw + 3) / 4 || 8 * sw < dw || dh < (sh + 3) / 4 || 8 * sh < dh))))

/-- A frame descriptor is rejected (R267). -/
def frameBad (c : Nat) (d : List Word) (s : State) : Bool :=
  let n := dWord d
  let f := n 0 % 16
  let count := n 0 / 65536 % 32
  (nth 0 d 0 &&& ~~~ 0x001F073F#32) != 0 || n 4 / 2 ^ 24 != 0 || (List.range 6).any (fun i => n (10 + i) != 0) ||
  f == 0 || 5 < f || count == 0 || 16 < count || n 0 / 2 ^ 8 % 4 == 0 || n 3 % 64 != 0 || n 4 % 64 != 0 || n 5 % 64 != 0 ||
  n 9 % 64 != 0 || (is420 f && (hActive c s % 2 == 1 || vActive c s % 2 == 1)) ||
  (List.range 8).any (fun l => layerBad c l ((d.drop (16 + 16 * l)).take 16) (hActive c s) (vActive c s))

/-- A part's words in a descriptor. -/
def descPart (d : List Word) (p : Nat) : List Word := (d.drop (partAt p)).take 16

/-- The parts in the order of the descriptor. -/
def partOrder : List Nat := [8, 0, 1, 2, 3, 4, 5, 6, 7]

/-- The first handle of some that fails its check: reason and detail. -/
def handlesBad (r : JobRef) : List (Word × Nat × Nat) → State → Option (Nat × Nat) × State
  | [], s => (none, s)
  | (h, off, len) :: t, s =>
    match checkRange r h off len s with
    | (.error rd, s) => (some rd, s)
    | (.ok _, s) => handlesBad r t s

/-- The first fence of some that fails its check. -/
def fencesBad (r : JobRef) (fn : Nat) : List (Bool × Word × Word) → State → Option (Nat × Nat) × State
  | [], s => (none, s)
  | e :: t, s =>
    let (i, g) := (fenceIdx e.2.1, fld e.2.2 0 16)
    match (if (fenceNode e.2.1 s).isSome then (none, s) else nameFails fn r i s) with
    | (some rd, s) => (some rd, s)
    | (none, s) =>
      if (fenceNode e.2.1 s).isSome || !(if e.1 then maySignal fn i g s else mayName fn i g s) then
        (some (0x0003, fenceDetail e.2.1 e.2.2), s)
      else fencesBad r fn t s

/-- References acquired in order; where one fails, the earlier ones are released. -/
def acquireAll (r : JobRef) (slot : Nat) : List CmpRef → List CmpRef → State → Except Nat Unit × State
  | _, [], s => (.ok (), s)
  | got, x :: t, s =>
    match refAdd r x s with
    | (.error e, s) => (.error e, got.foldl (refDrop slot) s)
    | (.ok _, s) => acquireAll r slot (x :: got) t s

/-- DETAIL of a COMPOSE record that no frame belongs to (R281). -/
def composeDetail (c : Nat) : Nat := c

/-- The descriptor loaded into the shadow copy, and the commit armed (R266 step 3). -/
def loadShadow (c j : Nat) (d : List Word) (s : State) : State :=
  let s := (List.range 9).foldl (fun s p => replaceShadow c p s) s
  let s := (List.range 144).foldl (fun s k => setReg pgCmp c (0x200 + 4 * k) (nth 0 d k) s) s
  setFld pgCmp c 0x10C 1 1 1 (setCchan c { cchan c s with armed := some j, shRef := List.range 9 } s)

/-- A descriptor read: checked, its references acquired, loaded. -/
def composeDesc (o : Owner) (c j va : Nat) (d : List Word) (s : State) : State :=
  let slot := ownSlot o s
  let r := jobRefOf o j s
  if frameBad c d s then jobFail j (0x0017, va) s
  else
    let hs := (partOrder.map (fun p => partHandles p (descPart d p) (hActive c s) (vActive c s))).flatten
    match handlesBad r hs s with
    | (some rd, s) => jobFail j rd s
    | (none, s) =>
      match fencesBad r (slotOf slot s).func ((partOrder.map (fun p => partFences p (descPart d p))).flatten) s with
      | (some rd, s) => jobFail j rd s
      | (none, s) =>
        match acquireAll r slot [] ((partOrder.map (fun p => partRefs c p (descPart d p) s)).flatten) s with
        | (.error e, s) => jobFail j (e, 0) s
        | (.ok _, s) => loadShadow c j d s

/-- COMPOSE: held while a commit is armed (R266). Its hold, as its start, needs room for its record (R186). -/
def composeCmd (o : Owner) (c : List Word) (_ : Nat) (s : State) : Option State :=
  let ch := argsOf c % 16
  let owns := chEnabled ch s && chSlot ch s == ownSlot o s
  match o with
  | .batch _ => none
  | .queue _ _ =>
    if owns && chArmed ch s then holdJob o s
    else
      startJob o c (fun j s =>
        if !owns then jobFail j (rChOwner, composeDetail ch) s
        else withDesc o j rqCmp c 576 64 (composeDesc o ch j) s) s

/-! ## The end of a frame (R277 to R281) -/

/-- DETAIL of a frame's record (R281). -/
def frameDetail (c : Nat) (abandoned : Bool) (s : State) : Nat :=
  let seq := (getReg pgCmp c 0x128 s).toNat
  let count := getFld pgCmp c 0x600 16 5 s
  c + (if abandoned then 16 else 0) + (cchan c s).late * 2 ^ 8 + seq * 2 ^ 16 + seq % count % 16 * 2 ^ 48

/-- Status and reason of a frame's job (R281). -/
def frameStatus (x : CChan) : Nat × Nat :=
  let bad := x.fail.isSome || x.missed || x.czFail || x.critLate
  let why := match x.fail with
    | some r => r
    | none => if x.missed then rFrameDeadline else if x.czFail then rCzFailed else if x.late ≠ 0 then rLayerLate else 0
  (if bad then 1 else 0, why)

/-- A frame is over: its job ends with a status, or a repeat frame's energy goes to the slot. -/
def frameEnd (c : Nat) (ended : Option (Nat × Nat)) (abandoned : Bool) (s : State) : State :=
  let x := cchan c s
  let st := ended.getD (frameStatus x)
  let s := match x.job with
    | some j => endJob j st.1 st.2 (frameDetail c abandoned s) s
    | none => if (slotOf (chSlot c s) s).state = 0 then s else ctxAdd (chSlot c s) 0x48 (toUj x.energy) s
  let s := czLeave (.frame c) (setFld pgCmp c 0x10C 2 1 0 s)
  setCchan c { cchan c s with busy := false, job := none, energy := 0, fail := none, late := 0, critLate := false, missed := false,
                              czFail := false } s

/-- The name of a frame's accesses. -/
def frameRef (c : Nat) (s : State) : JobRef :=
  match (cchan c s).job with
  | some j => { jobRef j s with slot := chSlot c s }
  | none => ⟨chSlot c s, 0, 0, true⟩

/-- A miss of the frame's deadline (R279). -/
def frameMiss (c : Nat) (s : State) : State :=
  let slot := chSlot c s
  let fn := (slotOf slot s).func
  let r := frameRef c s
  let s := count32 pgCmp c 0x130 (setCchan c { cchan c s with missed := true } s)
  let s := viewEvent fn 4 slot r.queue (nextSeq r s) s
  if bit (getReg pgCmp c 0x108 s) 2 then viewEvent fn 5 slot r.queue (nextSeq r s) s else s

/-- FRAME_DEADLINE_MISS: the frame is incomplete at its deadline line. -/
def deadlineLine (c : Nat) (s : State) : State :=
  let x := cchan c s
  if !(chEnabled c s) || !x.busy || x.missed then s
  else frameMiss c (setReg pgCmp c 0x124 (w32 (getFld pgCmp c 0x120 0 16 s * 65536)) s)

/-- The first failure of a frame. -/
def noteFrameFail (c : Nat) (e : Option Nat) (s : State) : State :=
  let x := cchan c s
  setCchan c { x with fail := x.fail.orElse (fun _ => e) } s

/-- The frame's memory copy, up to a number of lines. -/
def frameMem (c lines : Nat) (s : State) : List (Nat × Nat × List Byte) × State :=
  let r := frameRef c s
  let ((rows, e), s) := frameRows c lines r s
  let s := noteFrameFail c e s
  if getFld pgCmp c 0x600 8 1 s = 0 then (rows, s)
  else
    let (e, s) := memOut c (getReg pgCmp c 0x128 s).toNat r rows s
    (rows, noteFrameFail c e s)

/-- Bytes of a frame's rows. -/
def rowsBytes (rows : List (Nat × Nat × List Byte)) : Nat := rows.foldl (fun n r => n + r.2.2.length) 0

/-- The frame's CZ stream fails after some of the frame's `n` bytes. -/
def frameCzFail (c n : Nat) (s : State) : State :=
  if getFld pgCmp c 0x600 9 1 s = 0 then s
  else
    let z := getFld pgCmp c 0x600 10 1 s
    setCchan c { cchan c s with czFail := true } (if (cchan c s).czFail then s else czFailed z false (czPartial z n (2 * n) s))

/-- FRAME_COMPLETE: the frame's writes are performed and its CZ stream has committed or failed. -/
def frameComplete (c : Nat) (s : State) : State :=
  if !(chEnabled c s) || !(cchan c s).busy then s
  else
    let (rows, s) := frameMem c (vActive c s) s
    let s :=
      if getFld pgCmp c 0x600 9 1 s = 0 then s
      else if (cchan c s).czFail then s
      else
        match frameCz c (getFld pgCmp c 0x600 10 1 s) (getReg pgCmp c 0x128 s).toNat (frameRef c s) rows s with
        | (true, s) => s
        | (false, s) => frameCzFail c (rowsBytes rows) s
    frameEnd c none false s

/-- A frame is abandoned: the lines that had been written stand, the others are dropped; how many had been written is the
pipes' time and is free (R279). -/
def frameAbandon (c : Nat) (ended : Option (Nat × Nat)) (s : State) : State :=
  if !(cchan c s).busy then s
  else
    let (f, s) := takeFree s
    let (rows, s) := frameMem c (f % (vActive c s + 1)) s
    frameEnd c ended true (count32 pgCmp c 0x134 (frameCzFail c (rowsBytes rows) s))

/-! ## Frame boundaries (R265, R269, R278) -/

/-- A part of the shadow copy committed (R269). What it replaces is over with its last frame: its release fence is signalled
and its references are released (R271). A part that stays unchanged, word for word, keeps its content and signals nothing; of
the references that both copies hold, one set is released. -/
def commitPart (c p : Nat) (s : State) : State :=
  let old := actPart c p s
  let x := cchan c s
  let same := old == shadowPart c p s
  let s := if p < 8 && !same then signalRelease c old s else s
  let s := if x.actRef.contains p && (!same || x.shRef.contains p) then releasePart c p old s else s
  let s := (List.range 16).foldl (fun s i => setReg pgCmp c (0x600 + 4 * (partAt p + i)) (shadowW c (partAt p + i) s) s) s
  let x := cchan c s
  let act := x.actRef.filter (· != p)
  let keep := x.shRef.contains p || (same && x.actRef.contains p)
  setCchan c { x with actRef := if keep then p :: act else act, shRef := x.shRef.filter (· != p) } s

/-- The layers of the shadow copy whose ready fences do not hold them back, sampled before the boundary's own signals (R269,
R272, Table 10-6). -/
def readyLayers (c : Nat) (s : State) : List Nat := (List.range 8).filter (fun l => layerReady c (shadowPart c l s) s)

/-- A layer of the armed commit: committed, or late. -/
def commitLayer (c : Nat) (rdy : List Nat) (s : State) (l : Nat) : State :=
  let w := shadowPart c l s
  if rdy.contains l then setFld pgCmp c 0x10C (8 + l) 1 0 (commitPart c l s)
  else
    let x := cchan c s
    let crit := x.armed.isSome && dWord w 0 / 2 ^ 10 % 2 == 1
    let s := count32 pgCmp c 0x12C (setFld pgCmp c 0x10C (8 + l) 1 1 s)
    let s := setCchan c { x with late := x.late + 2 ^ l, critLate := x.critLate || crit } s
    match x.armed with
    | some j =>
      let r := jobRef j s
      if crit then viewEvent (slotOf (chSlot c s) s).func 5 (chSlot c s) r.queue (nextSeq r s) s else s
    | none => s

/-- A layer pending from an earlier boundary is committed once its fence is ready (R269 step 2). -/
def commitPending (c : Nat) (rdy : List Nat) (s : State) (l : Nat) : State :=
  if latePend c s / 2 ^ l % 2 = 1 ∧ rdy.contains l then setFld pgCmp c 0x10C (8 + l) 1 0 (commitPart c l s)
  else s

/-- A frame starts from the active copy, for a job or as a repeat. -/
def frameStart (c : Nat) (job : Option Nat) (s : State) : State :=
  let s := setFld pgCmp c 0x10C 2 1 1 (wrap32 pgCmp c 0x128 s)
  let s := setCchan c { cchan c s with busy := true, job := job, armed := none, energy := 0 } s
  if getFld pgCmp c 0x600 9 1 s = 0 then s
  else
    let z := getFld pgCmp c 0x600 10 1 s
    match czAvail z true s with
    | some k => czTake z k (.frame c) s
    | none => frameCzFail c 0 s

/-- The commits of a boundary, and the frame that it starts. -/
def boundaryFrame (c : Nat) (rdy : List Nat) (s : State) : State :=
  let ctl := getReg pgCmp c 0x108 s
  if chArmed c s then
    let s := (List.range 8).foldl (commitLayer c rdy) (commitPart c 8 s)
    let s := setFld pgCmp c 0x10C 1 1 0 (setFld pgCmp c 0x110 0 1 0 s)
    frameStart c (cchan c s).armed s
  else
    let s := (List.range 8).foldl (commitPending c rdy) s
    if bit ctl 1 then frameStart c none (count32 pgCmp c 0x138 s) else s

/-- A frame boundary: a frame that is still incomplete is a miss and is abandoned; then the commits (R269, R278, R279). -/
def boundary (c : Nat) (s : State) : State :=
  let s := if (cchan c s).busy && !(cchan c s).missed then frameMiss c s else s
  boundaryFrame c (readyLayers c s) (frameAbandon c none (setReg pgCmp c 0x124 0 s))

/-- FRAME_BOUNDARY of an enabled channel. -/
def frameBoundary (c : Nat) (s : State) : State := if chEnabled c s && !(dark pgCmp s) then boundary c s else s

/-! ## Enable and disable (R263, R282) -/

/-- PCLK_INC of a channel. -/
def pclkInc (c : Nat) (s : State) : Nat := (getReg pgCmp c 0x114 s).toNat

/-- CMP_STS: the sum of the enabled pixel rates in whole MHz, and the enabled channels. -/
def cmpSync (s : State) : State :=
  let on := (List.range 16).filter (fun c => chEnabled c s)
  let sum := on.foldl (fun n c => n + pclkInc c s) 0
  setReg pgCmp 0 0x100 (w32 (sum * 1000 / 2 ^ 30 % 2 ^ 13 + on.foldl (fun n c => n + 2 ^ c) 0 * 65536)) s

/-- EN_ERR of an enable; 0 where every check passes (R263). -/
def enableError (c : Nat) (s : State) : Nat :=
  let slot := slotOf (chSlot c s) s
  let (ha, ht) := (hActive c s, getFld pgCmp c 0x118 16 16 s)
  let (va, vt) := (vActive c s, getFld pgCmp c 0x11C 16 16 s)
  let line := getFld pgCmp c 0x120 0 16 s
  let (mw, mh, mr) := if privileged c then (3840, 2160, 1200) else (2560, 1440, 400)
  let sum := ((List.range 16).filter (fun k => chEnabled k s)).foldl (fun n k => n + pclkInc k s) (pclkInc c s)
  if slot.state ≠ 1 ∨ (privileged c ∧ slot.func ≠ 0) then 1
  else if ha < 1 ∨ mw < ha ∨ ht < ha + 16 ∨ va < 1 ∨ mh < va ∨ vt < va + 1 ∨ line < va ∨ vt < line then 2
  else if mr * 2 ^ 30 < pclkInc c s * 1000 then 3
  else if 8000 * 2 ^ 30 < sum * 1000 then 4
  else 0

/-- The references of a part of a copy but those on fences that the slot owns, where these follow R204. -/
def releaseOthers (c p : Nat) (kill : Bool) (w : List Word) (s : State) : State :=
  let slot := chSlot c s
  ((partRefs c p w s).filter (fun x => !(kill && ownedFence slot s x))).foldl (refDrop slot) s

/-- The references of both copies of a channel released; a kill leaves those on fences that the slot owns to R204 (R282). -/
def releaseChannel (c : Nat) (kill : Bool) (s : State) : State :=
  let x := cchan c s
  let s := x.actRef.foldl (fun s p => releaseOthers c p kill (actPart c p s) s) s
  let s := x.shRef.foldl (fun s p => releaseOthers c p kill (shadowPart c p s) s) s
  setCchan c { cchan c s with actRef := [], shRef := [] } s

/-- The command that a queue holds, if it holds one. -/
def heldCommand (k q : Nat) (s : State) : Option (List Word) :=
  let o := Owner.queue k q
  if !(queueOf k q s).held then none
  else
    match fetchPos o s with
    | none => none
    | some (va, _) =>
      match (vaRead rqFe k va 32 .rd s).1 with
      | .ok bs => some (rowWords 4 8 bs)
      | .error _ => none

/-- The held COMPOSEs of a channel's slot end with a status (R282). -/
def endHeld (c status reason detail : Nat) (s : State) : State :=
  let k := chSlot c s
  (List.range 16).foldl (fun s q =>
    match heldCommand k q s with
    | some w =>
      if opOf w = 0x03 ∧ argsOf w % 16 = c then
        beginJob (.queue k q) w (fun j s => endJob j status reason detail s) s
      else s
    | none => s) s

/-- What stops a channel (R282). -/
inductive ChStop where
  | disable
  | kill
  | funcDisable
deriving DecidableEq, Repr

/-- The reason of a stop. -/
def ChStop.reason : ChStop → Nat
  | .disable => rChDisabled
  | .kill => 0x0007
  | .funcDisable => 0x0008

/-- A channel stops: frame abandoned, armed and held jobs ended, pending state gone, references released unless the
function is disabled (R282). -/
def channelStop (c : Nat) (e : ChStop) (s : State) : State :=
  let s := frameAbandon c (some (4, e.reason)) s
  let s := match (cchan c s).armed with
    | some j => endJob j 4 e.reason (composeDetail c) s
    | none => s
  let s := endHeld c 4 e.reason (composeDetail c) s
  let s := setFld pgCmp c 0x10C 1 1 0 (setFld pgCmp c 0x10C 8 8 0 (setFld pgCmp c 0x110 0 1 0 s))
  let s := setCchan c { cchan c s with armed := none } s
  if e = .funcDisable then setCchan c { cchan c s with actRef := [], shRef := [] } s else releaseChannel c (e == .kill) s

/-- Fields of CH_CTL other than EN that a write changes: SLOT only while EN = 0 (R263). -/
def ctlFields (c : Nat) (v : Word) (s : State) : State :=
  let s := setFld pgCmp c 0x108 1 2 (fld v 1 2) s
  if chEnabled c s then s else setFld pgCmp c 0x108 8 6 (fld v 8 6) s

/-- A write of CH_CTL with EN = 1. -/
def channelEnable (v : Word) (s : State) : State :=
  let c := getFld pgCmp 0 0x104 0 4 s
  let was := chEnabled c s
  let s := ctlFields c v s
  if was then s
  else
    let e := enableError c s
    let s := setFld pgCmp c 0x10C 16 3 e s
    if e ≠ 0 then s
    else boundary c (cmpSync (setFld pgCmp c 0x108 0 1 1 (setFld pgCmp c 0x10C 0 1 1 s)))

/-- A write of CH_CTL with EN = 0. -/
def channelDisable (v : Word) (s : State) : State :=
  let c := getFld pgCmp 0 0x104 0 4 s
  let was := chEnabled c s
  let s := ctlFields c v s
  if !was then s
  else
    let s := channelStop c .disable s
    cmpSync (setFld pgCmp c 0x108 0 1 0 (setFld pgCmp c 0x10C 0 1 0 s))

/-- A slot is killed or its function is disabled: its channels stop (R282). -/
def composerStop (slot : Nat) (e : ChStop) (s : State) : State :=
  ((List.range 16).filter (fun c => chEnabled c s && chSlot c s == slot)).foldl (fun s c => channelStop c e s) s

/-- A job of the composer ends from outside: the frame or the commit that it armed goes on without it. -/
def cmpForget (j : Nat) (s : State) : State :=
  { s with cmp := s.cmp.map (fun e => (e.1, { e.2 with
      armed := if e.2.armed = some j then none else e.2.armed, job := if e.2.job = some j then none else e.2.job })) }

/-! ## Meanings -/

/-- COMPOSE (R266). -/
def execCompose (fe : Fetcher) (s : State) : Out := toNext (onCommand fe (selOp 0x03) composeCmd s)

/-- CHANNEL_ENABLE: a write of CH_CTL with EN = 1 (R263). -/
def execChannelEnable (r : Requester) (v : Word) (s : State) : Out :=
  toNext (if bit v 0 then blockWrite r pgCmp 0x108 (channelEnable v) s else s)

/-- CHANNEL_DISABLE: a write of CH_CTL with EN = 0 (R282). -/
def execChannelDisable (r : Requester) (v : Word) (s : State) : Out :=
  toNext (if bit v 0 then s else blockWrite r pgCmp 0x108 (channelDisable v) s)

/-- CH_COMMIT_ARM (R268). -/
def execChCommitArm (r : Requester) (v : Word) (s : State) : Out := toNext (blockWrite r pgCmp 0x110 (commitArm v) s)

/-- FRAME_BOUNDARY (R269). -/
def execFrameBoundary (c : Fin 16) (s : State) : Out := toNext (frameBoundary c.val s)

/-- FRAME_DEADLINE_MISS (R279). -/
def execFrameDeadlineMiss (c : Fin 16) (s : State) : Out := toNext (deadlineLine c.val s)

/-- FRAME_COMPLETE (R277). -/
def execFrameComplete (c : Fin 16) (s : State) : Out := toNext (frameComplete c.val s)

end Sys2Proof.Machine
end

