-- ==== Sys2Proof/Machine/Texture.lean ====
section
/-!
DEFINITION. Plain arithmetic of triangles and textures: interpolation over a snapped triangle, texel addresses, taps, levels of
detail and the boxes of footprints (R241, R248, R249, R253 to R256).
-/
namespace Sys2Proof.Machine

/-! ## Triangles on the screen -/

/-- A word that is a NaN or an infinity. -/
def notFinite (a : Word) : Bool := a.toNat / 2 ^ 23 % 256 == 255

/-- A coordinate in units of 1/256 pixel, rounded with RNE. -/
def snap (a : Word) : Int := fvToInt false (fvMul (f32 a) (fvOf 256 0))

/-- Twice the signed area of a snapped triangle; positive where it is clockwise on the screen, y downwards. -/
def area2 (a b c : Int × Int) : Int := (b.1 - a.1) * (c.2 - a.2) - (c.1 - a.1) * (b.2 - a.2)

/-- The corners of a record, snapped. -/
def bodyTri (body : List Word) : (Int × Int) × (Int × Int) × (Int × Int) :=
  let v := fun i => (snap (nth 0 body (4 * i)), snap (nth 0 body (4 * i + 1)))
  (v 0, v 1, v 2)

/-- The screen barycentrics of a point, each rounded once. -/
def baryAt (body : List Word) (r : Int × Int) : List Word :=
  let (a, b, c) := bodyTri body
  let s := area2 a b c
  [fRat (area2 b c r) s, fRat (area2 c a r) s, fRat (area2 a b r) s]

/-- The centre of a pixel. -/
def centreAt (px : Nat × Nat) : Int × Int := (256 * px.1 + 128, 256 * px.2 + 128)

/-- Weighted mean: Σ wᵢ aᵢ ÷ Σ wᵢ in index order. -/
def wMean (w a : List Word) : Word := fDiv (fSum ((w.zip a).map (fun e => fMul e.1 e.2))) (fSum w)

/-- The vertices' values at a point, perspective-correct: their mean by `wᵢ = λᵢ × (1/w)ᵢ` (R249). -/
def perspW (body : List Word) (r : Int × Int) : List Word :=
  ((baryAt body r).zipIdx).map (fun e => fMul e.1 (nth 0 body (4 * e.2 + 3)))
def perspAt (body : List Word) (vary : List (List Word)) (r : Int × Int) : List Word :=
  let w := perspW body r
  (List.range (nth [] vary 0).length).map (fun k => wMean w (vary.map (fun v => nth 0 v k)))

/-- The interpolated varyings of a pixel, of the three vertices' varyings. -/
def varyAt (body : List Word) (vary : List (List Word)) (px : Nat × Nat) : List Word := perspAt body vary (centreAt px)

/-! ## Textures (R253, R254) -/

/-- A texture descriptor's 8 words. -/
def tVa (d : List Word) : Nat := dLong d 0 % 2 ^ 48
def tWidth (d : List Word) : Nat := dWord d 2 % 2 ^ 14 + 1
def tHeight (d : List Word) : Nat := dWord d 2 / 2 ^ 16 % 2 ^ 14 + 1
def tLevels (d : List Word) : Nat := dWord d 3 % 16 + 1
def tFormat (d : List Word) : Nat := dWord d 3 / 2 ^ 4 % 16
def tFilter (d : List Word) : Nat := dWord d 3 / 2 ^ 8 % 4
def tWrapU (d : List Word) : Nat := dWord d 3 / 2 ^ 10 % 4
def tWrapV (d : List Word) : Nat := dWord d 3 / 2 ^ 12 % 4
def tSparse (d : List Word) : Bool := dWord d 3 / 2 ^ 14 % 2 == 1
def tResVa (d : List Word) : Nat := dLong d 4 % 2 ^ 48

/-- A descriptor breaks R253. -/
def texBad (d : List Word) : Bool :=
  let w := dWord d
  2 ^ 16 ≤ w 1 || tVa d % 65536 != 0 || w 2 / 2 ^ 14 % 4 != 0 || 2 ^ 30 ≤ w 2 || 15 < tLevels d || 6 < tFormat d ||
  tFilter d == 3 || tWrapU d == 3 || tWrapV d == 3 || 2 ^ 15 ≤ w 3 || 2 ^ 16 ≤ w 5 || tResVa d % 8 != 0 || w 6 != 0 || w 7 != 0

/-- Bytes per texel. -/
def texelSize (f : Nat) : Nat := nth 1 [1, 2, 4, 4, 2, 8, 4] f

/-- log₂ of a texture tile's width and height in texels. -/
def texTileLog (f : Nat) : Nat × Nat :=
  let b := texelSize f
  if b = 1 then (8, 8) else if b = 2 then (8, 7) else if b = 4 then (7, 7) else (7, 6)

/-- Size of a level. -/
def levelSize (d : List Word) (l : Nat) : Nat × Nat := (max 1 (tWidth d / 2 ^ l), max 1 (tHeight d / 2 ^ l))

/-- Texture tiles of a level: columns and rows. -/
def levelTiles (d : List Word) (l : Nat) : Nat × Nat :=
  let (w, h) := levelSize d l
  let (lw, lh) := texTileLog (tFormat d)
  ((w + 2 ^ lw - 1) / 2 ^ lw, (h + 2 ^ lh - 1) / 2 ^ lh)

/-- The first texture tile of a level. -/
def levelBase (d : List Word) (l : Nat) : Nat :=
  (List.range l).foldl (fun n k => n + (levelTiles d k).1 * (levelTiles d k).2) 0

/-- The Morton index in a tile of 2^lw × 2^lh texels: bits from bit 0, u first; the wider dimension's others above. -/
def morton (lw lh u v : Nat) : Nat :=
  let m := min lw lh
  (List.range m).foldl (fun n k => n + u / 2 ^ k % 2 * 2 ^ (2 * k) + v / 2 ^ k % 2 * 2 ^ (2 * k + 1)) 0 +
    (u / 2 ^ m % 2 ^ (lw - m)) * 2 ^ (2 * m) + (v / 2 ^ m % 2 ^ (lh - m)) * 2 ^ (2 * m)

/-- The tile number and the address of a texel. -/
def texelAt (d : List Word) (l x y : Nat) : Nat × Nat :=
  let (lw, lh) := texTileLog (tFormat d)
  let t := levelBase d l + y / 2 ^ lh * (levelTiles d l).1 + x / 2 ^ lw
  (t, tVa d + t * 65536 + morton lw lh (x % 2 ^ lw) (y % 2 ^ lh) * texelSize (tFormat d))

/-- A texel's components. -/
def texelDec (f n : Nat) : List Word :=
  match f with
  | 0 => [unormDec 8 (n % 256), fZero, fZero, fOne]
  | 1 => [unormDec 8 (n % 256), unormDec 8 (n / 256 % 256), fZero, fOne]
  | 2 => colorDec 1 n
  | 3 => colorDec 2 n
  | 4 => [halfDec n, fZero, fZero, fOne]
  | 5 => colorDec 3 n
  | _ => colorDec 5 n

/-- A texel coordinate wrapped into `[0, n)`. -/
def texWrap (mode n : Nat) (i : Int) : Nat :=
  if mode = 0 then (i % (n : Int)).toNat
  else if mode = 1 then (min (max i 0) ((n : Int) - 1)).toNat
  else
    let m := (i % (2 * n : Int)).toNat
    if m < n then m else 2 * n - 1 - m

/-- The largest integer not above a finite word. -/
def floorInt (a : Word) : Int :=
  match f32 a with
  | .fin n m e =>
    let v : Int := if n then -(m : Int) else m
    if 0 ≤ e then v * 2 ^ e.toNat else v / 2 ^ (-e).toNat
  | _ => 0

/-- The first tap and the weight of the second, in 1/256, along one dimension: the texel coordinate is u × size, less one
half for filtered taps. -/
def tapOf (nearest : Bool) (u : Word) (n : Nat) : Int × Nat :=
  let c := fMul u (fInt n)
  if nearest then (floorInt c, 0)
  else
    let c := fSub c (fRat 1 2)
    let i := floorInt c
    (i, (fvToInt false (fvMul (fvAdd (f32 c) (fvOf (-i) 0)) (fvOf 256 0))).toNat)

/-- The taps of a level in tap order: texel and weight in 1/65536. -/
def levelTaps (d : List Word) (l : Nat) (u v : Word) : List ((Nat × Nat) × Nat) :=
  let (w, h) := levelSize d l
  let nearest := tFilter d == 0
  let (i, a) := tapOf nearest u w
  let (j, b) := tapOf nearest v h
  let x := fun (k : Int) => texWrap (tWrapU d) w (i + k)
  let y := fun (k : Int) => texWrap (tWrapV d) h (j + k)
  if nearest then [((x 0, y 0), 65536)]
  else [((x 0, y 0), (256 - a) * (256 - b)), ((x 1, y 0), a * (256 - b)), ((x 0, y 1), (256 - a) * b), ((x 1, y 1), a * b)]

/-- The filtered components of a level's taps, in tap order (R256). One tap alone is delivered as it is read, a NaN of an R32F texel
with its bits: nothing is computed from it (DESIGN CHOICE, log 92). -/
def filterTaps (taps : List (Word × List Word)) : List Word :=
  match taps with
  | [e] => e.2
  | l => (List.range 4).map (fun k => fSum (l.map (fun e => fMul e.1 (nth 0 e.2 k))))

/-! ## Levels of detail (R256) -/

/-- A square root with RNE. -/
def fSqrt (a : Word) : Word := let q := fvSqrt (f32 a); toF32 q.1 q.2

/-- Bits of the logarithm of `m / 2^63` in [1, 2) below its point, by squaring. -/
def logBits : Nat → Nat → Nat → Nat
  | 0, _, a => a
  | n + 1, m, a =>
    let q := m * m / 2 ^ 63
    if 2 ^ 64 ≤ q then logBits n (q / 2) (2 * a + 1) else logBits n q (2 * a)

/-- log₂ in FP32: 40 bits below the point, then RNE (DESIGN CHOICE, log 92). -/
def fLog2 (a : Word) : Word :=
  match f32 a with
  | .fin false m e =>
    let l := Nat.log2 m
    toF32 (fvOf (((l : Int) + e) * 2 ^ 40 + logBits 40 (m * 2 ^ (63 - l)) 0) (-40))
  | .inf false => 0x7F800000#32
  | .zero _ => 0xFF800000#32
  | _ => 0x7FC00000#32

/-- The length of a derivative of (u, v) in texels of level 0. -/
def texLen (d : List Word) (a b : Word × Word) : Word :=
  let x := fMul (fSub b.1 a.1) (fInt (tWidth d))
  let y := fMul (fSub b.2 a.2) (fInt (tHeight d))
  fSqrt (fAdd (fMul x x) (fMul y y))

/-- The LOD of (u, v) at a place, one pixel to the right of it, and one below it: which differences a quad's derivatives are is not
stated (DESIGN CHOICE, log 92). -/
def texLod (d : List Word) (at' right below : Word × Word) : Word :=
  let x := texLen d at' right
  let y := texLen d at' below
  fLog2 (if isNan x then x else if isNan y then y else if fLt x y then y else x)

/-- An LOD rounded to a level number, or to the one below it; beyond every level where it is infinite. -/
def lodInt (down : Bool) (lod : Word) : Int :=
  match f32 lod with
  | .inf n => if n then -1 else 16
  | v => if down then floorInt lod else fvToInt false v

/-- A level number within the texture's levels. -/
def levelIn (d : List Word) (i : Int) : Nat := (min (max i 0) ((tLevels d : Int) - 1)).toNat

/-- The levels that an LOD selects, and for trilinear filtering the weight of the second. -/
def lodLevels (d : List Word) (lod : Word) : Nat × Nat × Word :=
  if tFilter d = 2 then
    let i := lodInt true lod
    let l := levelIn d i
    (l, levelIn d (i + 1), if levelIn d (i + 1) = l then fZero else fSub lod (fInt i))
  else
    let l := levelIn d (lodInt false lod)
    (l, l, fZero)

/-! ## Footprints (R255) -/

/-- The points at which a footprint is evaluated for a tile whose left and top are `x0`, `y0`: the corners of what the tile and the
triangle's bounding rectangle share, and the triangle's vertices inside the tile; the vertices alone where w ≤ 0 at a corner. -/
def footPoints (body : List Word) (x0 y0 : Int) : List (Int × Int) :=
  let (a, b, c) := bodyTri body
  let t := [a, b, c]
  let x1 := x0 + 8192
  let y1 := y0 + 8192
  let lx := max x0 (min a.1 (min b.1 c.1))
  let hx := min x1 (max a.1 (max b.1 c.1))
  let ly := max y0 (min a.2 (min b.2 c.2))
  let hy := min y1 (max a.2 (max b.2 c.2))
  let corners := [(lx, ly), (hx, ly), (lx, hy), (hx, hy)]
  if corners.any (fun r => !(fLt fZero (fSum (perspW body r)))) then t
  else corners ++ t.filter (fun r => x0 ≤ r.1 && r.1 ≤ x1 && y0 ≤ r.2 && r.2 ≤ y1)

/-- (u, v) of the vertices at a point. -/
def footUv (body : List Word) (uv : List (List Word)) (r : Int × Int) : Word × Word :=
  let e := perspAt body uv r
  (nth 0 e 0, nth 0 e 1)

/-- The texels of one dimension between two coordinates, one more on each side: the first and how many. -/
def footSpan (lo hi : Word) (n : Nat) : Int × Nat :=
  let a := floorInt (fMul lo (fInt n)) - 1
  let b := floorInt (fMul hi (fInt n)) + 1
  (a, (b - a + 1).toNat)

/-- Smallest and largest of a list of words. -/
def fMinOf (l : List Word) : Word := l.foldl (fun a b => if fLt b a then b else a) (l.headD 0)
def fMaxOf (l : List Word) : Word := l.foldl (fun a b => if fLt a b then b else a) (l.headD 0)

/-- The levels that the LOD can select over some points; every level where an LOD there is no number. -/
def footLevels (d : List Word) (lods : List Word) : List Nat :=
  if lods.any isNan then List.range (tLevels d)
  else
    let lo := lodLevels d (fMinOf lods)
    let hi := lodLevels d (fMaxOf lods)
    span lo.1 (hi.2.1 - lo.1 + 1)

/-- The boxes of a footprint: level, first texel and number along u and along v; none where a coordinate is no finite number. -/
def footBoxes (d body : List Word) (uv : List (List Word)) (x0 y0 : Int) : List (Nat × (Int × Nat) × Int × Nat) :=
  let ps := footPoints body x0 y0
  let at' := ps.map (footUv body uv)
  if at'.any (fun e => notFinite (fMul e.1 (fInt (tWidth d))) || notFinite (fMul e.2 (fInt (tHeight d)))) then []
  else
    let lods := ps.map (fun r => texLod d (footUv body uv r) (footUv body uv (r.1 + 256, r.2)) (footUv body uv (r.1, r.2 + 256)))
    let us := at'.map (·.1)
    let vs := at'.map (·.2)
    (footLevels d lods).map (fun l =>
      let n := levelSize d l
      (l, footSpan (fMinOf us) (fMaxOf us) n.1, footSpan (fMinOf vs) (fMaxOf vs) n.2))

/-- The texels that a span names in a dimension of `n` texels. -/
def footTexels (mode n : Nat) (e : Int × Nat) : List Nat :=
  if mode = 1 then span (texWrap 1 n e.1) (texWrap 1 n (e.1 + e.2 - 1) - texWrap 1 n e.1 + 1)
  else ((List.range (min e.2 (2 * n))).map (fun (k : Nat) => texWrap mode n (e.1 + k))).eraseDups

/-- The texels of a footprint, as tile number and address. -/
def boxTexels (d : List Word) (b : Nat × (Int × Nat) × Int × Nat) : List (Nat × Nat) :=
  let n := levelSize d b.1
  ((footTexels (tWrapV d) n.2 b.2.2).map (fun y =>
    (footTexels (tWrapU d) n.1 b.2.1).map (fun x => texelAt d b.1 x y))).flatten

end Sys2Proof.Machine
end

