-- ==== Sys2Proof/Machine/Tile.lean ====
section
/-!
DEFINITION. Render passes: RENDER, vertex phases, binning, the chunk pool and its stalls, and what a pass leaves at its end (R232 to R244, R246,
R255).
-/
namespace Sys2Proof.Machine

/-! ## Passes -/

/-- Reasons of Table 9-9. -/
abbrev rPoolEmpty : Nat := 0x0100
abbrev rPoolBusy : Nat := 0x0101
abbrev rPrimLimit : Nat := 0x0102

/-- A pass by its job. -/
def passOf (j : Nat) (s : State) : Option Pass := tabFind j s.tlr.passes

/-- A pass set. -/
def setPass (j : Nat) (x : Pass) (s : State) : State := { s with tlr := { s.tlr with passes := tabSet j x s.tlr.passes } }

/-- A pass changed. -/
def passMod (j : Nat) (f : Pass → Pass) (s : State) : State :=
  match passOf j s with
  | some x => setPass j (f x) s
  | none => s

/-- The pass that runs: not preempted, its job not ended. -/
def runPass (s : State) : Option (Nat × Pass) :=
  if dark pgTlr s then none else s.tlr.passes.find? (fun e => !e.2.preempted && !(jobEnded e.1 s))

/-- The slot of a job. -/
def jobSlot (j : Nat) (s : State) : Nat := (jobRef j s).slot

/-- A job that a check has ended: its work on the cores stops too. -/
def passHalt (j : Nat) (s : State) : State :=
  if jobEnded j s then (workCores j s).foldl (coreForget j) (stopWork j s) else s

/-! ## The pass descriptor (Table 9-2, R235) -/

/-- Fields of the descriptor. -/
def pW (x : Pass) (i : Nat) : Nat := dWord x.desc i
def pVa (x : Pass) (i : Nat) : Nat := dLong x.desc i % 2 ^ 48
def passWidth (x : Pass) : Nat := pW x 0 % 65536
def passHeight (x : Pass) : Nat := pW x 0 / 65536
def passSamples (x : Pass) : Nat := 2 ^ (pW x 1 % 4)
def passTx (x : Pass) : Nat := (passWidth x + 31) / 32
def passTy (x : Pass) : Nat := (passHeight x + 31) / 32

/-- Attachment fields (R235). -/
def attVa (x : Pass) (a : Nat) : Nat := pVa x (32 + 8 * a)
def attRva (x : Pass) (a : Nat) : Nat := pVa x (34 + 8 * a)
def attPitch (x : Pass) (a : Nat) : Nat := pW x (36 + 8 * a) % 2 ^ 24
def attFormat (x : Pass) (a : Nat) : Nat := pW x (37 + 8 * a) % 16
def attLoad (x : Pass) (a : Nat) : Nat := pW x (37 + 8 * a) / 16 % 4
def attStore (x : Pass) (a : Nat) : Nat := pW x (37 + 8 * a) / 64 % 4
def attRpitch (x : Pass) (a : Nat) : Nat := pW x (37 + 8 * a) / 256
def attClear (x : Pass) (a : Nat) : Nat := dLong x.desc (38 + 8 * a)

/-- Bytes per sample of a format (Table 9-4). -/
def attSize (f : Nat) : Nat := if f = 0 then 0 else if f = 3 ∨ f = 7 then 8 else 4

/-- The attachments in use. -/
def passAtts (x : Pass) : List Nat := (List.range 9).filter (fun a => attFormat x a != 0)

/-- TILE_BYTES. -/
def tileBytes (x : Pass) : Nat := 1024 * passSamples x * (passAtts x).foldl (fun n a => n + attSize (attFormat x a)) 0

/-- Tiles in flight that a core holds. -/
def tileRoom (x : Pass) : Nat :=
  if tileBytes x = 0 then 1024 else pW x 1 / 16 % 16 * 16384 / tileBytes x

/-- An attachment breaks Table 9-4 or the layout of R235. -/
def attBad (x : Pass) (a : Nat) : Bool :=
  let w := fun i => pW x (32 + 8 * a + i)
  let f := attFormat x a
  2 ^ 16 ≤ w 1 || 2 ^ 16 ≤ w 3 || 2 ^ 24 ≤ w 4 || attVa x a % 64 != 0 || attRva x a % 64 != 0 || attPitch x a % 64 != 0 ||
  attRpitch x a % 64 != 0 || attLoad x a == 3 || attStore x a == 3 ||
  (if a = 8 then !(f == 0 || f == 6 || f == 7) else 5 < f)

/-- The descriptor breaks R234 or R235. -/
def passBad (x : Pass) : Bool :=
  let w := pW x
  let t := w 1 / 16 % 16
  let g := w 1 / 256 % 16
  passWidth x == 0 || 8192 < passWidth x || passHeight x == 0 || 8192 < passHeight x ||
  w 1 % 4 == 3 || w 1 / 4 % 4 != 0 || w 1 / 2 ^ 12 % 16 != 0 || t == 0 || 8 < g || 16 < t + g ||
  [3, 5, 7, 11].any (fun i => 2 ^ 16 ≤ w i) || pVa x 2 % 64 != 0 || pVa x 4 % 64 != 0 || pVa x 6 % 128 != 0 ||
  pVa x 10 % 32 != 0 || w 8 == 0 || 65536 < w 8 || w 9 == 0 || 64 < w 9 ||
  (span 16 16).any (fun i => w i != 0) || (span 104 24).any (fun i => w i != 0) ||
  (List.range 9).any (attBad x) || t * 16384 < tileBytes x

/-! ## The tiler's accesses -/

/-- What the tiler does in order: an answer, or none where its job has ended or it waits. -/
abbrev Tm (α : Type) := State → Option α × State

/-- One thing after the other. -/
def tThen {α β : Type} (m : Tm α) (f : α → Tm β) : Tm β := fun s =>
  match m s with
  | (some a, s) => f a s
  | (none, s) => (none, s)

/-- An answer. -/
def tPure {α : Type} (a : α) : Tm α := fun s => (some a, s)

/-- A change of the state. -/
def tAct (f : State → State) : Tm Unit := fun s => (some (), f s)

/-- The job ends. -/
def tFail {α : Type} (j reason detail : Nat) : Tm α := fun s => (none, endCompute j 1 reason detail s)

/-- A read by the tiler: a failure ends the job (R159, R233). -/
def tRead (j va n : Nat) : Tm (List Byte) := fun s =>
  match vaReadAll rqTiler (jobSlot j s) va n .rd s with
  | (.ok bs, s) => (some bs, s)
  | (.error (e, at'), s) => (none, faultAccess rqTiler j at' .rd e s)

/-- A write by the tiler. -/
def tWrite (j va : Nat) (bs : List Byte) : Tm Unit := fun s =>
  match vaWriteAll rqTiler (jobSlot j s) va bs s with
  | (.ok _, s) => (some (), s)
  | (.error (e, at'), s) => (none, faultAccess rqTiler j at' .wr e s)

/-- A number read. -/
def tNat (j va n : Nat) : Tm Nat := tThen (tRead j va n) (fun bs => tPure (leNat bs))

/-- The same action for each element. -/
def tEach {α : Type} (f : α → Tm Unit) : List α → Tm Unit
  | [] => tPure ()
  | a :: t => tThen (f a) (fun _ => tEach f t)

/-- The pass. -/
def tPass (j : Nat) : Tm Pass := fun s => (passOf j s, s)

/-- The pass changed. -/
def tMod (j : Nat) (f : Pass → Pass) : Tm Unit := tAct (passMod j f)

/-! ## The chunk pool (R242, R243) -/

/-- A chunk: from the free stack, else from the ring; `some none` where neither holds one. -/
def takeChunk (j : Nat) (x : Pass) : Tm (Option Nat) :=
  let pool := pVa x 4
  tThen (tNat j pool 8) fun head =>
  if head ≠ 0 then
    let c := head / 65536 % 2 ^ 32 * 65536
    tThen (tNat j c 8) fun next =>
    tThen (tNat j (pool + 8) 4) fun n =>
    tThen (tWrite j pool (toLE 8 next ++ toLE 4 (n + (2 ^ 32 - 1)))) fun _ => tPure (some c)
  else
    tThen (tNat j (pool + 0x1C) 4) fun prod =>
    tThen (tNat j (pool + 0x20) 4) fun cons =>
    if prod = cons then tPure none
    else
      tThen (tNat j (pool + 0x10) 8) fun ring =>
      tThen (tNat j (pool + 0x18) 4) fun k =>
      let va := ring % 2 ^ 48 + 8 * (cons % 2 ^ (k % 32))
      tThen (tNat j va 8) fun e =>
      if e % 65536 ≠ 0 ∨ 2 ^ 48 ≤ e then tFail j 0x0017 va
      else tThen (tWrite j (pool + 0x20) (toLE 4 (cons + 1))) fun _ => tPure (some e)

/-- A chunk pushed onto the free stack. -/
def pushChunk (j : Nat) (x : Pass) (c : Nat) : Tm Unit :=
  let pool := pVa x 4
  tThen (tNat j pool 8) fun head =>
  tThen (tNat j (pool + 8) 4) fun n =>
  tThen (tWrite j c (toLE 8 head)) fun _ => tWrite j pool (toLE 8 c ++ toLE 4 (n + 1))

/-- A counter of Table 9-3 increased. -/
def sat32 (n : Nat) : Nat := satAdd (2 ^ 32 - 1) n 1

/-- Binning stalls at the current triangle (R244 step 1). -/
def binStall {α : Type} (j : Nat) (x : Pass) : Tm α :=
  tThen (tNat j (pVa x 4 + 0x0C) 4) fun n =>
  tThen (tWrite j (pVa x 4 + 0x0C) (toLE 4 (n + 1))) fun _ s =>
    let s := count32 pgTlr 0 0x110 (passMod j (fun x => { x with stalled := true, grace := 0, lows := sat32 x.lows }) s)
    let r := jobRef j s
    (none, sendMsix (slotOf r.slot s).func (queueOf r.slot r.queue s).vec s)

/-- Units of a chunk taken into use; its next pages are translated ahead (R155). -/
def chunkUse (j size c u n : Nat) : Tm (Nat × (Nat × Nat)) := fun s =>
  (some (c + size * u, (c, u + n)), prefetch rqTiler (jobSlot j s) (c + size * u) (65536 - size * u) s)

/-- Room for `n` units of 2^k bytes in the chunk in use, or in a new one: the address, and the chunk's use after it. -/
def takeUnits (j : Nat) (at' : Option (Nat × Nat)) (n size limit : Nat) : Tm (Nat × (Nat × Nat)) :=
  let fresh : Tm (Nat × (Nat × Nat)) :=
    tThen (tPass j) fun x =>
    tThen (takeChunk j x) fun c =>
    match c with
    | none => binStall j x
    | some c => tThen (tMod j fun x => { x with chunks := c :: x.chunks }) fun _ => chunkUse j size c 0 n
  match at' with
  | some (c, u) => if u + n ≤ limit then chunkUse j size c u n else fresh
  | none => fresh

/-! ## Draw records (Table 9-5) -/

/-- The record of a draw. -/
def drawRec (x : Pass) (d : Nat) : List Word := tabGet [] d x.recs

/-- Fields of a draw record. -/
def dIdxFmt (r : List Word) : Nat := dWord r 3 % 4
def dFlag (r : List Word) (k : Nat) : Bool := dWord r 3 / 2 ^ k % 2 == 1
def dStrip (r : List Word) : Bool := dFlag r 2
def dRestart (r : List Word) : Bool := dFlag r 3
def dCull (r : List Word) : Nat := dWord r 3 / 16 % 4
def dFrontCw (r : List Word) : Bool := dFlag r 6
def dPixAccess (r : List Word) : Bool := dFlag r 7
def dDiscard (r : List Word) : Bool := dFlag r 8
def dZout (r : List Word) : Bool := dFlag r 9
def dZfunc (r : List Word) : Nat := dWord r 3 / 2 ^ 10 % 8
def dZtest (r : List Word) : Bool := dFlag r 13
def dZwrite (r : List Word) : Bool := dFlag r 14
def dStenEn (r : List Word) : Bool := dFlag r 15
def dVaryCount (r : List Word) : Nat := dWord r 8 / 2 ^ 16 % 128
def dPsRegs (r : List Word) : Nat := dWord r 14 % 256

/-- A record that breaks Table 9-5 or R250. -/
def drawBad (x : Pass) (r : List Word) : Bool :=
  let w := dWord r
  let foot := fun f => w (22 + f / 2) / 2 ^ (16 * (f % 2)) % 65536
  [1, 5, 7, 21].any (fun i => 2 ^ 16 ≤ w i) || 2 ^ 16 ≤ w 3 || dIdxFmt r == 3 ||
  dCull r == 3 || w 8 / 2 ^ 9 % 2 ^ 7 != 0 || 2 ^ 23 ≤ w 8 || w 8 % 512 % 16 != 0 || 256 < w 8 % 512 || 64 < dVaryCount r ||
  w 12 % 256 != 0 || 2 ^ 8 ≤ w 14 || !(regsOk (dPsRegs r)) || dPsRegs r < 9 + dVaryCount r || 2 ^ 27 ≤ w 15 ||
  2 ^ 9 ≤ w 16 || w 19 != 0 || w 20 % 32 != 0 || (List.range 4).any (fun f => 2 ^ 11 ≤ foot f) ||
  (span 24 8).any (fun i => w i != 0) ||
  pW x 9 % 128 * 1024 < 32 * regAlloc (dPsRegs r)

/-! ## Vertex phases (R232) -/

/-- A vertex kernel accepted. -/
def vertexStart (j : Nat) (k : Kernel) (s : State) : State :=
  if getFld pgCap 0 0x108 8 8 s * 1024 < k.codeBytes then launchFail j 0x000D s
  else if kernelBlocks k = 0 then s
  else if k.coop && coopRoom k s < kernelBlocks k then launchFail j 0x000C s
  else
    let s := (usedCores s).foldl (fun s p =>
      let c := coreOf p s
      setCore p { c with images := c.images.filter (fun m => m.job != j) } s) s
    setKernel j { k with pass := true } s

/-- The vertex launch descriptor of a draw, read and checked as LAUNCH does. -/
def vertexLaunch (j : Nat) (h off : Word) (s : State) : State :=
  match checkRange (jobRef j s) h off.toNat 64 s with
  | (.error rd, s) => jobFail j rd s
  | (.ok va, s) =>
    if va % 64 ≠ 0 then jobFail j (0x0017, va) s
    else
      match tRead j va 64 s with
      | (none, s) => s
      | (some bs, s) =>
        match tabFind j s.fe.jobs with
        | some b => launchDesc vertexStart b.owner j va (rowWords 4 16 bs) s
        | none => s

/-- The pixel code image and the parameter block of a draw: their addresses. -/
def pixelObjects (j : Nat) (r : List Word) (s : State) : Option (Nat × Nat) × State :=
  match checkRange (jobRef j s) (nth 0 r 11) (dWord r 12) (dWord r 13) s with
  | (.error rd, s) => (none, jobFail j rd s)
  | (.ok code, s) =>
    if getFld pgCap 0 0x108 8 8 s * 1024 < dWord r 13 then (none, launchFail j 0x000D s)
    else if dWord r 17 = 0 then (some (code, 0), s)
    else
      match checkRange (jobRef j s) (nth 0 r 17) (dWord r 18) 0 s with
      | (.error rd, s) => (none, jobFail j rd s)
      | (.ok param, s) => (some (code, param), s)

/-- The vertex phase of the next draw starts: its record is read (R236). -/
def vertexPhase (j : Nat) (s : State) : State :=
  match passOf j s with
  | none => s
  | some x =>
    let d := x.vs
    let va := pVa x 6 + 128 * d
    if pW x 8 ≤ d then s
    else
      match tRead j va 128 s with
      | (none, s) => s
      | (some bs, s) =>
        let r := rowWords 4 32 bs
        if drawBad x r then endCompute j 1 0x0017 va s
        else
          match pixelObjects j r s with
          | (none, s) => passHalt j s
          | (some o, s) =>
            let s := passMod j (fun x => { x with vs := d + 1, recs := tabSet d r x.recs, code := tabSet d o x.code }) s
            if dWord r 9 = 0 then s else passHalt j (vertexLaunch j (nth 0 r 9) (nth 0 r 10) s)

/-- The vertex kernel that runs, if one does, has completed (R128). -/
def vertexDone (j : Nat) (s : State) : Bool :=
  match kernelOf j s with
  | none => true
  | some k => kernelBlocks k ≤ k.finished && !(jobHasOps j s)

/-! ## RENDER -/

/-- The tiler takes a pass: none runs, and beside a preempted one only the compositor-priority slot's (R259). -/
def tilerFree (slot : Nat) (s : State) : Bool :=
  match s.tlr.passes with
  | [] => true
  | [e] => e.2.preempted && !(jobEnded e.1 s) && bit (getReg pgTlr 0 0x104 s) 31 && getFld pgTlr 0 0x104 0 6 s == slot
  | _ => false

/-- The cores of a pass: enabled ones of its clusters. -/
def passCores (mask : Nat) (s : State) : List Nat :=
  (List.range 80).filter (fun p => nbits mask (p / 5) 1 == 1 && coreEnabled p s)

/-- The reservation of R257 on cores that do not hold it yet. -/
def passReserve (j : Nat) (ps : List Nat) (s : State) : State :=
  match passOf j s with
  | none => s
  | some x =>
    let r := passRes x
    let ps := ps.filter (fun p => !(x.held.contains p))
    let s := ps.foldl (fun s p =>
      let c := coreOf p s
      setCore p { c with carve := c.carve + r.1, psRes := c.psRes + r.2 } s) s
    setPass j { x with held := x.held ++ ps } s

/-- The tile header table written empty (R239). -/
def headersClear (j : Nat) (x : Pass) : Tm Unit := tWrite j (pVa x 2) (List.replicate (16 * passTx x * passTy x) 0)

/-- A pass starts: the pool is taken, the headers are written, the cores reserve, and draw 0's vertex phase starts. -/
def renderStart (j : Nat) (x : Pass) (s : State) : State :=
  match tNat j (pVa x 4 + 0x24) 4 s with
  | (none, s) => s
  | (some b, s) =>
    if b % 2 = 1 then endJob j 1 rPoolBusy (pVa x 4) s
    else
      match tWrite j (pVa x 4 + 0x24) (toLE 4 (b + 1)) s with
      | (none, s) => s
      | (some _, s) =>
        let s := setPass j { x with cores := passCores x.mask s } s
        match headersClear j x s with
        | (none, s) => s
        | (some _, s) => vertexPhase j (passReserve j (passCores x.mask s) s)

/-- RENDER with its descriptor (R234). -/
def renderDesc (o : Owner) (j va : Nat) (d : List Word) (s : State) : State :=
  let m := ownMask o s
  let x : Pass := { slot := ownSlot o s, desc := d, mask := if m = 0 then 0xFFFF else m }
  if passBad x then jobFail j (0x0017, va) s else renderStart j x s

/-- RENDER: not started while the tiler serves another pass. -/
def renderCmd (o : Owner) (c : List Word) (_ : Nat) (s : State) : Option State :=
  if tilerFree (ownSlot o s) s then
    startJob o c (fun j s => withDesc o j rqTiler c 512 256 (renderDesc o j) s) s
  else none

/-! ## Triangles (R237, R238) -/

/-- A clip-space position. -/
structure ClipV where
  x : Word
  y : Word
  z : Word
  w : Word
deriving DecidableEq, Repr

/-- Screen x and y of a position, in FP32 (R237 step 3). -/
def screenX (p : Pass) (v : ClipV) : Word :=
  fAdd (nth 0 p.desc 12) (fDiv (fMul (fAdd (fDiv v.x v.w) fOne) (nth 0 p.desc 14)) (fInt 2))
def screenY (p : Pass) (v : ClipV) : Word :=
  fAdd (nth 0 p.desc 13) (fDiv (fMul (fSub fOne (fDiv v.y v.w)) (nth 0 p.desc 15)) (fInt 2))

/-- A closed triangle meets a closed rectangle `[x0, x1] × [y0, y1]`: no edge and no side separates them. -/
def triMeets (t : List (Int × Int)) (x0 y0 x1 y1 : Int) : Bool :=
  match t with
  | [a, b, c] =>
    let s : Int := if area2 a b c < 0 then -1 else 1
    let edge := fun (p q : Int × Int) =>
      [(x0, y0), (x1, y0), (x0, y1), (x1, y1)].any (fun r => 0 ≤ s * area2 p q r)
    t.any (fun p => p.1 ≤ x1) && t.any (fun p => x0 ≤ p.1) && t.any (fun p => p.2 ≤ y1) && t.any (fun p => y0 ≤ p.2) &&
    edge a b && edge b c && edge c a
  | _ => false

/-- The tiles whose closed rectangle a snapped triangle meets within the render area, row by row (R237 step 5). -/
def triTiles (p : Pass) (t : List (Int × Int)) : List Nat :=
  let w : Int := 256 * passWidth p
  let h : Int := 256 * passHeight p
  let col := fun (i : Nat) => ((8192 * i : Nat), min (8192 * ((i : Int) + 1)) w)
  let row := fun (i : Nat) => ((8192 * i : Nat), min (8192 * ((i : Int) + 1)) h)
  let xs := (List.range (passTx p)).filter (fun i => t.any (fun q => q.1 ≤ (col i).2) && t.any (fun q => ((col i).1 : Int) ≤ q.1))
  let ys := (List.range (passTy p)).filter (fun i => t.any (fun q => q.2 ≤ (row i).2) && t.any (fun q => ((row i).1 : Int) ≤ q.2))
  (ys.map (fun y => (xs.filter (fun x => triMeets t (col x).1 (row y).1 (col x).2 (row y).2)).map
    (fun x => y * passTx p + x))).flatten

/-- The piece of a triangle with given corners, or none where it has no area or is culled (R237 steps 3 to 5, R241); a corner
without finite screen coordinates culls it as step 1 does (DESIGN CHOICE, log 93). -/
def pieceOf (p : Pass) (r : List Word) (draw : Nat) (idx : List Nat) (vs : List ClipV) (clip : List Word) : Option BinPiece :=
  let t := vs.map (fun v => (snap (screenX p v), snap (screenY p v)))
  match t with
  | [a, b, c] =>
    let s := area2 a b c
    let front := decide (0 < s) == dFrontCw r
    if vs.any (fun v => notFinite (screenX p v) || notFinite (screenY p v)) ∨ s = 0 ∨ (dCull r = 1 ∧ !front) ∨ (dCull r = 2 ∧ front) then none
    else
      let vtx := (vs.zip t).map (fun e =>
        [fRat e.2.1 256, fRat e.2.2 256, fUnit (fDiv e.1.z e.1.w), fDiv fOne e.1.w])
      let last := w32 (draw % 65536 + b2n front * 2 ^ 16 + b2n (!clip.isEmpty) * 2 ^ 17)
      some { body := vtx.flatten ++ idx.map w32 ++ [last],
             clip := if clip.isEmpty then [] else clip ++ List.replicate 7 0, tiles := triTiles p t }
  | _ => none

/-- A corner of a clipped piece: each component by its barycentric coordinates. -/
def baryV (vs : List ClipV) (b : List Word) : ClipV :=
  let c := fun (f : ClipV → Word) => fSum ((b.zip vs).map (fun e => fMul e.1 (f e.2)))
  ⟨c (·.x), c (·.y), c (·.z), c (·.w)⟩

/-- The part of a polygon on the kept side of a plane: its corners are barycentric coordinates of the triangle, `f` gives a corner's
distance from the plane, and a corner at distance 0 is kept unless the plane is `open'`. -/
def clipPlane (open' : Bool) (f : V3 → Rat) (poly : List V3) : List V3 :=
  let keep := fun (b : V3) => if open' then decide (0 < f b) else decide (0 ≤ f b)
  ((poly.zip (poly.drop 1 ++ poly.take 1)).map (fun e =>
    let (a, b) := e
    let k := f a / (f a - f b)
    let cross : V3 := ⟨a.x + k * (b.x - a.x), a.y + k * (b.y - a.y), a.z + k * (b.z - a.z)⟩
    (if keep a then [a] else []) ++ (if keep a = keep b then [] else [cross]))).flatten

/-- A triangle's polygon after the near plane z = 0, w > 0, and the four sides of the guard band, exactly (R237 step 2). -/
def clipPoly (p : Pass) (vs : List ClipV) : List V3 :=
  let q := fun (w : Word) => (ratOf w).getD 0
  let lin := fun (g : ClipV → Rat) (b : V3) => v3Dot b ⟨g (nth ⟨0, 0, 0, 0⟩ vs 0), g (nth ⟨0, 0, 0, 0⟩ vs 1), g (nth ⟨0, 0, 0, 0⟩ vs 2)⟩
  let sx := fun (v : ClipV) => q (nth 0 p.desc 12) * q v.w + (q v.x + q v.w) * q (nth 0 p.desc 14) / 2
  let sy := fun (v : ClipV) => q (nth 0 p.desc 13) * q v.w + (q v.w - q v.y) * q (nth 0 p.desc 15) / 2
  let near := clipPlane false (lin (fun v => q v.z)) [⟨1, 0, 0⟩, ⟨0, 1, 0⟩, ⟨0, 0, 1⟩]
  let front := clipPlane true (lin (fun v => q v.w)) near
  [fun v => 16384 * q v.w + sx v, fun v => 16384 * q v.w - sx v, fun v => 16384 * q v.w + sy v, fun v => 16384 * q v.w - sy v].foldl
    (fun poly (g : ClipV → Rat) => clipPlane false (lin g) poly) front

/-- A number as the nearest binary32 word. -/
def ratNear (r : Rat) : Word := fRat r.num r.den

/-- A corner's barycentric coordinates in FP32 (R241). -/
def clipWords (b : V3) : List Word := [ratNear b.x, ratNear b.y, ratNear b.z]

/-- The pieces of a triangle (R237 steps 1 to 4): itself where no plane cuts it, else the fan of its polygon from the first corner, in
the polygon's order. The manual states the planes; the exact cut with one rounding a coordinate, and the fan, are DESIGN CHOICES (log
93). -/
def triPieces (p : Pass) (r : List Word) (draw : Nat) (idx : List Nat) (vs : List ClipV) : List BinPiece :=
  if vs.any (fun v => notFinite v.x || notFinite v.y || notFinite v.z || notFinite v.w) then []
  else
    let poly := clipPoly p vs
    if poly = [⟨1, 0, 0⟩, ⟨0, 1, 0⟩, ⟨0, 0, 1⟩] then (pieceOf p r draw idx vs []).toList
    else
      match poly with
      | a :: rest => (rest.zip (rest.drop 1)).filterMap (fun e =>
          let b := [clipWords a, clipWords e.1, clipWords e.2]
          pieceOf p r draw idx (b.map (baryV vs)) b.flatten)
      | [] => []

/-! ## Tile lists (R239, R240) -/

/-- The address of a tile's header. -/
def hdrVa (x : Pass) (tile : Nat) : Nat := pVa x 2 + 16 * tile

/-- A primitive record written, with its clip record. -/
def writeRec (j : Nat) (x : Pass) (p : BinPiece) : Tm Nat :=
  tThen (takeUnits j x.recAt (if p.clip.isEmpty then 1 else 2) 64 1024) fun u =>
  tThen (tMod j fun x => { x with recAt := some u.2 }) fun _ =>
  tThen (tWrite j u.1 ((p.body ++ p.clip).map (fun w => toLE 4 w.toNat)).flatten) fun _ => tPure u.1

/-- A list block for a tile. -/
def newBlock (j : Nat) : Tm Nat :=
  tThen (tPass j) fun x =>
  tThen (takeUnits j x.blkAt 1 256 256) fun u =>
  tThen (tMod j fun x => { x with blkAt := some u.2 }) fun _ =>
  tThen (tWrite j (u.1 + 0xF8) (toLE 8 0)) fun _ => tPure u.1

/-- An entry appended to a tile's list. -/
def appendEntry (j : Nat) (x : Pass) (tile recVa prim : Nat) : Tm Unit :=
  let h := hdrVa x tile
  tThen (tNat j h 8) fun lo =>
  tThen (tNat j (h + 8) 8) fun hi =>
  let head := lo % 2 ^ 40
  let count := lo / 2 ^ 40
  let tail := hi % 2 ^ 40 * 256
  let put := fun (head blk : Nat) =>
    tThen (tWrite j (blk + 8 * (count % 31)) (toLE 8 (recVa / 64 % 2 ^ 42 + prim % 2 ^ 22 * 2 ^ 42))) fun _ =>
    tThen (tWrite j h (toLE 8 (head + (count + 1) % 2 ^ 24 * 2 ^ 40))) fun _ =>
    tWrite j (h + 8) (toLE 8 (hi / 2 ^ 40 * 2 ^ 40 + blk / 256 % 2 ^ 40))
  if head = 0 then tThen (newBlock j) fun b => put (b / 256 % 2 ^ 40) b
  else if count % 31 = 0 then
    tThen (newBlock j) fun b => tThen (tWrite j (tail + 0xF8) (toLE 8 b)) fun _ => put head b
  else put head tail

/-! ## Footprints (R255) -/

/-- The varyings of a record's vertices, read in some way; for a clipped piece, those of its corners (R249). -/
def readVary (rd : Nat → Nat → Tm (List Byte)) (r body clip : List Word) : Tm (List (List Word)) :=
  let n := dVaryCount r
  let get := fun (i : Nat) (f : List Word → Tm (List (List Word))) =>
    tThen (rd (dLong r 6 % 2 ^ 48 + dWord body (12 + i) * (dWord r 8 % 512)) (4 * n)) fun bs => f (rowWords 4 n bs)
  if n = 0 then tPure [[], [], []]
  else
    get 0 fun a => get 1 fun b => get 2 fun c =>
    if dWord body 15 / 2 ^ 17 % 2 = 0 then tPure [a, b, c]
    else
      tPure ((List.range 3).map (fun i =>
        let w := (clip.drop (3 * i)).take 3
        (List.range n).map (fun k => wMean w [nth 0 a k, nth 0 b k, nth 0 c k])))

/-- The footprint bindings of a draw that are enabled: binding, texture, varying of u. A binding whose v is beyond the draw's
varyings has no coordinates to evaluate and gives no footprint (DESIGN CHOICE, log 92). -/
def drawFoots (r : List Word) : List (Nat × Nat × Nat) :=
  ((List.range 4).map (fun f => (f, dWord r (22 + f / 2) / 2 ^ (16 * (f % 2)) % 65536))).filterMap (fun e =>
    let u := e.2 / 2 ^ 4 % 64
    if e.2 / 2 ^ 10 % 2 = 1 ∧ u + 1 < dVaryCount r then some (e.1, e.2 % 16, u) else none)

/-- The address of a texture descriptor of a draw (Table 9-5). -/
def texDescVa (r : List Word) (t : Nat) : Nat := dLong r 20 % 2 ^ 48 + 32 * t

/-- The footprints of a piece in a tile, one an enabled binding. -/
def footsOf (j : Nat) (x : Pass) (r : List Word) (q : BinPiece) (tile : Nat) : List (Nat × Nat × Nat) → Tm (List Foot)
  | [] => tPure []
  | (f, t, u) :: rest =>
    tThen (tRead j (texDescVa r t) 32) fun bs =>
    let d := rowWords 4 8 bs
    if texBad d then tFail j 0x0017 (texDescVa r t)
    else
      tThen (readVary (tRead j) r q.body q.clip) fun vary =>
      let uv := vary.map (fun v => [nth 0 v u, nth 0 v (u + 1)])
      let b := footBoxes d q.body uv (8192 * (tile % passTx x : Nat)) (8192 * (tile / passTx x : Nat))
      tThen (footsOf j x r q tile rest) fun l => tPure ({ tile := tile, bind := f, desc := d, boxes := b } :: l)

/-- One action of the triangle in work: a record, an entry, or the end of a piece or of the triangle. -/
def triStep (j : Nat) : Tm Unit :=
  tThen (tPass j) fun x =>
  match x.tri with
  | none => tPure ()
  | some t =>
    match t.left with
    | [] => tMod j fun x => { x with
        tri := none, fresh := true, primsBinned := if t.hit then sat32 x.primsBinned else x.primsBinned }
    | p :: rest =>
      match p.recVa, p.tiles with
      | none, [] => tMod j fun x => { x with tri := some { t with left := rest } }
      | none, _ =>
        tThen (writeRec j x p) fun va =>
        tMod j fun x => { x with tri := some { t with left := { p with recVa := some va } :: rest } }
      | some _, [] => tMod j fun x => { x with tri := some { t with left := rest } }
      | some va, k :: ks =>
        tThen (footsOf j x (drawRec x x.bin) p k (drawFoots (drawRec x x.bin))) fun fs =>
        tThen (appendEntry j x k va t.prim) fun _ =>
        tMod j fun x => { x with
          foots := x.foots ++ fs,
          tri := some { t with left := { p with tiles := ks } :: rest, hit := true }, entries := sat32 x.entries }

/-- Actions that a triangle in work still needs, at most. -/
def triFuel (t : Option BinTri) : Nat :=
  match t with
  | none => 0
  | some t => t.left.foldl (fun n p => n + p.tiles.length + 2) 1

/-- `n` actions. -/
def triRun (j : Nat) : Nat → Tm Unit
  | 0 => tPure ()
  | n + 1 => tThen (triStep j) fun _ => triRun j n

/-- A triangle of the draw assembled: its positions are read, and it is binned (R237). -/
def triTake (j : Nat) (x : Pass) (idx : List Nat) : Tm Unit :=
  let r := drawRec x x.bin
  if 4194304 ≤ x.prim then tFail j rPrimLimit x.bin
  else
    let pos := fun (v : Nat) (f : ClipV → Tm Unit) =>
      tThen (tRead j (dLong r 4 % 2 ^ 48 + 16 * v) 16) fun bs =>
      let w := rowWords 4 4 bs
      f ⟨nth 0 w 0, nth 0 w 1, nth 0 w 2, nth 0 w 3⟩
    pos (nth 0 idx 0) fun a => pos (nth 0 idx 1) fun b => pos (nth 0 idx 2) fun c => fun s =>
      let ps := triPieces x r x.bin idx [a, b, c]
      let t : BinTri := { prim := x.prim, all := ps, left := ps }
      triRun j (triFuel (some t))
        (passMod j (fun x => { x with tri := some t, prim := x.prim + 1, primsIn := sat32 x.primsIn }) s)

/-! ## The index stream (R236, R237) -/

/-- An index of the draw, and whether it restarts the strip. -/
def readIndex (j : Nat) (r : List Word) (i : Nat) : Tm (Nat × Bool) :=
  let va := dLong r 0 % 2 ^ 48
  if dIdxFmt r = 2 then tPure (i, dStrip r && dRestart r && i == 2 ^ 32 - 1)
  else
    let n := if dIdxFmt r = 0 then 2 else 4
    tThen (tNat j (va + n * i) n) fun v => tPure (v, dStrip r && dRestart r && v == 2 ^ (8 * n) - 1)

/-- The vertices of a strip's triangle: an odd one has its first two exchanged; at which vertex it then begins is not
stated. -/
def stripTri (odd : Bool) (a b c : Nat) : List Nat :=
  if odd then
    let l := [b, a, c]
    let k := Config.stripStart % 3
    l.drop k ++ l.take k
  else [a, b, c]

/-- The next index of the draw taken. -/
def indexStep (j : Nat) : Tm Unit :=
  tThen (tPass j) fun x =>
  let r := drawRec x x.bin
  tThen (readIndex j r x.pos) fun e =>
  let next := { x with pos := x.pos + 1 }
  if e.2 then tAct (setPass j { next with hist := [], odd := false })
  else
    match x.hist with
    | [a, b] =>
      let y := if dStrip r then { next with hist := [b, e.1], odd := !x.odd } else { next with hist := [] }
      tThen (tAct (setPass j y)) fun _ => triTake j y (if dStrip r then stripTri x.odd a b e.1 else [a, b, e.1])
    | h => tAct (setPass j { next with hist := h ++ [e.1] })

/-- `n` indices. -/
def indexRun (j : Nat) : Nat → Tm Unit
  | 0 => tPure ()
  | n + 1 => tThen (indexStep j) fun _ => indexRun j n

/-- More triangles than a draw may hold, where the count is known without the indices. -/
def primsOver (r : List Word) : Bool :=
  let n := dWord r 2
  if dStrip r then !(dRestart r) && 4194304 + 2 < n else 4194304 < n / 3

/-- A draw has been binned: the next one, or the tile phase (R232). -/
def drawDone (j : Nat) : Tm Unit :=
  tMod j fun x =>
    let y := { x with bin := x.bin + 1, begun := false, pos := 0, hist := [], odd := false, prim := 0 }
    if y.bin = pW x 8 then { y with phase := 2, todo := List.range (passTx x * passTy x) } else y

/-- Binning of the current draw from where it stands. -/
def binGo (j : Nat) : Tm Unit :=
  tThen (tPass j) fun x =>
  let r := drawRec x x.bin
  if primsOver r then tFail j rPrimLimit x.bin
  else
    tThen (triRun j (triFuel x.tri)) fun _ =>
    tThen (indexRun j (dWord r 2 - x.pos)) fun _ => drawDone j

/-- A draw's binning begins: the kernel boundary of its vertex kernel, and the next draw's vertex phase. -/
def binBegin (j : Nat) (s : State) : State :=
  let s := kernelFlush j s
  let s := { s with cpt := { s.cpt with kernels := tabDel j s.cpt.kernels } }
  vertexPhase j (passMod j (fun x => { x with begun := true }) s)

/-- BIN_DRAW: the running pass bins the draw whose vertex kernel has completed, until it stalls. -/
def binDraw (s : State) : State :=
  match runPass s with
  | none => s
  | some (j, x) =>
    if x.phase ≠ 1 ∨ x.stalled ∨ (!x.begun ∧ !(vertexDone j s)) then s
    else
      let s := if x.begun then s else binBegin j s
      if jobEnded j s then s else (binGo j s).2

/-! ## Stalls (R244) -/

/-- GRACE_US; 0 acts as 1. -/
def passGrace (x : Pass) : Nat := max 1 (pW x 1 / 65536)

/-- POOL_PROD_RECHECK: a count of the TLR microsecond counter during a stall. -/
def poolRecheck (s : State) : State :=
  match runPass s with
  | none => s
  | some (j, x) =>
    if !x.stalled || x.phase != 1 || passGrace x ≤ x.grace then s
    else
      (tThen (tNat j (pVa x 4 + 0x1C) 4) (fun prod =>
        tThen (tNat j (pVa x 4 + 0x20) 4) fun cons =>
        tMod j fun x => { x with grace := x.grace + 1, stalled := prod == cons }) s).2

/-! ## The end of a pass (R246, Table 9-3) -/

/-- The statistics. -/
def passStats (x : Pass) : List Byte :=
  ([x.partials, x.lows, x.primsIn, x.primsBinned, x.entries, x.tiles, x.preempts, 0].map (toLE 4)).flatten

/-- Before the record: the chunks and the pool, unless the function was disabled, then the statistics. A failing access
turns an OK end into a fault. -/
def passTidy (j : Nat) (s : State) : State :=
  match passOf j s, tabFind j s.fe.jobs with
  | some x, some b =>
    match b.fin with
    | none => s
    | some f =>
      if jobHasOps j s then s
      else
        let s := setJob j { b with fin := none } s
        let s := if f.reason = 0x0008 then s
          else
            let s := (tEach (pushChunk j x) x.chunks s).2
            (tWrite j (pVa x 4 + 0x24) (toLE 4 0) s).2
        let s := (tWrite j (pVa x 10) (passStats x) s).2
        let s := { s with tlr := { s.tlr with passes := tabDel j s.tlr.passes } }
        match tabFind j s.fe.jobs with
        | some b => if f.status = 0 && b.fin.isSome then s else setJob j { b with fin := some f } s
        | none => s
  | _, _ => s

/-- An ended job retires in a way, a pass from its pool and with its statistics first (R186, R246). -/
def retireTidy (act : Nat → Job → JobEnd → Nat → State → State) (j : Nat) (s : State) : State := retireWith act j (passTidy j s)

/-! ## Meanings -/

/-- RENDER (R232). -/
def execRender (fe : Fetcher) (s : State) : Out := toNext (onCommand fe (selOp 0x02) renderCmd s)

/-- BIN_DRAW (R237). -/
def execBinDraw (s : State) : Out := toNext (binDraw s)

/-- POOL_PROD_RECHECK (R244). -/
def execPoolProdRecheck (s : State) : Out := toNext (poolRecheck s)

end Sys2Proof.Machine
end

