-- ==== Sys2Proof/Machine/Queues.lean ====
section
/-!
DEFINITION. Context slots, the queue commands, doorbells, the queue timeout, and the object interface's rows (R178 to
R183, R188, R189, R199 to R203, R451 to R453).
-/
namespace Sys2Proof.Machine

/-! ## Loading a context (R178, R181) -/

/-- A 64-bit field in two words of a record. -/
def recLong (w : List Word) (i : Nat) : Nat := (nth 0 w i).toNat + (nth 0 w (i + 1)).toNat * 2 ^ 32

/-- Two partitions, in units of 64 KiB, overlap. -/
def partsMeet (b n b' n' : Nat) : Bool := 0 < n && 0 < n' && b < b' + n' && b' < b + n

/-- The partition of a context record breaks R119: too large, past the end, or over a resident context of another
function. -/
def partBad (fn base size : Nat) (s : State) : Bool :=
  64 < size || 64 < base + size ||
  s.fe.slots.any (fun e => e.2.state != 0 && e.2.func != fn && partsMeet base size e.2.cmemBase e.2.cmemSize)

/-- A reserved bit of a context record is set, or a field lies outside its range (Table 7-1, R178). -/
def ctxRangeBad (w : List Word) (s : State) : Bool :=
  let n := fld (nth 0 w 8) 0 5
  fld (nth 0 w 0) 28 3 != 0 || fld (nth 0 w 1) 7 1 != 0 || fld (nth 0 w 1) 15 17 != 0 ||
  fld (nth 0 w 7) 16 16 != 0 || fld (nth 0 w 8) 5 27 != 0 || nth 0 w 9 != 0 || fld (nth 0 w 11) 16 16 != 0 ||
  nth 0 w 13 != 0 || ((w.drop 25).take 7).any (· != 0) || n < 4 || 16 < n ||
  2 ^ 52 ≤ recLong w 2 || hbmCap s ≤ recLong w 2

/-- LOAD_ERR of a context record of 32 words at an address (R178): the lowest code whose condition holds. -/
def loadErr (fn addr : Nat) (w : List Word) (s : State) : Nat :=
  let w0 := nth 0 w 0
  if !(bit w0 31) then 1
  else if fld w0 20 6 ≠ fn then 2
  else if partBad fn (fld (nth 0 w 1) 0 7) (fld (nth 0 w 1) 8 7) s then 3
  else if s.fe.slots.any (fun e => e.2.state == 1 && e.2.pasid == fld w0 0 20) then 4
  else if addr % 128 ≠ 0 ∨ recLong w 2 % 4096 ≠ 0 ∨ recLong w 4 % 2 ^ 21 ≠ 0 ∨ recLong w 6 % 4096 ≠ 0
      ∨ recLong w 10 % 1024 ≠ 0 then 5
  else if ctxRangeBad w s then 7
  else 0

/-- The slot that a context record gives. -/
def slotFromRecord (addr ctxId : Nat) (w : List Word) (s : State) : Slot :=
  { state := 1, ctx := addr, func := fld (nth 0 w 0) 20 6, pasid := fld (nth 0 w 0) 0 20, atsEn := bit (nth 0 w 0) 26,
    priEn := bit (nth 0 w 0) 27, cmemBase := fld (nth 0 w 1) 0 7, cmemSize := fld (nth 0 w 1) 8 7,
    ptRoot := recLong w 2, saveBase := recLong w 4, htbl := recLong w 6, htblLog2 := fld (nth 0 w 8) 0 5,
    qtbl := recLong w 10, refcnt := 1, driver := true, ctxId := ctxId, lastUse := s.fe.us }

/-- The queues of a slot forgotten: all DISABLED, nothing fetched. -/
def clearQueues (k : Nat) (s : State) : State :=
  { s with fe := { s.fe with queues := s.fe.queues.filter (fun e => e.1 / 16 != k) } }

/-- LOAD of a FREE slot from a record's address: LOAD_ERR, and the slot ACTIVE where it is 0. The buffers hold nothing of
the slot's earlier context (R151, R389). -/
def slotLoad (k fn addr ctxId : Nat) (s : State) : State :=
  if stage s ≠ 6 then setFld pgFe k 0x114 8 8 6 s
  else
    match hbmRead addr 128 s with
    | (none, s) => setFld pgFe k 0x114 8 8 1 s
    | (some bs, s) =>
      let w := rowWords 4 32 bs
      let e := loadErr fn addr w s
      let s := setFld pgFe k 0x114 8 8 e s
      if e ≠ 0 then s
      else
        let s := dropEntries (fun slot _ _ => slot == k) (clearQueues k s)
        setRef k 1 (setSlot k (slotFromRecord addr ctxId w s) s)

/-- The context record address of a slot's SLOT_CTX registers. -/
def slotCtxAddr (k : Nat) (s : State) : Nat := getPair pgFe k 0x108 s

/-! ## Queue records (R182, Table 7-2) -/

/-- A queue with the fields of its record; its stream goes on, outside every called buffer. -/
def queueFromRecord (w : List Word) (x : Queue) : Queue :=
  let w2 := nth 0 w 2
  { x with
    enaErr := 0, ring := recLong w 0, log2 := fld w2 0 5, engine := fld w2 8 4, prio := fld w2 12 3,
    errPolicy := bit w2 15, cmask := if fld w2 16 16 = 0 then 0xFFFF else fld w2 16 16,
    timeout := max 1 (nth 0 w 3).toNat, cpl := recLong w 4, cplLog2 := fld (nth 0 w 6) 0 5,
    vec := fld (nth 0 w 6) 16 11, wptr := (nth 0 w 8).toNat, rptr := (nth 0 w 9).toNat, cplProd := (nth 0 w 10).toNat,
    str := { x.str with frames := [], condSkip := 0, batchSkip := none, wait := none }, timer := 0, full := false,
    held := false }

/-- ENA_ERR of a readable queue record of a function: the lowest code whose condition holds. -/
def enaErr (fn : Nat) (w : List Word) : Nat :=
  let w2 := nth 0 w 2
  let w6 := nth 0 w 6
  let w11 := nth 0 w 11
  let n := fld w2 0 5
  let m := fld w6 0 5
  if n < 6 ∨ 16 < n ∨ m < 6 ∨ 16 < m ∨ 9 < fld w2 8 4 ∨ 2 ^ n < (nth 0 w 8 - nth 0 w 9).toNat
      ∨ 2 ^ m < (nth 0 w 10 - nth 0 w 7).toNat then 1
  else if recLong w 0 % (32 * 2 ^ n) ≠ 0 ∨ recLong w 4 % (32 * 2 ^ m) ≠ 0 then 2
  else if vecCount fn ≤ fld w6 16 11 then 3
  else if fld (nth 0 w 1) 16 16 ≠ 0 ∨ fld w2 5 3 ≠ 0 ∨ fld (nth 0 w 5) 16 16 ≠ 0 ∨ fld w6 5 11 ≠ 0 ∨ fld w6 27 5 ≠ 0
      ∨ fld w11 3 5 ≠ 0 ∨ fld w11 16 16 ≠ 0 ∨ ((w.drop 12).take 4).any (· != 0) then 4
  else 0

/-- A front-end access that belongs to no command in execution fails: one non-retryable record (R159). -/
def feRecord (slot q va : Nat) (k : XKind) (e : AccErr) (s : State) : State :=
  let j := ownRef (.queue slot q) s
  match e with
  | .xl c l => postFault rqFe 0 j va c l k 0 s
  | .bus => let (f, s) := takeFree s; postFault rqFe 0 j va (1 + f % 11) (f / 11 % 4) k 0 s

/-- ENA_ERR set in the state and, with STATE, in the record. -/
def setEnaErr (slot q e : Nat) (s : State) : State :=
  let s := setQueue slot q { queueOf slot q s with enaErr := e } s
  if e = 0 ∨ e = 5 then s
  else (vaWrite rqFe slot (qrecVa slot q s + 0x2C) (toLE 4 ((queueOf slot q s).state + e * 2 ^ 8)) s).2

/-- ENABLE of a DISABLED queue (R182). -/
def queueEnable (slot q : Nat) (s : State) : State :=
  if (queueOf slot q s).state ≠ 0 then s
  else
    let va := qrecVa slot q s
    match vaRead rqFe slot va 64 .rd s with
    | (.error e, s) => setEnaErr slot q 5 (feRecord slot q va .rd e s)
    | (.ok bs, s) =>
      let w := rowWords 4 16 bs
      let e := enaErr (slotOf slot s).func w
      if e ≠ 0 then setEnaErr slot q e s
      else setQState slot q 1 (setQueue slot q (queueFromRecord w (queueOf slot q s)) s)

/-- RESUME of a HALTED queue: it goes on behind the item that ended (R189, R468). -/
def queueResume (slot q : Nat) (s : State) : State :=
  if (queueOf slot q s).state ≠ 3 then s
  else settle (.queue slot q) 8 (setQState slot q 2 s)

/-- A stream outside every called buffer, with no skip. -/
def streamTop (t : Stream) : Stream := { t with frames := [], condSkip := 0, batchSkip := none }

/-- RESET of a HALTED queue (R189). DESIGN CHOICE (log 43): the commands written later are of another batch than the dropped ones. -/
def queueReset (slot q : Nat) (s : State) : State :=
  let x := queueOf slot q s
  if x.state ≠ 3 then s
  else setQState slot q 1 (setQueue slot q
    { x with rptr := x.wptr, str := { streamTop x.str with batchNo := x.str.batchNo + 1 }, timer := 0, full := false,
             held := false } s)

/-- A queue becomes DISABLED: it leaves every called buffer, and its unfetched commands are dropped. Its timer goes on for the
jobs that it has started (R188, R204 step 2). -/
def queueOff (slot q : Nat) (s : State) : State :=
  let x := queueOf slot q s
  if x.state = 0 then s
  else
    let t := if (ownJobs (.queue slot q) s).isEmpty then 0 else x.timer
    setQState slot q 0 (setQueue slot q { x with str := streamTop x.str, timer := t, full := false, held := false } s)

/-- DISABLE of an IDLE or HALTED queue (Table 7-6). -/
def queueDisable (slot q : Nat) (s : State) : State :=
  if (queueOf slot q s).state = 1 ∨ (queueOf slot q s).state = 3 then queueOff slot q s else s

/-- A write of Q_CMD of a function (R452): one command bit, for an ACTIVE slot of the function; any other write with a
command bit is discarded and sets DENIED. -/
def qCmdWrite (f : Nat) (v : Word) (s : State) : State :=
  let slot := getFld pgFn f 0x10C 0 6 s
  let q := getFld pgFn f 0x10C 8 4 s
  let cmd := fld v 0 4
  if cmd = 0 then s
  else if slotOwner slot s ≠ f ∨ (slotOf slot s).state ≠ 1 then setFld pgFn f 0x114 17 1 1 s
  else if cmd = 1 then queueEnable slot q s
  else if cmd = 2 then queueResume slot q s
  else if cmd = 4 then queueReset slot q s
  else if cmd = 8 then queueDisable slot q s
  else setFld pgFn f 0x114 17 1 1 s

/-! ## Doorbells (R181, R183, R453) -/

/-- A doorbell is discarded and counted. -/
def doorbellDrop (s : State) : State := count32 pgFe 0 0x120 s

/-- A doorbell of a queue with a new WPTR: stored, and an IDLE queue with commands becomes ACTIVE; or discarded (R183,
Table 7-6). -/
def ringQueue (f slot q : Nat) (wptr : Word) (s : State) : State :=
  let x := queueOf slot q s
  if slotOwner slot s ≠ f ∨ (slotOf slot s).state ≠ 1 ∨ x.state = 0 ∨ 2 ^ x.log2 < (wptr - w32 x.rptr).toNat then
    doorbellDrop s
  else
    let s := setSlot slot { slotOf slot s with lastUse := s.fe.us } s
    let s := qSync slot q (setQueue slot q { x with wptr := wptr.toNat, bell := s.fe.us } s)
    if x.state = 1 ∧ wptr.toNat ≠ x.rptr then setQState slot q 2 s else s

/-- A native doorbell; none acts in compatibility mode, where WPTR comes from the record (R181). -/
def doorbell (f slot q : Nat) (wptr : Word) (s : State) : State :=
  if compat s then doorbellDrop s else ringQueue f slot q wptr s

/-- Queue `q` of a slot that compatibility mode has loaded goes on from its record, unless that says DISABLED (R181). -/
def queueRestore (slot : Nat) (s : State) (q : Nat) : State :=
  match vaRead rqFe slot (qrecVa slot q s) 64 .rd s with
  | (.error _, s) => s
  | (.ok bs, s) =>
    let w := rowWords 4 16 bs
    let st := fld (nth 0 w 11) 0 3
    if st = 0 ∨ 3 < st ∨ enaErr (slotOf slot s).func w ≠ 0 then s
    else setQueue slot q { queueFromRecord w (queueOf slot q s) with state := if st = 3 then 3 else 1 } s

/-- A context can leave its slot (R181): nothing but the driver holds it, and no queue is in work. -/
def evictable (k : Nat) (s : State) : Bool :=
  (slotOf k s).state == 1 && (slotOf k s).refcnt == 1 &&
  (List.range 16).all (fun q => (queueOf k q s).state != 2 && (queueOf k q s).str.frames.isEmpty) &&
  !(s.dma.chans.any (fun c => c.2.slot == k)) && !((List.range 16).any (fun c =>
    bit (getReg pgCmp c 0x10C s) 0 && getFld pgCmp c 0x108 8 6 s == k))

/-- The evictable context that has been idle longest. -/
def victim (s : State) : Option Nat :=
  (List.range 64).foldl (fun b k =>
    if !(evictable k s) then b
    else
      match b with
      | none => some k
      | some j => if (slotOf k s).lastUse < (slotOf j s).lastUse then some k else b) none

/-- COMPAT_EVICT: the queue state goes back to the records, the partition's valid bits clear, no release record
(R181). -/
def evict (k : Nat) (s : State) : State :=
  let s := (List.range 16).foldl (fun s q => if (queueOf k q s).state = 0 then s else qSync k q s) s
  let s := clearPartition (slotOf k s) (setRef k 0 (attDrop (fun a => a.slot == k) s))
  let s := dropEntries (fun slot _ _ => slot == k) (clearQueues k s)
  count32 pgFe 0 0x124 (setSlot k {} s)

/-- The slot that holds a context ID. -/
def residentSlot (id : Nat) (s : State) : Option Nat :=
  (List.range 64).find? (fun k => (slotOf k s).state != 0 && (slotOf k s).ctxId == id)

/-- A compatibility doorbell of a resident context: WPTR comes from the queue record. -/
def compatRing (f slot q : Nat) (s : State) : State :=
  let va := qrecVa slot q s + 0x20
  match vaRead rqFe slot va 4 .rd s with
  | (.error e, s) => doorbellDrop (feRecord slot q va .rd e s)
  | (.ok bs, s) => ringQueue f slot q (w32 (leNat bs)) s

/-- A context loaded into a FREE slot for its doorbell. -/
def compatLoad (f k addr id q : Nat) (s : State) : State :=
  let s := slotLoad k f addr id s
  if (slotOf k s).state ≠ 1 then doorbellDrop s
  else compatRing f k q ((List.range 16).foldl (queueRestore k) (setFld pgFe k 0x110 0 6 f s))

/-- A compatibility doorbell: nothing where no context can be evicted for it yet (R181). -/
def compatTry (f id q : Nat) (s : State) : Option State :=
  match hbmRead (getPair pgFe 0 0x118 s + 8 * id) 8 s with
  | (none, s) => some (doorbellDrop s)
  | (some bs, s) =>
    let addr := leNat bs
    if addr = 0 then some (doorbellDrop s)
    else
      match hbmRead addr 4 s with
      | (none, s) => some (doorbellDrop s)
      | (some h, s) =>
        if fld (w32 (leNat h)) 20 6 ≠ f then some (doorbellDrop s)
        else
          match residentSlot id s with
          | some k => some (compatRing f k q s)
          | none =>
            match (List.range 64).find? (fun k => (slotOf k s).state == 0) with
            | some k => some (compatLoad f k addr id q s)
            | none => (victim s).map (fun k => compatLoad f k addr id q (evict k s))

/-- COMPAT_DOORBELL: a write of COMPAT_DB (R181); in native mode it is discarded and counted. -/
def compatDoorbell (f : Nat) (v : Word) (s : State) : State :=
  if !(compat s) then doorbellDrop s
  else
    let id := fld v 0 12
    let q := fld v 12 4
    match compatTry f id q s with
    | some s' => s'
    | none => { s with fe := { s.fe with heldDb := s.fe.heldDb ++ [(f, id, q)] } }

/-- COMPAT_DOORBELL_RETRY: the first held doorbell acts once its context has a slot. -/
def compatRetry (s : State) : State :=
  match s.fe.heldDb with
  | [] => s
  | (f, id, q) :: rest =>
    match compatTry f id q { s with fe := { s.fe with heldDb := rest } } with
    | some s' => s'
    | none => s

/-! ## The queue timeout (R188, R189) -/

/-- The job of a queue ends with TIMEOUT at its engine (R189 step 1, R222, R260, R282). -/
def timeoutJob (e : Nat × Job) (s : State) : State :=
  let op := opOf e.2.cmd
  if 8 ≤ op ∧ op ≤ 0x0B then lvnStop e.1 2 0x0005 s
  else if op = 3 then endJob e.1 2 0x0005 (composeDetail (argsOf e.2.cmd % 16)) (cmpForget e.1 s)
  else timeoutEngine e.1 s

/-- The addresses of the commands that are not fetched yet: level 0 up to WPTR, and the rest of the entered buffers. -/
def unfetched (slot q : Nat) (s : State) : List Nat :=
  let x := queueOf slot q s
  (span x.rptr (w32 x.wptr - w32 x.rptr).toNat).map (fun i => x.ring + 32 * (i % 2 ^ x.log2)) ++
  (x.str.frames.map (fun f => (span f.pos (f.count - f.pos)).map (fun i => f.base + 32 * i))).flatten

/-- A SIGNAL that the timed-out queue has not fetched signals TIMEOUT; other commands are passed over (R189 step 2). -/
def timeoutSignal (slot q : Nat) (s : State) (va : Nat) : State :=
  let o := Owner.queue slot q
  match vaRead rqFe slot va 32 .rd s with
  | (.error _, s) => s
  | (.ok bs, s) =>
    let c := rowWords 4 8 bs
    if opOf c ≠ 0x10 ∨ badCmd o c s then s
    else
      match fenceNode (cw c 1) s with
      | some m =>
        if linkStopped slot s || !(reachable m s) then s
        else fenceOp (linkWho o) slot 0 (cw c 1) (cw c 2) 2 [] 0 0 s
      | none =>
        match fenceNamed o c s with
        | some i => fenceSignal i 2 s
        | none => s

/-- The queue's WAIT has its fence's status, which has not reached it yet. -/
def waitGot (slot q : Nat) (s : State) : Bool :=
  s.fnc.waits.any (fun w => w.who == .queue slot q && w.got.isSome)

/-- The policy meets a job that the timeout has ended: it acts once the queue is resumed (R189, R196). -/
def timeoutPolicy (e : Nat × Job) (s : State) : State :=
  match tabFind e.1 s.fe.jobs with
  | some b =>
    match b.fin with
    | some f => if f.status = 2 then streamFail b.owner b.batch 2 f.reason s else s
    | none => s
  | none => s

/-- Jobs end with TIMEOUT, and those that have stopped write their records (R189 step 1). -/
def timeoutJobs (l : List (Nat × Job)) (s : State) : State :=
  let s := l.foldl (fun s e => timeoutPolicy e (timeoutJob e s)) s
  l.foldl (fun s e => retireTidy retireCore e.1 s) s

/-- The ME operations of a job are dropped with what they would write. -/
def dropOps (j : Nat) (s : State) : State :=
  let s := (usedCores s).foldl (fun s p =>
    let c := coreOf p s
    setCore p { c with mes := c.mes.map (fun m => (m.1, meKeep (fun o => o.job != j) m.2)) } s) s
  let s := (workCores j s).foldl (coreForget j) s
  (s.cpt.blocks.filter (fun e => e.2.job == j)).foldl (fun s e => freeBlock e.1 s) s

/-- The timer of a queue that its slot's RELEASE or kill has disabled reaches TIMEOUT_US: its jobs end with TIMEOUT; what a killed
job has not stopped is dropped at once (R188, R204 step 2). -/
def lateTimeout (slot q : Nat) (s : State) : State :=
  let l := ownJobs (.queue slot q) s
  let dying := (slotOf slot s).state = 3 ∨ (tabFind (slotOf slot s).func s.fe.disabling).isSome
  let s := if dying then l.foldl (fun s e => dropOps e.1 s) s else s
  let s := timeoutJobs l s
  setQueue slot q { queueOf slot q s with timer := 0 } s

/-- QUEUE_TIMEOUT: the timer of a queue has reached TIMEOUT_US, and its WAIT, if it has one, is not satisfied (R189). -/
def queueTimeout (slot q : Nat) (s : State) : State :=
  let x := queueOf slot q s
  let o := Owner.queue slot q
  if x.timer < max 1 x.timeout ∨ waitGot slot q s then s
  else if x.state = 0 then lateTimeout slot q s
  else if x.state ≠ 2 then s
  else
    let ahead := unfetched slot q s
    let s := viewEvent (slotOf slot s).func 2 slot q (nextSeq (ownRef o s) s) s
    let s := waitDone o (.failed 2 0x0005 0) (timeoutJobs (ownJobs o s) s)
    let s := ahead.foldl (timeoutSignal slot q) s
    setQState slot q 3 (setQueue slot q { queueOf slot q s with timer := 0 } s)

/-! ## RELEASE of the object interface (R199, R180) -/

/-- The driver's reference of a slot released: an ACTIVE slot becomes DRAINING and its queues stop (Table 7-13). The
RESULT. -/
def slotRelease (k : Nat) (s : State) : Nat × State :=
  let c := slotOf k s
  if c.state = 0 ∨ !c.driver then (1, s)
  else
    let s := if c.state = 1 then (List.range 16).foldl (fun s q => queueOff k q s) (setSlot k { c with state := 2 } s) else s
    (0, slotDrop k (setSlot k { slotOf k s with driver := false } s))

/-- RELEASE. -/
def objRelease (r : Requester) (f : Nat) (v : Word) (s : State) : State :=
  objOp r f v 1 (fun gen s =>
    if objKind f s = 0 then
      let (res, s) := handleDrop (objRef f s) (objIndex f s) gen s
      (res, gen, s)
    else if objKind f s = 1 then
      if !(objFenceOk f gen s) then (1, gen, s)
      else
        let (res, s) := fenceDrop (objIndex f s) s
        (res, gen, s)
    else
      let (res, s) := slotRelease (objSlot f s) s
      (res, gen, s)) s

/-! ## Meanings -/

/-- Q_ENABLE (R182). -/
def execQEnable (r : Requester) (f : Fin 64) (s : State) : Out := toNext (regionWrite r f.val (qCmdWrite f.val 1) s)

/-- Q_RESUME (R189). -/
def execQResume (r : Requester) (f : Fin 64) (s : State) : Out := toNext (regionWrite r f.val (qCmdWrite f.val 2) s)

/-- Q_RESET (R189). -/
def execQReset (r : Requester) (f : Fin 64) (s : State) : Out := toNext (regionWrite r f.val (qCmdWrite f.val 4) s)

/-- Q_DISABLE (Table 7-6). -/
def execQDisable (r : Requester) (f : Fin 64) (s : State) : Out := toNext (regionWrite r f.val (qCmdWrite f.val 8) s)

/-- DOORBELL (R183). -/
def execDoorbell (r : Requester) (f : Fin 64) (slot : Fin 64) (q : Fin 16) (wptr : Word) (s : State) : Out :=
  toNext (regionWrite r f.val (doorbell f.val slot.val q.val wptr) s)

/-- COMPAT_DOORBELL (R181). -/
def execCompatDoorbell (r : Requester) (f : Fin 64) (v : Word) (s : State) : Out :=
  toNext (regionWrite r f.val (compatDoorbell f.val v) s)

/-- COMPAT_DOORBELL_RETRY (R181). -/
def execCompatDoorbellRetry (s : State) : Out := toNext (compatRetry s)

/-- QUEUE_TIMEOUT (R189). -/
def execQueueTimeout (slot : Fin 64) (q : Fin 16) (s : State) : Out := toNext (queueTimeout slot.val q.val s)

/-- OBJ_ACQUIRE (R199). -/
def execObjAcquire (r : Requester) (f : Fin 64) (v : Word) (s : State) : Out := toNext (objAcquire r f.val v s)

/-- OBJ_RELEASE (R199). -/
def execObjRelease (r : Requester) (f : Fin 64) (v : Word) (s : State) : Out := toNext (objRelease r f.val v s)

/-- OBJ_SIGNAL (R199). -/
def execObjSignal (r : Requester) (f : Fin 64) (v : Word) (s : State) : Out := toNext (objSignal r f.val v s)

/-- OBJ_RESET (R199). -/
def execObjReset (r : Requester) (f : Fin 64) (v : Word) (s : State) : Out := toNext (objReset r f.val v s)

/-- OBJ_CREATE (R199). -/
def execObjCreate (r : Requester) (f : Fin 64) (v : Word) (s : State) : Out := toNext (objCreate r f.val v s)

/-- RELEASE_RECORD_HELD_POST (R203). -/
def execReleaseRecordHeldPost (f : Fin 64) (s : State) : Out := toNext (postHeld f.val s)

/-- RR_ENABLE (R203). -/
def execRrEnable (r : Requester) (v : Word) (s : State) : Out := toNext (rrEnable r v s)

end Sys2Proof.Machine
end

