-- ==== Sys2Proof/Machine/Teardown.lean ====
section
/-!
DEFINITION. The load and kill of a context slot by SLOT_CTL and CTX_KILL, the scan of its fences, and the disable of a
function (R168, R178, R204, R206, R230, R282, R388, R432).
-/
namespace Sys2Proof.Machine

/-! ## The kill of a slot (R204) -/

/-- A job of a slot ends at its engine with status ABANDONED and a reason (R204 step 2, R260, R282). -/
def stopJob (reason : Nat) (e : Nat × Job) (s : State) : State :=
  let op := opOf e.2.cmd
  if 8 ≤ op ∧ op ≤ 0x0B then lvnStop e.1 4 reason s
  else if op = 3 then endJob e.1 4 reason (composeDetail (argsOf e.2.cmd % 16)) (cmpForget e.1 s)
  else endEngine e.1 4 reason 0 s

/-- The jobs that the queues of a slot have started. -/
def slotJobs (k : Nat) (s : State) : List (Nat × Job) :=
  s.fe.jobs.filter (fun e => match e.2.owner with | .queue slot _ => slot == k | .batch _ => false)

/-- A queue's registered WAIT is withdrawn without a record (R204 step 4). -/
def withdraw (k q : Nat) (s : State) : State :=
  if (queueOf k q s).str.wait = none then s else unregister (.queue k q) s

/-- Every queue of a slot stops fetching. -/
def queuesOff (k : Nat) (s : State) : State := (List.range 16).foldl (fun s q => queueOff k q s) s

/-- The registered WAITs of a slot are withdrawn. -/
def waitsOff (k : Nat) (s : State) : State := (List.range 16).foldl (fun s q => withdraw k q s) s

/-- A kill of a slot that is ACTIVE or DRAINING: DYING, its work ended, and the scan of its fences started (R204). -/
def slotKill (k : Nat) (s : State) : State :=
  let c := slotOf k s
  if c.state ≠ 1 ∧ c.state ≠ 2 then s
  else
    let s := composerStop k .kill (setSlot k { c with state := 3, scan := true } s)
    let s := queuesOff k s
    let s := (slotJobs k s).foldl (fun s e => stopJob 0x0007 e s) s
    let s := stopMarker k (waitsOff k (leavenKill k (linkKill k s)))
    { attDrop (fun a => a.slot == k) s with fnc := { s.fnc with scans := s.fnc.scans ++ [c.func] } }

/-- FENCE_SCAN_COMPLETE: the fences of a killed slot are abandoned, and the driver's reference goes (R204 steps 3 and
5). -/
def scanComplete (k : Nat) (s : State) : State :=
  let c := slotOf k s
  if c.state ≠ 3 ∨ !c.scan then s
  else
    let s := abandonSlot k s
    let s := setSlot k { slotOf k s with scan := false, driver := false }
      { s with fnc := { s.fnc with scans := s.fnc.scans.erase c.func } }
    if c.driver then slotDrop k s else s

/-! ## SLOT_CTL and CTX_KILL (Tables 7-14, 18-6) -/

/-- A write of SLOT_CTL of the selected slot: FUNC while the slot is FREE, LOAD, KILL. Compatibility mode loads its slots
itself (R181). -/
def slotCtlWrite (v : Word) (s : State) : State :=
  let k := getFld pgFe 0 0x104 0 6 s
  let s := if (slotOf k s).state = 0 then setFld pgFe k 0x110 0 6 (fld v 0 6) s else s
  let s :=
    if bit v 8 && (slotOf k s).state == 0 && !(compat s) then slotLoad k (slotOwner k s) (slotCtxAddr k s) 0 s else s
  if bit v 9 then slotKill k s else s

/-- A write of CTX_KILL of a function: SLOT, DENIED cleared by 1, and GO kills a slot of the function (R452). -/
def ctxKillWrite (f : Nat) (v : Word) (s : State) : State :=
  let s := setFld pgFn f 0x118 0 6 (fld v 0 6) s
  let s := if bit v 30 then setFld pgFn f 0x118 30 1 0 s else s
  let k := fld v 0 6
  if !(bit v 31) then s
  else if slotOwner k s ≠ f then setFld pgFn f 0x118 30 1 1 s
  else slotKill k s

/-! ## The disable of a function (R206) -/

/-- The slots of a function that are not FREE. -/
def funcSlots (f : Nat) (s : State) : List Nat :=
  (List.range 64).filter (fun k => (slotOf k s).state != 0 && (slotOf k s).func == f)

/-- A DMA job that may complete in the window: its channel is issuing accesses (R206 step 3). -/
def issuing (e : Nat × Job) (s : State) : Bool :=
  match jobChan e.1 s with
  | some (_, c) => c.st != .stalled && c.st != .postWait
  | none => false

/-- A job is a DMA transfer. -/
def isDmaJob (e : Nat × Job) : Bool := 5 ≤ opOf e.2.cmd && opOf e.2.cmd ≤ 7

/-- Steps 1 and 2 of the disable, and what of step 3 ends at once; the DMA window opens. Leaven's graphs lose VALID before a step of
theirs ends, so that nothing of them is released (R230). -/
def disableStart (f : Nat) (s : State) : State :=
  let slots := funcSlots f s
  let s := { s with
    pci := { s.pci with muted := tabSet f true s.pci.muted },
    fe := { s.fe with
      disabling := tabSet f 0 s.fe.disabling, heldDb := s.fe.heldDb.filter (fun h => h.1 != f) } }
  let s := slots.foldl (fun s k => composerStop k .funcDisable s) s
  let s := slots.foldl (fun s k => queuesOff k s) s
  let s := leavenDisable f s
  let jobs := (slots.map (fun k => slotJobs k s)).flatten
  let s := (jobs.filter (fun e => !(isDmaJob e && issuing e s))).foldl (fun s e => stopJob 0x0008 e s) s
  let s := slots.foldl (fun s k => linkKill k s) s
  attDrop (fun a => a.fn == f) (slots.foldl (fun s k => waitsOff k s) s)

/-- FUNCTION_DISABLE. A function whose disable is in its window is being disabled already. -/
def functionDisable (f : Nat) (s : State) : State :=
  if (tabFind f s.fe.disabling).isSome then s else disableStart f s

/-- Every unsignalled fence of a function's window is signalled ABANDONED (R206 step 4). -/
def abandonWindow (f : Nat) (s : State) : State := (windowIdx f s).foldl (fun s i => fenceSignal i 1 s) s

/-- The records of a function's ended jobs. -/
def retireSlots (slots : List Nat) (s : State) : State :=
  ((slots.map (fun k => slotJobs k s)).flatten).foldl (fun s e => retireTidy retireJob e.1 s) s

/-- A slot of a disabled function becomes FREE: one SLOT_RELEASED in the function's ring and, for a VF, one in the PF's
(R203, R206 step 5). -/
def disableSlot (f : Nat) (s : State) (k : Nat) : State :=
  let c := slotOf k s
  let s := release ⟨f, 3, k, c.ctxId, f, k, 0⟩ (clearPartition c s)
  let s := if f = 0 then s else release ⟨0, 3, k, c.ctxId, f, k, 0⟩ s
  let s := if c.scan then { s with fnc := { s.fnc with scans := s.fnc.scans.erase f } } else s
  clearQueues k (setSlot k { c with state := 0, refcnt := 0, driver := false, scan := false } s)

/-- The vectors of a function masked (R206 step 6). -/
def maskVectors (f : Nat) (s : State) : State :=
  (List.range (vecCount f)).foldl (fun s v => setFld pgMsix f (16 * v + 12) 0 1 1 s) s

/-- The rest of the disable, from the end of the DMA window on. -/
def disableEnd (f : Nat) (s : State) : State :=
  let slots := funcSlots f s
  let jobs := (slots.map (fun k => slotJobs k s)).flatten
  let s := jobs.foldl (fun s e => stopJob 0x0008 e s) s
  let s := slots.foldl (fun s k => stopMarker k s) s
  let s := abandonWindow f (retireSlots slots s)
  let s := slots.foldl (disableSlot f) s
  let s := maskVectors f (clearView f s)
  { s with
    pci := { s.pci with muted := tabDel f s.pci.muted, inFlr := tabDel f s.pci.inFlr },
    fe := { s.fe with disabling := tabDel f s.fe.disabling } }

/-- Counts of the DMA window (R206 step 3). -/
abbrev dmaWindow : Nat := 100

/-- An ME operation of a job of the function still runs: its job has not stopped (R206 step 2). -/
def funcOps (f : Nat) (s : State) : Bool := (funcSlots f s).any (fun k => (slotJobs k s).any (fun e => jobHasOps e.1 s))

/-- DISABLE_DMA_WINDOW_EXPIRY: it waits for the jobs that have not stopped, whose records go before step 5 (R206). -/
def windowExpiry (f : Nat) (s : State) : State :=
  match tabFind f s.fe.disabling with
  | some n => if n < dmaWindow || funcOps f s then s else disableEnd f s
  | none => s

/-! ## Meanings -/

/-- SLOT_LOAD: a write of SLOT_CTL with LOAD = 1 (R178). -/
def execSlotLoad (r : Requester) (v : Word) (s : State) : Out :=
  toNext (if bit v 8 then blockWrite r pgFe 0x110 (slotCtlWrite v) s else s)

/-- SLOT_KILL: a write of SLOT_CTL with KILL = 1 (R204). -/
def execSlotKill (r : Requester) (v : Word) (s : State) : Out :=
  toNext (if bit v 9 then blockWrite r pgFe 0x110 (slotCtlWrite v) s else s)

/-- CTX_KILL: a write of a function's CTX_KILL with GO = 1 (R204, R452). -/
def execCtxKill (r : Requester) (f : Fin 64) (v : Word) (s : State) : Out :=
  toNext (if bit v 31 then regionWrite r f.val (ctxKillWrite f.val v) s else s)

/-- FENCE_SCAN_COMPLETE (R204). -/
def execFenceScanComplete (slot : Fin 64) (s : State) : Out := toNext (scanComplete slot.val s)

/-- FUNCTION_DISABLE (R206). -/
def execFunctionDisable (f : Fin 64) (s : State) : Out := toNext (functionDisable f.val s)

/-- DISABLE_DMA_WINDOW_EXPIRY (R206). -/
def execDisableDmaWindowExpiry (f : Fin 64) (s : State) : Out := toNext (windowExpiry f.val s)

end Sys2Proof.Machine
end

