-- ==== Sys2Proof/Machine/Reset.lean ====
section
/-!
DEFINITION. Reset: cold and device reset (R348, R351, R368, R372, R391), the domain reset of DOM_RST and of a re-admit
(R348, R349), and the reset of a Svaumon domain (R439).
-/
namespace Sys2Proof.Machine

/-! ## Device reset (R348) -/

/-- RST_CAUSE.CAUSE of a cause (Table 13-9). -/
def causeCode : RstCause → Nat
  | .devRst _ => 2
  | .basin => 3
  | .svaumon => 4
  | .perst => 5
  | .wakeOff => 6

/-- A register that a device reset leaves, or what it leaves of it: EPOCH.VALUE of every page, RST_CAUSE, BOOT_US (R348,
R372). -/
def keptReg (e : Nat × Word) : Option (Nat × Word) :=
  let pg := e.1 / 65536 / 512
  let off := e.1 % 65536
  if pg < 146 ∧ off = 0x03C then some (e.1, (e.2 &&& 0xFFFF#32) ||| (resetKey e.1 &&& 0xFFFF0000#32))
  else if pg = pgRst ∧ (off = 0x128 ∨ off = 0x130) then some e
  else none

/-- The state that a device reset leaves, before the release: what Table 13-7 keeps, blown fuses, and what lies outside the
part. The Yunanos region of the AON SRAM is kept, the retention region is not. -/
def wiped (s : State) : State :=
  { ({} : State) with
    pending := s.pending, out := s.out, free := s.free,
    regs := s.regs.filterMap keptReg,
    pins := { s.pins with errN := true, wakeN := true },
    aon := { s.aon with adcLast := 7 },
    mem := { host := s.mem.host, flash := s.mem.flash, aon := memClear 0x20000 0x20000 s.mem.aon },
    bsn := { epoch := s.bsn.epoch },
    rst := { perst := s.rst.perst },
    sec := { svn := s.sec.svn } }

/-- The reset is released unless something holds it: boot event 1 samples the mode (R3, R345, R391). -/
def bootStart (s : State) : State :=
  if !s.pins.sysRstN || s.rst.perst || s.pins.extest || !s.rst.held then s
  else
    let m := b2n s.pins.bootMode
    let s := { s with rst := { s.rst with held := false, bootUs := 0, loaded := false } }
    setFld pgGlb 0 0x104 0 1 m (setFld pgRst 0 0x12C 4 1 m (setFld pgPci 0 0x100 0 1 m s))

/-- ERR_N after a device reset: low with LEVEL = 0 after cause 3, released after any other (R368). -/
def errnAfter (basin : Bool) (s : State) : State :=
  if basin then setFld pgBsn 0 0x148 0 1 0 { s with pins := { s.pins with errN := false } } else s

/-- A device reset with a cause; the reset that EXTEST holds has none of its own and leaves CAUSE (R348, R391). -/
def doReset (cause : Option RstCause) (s : State) : State :=
  let s := addFld pgRst 0 0x128 16 16 1 (wiped s)
  let s := match cause with
    | some c => setFld pgRst 0 0x128 0 4 (causeCode c) s
    | none => s
  bootStart (errnAfter (cause == some .basin) s)

/-- A unit of Cistern is in progress (CST_STS.BUSY). -/
def cstBusy (s : State) : Bool := bit (getReg pgCst 0 0x114 s) 0

/-- A device reset with a cause: it waits for Cistern's unit in progress (R351). A cold reset prevails. -/
def deviceReset (c : RstCause) (s : State) : State :=
  if !s.pins.sysRstN then s
  else if cstBusy s then
    (if s.rst.pending.isSome then s else { s with rst := { s.rst with pending := some c } })
  else doReset (some c) s

/-! ## Cold reset (R348, R351) -/

/-- The bytes of flash that a unit writes. -/
def unitRange : FlashUnit → Nat × Nat
  | .prog a bs => (a, bs.length)
  | .erase sec => (sec * 4096, 4096)

/-- Bytes written to the flash. -/
def flashPut (a : Nat) (bs : List Byte) (s : State) : State :=
  { s with mem := { s.mem with flash := memWrite Config.flashByte a bs s.mem.flash } }

/-- A page or sector that was being written holds undefined contents (R351). -/
def spoilUnit (s : State) : State :=
  match cstBusy s, s.cst.queue with
  | true, u :: _ =>
    let r := unitRange u.1
    let (bs, s) := freeBytes r.2 s
    flashPut r.1 bs s
  | _, _ => s

/-- SYS_RST_N_ASSERT: power-up where the pin was low already, else an assertion. Everything is reset, the AON domain
included; the AON SRAM's contents become undefined. -/
def coldReset (s : State) : State :=
  let was := s.pins.sysRstN
  let s := spoilUnit s
  let s := { wiped s with
    regs := [], bsn := {}, rst := {},
    aon := { gen := s.aon.gen + 1 },
    mem := { host := s.mem.host, flash := s.mem.flash },
    pins := { s.pins with sysRstN := false, errN := true, wakeN := true } }
  setFld pgRst 0 0x128 0 4 (b2n was) s

/-- SYS_RST_N_DEASSERT (R3, R345). -/
def coldRelease (mode : Bool) (s : State) : State :=
  if s.pins.sysRstN then s
  else bootStart { s with pins := { s.pins with sysRstN := true, bootMode := mode } }

/-! ## DEVICE_RESET -/

/-- RST_CTL.DEV_RST: writes from the CPU complex or the PF only (Table 13-9). -/
def mayReset : Requester → Bool
  | .pf => true
  | .hart _ => true
  | _ => false

/-- A write of RST_CTL (Table 13-9): PERST_DEV, and DEV_RST from a requester that may. -/
def rstCtlWrite (r : Requester) (v : Word) (s : State) : State :=
  let s := writeByType pgRst 0 0x120 (if mayReset r then v else v &&& ~~~1#32) s
  if bit v 0 && mayReset r then deviceReset (.devRst r) s else s

/-- DEVICE_RESET. With cause DEV_RST it is the write of RST_CTL with DEV_RST = 1 and PERST_DEV as it stands; with Basin's
cause the reaction STOP_DEVICE waits for it, once the ERR_N pulse has ended (R366); a reset of another cause that waits
for Cistern is due when its unit has ended. -/
def resetRow (c : RstCause) (s : State) : State :=
  match c with
  | .devRst r => blockWrite r pgRst 0x120 (rstCtlWrite r (getReg pgRst 0 0x120 s ||| 1#32)) s
  | .basin => if s.bsn.stop && !(bit (getReg pgBsn 0 0x148 s) 16) then deviceReset .basin s else s
  | c => if s.rst.pending == some c then deviceReset c s else s

/-! ## EXTEST (R391) -/

/-- EXTEST: selecting it holds the device in device reset. -/
def extestSelect (s : State) : State :=
  if s.pins.extest then s
  else
    let s := { s with pins := { s.pins with extest := true } }
    if !s.pins.sysRstN || s.rst.held || cstBusy s then s else doReset none s

/-- EXTEST_DESELECT: the reset that EXTEST held is released, and boot starts. -/
def extestRelease (s : State) : State :=
  if s.pins.extest then bootStart { s with pins := { s.pins with extest := false } } else s

/-! ## Domain reset (R348, R349) -/

/-- FENCED bit of a domain (BSN.FENCED0 to 3). -/
def domFenced (d : Nat) (s : State) : Bool := bit (getReg pgBsn 0 (0x150 + 4 * (d / 32)) s) (d % 32)

/-- The PCIe controller's logic at reset: the functions' MSI-X structures and configuration. A read in flight is left to its
requester's completion timeout (R405). -/
def pcieLogic (s : State) : State :=
  let s := resetPage pgMsix (fun _ => false) (resetPage pgPba (fun _ => false) s)
  { s with pci := { s.pci with
    vfEnable := false, numVfs := 0, d3 := [], pmeEn := false, aer := [], ltrActive := false } }

/-- The logic of an HBM controller at reset: HBC 0 holds the valid bitmap, so every region reads as never written (R137). -/
def hbcLogic (n : Nat) (s : State) : State :=
  if n = 0 then
    { s with hbc := { s.hbc with valid := [], filling := [], pendInv := [], stale := [] }, mem := { s.mem with hbm := [] } }
  else s

/-- The work that is left on a core is gone: the operations of its MEs, and what of its blocks waited for them. -/
def coreGone (p : Nat) (s : State) : State :=
  let s := (s.cpt.blocks.filter (fun b => b.2.core == p)).foldl (fun s b => freeBlock b.1 s) s
  let s := { s with cpt := { s.cpt with gates := s.cpt.gates.map (fun g => (g.1, g.2.filter (fun r => r.core != p))) } }
  setCore p {} s

/-- The logic of a switched domain, apart from its registers. -/
def resetLogic (d : Nat) (s : State) : State :=
  if d < 80 then coreGone d s
  else if d < 96 then
    let c := d - 80
    { s with
      mem := { s.mem with cmem := memClear (c * 2 ^ 22) (2 ^ 22) s.mem.cmem },
      cpt := { s.cpt with
        gates := tabDel c s.cpt.gates, cmErr := s.cpt.cmErr.filter (fun e => e.1 / 2 ^ 19 != c) },
      pwr := { s.pwr with
        droop := tabDel c s.pwr.droop, hold := tabDel c s.pwr.hold, stepping := tabDel c s.pwr.stepping,
        rail := tabDel c s.pwr.rail, pll := tabDel c s.pwr.pll } }
  else if d < 104 then setFld pgHcx 0 0x104 (d - 96) 1 0 (setFld pgHcx 0 0x104 (8 + (d - 96)) 1 0 s)
  else if 111 ≤ d ∧ d < 115 then hbcLogic (d - 111) s
  else if d = 115 then pcieLogic s
  else if 116 ≤ d ∧ d < 120 then
    portConsequences (setPort (d - 116) {} s)
  else if d = 106 then { s with tlr := {} }
  else if d = 107 then { s with cmp := [] }
  else if d = 108 then { s with cz := {} }
  else if d = 109 then { s with mmu := {}, dma := {} }
  else if d = 110 then { s with lvn := {}, fnc := {} }
  else if d = 105 then { s with fe := {}, sec := { s.sec with queue := [] } }
  else s

/-- The registers of a domain's pages: EPOCH and BLK_STS stay. -/
def resetPages (d : Nat) (s : State) : State :=
  (domainPages d).foldl (fun s pg => resetPage pg (fun off => off == 0x03C || off == 0x00C) s) s

/-- A domain reset performed (R348): its logic and page registers; EPOCH is kept, and the domain is left gated. -/
def domainReset (d : Nat) (s : State) : State := setPower d false (resetPages d (resetLogic d s))

/-- A domain is powered and neither fenced nor gated, or is AON, or is none: DOM_RST refuses it (R349). -/
def domRstRefuses (d : Nat) (s : State) : Bool :=
  120 ≤ d || (!(domFenced d s) && domainPowered d s)

/-- A write of DOM_RST (Table 13-9). The reset runs from GO to POWER_DOMAIN_RESET_DONE, with IN_RESET set. -/
def domRstWrite (v : Word) (s : State) : State :=
  let s := setFld pgRst 0 0x124 0 7 (fld v 0 7) s
  let s := if bit v 30 then setFld pgRst 0 0x124 30 1 0 s else s
  let d := fld v 0 7
  if !(bit v 31) || s.rst.domReset.isSome then s
  else if domRstRefuses d s then setFld pgRst 0 0x124 30 1 1 s
  else setBlkSts d 2 1 (setFld pgRst 0 0x124 31 1 1 { s with rst := { s.rst with domReset := some d } })

/-- POWER_DOMAIN_RESET_DONE. -/
def domRstDone (s : State) : State :=
  match s.rst.domReset with
  | some d => raiseIrq pgRst 3 (setFld pgRst 0 0x124 31 1 0
      (setBlkSts d 2 0 (domainReset d { s with rst := { s.rst with domReset := none } })))
  | none => s

/-! ## The reset of a Svaumon domain (R439) -/

/-- RESET sent to the children of this node in the tree of a root, with the root as its source. -/
def sendReset (root : Nat) (s : State) : State :=
  (treeKids root (ownNode s) (domDim s)).foldl (fun s m =>
    svlSend { mkPacket 0xD m 0 0 4 0 0 (toLE 4 (domTag s).toNat) s with src := BitVec.ofNat 4 root } s) s

/-- LINK_RESET: a RESET with the domain's tag is forwarded, and resets the device; it goes before every packet that
waits. -/
def linkResetIn (p : Packet) (s : State) : State :=
  if dark (pgSvl 0) s || p.op != 0xD || !(s.svl.inbox.contains p) then s
  else
    let s := { s with svl := { s.svl with inbox := s.svl.inbox.erase p } }
    if leNat (p.data.take 4) ≠ (domTag s).toNat then s
    else deviceReset .svaumon (sendReset p.src.toNat s)

/-- DOM_CTL.RESET: by the PF or Yunanos; in self-hosted mode the CPU complex stands in the PF's place (R4, R439). -/
def mayDomReset (r : Requester) (s : State) : Bool :=
  match r with
  | .pf => true
  | .yns => true
  | .hart _ => selfHosted s
  | _ => false

/-- A write of DOM_CTL (Table 17-9). -/
def domCtlWrite (r : Requester) (v : Word) (s : State) : State :=
  let was := bit (getReg (pgSvl 0) 0 0x200 s) 31
  let ok := mayDomReset r s
  let s := domUpdate (writeByType (pgSvl 0) 0 0x200 (if ok then v else v &&& 0x7FFFFFFF#32) s)
  if bit v 31 && ok && !was then deviceReset .svaumon (sendReset (ownNode s) s) else s

/-! ## Meanings -/

/-- SYS_RST_N_ASSERT (R348). -/
def execSysRstNAssert (s : State) : Out := toNext (coldReset s)

/-- SYS_RST_N_DEASSERT (R345). -/
def execSysRstNDeassert (mode : Bool) (s : State) : Out := toNext (coldRelease mode s)

/-- DEVICE_RESET (R348). -/
def execDeviceReset (c : RstCause) (s : State) : Out := toNext (resetRow c s)

/-- POWER_DOMAIN_RESET (R349): a write of DOM_RST with GO = 1. -/
def execPowerDomainReset (r : Requester) (v : Word) (s : State) : Out :=
  toNext (if bit v 31 then blockWrite r pgRst 0x124 (domRstWrite v) s else s)

/-- POWER_DOMAIN_RESET_DONE (R349). -/
def execPowerDomainResetDone (s : State) : Out := toNext (domRstDone s)

/-- EXTEST (R391). -/
def execExtest (s : State) : Out := toNext (extestSelect s)

/-- EXTEST_DESELECT (R391). -/
def execExtestDeselect (s : State) : Out := toNext (extestRelease s)

/-- LINK_RESET (R439). -/
def execLinkReset (p : Packet) (s : State) : Out := toNext (linkResetIn p s)

/-- DOMAIN_RESET_REQUEST (R439): a write of DOM_CTL with RESET = 1. -/
def execDomainResetRequest (r : Requester) (v : Word) (s : State) : Out :=
  toNext (if bit v 31 then blockWrite r (pgSvl 0) 0x200 (domCtlWrite r v) s else s)

end Sys2Proof.Machine
end

