-- ==== Sys2Proof/Machine/Cistern.lean ====
section
/-!
DEFINITION. Cistern: the queue of flash units, the hold-up check and the end of a unit (R347, R351 to R353, R382).
-/
namespace Sys2Proof.Machine

/-! ## The queue (R352) -/

/-- QUEUED, the units of the queue with the one in progress; the field has 16 bits, and the manual gives no value for a
longer queue. -/
def cstCount (s : State) : State :=
  let n := s.cst.queue.length
  if n < 65536 then setFld pgCst 0 0x114 16 16 n s
  else
    let (f, s) := takeFree s
    setFld pgCst 0 0x114 16 16 f s

/-- Units added behind the queue. -/
def cstQueue (o : FlashOwner) (us : List FlashUnit) (s : State) : State :=
  cstCount { s with cst := { s.cst with queue := s.cst.queue ++ us.map (fun u => (u, o)) } }

/-- Page programs of at most 256 bytes that write a byte string from an address aligned to 256. -/
def pagePrograms : (fuel : Nat) → (a : Nat) → List Byte → List FlashUnit
  | 0, _, _ => []
  | n + 1, a, bs => if bs.isEmpty then [] else .prog a (bs.take 256) :: pagePrograms n (a + 256) (bs.drop 256)

/-- The units that put a byte string at a sector's start: the erases of its sectors, then its pages. -/
def writeUnits (a : Nat) (bs : List Byte) : List FlashUnit :=
  (List.range ((bs.length + 4095) / 4096)).map (fun i => .erase (a / 4096 + i)) ++
  pagePrograms (bs.length / 256 + 1) a bs

/-- Units of the queue that an owner waits for. -/
def ownerUnits (o : FlashOwner) (s : State) : Nat := (s.cst.queue.filter (fun e => e.2 == o)).length

/-! ## The hold-up check (R353) -/

/-- v_mv, avail and need of R353. -/
def huVolts (code : Nat) (s : State) : Nat := code * 1800 * getFld pgCst 0 0x104 16 16 s / (4095 * 256)
def huAvail (v : Nat) (s : State) : Nat :=
  let vmin := getFld pgCst 0 0x104 0 16 s
  if vmin < v then getFld pgCst 0 0x100 0 24 s * (v * v - vmin * vmin) / 2000000 else 0
def huNeed (u : FlashUnit) (s : State) : Nat :=
  let e := match u with
    | .prog _ _ => getFld pgCst 0 0x108 0 24 s
    | .erase _ => getFld pgCst 0 0x10C 0 24 s
  e + e / 4

/-- V_MV of a check: 16 bits, and the manual gives no value above them. -/
def showVolts (v : Nat) (s : State) : State :=
  if v < 65536 then setFld pgCst 0 0x118 0 16 v s
  else
    let (f, s) := takeFree s
    setFld pgCst 0 0x118 0 16 f s

/-- CISTERN_UNIT_START: AIN7 is converted with priority; the unit at the front starts, or is deferred. -/
def cstStart (code : BitVec 12) (s : State) : State :=
  match s.cst.queue with
  | [] => s
  | u :: _ =>
    if cstBusy s || s.cst.waiting || s.rst.held then s
    else
      let s := adcResult 7 code s
      let v := huVolts code.toNat s
      let avail := huAvail v s
      let s := setReg pgCst 0 0x11C (w32 (min avail (2 ^ 32 - 1))) (showVolts v s)
      if huNeed u.1 s ≤ avail ∧ getFld pgCst 0 0x100 0 24 s ≠ 0 then
        dropIrq pgCst 0 (setFld pgCst 0 0x114 0 2 1 s)
      else
        let s := count32 pgCst 0 0x120 (setFld pgCst 0 0x114 1 1 1 s)
        let s := { s with cst := { s.cst with
          waiting := true, retryAt := s.aon.ms + max 1 (getFld pgCst 0 0x110 0 8 s) } }
        raiseIrq pgCst 0 s

/-- CISTERN_RETRY_EXPIRY: the deferred unit is checked again. -/
def cstRetry (s : State) : State :=
  if s.cst.waiting && decide (s.cst.retryAt ≤ s.aon.ms) then { s with cst := { s.cst with waiting := false } } else s

/-! ## The end of a unit (R347, R351, R352, R382) -/

/-- What a unit leaves in the flash: a page program its data, an erase 0xFF in the whole sector. -/
def unitWrite (u : FlashUnit) (s : State) : State :=
  match u with
  | .prog a bs => flashPut a bs s
  | .erase sec => flashPut (sec * 4096) (List.replicate 4096 0xFF#8) s

/-- The number of a mailbox port. -/
def portIdx : MbPort → Nat
  | .sdio => 0
  | .host => 1

/-- A port's pending operation has its final response. -/
def pendFinal (p : MbPort) (op status : Nat) (res0 : Word) (s : State) : State :=
  { s with mbx := { s.mbx with pend := tabSet (portIdx p) (.final op status res0) s.mbx.pend } }

/-- What a unit's end brings about: the first record of a sector of the reservation region queues the erase of the next
sector (R382); a site record's last unit ends SET_SITE_CFG (R347). -/
def unitEnded (u : FlashUnit × FlashOwner) (s : State) : State :=
  match u with
  | (.prog a _, .leaf) =>
    if a % 4096 = 0 then cstQueue .leaf [.erase (4096 + (a / 4096 - 4096 + 1) % 256)] s else s
  | (_, .site p) => if ownerUnits (.site p) s = 0 then pendFinal p 0x0F 0 0 s else s
  | _ => s

/-- A reset that waits for Cistern is performed (R351). -/
def waitingReset (s : State) : State :=
  match s.rst.pending with
  | some c => doReset (some c) s
  | none => if s.pins.extest && !s.rst.held then doReset none s else s

/-- CISTERN_UNIT_COMPLETE. -/
def cstComplete (s : State) : State :=
  match s.cst.queue with
  | [] => s
  | u :: rest =>
    if !(cstBusy s) then s
    else
      let s := unitWrite u.1 { s with cst := { s.cst with queue := rest } }
      let s := count32 pgCst 0 0x124 (setFld pgCst 0 0x114 0 1 0 s)
      let s := cstCount (unitEnded u s)
      let s := if s.cst.queue.isEmpty then raiseIrq pgCst 1 s else s
      waitingReset s

/-! ## Meanings -/

/-- CISTERN_UNIT_START (R353). -/
def execCisternUnitStart (code : BitVec 12) (s : State) : Out := toNext (cstStart code s)

/-- CISTERN_RETRY_EXPIRY (R353). -/
def execCisternRetryExpiry (s : State) : Out := toNext (cstRetry s)

/-- CISTERN_UNIT_COMPLETE (R352). -/
def execCisternUnitComplete (s : State) : Out := toNext (cstComplete s)

end Sys2Proof.Machine
end

