-- ==== Sys2Proof/Machine/Hbm.lean ====
section
/-!
DEFINITION. The HBM controllers' rows (R137, R138, R141 to R143).
-/
namespace Sys2Proof.Machine

/-- Regions of the 96 GiB (R137). -/
abbrev regionCount : Nat := 49152

/-- A write of REGION_INV (R138): discarded while BUSY, without GO, or for a region that does not exist; during a fill of
the region it waits, with BUSY set. -/
def regionInvWrite (v : Word) (s : State) : State :=
  let r := fld v 0 16
  if !(bit v 31) || regionCount ≤ r || bit (getReg (pgHbc 0) 0 0x128 s) 31 then s
  else
    let s := setFld (pgHbc 0) 0 0x128 0 16 r s
    if s.hbc.filling.contains r then
      setFld (pgHbc 0) 0 0x128 31 1 1 { s with hbc := { s.hbc with pendInv := s.hbc.pendInv ++ [r] } }
    else clearRegion r s

/-- The pseudo-channels that PC_RETIRE retires. -/
def retiredCount (n : Nat) (s : State) : Nat :=
  ((List.range 32).filter (fun k => bit (getReg (pgHbc n) 0 0x108 s) k)).length

/-- INIT is set in every controller. -/
def allInit (s : State) : Bool := (List.range 4).all (fun n => bit (getReg (pgHbc n) 0 0x100 s) 0)

/-- HBC_CTL.INIT set: training starts with PC_RETIRE as it stands (R143). With INIT set in every controller, boot event 7
is reached (Table 13-6). -/
def hbmInitWrite (n : Nat) (s : State) : State :=
  if bit (getReg (pgHbc n) 0 0x100 s) 0 then s
  else
    let s := setFld (pgHbc n) 0 0x104 8 6 (retiredCount n s) (setFld (pgHbc n) 0 0x100 0 1 1 s)
    if stage s = 3 ∧ allInit s then setFld pgRst 0 0x12C 0 4 4 s else s

/-- The scrubber of a controller runs: enabled, the stack in service and not in self-refresh (R141). -/
def scrubActive (n : Nat) (s : State) : Bool :=
  bit (getReg (pgHbc n) 0 0x118 s) 0 && bit (getReg (pgHbc n) 0 0x104 s) 0 && !(bit (getReg (pgHbc n) 0 0x104 s) 1) &&
  !(dark (pgHbc n) s)

/-- Steps of a pass: 256-byte steps over the pseudo-channels in service (R141, R143). -/
def scrubSteps (n : Nat) (s : State) : Nat := 3145728 * (32 - getFld (pgHbc n) 0 0x104 8 6 s)

/-- The scrub step that reads a 256-byte unit of the controller's stack. DESIGN CHOICE (log 85): round by round, and within a round by
pseudo-channel in service; the manual states the number of steps and not their order. -/
def scrubPlace (n u : Nat) (s : State) : Nat :=
  let l := (livePcs s).filter (fun c => c / 32 == n)
  hbmRound u s * l.length + l.idxOf (hbmChan u s)

/-- PATROL_SCRUB_STEP: the units of one 256-byte step are read, corrected and logged; the position moves on (R141). -/
def scrubStep (n : Nat) (s : State) : State :=
  if !(scrubActive n s) || scrubSteps n s == 0 then s
  else
    let pos := getFld (pgHbc n) 0 0x120 0 27 s
    let hit := fun (u : Nat) => stackOf (u * 32) s == n && scrubPlace n (u / 8) s == pos
    let s := (s.hbc.ecc.filter (fun e => hit e.1)).foldl (fun s e => hbmUnitError e.1 e.2.ue true s) s
    if pos + 1 < scrubSteps n s then setFld (pgHbc n) 0 0x120 0 27 (pos + 1) s
    else raiseIrq (pgHbc n) 1 (addFld (pgHbc n) 0 0x11C 0 16 1 (setFld (pgHbc n) 0 0x120 0 27 0 s))

/-- REGION_FILL_DONE (R137). -/
def execRegionFillDone (region : Nat) (s : State) : Out := toNext (regionFilled region s)

/-- REGION_INV (R138). -/
def execRegionInv (r : Requester) (v : Word) (s : State) : Out :=
  toNext (blockWrite r (pgHbc 0) 0x124 (regionInvWrite v) s)

/-- HBM_INIT (R143). -/
def execHbmInit (r : Requester) (n : Fin 4) (s : State) : Out :=
  toNext (blockWrite r (pgHbc n.val) 0x100 (hbmInitWrite n.val) s)

/-- PATROL_SCRUB_STEP (R141). -/
def execPatrolScrubStep (n : Fin 4) (s : State) : Out := toNext (scrubStep n.val s)

end Sys2Proof.Machine
end

