-- ==== Sys2Proof/Machine/Power.lean ====
section
/-!
DEFINITION. Device states: the request, the handshake, retention, wake and exit (R331 to R343), and the comparators, whose
crossings may wake the device (R317, R318, R340, R465).
-/
namespace Sys2Proof.Machine

/-! ## The handshake (R334 to R336) -/

/-- Domains that a target state switches off: clusters and cores for DOZE, every switched domain for SLEEP and OFF
(Table 13-1). -/
def switchedOff (t : Nat) : List Nat := if t = 1 then List.range 96 else List.range 120

/-- The blocks that a request goes to: the pages of the domains that are switched off and are powered and not isolated,
and Cistern for SLEEP and OFF (Tables 13-2, 13-3). -/
def askedPages (t : Nat) (s : State) : List Nat :=
  ((List.range 146).filter (fun pg =>
    (switchedOff t).contains (pageDomain pg) && powered pg s && !(isolated pg s))) ++
  (if t = 1 then [] else [pgCst])

/-- PWR_REQ written by Proofer; it reads 0 in AON pages. -/
def writeReq (t seq : Nat) (s : State) (pg : Nat) : State :=
  if pageDomain pg = 120 then s else setReg pg 0 0x030 (w32 (t + seq * 4)) s

/-- PWR_ACK written by a block with the request's SEQ; it reads 0 in AON pages. -/
def writeAck (pg resp seq reason delay : Nat) (s : State) : State :=
  if pageDomain pg = 120 then s else setReg pg 0 0x034 (w32 (resp + seq * 4 + reason * 2 ^ 8 + delay * 2 ^ 16)) s

/-- STATE_CTL.GO clears (Table 18-3). -/
def goDone (s : State) : State := raiseIrq pgRst 0 (setFld pgRst 0 0x100 31 1 0 s)

/-- The pages that were asked and have not been released: PWR_REQ with TARGET = 0 and the same SEQ (R336). The link that a
host had taken to L2 for the entry returns to L0. -/
def releaseAsked (s : State) : State :=
  let s := (List.range 146).foldl (fun s pg => setFld pg 0 0x030 0 2 0 s) s
  if getFld pgPci 0 0x100 10 3 s = 4 then setFld pgPci 0 0x100 10 3 0 s else s

/-- The refusing domain and its reason in STATE_STS (R336). -/
def refusalShown (domain reason : Nat) (s : State) : State :=
  setFld pgRst 0 0x104 16 8 reason (setFld pgRst 0 0x104 8 7 domain s)

/-- A refusal aborts the transition (R336). -/
def refuseEntry (domain reason : Nat) (s : State) : State :=
  let s := releaseAsked { s with rst := { s.rst with trans := none, aborted := s.rst.trans } }
  goDone (raiseIrq pgRst 1 (refusalShown domain reason s))

/-- Another block refuses in the cycle of the refusal that aborted the request (DESIGN CHOICE: before the next microsecond
count): STATE_STS records the lowest domain index (R336). -/
def refuseToo (domain reason : Nat) (s : State) : State :=
  if domain < getFld pgRst 0 0x104 8 7 s then refusalShown domain reason s else s

/-- A wake event before step 3 aborts the entry (R337). -/
def wakeAbort (s : State) : State :=
  let s := releaseAsked { s with rst := { s.rst with trans := none } }
  goDone (raiseIrq pgRst 1 (setFld pgRst 0 0x104 25 1 1 s))

/-- What SLEEP and OFF lose besides the domains' registers: the translation buffers, the Svaumon ports' links. -/
def sleepLoses (s : State) : State :=
  { s with
    mmu := { s.mmu with micro := [], shared := [], walk := [] },
    svl := { s.svl with ports := [] },
    pci := { s.pci with ltrActive := false } }

/-- R334 steps 3 and 4: retention saved, the domains isolated and switched off, STATE takes the target. -/
def enterState (t : Nat) (s : State) : State :=
  let s := (switchedOff t).foldl (fun s d => gateDomain d s)
    { s with rst := { s.rst with trans := none } }
  let s := if t = 1 then s
    else { sleepLoses s with aon := { s.aon with wake := 0 } }
  goDone (setFld pgRst 0 0x104 0 2 t s)

/-- The entry completes once every block has accepted; OFF also completes every write that Cistern holds (R343). -/
def entryCheck (s : State) : State :=
  match s.rst.trans with
  | some t => if t.waiting.isEmpty then enterState t.target s else s
  | none => s

/-- A request starts the handshake: PWR_REQ in every page concerned, with a new SEQ (R334). -/
def startEntry (t : Nat) (s : State) : State :=
  let seq := (s.rst.seq + 1) % 64
  let pages := if devState s = 2 then [pgCst] else askedPages t s
  let s := { s with rst := { s.rst with
    seq := seq, aborted := none,
    trans := some { target := t, prev := devState s, seq := seq, waiting := pages } } }
  let s := setFld pgRst 0 0x104 16 8 0 (setFld pgRst 0 0x104 8 7 0 s)
  entryCheck (pages.foldl (writeReq t seq) (setFld pgRst 0 0x100 31 1 1 s))

/-- STATE_CTL may be written by the PF, the CPU complex and Yunanos (R332). -/
def mayState : Requester → Bool
  | .pf => true
  | .hart _ => true
  | .yns => true
  | _ => false

/-- A state request (R332, Table 13-5): for the current state it completes at once; ON ends DOZE without a handshake; from
SLEEP only Yunanos goes on, to OFF. A request that Table 13-5 does not list changes nothing. -/
def requestState (r : Requester) (t : Nat) (s : State) : State :=
  let cur := devState s
  if s.rst.exiting then s
  else if t = cur then goDone s
  else if cur = 1 ∧ t = 0 then goDone (endDoze s)
  else if cur < 2 then startEntry t s
  else if cur = 2 ∧ t = 3 ∧ r = .yns then startEntry 3 s
  else s

/-- A write of STATE_CTL (R332): a GO while GO reads 1 is discarded. -/
def stateCtlWrite (r : Requester) (v : Word) (s : State) : State :=
  if !(mayState r) then s
  else
    let s := setFld pgRst 0 0x100 0 2 (fld v 0 2) s
    if bit v 31 && !(bit (getReg pgRst 0 0x100 s) 31) then requestState r (fld v 0 2) s else s

/-! ## The answers (Tables 13-2, 13-3) -/

/-- Leaven holds a session READY, RUNNING, PARKING or RESTORING. -/
def lvnBusy (s : State) : Bool :=
  !(s.lvn.batches.isEmpty && s.lvn.steps.isEmpty && s.lvn.parks.isEmpty && s.lvn.restores.isEmpty)

/-- The security engine is signing: a request at the head of the queue with a reserved leaf (R384, R388). -/
def signing (s : State) : Bool := !(s.sec.queue.isEmpty) && decide (getPair pgSec 0 0x110 s < getPair pgSec 0 0x118 s)

/-- The reason for which a block must refuse a target, as Table 13-2 gives it. -/
def mustRefuse (pg t : Nat) (s : State) : Option Nat :=
  if 43 ≤ pg ∧ pg < 123 then (if coreBusy (pg - 43) s then some 1 else none)
  else if 27 ≤ pg ∧ pg < 43 then
    (if s.fe.slots.any (fun k => k.2.state == 1 && k.2.cmemSize != 0) then some 2 else none)
  else if pg = pgTlr then (if s.tlr.passes.isEmpty then none else some 1)
  else if pg = pgFe then
    (if 2 ≤ t ∧ (s.fe.queues.any (fun q => q.2.state == 2) || !(s.fe.jobs.isEmpty)) then some 1 else none)
  else if pg = pgSec then (if 2 ≤ t ∧ signing s then some 1 else none)
  else if pg = pgLvn then (if 2 ≤ t ∧ lvnBusy s then some 1 else none)
  else if pg = pgCmp then (if (List.range 16).any (fun c => chEnabled c s) then some 3 else none)
  else if pg = pgPci then (if selfHosted s && bit (getReg pgPci 0 0x108 s) 31 then some 4 else none)
  else if 141 ≤ pg ∧ pg < 145 then (if bit (getReg pg 0 0x100 s) 1 then some 4 else none)
  else if 129 ≤ pg ∧ pg < 133 then
    (if s.dma.chans.any (fun c => c.1 / 16 == pg - 129 && (c.2.st == .stalled || c.2.st == .postWait)) then some 5 else none)
  else if pg = pgCst then
    (match cstBusy s, s.cst.queue with
     | true, (.erase _, _) :: _ => some 6
     | _, _ => none)
  else none

/-- A debug session is open (R391): it may hold any block. -/
def debugOpen (s : State) : Bool := bit (getReg pgSec 0 0x100 s) 2 || getFld pgSec 0 0x100 0 2 s != 1

/-- The refusals that only the block knows: PCIe in hosted mode with the link not in L2/L3 Ready, a hart that is not in WFI,
a block that a debug session holds. -/
def mayRefuse (pg reason : Nat) (s : State) : Bool :=
  (pg == pgPci && reason == 4 && linkUp s) ||
  (pg == pgHcx && reason == 1 && getFld pgHcx 0 0x104 0 8 s != 0) ||
  (reason == 7 && debugOpen s)

/-- The harts that run. -/
def runningHarts (s : State) : List Nat := (List.range 8).filter (fun h => bit (getReg pgHcx 0 0x104 s) h)

/-- The domain that a refusal names. HCX answers for the CPU domains and the L3; which of the running harts is the first that is
not in WFI, and which of the nine is the first that still writes back at its limit, is theirs to say. -/
def refusalDomain (pg reason : Nat) (s : State) : Nat × State :=
  if pg = pgHcx ∧ reason = 1 then
    let hs := runningHarts s
    let (f, s) := takeFree s
    (96 + nth 0 hs (f % max 1 hs.length), s)
  else if pg = pgHcx ∧ reason = 8 then
    let (f, s) := takeFree s
    (96 + f % 9, s)
  else (pageDomain pg, s)

/-- What an acceptance tells of its block: the link is in L2/L3 Ready, every running hart is in WFI. -/
def acceptEffect (pg : Nat) (s : State) : State :=
  if pg = pgPci ∧ linkUp s then setFld pgPci 0 0x100 10 3 4 s
  else if pg = pgHcx then setFld pgHcx 0 0x104 8 8 (getFld pgHcx 0 0x104 0 8 s) s
  else s

/-- A block has accepted. -/
def accepted (pg : Nat) (s : State) : State :=
  match s.rst.trans with
  | some t => entryCheck { s with rst := { s.rst with trans := some { t with waiting := t.waiting.filter (· != pg) } } }
  | none => s

/-- A domain that is fenced during a handshake has accepted (R361). -/
def fenceAccepts (d : Nat) (s : State) : State := (domainPages d).foldl (fun s pg => accepted pg s) s

/-- OFF waits until Cistern's queue is empty (R343). -/
def holdsAccept (pg t : Nat) (s : State) : Bool :=
  pg == pgCst && (cstBusy s || (t == 3 && !(s.cst.queue.isEmpty)))

/-- The refusal of a block whose request another block's refusal has aborted in the same cycle. -/
def lateRefusal (pg : Nat) (a : PwrResp) (t : Trans) (s : State) : State :=
  if !(t.waiting.contains pg) then s
  else
    let reason := match mustRefuse pg t.target s, a with
      | some r, _ => r
      | none, .refuse r => if mayRefuse pg r.toNat s then r.toNat else 0
      | none, _ => 0
    if reason = 0 then s
    else
      let (d, s) := refusalDomain pg reason s
      refuseToo d reason (writeAck pg 2 t.seq reason 0 s)

/-- BLOCK_POWER_RESPONSE: the answer of a page that has not accepted yet. A block that must refuse refuses; a refusal
without a ground is none. -/
def powerResponse (pg : Nat) (a : PwrResp) (s : State) : State :=
  match s.rst.trans with
  | none =>
    (match s.rst.aborted with
     | some t => lateRefusal pg a t s
     | none => s)
  | some t =>
    if !(t.waiting.contains pg) then s
    else
      match mustRefuse pg t.target s, a with
      | some reason, _ =>
        let (d, s) := refusalDomain pg 0 s
        refuseEntry d reason (writeAck pg 2 t.seq reason 0 s)
      | none, .refuse reason =>
        if mayRefuse pg reason.toNat s then
          let (d, s) := refusalDomain pg reason.toNat s
          refuseEntry d reason.toNat (writeAck pg 2 t.seq reason.toNat 0 s)
        else s
      | none, .delay us =>
        let cur := getReg pg 0 0x034 s
        let n := if fld cur 0 2 = 3 ∧ fld cur 2 6 = t.seq then min us.toNat (fld cur 16 16) else us.toNat
        writeAck pg 3 t.seq 0 n s
      | none, .accept =>
        if holdsAccept pg t.target s then s else accepted pg (acceptEffect pg (writeAck pg 1 t.seq 0 0 s))

/-- A block's limit of Table 13-3 in µs. -/
def delayLimit (pg : Nat) : Nat :=
  if pageDomain pg = 109 then 100
  else if 135 ≤ pg ∧ pg < 139 then 20
  else if pg = pgHcx then 5000
  else if pg = pgPci then 50
  else if 141 ≤ pg ∧ pg < 145 then 100
  else if pg = pgCst then 1500
  else 10

/-- A block has answered the request with a delay that still runs: RESP = 3 with the request's SEQ. Cistern's page holds no
PWR_ACK (Table 18-2); it delays while a unit is in progress or, for OFF, while its queue holds one (R335, R343). -/
def delaying (pg : Nat) (t : Trans) (s : State) : Bool :=
  if pg = pgCst then holdsAccept pg t.target s
  else getFld pg 0 0x034 0 2 s == 3 && getFld pg 0 0x034 2 6 s == t.seq

/-- POWER_DELAY_EXPIRY: a delaying block at its limit counts as refusing with DELAY_LIMIT (R335). -/
def delayExpiry (pg : Nat) (s : State) : State :=
  match s.rst.trans with
  | none => s
  | some t =>
    if t.waiting.contains pg && decide (delayLimit pg ≤ t.waited) && delaying pg t s then
      let (d, s) := refusalDomain pg 8 s
      refuseEntry d 8 s
    else s

/-! ## Wake (R337, R340, R341, R343) -/

/-- The WAKE_EN bit of a source. -/
def wakeBit : WakeSrc → Nat
  | .comparator c => c.val
  | .sdio => 4
  | .pcieWake => 5
  | .counter => 6
  | .perst => 7

/-- The wake counter has reached WAKE_CNT; a millisecond step of the model carries at most 33 of its counts (R341). -/
def wakeCntDue (s : State) : Bool :=
  let n := (getReg pgRst 0 0x110 s).toNat
  n != 0 && 2 ≤ devState s && n ≤ s.aon.wake + 33

/-- The condition of a source (R340, R410). -/
def wakeHolds (w : WakeSrc) (s : State) : Bool :=
  match w with
  | .comparator c => cmpOut c.val s == bit (getReg pgRst 0 0x114 s) c.val
  | .sdio => devState s != 3
  | .pcieWake => selfHosted s
  | .counter => wakeCntDue s
  | .perst => !(selfHosted s)

/-- An enabled wake source (Table 13-5): an entry from ON or DOZE is aborted and leaves the state as it was. -/
def wake (w : WakeSrc) (s : State) : State :=
  let k := wakeBit w
  if s.rst.held || !(bit (getReg pgRst 0 0x108 s) k) || !(wakeHolds w s) then s
  else
    let entry := s.rst.trans.isSome
    let s := if entry then wakeAbort s else s
    if entry ∧ devState s < 2 then s
    else if devState s = 1 then setReg pgRst 0 0x10C (oneBit k) (endDoze s)
    else if devState s = 2 ∧ !s.rst.exiting then { s with rst := { s.rst with exiting := true, exitSrc := 2 ^ k } }
    else if devState s = 3 then deviceReset .wakeOff s
    else s

/-- WAKE_EVENT. The deassertion of PCIE_PERST_N changes the pin and, in hosted mode, releases the reset that the pin held, whether
or not it wakes (R340, R350). -/
def wakeEvent (w : WakeSrc) (s : State) : State :=
  match w with
  | .perst =>
    if s.pins.perstN then s
    else
      let s := { s with pins := { s.pins with perstN := true } }
      if selfHosted s then s
      else wake .perst (bootStart (setBlkSts (pageDomain pgPci) 2 0 { s with rst := { s.rst with perst := false } }))
  | w => wake w s

/-! ## The exit from SLEEP (R339, R342, Table 13-4) -/

/-- HBM leaves self-refresh: READY with the pseudo-channels retired. -/
def hbmBack (s : State) (n : Nat) : State :=
  if isolated (pgHbc n) s then s
  else setReg (pgHbc n) 0 0x104 (w32 (1 + retiredCount n s * 2 ^ 8)) (setFld (pgHbc n) 0 0x114 0 5 (logCount n s) s)

/-- Status that is recomputed on exit: the port type and a link that is down, the harts that firmware restarts at
RST.RESUME in self-hosted mode. -/
def recompute (s : State) : State :=
  let s := setReg pgPci 0 0x100 (w32 (b2n (selfHosted s))) s
  setReg pgHcx 0 0x104 (w32 (if selfHosted s then getFld pgHcx 0 0x100 0 8 s else 0)) s

/-- SLEEP_EXIT_COMPLETE. -/
def sleepExit (s : State) : State :=
  if !s.rst.exiting || devState s ≠ 2 then s
  else
    let src := s.rst.exitSrc
    let s := { s with rst := { s.rst with exiting := false, exitSrc := 0, lost := [] }, pwr := { s.pwr with win := [] } }
    let ds := ((List.range 24).map (· + 96)).filter (fun d => !(domFenced d s))
    let s := recompute (restoreAreas ds (ds.foldl (fun s d => ungateDomain d s) s))
    let s := (List.range 4).foldl hbmBack s
    let s := setReg pgRst 0 0x10C (w32 src) (setFld pgRst 0 0x104 0 2 0 s)
    let s := if !(selfHosted s) && s.pci.pmeEn && src != 2 ^ 7 then { s with pins := { s.pins with wakeN := false } } else s
    raiseIrq pgRst 2 (publish true s)

/-! ## Comparators (R317, R318, R465) -/

/-- The output of a comparator for an input in µV: asserted above the threshold, deasserted below the threshold less the
hysteresis, else as before. -/
def cmpNext (c microV : Nat) (s : State) : Bool :=
  let v := getReg pgAna 0 (0x128 + 4 * c) s
  let th := fld v 4 10 * 1800000
  if !(bit v 3) then false
  else if th < microV * 1024 then true
  else if (microV + fld v 16 8 * 1758) * 1024 < th then false
  else cmpOut c s

/-- The site comparators' conditions have changed, or may have: the alternate cap and the hard overdraw (R20, R317, R318). An
assertion of the overdraw stays due until Proofer has taken its steps. -/
def siteUpdate (s : State) : State :=
  let alt := altOn s
  let s := if bit (getReg pgPwr 0 0x110 s) 9 = alt then s
    else { setFld pgPwr 0 0x110 9 1 (b2n alt) s with pwr := { s.pwr with oocDue := true } }
  let s :=
    if ovrSignal s then (if s.pwr.ovr then s else { s with pwr := { s.pwr with ovrDue := true } })
    else if s.pwr.ovr then overdrawOver s
    else s
  updateThr s

/-- A comparator's output set: RISE or FALL, then what depends on it. -/
def cmpSet (c : Nat) (out : Bool) (s : State) : State :=
  if cmpOut c s = out then s
  else
    let s := setFld pgAna 0 0x138 (if out then 4 + c else 8 + c) 1 1 (setFld pgAna 0 0x138 c 1 (b2n out) s)
    let s := siteUpdate s
    if h : c < 4 then wakeEvent (.comparator ⟨c, h⟩) s else s

/-- COMPARATOR_CROSSING. -/
def cmpCross (c microV : Nat) (s : State) : State :=
  if !(aonUp s) || s.rst.held then s else cmpSet c (cmpNext c microV s) s

/-- A write of CMP_CFG: a comparator that is disabled deasserts at once; any other change waits for its input's level. -/
def cmpCfgWrite (c : Nat) (v : Word) (s : State) : State :=
  let s := writeByType pgAna 0 (0x128 + 4 * c) v s
  if bit (getReg pgAna 0 (0x128 + 4 * c) s) 3 then s else cmpSet c false s

/-! ## Meanings -/

/-- STATE_REQUEST (R334): a write of STATE_CTL with GO = 1. -/
def execStateRequest (r : Requester) (v : Word) (s : State) : Out :=
  toNext (if bit v 31 then blockWrite r pgRst 0x100 (stateCtlWrite r v) s else s)

/-- BLOCK_POWER_RESPONSE (R334). -/
def execBlockPowerResponse (page : Fin 146) (a : PwrResp) (s : State) : Out := toNext (powerResponse page.val a s)

/-- POWER_DELAY_EXPIRY (R335). -/
def execPowerDelayExpiry (page : Fin 146) (s : State) : Out := toNext (delayExpiry page.val s)

/-- WAKE_EVENT (R340). -/
def execWakeEvent (w : WakeSrc) (s : State) : Out := toNext (wakeEvent w s)

/-- WAKE_COUNTER_EXPIRY (R341). -/
def execWakeCounterExpiry (s : State) : Out := toNext (wakeEvent .counter s)

/-- SLEEP_EXIT_COMPLETE (R342). -/
def execSleepExitComplete (s : State) : Out := toNext (sleepExit s)

/-- COMPARATOR_CROSSING (R465). -/
def execComparatorCrossing (c : Fin 4) (microV : Nat) (s : State) : Out := toNext (cmpCross c.val microV s)

end Sys2Proof.Machine
end

