-- ==== Sys2Proof/Machine/Basin.lean ====
section
/-!
DEFINITION. Basin: classification, reactions, fencing, spares and re-admit, the stop record, ERR_N and fault injection
(R14, R355 to R372).
-/
namespace Sys2Proof.Machine

/-! ## Sources -/

/-- Every sticky bit that stands for a source (R355, Table 14-1): its own home, and the further pages of sources 160 to 175,
281 and 282. -/
def srcHomes (i : Nat) : List (Nat × Nat) :=
  srcHome i ::
    (if 160 ≤ i ∧ i < 176 then (List.range 5).map (fun k => (pgSc (5 * (i - 160) + k), 2))
     else if i = 281 then (List.range 4).map (fun n => (pgDma n, 31))
     else if i = 282 then [(pgFnc, 0)]
     else [])

/-- A word of SRC_STICKY (R355). -/
def srcSticky (w : Nat) (s : State) : Word :=
  (List.range 32).foldl (fun v k =>
    if (srcHomes (32 * w + k)).any (fun h => bit (getReg h.1 0 0x020 s) h.2) then v ||| oneBit k else v) 0

/-- A write of a word of SRC_STICKY clears the underlying bits (R355). -/
def srcStickyClear (w : Nat) (v : Word) (s : State) : State :=
  (List.range 32).foldl (fun s k =>
    if bit v k then (srcHomes (32 * w + k)).foldl (fun s h => clearSticky h.1 (oneBit h.2) s) s else s) s

/-- FENCE is valid for the source (R360). -/
def fenceable (i : Nat) : Bool := i < 208 || (224 ≤ i && i < 228) || (267 ≤ i && i < 275)

/-- The domain of a source's unit, for the sources that have one. -/
def srcUnit (i : Nat) : Option Nat :=
  if i < 80 then some i
  else if i < 160 then some (i - 80)
  else if i < 208 then some (80 + (i - 160) % 16)
  else if 224 ≤ i ∧ i < 228 then some (116 + (i - 224))
  else if 267 ≤ i ∧ i < 275 then some (96 + (i - 267))
  else none

/-- REACT of a source. -/
def srcReact (i : Nat) (s : State) : Nat := getFld pgBsn i 0x104 8 2 s

/-- A write of SRC_CFG of the selected source: REACT = 1 leaves REACT unchanged where FENCE is not valid (R360). -/
def srcCfgWrite (i : Nat) (v : Word) (s : State) : State :=
  let v := if fld v 8 2 = 1 ∧ !(fenceable i) then putFld v 8 2 (srcReact i s) else v
  writeByType pgBsn i 0x104 v s

/-! ## Classification (R358, R359) -/

/-- STATE of a source: 0 NORMAL, 1 COUNTING, 2 SEVERE. -/
def srcState (i : Nat) (s : State) : Nat := getFld pgBsn i 0x110 8 2 s

/-- STATE and COUNT of a source set. -/
def setSrc (i st n : Nat) (s : State) : State := setFld pgBsn i 0x110 8 2 st (setFld pgBsn i 0x110 0 8 n s)

/-- One unmasked event of a source, and whether it entered SEVERE (R358). -/
def classify (i : Nat) (s : State) : State × Bool :=
  let s := addFld pgBsn i 0x110 16 16 1 s
  let s := { s with bsn := { s.bsn with
    winLen := tabSet i (getFld pgBsn i 0x108 0 24 s) s.bsn.winLen,
    quietLen := tabSet i (getFld pgBsn i 0x10C 0 24 s) s.bsn.quietLen } }
  if srcState i s = 2 then ({ s with bsn := { s.bsn with quietStart := tabSet i s.aon.ms s.bsn.quietStart } }, false)
  else
    let s := if srcState i s = 0 then { s with bsn := { s.bsn with winStart := tabSet i s.aon.ms s.bsn.winStart } } else s
    let n := getFld pgBsn i 0x110 0 8 s + 1
    if max (getFld pgBsn i 0x104 0 8 s) 1 ≤ n then
      (setSrc i 2 n { s with bsn := { s.bsn with quietStart := tabSet i s.aon.ms s.bsn.quietStart } }, true)
    else (setSrc i 1 n s, false)

/-- BASIN_WINDOW_EXPIRY (R358): the AON counter has run W since the window's start; an event that has reached Basin goes first. -/
def windowEnd (i : Nat) (s : State) : State :=
  let w := tabGet 0 i s.bsn.winLen
  if aonUp s && !(s.bsn.inbox.contains i) && srcState i s == 1 && w != 0 && decide (w ≤ s.aon.ms - tabGet 0 i s.bsn.winStart) then setSrc i 0 0 s else s

/-- BASIN_QUIET_EXPIRY (R358). -/
def quietEnd (i : Nat) (s : State) : State :=
  let q := tabGet 0 i s.bsn.quietLen
  if aonUp s && !(s.bsn.inbox.contains i) && srcState i s == 2 && q != 0 && decide (q ≤ s.aon.ms - tabGet 0 i s.bsn.quietStart) then
    count32 pgBsn 0 0x138 (setSrc i 0 0 s)
  else s

/-- A write of SRC_STS of the selected source (R358): CLR. -/
def srcStsWrite (v : Word) (s : State) : State :=
  let i := getFld pgBsn 0 0x100 0 9 s
  if bit v 15 ∧ i < 288 then setSrc i 0 0 s else s

/-! ## ERR_N (R368) -/

/-- A pulse starts, or starts again. -/
def errnPulse (s : State) : State :=
  setFld pgBsn 0 0x148 16 1 1 { s with pins := { s.pins with errN := false } }

/-- A pulse is in progress. -/
def pulsing (s : State) : Bool := bit (getReg pgBsn 0 0x148 s) 16

/-- ERRN_PULSE_END: the pin takes LEVEL. -/
def errnEnd (s : State) : State :=
  if pulsing s then
    setFld pgBsn 0 0x148 16 1 0 { s with pins := { s.pins with errN := bit (getReg pgBsn 0 0x148 s) 0 } }
  else s

/-- A write of ERRN_CTL: LEVEL takes effect at once, or when the pulse ends. -/
def errnCtlWrite (v : Word) (s : State) : State :=
  let s := writeByType pgBsn 0 0x148 v s
  if pulsing s then s else { s with pins := { s.pins with errN := bit (getReg pgBsn 0 0x148 s) 0 } }

/-! ## The core map (R14, R364) -/

/-- A logical index mapped anew, with CORES.ENABLED and MAP_GEN. -/
def remap (l p : Nat) (s : State) : State :=
  let s := setPhys l p s
  let on := ((List.range 64).filter (fun k => physOf k s != 0x7F)).length
  wrap32 pgCap 0 0x104 (setFld pgCap 0 0x100 8 7 on s)

/-- The unbound spare of a cluster. -/
def clusterSpare (c : Nat) (s : State) : Option Nat :=
  ((List.range 5).map (fun i => 5 * c + i)).find? (fun q => spare (pgSc q) s && !(domFenced q s))

/-- EPOCH.VALUE of a page increased, modulo 65,536 (R362). -/
def bumpEpoch (pg : Nat) (s : State) : State := setFld pg 0 0x03C 0 16 (getFld pg 0 0x03C 0 16 s + 1) s

/-- A core that has a logical index is powered while the device is ON, with its cluster (R304). -/
def powerCore (q : Nat) (s : State) : State :=
  if devState s = 0 && !(fenced (pgCl (q / 5)) s) then restoreDomain q (if powered (pgCl (q / 5)) s then s else restoreDomain (80 + q / 5) s) else s

/-- A spare takes a fenced core's logical index: powered while the device is ON, with a new epoch (R14, R361 step 4). -/
def bindSpare (l q : Nat) (s : State) : State :=
  let s := setFld (pgSc q) 0 0x03C 17 1 0 (bumpEpoch (pgSc q) s)
  remap l q (powerCore q s)

/-- What a fence of core p makes of the map: its spare is bound, or its index stays unassigned (R361, R364). -/
def fenceMap (p : Nat) (withSpare : Bool) (s : State) : State :=
  match logicalOf p s with
  | none => s
  | some l =>
    match (if withSpare then clusterSpare (p / 5) s else none) with
    | some q => bindSpare l q s
    | none => remap l 0x7F s

/-! ## Fencing (R361 to R364) -/

/-- The unit's isolation, epoch and FENCED bit (R361 steps 1, 2 and 5). CPU cores have no page of their own: Basin keeps
their epoch. -/
def isolate (d : Nat) (s : State) : State :=
  let s := setFld pgBsn 0 (0x150 + 4 * (d / 32)) (d % 32) 1 1 s
  match domainPages d with
  | [] => { s with bsn := { s.bsn with epoch := tabSet d ((tabGet 0 d s.bsn.epoch + 1) % 65536) s.bsn.epoch } }
  | pgs => pgs.foldl (fun s pg =>
      setFld pg 0 0x00C 1 1 1 (setFld pg 0 0x03C 16 1 1 (setFld pg 0 0x03C 17 1 0 (bumpEpoch pg s)))) s

/-- The jobs with work in a domain: resident blocks, tiles and ME operations, and passes whose tile owner it is (R363). -/
def unitJobs (d : Nat) (s : State) : List Nat :=
  let cores := if d < 80 then [d] else if d < 96 then (List.range 5).map (fun i => 5 * (d - 80) + i) else []
  ((cores.map (fun p => coreJobs p s)).flatten ++
    (s.tlr.passes.filter (fun e => e.2.owners.any (fun p => cores.contains p))).map (·.1)).eraseDups

/-- The fence of one core: its jobs have ended already. -/
def fenceCore (withSpare : Bool) (s : State) (p : Nat) : State :=
  if domFenced p s then s
  else fenceMap p withSpare (gateDomain p (isolate p (coreGone p s)))

/-- A hart's core is stopped: its cache contents are lost. -/
def stopHart (h : Nat) (s : State) : State :=
  setFld pgHcx 0 0x104 h 1 0 (setFld pgHcx 0 0x104 (8 + h) 1 0 s)

/-- Cooperative kernels without a block placed that no longer fit the enabled cores end with COOP_FIT (R105, R364). -/
def coopRecheck (s : State) : State :=
  (s.cpt.kernels.filter (fun e => e.2.coop && e.2.next == 0)).foldl (fun s e =>
    if !(jobEnded e.1 s) && coopRoom e.2 s < kernelBlocks e.2 then launchFail e.1 0x000C s else s) s

/-- A unit is fenced for a source (R361, R363): its jobs end with UNIT_FENCED unless the fault has ended them. -/
def fenceUnit (src : Nat) (s : State) (d : Nat) : State :=
  if domFenced d s then s
  else
    let s := (unitJobs d s).foldl (fun s j => faultDevice j 0x0019 (srcGroup src) s) s
    let s :=
      if d < 80 then fenceCore true s d
      else if d < 96 then
        let s := ((List.range 5).map (fun i => 5 * (d - 80) + i)).foldl (fenceCore false) s
        gateDomain d (isolate d s)
      else if 116 ≤ d then gateDomain d (isolate d (portConsequences (portFall (d - 116) s)))
      else gateDomain d (isolate d (stopHart (d - 96) s))
    fenceAccepts d (coopRecheck s)

/-! ## STOP_FUNC (R360) -/

/-- The slots of the jobs that `f` selects. -/
def jobSlots (f : Nat × Job → Bool) (s : State) : List Nat := (s.fe.jobs.filter f).map (fun e => ownSlot e.2.owner s)

/-- The slots that have work in a source's unit; none where no job can be identified with it. -/
def unitSlots (i : Nat) (s : State) : List Nat :=
  match srcUnit i with
  | some d => let js := unitJobs d s; jobSlots (fun e => js.contains e.1) s
  | none =>
    if i = 276 then jobSlots (fun _ => true) s
    else if i = 277 then s.tlr.passes.map (fun p => p.2.slot)
    else if i = 278 then ((List.range 16).filter (fun c => chEnabled c s)).map (fun c => chSlot c s)
    else if i = 279 ∨ i = 280 then
      jobSlots (fun e => s.cz.ctx.any (fun x => x.1 / 4 == i - 279 && x.2 == .job e.1)) s
    else if i = 281 then s.dma.chans.map (fun c => c.2.slot)
    else if i = 282 then s.lvn.batches.map (fun b => b.2.slot)
    else []

/-- Every function with work in a source's unit is disabled. -/
def stopFuncs (srcs : List Nat) (s : State) : State :=
  let slots := (srcs.map (fun i => unitSlots i s)).flatten
  ((slots.map (fun k => (slotOf k s).func)).eraseDups).foldl (fun s f => functionDisable f s) s

/-! ## STOP_DEVICE (R360, R366) -/

/-- The stop record without its CRC: bytes 0x00 to 0x07, and 0x0C to 0x3F. -/
def stopHead (i : Nat) (s : State) : List Byte := toLE 4 (i + srcGroup i * 2 ^ 16) ++ toLE 4 (aonMs s).toNat
def stopTail (s : State) : List Byte :=
  ((List.range 9).map (fun w => toLE 4 (srcSticky w s).toNat)).flatten ++
  ((List.range 4).map (fun w => toLE 4 (getReg pgBsn 0 (0x150 + 4 * w) s).toNat)).flatten

/-- The stop record is written, and the reset follows once no ERR_N pulse runs (R366). -/
def stopDevice (i : Nat) (s : State) : State :=
  let rec0 := stopHead i s
  let rec1 := stopTail s
  let s := aonPut 0x1FFC0 (rec0 ++ toLE 4 (crc32c (rec0 ++ rec1)).toNat ++ rec1)
    { s with bsn := { s.bsn with stop := true } }
  if pulsing s then s else deviceReset .basin s

/-! ## Events (R357, R358, R360) -/

/-- The pages whose protected storage the model does not hold word by word: FE, TLR, CMP, CZ, MMU, DMA, HCX. -/
def wholePage (pg : Nat) : Bool := [pgFe, pgTlr, pgCmp, pgCz 0, pgCz 1, pgMmu, pgHcx].contains pg || (129 ≤ pg && pg < 133)

/-- An injection that the source's event brings to light: FLT_INJ of the page, armed in MODE 2 or 3 for the bit; where the page's
words are not held, also one of two check bits, which a read of the word has met (R369; log 85). -/
def injectTaken (pg b : Nat) (s : State) : State :=
  let v := getReg pg 0 0x028 s
  if bit v 16 && (2 ≤ fld v 8 2 || (fld v 8 2 == 1 && wholePage pg)) && fld v 0 5 == b then setReg pg 0 0x028 (putFld (putFld v 16 1 0) 17 1 1) s else s

/-- An event of a source reaches Basin: one that another step has raised, or one that arises now at the source's own bit (the header of a
page is accessible whatever the state of its domain, R444). Answers whether it is to be classified. -/
def takeEvent (i : Nat) (s : State) : State × Bool :=
  if s.bsn.inbox.contains i then ({ s with bsn := { s.bsn with inbox := s.bsn.inbox.erase i } }, true)
  else
    let (pg, b) := srcHome i
    let s := faultAt i pg b (injectTaken pg b s)
    if s.bsn.inbox.contains i then ({ s with bsn := { s.bsn with inbox := s.bsn.inbox.erase i } }, true) else (s, false)

/-- An event of one source: counted, masked or classified; the sources that entered SEVERE so far in this cycle. -/
def oneEvent (a : State × List Nat) (i : Nat) : State × List Nat :=
  let (s, go) := takeEvent i a.1
  if !go then (s, a.2)
  else
    let (s, severe) := classify i s
    if severe then (s, a.2 ++ [i]) else (s, a.2)

/-- The reactions of the sources that entered SEVERE in one cycle: the strongest of them, for the sources that chose it
(R360). -/
def reactAll (srcs : List Nat) (s : State) : State :=
  let top := srcs.foldl (fun m i => max m (srcReact i s)) 0
  let chosen := srcs.filter (fun i => srcReact i s == top)
  if top = 3 then stopDevice (nth 0 chosen 0) s
  else if top = 2 then stopFuncs chosen s
  else if top = 1 then
    chosen.foldl (fun s i => match srcUnit i with | some d => fenceUnit i s d | none => s) s
  else s

/-- The captures, the interrupt and the pulse of entries into SEVERE (R360, R368, Table 16-6). -/
def severeEntry (srcs : List Nat) (s : State) : State :=
  let lo := srcs.foldl min 287
  let s := setReg pgBsn 0 0x140 (w32 (lo + srcGroup lo * 2 ^ 16 + 2 ^ 31)) (setReg pgBsn 0 0x144 (aonMs s) s)
  let s := if srcs.any (fun i => bit (getReg pgBsn i 0x104 s) 10) then raiseIrq pgBsn 0 s else s
  let s := if srcs.any (fun i => bit (getReg pgBsn i 0x104 s) 11) then errnPulse s else s
  let s := { s with bsn := { s.bsn with attn := true } }
  if s.bsn.attnEn.getLsbD 1 then emit .sdioIrq s else s

/-- BASIN_SOURCE_EVENT: the events of one Basin cycle. -/
def basinEvents (srcs : List Nat) (s : State) : State :=
  if !(aonUp s) || s.rst.held || s.bsn.stop then s
  else
    let r := srcs.eraseDups.foldl oneEvent (s, [])
    if r.2 = [] then r.1 else reactAll r.2 (severeEntry r.2 r.1)

/-! ## Stale epochs (R362) -/

/-- STALE_EPOCH_DROP: traffic with an epoch other than the sender's current one, or from a fenced sender. -/
def staleDrop (pg epoch : Nat) (s : State) : State :=
  if !(fenced pg s) && getFld pg 0 0x03C 0 16 s == epoch then s else fault 284 (count32 pgBsn 0 0x13C s)

/-! ## Re-admit (R365) -/

/-- The cores of a cluster's domain. -/
def domainCores (d : Nat) : List Nat := if 80 ≤ d ∧ d < 96 then (List.range 5).map (fun i => 5 * (d - 80) + i) else []

/-- A write of READMIT: DOMAIN; GO, unless a re-admit runs, refuses a unit that is not fenced or starts with the domain
reset; a cluster takes its cores with it. -/
def readmitWrite (v : Word) (s : State) : State :=
  let s := setFld pgBsn 0 0x14C 0 7 (fld v 0 7) s
  let d := fld v 0 7
  if !(bit v 31) || s.bsn.readmit.isSome then s
  else if !(domFenced d s) then setFld pgBsn 0 0x14C 28 2 3 s
  else
    let s := (d :: domainCores d).foldl (fun s d => domainReset d s) s
    setFld pgBsn 0 0x14C 31 1 1 (setFld pgBsn 0 0x14C 28 2 0 { s with bsn := { s.bsn with readmit := some d } })

/-- A unit returns: a new epoch, not fenced, not isolated. -/
def unfence (s : State) (d : Nat) : State :=
  let s := setFld pgBsn 0 (0x150 + 4 * (d / 32)) (d % 32) 1 0 s
  match domainPages d with
  | [] => { s with bsn := { s.bsn with epoch := tabSet d ((tabGet 0 d s.bsn.epoch + 1) % 65536) s.bsn.epoch } }
  | pgs => pgs.foldl (fun s pg => setFld pg 0 0x00C 1 1 0 (setFld pg 0 0x03C 16 1 0 (bumpEpoch pg s))) s

/-- The lowest unassigned logical index of a cluster: those whose fused core lies in it. -/
def freeIndex (c : Nat) (s : State) : Option Nat :=
  (List.range 64).find? (fun l => physOf l s == 0x7F && fusedPhys l / 5 == c)

/-- A core back in service: it takes the lowest unassigned index of its cluster, or is the unbound spare. -/
def coreRole (p : Nat) (s : State) : State :=
  match freeIndex (p / 5) s with
  | some l => remap l p (powerCore p s)
  | none => setFld (pgSc p) 0 0x03C 17 1 1 s

/-- A cluster's cores in their fused roles: those with an index powered, the spare gated. -/
def clusterRoles (c : Nat) (s : State) : State :=
  let ls := (List.range 64).filter (fun l => fusedPhys l / 5 == c)
  let s' := ls.foldl (fun s l => setPhys l (fusedPhys l) s) s
  let s' := ((List.range 5).map (fun i => 5 * c + i)).foldl (fun s p =>
    let mapped := (List.range 64).any (fun l => fusedPhys l == p)
    let s := setFld (pgSc p) 0 0x03C 17 1 (b2n (!mapped)) s
    if mapped then powerCore p s else s) s'
  if ls.any (fun l => physOf l s != fusedPhys l) then
    wrap32 pgCap 0 0x104 (setFld pgCap 0 0x100 8 7 ((List.range 64).filter (fun k => physOf k s' != 0x7F)).length s')
  else s'

/-- A port or a CPU core returns to service, unless the device sleeps: its domain is powered; a hart whose RUN bit is set starts
again. -/
def serviceBack (d : Nat) (s : State) : State :=
  if 2 ≤ devState s then s
  else if 116 ≤ d then restoreDomain d s
  else if d < 104 then setFld pgHcx 0 0x104 (d - 96) 1 (getFld pgHcx 0 0x100 (d - 96) 1 s) (ungateDomain d s)
  else s

/-- READMIT_DONE. -/
def readmitEnd (pass : Bool) (s : State) : State :=
  match s.bsn.readmit with
  | none => s
  | some d =>
    let s := setFld pgBsn 0 0x14C 31 1 0 { s with bsn := { s.bsn with readmit := none } }
    if !pass then setFld pgBsn 0 0x14C 28 2 2 s
    else
      let s := setFld pgBsn 0 0x14C 28 2 1 ((d :: domainCores d).foldl unfence s)
      if d < 80 then coreRole d s
      else if d < 96 then clusterRoles (d - 80) s
      else serviceBack d s

/-! ## Meanings -/

/-- BASIN_SOURCE_EVENT (R358). -/
def execBasinSourceEvent (srcs : List (Fin 288)) (s : State) : Out := toNext (basinEvents (srcs.map (·.val)) s)

/-- BASIN_WINDOW_EXPIRY (R358). -/
def execBasinWindowExpiry (src : Fin 288) (s : State) : Out := toNext (windowEnd src.val s)

/-- BASIN_QUIET_EXPIRY (R358). -/
def execBasinQuietExpiry (src : Fin 288) (s : State) : Out := toNext (quietEnd src.val s)

/-- SOURCE_CLEAR (R358): a write of SRC_STS with CLR = 1. -/
def execSourceClear (r : Requester) (v : Word) (s : State) : Out :=
  toNext (if bit v 15 then blockWrite r pgBsn 0x110 (srcStsWrite v) s else s)

/-- STALE_EPOCH_DROP (R362). -/
def execStaleEpochDrop (sender : Fin 146) (epoch : BitVec 16) (s : State) : Out :=
  toNext (staleDrop sender.val epoch.toNat s)

/-- READMIT (R365): a write of READMIT with GO = 1. -/
def execReadmit (r : Requester) (v : Word) (s : State) : Out :=
  toNext (if bit v 31 then blockWrite r pgBsn 0x14C (readmitWrite v) s else s)

/-- READMIT_DONE (R365). -/
def execReadmitDone (pass : Bool) (s : State) : Out := toNext (readmitEnd pass s)

/-- ERRN_PULSE_END (R368). -/
def execErrnPulseEnd (s : State) : Out := toNext (errnEnd s)

/-- FLT_INJ_ARM (R369): a write of a page's FLT_INJ with ARM = 1. -/
def execFltInjArm (r : Requester) (page : Fin 146) (v : Word) (s : State) : Out :=
  toNext (if bit v 16 then blockWrite r page.val 0x028 (writeByType page.val 0 0x028 v) s else s)

end Sys2Proof.Machine
end

