-- ==== Sys2Proof/Machine/Pcie.lean ====
section
/-!
DEFINITION. The PCIe controller and the CPU complex: the pins and the link (R345, R350, R402), functions (R400, R401,
R404), BAR2 (R397), the M9's own host reads (R399, R405), the root port (R408), the harts (R409), and the SDIO wake write
(R410).
-/
namespace Sys2Proof.Machine

/-! ## PCIE_PERST_N, link loss (R350, R402) -/

/-- The PCIe domain's registers and logic at reset, apart from EPOCH and BLK_STS; the link is down. -/
def pcieReset (s : State) : State := pcieLogic (resetPage pgPci (fun off => off == 0x03C || off == 0x00C) s)

/-- Every function disabled (R206). -/
def disableAll (s : State) : State := (List.range 64).foldl (fun s f => functionDisable f s) s

/-- What PCIE_PERST_N without PERST_DEV, a hot reset and a link loss do: the PCIe domain reset, every function disabled. -/
def pcieDown (s : State) : State := disableAll (pcieReset s)

/-- PCIE_PERST, in any device state: while a reset holds the device, the pin changes and nothing else does. -/
def perst (s : State) : State :=
  if selfHosted s || !s.pins.perstN then s
  else
    let s := { s with pins := { s.pins with perstN := false } }
    if s.rst.held then s
    else if bit (getReg pgRst 0 0x120 s) 1 then deviceReset .perst { s with rst := { s.rst with perst := true } }
    else setBlkSts (pageDomain pgPci) 2 1 (pcieDown s)

/-- PCIE_PERST_N_DEASSERT: the reset that the pin held is released, and the edge is a wake source (R340, R350). -/
def perstRelease (s : State) : State := wakeEvent .perst s

/-- LINK_DOWN: a hot reset or a link-down event in hosted mode. -/
def linkLoss (s : State) : State := if linkUp s then pcieDown s else s

/-- The root port's link is up. -/
def rootUp (s : State) : Bool := selfHosted s && getFld pgPci 0 0x100 1 3 s != 0 && !(dark pgPci s)

/-- A speed, a width and a mode that a link can have (R393). -/
def linkShape (speed width : Nat) (flit : Bool) : Bool :=
  1 ≤ speed && speed ≤ 6 && [1, 2, 4, 8, 16].contains width && (speed != 6 || flit)

/-- PCIE_LINK_UP: training can complete from boot event 6 on, or in recovery (R345, R346). -/
def linkTrained (speed width : Nat) (flit : Bool) (s : State) : State :=
  let may := if selfHosted s then bit (getReg pgPci 0 0x108 s) 31 else s.pins.perstN
  if s.rst.held || dark pgPci s || stage s < 3 || !may || !(linkShape speed width flit) then s
  else
    setReg pgPci 0 0x100 (w32 (b2n (selfHosted s) + speed * 2 + width * 2 ^ 4 + b2n flit * 2 ^ 9))
      { s with pins := { s.pins with wakeN := true } }

/-! ## Functions (R400, R401, R404) -/

/-- VF_ENABLE: NumVFs written while VF Enable is 0, a value above 63 ignored, then VF Enable set. -/
def vfEnable (n : Nat) (s : State) : State :=
  if !(linkUp s) || s.pci.vfEnable then s
  else { s with pci := { s.pci with vfEnable := true, numVfs := if 63 < n then s.pci.numVfs else n } }

/-- Every VF disabled. -/
def disableVfs (s : State) : State := ((List.range 63).map (· + 1)).foldl (fun s f => functionDisable f s) s

/-- VF_ENABLE_CLEAR. -/
def vfClear (s : State) : State :=
  if !(linkUp s) || !s.pci.vfEnable then s
  else disableVfs { s with pci := { s.pci with vfEnable := false, d3 := s.pci.d3.filter (fun e => e.1 == 0) } }

/-- FLR: of a VF, of the PF with every function and the configuration space. -/
def flr (f : Nat) (s : State) : State :=
  if !(linkUp s) || !(fnOn f s) then s
  else
    let s := { s with pci := { s.pci with inFlr := tabSet f true s.pci.inFlr } }
    if f = 0 then
      disableAll { s with pci := { s.pci with vfEnable := false, numVfs := 0, d3 := [], pmeEn := false, aer := [] } }
    else functionDisable f s

/-- D3HOT_ENTRY and D3HOT_EXIT. -/
def d3Set (f : Nat) (on : Bool) (s : State) : State :=
  if !(linkUp s) || !(fnOn f s) then s
  else { s with pci := { s.pci with d3 := if on then tabSet f true s.pci.d3 else tabDel f s.pci.d3 } }

/-! ## BAR2 (R397) -/

/-- Bytes of BAR2: 128 GiB after reset (R396). -/
abbrev bar2Size : Nat := 2 ^ 37

/-- The bytes of `[a, a + n)` below the capacity. -/
def belowCap (a n : Nat) (s : State) : Nat := min n (hbmCap s - a)

/-- A BAR2 access of `n` bytes at an HBM address: bytes at or above the capacity read 0 and are not written; the access is
counted. -/
def bar2Hbm (a : Nat) (n : Nat) (wdata : Option (List Byte)) (s : State) : State :=
  let k := belowCap a n s
  let s := if k = n then s else count32 pgPci 0 0x110 s
  match wdata with
  | some bs => hbmPut a (bs.take k) s
  | none =>
    match hbmRead a k s with
    | (some b, s) => emit (.cplData (b ++ List.replicate (n - k) 0) false) s
    | (none, s) => emit (.cplData [] true) s

/-- BAR2_ACCESS. -/
def bar2 (off len : Nat) (wdata : Option (List Byte)) (s : State) : State :=
  let n := match wdata with | some bs => bs.length | none => len
  if !(linkUp s) then s
  else if !(fnServed 0 s) || bar2Size < off + n then
    let s := aerLog 0 4 s
    if wdata.isNone then emit .unsupported s else s
  else bar2Hbm (off + getFld pgPci 0 0x104 0 9 s * 2 ^ 28) n wdata s

/-! ## The M9's host reads (R399, R405) -/

/-- A read's tag is free again; the channels whose reads wait for a tag look on. -/
def hostTagFree (tag : Nat) (s : State) : State :=
  let s := atsSettle { s with pci := { s.pci with reads := tabDel tag s.pci.reads } }
  s.dma.chans.foldl (fun s e =>
    match chanOf e.1 s with
    | some x =>
      match x.xfer with
      | .copy _ _ len => if x.st = .running && !(chanReading e.1 s) && !x.busErr then chanLook e.1 (len / 4096 + 3) x s else s
      | _ => s
    | none => s) s

/-- A host byte as a thread sees it: its core's buffered value, if the write buffer holds one (R122). -/
def hostOverlay (p slot : Nat) (a : Nat) (b : Byte) (s : State) : Byte :=
  match (coreOf p s).wb.find? (fun e => e.host.isSome && e.slot == slot && e.pa ≤ a && a < e.pa + 64) with
  | some e => (tabFind (a - e.pa) e.bytes).getD b
  | none => b

/-- The data of a thread's load into its registers: the read's bytes replace those from `off` on (R121). -/
def threadData (p g t dst width off : Nat) (r : HostRd) (data : List Byte) (s : State) : State :=
  match groupOf p g s with
  | none => s
  | some x =>
    let slot := groupSlot x s
    let bs := (data.zipIdx).map (fun b => hostOverlay p slot (r.addr + b.2) b.1 s)
    let old := toLE width (regVal x t (BitVec.ofNat 8 dst) (if width = 8 then 2 else 1))
    let y := regLoad t (BitVec.ofNat 8 dst) width (leNat (old.take off ++ bs ++ old.drop (off + bs.length))) (x, s)
    dataCheck p g (setGroup p g y.1 y.2)

/-- A read ends with a bus error, which its requester takes as that of an uncorrectable read (Table 5-4). -/
def hostBusError (r : HostRd) (s : State) : State :=
  match r.waiter with
  | .thread p g _ _ _ _ =>
    match groupOf p g s with
    | some x => faultAccess p x.job r.va .rd .bus s
    | none => s
  | .chan c =>
    match chanOf c s with
    | some x => setChan c { x with busErr := true, va := r.va } s
    | none => s

/-- HOST_READ_COMPLETION: the data of the outstanding read with the tag, or a poisoned completion. -/
def hostCompletion (tag : Nat) (poisoned : Bool) (data : List Byte) (s : State) : State :=
  match tabFind tag s.pci.reads with
  | none => s
  | some r =>
    if poisoned then hostTagFree tag (hostBusError r (aerLog r.attr.fn 1 (count32 pgPci 0 0x11C s)))
    else if data.length ≠ r.len then s
    else
      let s := hostPut r.addr data { s with pci := { s.pci with reads := tabDel tag s.pci.reads } }
      let s := match r.waiter with
        | .thread p g t dst w off => threadData p g t dst w off r data s
        | .chan c =>
          match chanOf c s with
          | some x => setChan c { x with fetched := x.fetched + r.len } s
          | none => s
      hostTagFree tag s

/-- COMPLETION_TIMEOUT. -/
def completionTimeout (tag : Nat) (s : State) : State :=
  match tabFind tag s.pci.reads with
  | none => s
  | some r => hostTagFree tag (hostBusError r (aerLog r.attr.fn 3 (count32 pgPci 0 0x118 s)))

/-! ## The root port (R408) -/

/-- An address within 0x20_0800_0000 to 0x20_0900_7FFF: the interrupt files. -/
def isImsic (a : Nat) : Bool := 0x2008000000 ≤ a && a ≤ 0x2009007FFF

/-- An address of the register space (Table 16-5). -/
def isRegSpace (a : Nat) : Bool := 0x2000000000 ≤ a && a ≤ 0x2001FFFFFF

/-- An Unsupported Request completion of the root port. -/
def rootUr (s : State) : State := emit .unsupported (aerLog 0 4 s)

/-- A request ends by a failed translation: counted; nothing is posted. -/
def rootFail (read : Bool) (s : State) : State :=
  let s := count32 pgPci 0 0x114 s
  if read then emit .completerAbort s else s

/-- ROOT_PORT_INBOUND_REQUEST. -/
def rootRequest (q : InboundReq) (s : State) : State :=
  let slot := getFld pgPci 0 0x108 0 6 s
  if !(rootUp s) then s
  else
    match q with
    | .translation _ => rootUr s
    | .read a n =>
      if isImsic a then emit (.cplData (List.replicate n 0) false) s
      else if isRegSpace a then rootUr s
      else
        match vaReadAll rqRoot slot a n .rd s with
        | (.ok bs, s) => emit (.cplData bs false) s
        | (.error (.bus, _), s) => emit (.cplData [] true) s
        | (.error (.xl _ _, _), s) => rootFail true s
    | .write a bs =>
      if isImsic a then emit (.imsic a bs) s
      else if isRegSpace a then aerLog 0 4 s
      else
        match vaWriteAll rqRoot slot a bs s with
        | (.ok _, s) => s
        | (.error _, s) => rootFail false s

/-! ## Harts (R409) -/

/-- The harts that HART_CTL releases and that are not fenced. -/
def hartsRun (s : State) : Nat :=
  (List.range 8).foldl (fun m h =>
    if bit (getReg pgHcx 0 0x100 s) h && !(domFenced (96 + h) s) then m + 2 ^ h else m) 0

/-- The first use of a CPU domain that a domain reset has left gated, or of the L3, switches it on (R349). -/
def hartPower (run : Nat) (s : State) : State :=
  let on := fun (s : State) d => if domainPowered d s || domFenced d s then s else ungateDomain d s
  if run = 0 then s else (((List.range 8).filter (fun h => run / 2 ^ h % 2 == 1)).map (· + 96) ++ [104]).foldl on s

/-- A write of HART_CTL: a set bit releases its hart at BOOT_VEC, a cleared one holds it in reset, where it is not in
WFI. -/
def hartCtlWrite (v : Word) (s : State) : State :=
  let s := writeByType pgHcx 0 0x100 v s
  let run := hartsRun s
  setReg pgHcx 0 0x104 (w32 (run + (getFld pgHcx 0 0x104 8 8 s &&& run) * 2 ^ 8)) (hartPower run s)

/-! ## Meanings -/

/-- PCIE_PERST (R350). -/
def execPciePerst (s : State) : Out := toNext (perst s)

/-- PCIE_PERST_N_DEASSERT (R350). -/
def execPciePerstNDeassert (s : State) : Out := toNext (perstRelease s)

/-- LINK_DOWN (R402). -/
def execLinkDown (s : State) : Out := toNext (linkLoss s)

/-- PCIE_LINK_UP (R345). -/
def execPcieLinkUp (speed : BitVec 3) (width : BitVec 5) (flit : Bool) (s : State) : Out :=
  toNext (linkTrained speed.toNat width.toNat flit s)

/-- VF_ENABLE (R400). -/
def execVfEnable (n : Nat) (s : State) : Out := toNext (vfEnable n s)

/-- VF_ENABLE_CLEAR (R400). -/
def execVfEnableClear (s : State) : Out := toNext (vfClear s)

/-- FLR (R401). -/
def execFlr (f : Fin 64) (s : State) : Out := toNext (flr f.val s)

/-- D3HOT_ENTRY (R404). -/
def execD3hotEntry (f : Fin 64) (s : State) : Out := toNext (d3Set f.val true s)

/-- D3HOT_EXIT (R404). -/
def execD3hotExit (f : Fin 64) (s : State) : Out := toNext (d3Set f.val false s)

/-- BAR2_ACCESS (R397). -/
def execBar2Access (off len : Nat) (wdata : Option (List Byte)) (s : State) : Out := toNext (bar2 off len wdata s)

/-- HOST_READ_COMPLETION (R399). -/
def execHostReadCompletion (tag : Nat) (poisoned : Bool) (data : List Byte) (s : State) : Out :=
  toNext (hostCompletion tag poisoned data s)

/-- COMPLETION_TIMEOUT (R399). -/
def execCompletionTimeout (tag : Nat) (s : State) : Out := toNext (completionTimeout tag s)

/-- ROOT_PORT_INBOUND_REQUEST (R408). -/
def execRootPortInboundRequest (q : InboundReq) (s : State) : Out := toNext (rootRequest q s)

/-- HART_RUN (R409): a write of HART_CTL. -/
def execHartRun (r : Requester) (v : Word) (s : State) : Out := toNext (blockWrite r pgHcx 0x100 (hartCtlWrite v) s)

/-- SDIO_WAKE_WRITE (R410): any value written to CCCR 0xF2. -/
def execSdioWakeWrite (_v : Byte) (s : State) : Out := toNext (wakeEvent .sdio s)

end Sys2Proof.Machine
end

