-- ==== Sys2Proof/Machine/Security.lean ====
section
/-!
DEFINITION. The security engine: image verification, the security version, measurements, leaf reservation, attestation
reports and the debug lock (R373 to R391).
-/
namespace Sys2Proof.Machine

/-- The security engine as a requester of the MMU (R385). -/
abbrev rqSec : Nat := 93

/-! ## Fuses (R373, R376) -/

/-- SVN_FUSED: what was fused at manufacture, and what SVN_ADV has blown since. -/
def svnFused (s : State) : Nat := max (fld (resetVal pgSec 0 0x104) 8 7) s.sec.svn

/-- Lifecycle (Table 15-1). -/
def lifecycle (s : State) : Nat := getFld pgSec 0 0x100 0 2 s

/-- A root slot is revoked. -/
def revoked (k : Nat) : Bool := bit (resetVal pgSec 0 0x104) k

/-! ## The image (R374, R375) -/

/-- A little-endian field of a byte string. -/
def leAt (m : List Byte) (o n : Nat) : Nat := leNat ((m.drop o).take n)

/-- FW_VER, SVN, ROOT_SLOT, SEG_COUNT, IMAGE_LEN and LOCK_EXEMPT of a manifest. -/
def manVer (m : List Byte) : Word := w32 (leAt m 0x008 4)
def manSvn (m : List Byte) : Nat := leAt m 0x00C 4 % 128
def manRoot (m : List Byte) : Nat := leAt m 0x00C 4 / 256 % 4
def manSegs (m : List Byte) : Nat := leAt m 0x006 2
def manLen (m : List Byte) : Nat := leAt m 0x010 4
def manExempt (m : List Byte) : Nat := leAt m 0x014 4 % 32

/-- FLASH_OFF, LEN, TARGET and HASH of a segment. -/
def segOff (m : List Byte) (k : Nat) : Nat := leAt m (0x100 + 64 * k) 4
def segLen (m : List Byte) (k : Nat) : Nat := leAt m (0x104 + 64 * k) 4
def segTarget (m : List Byte) (k : Nat) : Nat := leAt m (0x108 + 64 * k) 8
def segHash (m : List Byte) (k : Nat) : List Byte := (m.drop (0x120 + 64 * k)).take 32

/-- The reserved fields of a manifest are 0 (Table 15-2). -/
def manReserved (m : List Byte) : Bool :=
  let n := manSegs m
  leAt m 0x00C 4 / 128 % 2 == 0 && leAt m 0x00C 4 / 1024 == 0 && leAt m 0x014 4 / 32 == 0 &&
  ((m.drop 0x05C).take 0xA4).all (· == 0) && ((m.drop 0x500).take 0x300).all (· == 0) &&
  (List.range 16).all (fun k =>
    if k < n then ((m.drop (0x110 + 64 * k)).take 16).all (· == 0) else ((m.drop (0x100 + 64 * k)).take 64).all (· == 0))

/-- The bounds of a manifest's segments (Table 15-2). -/
def segBounds (m : List Byte) : Bool :=
  let ks := List.range (manSegs m)
  ks.all (fun k => segOff m k % 4096 == 0 && 0x2000 ≤ segOff m k && segOff m k + segLen m k ≤ manLen m &&
    segTarget m k % 65536 == 0) &&
  ks.any (fun k => segOff m k + segLen m k == manLen m) &&
  segLen m 0 ≤ 96 * 1024 && segTarget m 0 == 0

/-- The format checks of R375. -/
def manFormat (m : List Byte) : Bool :=
  leAt m 0 4 == 0x4D394D46 && leAt m 4 2 == 1 && manReserved m && 1 ≤ manSegs m && manSegs m ≤ 16 &&
  manLen m ≤ 0x1000000 && segBounds m

/-- The code of the first failing check of R375, or 0; `rd` reads the image. -/
def verifyImage (rd : Nat → Nat → List Byte) (s : State) : Nat :=
  let m := rd 0 2048
  let key := (m.drop 0x018).take 68
  if !(manFormat m) then 1
  else if revoked (manRoot m) then 2
  else if Config.shake256 key ≠ Config.rootHash (manRoot m) then 3
  else if !(Config.xmssVerify key m (rd 0x800 2820)) then 4
  else if manSvn m < svnFused s then 5
  else if Config.shake256 (rd (segOff m 0) (segLen m 0)) ≠ segHash m 0 then 6
  else 0

/-- The segments above 0 whose bytes do not match their HASH (R375). -/
def badSegs (rd : Nat → Nat → List Byte) (m : List Byte) : List Nat :=
  (List.range (manSegs m)).filter (fun k =>
    k != 0 && Config.shake256 (rd (segOff m k) (segLen m k)) != segHash m k)

/-- BOOT_ERR.CODE set, with its condition (R375, Table 18-3). -/
def bootError (code : Nat) (s : State) : State := raiseIrq pgSec 0 (setFld pgSec 0 0x10C 0 4 code s)

/-! ## SVN_ADV (R376) -/

/-- A write of SVN_ADV. -/
def svnAdvWrite (r : Requester) (v : Word) (s : State) : State :=
  let n := fld v 0 7
  if r = .yns ∧ svnFused s < n ∧ n ≤ manSvn s.sec.manifest then { s with sec := { s.sec with svn := n } }
  else setFld pgSec 0 0x100 6 1 1 s

/-! ## Measurements (R377) -/

/-- The 32 bytes of a slot. -/
def measSlot (k : Nat) (s : State) : List Byte :=
  ((List.range 8).map (fun i => toLE 4 (getReg pgSec k (0x150 + 4 * i) s).toNat)).flatten

/-- A slot extended with data D: SHAKE256(M ∥ D). -/
def measExtend (k : Nat) (d : List Byte) (s : State) : State :=
  let h := Config.shake256 (measSlot k s ++ d)
  (List.range 8).foldl (fun s i => setReg pgSec k (0x150 + 4 * i) (w32 (leNat ((h.drop (4 * i)).take 4))) s) s

/-- The writers that R377 names for a slot: firmware for 3 to 5, the PF or the CPU complex for 6 and 7. -/
def mayExtend (r : Requester) (k : Nat) : Bool :=
  match r with
  | .yns => 3 ≤ k && k < 6
  | .pf => 6 ≤ k
  | .hart _ => 6 ≤ k
  | _ => false

/-- MEAS_DATA as 32 bytes. -/
def measData (s : State) : List Byte :=
  ((List.range 8).map (fun i => toLE 4 (getReg pgSec 0 (0x130 + 4 * i) s).toNat)).flatten

/-- A write of MEAS_EXT. -/
def measExtWrite (r : Requester) (v : Word) (s : State) : State :=
  let s := if bit v 0 then setFld pgSec 0 0x12C 0 1 0 s else s
  let k := getFld pgSec 0 0x128 0 3 s
  if !(bit v 31) then s
  else if mayExtend r k then measExtend k (measData s) s
  else setFld pgSec 0 0x12C 0 1 1 s

/-! ## Leaves (R380 to R384) -/

/-- RES_NEXT and RES_END. -/
def resNext (s : State) : Nat := getPair pgSec 0 0x110 s
def resEnd (s : State) : Nat := getPair pgSec 0 0x118 s

/-- Signing is forbidden: no key, a lifecycle above PRODUCTION, RES_LOST or EXHAUSTED (R386, Table 15-1). -/
def signOff (s : State) : Bool :=
  let v := getReg pgSec 0 0x100 s
  bit v 3 || bit v 4 || bit v 5 || 2 ≤ lifecycle s

/-- The 16 bytes of a reservation record (Table 15-3). -/
def resRecord (e seq : Nat) : List Byte :=
  let b := toLE 8 e ++ toLE 4 seq
  b ++ toLE 4 (crc32c b).toNat

/-- The flash address of record `r` (R381). -/
def resAddr (r : Nat) : Nat := 0x1000000 + 16 * (r % 65536)

/-- The next reservation is queued, unless one is under way or it would pass 2^40 (R384). -/
def resQueue (s : State) : State :=
  let e := resEnd s + 256
  if s.sec.resPending.isSome || signOff s || 2 ^ 40 < e then s
  else
    let n := s.sec.resSeq + 1
    cstQueue .leaf [.prog (resAddr n) (resRecord e n)]
      { s with sec := { s.sec with resSeq := n, resPending := some e } }

/-- A record program of the region still waits in Cistern. -/
def leafWaits (s : State) : Bool :=
  s.cst.queue.any (fun u => match u with | (.prog _ _, .leaf) => true | _ => false)

/-- LEAF_RESERVATION_COMMIT: the record has been written and reads back as written; RES_END takes its END (R384). -/
def leafCommit (s : State) : State :=
  match s.sec.resPending with
  | none => s
  | some e =>
    if leafWaits s || flashBytes (resAddr s.sec.resSeq) 16 s != resRecord e s.sec.resSeq then s
    else setPair pgSec 0 0x118 e { s with sec := { s.sec with resPending := none } }

/-- The valid records of the region: END and SEQ. -/
def resRecords (s : State) : List (Nat × Nat) :=
  (List.range 65536).filterMap (fun r =>
    let b := flashBytes (resAddr r) 16 s
    if leAt b 12 4 = (crc32c (b.take 12)).toNat then some (leAt b 0 5, leAt b 8 4) else none)

/-- The reading of the region at boot (R383): RES_NEXT and RES_END, RES_SKIP, or RES_LOST. The END before the newest is the
next smaller one; where there is none, RES_SKIP is not stated. -/
def resBoot (s : State) : State :=
  let rs := resRecords s
  if rs = [] then
    if lifecycle s = 1 then fault 283 (raiseIrq pgSec 0 (setFld pgSec 0 0x100 4 1 1 s)) else s
  else
    let e := rs.foldl (fun m r => max m r.1) 0
    let seq := (rs.filter (fun r => r.1 == e)).foldl (fun m r => max m r.2) 0
    let below := (rs.filter (fun r => r.1 < e)).map (·.1)
    let (skip, s) := if below = [] then takeFree s else (e - below.foldl max 0, s)
    let s := setReg pgSec 0 0x120 (w32 skip) (setPair pgSec 0 0x110 e (setPair pgSec 0 0x118 e s))
    resQueue { s with sec := { s.sec with resSeq := seq } }

/-- A leaf taken (R380, R384): EXHAUSTED once the last leaf is used; the next reservation when fewer than 32 remain. -/
def takeLeaf (s : State) : Nat × State :=
  let n := resNext s
  let s := count32 pgSec 0 0x124 (setPair pgSec 0 0x110 (n + 1) s)
  let s := if n + 1 = 2 ^ 40 then setFld pgSec 0 0x100 5 1 1 s else s
  (n, if resEnd s - (n + 1) < 32 then resQueue s else s)

/-! ## Attestation (R385 to R388) -/

/-- The register block of an attestation block: the bank of its registers, and the function it acts for. -/
def attBank : AttBlock → Nat
  | .func f => f.val
  | .sec => 64
def attFn : AttBlock → Nat
  | .func f => f.val
  | .sec => 0

/-- CODE of a block. -/
def setCode (b code : Nat) (s : State) : State := setFld pgAtt b 0xC 0 3 code s

/-- Requests that wait, without the one that is being signed. -/
def attWaiting (s : State) : Nat := if signing s then s.sec.queue.length - 1 else s.sec.queue.length

/-- The codes that refuse a request; where several hold, which one is reported is not stated (R386). -/
def attRefuse (fn slot : Nat) (s : State) : List Nat :=
  (if 16 ≤ attWaiting s then [3] else []) ++ (if signOff s then [5] else []) ++
  (if (slotOf slot s).state = 1 ∧ (slotOf slot s).func = fn then [] else [6])

/-- ATT_CTL.GO (R385, R386). -/
def attGo (b fn : Nat) (s : State) : State :=
  if getFld pgAtt b 0xC 0 3 s = 1 then s
  else
    let v := getReg pgAtt b 0x8 s
    let slot := fld v 0 6
    let no := attRefuse fn slot s
    if no ≠ [] then
      let (f, s) := takeFree s
      setCode b (nth 3 no (f % no.length)) s
    else
      let a : AttReq := { block := b, slot := slot, fn := fn, addr := getPair pgAtt b 0x0 s, irq := bit v 6,
                          vec := fld v 16 11 }
      setCode b 1 { s with sec := { s.sec with queue := s.sec.queue ++ [a] } }

/-- A write of ATT_CTL of a block. -/
def attCtlWrite (b fn : Nat) (v : Word) (s : State) : State :=
  let s := writeByType pgAtt b 0x8 (v &&& 0x7FFFFFFF#32) s
  if bit v 31 then attGo b fn s else s

/-- LOCKED of a report: bit i is the LOCK of page i. -/
def lockedBytes (s : State) : List Byte :=
  toLE 32 ((List.range 146).foldl (fun n pg => if locked pg s then n + 2 ^ pg else n) 0)

/-- The first 512 bytes of a report (Table 15-4). Bytes 0x01C to 0x01F are in no field and are not stated. -/
def reportBody (fn slot leaf : Nat) (nonce user gap : List Byte) (s : State) : List Byte :=
  toLE 4 0x41540001 ++
  toLE 4 (fn + slot * 2 ^ 6 + b2n (selfHosted s) * 2 ^ 12 + lifecycle s * 2 ^ 13 + getFld pgSec 0 0x100 2 1 s * 2 ^ 15) ++
  toLE 4 (getReg pgYns 0 0x104 s).toNat ++
  toLE 4 (svnFused s + manSvn s.sec.manifest * 2 ^ 8 + manRoot s.sec.manifest * 2 ^ 16) ++
  toLE 8 leaf ++
  toLE 2 (getFld pgRst 0 0x128 16 16 s) ++ toLE 2 (getReg pgCap 0 0x104 s).toNat ++ gap ++
  (Config.shake256 Config.identityKey).take 32 ++ nonce ++ user ++ lockedBytes s ++
  ((List.range 8).map (fun k => measSlot k s)).flatten ++
  ((List.range 4).map (fun i => toLE 4 (getReg pgBsn 0 (0x150 + 4 * i) s).toNat)).flatten ++
  List.replicate 48 0

/-- A byte string of `n` bytes. -/
def fitBytes (n : Nat) (bs : List Byte) : List Byte := (bs ++ List.replicate n 0).take n

/-- A report signed with a leaf: 10,405 bytes. -/
def report (fn slot : Nat) (nonce user : List Byte) (s : State) : List Byte × State :=
  let (leaf, s) := takeLeaf s
  let (gap, s) := freeBytes 4 s
  let body := reportBody fn slot leaf nonce user gap s
  (body ++ fitBytes 9893 (Config.xmssMtSign leaf body), s)

/-- A request from a register block: the buffer's NONCE and USER_DATA are read, the report is signed and written; an access
that fails gives XLATE (R385, R386). -/
def attBuffer (a : AttReq) (s : State) : State :=
  match vaReadAll rqSec a.slot (a.addr + 0x40) 96 .rd s with
  | (.error _, s) => setCode a.block 4 s
  | (.ok d, s) =>
    let (rep, s) := report a.fn a.slot (d.take 32) (d.drop 32) s
    match vaWriteAll rqSec a.slot a.addr rep s with
    | (.error _, s) => setCode a.block 4 s
    | (.ok _, s) =>
      let s := setCode a.block 2 s
      if a.irq then sendMsix a.fn a.vec s else s

/-- Bytes written to a port's bulk window from its start. -/
def bulkPut (port off : Nat) (bs : List Byte) (s : State) : State :=
  { s with mbx := { s.mbx with bulk := memWrite zeroByte (port * 2 ^ 15 + off) bs s.mbx.bulk } }

/-- A request of a mailbox port: the report with FUNC and SLOT 0 stands in its bulk window (Table 16-9). -/
def attMailbox (a : AttReq) (s : State) : State :=
  let (rep, s) := report 0 0 (a.data.take 32) (a.data.drop 32) s
  let s := bulkPut (a.block - 65) 0 rep s
  { s with mbx := { s.mbx with pend := tabSet (a.block - 65) (.final 0x08 0 0) s.mbx.pend } }

/-- ATTEST_COMPLETE: the request at the head of the queue is signed, once a reserved leaf is there. -/
def attComplete (s : State) : State :=
  match s.sec.queue with
  | [] => s
  | a :: rest =>
    if dark pgSec s || resEnd s ≤ resNext s then s
    else
      let s := { s with sec := { s.sec with queue := rest } }
      if a.block < 65 then attBuffer a s else attMailbox a s

/-! ## Debug (R391) -/

/-- DBG_CHAL: the 32-byte challenge. -/
def challenge (s : State) : List Byte :=
  Config.shake256 (Config.debugMessage (getFld pgRst 0 0x128 16 16 s) (getFld pgSec 0 0x190 0 5 s) s.sec.attempts)

/-- A token is valid: its DEVICE_ID, its challenge, and its signature under a key of a root slot that is not revoked. -/
def tokenValid (t : List Byte) (s : State) : Bool :=
  Config.tokenField 0 t == Config.shake256 Config.identityKey && Config.tokenField 1 t == challenge s &&
  (List.range 4).any (fun k => !(revoked k) && Config.shake256 (Config.tokenField 3 t) == Config.rootHash k) &&
  Config.xmssVerify (Config.tokenField 3 t) (Config.tokenField 4 t) (Config.tokenField 5 t)

/-- A debug token is submitted: refused after 16 failures; a valid one is measured in slot 0 and opens its scopes, another
counts a try. -/
def debugToken (t : List Byte) (s : State) : State :=
  if dark pgSec s || 16 ≤ getFld pgSec 0 0x190 0 5 s then s
  else
    let ok := tokenValid t s
    let s := { s with sec := { s.sec with attempts := s.sec.attempts + 1 } }
    if ok then
      let s := setFld pgSec 0 0x100 2 1 1 (measExtend 0 (Config.shake256 t) s)
      setReg pgSec 0 0x194 (getReg pgSec 0 0x194 s ||| w32 (leNat ((Config.tokenField 2 t).take 4))) s
    else addFld pgSec 0 0x190 0 5 1 s

/-! ## Meanings -/

/-- SVN_ADVANCE (R376). -/
def execSvnAdvance (r : Requester) (v : Word) (s : State) : Out := toNext (blockWrite r pgSec 0x108 (svnAdvWrite r v) s)

/-- MEASUREMENT_EXTEND (R377): a write of MEAS_EXT with GO = 1. -/
def execMeasurementExtend (r : Requester) (v : Word) (s : State) : Out :=
  toNext (if bit v 31 then blockWrite r pgSec 0x12C (measExtWrite r v) s else s)

/-- ATTEST_REQUEST (R385): a write of an ATT_CTL with GO = 1. -/
def execAttestRequest (r : Requester) (b : AttBlock) (v : Word) (s : State) : Out :=
  toNext (if bit v 31 then
      (match b with
       | .func f => regionWrite r f.val (attCtlWrite f.val f.val v) s
       | .sec => blockWrite r pgSec 0x1C8 (attCtlWrite 64 0 v) s)
    else s)

/-- ATTEST_COMPLETE (R387). -/
def execAttestComplete (s : State) : Out := toNext (attComplete s)

/-- LEAF_RESERVATION_COMMIT (R384). -/
def execLeafReservationCommit (s : State) : Out := toNext (leafCommit s)

/-- JTAG_DEBUG_TOKEN (R391). -/
def execJtagDebugToken (token : List Byte) (s : State) : Out := toNext (debugToken token s)

end Sys2Proof.Machine
end

