-- ==== Sys2Proof/Machine/Shade.lean ====
section
/-!
DEFINITION. The tile phase: loading, coverage, tests, pixel groups, writeback, partial renders, and the preemption of passes
(R160, R238, R245 to R249, R257 to R260).
-/
namespace Sys2Proof.Machine

/-! ## Tile memory -/

/-- A sample's place in tile memory. -/
def sampleKey (a pix sm : Nat) : Nat := (a * 1024 + pix) * 4 + sm

/-- A sample of a tile; one that nothing has set holds the undefined contents of R235. -/
def sampleOf (w : TileWork) (a pix sm : Nat) : Nat :=
  let k := sampleKey a pix sm
  (tabFind k w.mem).getD (Config.tileSample w.seed k)

/-- A sample set. -/
def sampleSet (a pix sm v : Nat) (w : TileWork) : TileWork := { w with mem := tabSet (sampleKey a pix sm) v w.mem }

/-- A tile in flight on a core. -/
def workOf (p j tile : Nat) (s : State) : Option TileWork :=
  (coreOf p s).tiles.find? (fun w => w.job == j && w.tile == tile)

/-- A tile in flight set. -/
def setWork (p : Nat) (w : TileWork) (s : State) : State :=
  let c := coreOf p s
  setCore p { c with tiles := c.tiles.map (fun v => if v.job = w.job ∧ v.tile = w.tile then w else v) } s

/-- The area of a tile within the render area: left, top, columns, rows. -/
def tileRect (x : Pass) (tile : Nat) : Nat × Nat × Nat × Nat :=
  let x0 := tile % passTx x * 32
  let y0 := tile / passTx x * 32
  (x0, y0, min 32 (passWidth x - x0), min 32 (passHeight x - y0))

/-- A read by a core. -/
def cRead (p j va n : Nat) (k : XKind) : Tm (List Byte) := fun s =>
  match vaReadAll p (jobSlot j s) va n k s with
  | (.ok bs, s) => (some bs, s)
  | (.error (e, at'), s) => (none, faultAccess p j at' k e s)

/-- The address of a row of samples of a tile. -/
def rowVa (x : Pass) (a tile row : Nat) : Nat :=
  let (x0, y0, _, _) := tileRect x tile
  attVa x a + (y0 + row) * attPitch x a + x0 * passSamples x * attSize (attFormat x a)

/-- One row of an attachment loaded. -/
def loadRow (p j : Nat) (x : Pass) (a : Nat) (w : TileWork) (row : Nat) : Tm TileWork :=
  let (_, _, cols, _) := tileRect x w.tile
  let b := attSize (attFormat x a)
  let n := passSamples x
  tThen (cRead p j (rowVa x a w.tile row) (cols * n * b) .rd) fun bs =>
  tPure ((List.range (cols * n)).foldl (fun w i =>
    sampleSet a (row * 32 + i / n) (i % n) (leNat ((bs.drop (i * b)).take b)) w) w)

/-- Rows loaded one after the other. -/
def loadRows (p j : Nat) (x : Pass) (a : Nat) : List Nat → TileWork → Tm TileWork
  | [], w => tPure w
  | r :: t, w => tThen (loadRow p j x a w r) (loadRows p j x a t)

/-- An attachment at the start of a tile: loaded, cleared, or undefined (R235, R245). -/
def loadAtt (p j : Nat) (x : Pass) (flushed : Bool) (a : Nat) (w : TileWork) : Tm TileWork :=
  let (_, _, _, rows) := tileRect x w.tile
  if flushed ∨ attLoad x a = 1 then loadRows p j x a (List.range rows) w
  else if attLoad x a = 0 then
    let v := attClear x a % 2 ^ (8 * attSize (attFormat x a))
    tPure ((List.range 1024).foldl (fun w k =>
      (List.range (passSamples x)).foldl (fun w sm => sampleSet a k sm v w) w) w)
  else tPure w

/-- Every attachment. -/
def loadAtts (p j : Nat) (x : Pass) (flushed : Bool) : List Nat → TileWork → Tm TileWork
  | [], w => tPure w
  | a :: t, w => tThen (loadAtt p j x flushed a w) (loadAtts p j x flushed t)

/-- A tile's list: record addresses and PRIM_IDs, in order. -/
def readList (j : Nat) : Nat → Nat → Nat → Tm (List (Nat × Nat))
  | 0, _, _ => tPure []
  | fuel + 1, blk, n =>
    let k := min n 31
    if n = 0 ∨ blk = 0 then tPure []
    else
      tThen (tRead j blk (8 * k)) fun bs =>
      tThen (tNat j (blk + 0xF8) 8) fun next =>
      tThen (readList j fuel (next % 2 ^ 48) (n - k)) fun rest =>
      tPure ((List.range k).map (fun i =>
        let e := leNat ((bs.drop (8 * i)).take 8)
        (e % 2 ^ 42 * 64, e / 2 ^ 42)) ++ rest)

/-! ## Coverage and interpolation (R238, R248, R249) -/

/-- Sample positions in 1/256 pixel. -/
def samplePos (n sm : Nat) : Int × Int :=
  if n = 1 then (128, 128)
  else if n = 2 then (if sm = 0 then (192, 192) else (64, 64))
  else nth (0, 0) [(96, 32), (224, 96), (32, 160), (160, 224)] sm

/-- A point against an edge under the top-left rule; the interior of the edge is the side of its positive values. -/
def edgeIn (p q r : Int × Int) : Bool :=
  let e := area2 p q r
  decide (0 < e) || (e == 0 && ((q.2 == p.2 && decide (p.1 < q.1)) || decide (q.2 < p.2)))

/-- A point is covered. -/
def covers (body : List Word) (r : Int × Int) : Bool :=
  let (a, b, c) := bodyTri body
  if 0 < area2 a b c then edgeIn a b r && edgeIn b c r && edgeIn c a r
  else edgeIn a c r && edgeIn c b r && edgeIn b a r

/-- A sample of a pixel in 1/256 pixel. -/
def sampleAt (n sm : Nat) (px : Nat × Nat) : Int × Int :=
  let o := samplePos n sm
  (256 * px.1 + o.1, 256 * px.2 + o.2)

/-- Interpolated depth. -/
def depthAt (body : List Word) (r : Int × Int) : Word :=
  let l := baryAt body r
  let d := fun i => nth 0 body (4 * i + 2)
  fUnit (fAdd (fAdd (d 0) (fMul (nth 0 l 1) (fSub (d 1) (d 0)))) (fMul (nth 0 l 2) (fSub (d 2) (d 0))))

/-- The covered samples of a pixel within the render area. -/
def coverage (x : Pass) (body : List Word) (px : Nat × Nat) : Nat :=
  if passWidth x ≤ px.1 ∨ passHeight x ≤ px.2 then 0
  else ((List.range (passSamples x)).filter (fun sm => covers body (sampleAt (passSamples x) sm px))).foldl
    (fun n sm => n + 2 ^ sm) 0

/-- The pixels of a quad of a tile. -/
def quadPixels (x : Pass) (tile q : Nat) : List (Nat × Nat) :=
  let (x0, y0, _, _) := tileRect x tile
  let bx := x0 + q % 16 * 2
  let by' := y0 + q / 16 * 2
  [(bx, by'), (bx + 1, by'), (bx, by' + 1), (bx + 1, by' + 1)]

/-- A pixel's place in its tile. -/
def pixIdx (px : Nat × Nat) : Nat := px.2 % 32 * 32 + px.1 % 32

/-! ## Tests (Table 9-6, R248) -/

/-- A compare function on an order. -/
def cmpFn (f : Nat) (lt eq gt : Bool) : Bool :=
  match f with
  | 0 => false
  | 1 => lt
  | 2 => eq
  | 3 => lt || eq
  | 4 => gt
  | 5 => !eq
  | 6 => gt || eq
  | _ => true

/-- A stencil operation. -/
def stenOp (op st ref : Nat) : Nat :=
  match op with
  | 0 => st
  | 1 => 0
  | 2 => ref
  | 3 => min 255 (st + 1)
  | 4 => st - 1
  | 5 => 255 - st
  | 6 => (st + 1) % 256
  | _ => (st + 255) % 256

/-- Stencil fields of a draw. -/
def dSref (r : List Word) : Nat := dWord r 15 % 256
def dSrmask (r : List Word) : Nat := dWord r 15 / 2 ^ 8 % 256
def dSwmask (r : List Word) : Nat := dWord r 15 / 2 ^ 16 % 256
def dSfunc (r : List Word) : Nat := dWord r 15 / 2 ^ 24 % 8
def dSop (r : List Word) (k : Nat) : Nat := dWord r 16 / 2 ^ (3 * k) % 8

/-- Stencil and depth test of a stored sample against a depth: whether it passes, and the sample after it. -/
def dsTest (x : Pass) (r : List Word) (stored : Nat) (d : Word) : Bool × Nat :=
  let f := attFormat x 8
  if f = 0 then (true, stored)
  else
    let z := w32 stored
    let st := stored / 2 ^ 32 % 256
    let sten := dStenEn r && f == 7
    let a := dSref r &&& dSrmask r
    let b := st &&& dSrmask r
    let sp := !sten || cmpFn (dSfunc r) (a < b) (a == b) (b < a)
    let eq := !(isNan d) && !(isNan z) && !(fLt d z) && !(fLt z d)
    let zp := !(dZtest r) || cmpFn (dZfunc r) (fLt d z) eq (fLt z d)
    let n := stenOp (dSop r (if !sp then 0 else if !zp then 1 else 2)) st (dSref r)
    let st' := if sten then (st &&& (255 - dSwmask r)) + (n &&& dSwmask r) else st
    let z' := if sp && zp && dZwrite r then d else z
    (sp && zp, if f = 7 then z'.toNat + st' * 2 ^ 32 else z'.toNat)

/-- The draw's tests take place at commit (R248). -/
def lateDraw (r : List Word) : Bool :=
  dZout r || dPixAccess r ||
  (dDiscard r && (dZwrite r || (dStenEn r && dSwmask r != 0 && (List.range 3).any (fun k => dSop r k != 0))))

/-- The early tests of a pixel: the samples that pass, and the tile after them. -/
def earlyPixel (x : Pass) (r body : List Word) (w : TileWork) (px : Nat × Nat) : Nat × TileWork :=
  let c := coverage x body px
  if lateDraw r then (c, w)
  else
    (List.range (passSamples x)).foldl (fun e sm =>
      if c / 2 ^ sm % 2 = 0 then e
      else
        let t := dsTest x r (sampleOf e.2 8 (pixIdx px) sm) (depthAt body (sampleAt (passSamples x) sm px))
        (if t.1 then e.1 + 2 ^ sm else e.1,
         if attFormat x 8 = 0 then e.2 else sampleSet 8 (pixIdx px) sm t.2 e.2)) (0, w)

/-! ## Pixel groups (R249, R250) -/

/-- The pixel groups of a pass on a core: slot and group. -/
def pixGroups (p j : Nat) (s : State) : List (Nat × Group) :=
  (coreOf p s).groups.filter (fun g => g.2.job == j && g.2.pix.isSome)

/-- A live thread of an earlier entry that `f` admits covers a pixel of the tile. -/
def earlierCovers (p j tile entry : Nat) (f : PixGroup → Bool) (px : Nat × Nat) (s : State) : Bool :=
  (pixGroups p j s).any (fun g =>
    match g.2.pix with
    | some q => q.tile == tile && decide (q.entry < entry) && f q &&
        (List.range 32).any (fun t => g.2.live.getLsbD t && nth (0, 0) q.px t == px && nth 0 q.cov t != 0)
    | none => false)

/-- Registers of PS_RESERVE that the groups of a pass hold on a core. -/
def pixRegs (p j : Nat) (s : State) : Nat := (pixGroups p j s).foldl (fun n g => n + 32 * regAlloc g.2.nregs) 0

/-- The initial registers of a pixel thread. -/
def pixStart (r body : List Word) (vary : List (List Word)) (param draw prim : Nat) (px : Nat × Nat) (cov : Nat) : List Word :=
  let front := dWord body 15 / 2 ^ 16 % 2
  [w32 px.1, w32 px.2, w32 cov, w32 prim, w32 draw, w32 (front + b2n (cov == 0) * 2), w32 param, w32 (param / 2 ^ 32),
   depthAt body (centreAt px)] ++ (varyAt body vary px).take (dVaryCount r)

/-- A pixel group put on a core. -/
def putPixels (p j draw : Nat) (x : Pass) (w : TileWork) (px : List (Nat × Nat)) (cov : List Nat) (s : State) : State :=
  let r := drawRec x draw
  let b := s.cpt.nextBlock
  let s := { s with cpt := { s.cpt with nextBlock := b + 1 } }
  let s := setBlock b { job := j, core := p, index := b, bcl := 2 ^ 40 + b, rank := 0, size := 0, groups := 1, pix := true } s
  let live := BitVec.ofNat 32 (2 ^ px.length - 1)
  let regs := ((px.zip cov).zipIdx).map (fun e =>
    ((pixStart r w.body w.vary (tabGet (0, 0) draw x.code).2 draw w.prim e.1.1 e.1.2).zipIdx).map
      (fun v => (e.2 * 512 + v.2, v.1)))
  let seed := s.free
  cpriPlaced x.slot
    (putGroup p
      { job := j, block := b, idx := 0, live := live, regs := regs.flatten, seed := seed, paths := [{ mask := live, pc := 0 }],
        nregs := dPsRegs r,
        pix := some { tile := w.tile, entry := w.begun, prim := w.prim, draw := draw, px := px, cov := cov, body := w.body } }
      { s with free := seed + 1 })

/-- The next pixel group of the entry in work: up to 8 quads, early-tested; none where the core has no room, or where an
earlier primitive's late tests are still to come on one of its pixels. -/
def formGroup (p j : Nat) (x : Pass) (w : TileWork) (s : State) : Option State :=
  let draw := dWord w.body 15 % 65536
  let r := drawRec x draw
  let qs := w.quads.take 8
  let late := fun (q : PixGroup) => lateDraw (drawRec x q.draw)
  let blocked := !(lateDraw r) &&
    qs.any (fun q => (quadPixels x w.tile q).any (fun px => earlierCovers p j w.tile w.begun late px s))
  let room := (coreOf p s).groups.length < 64 && pixRegs p j s + 32 * regAlloc (dPsRegs r) ≤ pW x 9 % 128 * 1024
  if blocked || !room then none
  else
    let res := qs.foldl (fun e q =>
      let px := quadPixels x w.tile q
      let t := px.foldl (fun (e : List Nat × TileWork) a =>
        let c := earlyPixel x r w.body e.2 a
        (e.1 ++ [c.1], c.2)) (([] : List Nat), e.2)
      if t.1.all (· == 0) then (e.1, t.2) else (e.1 ++ px.zip t.1, t.2)) (([] : List ((Nat × Nat) × Nat)), w)
    let v := { res.2 with quads := w.quads.drop 8 }
    let s := setWork p v s
    some (if res.1.isEmpty then s else putPixels p j draw x v (res.1.map (·.1)) (res.1.map (·.2)) s)

/-- The entry is one of the triangle at which binning stalled: it is binned again after the partial render, so the partial
render passes over it (R245). -/
def staleEntry (x : Pass) (draw prim : Nat) : Bool :=
  x.phase == 3 && draw == x.bin && (match x.tri with | some t => t.prim == prim | none => false)

/-- Images of the pass that no group of the core runs leave the instruction store where a new one has no room beside them (R92). -/
def imageTrim (p j va bytes : Nat) (s : State) : State :=
  if imageFits p j va bytes s then s
  else
    let c := coreOf p s
    let used := fun (m : Image) => c.groups.any (fun g => g.2.job == j && codeVa g.2 s == some m.va)
    setCore p { c with images := c.images.filter (fun m => m.job != j || used m) } s

/-- The next entry of a tile's list begun: its draw's code image is staged (R24, R92), then its quads are due; none where the
instruction store has no room for the image yet. -/
def openEntry (p j : Nat) (x : Pass) (w : TileWork) : Tm Unit := fun s =>
  match w.left with
  | [] => (some (), s)
  | e :: rest =>
    let draw := dWord e.body 15 % 65536
    let r := drawRec x draw
    let w := { w with left := rest, begun := w.begun + 1, prim := e.prim, body := e.body, vary := e.vary, quads := [] }
    if staleEntry x draw e.prim then (some (), setWork p w s)
    else
      let va := (tabGet (0, 0) draw x.code).1
      let s := imageTrim p j va (dWord r 13) s
      if !(imageFits p j va (dWord r 13) s) then (none, s)
      else
        let s := stageText p j x.slot va (dWord r 13) s
        if jobEnded j s then (none, s)
        else
          (some (), setWork p { w with
            quads := (List.range 256).filter (fun q => (quadPixels x w.tile q).any (fun px => coverage x e.body px != 0)) } s)

/-- The entries of a tile's list with their records, and with the varyings of their primitives, which the staging unit copies (R249). -/
def readEntries (p j : Nat) (x : Pass) : List (Nat × Nat) → Tm (List TileEntry)
  | [] => tPure []
  | (va, prim) :: rest =>
    tThen (tRead j va 64) fun bs =>
    let body := rowWords 4 16 bs
    tThen (if dWord body 15 / 2 ^ 17 % 2 = 0 then tPure [] else tThen (tRead j (va + 64) 36) fun c => tPure (rowWords 4 9 c)) fun clip =>
    tThen (readVary (fun va n => cRead p j va n .rd) (drawRec x (dWord body 15 % 65536)) body clip) fun vary =>
    tThen (readEntries p j x rest) fun l => tPure ({ prim := prim, body := body, vary := vary } :: l)

/-- A texture tile's residency (R254). -/
def resident (p j : Nat) (d : List Word) (t : Nat) : Tm Bool :=
  if tSparse d then tThen (cRead p j (tResVa d + t / 8) 1 .rd) (fun b => tPure (leNat b / 2 ^ (t % 8) % 2 == 1)) else tPure true

/-- Texels copied into the staging area: those in resident tiles that it does not hold yet. -/
def stageTexels (p j : Nat) (d : List Word) : List (Nat × Nat) → Tab Nat → Tm (Tab Nat)
  | [], m => tPure m
  | (t, a) :: rest, m =>
    if (tabFind a m).isSome then stageTexels p j d rest m
    else
      tThen (resident p j d t) fun ok =>
      if ok then
        tThen (cRead p j a (texelSize (tFormat d)) .rd) fun bs => stageTexels p j d rest (tabSet a (leNat bs) m)
      else stageTexels p j d rest m

/-- Footprints staged in order while they fit: `room` bytes are left, and a texel that the area holds already takes none. -/
def stageFoots (p j : Nat) : List Foot → Nat → Tab Nat → Tm (Tab Nat)
  | [], _, m => tPure m
  | f :: rest, room, m =>
    let ts := (f.boxes.map (boxTexels f.desc)).flatten
    let need := ((ts.map (·.2)).eraseDups.filter (fun a => (tabFind a m).isNone)).length * texelSize (tFormat f.desc)
    if room < need then stageFoots p j rest room m
    else
      tThen (tAct (fun s => prefetchAt p (jobSlot j s) (pfDepth s) (ts.map (·.2)) s)) fun _ =>
      tThen (stageTexels p j f.desc ts m) fun m => stageFoots p j rest (room - need) m

/-- The staging area of a tile: its footprints, binding 0 first, beside the varyings (R249, R255). What the varyings take of the area,
and that a smaller footprint is staged after one that does not fit, are DESIGN CHOICES (log 92). -/
def stageTile (p j : Nat) (x : Pass) (tile : Nat) (es : List TileEntry) : Tm (Tab Nat) :=
  let fs := x.foots.filter (fun f => f.tile == tile)
  let vary := es.foldl (fun n e => n + 4 * e.vary.flatten.length) 0
  stageFoots p j ((List.range 4).map (fun b => fs.filter (fun f => f.bind == b))).flatten (pW x 1 / 256 % 16 * 16384 - vary) []

/-! ## Formats of tile memory (Table 9-4, R250) -/

/-- A component as a k-bit unorm; the code of a NaN is not stated. -/
def tileUnorm (k : Nat) (a : Word) : Nat := if isNan a then Config.unormNan k % 2 ^ k else unormEnc k a

/-- Four components stored as a sample. -/
def tileEnc (f : Nat) (c : List Word) : Nat :=
  let x := fun i => nth fZero c i
  let h := fun i => fpEnc .fp16 (f32 (x i))
  if f = 1 then tileUnorm 8 (x 0) + tileUnorm 8 (x 1) * 2 ^ 8 + tileUnorm 8 (x 2) * 2 ^ 16 + tileUnorm 8 (x 3) * 2 ^ 24
  else if f = 2 then
    tileUnorm 10 (x 0) + tileUnorm 10 (x 1) * 2 ^ 10 + tileUnorm 10 (x 2) * 2 ^ 20 + tileUnorm 2 (x 3) * 2 ^ 30
  else if f = 3 then h 0 + h 1 * 2 ^ 16 + h 2 * 2 ^ 32 + h 3 * 2 ^ 48
  else if f = 4 then h 0 + h 1 * 2 ^ 16
  else if f = 7 then (x 0).toNat + (x 1).toNat % 256 * 2 ^ 32
  else (x 0).toNat

/-- A resolved pixel: the components' mean over the samples, in sample order (R235). -/
def resolvePixel (x : Pass) (a : Nat) (w : TileWork) (pix : Nat) : Nat :=
  let f := attFormat x a
  let n := passSamples x
  if a = 8 then sampleOf w a pix 0
  else
    let sm := (List.range n).map (fun i => colorDec f (sampleOf w a pix i))
    tileEnc f ((List.range 4).map (fun k => fDiv (fSum (sm.map (fun c => nth 0 c k))) (fInt n)))

/-! ## Writeback (R160, R245, R247) -/

/-- The rows that a tile writes back: address and bytes. -/
def tileRows (x : Pass) (w : TileWork) : List (Nat × List Byte) :=
  let (x0, y0, cols, rows) := tileRect x w.tile
  let n := passSamples x
  ((passAtts x).map (fun a =>
    let b := attSize (attFormat x a)
    let mode := if x.phase = 3 then 1 else attStore x a
    if mode = 1 then
      (List.range rows).map (fun y => (rowVa x a w.tile y,
        ((List.range (cols * n)).map (fun i => toLE b (sampleOf w a (y * 32 + i / n) (i % n)))).flatten))
    else if mode = 2 then
      (List.range rows).map (fun y => (attRva x a + (y0 + y) * attRpitch x a + x0 * b,
        ((List.range cols).map (fun i => toLE b (resolvePixel x a w (y * 32 + i)))).flatten))
    else [])).flatten

/-- Rows written by a core: the first failure, and the bytes dropped. -/
def writeRows (p slot : Nat) (rows : List (Nat × List Byte)) (s : State) : (Option (AccErr × Nat) × Nat) × State :=
  rows.foldl (fun e r =>
    let t := rowWrite p slot r.1 r.2 e.2
    ((e.1.1.orElse (fun _ => t.1.1), e.1.2 + t.1.2), t.2)) ((none, 0), s)

/-- A failed writeback (R160): one record a core and pass; the pass goes on. -/
def targetFault (p j : Nat) (x : Pass) (e : AccErr) (va dropped : Nat) (s : State) : State :=
  match e with
  | .bus => faultAccess p j va .wr .bus s
  | .xl _ _ =>
    let s := passMod j (fun x => { x with target := x.target.orElse (fun _ => some va), tcores := p :: x.tcores }) s
    if x.tcores.contains p then s else (writeFault p x.slot (jobRef j s) e va dropped s).2

/-- Some core has a tile of the pass in flight, or a mid-tile save of it stands. -/
def tilesOut (j : Nat) (s : State) : Bool :=
  (usedCores s).any (fun p => (coreOf p s).tiles.any (fun w => w.job == j)) || s.tlr.midtile.any (fun m => m.job == j)

/-- A partial render is over: lists are empty, the chunks are free, and the stalled triangle is binned again. -/
def partialEnd (j : Nat) (s : State) : State :=
  match passOf j s with
  | none => s
  | some x =>
    match tEach (pushChunk j x) x.chunks s with
    | (none, s) => s
    | (some _, s) =>
      passMod j (fun x => { x with
        chunks := [], recAt := none, blkAt := none, foots := [], phase := 1, stalled := false,
        tri := x.tri.map (fun t => { t with left := t.all, hit := false }) }) s

/-- The tile phase or a partial render is over when no tile is left. -/
def passCheck (j : Nat) (s : State) : State :=
  match passOf j s with
  | none => s
  | some x =>
    if !x.todo.isEmpty || tilesOut j s || jobEnded j s then s
    else if x.phase = 3 then partialEnd j s
    else if x.phase = 2 then
      match x.target with
      | some va => endCompute j 3 0x0016 va s
      | none => endCompute j 0 0 0 s
    else s

/-- A tile is over on its core: written back; after a partial render its header says so. -/
def finishTile (p j : Nat) (x : Pass) (w : TileWork) (s : State) : State :=
  let (e, s) := writeRows p x.slot (tileRows x w) s
  let s := match e.1 with
    | some (er, va) => targetFault p j x er va e.2 s
    | none => s
  let c := coreOf p s
  let s := setCore p { c with tiles := c.tiles.filter (fun v => !(v.job == j && v.tile == w.tile)) } s
  let s := passMod j (fun x => { x with tiles := sat32 x.tiles }) s
  let s := if x.phase = 3 then
      (tThen (tNat j (hdrVa x w.tile + 8) 8) (fun hi =>
        tThen (tWrite j (hdrVa x w.tile) (toLE 8 0)) fun _ =>
        tWrite j (hdrVa x w.tile + 8) (toLE 8 (hi / 2 ^ 40 % 2 ^ 7 * 2 ^ 40 + 2 ^ 47))) s).2
    else s
  let s := if x.preempted && !((coreOf p s).tiles.any (fun w => w.job == j)) then passUnreserve j [p] s else s
  passCheck j s

/-- The tile goes on as far as it can: entries begun, groups formed, and at the end the writeback. -/
def shadeLoop (p j tile : Nat) : Nat → State → State
  | 0, s => s
  | n + 1, s =>
    match passOf j s, workOf p j tile s with
    | some x, some w =>
      if jobEnded j s then s
      else if !w.quads.isEmpty then
        match formGroup p j x w s with
        | some s => shadeLoop p j tile n s
        | none => s
      else if !w.left.isEmpty then
        match openEntry p j x w s with
        | (some _, s) => shadeLoop p j tile n s
        | (none, s) => s
      else if (pixGroups p j s).any (fun g => match g.2.pix with | some q => q.tile == tile | none => false) then s
      else finishTile p j x w s
    | _, _ => s

/-- The tile's remaining work. -/
def shadeGo (p j tile : Nat) (s : State) : State :=
  match workOf p j tile s with
  | some w => shadeLoop p j tile (34 * w.left.length + w.quads.length + 2) s
  | none => s

/-- A tile with an empty list whose attachments are all loaded and not resolved is passed over (R247). -/
def tileSkips (x : Pass) (count : Nat) : Bool :=
  count == 0 && (passAtts x).all (fun a => attLoad x a == 1 && attStore x a != 2)

/-- The core has the reservation of the passes free (R257). -/
def reserved (p : Nat) (s : State) : Bool :=
  coreLocal p s + (coreOf p s).carve ≤ 2 ^ 19 && coreRegs p s + (coreOf p s).psRes ≤ 65536

/-- A tile given to a core: its header, its owner, its contents and its list (R247). -/
def giveTile (p j tile : Nat) (x : Pass) (s : State) : State :=
  match tThen (tNat j (hdrVa x tile) 8) (fun lo => tThen (tNat j (hdrVa x tile + 8) 8) fun hi => tPure (lo, hi)) s with
  | (none, s) => s
  | (some (lo, hi), s') =>
    let owner := hi / 2 ^ 40 % 64
    let owned := hi / 2 ^ 46 % 2 == 1
    let flushed := hi / 2 ^ 47 % 2 == 1
    let l := lcore p s'
    let take := passMod j (fun x => { x with todo := x.todo.filter (· != tile) })
    let own := passMod j (fun x => { x with owners := (x.owners ++ [p]).eraseDups })
    if x.phase = 2 && tileSkips x (lo / 2 ^ 40) then passCheck j (take s')
    else if owned && owner != l then s
    else
      let s := coreBegin p j (wakeCore p (own (take s')))
      let seed := s.free
      let w : TileWork := { job := j, tile := tile, seed := seed }
      let s := { s with free := seed + 1 }
      match tThen (tWrite j (hdrVa x tile + 8) (toLE 8 (hi % 2 ^ 40 + l * 2 ^ 40 + 2 ^ 46 + b2n flushed * 2 ^ 47))) (fun _ =>
          tThen (loadAtts p j x flushed (passAtts x) w) fun w =>
          tThen (readList j (lo / 2 ^ 40 / 31 + 1) (lo % 2 ^ 40 * 256) (lo / 2 ^ 40)) fun l =>
          tThen (readEntries p j x l) fun es =>
          tThen (stageTile p j x tile es) fun m => tPure { w with left := es, texels := m }) s with
      | (none, s) => s
      | (some w, s) =>
        let c := coreOf p s
        shadeGo p j tile (setCore p { c with tiles := c.tiles ++ [w] } s)

/-- The pass that has a tile in flight on a core: the running one first. -/
def tileHolder (p tile : Nat) (s : State) : Option Nat :=
  let mine := s.tlr.passes.filter (fun e => (workOf p e.1 tile s).isSome && !(jobEnded e.1 s))
  match mine.find? (fun e => !e.2.preempted), mine with
  | some e, _ => some e.1
  | none, e :: _ => some e.1
  | none, [] => none

/-- TILE_SHADE: a tile in flight goes on; another one is given to the core if the core may take it. -/
def tileShade (tile core : Nat) (s : State) : State :=
  let p := physOf core s
  if 80 ≤ p ∨ dark pgTlr s ∨ 2 ≤ devState s then s
  else
    match tileHolder p tile s with
    | some j => if coreUp p s then shadeGo p j tile s else s
    | none =>
      match runPass s with
      | none => s
      | some (j, x) =>
        if !(x.phase == 2 || x.phase == 3) || !(x.todo.contains tile) || !(x.cores.contains p) || !(coreEnabled p s) ||
            !(reserved p s) || tileRoom x ≤ ((coreOf p s).tiles.filter (fun w => w.job == j)).length then s
        else if dozeHold [p] s then endDoze s
        else giveTile p j tile x s

/-! ## Partial renders (R245, R246) -/

/-- The tiles whose list is not empty. -/
def listedTiles (j : Nat) (x : Pass) : List Nat → Tm (List Nat)
  | [] => tPure []
  | k :: t =>
    tThen (tNat j (hdrVa x k) 8) fun lo =>
    tThen (listedTiles j x t) fun l => tPure (if lo % 2 ^ 40 = 0 then l else k :: l)

/-- PARTIAL_RENDER: the grace interval of a stall has passed without chunks. -/
def partialRender (s : State) : State :=
  match runPass s with
  | none => s
  | some (j, x) =>
    if x.phase ≠ 1 ∨ !x.stalled ∨ x.grace < passGrace x then s
    else if x.chunks = [] ∨ !x.fresh then endCompute j 1 rPoolEmpty x.bin s
    else
      match listedTiles j x (List.range (passTx x * passTy x)) s with
      | (none, s) => s
      | (some l, s) =>
        let s := count32 pgTlr 0 0x10C s
        passCheck j (passMod j (fun x => { x with
          phase := 3, todo := l, fresh := false, partials := sat32 x.partials }) s)

/-! ## Preemption by the compositor-priority slot (R259) -/

/-- CPRI_CTL names the slot, with EN. -/
def cpriSlot (s : State) : Option Nat :=
  if bit (getReg pgTlr 0 0x104 s) 31 then some (getFld pgTlr 0 0x104 0 6 s) else none

/-- The clusters of a queue. -/
def queueMask (k q : Nat) (s : State) : Nat := let m := (queueOf k q s).cmask; if m = 0 then 0xFFFF else m

/-- The units of a kernel that have blocks in some clusters. -/
def unitsIn (j mask : Nat) (k : Kernel) (s : State) : List Nat :=
  let bs := s.cpt.blocks.filter (fun e => e.2.job == j && !e.2.pix && nbits mask (e.2.core / 5) 1 == 1)
  if k.coop then (if bs = [] then [] else [0]) else (bs.map (fun e => e.2.bcl)).eraseDups

/-- A pass is preempted: its cores take no more tiles, and binning stands still. -/
def passPreempt (j : Nat) (s : State) : State :=
  let s := count32 pgTlr 0 0x114
    (passMod j (fun x => { x with preempted := true, waited := 0, preempts := sat32 x.preempts }) s)
  passUnreserve j ((workCores j s).filter (fun p => !((coreOf p s).tiles.any (fun w => w.job == j)))) s

/-- A queue of the compositor-priority slot is runnable (R259). -/
def cpriRuns (k q : Nat) (s : State) : Bool :=
  cpriSlot s == some k && (queueOf k q s).engine < 2 && !(dark pgTlr s) && fetching (.queue k q) s &&
    (fetchPos (.queue k q) s).isSome

/-- PREEMPT_REQUEST: a unit of another slot's kernel is preempted where a runnable queue of the compositor-priority slot has one of its
clusters; nothing else preempts (R114, R258, R259). -/
def cpriUnit (j unit : Nat) (s : State) : State :=
  match cpriSlot s, kernelOf j s with
  | some k, some y =>
    if y.slot ≠ k ∧ (List.range 16).any (fun q => cpriRuns k q s && (unitsIn j (queueMask k q s) y s).contains unit) then
      preemptRequest j unit s
    else s
  | _, _ => s

/-- CPRI_PREEMPT: a runnable queue of the compositor-priority slot preempts the other slots' work in its clusters. -/
def cpriPreempt (k q : Nat) (s : State) : State :=
  if !(cpriRuns k q s) then s
  else
    let m := queueMask k q s
    let ks := s.cpt.kernels.filter (fun e => e.2.slot != k && !(jobEnded e.1 s))
    let s := ks.foldl (fun s e => (unitsIn e.1 m e.2 s).foldl (fun s u => preemptRequest e.1 u s) s) s
    let ps := s.tlr.passes.filter (fun e => e.2.slot != k && !e.2.preempted && !(jobEnded e.1 s) && e.2.mask &&& m != 0)
    let s := ps.foldl (fun s e => passPreempt e.1 s) s
    { s with tlr := { s.tlr with cpri := some (k, (queueOf k q s).bell) } }

/-- The blocks of a pass's groups on a core. -/
def pixBlocks (p j : Nat) (s : State) : List (Nat × Block) :=
  s.cpt.blocks.filter (fun e => e.2.job == j && e.2.pix && e.2.core == p)

/-- PREEMPT_GRACE: 0 acts as 1. -/
def preemptGrace (s : State) : Nat := max 1 (getFld pgTlr 0 0x108 0 8 s)

/-- A core's tiles in flight saved mid-tile, into the context's save area (R114). -/
def midSave (p j : Nat) (s : State) : State :=
  let s := wbFlushAll p s
  let c := coreOf p s
  let gs := pixGroups p j s
  let m : MidTile := { job := j, core := p, tiles := c.tiles.filter (fun w => w.job == j), blocks := pixBlocks p j s, groups := gs }
  let s := setCore p { c with
    tiles := c.tiles.filter (fun w => w.job != j), groups := c.groups.filter (fun g => !(g.2.job == j && g.2.pix.isSome)) } s
  let s := { s with
    cpt := { s.cpt with blocks := s.cpt.blocks.filter (fun e => !(m.blocks.any (fun b => b.1 == e.1))) },
    tlr := { s.tlr with midtile := s.tlr.midtile ++ [m] } }
  saveArea (jobSlot j s) p (passUnreserve j [p] (count32 pgTlr 0 0x118 s))

/-- PREEMPT_GRACE_EXPIRY: a core of a preempted pass still has tiles in flight. -/
def graceExpiry (p : Nat) (s : State) : State :=
  match s.tlr.passes.find? (fun e => e.2.preempted && !(jobEnded e.1 s) && (coreOf p s).tiles.any (fun w => w.job == e.1)) with
  | none => s
  | some (j, x) =>
    if x.waited < preemptGrace s || (pixGroups p j s).any (fun g => groupReads p g.1 s) then s else midSave p j s

/-- Work of the compositor-priority slot in some clusters: kernels and passes. -/
def cpriWork (mask : Nat) (s : State) : Bool :=
  let k := getFld pgTlr 0 0x104 0 6 s
  s.cpt.kernels.any (fun e => e.2.slot == k && !(jobEnded e.1 s) && e.2.mask &&& mask != 0) ||
  s.tlr.passes.any (fun e => e.2.slot == k && !(jobEnded e.1 s) && e.2.mask &&& mask != 0)

/-- A mid-tile save put back on its core. -/
def midRestore (s : State) (m : MidTile) : State :=
  let s := coreBegin m.core m.job (wakeCore m.core s)
  let c := coreOf m.core s
  let s := setCore m.core { c with tiles := c.tiles ++ m.tiles } s
  let s := m.blocks.foldl (fun s b => setBlock b.1 b.2 s) s
  m.groups.foldl (fun s g => putGroup m.core g.2 s) s

/-- PASS_RESUME: the compositor work has left the clusters of the preempted pass; a saved tile waits for its gated cluster (R333). -/
def passResume (s : State) : State :=
  match s.tlr.passes.find? (fun e => e.2.preempted && !(jobEnded e.1 s)) with
  | none => s
  | some (j, x) =>
    let ms := s.tlr.midtile.filter (fun m => m.job == j)
    if dark pgTlr s || cpriWork x.mask s || ms.any (fun m => 64 < (coreOf m.core s).groups.length + m.groups.length) then s
    else if dozeHold (ms.map (·.core)) s then endDoze s
    else
      let s := passMod j (fun x => { x with preempted := false, waited := 0 }) s
      let s := passReserve j x.cores { s with tlr := { s.tlr with midtile := s.tlr.midtile.filter (fun m => m.job != j) } }
      ms.foldl midRestore s

/-! ## Meanings -/

/-- JOB_COMPLETE: a pass leaves its pool and its statistics first (R186, R246). -/
def execJobComplete (job : Nat) (s : State) : Out := toNext (retireTidy retireJob job s)

/-- PARTIAL_RENDER (R245). -/
def execPartialRender (s : State) : Out := toNext (partialRender s)

/-- TILE_SHADE (R247). -/
def execTileShade (tile : Nat) (core : Fin 64) (s : State) : Out := toNext (tileShade tile core.val s)

/-- PREEMPT_REQUEST (R114). -/
def execPreemptRequest (job unit : Nat) (s : State) : Out := toNext (cpriUnit job unit s)

/-- CPRI_PREEMPT (R259). -/
def execCpriPreempt (slot : Fin 64) (q : Fin 16) (s : State) : Out := toNext (cpriPreempt slot.val q.val s)

/-- PREEMPT_GRACE_EXPIRY (R259). -/
def execPreemptGraceExpiry (p : Fin 80) (s : State) : Out := toNext (graceExpiry p.val s)

/-- PASS_RESUME (R259). -/
def execPassResume (s : State) : Out := toNext (passResume s)

end Sys2Proof.Machine
end

