-- ==== Sys2Proof/Machine/RegRead.lean ====
section
/-!
DEFINITION. Register reads (R6 to R9, R322, R386, R442, R444): the registers that mirror other state, what a register of
a gated, fenced or resetting domain reads as, the latches, and the fields that a read clears.
-/
namespace Sys2Proof.Machine

/-! ## Mirrors -/

/-- A word with one bit for each number below `n` that `f` selects. -/
def maskBits (n : Nat) (f : Nat → Bool) : Word :=
  (List.range n).foldl (fun v k => if f k then v ||| oneBit k else v) 0

/-- A word of a summary of GLB: one bit a page (R448). -/
def sumWord (i : Nat) (f : Nat → Bool) : Word := maskBits 32 (fun k => 32 * i + k < 146 && f (32 * i + k))

/-- CORE_STS.LCORE: the logical index, or 0x3F. -/
def lcoreField (p : Nat) (s : State) : Nat := if fenced (pgSc p) s then 0x3F else (logicalOf p s).getD 0x3F

/-- CORE_STS: the index, the resident groups and blocks (Table 4-10). -/
def coreSts (p : Nat) (s : State) : Word :=
  w32 (lcoreField p s + (coreOf p s).groups.length % 128 * 2 ^ 8 + (coreBlocks p s).length % 64 * 2 ^ 16)

/-- A register of a core's page that mirrors the core (Tables 3-9, 4-10). -/
def scMirror (p off : Nat) (s : State) : Option Word :=
  if off = 0x100 then some (coreSts p s)
  else if off = 0x104 then some (w32 (regsUsed p s))
  else if off = 0x108 then some (w32 (coreLocal p s))
  else if off = 0x11C then some (w32 (raysInFlight p s % 256))
  else if off = 0x400 then some (maskBits 32 (fun e => (meOf p e s).active))
  else none

/-- GATE_STS of a cluster (Table 3-10). -/
def gateSts (c : Nat) (s : State) : Word :=
  let act := (List.range 5).foldl (fun n i => n + ((coreOf (5 * c + i) s).mes.filter (fun m => m.2.active)).length) 0
  w32 (act % 256 + (tabGet [] c s.cpt.gates).length % 256 * 2 ^ 8)

/-- A register of the GLB page that sums the pages up (Table 18-4). -/
def glbMirror (off : Nat) (s : State) : Option Word :=
  if 0x120 ≤ off ∧ off < 0x134 then some (sumWord ((off - 0x120) / 4) (fun pg => irqReq pg s))
  else if 0x140 ≤ off ∧ off < 0x154 then some (sumWord ((off - 0x140) / 4) (fun pg => getReg pg 0 0x020 s != 0))
  else if 0x160 ≤ off ∧ off < 0x174 then some (sumWord ((off - 0x160) / 4) (fun pg => locked pg s))
  else if off = 0x104 then some (w32 (b2n (selfHosted s)))
  else none

/-- A register of the MMU page of the selected function, or of the page requests (Table 6-6). -/
def mmuMirror (bank off : Nat) (s : State) : Option Word :=
  if off = 0x14C then
    some (putFld (getReg pgMmu bank off s) 16 7 (s.mmu.posts.filter (fun p => p.fn == bank)).length)
  else if off = 0x150 then some (w32 s.mmu.pri.length)
  else none

/-- CH_STALL of a DMA engine (Table 6-7). -/
def chStall (n : Nat) (s : State) : Word :=
  let st := fun c (x : ChState) => match chanOf (16 * n + c) s with | some ch => ch.st == x | none => false
  maskBits 32 (fun k => if k < 16 then st k .stalled else st (k - 16) .postWait)

/-- TLR_STS (Table 9-10). -/
def tlrSts (s : State) : Word :=
  let held := s.tlr.passes.any (fun e => e.2.preempted)
  match runPass s with
  | some e => w32 (e.2.phase % 4 + b2n e.2.stalled * 4 + b2n held * 8 + e.2.slot % 64 * 16)
  | none => w32 (b2n held * 8)

/-- A register of a function's FN page that mirrors other state (Table 18-6). Q_STS shows a queue of a slot of the function
only. -/
def fnMirror (f off : Nat) (s : State) : Option Word :=
  if off = 0x104 then some (maskBits 32 (fun k => slotOwner k s == f))
  else if off = 0x108 then some (maskBits 32 (fun k => slotOwner (32 + k) s == f))
  else if off = 0x114 then
    let k := getFld pgFn f 0x10C 0 6 s
    let x := queueOf k (getFld pgFn f 0x10C 8 4 s) s
    let own := slotOwner k s == f
    some (putFld (putFld (getReg pgFn f off s) 0 3 (if own then x.state else 0)) 8 8 (if own then x.enaErr else 0))
  else if off = 0x130 then some (getReg pgFnc f 0x110 s)
  else if off = 0x134 then some (getReg pgFnc f 0x114 s)
  else if off = 0x138 then some (getReg pgFnc f 0x118 s)
  else if off = 0x13C then some (getReg pgLvn f 0x124 s)
  else if off = 0x140 then some (getReg pgLvn f 0x128 s)
  else none

/-- The current value of a register that mirrors other state. -/
def mirror (pg bank off : Nat) (s : State) : Option Word :=
  if pg = pgGlb then glbMirror off s
  else if pg = pgBsn ∧ 0x114 ≤ off ∧ off < 0x138 then some (srcSticky ((off - 0x114) / 4) s)
  else if pg = pgSec ∧ off = 0x104 then some (putFld (getReg pgSec 0 off s) 8 7 (svnFused s))
  else if pg = pgSec ∧ 0x170 ≤ off ∧ off < 0x190 then
    some (w32 (leNat (((challenge s).drop (off - 0x170)).take 4)))
  else if pg = pgClk ∧ off = 0x100 then some (maskBits 24 (fun d => clkLocked d s))
  else if 27 ≤ pg ∧ pg < 43 ∧ off = 0x400 then some (gateSts (pg - 27) s)
  else if 43 ≤ pg ∧ pg < 123 then scMirror (pg - 43) off s
  else if pg = pgFe ∧ off = 0x114 then some (putFld (getReg pgFe bank off s) 0 3 (slotOf bank s).state)
  else if pg = pgTlr ∧ off = 0x100 then some (tlrSts s)
  else if pg = pgMmu then mmuMirror bank off s
  else if 129 ≤ pg ∧ pg < 133 ∧ off = 0x104 then some (chStall (pg - 129) s)
  else if pg = pgLvn ∧ off = 0x104 then some (w32 (s.lvn.batches.length % 8 + s.lvn.onDie.length % 2 ^ 14 * 2 ^ 16))
  else if pg = pgFnc ∧ off = 0x134 then some (w32 (b2n (!s.fnc.scans.isEmpty)))
  else if 135 ≤ pg ∧ pg < 139 ∧ off = 0x11C then
    some (putFld (getReg pg 0 off s) 31 1 (b2n (scrubActive (pg - 135) s)))
  else if pg = pgPci ∧ off = 0x100 then some (putFld (getReg pgPci 0 off s) 0 1 (b2n (selfHosted s)))
  else if pg = pgFn then fnMirror bank off s
  else none

/-- TIMER_POS of a running channel: a place inside the frame that the manual's events do not tell. -/
def timerPos (c : Nat) (s : State) : Word × State :=
  if bit (getReg pgCmp c 0x10C s) 0 then
    let (f, s) := takeFree s
    let h := max 1 (getFld pgCmp c 0x118 16 16 s)
    let l := max 1 (getFld pgCmp c 0x11C 16 16 s)
    (w32 (f % h + f / h % l * 2 ^ 16), s)
  else (0, s)

/-- What a register holds for a reader. -/
def liveVal (pg bank off : Nat) (s : State) : Word :=
  ((mirror pg bank off s).getD (getReg pg bank off s)) &&& readBits pg off

/-! ## A register of a dark domain (R444) -/

/-- What a register will hold when its domain is next restored. -/
def darkVal (pg bank off : Nat) (s : State) : Word :=
  let keep := savedBits pg off
  if pg = pgPci ∧ off = 0x100 then w32 (b2n (selfHosted s))
  else if pg = pgGlb ∧ off = 0x104 then w32 (b2n (selfHosted s))
  else if 43 ≤ pg ∧ pg < 123 ∧ off = 0x100 then w32 (lcoreField (pg - 43) s)
  else if runState pg off then getReg pg bank off s &&& readBits pg off
  else if inReset (hostPage pg) s then resetVal pg bank off &&& readBits pg off
  else ((getReg pg bank off s &&& keep) ||| (resetVal pg bank off &&& ~~~ keep)) &&& readBits pg off

/-! ## Side effects (R8, R9, R322, R386) -/

/-- The bank in the key of a latch: a select register chooses what one register shows, so the latch is the register's. -/
def latBank (pg bank : Nat) : Nat := if pg < 146 then 0 else bank

/-- The key of a requester's latch of a register. -/
def regLatch (r : Requester) (pg bank off : Nat) : Nat := latKey r (rk pg (latBank pg bank) off)

/-- The RC fields of a register cleared. -/
def clearRc (pg bank off : Nat) (s : State) : State :=
  let m := accBits (fun a => a == .rc) pg off
  if m = 0 then s else setReg pg bank off (getReg pg bank off s &&& ~~~ m) s

/-- A _LO read latches its _HI value for the requester. -/
def latchHi (r : Requester) (pg bank off : Nat) (s : State) : State :=
  { s with lat := { s.lat with hi := tabSet (regLatch r pg bank (off + 4)) (liveVal pg bank (off + 4) s) s.lat.hi } }

/-- The budget registers that a read of BUD_SEQ latches (R322). -/
def isBudget (pg off : Nat) : Bool := pg == pgPwr && 0x1A4 ≤ off && off < 0x1F0

/-- The key of a requester's latch of a budget register. -/
def budKey (r : Requester) (off : Nat) : Nat := reqIdx r * 2 ^ 16 + off

/-- A read of BUD_SEQ latches the other budget registers for the requester. -/
def latchBudget (r : Requester) (s : State) : State :=
  { s with lat := { s.lat with bud := (List.range 19).foldl (fun t i =>
      tabSet (budKey r (0x1A4 + 4 * i)) (liveVal pgPwr 0 (0x1A4 + 4 * i) s) t) s.lat.bud } }

/-- A read of ATT_STS resets a finished code to NONE. -/
def attRead (b : Nat) (s : State) : State :=
  if getFld pgAtt b 0xC 0 3 s = 1 then s else setFld pgAtt b 0xC 0 3 0 s

/-- A read of a register: the value and the state after it. -/
def regRead (r : Requester) (pg bank off : Nat) (s : State) : Word × State :=
  if darkAt pg off s then (darkVal pg bank off s, s)
  else if pg = pgCmp ∧ off = 0x124 then timerPos bank s
  else if isPairHi pg off then
    match tabFind (regLatch r pg bank off) s.lat.hi with
    | some v => (v, { s with lat := { s.lat with hi := tabDel (regLatch r pg bank off) s.lat.hi } })
    | none => (liveVal pg bank off s, s)
  else if isPairLo pg off then (liveVal pg bank off s, latchHi r pg bank off s)
  else if isBudget pg off then ((tabFind (budKey r off) s.lat.bud).getD (liveVal pg bank off s), s)
  else if pg = pgPwr ∧ off = 0x1A0 then (liveVal pg bank off s, latchBudget r s)
  else if pg = pgAtt ∧ off = 0xC then (liveVal pg bank off s, attRead bank s)
  else (liveVal pg bank off s, clearRc pg bank off s)

/-! ## The bus -/

/-- An offset lies in a register page: a block page or a page of a function region (R6). -/
def inPage (r : Requester) (off : Nat) : Bool :=
  let region := fun o => o / 0x1000 < 3 || o / 0x1000 == 8
  match r with
  | .vf _ => off < 0x10000 && region off
  | _ =>
    if off < 0x1000000 then (pageAt (off / 0x1000)).isSome
    else r != .mb && off < 0x1400000 && region (off % 0x10000)

/-- A word of the host port's bulk window. -/
def bulkWord (port off : Nat) (s : State) : Word := w32 (leNat (memRead zeroByte s.mbx.bulk (port * 2 ^ 15 + off) 4))

/-- A read of up to 4 bytes of the host port's bulk window. -/
def bulkRead (off size : Nat) (s : State) : Word := bulkWord 1 off s &&& w32 (256 ^ min size 4 - 1)

/-- A read that is served: a naturally aligned 32-bit one of its register; any other of a register page answers 0 and has no
side effect (R6). The bulk window also gives bytes. -/
def busRead (r : Requester) (off size : Nat) (s : State) : Word × State :=
  match resolve r off s with
  | .bulk o => (bulkRead o size s, s)
  | t =>
    if !(regular off size) then (0, if inPage r off then countIrregular s else s)
    else
      match t with
      | .reg pg bank o => regRead r pg bank o s
      | _ => (0, s)

/-- A read by a requester: its data, or an Unsupported Request. -/
def readRow (r : Requester) (off : Word) (size : Nat) (s : State) : State :=
  if reqServed r s then
    let (v, s) := busRead r off.toNat size s
    emit (.regData r off v) s
  else if linkUp s && (reqFn r).isSome then emit .unsupported (unserved r s)
  else s

end Sys2Proof.Machine
end

