-- ==== Sys2Proof/Machine/RegBus.lean ====
section
/-!
DEFINITION. Register writes (R6 to R11, R442 to R444): what a write of each register does, the held writes of the
register pairs, LOCK_ALL (R448), and the bus that takes a write to its register.
-/
namespace Sys2Proof.Machine

/-! ## LOCK (R10, R378, R448) -/

/-- A driver page (R378). -/
def isDriverPage (pg : Nat) : Bool := pg == pgFe || pg == pgFnc || pg == pgLvn || pg == pgPci || pg == pgHcx

/-- The class of a page in LOCK_EXEMPT (Table 15-2). -/
def lockClass (pg : Nat) : Nat :=
  if 43 ≤ pg ∧ pg < 123 then 0
  else if 27 ≤ pg ∧ pg < 43 then 1
  else if 11 ≤ pg ∧ pg < 27 then 2
  else if 135 ≤ pg ∧ pg < 139 then 3
  else 4

/-- LOCK of a page set. -/
def lockPage (s : State) (pg : Nat) : State := setFld pg 0 0x008 0 1 1 s

/-- A write of LOCK_ALL: every page at once. -/
def lockAllWrite (v : Word) (s : State) : State :=
  if bit v 31 then
    ((List.range 146).filter (fun pg =>
      if isDriverPage pg then bit v 5 else !(bit v (lockClass pg)))).foldl lockPage s
  else s

/-! ## Registers with an effect of their own -/

/-- A write of a register of the common header (Table 18-2). -/
def headerWrite (pg off : Nat) (v : Word) (s : State) : State :=
  if off = 0x008 then (if bit v 0 then lockPage s pg else s)
  else if off = 0x014 then writeMask pg v s
  else if off = 0x018 then clearPend pg v s
  else if off = 0x01C then setPend pg v s
  else if off = 0x020 then clearSticky pg v s
  else writeByType pg 0 off v s

/-- A limit of a sensor: a value above the reset value acts as the reset value (R326). -/
def limitWrite (bank off : Nat) (v : Word) (s : State) : State :=
  let top := fld (resetVal pgPwr bank off) 0 12
  writeByType pgPwr bank off (w32 (if sext 12 top < sext 12 v.toNat then top else v.toNat)) s

/-- A write of a register of PWR (Table 12-7): a write of a cap register is due to be published, whether or not it changes the
register (R317). -/
def pwrWrite (bank off : Nat) (v : Word) (s : State) : State :=
  if off = 0x100 ∨ off = 0x104 ∨ off = 0x108 then
    let s := writeByType pgPwr 0 off v s
    { s with pwr := { s.pwr with oocDue := true } }
  else if off = 0x10C then siteUpdate (writeByType pgPwr 0 off v s)
  else if off = 0x180 then
    let s := writeByType pgPwr 0 off v s
    if bit (getReg pgPwr 0 0x180 s) 7 then s else dropIrq pgPwr 1 s
  else if off = 0x190 ∨ off = 0x194 then limitWrite bank off v s
  else writeByType pgPwr bank off v s

/-- A write of a register of BSN (Table 14-5). -/
def bsnWrite (bank off : Nat) (v : Word) (s : State) : State :=
  if off = 0x104 then srcCfgWrite bank v s
  else if off = 0x110 then (if bit v 15 then srcStsWrite v s else s)
  else if 0x114 ≤ off ∧ off < 0x138 then srcStickyClear ((off - 0x114) / 4) v s
  else if off = 0x148 then errnCtlWrite v s
  else if off = 0x14C then readmitWrite v s
  else writeByType pgBsn bank off v s

/-- A write of a register of RST (Table 13-9). -/
def rstWrite (r : Requester) (off : Nat) (v : Word) (s : State) : State :=
  if off = 0x100 then stateCtlWrite r v s
  else if off = 0x120 then rstCtlWrite r v s
  else if off = 0x124 then domRstWrite v s
  else writeByType pgRst 0 off v s

/-- A write of a register of FE (Table 7-14): COMPAT is fixed while a slot is not FREE. -/
def feWrite (bank off : Nat) (v : Word) (s : State) : State :=
  if off = 0x100 then
    (if (List.range 64).any (fun k => (slotOf k s).state != 0) then s else writeByType pgFe 0 off v s)
  else if off = 0x110 then slotCtlWrite v s
  else writeByType pgFe bank off v s

/-- A write of a register of CMP (Table 10-8, R263, R268). -/
def cmpWrite (c off : Nat) (v : Word) (s : State) : State :=
  if off = 0x108 then (if bit v 0 then channelEnable v s else channelDisable v s)
  else if off = 0x110 then commitArm v s
  else if 0x114 ≤ off ∧ off ≤ 0x120 then (if chEnabled c s then s else writeByType pgCmp c off v s)
  else if 0x200 ≤ off ∧ off < 0x440 then shadowWrite c ((off - 0x200) / 4) v s
  else writeByType pgCmp c off v s

/-- A write of a register of the MMU (Table 6-6, R157). -/
def mmuWrite (bank off : Nat) (v : Word) (s : State) : State :=
  if off = 0x108 then invCtlWrite v s
  else if off = 0x114 then (if bit (getReg pgMmu 0 0x108 s) 31 then s else writeByType pgMmu 0 off v s)
  else if off = 0x134 then fltqCtlWrite v s
  else if off = 0x144 then fltqConsWrite v s
  else writeByType pgMmu bank off v s

/-- Two windows `[b, b + n)` overlap. -/
def windowsMeet (b n b' n' : Nat) : Bool := n != 0 && n' != 0 && b < b' + n' && b' < b + n

/-- A write of a function's window: discarded where it would overlap another's window or pass the end, or while the
function has something in it (R209, R210). -/
def windowWrite (pg f offB offN off : Nat) (limit : Nat) (busy : Bool) (v : Word) (s : State) : State :=
  let s' := writeByType pg f off v s
  let b := (getReg pg f offB s').toNat
  let n := (getReg pg f offN s').toNat
  if busy || (0 < n && limit < b + n) || (List.range 64).any (fun g =>
      g != f && windowsMeet b n (getReg pg g offB s).toNat (getReg pg g offN s).toNat) then s
  else s'

/-- The function owns a VALID fence of its window (R209). -/
def ownsFence (f : Nat) (s : State) : Bool :=
  (windowIdx f s).any (fun i => (fenceGet i s).valid && (fenceGet i s).ownerFunc == f)

/-- The function holds a session that is not FREE (R210). -/
def holdsSession (f : Nat) (s : State) : Bool := (sessWindow f s).any (fun i => sessState i s != 0)

/-- A write of RR_CONS: a value beyond RR_PROD is discarded (Table 7-15). -/
def rrConsWrite (f : Nat) (v : Word) (s : State) : State :=
  let cur := getReg pgFnc f 0x12C s
  if (v - cur).toNat ≤ (getReg pgFnc f 0x128 s - cur).toNat then setReg pgFnc f 0x12C v s else s

/-- A write of a register of FNC (Table 7-15). -/
def fncWrite (f off : Nat) (v : Word) (s : State) : State :=
  if off = 0x110 ∨ off = 0x114 then windowWrite pgFnc f 0x110 0x114 off (fenceCount s) (ownsFence f s) v s
  else if off = 0x11C then rrCtlWrite v s
  else if off = 0x12C then rrConsWrite f v s
  else writeByType pgFnc f off v s

/-- A write of a register of LVN (Table 8-7). -/
def lvnRegWrite (f off : Nat) (v : Word) (s : State) : State :=
  if off = 0x124 ∨ off = 0x128 then windowWrite pgLvn f 0x124 0x128 off 262144 (holdsSession f s) v s
  else writeByType pgLvn f off v s

/-- A write of a register of an HBM controller (Table 5-5): PC_RETIRE is fixed once INIT is set; a cleared VALID frees its
log entry. -/
def hbcWrite (n off : Nat) (v : Word) (s : State) : State :=
  let pg := pgHbc n
  if off = 0x100 then (if bit v 0 then hbmInitWrite n s else s)
  else if off = 0x108 then (if bit (getReg pg 0 0x100 s) 0 then s else writeByType pg 0 off v s)
  else if off = 0x124 ∧ n = 0 then regionInvWrite v s
  else if 0x20C ≤ off then
    let s := writeByType pg 0 off v s
    setFld pg 0 0x114 0 5 (logCount n s) s
  else writeByType pg 0 off v s

/-- A write of a register of PCI (Table 16-10): a root port that is disabled has no link. -/
def pciWrite (off : Nat) (v : Word) (s : State) : State :=
  let s := writeByType pgPci 0 off v s
  if off = 0x108 ∧ selfHosted s ∧ !(bit v 31) then setReg pgPci 0 0x100 1 s else s

/-- A write of a register of SVL0's domain and rings (Table 17-9). -/
def svl0Write (r : Requester) (bank off : Nat) (v : Word) (s : State) : State :=
  if off = 0x200 then domCtlWrite r v s
  else if off = 0x220 then lrCtlWrite v s
  else if off = 0x224 then lrProdWrite v s
  else if off = 0x238 then
    let s := if bit v 0 then lrResume s else s
    if bit v 1 then lrReset s else s
  else writeByType (pgSvl 0) bank off v s

/-- OBJ_OP of a function (R199): a reserved OP answers INVALID. -/
def objOpWrite (r : Requester) (f : Nat) (v : Word) (s : State) : State :=
  match fld v 0 3 with
  | 0 => objAcquire r f v s
  | 1 => objRelease r f v s
  | 2 => objSignal r f v s
  | 3 => objReset r f v s
  | 4 => objCreate r f v s
  | op => objOp r f v op (fun gen s => (1, gen, s)) s

/-- A write of a register of a function's FN page (Table 18-6). -/
def fnWrite (r : Requester) (f off : Nat) (v : Word) (s : State) : State :=
  if off = 0x110 then qCmdWrite f v s
  else if off = 0x118 then ctxKillWrite f v s
  else if off = 0x11C then compatDoorbell f v s
  else if off = 0x124 then objOpWrite r f v s
  else writeByType pgFn f off v s

/-- A write of a vector's entry: a pending vector that is unmasked is sent (R398). -/
def msixWrite (f off : Nat) (v : Word) (s : State) : State :=
  let s := writeByType pgMsix f off v s
  let vec := off / 16
  let pba := 4 * (vec / 32)
  if off % 16 = 12 ∧ !(bit v 0) ∧ bit (getReg pgPba f pba s) (vec % 32) && !(tabGet false f s.pci.muted) then
    sendMsix f vec (setReg pgPba f pba (getReg pgPba f pba s &&& ~~~ (oneBit (vec % 32))) s)
  else s

/-- The function of an attestation block: block 64 is the SEC page's (R385). -/
def blockFn (b : Nat) : Nat := if b = 64 then 0 else b

/-- A write of a register whose page is not dark, pairs apart. -/
def regWrite (r : Requester) (pg bank off : Nat) (v : Word) (s : State) : State :=
  if pg < 146 ∧ off < 0x040 then headerWrite pg off v s
  else if pg = pgGlb then (if off = 0x180 then lockAllWrite v s else writeByType pgGlb 0 off v s)
  else if pg = pgPwr then pwrWrite bank off v s
  else if pg = pgBsn then bsnWrite bank off v s
  else if pg = pgSec then
    (if off = 0x108 then svnAdvWrite r v s else if off = 0x12C then measExtWrite r v s else writeByType pgSec 0 off v s)
  else if pg = pgAna then
    (if 0x128 ≤ off ∧ off < 0x138 then cmpCfgWrite ((off - 0x128) / 4) v s else writeByType pgAna 0 off v s)
  else if pg = pgRst then rstWrite r off v s
  else if 43 ≤ pg ∧ pg < 123 ∧ off = 0x420 then meInjWrite (pg - 43) v s
  else if pg = pgFe then feWrite bank off v s
  else if pg = pgCmp then cmpWrite bank off v s
  else if pg = pgMmu then mmuWrite bank off v s
  else if 129 ≤ pg ∧ pg < 133 ∧ off = 0x100 then resumeWrite (pg - 129) v s
  else if pg = pgLvn then lvnRegWrite bank off v s
  else if pg = pgFnc then fncWrite bank off v s
  else if 135 ≤ pg ∧ pg < 139 then hbcWrite (pg - 135) off v s
  else if pg = pgPci then pciWrite off v s
  else if 141 ≤ pg ∧ pg < 145 ∧ off = 0x104 then portCtlWrite (pg - 141) v s
  else if pg = pgSvl 0 ∧ 0x200 ≤ off then svl0Write r bank off v s
  else if pg = pgHcx ∧ off = 0x100 then hartCtlWrite v s
  else if pg = pgFn then fnWrite r bank off v s
  else if pg = pgAtt ∧ off = 0x8 then attCtlWrite bank (blockFn bank) v s
  else if pg = pgMsix then msixWrite bank off v s
  else writeByType pg bank off v s

/-! ## Pairs (R8) -/

/-- The condition under which a chapter discards a write of the pair, judged when _HI is written (R157, R165, R231, Table
7-15). -/
def pairFixed (pg bank off : Nat) (s : State) : Bool :=
  (pg == pgMmu && off == 0x10C && bit (getReg pgMmu 0 0x108 s) 31) ||
  (pg == pgMmu && off == 0x138 && bit (getReg pgMmu bank 0x134 s) 0) ||
  (pg == pgLvn && (off == 0x108 || off == 0x110) && bit (getReg pgLvn 0 0x100 s) 0) ||
  (pg == pgFnc && off == 0x120 && bit (getReg pgFnc bank 0x11C s) 0)

/-- A _LO write is held for the requester; a later one replaces it. -/
def holdLo (r : Requester) (pg bank off : Nat) (v : Word) (s : State) : State :=
  { s with lat := { s.lat with lo := tabSet (regLatch r pg bank off) v s.lat.lo } }

/-- The held _LO write of a requester is dropped. -/
def dropLo (r : Requester) (pg bank off : Nat) (s : State) : State :=
  { s with lat := { s.lat with lo := tabDel (regLatch r pg bank off) s.lat.lo } }

/-- Writes discarded under R444, counted. -/
def gatedWrites (n : Nat) (s : State) : State := addFld pgGlb 0 0x10C 0 32 n s

/-- A _HI write: both halves in one step, or neither; with no held _LO write, _HI alone. Where the register is dark as _HI is
written, the halves that were written are discarded and counted (R8, R444). -/
def pairWrite (r : Requester) (pg bank off : Nat) (v : Word) (s : State) : State :=
  let lo := tabFind (regLatch r pg bank (off - 4)) s.lat.lo
  let s := dropLo r pg bank (off - 4) s
  if darkAt pg off s then gatedWrites (1 + lo.toList.length) s
  else if pairFixed pg bank (off - 4) s then s
  else
    let s := match lo with
      | some w => writeByType pg bank (off - 4) w s
      | none => s
    writeByType pg bank off v s

/-- A 32-bit write to a register: discarded and counted where the register is dark (R444). A _LO write is held in any case: a
pair's condition is judged as _HI is written (R8). -/
def regBusWrite (r : Requester) (pg bank off : Nat) (v : Word) (s : State) : State :=
  if isPairLo pg off then holdLo r pg bank off v s
  else if isPairHi pg off then pairWrite r pg bank off v s
  else if darkAt pg off s then gatedWrites 1 s
  else regWrite r pg bank off v s

/-! ## The bus -/

/-- A native doorbell on the bus (R453). -/
def doorbellWrite (f slot q : Nat) (v : Word) (s : State) : State :=
  if dark pgFn s then count32 pgGlb 0 0x10C s else doorbell f slot q v s

/-- A write that is served: a naturally aligned 32-bit one to its register; the bulk window also takes bytes. -/
def busWrite (r : Requester) (off size : Nat) (v : Word) (s : State) : State :=
  match resolve r off s with
  | .bulk o => if size ≤ 4 then bulkPut 1 o (toLE size v.toNat) s else s
  | t =>
    if !(regular off size) then (if inPage r off then countIrregular s else s)
    else
      match t with
      | .reg pg bank o => regBusWrite r pg bank o v s
      | .doorbell f slot q => doorbellWrite f slot q v s
      | _ => s

/-- A write by a requester. -/
def writeRow (r : Requester) (off : Word) (size : Nat) (v : Word) (s : State) : State :=
  if reqServed r s then busWrite r off.toNat size v s else unserved r s

end Sys2Proof.Machine
end

