-- ==== Sys2Proof/Machine/Boot.lean ====
section
/-!
DEFINITION. The boot timeline after the boot ROM has read the image: verification, recovery, HBM, the site configuration
record, the locks, READY (R143, R344 to R347, R374, R375, R377, R378, R383, R450).
-/
namespace Sys2Proof.Machine

/-- STAGE set. -/
def setStage (n : Nat) (s : State) : State := setFld pgRst 0 0x12C 0 4 n s

/-- A range of power domains switched on, but for the fenced ones (R361). -/
def powerOn (ds : List Nat) (s : State) : State := ds.foldl (fun s d => if domFenced d s then s else ungateDomain d s) s

/-! ## Verification (R345, R346, R375, R377) -/

/-- The boot ROM runs in lockstep, with the FE domain powered (events 2 and 3); it reads the flash in 8D-8D-8D mode and
measures the part in slot 0. DUMMY is what the flash's SFDP gives, which the manual does not: it is free. -/
def romReads (s : State) : State :=
  let (f, s) := takeFree s
  let s := setFld pgXsp 0 0x100 0 8 f s
  let s := setFld pgXsp 0 0x104 0 1 1 (setFld pgYns 0 0x100 1 1 1 (powerOn [105] (setStage 2 s)))
  let rom := getFld pgYns 0 0x100 8 8 s
  measExtend 0 (toLE 1 (lifecycle s) ++ toLE 1 rom ++ toLE 2 (fld (resetVal pgSec 0 0x104) 0 4 + svnFused s * 2 ^ 8)) s

/-- Event 6: segment 0 runs. Its manifest and segment 0 are measured in slots 1 and 2; the PCIe controller and the other
uncore domains are powered. -/
def firmwareRuns (m : List Byte) (s : State) : State :=
  let s := measExtend 2 (segHash m 0) (measExtend 1 (Config.shake256 (fitBytes 2048 m)) s)
  let s := setFld pgSec 0 0x100 8 2 (manRoot m) (setReg pgYns 0 0x104 (manVer m) (setFld pgYns 0 0x100 0 2 3 s))
  setStage 3 (powerOn ((List.range 24).map (· + 96)) { s with sec := { s.sec with manifest := fitBytes 2048 m } })

/-- A failed verification: BOOT_ERR, VERIFY_ERR, and STAGE = RECOVERY; in hosted mode the PCIe controller also takes a
replacement (R346). -/
def recovery (code : Nat) (s : State) : State :=
  let s := setFld pgYns 0 0x100 0 1 0 (addFld pgRst 0 0x12C 8 8 1 (bootError code s))
  setStage 7 (if selfHosted s then s else powerOn [115] s)

/-- BOOT_VERIFY_COMPLETE. -/
def bootVerify (s : State) : State :=
  if s.rst.held || 2 < stage s then s
  else
    let s := romReads s
    match verifyImage (fun a n => flashBytes a n s) s with
    | 0 => firmwareRuns (flashBytes 0 2048 s) s
    | code => recovery code s

/-! ## HBM (Table 13-6, event 8; R143, R375, R450) -/

/-- Every stack is READY. -/
def allReady (s : State) : Bool := (List.range 4).all (fun n => bit (getReg (pgHbc n) 0 0x104 s) 0)

/-- HBM_MIB: 98,304 MiB less 768 MiB for each pseudo-channel retired (R143). -/
def hbmMib (s : State) : Nat := 98304 - 768 * ((List.range 4).map (fun n => retiredCount n s)).sum

/-- A segment loaded to its TARGET as its bytes are read; false where its HASH does not match. -/
def loadSegment (rd : Nat → Nat → List Byte) (m : List Byte) (k : Nat) (s : State) : Bool × State :=
  let bs := rd (segOff m k) (segLen m k)
  (Config.shake256 bs == segHash m k, hbmPut (segTarget m k) bs s)

/-- Segments loaded in order up to the first mismatch. -/
def loadSegments (rd : Nat → Nat → List Byte) (m : List Byte) (ks : List Nat) (s : State) : Bool × State :=
  ks.foldl (fun r k => if r.1 then loadSegment rd m k r.2 else r) (true, s)

/-- Event 8 ends, every segment in place: slot 3 takes their hashes in manifest order, the enabled cores and the clusters
are powered, and firmware goes on to event 9. -/
def segmentsDone (m : List Byte) (s : State) : State :=
  let ks := ((List.range (manSegs m)).filter (· != 0))
  let s := ks.foldl (fun s k => measExtend 3 (segHash m k) s) s
  let cores := (List.range 80).filter (fun p => (logicalOf p s).isSome)
  powerOn (cores ++ (List.range 16).map (· + 80)) { s with rst := { s.rst with loaded := true } }

/-- Event 8 for the image in flash. -/
def loadFromFlash (s : State) : State :=
  let m := s.sec.manifest
  let ks := ((List.range (manSegs m)).filter (· != 0))
  let (ok, s) := loadSegments (fun a n => flashBytes a n s) m ks s
  if ok then segmentsDone m s else recovery 7 s

/-- Bytes of a received image. -/
def sessionBytes (i : ImgSession) (a n : Nat) : List Byte := (i.got.drop a).take n

/-- The segments above 0 whose last byte lies in `(old, new]` of a received image; `old` = 0 takes an empty prefix in. -/
def segsArrived (m : List Byte) (old new : Nat) : List Nat :=
  (List.range (manSegs m)).filter (fun k =>
    k != 0 && segOff m k + segLen m k ≤ new && (old == 0 || old < segOff m k + segLen m k))

/-- A mismatch in a received segment: code 7, and recovery starts again; the session closes. -/
def sessionFails (s : State) : State := recovery 7 { s with mbx := { s.mbx with img := none } }

/-- A replacement loads the segments that have arrived since its image held `old` bytes; with the last, BOOT_STS.RECOVERED
(R346, R415). -/
def loadArrived (old : Nat) (i : ImgSession) (s : State) : State :=
  let m := s.sec.manifest
  let (ok, s) := loadSegments (sessionBytes i) m (segsArrived m old i.got.length) s
  if !ok then sessionFails s
  else if !s.rst.loaded && (List.range (manSegs m)).all (fun k => segOff m k + segLen m k ≤ i.got.length) then
    setFld pgRst 0 0x12C 5 1 1 (segmentsDone m s)
  else s

/-- Event 8 once every stack is READY. -/
def hbmLoaded (s : State) : State :=
  if stage s ≠ 4 ∨ s.rst.loaded = true then s
  else
    match s.mbx.img with
    | some i => if i.recovery then loadArrived 0 i s else loadFromFlash s
    | none => loadFromFlash s

/-- HBM_READY: a stack finishes the training that INIT started. -/
def hbmReady (n : Nat) (s : State) : State :=
  if s.rst.held || dark (pgHbc n) s || !(bit (getReg (pgHbc n) 0 0x100 s) 0) || bit (getReg (pgHbc n) 0 0x104 s) 0 then s
  else
    let s := setFld (pgHbc n) 0 0x104 0 1 1 s
    if allReady s then hbmLoaded (setReg pgCap 0 0x114 (w32 (hbmMib s)) s) else s

/-! ## The site configuration record (R347) -/

/-- The two copies. -/
def siteCopy (c : Nat) : Nat := 0x1D00000 + c * 0x10000

/-- A record's CRC: of bytes 0x0 to 0xB, then the entries. -/
def siteCrc (rd : Nat → Nat → List Byte) : Nat :=
  (crc32c (rd 0 12 ++ rd 16 (8 * leAt (rd 0 16) 4 4))).toNat

/-- MAGIC and COUNT are in range and the CRC matches. -/
def siteOk (rd : Nat → Nat → List Byte) : Bool :=
  let h := rd 0 16
  leAt h 0 4 == 0x53434647 && leAt h 4 4 ≤ 4094 && leAt h 12 4 == siteCrc rd

/-- A copy in flash. -/
def siteRead (c : Nat) (s : State) (a n : Nat) : List Byte := flashBytes (siteCopy c + a) n s

/-- SEQ of a copy. -/
def siteSeq (c : Nat) (s : State) : Nat := leAt (siteRead c s 8 4) 0 4

/-- The valid copy that boot takes: the larger SEQ, or the first copy of two equals. -/
def sitePick (s : State) : Option Nat :=
  match siteOk (siteRead 0 s), siteOk (siteRead 1 s) with
  | true, true => some (if siteSeq 0 s < siteSeq 1 s then 1 else 0)
  | true, false => some 0
  | false, true => some 1
  | false, false => none

/-- The pages that a record covers: PWR, BSN, ANA, CST, RST, SDI, WEIR n and SVL n. -/
def isSitePage (pg : Nat) : Bool :=
  [pgPwr, pgBsn, pgAna, pgCst, pgRst, pgSdi].contains pg || (11 ≤ pg && pg < 27) || (141 ≤ pg && pg < 145)

/-- An OFFSET in those pages. -/
def siteCovers (off : Nat) : Bool :=
  off < 0x1000000 && (match pageAt (off / 0x1000) with | some pg => isSitePage pg | none => false)

/-- One entry: APPLIED and SKIPPED so far. A write that resets the device ends the boot it belongs to. -/
def siteEntry (r : Nat × Nat × State) (e : Nat × Word) : Nat × Nat × State :=
  let (a, k, s) := r
  if stage s ≠ 5 then r
  else if siteCovers e.1 then (a + 1, k, busWrite .yns e.1 4 e.2 s)
  else (a, k + 1, s)

/-- The entries of a copy. -/
def siteEntries (c : Nat) (s : State) : List (Nat × Word) :=
  (List.range (leAt (siteRead c s 4 4) 0 4)).map (fun e =>
    (leAt (siteRead c s (0x10 + 8 * e) 4) 0 4, w32 (leAt (siteRead c s (0x14 + 8 * e) 4) 0 4)))

/-- The record applied, and SCFG_STS. -/
def siteApply (s : State) : State :=
  match sitePick s with
  | none => setReg pgYns 0 0x108 0 s
  | some c =>
    let (a, k, s) := (siteEntries c s).foldl siteEntry (0, 0, s)
    if stage s ≠ 5 then s else setReg pgYns 0 0x108 (w32 (1 + c * 2 + a * 2 ^ 4 + k * 2 ^ 16)) s

/-! ## The fault log (Table 13-8, R366) -/

/-- The stop record at AON offset 0x1_FFC0: its CRC leaves out its own field. -/
def stopAddr : Nat := 0x1FFC0

/-- A record of the fault log holds its CRC. -/
def logValid (b : List Byte) : Bool := leAt b 8 4 == (crc32c (b.take 8 ++ (b.drop 12).take 52)).toNat

/-- The slots of the log's region, and the flash address of one. -/
def logSlots : Nat := 0x800000 / 64
def logAddr (r : Nat) : Nat := 0x1100000 + 64 * r

/-- After a reset with cause 3, firmware copies the stop record to the first slot of the log that holds none. -/
def copyStop (s : State) : State :=
  let b := aonBytes stopAddr 64 s
  if getFld pgRst 0 0x128 0 4 s ≠ 3 then s
  else
    match (List.range logSlots).find? (fun r => !(logValid (flashBytes (logAddr r) 64 s))) with
    | some r => cstQueue .log [.prog (logAddr r) b] s
    | none => s

/-! ## READY (R345, R378) -/

/-- The pages that firmware locks before READY: not the driver pages, not the classes that the manifest exempts, and not the
site's pages where there is no valid record. -/
def bootLocks (s : State) : List Nat :=
  let ex := manExempt s.sec.manifest
  let site := bit (getReg pgYns 0 0x108 s) 0
  (List.range 146).filter (fun pg =>
    !(isDriverPage pg) && !(ex / 2 ^ lockClass pg % 2 == 1) && (site || !(isSitePage pg)))

/-- BOOT_STAGE_READY: firmware has applied the site record, read the reservations, set its locks; STAGE = READY. -/
def bootReady (s : State) : State :=
  if s.rst.held || !((stage s == 4 && s.rst.loaded) || stage s == 5) then s
  else
    let s := siteApply (setStage 5 s)
    if stage s ≠ 5 then s
    else
      let s := copyStop (resBoot s)
      let s := (bootLocks s).foldl lockPage s
      setReg pgRst 0 0x130 (w32 s.rst.bootUs) (setStage 6 s)

/-! ## Meanings -/

/-- BOOT_VERIFY_COMPLETE (R375). -/
def execBootVerifyComplete (s : State) : Out := toNext (bootVerify s)

/-- HBM_READY (R143). -/
def execHbmReady (n : Fin 4) (s : State) : Out := toNext (hbmReady n.val s)

/-- BOOT_STAGE_READY (R345). -/
def execBootStageReady (s : State) : Out := toNext (bootReady s)

end Sys2Proof.Machine
end

