-- ==== Sys2Proof/Machine/Mailbox.lean ====
section
/-!
DEFINITION. The management mailbox: the two ports, the commands of Table 16-9, image transfer (R346, R347, R412 to R415).
-/
namespace Sys2Proof.Machine

/-! ## Ports (R412, R413) -/

/-- A request as it stands in a port. -/
structure MbCall where
  op : Nat
  len : Nat
  tag : Word
  arg0 : Nat
  arg1 : Nat
  payload : List Byte
deriving DecidableEq, Repr

/-- A response. -/
structure MbReply where
  status : Nat
  res0 : Word := 0
  res1 : Word := 0
  payload : List Byte := []
deriving DecidableEq, Repr

/-- A byte of a port's request or response area. -/
def areaByte (p : MbPort) (off : Nat) (s : State) : Byte :=
  BitVec.ofNat 8 (getFld pgMb (portIdx p) (off / 4 * 4) (off % 4 * 8) 8 s)

/-- Bytes of a port's area. -/
def areaBytes (p : MbPort) (off n : Nat) (s : State) : List Byte := (List.range n).map (fun i => areaByte p (off + i) s)

/-- Bytes written to a port's area. -/
def areaPut (p : MbPort) : Nat → List Byte → State → State
  | _, [], s => s
  | off, b :: t, s => areaPut p (off + 1) t (setFld pgMb (portIdx p) (off / 4 * 4) (off % 4 * 8) 8 b.toNat s)

/-- A word of a port. -/
def mbWord (p : MbPort) (off : Nat) (v : Word) (s : State) : State := setReg pgMb (portIdx p) off v s

/-- Bytes of a port's bulk window. -/
def bulkBytes (p : MbPort) (off n : Nat) (s : State) : List Byte :=
  memRead zeroByte s.mbx.bulk (portIdx p * 2 ^ 15 + off) n

/-- A command's request placed in its port: header, payload, and the data in the bulk window. -/
def placeReq (p : MbPort) (q : MbReq) (s : State) : State :=
  let s := mbWord p 0x100 (w32 (q.op.toNat + q.rsv.toNat * 2 ^ 8 + q.len.toNat * 2 ^ 16)) s
  let s := mbWord p 0x10C q.arg1 (mbWord p 0x108 q.arg0 (mbWord p 0x104 q.tag s))
  bulkPut (portIdx p) 0 (q.bulk.take 32768) (areaPut p 0x110 (q.payload.take 1008) s)

/-- The request that stands in a port. -/
def mbCall (p : MbPort) (s : State) : MbCall :=
  let h := getReg pgMb (portIdx p) 0x100 s
  let len := fld h 16 16
  { op := fld h 0 8, len := len, tag := getReg pgMb (portIdx p) 0x104 s,
    arg0 := (getReg pgMb (portIdx p) 0x108 s).toNat, arg1 := (getReg pgMb (portIdx p) 0x10C s).toNat,
    payload := areaBytes p 0x110 (min len 1008) s }

/-- The notice of DONE: the host port's vector, the SDIO function's interrupt (Tables 16-6, 16-7). -/
def notifyDone (p : MbPort) (s : State) : State :=
  match p with
  | .host =>
    if bit (getReg pgMb 1 0x008 s) 0 then sendMsix 0 (getFld pgMb 1 0x008 16 11 s) s else s
  | .sdio => if s.bsn.attnEn.getLsbD 2 then emit .sdioIrq s else s

/-- The response written whole; BUSY 0, DONE 1 and STATUS. -/
def respond (p : MbPort) (c : MbCall) (r : MbReply) (s : State) : State :=
  let s := mbWord p 0x500 (w32 (c.op + r.status * 2 ^ 8 + r.payload.length * 2 ^ 16)) s
  let s := mbWord p 0x50C r.res1 (mbWord p 0x508 r.res0 (mbWord p 0x504 c.tag s))
  let s := areaPut p 0x510 r.payload s
  notifyDone p (mbWord p 0x004 (w32 (2 + r.status * 2 ^ 8)) s)

/-- The port can carry a request: SDIO answers from boot event 2 in every state but OFF; the host port needs the PF's link,
or the CPU complex in self-hosted mode (R410, R412). -/
def portServed (p : MbPort) (s : State) : Bool :=
  !s.rst.held && devState s != 3 &&
  match p with
  | .sdio => stage s != 0
  | .host => if selfHosted s then !(dark pgHcx s) else linkUp s && fnServed 0 s

/-! ## Availability (R414, Table 16-9) -/

/-- The opcode is one of Table 16-9. -/
def knownOp (op : Nat) : Bool := 1 ≤ op && op ≤ 0x0F

/-- Firmware serves. -/
def fwStage (s : State) : Bool := 3 ≤ stage s && stage s ≤ 6

/-- Availability of a command. -/
def opAvailable (op : Nat) (s : State) : Bool :=
  if op = 0x01 ∨ op = 0x0E then true
  else if op = 0x07 ∨ op = 0x08 then stage s == 6
  else if op = 0x0B then stage s == 7 || stage s == 6
  else if op = 0x0C then stage s == 7 || fwStage s
  else fwStage s

/-- The write-class commands. -/
def writeClass (op : Nat) : Bool := [0x04, 0x05, 0x06, 0x0A, 0x0B, 0x0C, 0x0D, 0x0F].contains op

/-- The commands that SLEEP also serves; READ_REG only for AON pages. -/
def servedAsleep (op : Nat) : Bool := [0x01, 0x02, 0x03, 0x05, 0x06, 0x0E].contains op

/-- A command on the SDIO port that SDI_CTL does not permit. -/
def sdioDenied (p : MbPort) (op : Nat) (s : State) : Bool :=
  p == .sdio && writeClass op &&
  (!(bit (getReg pgSdi 0 0x100 s) 0) ||
    (stage s == 6 && (op == 0x0B || op == 0x0C || op == 0x0D) && !(bit (getReg pgSdi 0 0x100 s) 1)))

/-- The status that turns a request away before its arguments are looked at. -/
def mbCheck (p : MbPort) (c : MbCall) (s : State) : Option Nat :=
  if !(knownOp c.op) then some 1
  else if devState s = 2 ∧ !(servedAsleep c.op) then some 6
  else if !(opAvailable c.op s) then some 5
  else if sdioDenied p c.op s then some 3
  else if 1008 < c.len then some 2
  else none

/-! ## Information and registers -/

/-- Words as bytes. -/
def wordBytes (ws : List Word) : List Byte := (ws.map (fun w => toLE 4 w.toNat)).flatten

/-- A register's value as Yunanos reports it. -/
def yReg (pg off : Nat) (s : State) : Word := liveVal pg 0 off s

/-- GET_INFO. -/
def mbInfo (s : State) : MbReply :=
  { status := 0, payload := fitBytes 32 (Config.shake256 Config.identityKey) ++
      wordBytes [yReg pgYns 0x104 s, yReg pgRst 0x12C s, yReg pgRst 0x104 s, yReg pgRst 0x128 s, yReg pgSec 0x100 s,
        yReg pgCap 0x12C s] }

/-- GET_TELEMETRY. -/
def mbTelemetry (s : State) : MbReply :=
  { status := 0, payload := wordBytes (
      (List.range 32).map (fun i => liveVal pgPwr i 0x18C s) ++
      [yReg pgPwr 0x110 s, yReg pgPwr 0x130 s, yReg pgPwr 0x134 s] ++
      (List.range 8).map (fun i => yReg pgPwr (0x140 + 4 * i) s) ++
      (List.range 9).map (fun i => yReg pgBsn (0x114 + 4 * i) s) ++
      (List.range 4).map (fun i => yReg pgBsn (0x150 + 4 * i) s)) }

/-- The page that a register-space offset names, if it lies in the block pages. -/
def mbPage (off : Nat) : Option Nat := if off < 0x1000000 then pageAt (off / 0x1000) else none

/-- The page's domain is off in the device state. -/
def pageAsleep (off : Nat) (s : State) : Bool :=
  match mbPage off with
  | some pg => (devState s == 2 && pageDomain pg != 120) || (devState s == 1 && pageDomain pg < 96)
  | none => false

/-- READ_REG. -/
def mbReadReg (off : Nat) (s : State) : MbReply × State :=
  if 0x1000000 ≤ off then ({ status := 3 }, s)
  else if pageAsleep off s then ({ status := 6 }, s)
  else
    let (v, s) := busRead .mb off 4 s
    ({ status := 0, res0 := v }, s)

/-- WRITE_REG. -/
def mbWriteReg (off : Nat) (v : Word) (s : State) : MbReply × State :=
  match mbPage off with
  | some pg =>
    if [pgPwr, pgBsn, pgRst, pgAna, pgCst, pgSdi].contains pg then ({ status := 0 }, busWrite .mb off 4 v s)
    else ({ status := 3 }, s)
  | none => ({ status := 3 }, s)

/-- SET_STATE. -/
def mbSetState (t : Nat) (s : State) : MbReply × State :=
  if 3 < t then ({ status := 2 }, s)
  else if bit (getReg pgRst 0 0x100 s) 31 then ({ status := 4, res0 := yReg pgRst 0x104 s }, s)
  else
    let s := stateCtlWrite .yns (w32 (t + 2 ^ 31)) s
    ({ status := 0, res0 := yReg pgRst 0x104 s }, s)

/-! ## Security and the log -/

/-- GET_CERT. -/
def mbCert (p : MbPort) (off : Nat) (s : State) : MbReply × State :=
  let c := Config.certificate
  if c.length < off then ({ status := 2 }, s)
  else
    let bs := (c.drop off).take 32768
    ({ status := 0, res0 := w32 c.length, res1 := w32 bs.length }, bulkPut (portIdx p) 0 bs s)

/-- A port's pending operation is still running. -/
def pendRuns (p : MbPort) (s : State) : Bool :=
  match tabFind (portIdx p) s.mbx.pend with
  | some (.running _ _) => true
  | _ => false

/-- An operation of a port starts: PENDING, with the bytes that its progress counts up to. -/
def mbPends (p : MbPort) (op total : Nat) (s : State) : MbReply × State :=
  ({ status := 7 }, { s with mbx := { s.mbx with pend := tabSet (portIdx p) (.running op total) s.mbx.pend } })

/-- ATTEST. -/
def mbAttest (p : MbPort) (c : MbCall) (s : State) : MbReply × State :=
  if c.len ≠ 96 then ({ status := 2 }, s)
  else if pendRuns p s || 16 ≤ attWaiting s then ({ status := 4 }, s)
  else if signOff s then ({ status := 8, res0 := 5 }, s)
  else
    let a : AttReq := { block := 65 + portIdx p, slot := 64, fn := 64, addr := 0, irq := false, vec := 0,
                        data := c.payload }
    mbPends p 0x08 0 { s with sec := { s.sec with queue := s.sec.queue ++ [a] } }

/-- The valid records of the fault log, in the order of their slots; a record whose check fails is discarded (R351). -/
def logRecords (s : State) : List (List Byte) :=
  ((List.range logSlots).map (fun r => flashBytes (logAddr r) 64 s)).filter logValid

/-- READ_LOG. -/
def mbReadLog (p : MbPort) (first : Nat) (s : State) : MbReply × State :=
  let rs := ((logRecords s).drop first).take 512
  ({ status := 0, res0 := w32 rs.length }, bulkPut (portIdx p) 0 rs.flatten s)

/-- DEBUG_TOKEN. -/
def mbToken (p : MbPort) (n : Nat) (s : State) : MbReply × State :=
  if 32768 < n then ({ status := 2 }, s)
  else
    let s := debugToken (bulkBytes p 0 n s) s
    ({ status := 0, res0 := yReg pgSec 0x190 s }, s)

/-! ## Image transfer (R415) -/

/-- The session set. -/
def setImg (i : Option ImgSession) (s : State) : State := { s with mbx := { s.mbx with img := i } }

/-- A port's pending operation forgotten. -/
def dropPend (p : MbPort) (s : State) : State :=
  { s with mbx := { s.mbx with pend := tabDel (portIdx p) s.mbx.pend } }

/-- IMG_BEGIN: a repeated one on the session's port starts it again, unless the image is being committed. -/
def imgOpen (p : MbPort) (n : Nat) (s : State) : MbReply × State :=
  let other := match s.mbx.img with | some i => i.port != p || i.phase == 3 | none => false
  if other then ({ status := 4 }, s)
  else if n = 0 ∨ 0x1000000 < n then ({ status := 2 }, s)
  else
    let s := if s.mbx.img.isSome then dropPend p s else s
    ({ status := 0 }, setImg (some { port := p, len := n, got := [], recovery := stage s == 7 }) s)

/-- A chunk meets the conditions of R415. -/
def chunkOk (i : ImgSession) (off n : Nat) : Bool :=
  off == i.got.length && 1 ≤ n && n ≤ 32768 && (n % 4 == 0 || off + n == i.len) && off + n ≤ i.len

/-- The manifest, the signature and segment 0 have arrived, or the image has ended. -/
def seg0Arrived (i : ImgSession) : Bool :=
  let n := i.got.length
  n == i.len || (0x800 + 2820 ≤ n && segOff i.got 0 + segLen i.got 0 ≤ n)

/-- A session that the running replacement owns waits for HBM. -/
def imgWaits (i : ImgSession) (s : State) : Bool := i.recovery && stage s != 7 && !(allReady s)

/-- IMG_CHUNK for the session of the port. -/
def imgTake (p : MbPort) (i : ImgSession) (off n : Nat) (s : State) : MbReply × State :=
  if i.phase ≠ 0 || imgWaits i s then ({ status := 4 }, s)
  else if !(chunkOk i off n) then ({ status := 2 }, s)
  else
    let j := { i with got := i.got ++ bulkBytes p 0 n s }
    if stage s = 7 then
      if seg0Arrived j then mbPends p 0x0C 0 (setImg (some { j with phase := 1 }) s)
      else ({ status := 0 }, setImg (some j) s)
    else if i.recovery then
      let s := loadArrived off j (setImg (some j) s)
      if s.mbx.img.isNone then ({ status := 8, res0 := 7 }, s) else ({ status := 0 }, s)
    else ({ status := 0 }, setImg (some j) s)

/-- IMG_CHUNK. -/
def imgData (p : MbPort) (off n : Nat) (s : State) : MbReply × State :=
  match s.mbx.img with
  | none => ({ status := 2 }, s)
  | some i => if i.port ≠ p then ({ status := 4 }, s) else imgTake p i off n s

/-- IMG_END: the whole image must have arrived. -/
def imgClose (p : MbPort) (commit : Bool) (s : State) : MbReply × State :=
  match s.mbx.img with
  | none => ({ status := 2 }, s)
  | some i =>
    if i.port ≠ p ∨ i.phase ≠ 0 ∨ imgWaits i s = true ∨ pendRuns p s = true then ({ status := 4 }, s)
    else if i.got.length ≠ i.len then ({ status := 2 }, s)
    else mbPends p 0x0D i.len (setImg (some { i with phase := 2, commit := commit }) s)

/-- The code of a whole image's verification. -/
def wholeCode (i : ImgSession) (s : State) : Nat :=
  match verifyImage (sessionBytes i) s with
  | 0 => if badSegs (sessionBytes i) i.got = [] then 0 else 7
  | code => code

/-- Segment 0 of a replacement has been verified: it runs, or it is discarded. -/
def seg0Verified (i : ImgSession) (s : State) : State :=
  match verifyImage (sessionBytes i) s with
  | 0 =>
    let s := firmwareRuns i.got (setImg (some { i with phase := 0 }) s)
    let s := pendFinal i.port 0x0C 0 0 (if allInit s then setStage 4 s else s)
    if allReady s then hbmLoaded s else s
  | code => pendFinal i.port 0x0C 8 (w32 code) (recovery code (setImg none s))

/-- A whole image has been verified. -/
def wholeVerified (i : ImgSession) (s : State) : State :=
  match wholeCode i s with
  | 0 =>
    if i.commit then cstQueue (.image i.port) (writeUnits 0 i.got) (setImg (some { i with phase := 3 }) s)
    else pendFinal i.port 0x0D 0 0 (setImg none s)
  | code => pendFinal i.port 0x0D 8 (w32 code) (addFld pgRst 0 0x12C 8 8 1 (bootError code (setImg none s)))

/-- IMAGE_VERIFY_COMPLETE. -/
def imageVerified (s : State) : State :=
  match s.mbx.img with
  | none => s
  | some i => if i.phase = 1 then seg0Verified i s else if i.phase = 2 then wholeVerified i s else s

/-- IMAGE_COMMIT_COMPLETE: the last unit of the image has ended. -/
def imageCommitted (s : State) : State :=
  match s.mbx.img with
  | none => s
  | some i =>
    if i.phase = 3 ∧ ownerUnits (.image i.port) s = 0 then pendFinal i.port 0x0D 0 0 (setImg none s) else s

/-! ## POLL and SET_SITE_CFG -/

/-- Bytes that an owner's page programs still have to write. -/
def bytesWaiting (o : FlashOwner) (s : State) : Nat :=
  ((s.cst.queue.filter (fun e => e.2 == o)).map (fun e => match e.1 with | .prog _ bs => bs.length | .erase _ => 0)).sum

/-- The progress of a running operation in bytes; of one that writes no flash the manual gives none. -/
def progress (p : MbPort) (op total : Nat) (s : State) : Word × State :=
  let committing := match s.mbx.img with | some i => i.port == p && i.phase == 3 | none => false
  if op = 0x0D ∧ committing = true then (w32 (total - bytesWaiting (.image p) s), s)
  else if op = 0x0F then (w32 (total - bytesWaiting (.site p) s), s)
  else takeFreeWord s

/-- POLL. -/
def mbPoll (p : MbPort) (s : State) : MbReply × State :=
  match tabFind (portIdx p) s.mbx.pend with
  | none => ({ status := 2 }, s)
  | some (.running op total) =>
    let (w, s) := progress p op total s
    ({ status := 7, res0 := w }, s)
  | some (.final _ st r) => ({ status := st, res0 := r }, dropPend p s)

/-- The SEQ of a new record: one above the larger valid SEQ. -/
def siteNext (s : State) : Nat :=
  match sitePick s with
  | some c => (siteSeq c s + 1) % 2 ^ 32
  | none => 1

/-- The copy that a new record replaces: the older or invalid one. -/
def siteTarget (s : State) : Nat :=
  match sitePick s with
  | some c => 1 - c
  | none => 0

/-- A record with its SEQ set and its CRC computed again. -/
def siteStamp (bs : List Byte) (seq : Nat) : List Byte :=
  let head := bs.take 8 ++ toLE 4 seq
  let rest := bs.drop 16
  head ++ toLE 4 (crc32c (head ++ rest)).toNat ++ rest

/-- SET_SITE_CFG. -/
def mbSiteCfg (p : MbPort) (n : Nat) (s : State) : MbReply × State :=
  let rd := fun a k => bulkBytes p a k s
  if n < 16 ∨ 32768 < n ∨ n ≠ 16 + 8 * leAt (rd 4 4) 0 4 ∨ siteOk rd = false then ({ status := 2 }, s)
  else if pendRuns p s || ownerUnits (.site .sdio) s + ownerUnits (.site .host) s != 0 then ({ status := 4 }, s)
  else
    let bs := siteStamp (rd 0 n) (siteNext s)
    mbPends p 0x0F n (cstQueue (.site p) (writeUnits (siteCopy (siteTarget s)) bs) s)

/-! ## Service -/

/-- The response to a request that R414 admits, and the command's effect. -/
def mbServe (p : MbPort) (c : MbCall) (s : State) : MbReply × State :=
  match c.op with
  | 0x01 => (mbInfo s, s)
  | 0x02 => (mbTelemetry s, s)
  | 0x03 => mbReadReg c.arg0 s
  | 0x04 => mbWriteReg c.arg0 (w32 c.arg1) s
  | 0x05 => mbSetState c.arg0 s
  | 0x07 => mbCert p c.arg0 s
  | 0x08 => mbAttest p c s
  | 0x09 => mbReadLog p c.arg0 s
  | 0x0A => mbToken p c.arg0 s
  | 0x0B => imgOpen p c.arg0 s
  | 0x0C => imgData p c.arg0 c.arg1 s
  | 0x0D => imgClose p (bit (w32 c.arg1) 0) s
  | 0x0E => mbPoll p s
  | 0x0F => mbSiteCfg p c.arg0 s
  | _ => ({ status := 0 }, s)

/-- A GO of a port: the request is checked, served and answered. An answer of DENIED is counted; DEV_RESET's answer precedes
the reset. -/
def mbGo (p : MbPort) (s : State) : State :=
  let c := mbCall p s
  let (r, s) := match mbCheck p c s with
    | some st => (({ status := st } : MbReply), s)
    | none => mbServe p c s
  let s := respond p c r (if r.status = 3 then count32 pgSdi 0 0x10C s else s)
  if c.op = 0x06 ∧ r.status = 0 then deviceReset (.devRst .yns) s else s

/-- A write of GO over SDIO is a function-1 write, which may wake the device (R340, R414). -/
def mbWake (p : MbPort) (s : State) : State :=
  match p with
  | .sdio => wakeEvent .sdio s
  | .host => s

/-- A row of Table 16-9: the request placed in its port and its GO written. A request with another opcode is another
row's. -/
def mbRow (ok : Nat → Bool) (p : MbPort) (q : MbReq) (s : State) : State :=
  if ok q.op.toNat && portServed p s then mbWake p (mbGo p (placeReq p q s)) else s

/-! ## Meanings -/

/-- GET_INFO (R414). -/
def execGetInfo (p : MbPort) (q : MbReq) (s : State) : Out := toNext (mbRow (· == 0x01) p q s)

/-- GET_TELEMETRY (R414). -/
def execGetTelemetry (p : MbPort) (q : MbReq) (s : State) : Out := toNext (mbRow (· == 0x02) p q s)

/-- READ_REG (R414). -/
def execReadReg (p : MbPort) (q : MbReq) (s : State) : Out := toNext (mbRow (· == 0x03) p q s)

/-- WRITE_REG (R414). -/
def execWriteReg (p : MbPort) (q : MbReq) (s : State) : Out := toNext (mbRow (· == 0x04) p q s)

/-- SET_STATE (R414). -/
def execSetState (p : MbPort) (q : MbReq) (s : State) : Out := toNext (mbRow (· == 0x05) p q s)

/-- DEV_RESET (R414). -/
def execDevReset (p : MbPort) (q : MbReq) (s : State) : Out := toNext (mbRow (· == 0x06) p q s)

/-- GET_CERT (R414). -/
def execGetCert (p : MbPort) (q : MbReq) (s : State) : Out := toNext (mbRow (· == 0x07) p q s)

/-- ATTEST (R414). -/
def execAttest (p : MbPort) (q : MbReq) (s : State) : Out := toNext (mbRow (· == 0x08) p q s)

/-- READ_LOG (R414). -/
def execReadLog (p : MbPort) (q : MbReq) (s : State) : Out := toNext (mbRow (· == 0x09) p q s)

/-- DEBUG_TOKEN (R391, R414). -/
def execDebugToken (p : MbPort) (q : MbReq) (s : State) : Out := toNext (mbRow (· == 0x0A) p q s)

/-- IMG_BEGIN (R415). -/
def execImgBegin (p : MbPort) (q : MbReq) (s : State) : Out := toNext (mbRow (· == 0x0B) p q s)

/-- IMG_CHUNK (R415). -/
def execImgChunk (p : MbPort) (q : MbReq) (s : State) : Out := toNext (mbRow (· == 0x0C) p q s)

/-- IMG_END (R415). -/
def execImgEnd (p : MbPort) (q : MbReq) (s : State) : Out := toNext (mbRow (· == 0x0D) p q s)

/-- POLL (R414). -/
def execPoll (p : MbPort) (q : MbReq) (s : State) : Out := toNext (mbRow (· == 0x0E) p q s)

/-- SET_SITE_CFG (R347). -/
def execSetSiteCfg (p : MbPort) (q : MbReq) (s : State) : Out := toNext (mbRow (· == 0x0F) p q s)

/-- BAD_OP_REQUEST (R413): a reserved opcode. -/
def execBadOpRequest (p : MbPort) (q : MbReq) (s : State) : Out := toNext (mbRow (fun op => !(knownOp op)) p q s)

/-- IMAGE_VERIFY_COMPLETE (R415). -/
def execImageVerifyComplete (s : State) : Out := toNext (imageVerified s)

/-- IMAGE_COMMIT_COMPLETE (R415). -/
def execImageCommitComplete (s : State) : Out := toNext (imageCommitted s)

end Sys2Proof.Machine
end

