-- ==== Sys2Proof/Machine/Pix.lean ====
section
/-!
DEFINITION. Instructions of pixel threads, and EXIT with its commit (R101, R103, R108, R235, R248 to R256).
-/
namespace Sys2Proof.Machine

/-! ## Where a pixel thread stands -/

/-- The pass of a group, its draw record, and its tile. -/
def pixSite (a : Iss) (q : PixGroup) (s : State) : Option (Pass × List Word × TileWork) :=
  match passOf a.x.job s, workOf a.p a.x.job q.tile s with
  | some x, some w => some (x, drawRec x q.draw, w)
  | _, _ => none

/-- The pixel and the coverage of a thread. -/
def threadPx (q : PixGroup) (t : Nat) : Nat × Nat := nth (0, 0) q.px t
def threadCov (q : PixGroup) (t : Nat) : Nat := nth 0 q.cov t

/-- A thread of an earlier primitive that covers the pixel of an executing thread has not exited (R248, R252). -/
def mustYield (a : Iss) (q : PixGroup) (s : State) : Bool :=
  (threadsOf a.ex).any (fun t => threadCov q t != 0 &&
    earlierCovers a.p a.x.job q.tile q.entry (fun _ => true) (threadPx q t) s)

/-- The place of a pix.out component among a group's outputs. -/
def outKey (t a k : Nat) : Nat := (t * 16 + a) * 4 + k

/-- The mark that a thread has stored with pix.st. -/
def storedKey (t : Nat) : Nat := outKey 32 0 0 + t

/-- The recorded value of a thread for an attachment. -/
def outOf (x : Group) (t a : Nat) : Option (List Word) :=
  match tabFind (outKey t a 0) x.outs with
  | some _ => some ((List.range 4).map (fun k => tabGet 0 (outKey t a k) x.outs))
  | none => none

/-- The thread has an output (R248). -/
def hasOut (x : Group) (t : Nat) : Bool :=
  (List.range 16).any (fun a => (outOf x t a).isSome) || (tabFind (storedKey t) x.outs).isSome

/-! ## Commit (R248, R251) -/

/-- The depth that a thread's late test takes for a sample: the shader's, where the draw writes depth. -/
def lateDepth (x : Pass) (r : List Word) (g : Group) (q : PixGroup) (t sm : Nat) : Word :=
  match (if dZout r then outOf g t 8 else none) with
  | some c => nth 0 c 0
  | none => depthAt q.body (sampleAt (passSamples x) sm (threadPx q t))

/-- One sample of a thread committed. -/
def commitSample (x : Pass) (r : List Word) (g : Group) (q : PixGroup) (t : Nat) (w : TileWork) (sm : Nat) : TileWork :=
  let pix := pixIdx (threadPx q t)
  if threadCov q t / 2 ^ sm % 2 = 0 then w
  else
    let res := if lateDraw r then dsTest x r (sampleOf w 8 pix sm) (lateDepth x r g q t sm) else (true, 0)
    let w := if lateDraw r && attFormat x 8 != 0 then sampleSet 8 pix sm res.2 w else w
    if !res.1 then w
    else
      ((passAtts x).filter (fun a => a != 8 || !(dZout r))).foldl (fun w a =>
        match outOf g t a with
        | some c => sampleSet a pix sm (tileEnc (attFormat x a) c) w
        | none => w) w

/-- A thread committed at its exit: one that discards writes nothing. -/
def commitThread (x : Pass) (r : List Word) (g : Group) (q : PixGroup) (w : TileWork) (t : Nat) : TileWork :=
  if dDiscard r && !(hasOut g t) then w
  else (List.range (passSamples x)).foldl (commitSample x r g q t) w

/-- The executing threads exit; pixel threads commit first, and wait for earlier primitives on their pixels. -/
def exitAct (a : Iss) (s : State) : Option State :=
  match a.x.pix with
  | none => exitStep a s
  | some q =>
    if mustYield a q s then none
    else
      match pixSite a q s with
      | none => exitStep a s
      | some (x, r, w) => exitStep a (setWork a.p ((threadsOf a.ex).foldl (commitThread x r a.x q) w) s)

/-! ## pix.ld, pix.st, pix.out (R250 to R252) -/

/-- IMM fields: attachment and sample. -/
def pixAtt (i : Insn) : Nat := i.imm.toNat % 16
def pixSample (i : Insn) : Nat := i.imm.toNat / 16 % 8

/-- The four components of a sample; those that the attachment does not hold are free. -/
def loadPixel (x : Pass) (w : TileWork) (att pix sm : Nat) (s : State) : List Word × State :=
  let f := if att ≤ 8 then attFormat x att else 0
  let (fw, s) := freeWords 4 s
  if f = 0 ∨ passSamples x ≤ sm then (fw, s)
  else
    let n := sampleOf w att pix sm
    if att = 8 then ([w32 n, if f = 7 then w32 (n / 2 ^ 32 % 256) else nth 0 fw 1, nth 0 fw 2, nth 0 fw 3], s)
    else (colorDec f n, s)

/-- Words into consecutive registers of a thread. -/
def putRow (t : Nat) (dst : BitVec 8) (ws : List Word) (x : Group) : Group :=
  if dst = 255 then x else (ws.zipIdx).foldl (fun x e => regPut t (dst.toNat + e.2) e.1 x) x

/-- pix.ld. -/
def pixLdStep (i : Insn) (a : Iss) (s : State) : Option State :=
  match a.x.pix with
  | none => some (insnFault a 0x09 s)
  | some q =>
    match pixSite a q s with
    | none => none
    | some (x, r, w) =>
      if !(dPixAccess r) then some (insnFault a 0x09 s)
      else if mustYield a q s then none
      else
        let e := eachThread a (fun t e =>
          let (ws, s) := loadPixel x w (pixAtt i) (pixIdx (threadPx q t)) (pixSample i) e.2
          (putRow t i.dst ws e.1, s)) s
        some (advance a e.1 e.2)

/-- Four source registers. -/
def srcRow (x : Group) (t : Nat) (n : BitVec 8) : List Word :=
  (List.range 4).map (fun k => if n = 255 then 0 else regOf x t (n.toNat + k))

/-- The samples that pix.st writes: every covered one, or the named one; a helper writes nothing (R249). -/
def stSamples (x : Pass) (q : PixGroup) (i : Insn) (t : Nat) : List Nat :=
  if threadCov q t = 0 then []
  else if i.imm.getLsbD 7 then (List.range (passSamples x)).filter (fun sm => threadCov q t / 2 ^ sm % 2 == 1)
  else if pixSample i < passSamples x then [pixSample i] else []

/-- pix.st. -/
def pixStStep (i : Insn) (a : Iss) (s : State) : Option State :=
  match a.x.pix with
  | none => some (insnFault a 0x09 s)
  | some q =>
    match pixSite a q s with
    | none => none
    | some (x, r, w) =>
      if !(dPixAccess r) then some (insnFault a 0x09 s)
      else if mustYield a q s then none
      else
        let f := if pixAtt i ≤ 8 then attFormat x (pixAtt i) else 0
        let w := if f = 0 then w else
          (threadsOf a.ex).foldl (fun w t => (stSamples x q i t).foldl (fun w sm =>
            sampleSet (pixAtt i) (pixIdx (threadPx q t)) sm (tileEnc f (srcRow a.x t i.src0)) w) w) w
        let g := (threadsOf a.ex).foldl (fun g t => { g with outs := tabSet (storedKey t) 1 g.outs }) a.x
        some (advance a g (setWork a.p w s))

/-- pix.out. -/
def pixOutStep (i : Insn) (a : Iss) (s : State) : Option State :=
  match a.x.pix with
  | none => some (insnFault a 0x09 s)
  | some q =>
    match pixSite a q s with
    | none => none
    | some (_, r, _) =>
      if dPixAccess r then some (insnFault a 0x09 s)
      else
        let g := (threadsOf a.ex).foldl (fun g t =>
          { g with outs := ((srcRow a.x t i.src0).zipIdx).foldl (fun o e => tabSet (outKey t (pixAtt i) e.2) e.1 o) g.outs }) a.x
        some (advance a g s)

/-! ## Textures (R253 to R256) -/

/-- A level sampled: none where a tap's tile is not resident. A tap that the staging area `m` holds is read there. -/
def sampleLevel (p j : Nat) (d : List Word) (m : Tab Nat) (l : Nat) :
    List ((Nat × Nat) × Nat) → Tm (Option (List (Word × List Word)))
  | [] => tPure (some [])
  | e :: t =>
    let at' := texelAt d l e.1.1 e.1.2
    tThen (match tabFind at'.2 m with
      | some n => tPure (some n)
      | none => tThen (resident p j d at'.1) fun res =>
          if res then tThen (cRead p j at'.2 (texelSize (tFormat d)) .rd) fun bs => tPure (some (leNat bs)) else tPure none) fun n =>
    match n with
    | none => tPure none
    | some n => tThen (sampleLevel p j d m l t) fun r => tPure (r.map (fun r => (fRat e.2 65536, texelDec (tFormat d) n) :: r))

/-- The taps of a sample, level by level: one level, or two for trilinear filtering. -/
def lodTaps (d : List Word) (lod u v : Word) : List (Nat × List ((Nat × Nat) × Nat)) :=
  let (l0, l1, _) := lodLevels d lod
  (l0, levelTaps d l0 u v) :: (if l0 = l1 then [] else [(l1, levelTaps d l1 u v)])

/-- The colour of a thread: none where a texel is not resident. -/
def texColor (p j : Nat) (d : List Word) (m : Tab Nat) (lod u v : Word) : Tm (Option (List Word)) :=
  let wt := (lodLevels d lod).2.2
  match lodTaps d lod u v with
  | [a, b] =>
    tThen (sampleLevel p j d m a.1 a.2) fun x =>
    tThen (sampleLevel p j d m b.1 b.2) fun y =>
    tPure (match x, y with
      | some x, some y =>
        some (((filterTaps x).zip (filterTaps y)).map (fun e => fAdd (fMul (fSub fOne wt) e.1) (fMul wt e.2)))
      | _, _ => none)
  | a :: _ => tThen (sampleLevel p j d m a.1 a.2) fun x => tPure (x.map filterTaps)
  | [] => tPure none

/-- The staged path of a tex.s: the binding that it names is enabled for its texture, and every tap is staged (R255, R256). -/
def stagedPath (r d : List Word) (m : Tab Nat) (i : Insn) (lod u v : Word) : Bool :=
  (drawFoots r).any (fun f => f.1 == i.imm.toNat / 32 % 4 && f.2.1 == i.imm.toNat % 16) &&
  (lodTaps d lod u v).all (fun l => l.2.all (fun e => (tabFind (texelAt d l.1 e.1.1 e.1.2).2 m).isSome))

/-- The residency code of a resident result: 2 where a STAGED tex.s falls back to the dependent path (R254, R256). -/
def stageCode (r d : List Word) (m : Tab Nat) (i : Insn) (lod u v : Word) : Nat :=
  if i.imm.getLsbD 4 && !(stagedPath r d m i lod u v) then 2 else 0

/-- The (u, v) of a thread. -/
def texUv (x : Group) (i : Insn) (t : Nat) : Word × Word :=
  (if i.src0 = 255 then 0 else regOf x t i.src0.toNat, if i.src0 = 255 then 0 else regOf x t (i.src0.toNat + 1))

/-- The LOD of a quad: one that is no number has no stated level and is free. -/
def quadLod (d : List Word) (i : Insn) (x : Group) (base k : Nat) : Word :=
  let l := texLod d (texUv x i (4 * k)) (texUv x i (4 * k + 1)) (texUv x i (4 * k + 2))
  if isNan l then fInt (Config.freeNat (base + k) % 16) else l

/-- tex.s for a thread: the four components and the residency code. A coordinate that is no finite number has no stated
texel: its components, and the code of its path, are free. -/
def texThread (r d : List Word) (m : Tab Nat) (i : Insn) (a : Iss) (lod : Word) (t : Nat) : Tm (List Word) :=
  let (u, v) := texUv a.x i t
  if notFinite (fMul u (fInt (tWidth d))) ∨ notFinite (fMul v (fInt (tHeight d))) then fun s =>
    let (ws, s) := freeWords 4 s
    let (f, s) := takeFree s
    (some (ws ++ [w32 (if i.imm.getLsbD 4 then f % 2 * 2 else 0)]), s)
  else
    let staged := i.imm.getLsbD 4 && stagedPath r d m i lod u v
    tThen (texColor a.p a.x.job d (if staged then m else []) lod u v) fun c =>
    tPure (match c with
      | none => [0, 0, 0, 0, 1]
      | some ws => ws ++ [w32 (stageCode r d m i lod u v)])

/-- tex.s for the threads in order; the threads of a quad share its LOD. -/
def texThreads (r d : List Word) (m : Tab Nat) (i : Insn) (a : Iss) (base : Nat) : List Nat → Group → Tm Group
  | [], g => tPure g
  | t :: ts, g =>
    tThen (texThread r d m i a (quadLod d i a.x base (t / 4)) t) fun ws => texThreads r d m i a base ts (putRow t i.dst ws g)

/-- tex.s: the descriptor is read and checked first. -/
def texStep (i : Insn) (a : Iss) (s : State) : Option State :=
  match a.x.pix with
  | none => some (insnFault a 0x09 s)
  | some q =>
    match pixSite a q s with
    | none => none
    | some (_, r, w) =>
      if a.ex = 0 then some (advance a a.x s)
      else
        let va := texDescVa r (i.imm.toNat % 16)
        match cRead a.p a.x.job va 32 .rd s with
        | (none, s) => some s
        | (some bs, s) =>
          let d := rowWords 4 8 bs
          if texBad d then some (endCompute a.x.job 1 0x0017 va s)
          else
            let base := s.free
            match texThreads r d w.texels i a base (threadsOf a.ex) a.x { s with free := base + 8 } with
            | (none, s) => some s
            | (some g, s) => some (advance a g s)

/-! ## Meanings -/

/-- EXIT (R101, R251). -/
def execExit (p : Fin 80) (g : Fin 64) (i : Insn) (s : State) : Out := toNext (issue p.val g.val i { op := some 0xBF } exitAct s)

/-- TEX_S (R256). -/
def execTexS (p : Fin 80) (g : Fin 64) (i : Insn) (s : State) : Out :=
  toNext (issue p.val g.val i { op := some 0xD8, dst := 5, src0 := 2, imm := 0x7F } (texStep i) s)

/-- PIX_LD (R252). -/
def execPixLd (p : Fin 80) (g : Fin 64) (i : Insn) (s : State) : Out :=
  toNext (issue p.val g.val i { op := some 0xD9, dst := 4, imm := 0x7F } (pixLdStep i) s)

/-- PIX_ST (R252). -/
def execPixSt (p : Fin 80) (g : Fin 64) (i : Insn) (s : State) : Out :=
  toNext (issue p.val g.val i { op := some 0xDA, src0 := 4, imm := 0xFF } (pixStStep i) s)

/-- PIX_OUT (R251). -/
def execPixOut (p : Fin 80) (g : Fin 64) (i : Insn) (s : State) : Out :=
  toNext (issue p.val g.val i { op := some 0xDB, src0 := 4, imm := 0x0F } (pixOutStep i) s)

end Sys2Proof.Machine
end

