-- ==== Sys2Proof/Machine/RegRows.lean ====
section
/-!
DEFINITION. The rows of the register space itself (R6, R8 to R10, R322, R386, R442, R446, R448). A row that reads or writes
a register is a bus access at its offset: what it does there is what the register is.
-/
namespace Sys2Proof.Machine

/-- A write that sets MB_CTL.GO of the host port (Table 16-7). -/
def isMbGo (r : Requester) (off size : Nat) (v : Word) (s : State) : Bool :=
  regular off size && bit v 0 && resolve r off s == .reg pgMb 1 0x000

/-- A register write by a requester; GO of the host port submits the request that stands in REQ. -/
def registerWrite (r : Requester) (off : Word) (size : Nat) (v : Word) (s : State) : State :=
  if reqServed r s && isMbGo r off.toNat size v s then (if portServed .host s then mbGo .host s else s)
  else writeRow r off size v s

/-- The offset of an attestation block's ATT_STS for a requester: in the SEC page, in a function's region, in a VF's own
view (R385, R451). -/
def attStsOff (r : Requester) (b : AttBlock) : Word :=
  match b, r with
  | .sec, _ => 0x41CC#32
  | .func _, .vf _ => 0x15C#32
  | .func f, _ => w32 (0x100015C + f.val * 0x10000)

/-- The requester reaches an attestation block (R442). -/
def reachesAtt (r : Requester) (b : AttBlock) : Bool :=
  match b with
  | .sec => reachesBlocks r
  | .func f => reachesRegion r f.val

/-! ## Meanings -/

/-- REGISTER_WRITE (R6). -/
def execRegisterWrite (r : Requester) (off : Word) (size : Nat) (v : Word) (s : State) : Out :=
  toNext (registerWrite r off size v s)

/-- PAIR_LO_READ (R8). -/
def execPairLoRead (r : Requester) (off : RegSpan) (s : State) : Out := toNext (readRow r off.addr off.size s)

/-- PAIR_LO_WRITE (R8). -/
def execPairLoWrite (r : Requester) (off v : Word) (s : State) : Out := toNext (writeRow r off 4 v s)

/-- PAIR_HI_WRITE (R8). -/
def execPairHiWrite (r : Requester) (off v : Word) (s : State) : Out := toNext (writeRow r off 4 v s)

/-- RC_READ (R9). -/
def execRcRead (r : Requester) (off : RegSpan) (s : State) : Out := toNext (readRow r off.addr off.size s)

/-- BUD_SEQ_READ (R322). -/
def execBudSeqRead (r : Requester) (s : State) : Out :=
  toNext (if reachesBlocks r then readRow r 0x21A0#32 4 s else s)

/-- ATT_STS_READ (R386). -/
def execAttStsRead (r : Requester) (b : AttBlock) (s : State) : Out :=
  toNext (if reachesAtt r b then readRow r (attStsOff r b) 4 s else s)

/-- LOCK_SET (R10). -/
def execLockSet (r : Requester) (page : Fin 146) (s : State) : Out :=
  toNext (blockWrite r page.val 0x008 (fun s => lockPage s page.val) s)

/-- LOCK_ALL (R448): a write of LOCK_ALL with GO = 1. -/
def execLockAll (r : Requester) (v : Word) (s : State) : Out :=
  toNext (if bit v 31 then blockWrite r pgGlb 0x180 (lockAllWrite v) s else s)

/-- IRQ_FORCE (R446). -/
def execIrqForce (r : Requester) (page : Fin 146) (v : Word) (s : State) : Out :=
  toNext (blockWrite r page.val 0x01C (setPend page.val v) s)

end Sys2Proof.Machine
end

