-- ==== Sys2Proof/Machine/Dispatch.lean ====
section
/-!
DEFINITION. The dispatch: one arm per command, each one call of that command's meaning.
-/
namespace Sys2Proof.Machine

def exec (i : Instr) (s : State) : Host.Outcome State Fault Refusal :=
  match i with
  | .sysRstNAssert => Sys2Proof.Machine.execSysRstNAssert s
  | .sysRstNDeassert bootMode => Sys2Proof.Machine.execSysRstNDeassert bootMode s
  | .bootVerifyComplete => Sys2Proof.Machine.execBootVerifyComplete s
  | .registerWrite r off size v => Sys2Proof.Machine.execRegisterWrite r off size v s
  | .pairLoRead r off => Sys2Proof.Machine.execPairLoRead r off s
  | .pairLoWrite r off v => Sys2Proof.Machine.execPairLoWrite r off v s
  | .pairHiWrite r off v => Sys2Proof.Machine.execPairHiWrite r off v s
  | .rcRead r off => Sys2Proof.Machine.execRcRead r off s
  | .budSeqRead r => Sys2Proof.Machine.execBudSeqRead r s
  | .attStsRead r b => Sys2Proof.Machine.execAttStsRead r b s
  | .lockSet r page => Sys2Proof.Machine.execLockSet r page s
  | .lockAll r v => Sys2Proof.Machine.execLockAll r v s
  | .irqForce r page v => Sys2Proof.Machine.execIrqForce r page v s
  | .aonMsStep => Sys2Proof.Machine.execAonMsStep s
  | .crystalSwitch => Sys2Proof.Machine.execCrystalSwitch s
  | .budgetPublish => Sys2Proof.Machine.execBudgetPublish s
  | .outOfCyclePublication => Sys2Proof.Machine.execOutOfCyclePublication s
  | .energySample evs => Sys2Proof.Machine.execEnergySample evs s
  | .sensorSample sensor temp => Sys2Proof.Machine.execSensorSample sensor temp s
  | .hardOverdraw => Sys2Proof.Machine.execHardOverdraw s
  | .dvfsStepComplete c => Sys2Proof.Machine.execDvfsStepComplete c s
  | .droopDetect c railMv => Sys2Proof.Machine.execDroopDetect c railMv s
  | .droopClear c railMv => Sys2Proof.Machine.execDroopClear c railMv s
  | .dvfsHoldExpiry c => Sys2Proof.Machine.execDvfsHoldExpiry c s
  | .coreIdleGate p => Sys2Proof.Machine.execCoreIdleGate p s
  | .meGo p g x => Sys2Proof.Machine.execMeGo p g x s
  | .meWait p g x => Sys2Proof.Machine.execMeWait p g x s
  | .gateWindow c => Sys2Proof.Machine.execGateWindow c s
  | .meIdleTimeout p e => Sys2Proof.Machine.execMeIdleTimeout p e s
  | .meOpStart p e => Sys2Proof.Machine.execMeOpStart p e s
  | .meOpFinish p e cycles => Sys2Proof.Machine.execMeOpFinish p e cycles s
  | .residueMismatch p e stage => Sys2Proof.Machine.execResidueMismatch p e stage s
  | .meInjArm r p v => Sys2Proof.Machine.execMeInjArm r p v s
  | .aluInsn p g op x => Sys2Proof.Machine.execAluInsn p g op x s
  | .branch p g target x => Sys2Proof.Machine.execBranch p g target x s
  | .load p g w x => Sys2Proof.Machine.execLoad p g w x s
  | .store p g w x => Sys2Proof.Machine.execStore p g w x s
  | .atomic p g op w64 x => Sys2Proof.Machine.execAtomic p g op w64 x s
  | .fenceCluster p g x => Sys2Proof.Machine.execFenceCluster p g x s
  | .fenceDevice p g x => Sys2Proof.Machine.execFenceDevice p g x s
  | .wsync p g x => Sys2Proof.Machine.execWsync p g x s
  | .gateCfg p g x => Sys2Proof.Machine.execGateCfg p g x s
  | .gateJoin p g x => Sys2Proof.Machine.execGateJoin p g x s
  | .gatePass p g x => Sys2Proof.Machine.execGatePass p g x s
  | .gateBcl p g x => Sys2Proof.Machine.execGateBcl p g x s
  | .gateDev p g x => Sys2Proof.Machine.execGateDev p g x s
  | .maskLive p g x => Sys2Proof.Machine.execMaskLive p g x s
  | .exit p g x => Sys2Proof.Machine.execExit p g x s
  | .rtTrace p g x => Sys2Proof.Machine.execRtTrace p g x s
  | .rtCont p g x => Sys2Proof.Machine.execRtCont p g x s
  | .rtTraceResult p g t => Sys2Proof.Machine.execRtTraceResult p g t s
  | .texS p g x => Sys2Proof.Machine.execTexS p g x s
  | .pixLd p g x => Sys2Proof.Machine.execPixLd p g x s
  | .pixSt p g x => Sys2Proof.Machine.execPixSt p g x s
  | .pixOut p g x => Sys2Proof.Machine.execPixOut p g x s
  | .blockPlace job cores => Sys2Proof.Machine.execBlockPlace job cores s
  | .preemptRequest job unit => Sys2Proof.Machine.execPreemptRequest job unit s
  | .preemptSaveComplete job unit cycles => Sys2Proof.Machine.execPreemptSaveComplete job unit cycles s
  | .preemptRestore job unit cores => Sys2Proof.Machine.execPreemptRestore job unit cores s
  | .regionFillDone region => Sys2Proof.Machine.execRegionFillDone region s
  | .regionInv r v => Sys2Proof.Machine.execRegionInv r v s
  | .hbmInit r n => Sys2Proof.Machine.execHbmInit r n s
  | .hbmReady n => Sys2Proof.Machine.execHbmReady n s
  | .patrolScrubStep n => Sys2Proof.Machine.execPatrolScrubStep n s
  | .invalidate r v => Sys2Proof.Machine.execInvalidate r v s
  | .invalidateDone => Sys2Proof.Machine.execInvalidateDone s
  | .faultPostWaiting f => Sys2Proof.Machine.execFaultPostWaiting f s
  | .fltqEnable r v => Sys2Proof.Machine.execFltqEnable r v s
  | .fltqDisable r v => Sys2Proof.Machine.execFltqDisable r v s
  | .fltqConsWrite r v => Sys2Proof.Machine.execFltqConsWrite r v s
  | .dmaChannelAssign n => Sys2Proof.Machine.execDmaChannelAssign n s
  | .dmaXlateFault n ch => Sys2Proof.Machine.execDmaXlateFault n ch s
  | .dmaTransferEnd n ch => Sys2Proof.Machine.execDmaTransferEnd n ch s
  | .chResume r n v => Sys2Proof.Machine.execChResume r n v s
  | .atsTranslationCompletion n ch c => Sys2Proof.Machine.execAtsTranslationCompletion n ch c s
  | .priResponse n ch c => Sys2Proof.Machine.execPriResponse n ch c s
  | .atsInvalidateRequest pasid va pages => Sys2Proof.Machine.execAtsInvalidateRequest pasid va pages s
  | .slotLoad r v => Sys2Proof.Machine.execSlotLoad r v s
  | .slotKill r v => Sys2Proof.Machine.execSlotKill r v s
  | .ctxKill r f v => Sys2Proof.Machine.execCtxKill r f v s
  | .fenceScanComplete slot => Sys2Proof.Machine.execFenceScanComplete slot s
  | .compatDoorbell r f v => Sys2Proof.Machine.execCompatDoorbell r f v s
  | .compatDoorbellRetry => Sys2Proof.Machine.execCompatDoorbellRetry s
  | .qEnable r f => Sys2Proof.Machine.execQEnable r f s
  | .qResume r f => Sys2Proof.Machine.execQResume r f s
  | .qReset r f => Sys2Proof.Machine.execQReset r f s
  | .qDisable r f => Sys2Proof.Machine.execQDisable r f s
  | .doorbell r f slot q wptr => Sys2Proof.Machine.execDoorbell r f slot q wptr s
  | .fetchFault fe => Sys2Proof.Machine.execFetchFault fe s
  | .cplConsRecheck slot q => Sys2Proof.Machine.execCplConsRecheck slot q s
  | .jobComplete job => Sys2Proof.Machine.execJobComplete job s
  | .queueTimeout slot q => Sys2Proof.Machine.execQueueTimeout slot q s
  | .nop fe => Sys2Proof.Machine.execNop fe s
  | .launch fe => Sys2Proof.Machine.execLaunch fe s
  | .render fe => Sys2Proof.Machine.execRender fe s
  | .compose fe => Sys2Proof.Machine.execCompose fe s
  | .czJob fe => Sys2Proof.Machine.execCzJob fe s
  | .dmaCopy fe => Sys2Proof.Machine.execDmaCopy fe s
  | .dmaFill fe => Sys2Proof.Machine.execDmaFill fe s
  | .dmaGather fe => Sys2Proof.Machine.execDmaGather fe s
  | .signal fe => Sys2Proof.Machine.execSignal fe s
  | .waitFence fe => Sys2Proof.Machine.execWaitFence fe s
  | .fenceReset fe => Sys2Proof.Machine.execFenceReset fe s
  | .writeCmd fe => Sys2Proof.Machine.execWriteCmd fe s
  | .cond fe => Sys2Proof.Machine.execCond fe s
  | .call fe => Sys2Proof.Machine.execCall fe s
  | .ret fe => Sys2Proof.Machine.execRet fe s
  | .fenceWaitRelease index => Sys2Proof.Machine.execFenceWaitRelease index s
  | .objAcquire r f v => Sys2Proof.Machine.execObjAcquire r f v s
  | .objRelease r f v => Sys2Proof.Machine.execObjRelease r f v s
  | .objSignal r f v => Sys2Proof.Machine.execObjSignal r f v s
  | .objReset r f v => Sys2Proof.Machine.execObjReset r f v s
  | .objCreate r f v => Sys2Proof.Machine.execObjCreate r f v s
  | .releaseRecordHeldPost f => Sys2Proof.Machine.execReleaseRecordHeldPost f s
  | .rrEnable r v => Sys2Proof.Machine.execRrEnable r v s
  | .functionDisable f => Sys2Proof.Machine.execFunctionDisable f s
  | .disableDmaWindowExpiry f => Sys2Proof.Machine.execDisableDmaWindowExpiry f s
  | .sessOpen fe => Sys2Proof.Machine.execSessOpen fe s
  | .sessStep fe => Sys2Proof.Machine.execSessStep fe s
  | .sessClose fe => Sys2Proof.Machine.execSessClose fe s
  | .sessPark fe => Sys2Proof.Machine.execSessPark fe s
  | .parkComplete session => Sys2Proof.Machine.execParkComplete session s
  | .restoreComplete session => Sys2Proof.Machine.execRestoreComplete session s
  | .graphCommit fe => Sys2Proof.Machine.execGraphCommit fe s
  | .graphRetire fe => Sys2Proof.Machine.execGraphRetire fe s
  | .batchForm => Sys2Proof.Machine.execBatchForm s
  | .batchEnd b => Sys2Proof.Machine.execBatchEnd b s
  | .stepTimeout b => Sys2Proof.Machine.execStepTimeout b s
  | .deadlineMiss session => Sys2Proof.Machine.execDeadlineMiss session s
  | .binDraw => Sys2Proof.Machine.execBinDraw s
  | .poolProdRecheck => Sys2Proof.Machine.execPoolProdRecheck s
  | .partialRender => Sys2Proof.Machine.execPartialRender s
  | .tileShade tile core => Sys2Proof.Machine.execTileShade tile core s
  | .cpriPreempt slot q => Sys2Proof.Machine.execCpriPreempt slot q s
  | .preemptGraceExpiry p => Sys2Proof.Machine.execPreemptGraceExpiry p s
  | .passResume => Sys2Proof.Machine.execPassResume s
  | .channelEnable r v => Sys2Proof.Machine.execChannelEnable r v s
  | .channelDisable r v => Sys2Proof.Machine.execChannelDisable r v s
  | .chCommitArm r v => Sys2Proof.Machine.execChCommitArm r v s
  | .frameBoundary c => Sys2Proof.Machine.execFrameBoundary c s
  | .frameDeadlineMiss c => Sys2Proof.Machine.execFrameDeadlineMiss c s
  | .frameComplete c => Sys2Proof.Machine.execFrameComplete c s
  | .czCommit z ctx => Sys2Proof.Machine.execCzCommit z ctx s
  | .stateRequest r v => Sys2Proof.Machine.execStateRequest r v s
  | .blockPowerResponse page a => Sys2Proof.Machine.execBlockPowerResponse page a s
  | .powerDelayExpiry page => Sys2Proof.Machine.execPowerDelayExpiry page s
  | .wakeEvent w => Sys2Proof.Machine.execWakeEvent w s
  | .wakeCounterExpiry => Sys2Proof.Machine.execWakeCounterExpiry s
  | .sleepExitComplete => Sys2Proof.Machine.execSleepExitComplete s
  | .deviceReset cause => Sys2Proof.Machine.execDeviceReset cause s
  | .powerDomainReset r v => Sys2Proof.Machine.execPowerDomainReset r v s
  | .powerDomainResetDone => Sys2Proof.Machine.execPowerDomainResetDone s
  | .pciePerst => Sys2Proof.Machine.execPciePerst s
  | .cisternUnitStart code => Sys2Proof.Machine.execCisternUnitStart code s
  | .cisternRetryExpiry => Sys2Proof.Machine.execCisternRetryExpiry s
  | .cisternUnitComplete => Sys2Proof.Machine.execCisternUnitComplete s
  | .basinSourceEvent srcs => Sys2Proof.Machine.execBasinSourceEvent srcs s
  | .basinWindowExpiry src => Sys2Proof.Machine.execBasinWindowExpiry src s
  | .basinQuietExpiry src => Sys2Proof.Machine.execBasinQuietExpiry src s
  | .sourceClear r v => Sys2Proof.Machine.execSourceClear r v s
  | .staleEpochDrop sender epoch => Sys2Proof.Machine.execStaleEpochDrop sender epoch s
  | .readmit r v => Sys2Proof.Machine.execReadmit r v s
  | .readmitDone pass => Sys2Proof.Machine.execReadmitDone pass s
  | .errnPulseEnd => Sys2Proof.Machine.execErrnPulseEnd s
  | .fltInjArm r page v => Sys2Proof.Machine.execFltInjArm r page v s
  | .svnAdvance r v => Sys2Proof.Machine.execSvnAdvance r v s
  | .measurementExtend r v => Sys2Proof.Machine.execMeasurementExtend r v s
  | .attestRequest r b v => Sys2Proof.Machine.execAttestRequest r b v s
  | .attestComplete => Sys2Proof.Machine.execAttestComplete s
  | .leafReservationCommit => Sys2Proof.Machine.execLeafReservationCommit s
  | .jtagDebugToken token => Sys2Proof.Machine.execJtagDebugToken token s
  | .extest => Sys2Proof.Machine.execExtest s
  | .vfEnable numVfs => Sys2Proof.Machine.execVfEnable numVfs s
  | .vfEnableClear => Sys2Proof.Machine.execVfEnableClear s
  | .flr f => Sys2Proof.Machine.execFlr f s
  | .linkDown => Sys2Proof.Machine.execLinkDown s
  | .d3hotEntry f => Sys2Proof.Machine.execD3hotEntry f s
  | .bar2Access off len wdata => Sys2Proof.Machine.execBar2Access off len wdata s
  | .hostReadCompletion tag poisoned data => Sys2Proof.Machine.execHostReadCompletion tag poisoned data s
  | .completionTimeout tag => Sys2Proof.Machine.execCompletionTimeout tag s
  | .rootPortInboundRequest q => Sys2Proof.Machine.execRootPortInboundRequest q s
  | .hartRun r v => Sys2Proof.Machine.execHartRun r v s
  | .sdioWakeWrite v => Sys2Proof.Machine.execSdioWakeWrite v s
  | .getInfo p q => Sys2Proof.Machine.execGetInfo p q s
  | .getTelemetry p q => Sys2Proof.Machine.execGetTelemetry p q s
  | .readReg p q => Sys2Proof.Machine.execReadReg p q s
  | .writeReg p q => Sys2Proof.Machine.execWriteReg p q s
  | .setState p q => Sys2Proof.Machine.execSetState p q s
  | .devReset p q => Sys2Proof.Machine.execDevReset p q s
  | .getCert p q => Sys2Proof.Machine.execGetCert p q s
  | .attest p q => Sys2Proof.Machine.execAttest p q s
  | .readLog p q => Sys2Proof.Machine.execReadLog p q s
  | .debugToken p q => Sys2Proof.Machine.execDebugToken p q s
  | .imgBegin p q => Sys2Proof.Machine.execImgBegin p q s
  | .imgChunk p q => Sys2Proof.Machine.execImgChunk p q s
  | .imgEnd p q => Sys2Proof.Machine.execImgEnd p q s
  | .poll p q => Sys2Proof.Machine.execPoll p q s
  | .setSiteCfg p q => Sys2Proof.Machine.execSetSiteCfg p q s
  | .imageVerifyComplete => Sys2Proof.Machine.execImageVerifyComplete s
  | .imageCommitComplete => Sys2Proof.Machine.execImageCommitComplete s
  | .portTraining k t => Sys2Proof.Machine.execPortTraining k t s
  | .portRetrainTimer k => Sys2Proof.Machine.execPortRetrainTimer k s
  | .dataFlitReceive k flit => Sys2Proof.Machine.execDataFlitReceive k flit s
  | .nakReceive k flit => Sys2Proof.Machine.execNakReceive k flit s
  | .linkRetrainComplete k ok => Sys2Proof.Machine.execLinkRetrainComplete k ok s
  | .heartbeatSend k => Sys2Proof.Machine.execHeartbeatSend k s
  | .heartbeatReceive k flit => Sys2Proof.Machine.execHeartbeatReceive k flit s
  | .peerLoss k => Sys2Proof.Machine.execPeerLoss k s
  | .linkWrite p => Sys2Proof.Machine.execLinkWrite p s
  | .linkRead p => Sys2Proof.Machine.execLinkRead p s
  | .linkReadRsp p => Sys2Proof.Machine.execLinkReadRsp p s
  | .linkAtomic p => Sys2Proof.Machine.execLinkAtomic p s
  | .linkAtomicRsp p => Sys2Proof.Machine.execLinkAtomicRsp p s
  | .linkFenceSignal p => Sys2Proof.Machine.execLinkFenceSignal p s
  | .linkFenceReset p => Sys2Proof.Machine.execLinkFenceReset p s
  | .linkFenceRegisterWait p => Sys2Proof.Machine.execLinkFenceRegisterWait p s
  | .fenceNotify p => Sys2Proof.Machine.execFenceNotify p s
  | .linkAck p => Sys2Proof.Machine.execLinkAck p s
  | .errorRsp p => Sys2Proof.Machine.execErrorRsp p s
  | .collStep p => Sys2Proof.Machine.execCollStep p s
  | .linkBarrier p => Sys2Proof.Machine.execLinkBarrier p s
  | .snapMark p => Sys2Proof.Machine.execSnapMark p s
  | .linkReset p => Sys2Proof.Machine.execLinkReset p s
  | .lrProdWrite r v => Sys2Proof.Machine.execLrProdWrite r v s
  | .linkPut ring => Sys2Proof.Machine.execLinkPut ring s
  | .linkGet ring => Sys2Proof.Machine.execLinkGet ring s
  | .linkDescAtomic ring => Sys2Proof.Machine.execLinkDescAtomic ring s
  | .allreduce ring => Sys2Proof.Machine.execAllreduce ring s
  | .allgather ring => Sys2Proof.Machine.execAllgather ring s
  | .broadcast ring => Sys2Proof.Machine.execBroadcast ring s
  | .linkDescBarrier ring => Sys2Proof.Machine.execLinkDescBarrier ring s
  | .snapshot ring => Sys2Proof.Machine.execSnapshot ring s
  | .linkDescNop ring => Sys2Proof.Machine.execLinkDescNop ring s
  | .linkRingTimeout ring => Sys2Proof.Machine.execLinkRingTimeout ring s
  | .lrResume r v => Sys2Proof.Machine.execLrResume r v s
  | .lrReset r v => Sys2Proof.Machine.execLrReset r v s
  | .domainResetRequest r v => Sys2Proof.Machine.execDomainResetRequest r v s
  | .adcConversion code => Sys2Proof.Machine.execAdcConversion code s
  | .adcReferenceCheck code => Sys2Proof.Machine.execAdcReferenceCheck code s
  | .comparatorCrossing c microV => Sys2Proof.Machine.execComparatorCrossing c microV s
  | .pllLossOfLock dom => Sys2Proof.Machine.execPllLossOfLock dom s
  | .pcieLinkUp speed width flit => Sys2Proof.Machine.execPcieLinkUp speed width flit s
  | .pciePerstNDeassert => Sys2Proof.Machine.execPciePerstNDeassert s
  | .d3hotExit f => Sys2Proof.Machine.execD3hotExit f s
  | .extestDeselect => Sys2Proof.Machine.execExtestDeselect s
  | .bootStageReady => Sys2Proof.Machine.execBootStageReady s
  | .idleFlitReceive k flit => Sys2Proof.Machine.execIdleFlitReceive k flit s
  | .laneError k => Sys2Proof.Machine.execLaneError k s
  | .reservedCommandOpcode fe => Sys2Proof.Machine.execReservedCommandOpcode fe s
  | .badOpRequest p q => Sys2Proof.Machine.execBadOpRequest p q s

end Sys2Proof.Machine
end

