-- ==== Sys2Proof/Machine/Tick.lean ====
section
/-!
DEFINITION. One count of the block microsecond counters (R27, R28): what step does when no command waits. DESIGN CHOICE: the
table has no row for a tick. Proofer's count is the row ENERGY_SAMPLE's, the AON millisecond's the row AON_MS_STEP's.
-/
namespace Sys2Proof.Machine

/-- The microsecond counters run: REFCLK drives them in ON and DOZE, out of reset (R28). -/
def usRuns (s : State) : Bool := !s.rst.held && devState s < 2

/-- The boot events 2 to 4 and 9, each at its latest time (Table 13-6); BOOT_US counts until READY or RECOVERY's
end. -/
def tickBoot (s : State) : State :=
  if stage s = 6 then s
  else
    let us := s.rst.bootUs + 1
    let s := { s with rst := { s.rst with bootUs := us } }
    if stage s = 0 ∧ 200 ≤ us then setFld pgYns 0 0x100 1 1 1 (setStage 1 s)
    else if stage s = 1 ∧ 2500 ≤ us then setStage 2 s
    else if stage s = 4 ∧ s.rst.loaded = true ∧ 2600000 ≤ us then setStage 5 s
    else if stage s = 1 ∧ 1500 ≤ us then powerOn [105] s
    else s

/-- A queue holds an incomplete item: a started job, a registered WAIT, or a held command (R188). -/
def hasItem (slot q : Nat) (x : Queue) (s : State) : Bool :=
  x.held || x.str.wait.isSome ||
  s.fe.jobs.any (fun j => match j.2.owner with | .queue k i => k == slot && i == q | _ => false)

/-- The queue timers: a queue that is ACTIVE and does not wait for completion-ring space, or that its slot's RELEASE or kill has
disabled, and that holds an item (R188, R204 step 2). -/
def tickQueues (s : State) : State :=
  { s with fe := { s.fe with queues := s.fe.queues.map (fun e =>
      if (e.2.state = 0 ∨ (e.2.state = 2 ∧ !e.2.full)) ∧ hasItem (e.1 / 16) (e.1 % 16) e.2 s then
        (e.1, { e.2 with timer := e.2.timer + 1 }) else e) } }

/-- The front end: its counter, the queue timers, the DMA windows of functions being disabled (R188, R206). -/
def tickFe (s : State) : State :=
  if !(powered pgFe s) then s
  else
    let s := tickQueues s
    { s with fe := { s.fe with us := s.fe.us + 1, disabling := s.fe.disabling.map (fun e => (e.1, e.2 + 1)) } }

/-- Leaven: its counter, the step timers of batches that have issued a job (R222). -/
def tickLvn (s : State) : State :=
  if dark pgLvn s then s
  else
    { s with lvn := { s.lvn with
      us := s.lvn.us + 1,
      batches := s.lvn.batches.map (fun e => if 0 < e.2.issue then (e.1, { e.2 with timer := e.2.timer + 1 }) else e) } }

/-- The tiler: the grace of preempted passes (R260). -/
def tickTlr (s : State) : State :=
  if dark pgTlr s then s
  else
    { s with tlr := { s.tlr with passes := s.tlr.passes.map (fun e =>
        if e.2.preempted then (e.1, { e.2 with waited := e.2.waited + 1 }) else e) } }

/-- A Svaumon port: its heartbeat, peer-loss and training counts (R423 to R425). -/
def tickPort (s : State) (k : Nat) : State :=
  if dark (pgSvl k) s then s
  else
    let p := portOf k s
    setPort k { p with hb := p.hb + 1, loss := p.loss + 1, train := p.train + 1 } s

/-- The ring timers: a ring that runs (R430). -/
def tickRings (s : State) : State :=
  if dark (pgSvl 0) s then s
  else
    { s with svl := { s.svl with rings := s.svl.rings.map (fun e =>
        if lrState e.1 s = 2 then (e.1, { e.2 with timer := e.2.timer + 1 }) else e) } }

/-- A delaying block's PWR_ACK.DELAY counts down (R335). -/
def tickAck (s : State) (pg : Nat) : State :=
  let v := getReg pg 0 0x034 s
  if fld v 0 2 = 3 then setFld pg 0 0x034 16 16 (fld v 16 16 - 1) s else s

/-- The handshake of a device-state request (R335). -/
def tickTrans (s : State) : State :=
  match s.rst.trans with
  | none => { s with rst := { s.rst with aborted := none } }
  | some t => t.waiting.foldl tickAck { s with rst := { s.rst with trans := some { t with waited := t.waited + 1 } } }

/-- One microsecond. -/
def tick (s : State) : State :=
  if usRuns s then
    tickTrans (tickRings ((List.range 4).foldl tickPort (tickTlr (tickLvn (tickFe (tickBoot s))))))
  else s

end Sys2Proof.Machine
end

