-- ==== Sys2Proof/Safety.lean ====
section
/-!
DEFINITION. What counts as a safe state and a safe run, in the terms that claims use.
-/
namespace Sys2Proof.Machine

/-- Every memory of the state is in canonical form: equal memories are equal data. -/
abbrev MemsCanonical (s : State) : Prop :=
  memWf (hbmDefault s.hbc.stale) s.mem.hbm = true ∧ memWf Config.hostByte s.mem.host = true ∧
  memWf Config.flashByte s.mem.flash = true ∧ memWf (Config.aonByte s.aon.gen) s.mem.aon = true ∧
  memWf zeroByte s.mem.lm = true ∧ memWf zeroByte s.mem.cmem = true

/-- A step that goes on. -/
def Completes (o : Out) : Prop := ∃ t, o = .next t

/-- Every byte of every memory reads alike in two states. -/
def SameBytes (s t : State) : Prop :=
  (∀ a n, hbmBytes a n t = hbmBytes a n s) ∧ (∀ a n, hostBytes a n t = hostBytes a n s) ∧
  (∀ a n, flashBytes a n t = flashBytes a n s) ∧ (∀ a n, aonBytes a n t = aonBytes a n s) ∧
  (∀ a, memByte zeroByte t.mem.lm a = memByte zeroByte s.mem.lm a) ∧
  (∀ a, memByte zeroByte t.mem.cmem a = memByte zeroByte s.mem.cmem a)

/-- A requester's write or read reaches a block page's register and takes effect: the requester reaches the block pages, its
accesses are served, and the register's domain is not gated, isolated or in reset (R442, R444). -/
def Heard (r : Requester) (pg off : Nat) (s : State) : Bool :=
  reachesBlocks r && reqServed r s && !(darkAt pg off s)

/-- The same for a register of a function's region (R442, R444, R451). -/
def HeardFn (r : Requester) (fn : Nat) (s : State) : Bool :=
  reachesRegion r fn && reqServed r s && !(dark pgFn s)

/-- A naturally aligned 32-bit access at `off` that is served and leads to a register which is not dark (R6, R442, R444). -/
def Reaches (r : Requester) (off : Word) (pg bank o : Nat) (s : State) : Bool :=
  reqServed r s && regular off.toNat 4 && resolve r off.toNat s == .reg pg bank o && !(darkAt pg o s)

/-- Two states that differ in registers only, memories in canonical form afterwards. -/
def RegsOnly (s t : State) : Prop := t = tidyMem { s with regs := t.regs }

/-- Every register outside `P` is as it was. -/
def OtherRegs (P : Nat → Prop) (s t : State) : Prop := ∀ k, ¬ P k → tabFind k t.regs = tabFind k s.regs

/-- The registers of a page are as they were. -/
def PageKept (pg : Nat) (s t : State) : Prop := ∀ bank off, off < 65536 → bank < 512 → getReg pg bank off t = getReg pg bank off s

/-- A command taken `n` times. -/
def execTimes (c : Instr) : Nat → State → Out
  | 0, s => .next s
  | n + 1, s =>
    match execTimes c n s with
    | .next t => exec c t
    | o => o

/-- The group in slot `g` of core `p` is `x`, its current path `cur` can issue its next instruction, and the turn goes on: the
job runs, the core is up, no preemption or wait holds the path, its turn has slots left (R97, R98, R114), and the instruction word
and the registers of the group hold no error, nor does an injection wait for a write (R134, R369). -/
abbrev Ready (p g : Nat) (x : Group) (cur : Path) (rest : List Path) (s : State) : Prop :=
  groupOf p g s = some x ∧ x.paths = cur :: rest ∧ jobEnded x.job s = false ∧ coreUp p s = true ∧
  blockStopping x.block s = false ∧ cur.wait = none ∧ x.turnOver = false ∧ cur.slots < 32 ∧ cur.demoted = false ∧
  (imageOf p x s).bind (fun m => tabFind (cur.pc / 8) m.err) = none ∧ x.regErr = [] ∧ bit (getReg (pgSc p) 0 0x028 s) 16 = false

/-- The instruction store of core `p` does not hold another instruction at the path's program counter (R24, R92). -/
abbrev StoreHolds (p : Nat) (u : Uses) (i : Insn) (x : Group) (cur : Path) (s : State) : Prop :=
  ((insnWord p x cur.pc s).map (spells u i)).getD true = true

/-- The path issues the instruction `i`, whose opcode uses its fields as `u` says: it is ready, the store holds the instruction, and
its fields and registers are good (R91, R93). -/
abbrev Issues (p g : Nat) (u : Uses) (i : Insn) (x : Group) (cur : Path) (rest : List Path) (s : State) : Prop :=
  Ready p g x cur rest s ∧ StoreHolds p u i x cur s ∧ insnCheck u i x.nregs = 0

/-- The path one instruction on. -/
abbrev onward (cur : Path) : Path := { cur with pc := cur.pc + 8, slots := cur.slots + 1 }

/-- The group with its current path one instruction on. -/
abbrev stepped (x : Group) (cur : Path) (rest : List Path) : Group := { x with paths := onward cur :: rest }

/-- The group in slot `g` of core `p` is `x` after a command that changes nothing else. -/
abbrev GroupNow (p g : Nat) (x : Group) (s : State) : State := tidyMem (setGroup p g x s)

/-- Nothing but its queues and jobs works for slot `k`: no link ring, no session window, no batch, no graph of its own, no registered
WAIT. -/
def SlotQuiet (k : Nat) (s : State) : Prop :=
  (∀ r < 16, lrState r s = 0 ∨ lrSlot r s ≠ k) ∧ sessWindow (slotOf k s).func s = [] ∧
  (∀ b ∈ s.lvn.batches, b.2.slot ≠ k) ∧ graphsWith (fun g => graphOwned g k s) s = [] ∧ ∀ q < 16, (queueOf k q s).str.wait = none

/-- No error injection is armed in an HBM controller (R369). -/
def NoInjection (s : State) : Prop := ∀ n < 4, bit (getReg (pgHbc n) 0 0x028 s) 16 = false

/-- HBM bytes outside `[a, a + n)` read alike in two states. -/
def HbmKept (a n : Nat) (s t : State) : Prop :=
  ∀ k, (k < a ∨ a + n ≤ k) → memByte (hbmDefault t.hbc.stale) t.mem.hbm k = memByte (hbmDefault s.hbc.stale) s.mem.hbm k

/-- The command `c` at call level `level` stands at the fetch position of a stream that fetches; the stream's own read of it
leaves `s'`. -/
def Fetched (f : Fetcher) (c : List Word) (level : Nat) (s s' : State) : Prop :=
  fetching (ownerOf f) s = true ∧ ∃ va bs, fetchPos (ownerOf f) s = some (va, level) ∧
    vaRead (ownRq (ownerOf f)) (ownSlot (ownerOf f) s) va 32 .rd s = (.ok bs, s') ∧ c = rowWords 4 8 bs

/-- The stream's fetcher serves that command now, in the state `s1` (R184). -/
def Served (f : Fetcher) (c : List Word) (level : Nat) (s s1 : State) : Prop :=
  ∃ s', Fetched f c level s s' ∧ chosen (ownerOf f) c s = true ∧ s1 = took (ownerOf f) c s'

/-- The stream takes that command now, in the state `s1`: its fetcher serves it, no skip is in force, it is well formed for the
engine, and it waits on no earlier job (R184, R185, R192, R196). -/
def Takes (f : Fetcher) (c : List Word) (level : Nat) (s s1 : State) : Prop :=
  ∃ s', Served f c level s s' ∧ (streamOf (ownerOf f) s').condSkip = 0 ∧ (streamOf (ownerOf f) s').batchSkip = none ∧
    s1 = issueNext (ownerOf f) s' ∧ badCmd (ownerOf f) c s1 = false ∧ mustWait (ownerOf f) c s1 = false

end Sys2Proof.Machine
end

