-- ==== Sys2Proof/Certificates/Slice0/Obligations.lean ====
section
/-!
DEFINITION. The statements: what the commands, the step and reset do, by the rules R<n> of spec/. A docstring names the rules, and
the log entry wherever the statement rests on a reading or a choice of the model.
-/
namespace Sys2Proof.Claims
end Sys2Proof.Claims

open Sys2Proof Sys2Proof.Machine Sys2Proof.Claims

/-! ## The step, the whole machine, reset -/

/-- The model's step: the command at the front of the queue has its effect on the state with the rest of the queue. Log 2, DESIGN
CHOICE: on an empty queue step takes one count of the block microsecond counters. R28: none in SLEEP and OFF or while a reset is held; in
ON and DOZE out of reset the FE counter counts while its domain is powered, and no memory byte, no output and no command changes. -/
def Obligations.StepRunsTheFrontCommand : Prop :=
  (∀ (c : Instr) (rest : List Instr) (s : State), s.pending = c :: rest → step s = exec c { s with pending := rest }) ∧
  (∀ s : State, s.pending = [] → s.rst.held = true ∨ 2 ≤ devState s → step s = .next s) ∧
  (∀ s : State, s.pending = [] → s.rst.held = false → devState s < 2 → powered pgFe s = true → stage s = 6 →
    ∃ t, step s = .next t ∧ t.fe.us = s.fe.us + 1 ∧ t.mem = s.mem ∧ t.out = s.out ∧ t.pending = [])

/-- No command ends in a fault or a refusal: every command of the table has an effect, and it leaves the memories in canonical
form. (The model's own reading where the spec leaves one: log 1.) -/
def Obligations.EveryCommandAnswersANextState : Prop :=
  ∀ (c : Instr) (s : State), ∃ t, exec c s = .next t ∧ MemsCanonical t

/-- Every step keeps every memory in canonical form, from every state that has it. -/
def Obligations.StepKeepsMemoriesCanonical : Prop :=
  ∀ s t : State, MemsCanonical s → step s = .next t → MemsCanonical t

/-- What reset leaves: R348's cold reset before boot event 1, with the values that Tables 13-9, 13-6, 12-7, 14-5, 16-8 and 18-2
give, nothing waiting, nothing listed in any memory, no slot, queue, job, kernel, batch, pass or translation held. (The model's
own reading where the spec leaves one: log 4, 5, 7.) -/
def Obligations.ResetStateHoldsTheStatedValues : Prop :=
  State.reset.pending = [] ∧ State.reset.rst.held = true ∧ MemsCanonical State.reset ∧
  (∀ k, (slotOf k State.reset).state = 0) ∧ (∀ k q, (queueOf k q State.reset).state = 0) ∧ State.reset.fe.jobs = [] ∧
  stage State.reset = 0 ∧ devState State.reset = 0 ∧ getReg pgBsn 0 0x148 State.reset = 0xA01#32 ∧
  (∀ pg, pg < 146 → getReg pg 0 0x008 State.reset = 0 ∧ getReg pg 0 0x010 State.reset = 0 ∧
    getReg pg 0 0x014 State.reset = 0xFFFFFFFF#32 ∧ getReg pg 0 0x018 State.reset = 0 ∧
    getReg pg 0 0x020 State.reset = 0) ∧
  (∀ a n, hbmBytes a n State.reset = List.replicate n 0)

/-! ## The register space: writes (R6 to R10, R442, R444, R446, R448) -/

/-- R10, R446, R448: LOCK_SET sets LOCK of its page and no other bit; IRQ_FORCE sets the IRQ_PEND bits that are written 1 and
keeps the others; LOCK_ALL with GO = 1 sets LOCK of the pages that are not exempt, with DRIVER = 1 of the driver pages. Frame:
other registers are as they were, but for the pending vectors that the summary interrupt of R449 sets. (The model's own reading
where the spec leaves one: log 14.) -/
def Obligations.LockAndForceSetTheirBits : Prop :=
  (∀ (r : Requester) (page : Fin 146) (s : State), Heard r page.val 0x008 s = true →
    ∃ t, exec (.lockSet r page) s = .next t ∧ locked page.val t = true ∧
      (∀ k, 1 ≤ k → bit (getReg page.val 0 0x008 t) k = bit (getReg page.val 0 0x008 s) k) ∧
      OtherRegs (fun k => k = rk page.val 0 0x008) s t ∧ RegsOnly s t) ∧
  (∀ (r : Requester) (page : Fin 146) (v : Word) (s : State), Heard r page.val 0x01C s = true →
    ∃ t, exec (.irqForce r page v) s = .next t ∧ getReg page.val 0 0x018 t = getReg page.val 0 0x018 s ||| v ∧
      OtherRegs (fun k => k = rk page.val 0 0x018 ∨ k / 65536 / 512 = pgPba) s t ∧ SameBytes s t) ∧
  (∀ (r : Requester) (v : Word) (s : State), bit v 31 = true → Heard r pgGlb 0x180 s = true →
    ∃ t, exec (.lockAll r v) s = .next t ∧ RegsOnly s t ∧
      OtherRegs (fun k => ∃ pg, pg < 146 ∧ k = rk pg 0 0x008) s t ∧
      ∀ pg, pg < 146 →
        locked pg t = (locked pg s || (if isDriverPage pg then bit v 5 else !(bit v (lockClass pg)))))

/-- The pages on which no register has an effect of its own beyond its access types (R6, Table 0-4). -/
def Sys2Proof.Claims.plainPage (pg : Nat) : Prop :=
  pg = pgCap ∨ pg = pgCst ∨ pg = pgXsp ∨ pg = pgYns ∨ pg = pgClk ∨ pg = pgTlr ∨ pg = pgSdi ∨ (∃ z < 2, pg = pgCz z) ∨
    (∃ n < 16, pg = pgWeir n ∨ pg = pgCl n)

/-- The field values of a register after a write of `v` by its access types (Table 0-4, R10). -/
def Sys2Proof.Claims.FieldsWritten (pg o : Nat) (v : Word) (s t : State) : Prop :=
  ∀ f ∈ regFields pg o,
    (f.acc = .ro ∨ f.acc = .rc → getFld pg 0 o f.lo f.wd t = getFld pg 0 o f.lo f.wd s) ∧
    (f.acc = .rw → getFld pg 0 o f.lo f.wd t = fld v f.lo f.wd) ∧
    (f.acc = .rwl → getFld pg 0 o f.lo f.wd t = if locked pg s then getFld pg 0 o f.lo f.wd s else fld v f.lo f.wd) ∧
    (f.acc = .w1c → getFld pg 0 o f.lo f.wd t = fld (getReg pg 0 o s &&& ~~~ v) f.lo f.wd) ∧
    (f.acc = .w1s → getFld pg 0 o f.lo f.wd t = fld (getReg pg 0 o s ||| v) f.lo f.wd)

/-- R6, R7, R10, Table 0-4: a regular write that is served, to a register of a page whose registers act by their access types
alone, gives each field what its type says (RW takes the value, RW-L only while the page is not locked, W1C clears and W1S sets
where 1 is written, RO and RC keep theirs), and no other register, memory byte or output changes. -/
def Obligations.RegisterWriteActsByAccessType : Prop :=
  ∀ (r : Requester) (off : Word) (v : Word) (pg o : Nat) (s : State), plainPage pg → 0x40 ≤ o → o < 4096 →
    Reaches r off pg 0 o s = true →
    ∃ t, exec (.registerWrite r off 4 v) s = .next t ∧ RegsOnly s t ∧ OtherRegs (fun k => k = rk pg 0 o) s t ∧ FieldsWritten pg o v s t

/-- R444, R6, R8: a regular 32-bit write to a register whose page is gated, isolated or in reset is discarded and counted in
GLB.GATED_WR_CNT; of a pair, the _LO write is held and the _HI write judges, and drops and counts both. An irregular write to a
page is discarded and counted in GLB.ACC_ERR_CNT; an irregular read answers 0 and has no side effect. (The model's own reading
where the spec leaves one: log 12, 14.) -/
def Obligations.DiscardedWritesAreCounted : Prop :=
  (∀ (r : Requester) (off v : Word) (pg bank o : Nat) (s : State), reqServed r s = true → off.toNat % 4 = 0 →
    resolve r off.toNat s = .reg pg bank o → darkAt pg o s = true → isPairLo pg o = false →
    ∃ t, exec (.registerWrite r off 4 v) s = .next t ∧
      (getReg pgGlb 0 0x10C t).toNat = min (2 ^ 32 - 1) ((getReg pgGlb 0 0x10C s).toNat +
        (if isPairHi pg o && (tabFind (regLatch r pg bank (o - 4)) s.lat.lo).isSome then 2 else 1)) ∧
      (isPairHi pg o = true → tabFind (regLatch r pg bank (o - 4)) t.lat.lo = none) ∧
      OtherRegs (fun k => k = rk pgGlb 0 0x10C) s t ∧ SameBytes s t ∧ t.out = s.out) ∧
  (∀ (r : Requester) (off v : Word) (pg bank o : Nat) (s : State), reqServed r s = true → off.toNat % 4 = 0 →
    resolve r off.toNat s = .reg pg bank o → isPairLo pg o = true →
    ∃ t, exec (.pairLoWrite r off v) s = .next t ∧ tabFind (regLatch r pg bank o) t.lat.lo = some v ∧ t.regs = s.regs ∧
      SameBytes s t ∧ t.out = s.out) ∧
  (∀ (r : Requester) (off : Word) (size : Nat) (s : State), reqServed r s = true → regular off.toNat size = false →
    inPage r off.toNat = true → (∀ o, resolve r off.toNat s ≠ .bulk o) →
    ∃ t, exec (.rcRead r ⟨off, size⟩) s = .next t ∧ exec (.pairLoRead r ⟨off, size⟩) s = .next t ∧
      t.out = .regData r off 0 :: s.out ∧ t.lat = s.lat ∧
      (getReg pgGlb 0 0x184 t).toNat = min (2 ^ 32 - 1) ((getReg pgGlb 0 0x184 s).toNat + 1) ∧
      OtherRegs (fun k => k = rk pgGlb 0 0x184) s t ∧ SameBytes s t) ∧
  (∀ (r : Requester) (off v : Word) (size : Nat) (s : State), reqServed r s = true → regular off.toNat size = false →
    inPage r off.toNat = true → (∀ o, resolve r off.toNat s ≠ .bulk o) →
    ∃ t, exec (.registerWrite r off size v) s = .next t ∧
      (getReg pgGlb 0 0x184 t).toNat = min (2 ^ 32 - 1) ((getReg pgGlb 0 0x184 s).toNat + 1) ∧
      OtherRegs (fun k => k = rk pgGlb 0 0x184) s t ∧ RegsOnly s t)

/-- R8: a _LO read latches the _HI value, and the next _HI read returns and uses up what was latched, or the live value where
nothing was; a _LO write changes no register and is held, in place of an earlier one; the _HI write that follows writes both
halves by their access types in one step, or neither where the chapter discards a write of the pair, and uses the held write up.
Latch, held write and the latch of BUD_SEQ are kept for each requester. -/
def Obligations.RegisterPairsActInOneStep : Prop :=
  (∀ (r : Requester) (off : Word) (pg bank o : Nat) (s : State), Reaches r off pg bank o s = true → isPairLo pg o = true →
    ∃ t, exec (.pairLoRead r ⟨off, 4⟩) s = .next t ∧ t.out = .regData r off (liveVal pg bank o s) :: s.out ∧
      tabFind (regLatch r pg bank (o + 4)) t.lat.hi = some (liveVal pg bank (o + 4) s) ∧
      (∀ k, k ≠ regLatch r pg bank (o + 4) → tabFind k t.lat.hi = tabFind k s.lat.hi) ∧ t.lat.lo = s.lat.lo ∧
      t.regs = s.regs ∧ SameBytes s t) ∧
  (∀ (r : Requester) (off : Word) (pg bank o : Nat) (s : State), Reaches r off pg bank (o + 4) s = true →
    isPairLo pg o = true →
    (∀ v, tabFind (regLatch r pg bank (o + 4)) s.lat.hi = some v →
      ∃ t, exec (.rcRead r ⟨off, 4⟩) s = .next t ∧ t.out = .regData r off v :: s.out ∧
        tabFind (regLatch r pg bank (o + 4)) t.lat.hi = none ∧
        (∀ k, k ≠ regLatch r pg bank (o + 4) → tabFind k t.lat.hi = tabFind k s.lat.hi) ∧ t.lat.lo = s.lat.lo ∧
        t.regs = s.regs ∧ SameBytes s t) ∧
    (tabFind (regLatch r pg bank (o + 4)) s.lat.hi = none →
      ∃ t, exec (.rcRead r ⟨off, 4⟩) s = .next t ∧ t.out = .regData r off (liveVal pg bank (o + 4) s) :: s.out ∧ t.lat = s.lat ∧
        t.regs = s.regs ∧ SameBytes s t)) ∧
  (∀ (r : Requester) (off v : Word) (pg bank o : Nat) (s : State), Reaches r off pg bank o s = true → isPairLo pg o = true →
    ∃ t, exec (.pairLoWrite r off v) s = .next t ∧ t.regs = s.regs ∧ tabFind (regLatch r pg bank o) t.lat.lo = some v ∧
      (∀ k, k ≠ regLatch r pg bank o → tabFind k t.lat.lo = tabFind k s.lat.lo) ∧ t.lat.hi = s.lat.hi ∧ SameBytes s t) ∧
  (∀ (r : Requester) (off v w : Word) (pg bank o : Nat) (s : State), Reaches r off pg bank (o + 4) s = true →
    isPairLo pg o = true → tabFind (regLatch r pg bank o) s.lat.lo = some w →
    ∃ t, exec (.pairHiWrite r off v) s = .next t ∧ tabFind (regLatch r pg bank o) t.lat.lo = none ∧
      (∀ k, k ≠ regLatch r pg bank o → tabFind k t.lat.lo = tabFind k s.lat.lo) ∧ SameBytes s t ∧
      OtherRegs (fun k => k = rk pg bank o ∨ k = rk pg bank (o + 4)) s t ∧
      (pairFixed pg bank o s = true → t.regs = s.regs) ∧
      (pairFixed pg bank o s = false →
        getReg pg bank o t = getReg pg bank o (writeByType pg bank o w s) ∧
        getReg pg bank (o + 4) t = getReg pg bank (o + 4) (writeByType pg bank (o + 4) v s))) ∧
  (∀ (r r' : Requester) (s : State), reqServed r s = true → reqServed r' s = true → r ≠ r' →
    (∀ pg bank o pg' bank' o', pg < 256 → pg' < 256 → bank < 512 → bank' < 512 → o < 65536 → o' < 65536 →
      regLatch r pg bank o ≠ regLatch r' pg' bank' o') ∧
    (∀ o o', o < 65536 → o' < 65536 → budKey r o ≠ budKey r' o'))

/-! ## The register space: reads with an effect (R8, R9, R322, R386) -/

/-- R8, R9, R322, R386: a read answers the register's value; of a _LO register it latches the _HI value for the requester, of an
RC field it clears the field, of BUD_SEQ it latches the other budget registers for the requester, of ATT_STS it resets a
finished code to NONE. No memory byte changes. (The model's own reading where the spec leaves one: log 12, 14.) -/
def Obligations.ReadsLatchOrClear : Prop :=
  (∀ (r : Requester) (off : Word) (pg bank o : Nat) (s : State), Reaches r off pg bank o s = true → isPairLo pg o = true →
    ∃ t, exec (.pairLoRead r ⟨off, 4⟩) s = .next t ∧ t.out = .regData r off (liveVal pg bank o s) :: s.out ∧
      tabFind (regLatch r pg bank (o + 4)) t.lat.hi = some (liveVal pg bank (o + 4) s) ∧ t.regs = s.regs ∧ SameBytes s t) ∧
  (∀ (r : Requester) (off : Word) (pg bank o : Nat) (s : State), Reaches r off pg bank o s = true →
    accBits (fun a => a == .rc) pg o ≠ 0 →
    ∃ t, exec (.rcRead r ⟨off, 4⟩) s = .next t ∧ t.out = .regData r off (liveVal pg bank o s) :: s.out ∧
      getReg pg bank o t = getReg pg bank o s &&& ~~~ (accBits (fun a => a == .rc) pg o) ∧
      OtherRegs (fun k => k = rk pg bank o) s t ∧ SameBytes s t) ∧
  (∀ (r : Requester) (s : State), Heard r pgPwr 0x1A0 s = true →
    ∃ t, exec (.budSeqRead r) s = .next t ∧ t.out = .regData r 0x21A0#32 (liveVal pgPwr 0 0x1A0 s) :: s.out ∧
      (∀ i < 19, tabFind (budKey r (0x1A4 + 4 * i)) t.lat.bud = some (liveVal pgPwr 0 (0x1A4 + 4 * i) s)) ∧
      t.regs = s.regs ∧ SameBytes s t) ∧
  (∀ (r : Requester) (s : State), reachesBlocks r = true → reqServed r s = true → dark pgAtt s = false →
    ∃ t, exec (.attStsRead r .sec) s = .next t ∧ t.out = .regData r 0x41CC#32 (liveVal pgAtt 64 0xC s) :: s.out ∧
      getFld pgAtt 64 0xC 0 3 t = (if getFld pgAtt 64 0xC 0 3 s = 1 then 1 else 0) ∧
      OtherRegs (fun k => k = rk pgAtt 64 0xC) s t ∧ SameBytes s t) ∧
  (∀ (r : Requester) (f : Fin 64) (s : State), reachesRegion r f.val = true → reqServed r s = true → dark pgAtt s = false →
    ∃ t, exec (.attStsRead r (.func f)) s = .next t ∧
      t.out = .regData r (attStsOff r (.func f)) (liveVal pgAtt f.val 0xC s) :: s.out ∧
      getFld pgAtt f.val 0xC 0 3 t = (if getFld pgAtt f.val 0xC 0 3 s = 1 then 1 else 0) ∧
      OtherRegs (fun k => k = rk pgAtt f.val 0xC) s t ∧ SameBytes s t)

/-! ## Resets (R345, R348, R349, R351, R368, R372, R391, R439) -/

/-- What a device reset leaves (Table 13-7, R348, R351, R368, R372): the cause and the count; every register at its reset value
but RST_CAUSE, BOOT_US, BOOT_STS, the mode bits and ERRN_CTL; EPOCH.VALUE of every page kept; HBM lost, the flash and the
first 128 KiB of the AON SRAM kept; no slot, job, kernel or translation; the commands that wait stay. -/
def Sys2Proof.Claims.DeviceWasReset (code : Nat) (held : Bool) (s t : State) : Prop :=
  getFld pgRst 0 0x128 0 4 t = code ∧
  getFld pgRst 0 0x128 16 16 t = min 65535 (getFld pgRst 0 0x128 16 16 s + 1) ∧
  t.rst.held = held ∧ stage t = 0 ∧ t.pending = s.pending ∧ t.fe = {} ∧ t.cpt = {} ∧ t.mmu = {} ∧ t.dma = {} ∧
  (∀ pg, pg < 146 → getFld pg 0 0x03C 0 16 t = getFld pg 0 0x03C 0 16 s) ∧
  (∀ pg bank off, bank < 512 → off < 65536 → ¬ (pg < 146 ∧ off = 0x03C) → ¬ (pg = pgRst ∧ 0x128 ≤ off ∧ off ≤ 0x130) →
    ¬ (pg = pgGlb ∧ off = 0x104) → ¬ (pg = pgPci ∧ off = 0x100) → ¬ (pg = pgBsn ∧ off = 0x148) →
    getReg pg bank off t = resetVal pg bank off) ∧
  (∀ a n, hbmBytes a n t = List.replicate n 0) ∧ (∀ a n, flashBytes a n t = flashBytes a n s) ∧
  (∀ a, a < 0x20000 → memByte (Config.aonByte t.aon.gen) t.mem.aon a = memByte (Config.aonByte s.aon.gen) s.mem.aon a)

/-- R348, R351: SYS_RST_N_ASSERT resets everything, the AON domain included: only RST_CAUSE tells whether the pin was high
before, and flash bytes stay where no unit is in progress. R3, R345: the deassertion samples BOOT_MODE into the mode bits of
GLB, RST and PCI, releases the reset, and changes no other register. (The model's own reading where the spec leaves one: log 4,
7.) -/
def Obligations.ColdResetClearsEveryRegister : Prop :=
  (∀ s : State, ∃ t, exec .sysRstNAssert s = .next t ∧ t.rst.held = true ∧ t.pins.sysRstN = false ∧ t.pins.errN = true ∧
    getFld pgRst 0 0x128 0 4 t = b2n s.pins.sysRstN ∧
    OtherRegs (fun k => k = rk pgRst 0 0x128) State.reset t ∧ t.aon.ms = 0 ∧ t.fe = {} ∧ t.cpt = {} ∧ t.bsn = {} ∧
    t.pending = s.pending ∧ (∀ a n, hbmBytes a n t = List.replicate n 0) ∧
    (cstBusy s = false → ∀ a n, flashBytes a n t = flashBytes a n s)) ∧
  (∀ (mode : Bool) (s : State), s.pins.sysRstN = false → s.rst.held = true → s.rst.perst = false → s.pins.extest = false →
    ∃ t, exec (.sysRstNDeassert mode) s = .next t ∧ t.rst.held = false ∧ t.rst.bootUs = 0 ∧ t.pins.bootMode = mode ∧
      selfHosted t = mode ∧ bit (getReg pgRst 0 0x12C t) 4 = mode ∧ bit (getReg pgPci 0 0x100 t) 0 = mode ∧
      stage t = stage s ∧ SameBytes s t ∧
      OtherRegs (fun k => k = rk pgGlb 0 0x104 ∨ k = rk pgRst 0 0x12C ∨ k = rk pgPci 0 0x100) s t)

/-- R348, R351, R366, R391: a device reset by RST_CTL.DEV_RST, by Basin's STOP_DEVICE, or one that waited for Cistern has the
effects of Table 13-7 and boots unless PERST or EXTEST holds it; while a unit of Cistern is in progress it waits. EXTEST does
the same without a cause of its own and holds the reset; its release boots. R439: a RESET packet with the domain's tag, and
DOM_CTL.RESET by a requester that may write it, reset the device with cause 4; a packet with another tag is dropped without any
effect. (The model's own reading where the spec leaves one: log 63, 74.) -/
def Obligations.DeviceResetKeepsOnlyWhatItMust : Prop :=
  (∀ (r : Requester) (s : State), mayReset r = true → Heard r pgRst 0x120 s = true → s.pins.sysRstN = true →
    cstBusy s = false →
    ∃ t, exec (.deviceReset (.devRst r)) s = .next t ∧ DeviceWasReset 2 (s.rst.perst || s.pins.extest) s t) ∧
  (∀ (r : Requester) (s : State), mayReset r = true → Heard r pgRst 0x120 s = true → s.pins.sysRstN = true →
    cstBusy s = true → s.rst.pending = none →
    ∃ t, exec (.deviceReset (.devRst r)) s = .next t ∧ t.rst.pending = some (.devRst r) ∧ t.fe = s.fe ∧ SameBytes s t ∧
      OtherRegs (fun k => k = rk pgRst 0 0x120) s t) ∧
  (∀ s : State, s.bsn.stop = true → bit (getReg pgBsn 0 0x148 s) 16 = false → s.pins.sysRstN = true → cstBusy s = false →
    ∃ t, exec (.deviceReset .basin) s = .next t ∧ DeviceWasReset 3 (s.rst.perst || s.pins.extest) s t ∧
      t.pins.errN = false ∧ bit (getReg pgBsn 0 0x148 t) 0 = false) ∧
  (∀ (c : RstCause) (s : State), c = .svaumon ∨ c = .perst ∨ c = .wakeOff → s.rst.pending = some c →
    s.pins.sysRstN = true → cstBusy s = false →
    ∃ t, exec (.deviceReset c) s = .next t ∧ DeviceWasReset (causeCode c) (s.rst.perst || s.pins.extest) s t) ∧
  (∀ s : State, s.pins.extest = false → s.pins.sysRstN = true → s.rst.held = false → cstBusy s = false →
    ∃ t, exec .extest s = .next t ∧ t.pins.extest = true ∧ DeviceWasReset (getFld pgRst 0 0x128 0 4 s) true s t) ∧
  (∀ s : State, s.pins.extest = true → s.pins.sysRstN = true → s.rst.held = true → s.rst.perst = false →
    ∃ t, exec .extestDeselect s = .next t ∧ t.pins.extest = false ∧ t.rst.held = false ∧ stage t = stage s ∧
      OtherRegs (fun k => k = rk pgGlb 0 0x104 ∨ k = rk pgRst 0 0x12C ∨ k = rk pgPci 0 0x100) s t) ∧
  (∀ (p : Packet) (s : State), dark (pgSvl 0) s = false → p.op = 0xD#4 → s.svl.inbox.contains p = true →
    leNat (p.data.take 4) = (domTag s).toNat → s.pins.sysRstN = true → cstBusy s = false →
    ∃ t, exec (.linkReset p) s = .next t ∧ DeviceWasReset 4 (s.rst.perst || s.pins.extest) s t ∧ t.svl = {}) ∧
  (∀ (p : Packet) (s : State), dark (pgSvl 0) s = false → p.op = 0xD#4 → s.svl.inbox.contains p = true →
    leNat (p.data.take 4) ≠ (domTag s).toNat →
    ∃ t, exec (.linkReset p) s = .next t ∧ t.svl.inbox = s.svl.inbox.erase p ∧ t.regs = s.regs ∧ t.rst = s.rst ∧
      t.out = s.out ∧ SameBytes s t) ∧
  (∀ (r : Requester) (v : Word) (s : State), Heard r (pgSvl 0) 0x200 s = true → bit v 31 = true → mayDomReset r s = true →
    bit (getReg (pgSvl 0) 0 0x200 s) 31 = false → s.pins.sysRstN = true → cstBusy s = false →
    ∃ t, exec (.domainResetRequest r v) s = .next t ∧ DeviceWasReset 4 (s.rst.perst || s.pins.extest) s t)

/-- R348, R349: DOM_RST.GO starts a domain reset that a powered domain without a fence refuses with ERR; IN_RESET stands in the
domain's pages until the end, which clears GO, leaves the domain gated with EPOCH kept and every other register of its pages at
its reset value, and raises its condition. (The model's own reading where the spec leaves one: log 63, 82, 84.) -/
def Obligations.DomainResetRunsAndEnds : Prop :=
  (∀ (r : Requester) (v : Word) (s : State), Heard r pgRst 0x124 s = true → bit v 31 = true → s.rst.domReset = none →
    ∃ t, exec (.powerDomainReset r v) s = .next t ∧
      (domRstRefuses (fld v 0 7) s = true → t.rst.domReset = none ∧ bit (getReg pgRst 0 0x124 t) 30 = true ∧
        bit (getReg pgRst 0 0x124 t) 31 = bit (getReg pgRst 0 0x124 s) 31 ∧
        OtherRegs (fun k => k = rk pgRst 0 0x124) s t) ∧
      (domRstRefuses (fld v 0 7) s = false → t.rst.domReset = some (fld v 0 7) ∧
        bit (getReg pgRst 0 0x124 t) 31 = true ∧ ∀ pg ∈ domainPages (fld v 0 7), inReset pg t = true)) ∧
  (∀ (d : Nat) (s : State), s.rst.domReset = some d → d < 120 →
    ∃ t, exec .powerDomainResetDone s = .next t ∧ bit (getReg pgRst 0 0x124 t) 31 = false ∧
      bit (getReg pgRst 0 0x010 t) 3 = true ∧
      domainPowered d t = false ∧ ∀ pg ∈ domainPages d, powered pg t = false ∧ inReset pg t = false ∧
        (∀ bank off, bank < 512 → off < 65536 → off ≠ 0x03C → off ≠ 0x00C →
          getReg pg bank off t = resetVal pg bank off))

/-! ## Boot (R143, R345, R346, R375, R378) -/

/-- R345, R346, R375: the end of verification runs segment 0 with STAGE FIRMWARE and the image's manifest, or records the code
in BOOT_ERR, counts VERIFY_ERR and enters RECOVERY. R143: a stack's training sets READY, and the last one sets CAP.HBM_MIB.
R345, R378: READY follows the site record, sets BOOT_US and the locks. (The model's own reading where the spec leaves one: log
58, 59, 60.) -/
def Obligations.BootStagesAdvance : Prop :=
  (∀ s : State, s.rst.held = false → stage s ≤ 2 → ∃ t, exec .bootVerifyComplete s = .next t ∧
    (verifyImage (fun a n => flashBytes a n (romReads s)) (romReads s) = 0 →
      stage t = 3 ∧ t.sec.manifest = fitBytes 2048 (flashBytes 0 2048 s)) ∧
    (verifyImage (fun a n => flashBytes a n (romReads s)) (romReads s) ≠ 0 →
      stage t = 7 ∧
      getFld pgSec 0 0x10C 0 4 t = verifyImage (fun a n => flashBytes a n (romReads s)) (romReads s) % 16 ∧
      getFld pgRst 0 0x12C 8 8 t = min 255 (getFld pgRst 0 0x12C 8 8 s + 1))) ∧
  (∀ (n : Fin 4) (s : State), s.rst.held = false → dark (pgHbc n.val) s = false →
    bit (getReg (pgHbc n.val) 0 0x100 s) 0 = true → bit (getReg (pgHbc n.val) 0 0x104 s) 0 = false → stage s ≠ 4 →
    ∃ t, exec (.hbmReady n) s = .next t ∧ bit (getReg (pgHbc n.val) 0 0x104 t) 0 = true ∧ SameBytes s t ∧
      ((∀ m, m < 4 → m ≠ n.val → bit (getReg (pgHbc m) 0 0x104 s) 0 = true) →
        getReg pgCap 0 0x114 t = w32 (hbmMib s)) ∧
      OtherRegs (fun k => k = rk (pgHbc n.val) 0 0x104 ∨ k = rk pgCap 0 0x114) s t) ∧
  (∀ s : State, s.rst.held = false → stage s = 5 ∨ (stage s = 4 ∧ s.rst.loaded = true) →
    stage (siteApply (setStage 5 s)) = 5 →
    ∃ t, exec .bootStageReady s = .next t ∧ stage t = 6 ∧
      getReg pgRst 0 0x130 t = w32 (siteApply (setStage 5 s)).rst.bootUs ∧
      ∀ pg ∈ bootLocks (copyStop (resBoot (siteApply (setStage 5 s)))), locked pg t = true)

/-! ## Power states (R332 to R343) -/

/-- R332, R334 to R336: a request for the current state ends at once; a request from ON for a state that asks any block starts
the handshake with every page that must answer; a block's refusal, or its delay past its limit, aborts it with the domain and
the reason; a delay is written to PWR_ACK; an acceptance takes the page from those that are waited for. (The model's own reading
where the spec leaves one: log 1, 62, 81.) -/
def Obligations.PowerHandshakeFollowsTheAnswers : Prop :=
  (∀ (r : Requester) (v : Word) (s : State), Heard r pgRst 0x100 s = true → mayState r = true → bit v 31 = true →
    bit (getReg pgRst 0 0x100 s) 31 = false → s.rst.exiting = false → s.rst.trans = none →
    ∃ t, exec (.stateRequest r v) s = .next t ∧ getFld pgRst 0 0x100 0 2 t = fld v 0 2 ∧
      (fld v 0 2 = devState s → bit (getReg pgRst 0 0x100 t) 31 = false ∧ bit (getReg pgRst 0 0x010 t) 0 = true ∧
        t.rst = s.rst ∧ devState t = devState s) ∧
      (devState s = 0 → fld v 0 2 ≠ 0 → askedPages (fld v 0 2) s ≠ [] →
        bit (getReg pgRst 0 0x100 t) 31 = true ∧ devState t = 0 ∧
        t.rst.trans = some { target := fld v 0 2, prev := 0, seq := (s.rst.seq + 1) % 64,
                             waiting := askedPages (fld v 0 2) s }) ∧
      (devState s = 1 → fld v 0 2 = 0 → devState t = 0)) ∧
  (∀ (page : Fin 146) (x : Trans) (reason : Nat) (a : PwrResp) (s : State), s.rst.trans = some x →
    x.waiting.contains page.val = true → mustRefuse page.val x.target s = some reason →
    ∃ t, exec (.blockPowerResponse page a) s = .next t ∧ t.rst.trans = none ∧
      getFld pgRst 0 0x104 16 8 t = reason % 256 ∧ getFld pgRst 0 0x104 8 7 t = pageDomain page.val % 128 ∧
      bit (getReg pgRst 0 0x100 t) 31 = false ∧ bit (getReg pgRst 0 0x010 t) 1 = true) ∧
  (∀ (page : Fin 146) (x : Trans) (us : BitVec 16) (s : State), s.rst.trans = some x →
    x.waiting.contains page.val = true → mustRefuse page.val x.target s = none → pageDomain page.val ≠ 120 →
    ∃ t, exec (.blockPowerResponse page (.delay us)) s = .next t ∧ t.rst = s.rst ∧
      getFld page.val 0 0x034 0 2 t = 3 ∧ getFld page.val 0 0x034 16 16 t ≤ us.toNat ∧
      OtherRegs (fun k => k = rk page.val 0 0x034) s t) ∧
  (∀ (page : Fin 146) (x : Trans) (s : State), s.rst.trans = some x → x.waiting.contains page.val = true →
    mustRefuse page.val x.target s = none → holdsAccept page.val x.target s = false →
    x.waiting.filter (· != page.val) ≠ [] →
    ∃ t, exec (.blockPowerResponse page .accept) s = .next t ∧
      t.rst = { s.rst with trans := some { x with waiting := x.waiting.filter (· != page.val) } } ∧
      (pageDomain page.val ≠ 120 → getFld page.val 0 0x034 0 2 t = 1)) ∧
  (∀ (page : Fin 146) (x : Trans) (s : State), s.rst.trans = some x → x.waiting.contains page.val = true →
    delayLimit page.val ≤ x.waited → delaying page.val x s = true →
    ∃ t, exec (.powerDelayExpiry page) s = .next t ∧ t.rst.trans = none ∧ getFld pgRst 0 0x104 16 8 t = 8 ∧
      (page.val ≠ pgHcx → getFld pgRst 0 0x104 8 7 t = pageDomain page.val % 128) ∧
      (page.val = pgHcx → 96 ≤ getFld pgRst 0 0x104 8 7 t ∧ getFld pgRst 0 0x104 8 7 t ≤ 104) ∧
      bit (getReg pgRst 0 0x100 t) 31 = false) ∧
  (∀ (page : Fin 146) (x : Trans) (reason : Nat) (a : PwrResp) (s : State), s.rst.trans = none → s.rst.aborted = some x →
    x.waiting.contains page.val = true → mustRefuse page.val x.target s = some reason → page.val ≠ pgRst →
    ∃ t, exec (.blockPowerResponse page a) s = .next t ∧ t.rst = s.rst ∧
      getFld pgRst 0 0x104 8 7 t = min (pageDomain page.val) (getFld pgRst 0 0x104 8 7 s) ∧
      (pageDomain page.val < getFld pgRst 0 0x104 8 7 s → getFld pgRst 0 0x104 16 8 t = reason % 256))

/-- R337, R340 to R342, Table 13-5: an enabled source whose condition holds starts the exit from SLEEP, ends DOZE at once, and
aborts an entry from ON or DOZE; the wake counter is such a source; the end of the exit makes the state ON with WAKE_STS as
sampled and raises its condition. (The model's own reading where the spec leaves one: log 1, 62, 78, 83, 84.) -/
def Obligations.WakeSourcesEndLowPowerStates : Prop :=
  (∀ (w : WakeSrc) (s : State), w ≠ .perst → s.rst.held = false → bit (getReg pgRst 0 0x108 s) (wakeBit w) = true →
    wakeHolds w s = true → s.rst.trans = none →
    ∃ t, exec (.wakeEvent w) s = .next t ∧
      (devState s = 2 → s.rst.exiting = false →
        t.rst = { s.rst with exiting := true, exitSrc := 2 ^ wakeBit w } ∧ t.regs = s.regs) ∧
      (devState s = 1 → devState t = 0 ∧ getReg pgRst 0 0x10C t = oneBit (wakeBit w)) ∧
      (devState s = 0 → t.regs = s.regs ∧ t.rst = s.rst)) ∧
  (∀ (w : WakeSrc) (x : Trans) (s : State), w ≠ .perst → s.rst.held = false →
    bit (getReg pgRst 0 0x108 s) (wakeBit w) = true → wakeHolds w s = true → s.rst.trans = some x → devState s < 2 →
    ∃ t, exec (.wakeEvent w) s = .next t ∧ t.rst.trans = none ∧ bit (getReg pgRst 0 0x104 t) 25 = true ∧
      bit (getReg pgRst 0 0x100 t) 31 = false ∧ devState t = devState s) ∧
  (∀ s : State, selfHosted s = false → s.pins.perstN = false → s.rst.held = false →
    exec .pciePerstNDeassert s = exec (.wakeEvent .perst) s ∧
    ∃ t, exec (.wakeEvent .perst) s = .next t ∧ t.pins.perstN = true ∧
      (bit (getReg pgRst 0 0x108 s) 7 = false → t.rst = { s.rst with perst := false } ∧ inReset pgPci t = false ∧
        OtherRegs (fun k => k = rk pgPci 0 0x00C) s t) ∧
      (bit (getReg pgRst 0 0x108 s) 7 = true → devState s = 1 → s.rst.trans = none →
        devState t = 0 ∧ getReg pgRst 0 0x10C t = 0x80#32) ∧
      (bit (getReg pgRst 0 0x108 s) 7 = true → devState s < 2 → s.rst.trans ≠ none →
        t.rst.trans = none ∧ bit (getReg pgRst 0 0x104 t) 25 = true ∧ devState t = devState s)) ∧
  (∀ s : State, s.rst.held = false → bit (getReg pgRst 0 0x108 s) 6 = true → wakeCntDue s = true → s.rst.trans = none →
    devState s = 2 → s.rst.exiting = false →
    ∃ t, exec .wakeCounterExpiry s = .next t ∧ t.rst = { s.rst with exiting := true, exitSrc := 64 } ∧ t.regs = s.regs) ∧
  (∀ s : State, s.rst.exiting = true → devState s = 2 →
    ∃ t, exec .sleepExitComplete s = .next t ∧ devState t = 0 ∧ t.rst.exiting = false ∧
      getReg pgRst 0 0x10C t = w32 s.rst.exitSrc ∧ bit (getReg pgRst 0 0x010 t) 2 = true)

/-! ## AON time, clocks, the analogue block, Cistern (R27, R351 to R353, R463 to R467) -/

/-- R27, R463, R464, R465, R467: a millisecond step counts once and moves the fraction; the switch to the crystal starts it at
0; a conversion shows its code, its count and VALID at the next enabled input; the reference check tells whether it is in range
(source 287 where not); a PLL that loses lock counts and unlocks; a comparator's crossing sets its output and RISE or FALL. (The
model's own reading where the spec leaves one: log 78.) -/
def Obligations.AonCountersAndConverters : Prop :=
  (∀ s : State, s.pins.sysRstN = true → ∃ t, exec .aonMsStep s = .next t ∧ t.aon.ms = s.aon.ms + 1 ∧
    (s.aon.onCrystal = true → t.aon.f = (s.aon.f + 96) % 125 ∨ 125 ≤ s.aon.f) ∧
    (s.aon.onCrystal = true → s.aon.f < 125 → 125 * t.aon.cycles + t.aon.f = 125 * s.aon.cycles + s.aon.f + 4096) ∧
    (devState s < 2 → t.aon.wake = s.aon.wake) ∧ t.regs = s.regs ∧ SameBytes s t) ∧
  (∀ s : State, s.pins.sysRstN = true → s.aon.onCrystal = false → ∃ t, exec .crystalSwitch s = .next t ∧
    t.aon = { s.aon with onCrystal := true, f := 0, cycles := 0 } ∧ t.regs = s.regs) ∧
  (∀ (code : BitVec 12) (i : Nat) (s : State), s.pins.sysRstN = true → s.rst.held = false → adcNext s = some i →
    ∃ t, exec (.adcConversion code) s = .next t ∧ t.aon.adcLast = i ∧ getFld pgAna 0 (0x108 + 4 * i) 0 12 t = code.toNat ∧
      getFld pgAna 0 (0x108 + 4 * i) 16 15 t = (getFld pgAna 0 (0x108 + 4 * i) 16 15 s + 1) % 2 ^ 15 ∧
      bit (getReg pgAna 0 (0x108 + 4 * i) t) 31 = true ∧ OtherRegs (fun k => k = rk pgAna 0 (0x108 + 4 * i)) s t) ∧
  (∀ (code : BitVec 12) (s : State), s.pins.sysRstN = true → s.rst.held = false →
    ∃ t, exec (.adcReferenceCheck code) s = .next t ∧
      (refInRange code.toNat = true → bit (getReg pgAna 0 0x104 t) 0 = true ∧ t.bsn = s.bsn ∧
        OtherRegs (fun k => k = rk pgAna 0 0x104) s t) ∧
      (refInRange code.toNat = false → bit (getReg pgAna 0 0x104 t) 0 = false ∧ bit (getReg pgAna 0 0x020 t) 1 = true)) ∧
  (∀ (dom : Fin 24) (s : State), 2 ≤ dom.val → clkLocked dom.val s = true →
    ∃ t, exec (.pllLossOfLock dom) s = .next t ∧ clkLocked dom.val t = false ∧
      (getReg pgClk 0 0x104 t).toNat = min (2 ^ 32 - 1) ((getReg pgClk 0 0x104 s).toNat + 1)) ∧
  (∀ (c : Fin 4) (microV : Nat) (s : State), s.pins.sysRstN = true → s.rst.held = false → devState s ≠ 3 →
    ∃ t, exec (.comparatorCrossing c microV) s = .next t ∧ cmpOut c.val t = cmpNext c.val microV s ∧
      (cmpNext c.val microV s ≠ cmpOut c.val s →
        bit (getReg pgAna 0 0x138 t) (if cmpNext c.val microV s then 4 + c.val else 8 + c.val) = true))

/-- R352, R353: before a unit Cistern converts AIN7 and starts it where the energy suffices, else defers it for RETRY_MS; after
that the check is made again; the end of a unit writes its bytes to the flash and no others, and the next unit is at the front.
(The model's own reading where the spec leaves one: log 64.) -/
def Obligations.CisternWritesOneUnitAtATime : Prop :=
  (∀ (code : BitVec 12) (u : FlashUnit × FlashOwner) (rest : List (FlashUnit × FlashOwner)) (s : State),
    s.cst.queue = u :: rest → cstBusy s = false → s.cst.waiting = false → s.rst.held = false →
    ∃ t, exec (.cisternUnitStart code) s = .next t ∧ t.cst.queue = s.cst.queue ∧ SameBytes s t ∧
      getFld pgAna 0 0x124 0 12 t = code.toNat ∧
      (huNeed u.1 s ≤ huAvail (huVolts code.toNat s) s → getFld pgCst 0 0x100 0 24 s ≠ 0 →
        cstBusy t = true ∧ t.cst.waiting = false) ∧
      (huAvail (huVolts code.toNat s) s < huNeed u.1 s → cstBusy t = false ∧ t.cst.waiting = true ∧
        t.cst.retryAt = s.aon.ms + max 1 (getFld pgCst 0 0x110 0 8 s))) ∧
  (∀ s : State, s.cst.waiting = true → s.cst.retryAt ≤ s.aon.ms →
    ∃ t, exec .cisternRetryExpiry s = .next t ∧ t.cst = { s.cst with waiting := false } ∧ t.regs = s.regs ∧ SameBytes s t) ∧
  (∀ (u : FlashUnit × FlashOwner) (rest : List (FlashUnit × FlashOwner)) (s : State), s.cst.queue = u :: rest →
    cstBusy s = true →
    ∃ t, exec .cisternUnitComplete s = .next t ∧
      (∀ a bs, u.1 = .prog a bs → flashBytes a bs.length t = bs) ∧
      (∀ sec, u.1 = .erase sec → flashBytes (sec * 4096) 4096 t = List.replicate 4096 0xFF#8) ∧
      (∀ a, a < (unitRange u.1).1 ∨ (unitRange u.1).1 + (unitRange u.1).2 ≤ a →
        memByte Config.flashByte t.mem.flash a = memByte Config.flashByte s.mem.flash a) ∧
      (s.rst.pending = none → s.pins.extest = false → cstBusy t = false ∧ rest <+: t.cst.queue))

/-! ## Proofer (R19, R20, R304, R308 to R328) -/

/-- The counters of Proofer run: ON or DOZE, out of reset (R28). -/
abbrev Sys2Proof.Claims.Counting (s : State) : Prop := counting s = true

/-- What a publication shows (R19, R20, R320 to R322): BUD_SEQ one higher, a cap of 150 W to 500 W in the flags with the cause,
the device budget of 100 µJ a watt, cluster allowances that together do not exceed it, and a new period. -/
def Sys2Proof.Claims.Published (ooc : Bool) (s t : State) : Prop :=
  getReg pgPwr 0 0x1A0 t = getReg pgPwr 0 0x1A0 s + 1 ∧ bit (getReg pgPwr 0 0x1A4 t) 0 = ooc ∧
  150 ≤ getFld pgPwr 0 0x1A4 16 9 t ∧ getFld pgPwr 0 0x1A4 16 9 t ≤ 500 ∧
  (getReg pgPwr 0 0x1A8 t).toNat = 100 * getFld pgPwr 0 0x1A4 16 9 t ∧
  ((List.range 16).map (fun c => clAllow c t)).sum ≤ (getReg pgPwr 0 0x1A8 t).toNat ∧
  t.pwr.count = 0 ∧ t.pwr.oocDue = false ∧ t.pwr.cut = ooc

/-- R19, R20, R304, R314, R318 to R321, R325, R326: after 100 counts, or when a comparator or cap change is due, Proofer publishes,
and of cores, jobs and memory nothing changes. A sample counts one microsecond, adds no negative energy, keeps the last 1,000 counts
and the idle time of each core; a temperature sample shows the reading, VALID, and counts consecutive readings above the
critical limit; a hard overdraw sets source 230 and publishes out of cycle, with the overdraw in force while the comparator asserts.
(The model's own reading where the spec leaves one: log 13, 17, 19, 22.) -/
def Obligations.SamplesAndPublicationsKeepTheBudget : Prop :=
  (∀ s : State, Counting s → 100 ≤ s.pwr.count → s.pwr.ovrDue = false ∨ ovrSignal s = true →
    ∃ t, exec .budgetPublish s = .next t ∧ Published false s t ∧ t.fe = s.fe ∧ t.cpt = s.cpt ∧ SameBytes s t) ∧
  (∀ s : State, Counting s → s.pwr.oocDue = true →
    ∃ t, exec .outOfCyclePublication s = .next t ∧ Published true s t ∧ bit (getReg pgPwr 0 0x010 t) 0 = true ∧
      t.fe = s.fe ∧ t.cpt = s.cpt ∧ SameBytes s t) ∧
  (∀ (evs : List EnergyEvent) (s : State), Counting s →
    ∃ t, exec (.energySample evs) s = .next t ∧ t.pwr.count = s.pwr.count + 1 ∧ s.pwr.dev ≤ t.pwr.dev ∧
      t.pwr.win.length = min 1000 (s.pwr.win.length + 1) ∧
      (∀ p, p < 80 → tabGet 0 p t.pwr.idle = if coreBusy p s then 0 else tabGet 0 p s.pwr.idle + 1) ∧
      getPair pgPwr 0 0x130 t = toUj t.pwr.dev % 2 ^ 64 ∧ SameBytes s t) ∧
  (∀ (i : Fin 32) (temp : BitVec 12) (s : State), Counting s →
    ∃ t, exec (.sensorSample i temp) s = .next t ∧ getFld pgPwr i.val 0x18C 0 12 t = temp.toNat ∧
      bit (getReg pgPwr i.val 0x18C t) 31 = true ∧
      tabGet 0 i.val t.pwr.critRun =
        (if critLimit i.val s < sext 12 temp.toNat then tabGet 0 i.val s.pwr.critRun + 1 else 0) ∧ SameBytes s t) ∧
  (∀ s : State, Counting s → s.pwr.ovrDue = true →
    ∃ t, exec .hardOverdraw s = .next t ∧ t.pwr.ovr = ovrSignal s ∧ t.pwr.ovrDue = false ∧
      bit (getReg pgAna 0 0x020 t) 0 = true ∧ getReg pgPwr 0 0x1A0 t = getReg pgPwr 0 0x1A0 s + 1 ∧
      (ovrSignal s = true → Published true s t) ∧ (ovrSignal s = false → t.pwr.oocDue = true) ∧ SameBytes s t)

/-- R304, R307 to R309, R311 to R313: a microsecond of a step moves the PLL by at most 50 MHz and the rail by at most 10 mV, one
of them only, and the PLL rises only with the rail at the target's voltage; no core runs above its binned maximum, and the
skipper removes no cycle more than that takes; a completed step shows the target point, its rail and its frequency; a rail below the level starts a droop, counts it
and stretches the clock; its end starts the 10 µs hold, whose expiry lets held steps go on; a core idle for IDLE_US loses its
power and no other core does. (The model's own reading where the spec leaves one: log 18, 20, 21, 80.) -/
def Obligations.StepsDroopsAndIdleGating : Prop :=
  (∀ (evs : List EnergyEvent) (c : Fin 16) (s : State), Counting s →
    ∃ t, exec (.energySample evs) s = .next t ∧
      (railMv c.val t = railMv c.val s ∨ pllMhz c.val t = pllMhz c.val s) ∧
      railMv c.val t ≤ railMv c.val s + 10 ∧ railMv c.val s ≤ railMv c.val t + 10 ∧
      pllMhz c.val t ≤ pllMhz c.val s + 50 ∧ pllMhz c.val s ≤ pllMhz c.val t + 50 ∧
      (pllMhz c.val s < pllMhz c.val t →
        pointMv c.val (tabGet (clPoint c.val s) c.val s.pwr.target) s ≤ railMv c.val s) ∧
      (tabGet false c.val s.pwr.stepping = false ∨ tabGet false c.val s.pwr.droop = true ∨
        tabGet false c.val s.pwr.hold = true → railMv c.val t = railMv c.val s ∧ pllMhz c.val t = pllMhz c.val s)) ∧
  (∀ (p : Fin 80) (s : State), coreClock64 p.val s ≤ 64 * coreMax p.val s ∧
    ∀ k, k < skipOf p.val s → 64 * coreMax p.val s < pllMhz (p.val / 5) s * (64 - k)) ∧
  (∀ (c : Fin 16) (s : State), tabGet false c.val s.pwr.stepping = true → tabGet false c.val s.pwr.droop = false →
    tabGet false c.val s.pwr.hold = false →
    ∃ t, exec (.dvfsStepComplete c) s = .next t ∧ clPoint c.val t = tabGet (clPoint c.val s) c.val s.pwr.target % 16 ∧
      railMv c.val t = pointMv c.val (clPoint c.val t) t ∧ pllMhz c.val t = pointMhz c.val (clPoint c.val t) t ∧
      tabGet false c.val t.pwr.stepping = false ∧ (∀ d, d < 16 → d ≠ c.val → clPoint d t = clPoint d s) ∧ SameBytes s t) ∧
  (∀ (c : Fin 16) (rail : Nat) (s : State), clPowered c.val s = true → rail < droopLevel c.val s →
    tabGet false c.val s.pwr.droop = false →
    ∃ t, exec (.droopDetect c rail) s = .next t ∧ tabGet false c.val t.pwr.droop = true ∧
      tabGet false c.val t.pwr.hold = false ∧ bit (getReg (pgWeir c.val) 0 0x104 t) 0 = true ∧
      (getReg (pgWeir c.val) 0 0x108 t).toNat = min (2 ^ 32 - 1) ((getReg (pgWeir c.val) 0 0x108 s).toNat + 1) ∧
      t.pwr.target = s.pwr.target ∧ SameBytes s t) ∧
  (∀ (c : Fin 16) (rail : Nat) (s : State), Counting s → tabGet false c.val s.pwr.droop = true →
    droopLevel c.val s + getFld (pgWeir c.val) 0 0x100 8 8 s ≤ rail →
    ∃ t, exec (.droopClear c rail) s = .next t ∧ tabGet false c.val t.pwr.droop = false ∧
      tabGet false c.val t.pwr.hold = true ∧
      (bit (getReg (pgWeir c.val) 0 0x104 s) 1 = false → bit (getReg (pgWeir c.val) 0 0x104 t) 0 = false) ∧ SameBytes s t) ∧
  (∀ (c : Fin 16) (s : State), Counting s → tabGet false c.val s.pwr.hold = true → tabGet false c.val s.pwr.droop = false →
    ∃ t, exec (.dvfsHoldExpiry c) s = .next t ∧ tabGet false c.val t.pwr.hold = false ∧
      bit (getReg (pgWeir c.val) 0 0x104 t) 2 = false ∧ OtherRegs (fun k => k = rk (pgWeir c.val) 0 0x104) s t ∧
      t.pwr = { s.pwr with hold := tabSet c.val false s.pwr.hold } ∧ SameBytes s t) ∧
  (∀ (p : Fin 80) (s : State), getFld pgPwr 0 0x11C 0 8 s ≠ 0 → getFld pgPwr 0 0x11C 0 8 s ≤ tabGet 0 p.val s.pwr.idle →
    coreBusy p.val s = false → powered (pgSc p.val) s = true →
    ∃ t, exec (.coreIdleGate p) s = .next t ∧ powered (pgSc p.val) t = false ∧
      (∀ q, q < 80 → q ≠ p.val → powered (pgSc q) t = powered (pgSc q) s) ∧
      (∀ q, q < 80 → q ≠ p.val → coreOf q t = coreOf q s))

/-! ## Matrix engines (R61 to R89) -/

/-- The threads that execute the current path's next instruction (Table 4-1). -/
abbrev Sys2Proof.Claims.exOf (x : Group) (i : Insn) (cur : Path) : BitVec 32 := liveMask x i cur.mask

/-- The lowest of them, from which a group-wide operand is taken. -/
abbrev Sys2Proof.Claims.leadOf (x : Group) (i : Insn) (cur : Path) : Nat := (threadsOf (exOf x i cur)).headD 0

/-- The group after an instruction at which its executing threads wait for `w`, as the `n`-th such wait: the others, if there are
any, go on. -/
abbrev Sys2Proof.Claims.halted (x : Group) (cur : Path) (rest : List Path) (ex : BitVec 32) (w : PathWait) (n : Nat) : Group :=
  if cur.mask &&& ~~~ ex = 0 then { x with paths := { onward cur with wait := some w, since := n } :: rest, turnOver := true }
  else { x with paths := { onward cur with mask := cur.mask &&& ~~~ ex } ::
    { onward cur with mask := ex, wait := some w, since := n, slots := 0 } :: rest }

/-- Every other core, every other group of core `p`, and the kernels and blocks are as they were. -/
def Sys2Proof.Claims.OtherWork (p g : Nat) (s t : State) : Prop :=
  (∀ q, q ≠ p → coreOf q t = coreOf q s) ∧ (∀ h, h ≠ g → groupOf p h t = groupOf p h s) ∧
  t.cpt.blocks = s.cpt.blocks ∧ t.cpt.kernels = s.cpt.kernels

/-- R61, R62, R63, R81, R82, R85: me.go gives each masked engine the operation of its descriptor, or waits while one has no
room; me.wait waits while an operation of its group is there; an engine that is idle asks for its stop; a gate window, while the cluster counter runs (R28), lets the
16 requests that wait longest take effect; ME_INJ takes its fields while the page is not locked. (The model's own reading where
the spec leaves one: log 1, 24, 87.) -/
def Obligations.MatrixEngineQueuesAndGates : Prop :=
  (∀ (p : Fin 80) (g : Fin 64) (i : Insn) (x : Group) (cur : Path) (rest : List Path) (b : Block) (base : Nat) (m : Word)
      (s : State), Issues p.val g.val { op := some 0xC0, src0 := 1, src1 := 1 } i x cur rest s → exOf x i cur ≠ 0 →
    blockOf x.block s = some b → base = (regOf x (leadOf x i cur) i.src0.toNat).toNat →
    m = regOf x (leadOf x i cur) i.src1.toNat →
    ((∀ e, e < 32 → m.getLsbD e = true → (meOf p.val e s).pend = none) →
      ∃ t, exec (.meGo p g i) s = .next t ∧ groupOf p.val g.val t = some (stepped x cur rest) ∧ OtherWork p.val g.val s t ∧
        t.regs = s.regs ∧ SameBytes s t ∧ t.fe = s.fe ∧
        ∀ e, e < 32 → meOf p.val e t =
          if m.getLsbD e then
            (let op : MeOp := { job := x.job, block := x.block, group := x.idx, addr := base + 64 * e,
                                grp := s.cpt.seq, bad := base % 64 != 0 || decide (b.size < base + 64 * e + 64) }
             if (meOf p.val e s).run = none then { meOf p.val e s with run := some op }
             else { meOf p.val e s with pend := some op })
          else meOf p.val e s) ∧
    ((∃ e, e < 32 ∧ m.getLsbD e = true ∧ (meOf p.val e s).pend ≠ none) →
      exec (.meGo p g i) s = .next (tidyMem s))) ∧
  (∀ (p : Fin 80) (g : Fin 64) (i : Insn) (x : Group) (cur : Path) (rest : List Path) (m : Word) (s : State),
    Issues p.val g.val { op := some 0xC1, src0 := 1 } i x cur rest s → exOf x i cur ≠ 0 →
    m = regOf x (leadOf x i cur) i.src0.toNat →
    exec (.meWait p g i) s = .next (GroupNow p.val g.val
      (if groupOps p.val x.block x.idx m s then halted x cur rest (exOf x i cur) (.me m) 0 else stepped x cur rest) s)) ∧
  (∀ (c : Fin 16) (s : State), counting s = true → tabGet [] c.val s.cpt.gates ≠ [] →
    ((tabGet [] c.val s.cpt.gates).map (fun r => (r.core, r.me))).Nodup →
    ∃ t, exec (.gateWindow c) s = .next t ∧ tabGet [] c.val t.cpt.gates = (tabGet [] c.val s.cpt.gates).drop 16 ∧
      (∀ r ∈ (tabGet [] c.val s.cpt.gates).take 16, meOf r.core r.me t = { meOf r.core r.me s with active := r.start }) ∧
      (∀ q e, (∀ r ∈ (tabGet [] c.val s.cpt.gates).take 16, ¬ (r.core = q ∧ r.me = e)) → meOf q e t = meOf q e s) ∧
      (getReg (pgCl c.val) 0 0x404 t).toNat = (if 16 < (tabGet [] c.val s.cpt.gates).length
        then min (2 ^ 32 - 1) ((getReg (pgCl c.val) 0 0x404 s).toNat + 1) else (getReg (pgCl c.val) 0 0x404 s).toNat) ∧
      OtherRegs (fun k => k = rk (pgCl c.val) 0 0x404) s t ∧ SameBytes s t) ∧
  (∀ (p : Fin 80) (e : Fin 32) (s : State), (meOf p.val e.val s).active = true → (meOf p.val e.val s).run = none →
    (meOf p.val e.val s).pend = none → gateHas p.val e.val false s = false →
    ∃ t, exec (.meIdleTimeout p e) s = .next t ∧
      tabGet [] (p.val / 5) t.cpt.gates = tabGet [] (p.val / 5) s.cpt.gates ++ [⟨p.val, e.val, false⟩] ∧
      t.cpt.cores = s.cpt.cores ∧ t.regs = s.regs ∧ SameBytes s t) ∧
  (∀ (r : Requester) (p : Fin 80) (v : Word) (s : State), Heard r (pgSc p.val) 0x420 s = true →
    ∃ t, exec (.meInjArm r p v) s = .next t ∧ FieldsWritten (pgSc p.val) 0x420 v s t ∧
      OtherRegs (fun k => k = rk (pgSc p.val) 0 0x420) s t ∧ RegsOnly s t)

/-- An operation without what the core notes about its streams and its neighbours' bytes (R66, R69). -/
abbrev Sys2Proof.Claims.opPlain (o : MeOp) : MeOp := { o with streams := 0, beyond := false, wrote := [], touched := [] }

/-- Two states of a matrix engine that differ in such notes alone. -/
def Sys2Proof.Claims.MeAlike (a b : Me) : Prop :=
  a.active = b.active ∧ a.tile0 = b.tile0 ∧ a.tile1 = b.tile1 ∧ a.run.map opPlain = b.run.map opPlain ∧
  a.pend.map opPlain = b.pend.map opPlain

/-- The job of an operation runs, and nothing ends its block or kernel with this operation: a group of the block is live and
blocks of the kernel are not finished (R64, R108). -/
def Sys2Proof.Claims.OpGoesOn (op : MeOp) (s : State) : Prop :=
  jobEnded op.job s = false ∧ blockLive op.block s = true ∧
  ∃ k, kernelOf op.job s = some k ∧ k.finished < kernelBlocks k

/-- What R63, R74 and R77 give element (i, j) of an operation before its post-ops. -/
abbrev Sys2Proof.Claims.opElems (p e : Nat) (op : MeOp) (s : State) : List Elem :=
  meElems op (meTile (meOf p e s) op.job (df op.desc 0 11 1)) s

/-- R63, R64, R66, R74, R76, R77, R84, R472: the operation in front of an active engine starts with its descriptors as they stand, or is
rejected with the first failing check of R76 and ends its job with ME_DESC; a finish within the limits of R472 puts the sums into the accumulator tile and
stores the valid rows of the output and nothing else, the values being those of the arithmetic unless another operation's bytes
overlap (R66); a residue mismatch stops the operation's output and ends its job. (The
model's own reading where the spec leaves one: log 23, 24.) -/
def Obligations.MatrixEngineOperationsRunToTheirEnd : Prop :=
  (∀ (p : Fin 80) (e : Fin 32) (op : MeOp) (b : Block) (jb : Job) (s : State), (meOf p.val e.val s).run = some op →
    op.started = false → (meOf p.val e.val s).active = true → coreUp p.val s = true → blockOf op.block s = some b →
    b.stopping = false → tabFind op.job s.fe.jobs = some jb → jb.fin = none →
    ∃ t, exec (.meOpStart p e) s = .next t ∧
      (meCheck op b.size (meTile (meOf p.val e.val s) op.job (df (lmWords op.block op.addr 16 s) 0 11 1)).int s = 0 →
        (∃ a b', MeAlike (meOf p.val e.val t) { meOf p.val e.val s with run := some { op with
          started := true, desc := lmWords op.block op.addr 16 s,
          sdA := lmWords op.block (df (lmWords op.block op.addr 16 s) 2 0 19) 16 s,
          sdB := lmWords op.block (df (lmWords op.block op.addr 16 s) 3 0 19) 16 s, payA := a, payB := b' } }) ∧
        (∀ q f, ¬ (q = p.val ∧ f = e.val) → MeAlike (meOf q f t) (meOf q f s)) ∧ t.regs = s.regs ∧ t.fe = s.fe ∧
        SameBytes s t) ∧
      (∀ n, n ≠ 0 →
        meCheck op b.size (meTile (meOf p.val e.val s) op.job (df (lmWords op.block op.addr 16 s) 0 11 1)).int s = n →
        (∃ jb', tabFind op.job t.fe.jobs = some jb' ∧ jb'.fin = some ⟨1, 0x13, lcore p.val s⟩) ∧
        (bit (getReg (pgSc p.val) 0 0x408 s) 31 = false →
          getReg (pgSc p.val) 0 0x408 t = w32 (n + e.val * 2 ^ 16 + 2 ^ 31)))) ∧
  (∀ (p : Fin 80) (e : Fin 32) (op : MeOp) (cycles : Nat) (s : State), (meOf p.val e.val s).run = some op →
    op.started = true → op.stopped = false → meLeast op.desc ≤ cycles → cycles ≤ meMost op → OpGoesOn op s → s.cpt.lmErr = [] →
    bit (getReg (pgSc p.val) 0 0x420 s) 16 = false → bit (getReg (pgSc p.val) 0 0x028 s) 16 = false →
    ∃ t, exec (.meOpFinish p e cycles) s = .next t ∧
      (meOf p.val e.val t).run.map opPlain = (meOf p.val e.val s).pend.map opPlain ∧ (meOf p.val e.val t).pend = none ∧
      (∃ v, (if df op.desc 0 11 1 = 1 then (meOf p.val e.val t).tile1 else (meOf p.val e.val t).tile0) =
          { int := meInt op.desc, v := v, owner := some (op.job, op.block) } ∧
        (clashIn p.val e.val op s = [] → v = (opElems p.val e.val op s).map (·.acc))) ∧
      (if df op.desc 0 11 1 = 1 then (meOf p.val e.val t).tile0 = (meOf p.val e.val s).tile0
        else (meOf p.val e.val t).tile1 = (meOf p.val e.val s).tile1) ∧
      (∀ q f, ¬ (q = p.val ∧ f = e.val) → MeAlike (meOf q f t) (meOf q f s)) ∧
      (df op.desc 0 14 1 = 0 → SameBytes s t) ∧
      (df op.desc 0 14 1 = 1 → clashIn p.val e.val op s = [] → clashOut p.val e.val op s = [] → meN op.desc * outSize (df op.desc 0 16 4) ≤ df op.desc 5 16 16 → ∀ i, i < meM op.desc →
        lmBytes op.block (df op.desc 6 0 19 + i * df op.desc 5 16 16) (meN op.desc * outSize (df op.desc 0 16 4)) t =
          ((List.range (meN op.desc)).map (fun j => toLE (outSize (df op.desc 0 16 4))
            (postElem op.block op.desc j (nth { acc := 0 } (opElems p.val e.val op s) (16 * i + j)) s).1)).flatten) ∧
      (∀ a, (∀ i, i < meM op.desc → ¬ (lmKey op.block (df op.desc 6 0 19 + i * df op.desc 5 16 16) ≤ a ∧
          a < lmKey op.block (df op.desc 6 0 19 + i * df op.desc 5 16 16) + meN op.desc * outSize (df op.desc 0 16 4))) →
        memByte zeroByte t.mem.lm a = memByte zeroByte s.mem.lm a) ∧
      OtherRegs (fun k => ∃ o ∈ [0x404, 0x410, 0x414, 0x418, 0x41C, 0x424, 0x428, 0x42C], k = rk (pgSc p.val) 0 o) s t) ∧
  (∀ (p : Fin 80) (e : Fin 32) (st : Fin 4) (op : MeOp) (jb : Job) (s : State), (meOf p.val e.val s).run = some op →
    op.started = true → op.stopped = false → stageChecked op st.val s = true → tabFind op.job s.fe.jobs = some jb →
    jb.fin = none →
    ∃ t, exec (.residueMismatch p e st) s = .next t ∧ (meOf p.val e.val t).run = some { op with stopped := true } ∧
      bit (getReg (srcHome p.val).1 0 0x020 t) (srcHome p.val).2 = true ∧
      (∃ jb', tabFind op.job t.fe.jobs = some jb' ∧ jb'.fin = some ⟨1, 0x14, lcore p.val s⟩))

/-! ## Shader instructions (R91 to R132) -/

/-- The job ended with FAULT, this reason and this detail (Table 7-5). -/
def Sys2Proof.Claims.JobFault (j reason detail : Nat) (t : State) : Prop :=
  ∃ b, tabFind j t.fe.jobs = some b ∧ b.fin = some ⟨1, reason, detail⟩

/-- The job runs: it stands in the table without an end. -/
def Sys2Proof.Claims.JobRuns (j : Nat) (s : State) : Prop := ∃ b, tabFind j s.fe.jobs = some b ∧ b.fin = none

/-- DETAIL of a fault at the current path's instruction (Table 7-5). -/
abbrev Sys2Proof.Claims.insnDetail (p : Nat) (cur : Path) (s : State) : Nat := lcore p s + cur.pc % 2 ^ 32 * 2 ^ 32

/-- Register `d` and those that `n` names after it are the only ones of the executing threads that changed. -/
def Sys2Proof.Claims.OnlyDst (x y : Group) (ex : BitVec 32) (d n : Nat) : Prop :=
  ∀ th k, k < 512 → ¬ (ex.getLsbD th = true ∧ d ≠ 255 ∧ d ≤ k ∧ k < d + n) →
    tabFind (th * 512 + k) y.regs = tabFind (th * 512 + k) x.regs

/-- R56, R57, R91, R93, R97, R98, R101: an arithmetic instruction puts each executing thread's result into its destination and
changes no other register and no memory; a reserved field, an opcode that is not implemented and a register beyond REGS end the
job; mask.live delivers the live threads; a branch moves the executing threads, counts a backward one, and the 64th demotes.
(The model's own reading where the spec leaves one: log 26, 27, 28, 85, 88.) -/
def Obligations.ArithmeticAndBranches : Prop :=
  (∀ (p : Fin 80) (g : Fin 64) (op : AluOp) (i : Insn) (x : Group) (cur : Path) (rest : List Path) (s : State),
    Ready p.val g.val x cur rest s → StoreHolds p.val (aluUses op) i x cur s → op ≠ .unimpl →
    (insnCheck (aluUses op) i x.nregs = 0 →
      ∃ t y, exec (.aluInsn p g op i) s = .next t ∧ groupOf p.val g.val t = some y ∧
        y = { stepped x cur rest with regs := y.regs } ∧ OnlyDst x y (exOf x i cur) i.dst.toNat 1 ∧
        (∀ th, (exOf x i cur).getLsbD th = true → i.dst ≠ 255 →
          fld (regOf y th i.dst.toNat) 0 (aluShape op).2 =
            aluBits op (regOf x th i.src0.toNat) (regOf x th i.src1.toNat) (regOf x th i.src2.toNat) % 2 ^ (aluShape op).2) ∧
        OtherWork p.val g.val s t ∧ t.regs = s.regs ∧ t.fe = s.fe ∧ SameBytes s t) ∧
    (∀ n, n ≠ 0 → insnCheck (aluUses op) i x.nregs = n →
      ∃ t, exec (.aluInsn p g op i) s = .next t ∧ JobFault x.job n (insnDetail p.val cur s) t ∧ (n = 0x09 ∨ n = 0x0A))) ∧
  (∀ (p : Fin 80) (g : Fin 64) (i : Insn) (x : Group) (cur : Path) (rest : List Path) (s : State),
    Ready p.val g.val x cur rest s → StoreHolds p.val (aluUses .unimpl) i x cur s →
    ∃ t, exec (.aluInsn p g .unimpl i) s = .next t ∧ JobFault x.job 0x09 (insnDetail p.val cur s) t) ∧
  (∀ (p : Fin 80) (g : Fin 64) (i : Insn) (x : Group) (cur : Path) (rest : List Path) (s : State),
    Issues p.val g.val { op := some 0xB9, dst := 1 } i x cur rest s →
    ∃ t y, exec (.maskLive p g i) s = .next t ∧ groupOf p.val g.val t = some y ∧
      y = { stepped x cur rest with regs := y.regs } ∧ OnlyDst x y (exOf x i cur) i.dst.toNat 1 ∧
      (∀ th, (exOf x i cur).getLsbD th = true → i.dst ≠ 255 → regOf y th i.dst.toNat = x.live) ∧
      OtherWork p.val g.val s t ∧ t.regs = s.regs ∧ t.fe = s.fe ∧ SameBytes s t) ∧
  (∀ (p : Fin 80) (g : Fin 64) (target : Nat) (i : Insn) (x : Group) (cur : Path) (rest : List Path) (s : State),
    Issues p.val g.val { anyImm := true, anyReg := true } i x cur rest s →
    ∃ t y, exec (.branch p g target i) s = .next t ∧ groupOf p.val g.val t = some { x with paths := y } ∧
      (exOf x i cur = 0 → y = onward cur :: rest) ∧
      (exOf x i cur ≠ 0 →
        (let n := if target ≤ cur.pc then cur.back + 1 else cur.back
         let b : Path := { cur with pc := target, back := n, demoted := decide (target ≤ cur.pc ∧ n = 64) }
         y = if cur.mask &&& ~~~ (exOf x i cur) = 0 then { b with slots := cur.slots + 1 } :: rest
          else { onward cur with mask := cur.mask &&& ~~~ (exOf x i cur) } ::
            { b with mask := exOf x i cur, slots := 0 } :: rest)) ∧
      OtherWork p.val g.val s t ∧ OtherRegs (fun k => k = rk (pgSc p.val) 0 0x10C) s t ∧ t.fe = s.fe ∧ SameBytes s t)

/-- No access of the threads meets an error of local or cluster memory, and no injection is armed for the core or its
cluster (R135, R369). -/
def Sys2Proof.Claims.SramClean (p : Nat) (s : State) : Prop :=
  s.cpt.lmErr = [] ∧ s.cpt.cmErr = [] ∧ bit (getReg (pgSc p) 0 0x028 s) 16 = false ∧
    bit (getReg (pgCl (p / 5)) 0 0x028 s) 16 = false

/-- Local memory outside `[k, k + n)` reads alike. -/
def Sys2Proof.Claims.LmKept (k n : Nat) (s t : State) : Prop :=
  ∀ a, (a < k ∨ k + n ≤ a) → memByte zeroByte t.mem.lm a = memByte zeroByte s.mem.lm a

/-- The destination of a load of `n` bytes: the low bytes of one register, or a pair with the low word first. -/
def Sys2Proof.Claims.Loaded (y : Group) (th n : Nat) (d : BitVec 8) (v : Nat) : Prop :=
  (n < 8 → fld (regOf y th d.toNat) 0 (8 * n) = v % 2 ^ (8 * n)) ∧
  (n = 8 → regOf y th d.toNat = w32 v ∧ (d.toNat ≠ 254 → regOf y th (d.toNat + 1) = w32 (v / 2 ^ 32)))

/-- Where an access to local memory leads: the thread's own block `b`, or the block `d`, with the number `k`, of the named rank in its
block cluster (R106, R107). -/
abbrev Sys2Proof.Claims.LocalOf (i : Insn) (x : Group) (b : Block) (k : Nat) (d : Block) (s : State) : Prop :=
  (i.imm.toNat % 8 = 0 ∧ k = x.block ∧ d = b) ∨ (i.imm.toNat % 8 = 3 ∧ peerOf b (i.imm.toNat / 8 % 4) s = some (k, d))

/-- R106, R107, R118, R119, R121, R122, R130: for one executing thread, a load brings the bytes of its space into its register or
pair, overlaid in global space with the core's buffered bytes, and waits for those that lie in host memory; a store writes exactly
its bytes, in global space into the write buffer; an atomic returns the old value and stores the operation's. An offset outside the
allocation and a space that does not exist end the job. (The model's own reading where the spec leaves one: log 26, 28, 32, 85, 86.) -/
def Obligations.LoadsStoresAndAtomics : Prop :=
  (∀ (p : Fin 80) (g : Fin 64) (w : AccW) (i : Insn) (x : Group) (cur : Path) (rest : List Path) (th : Fin 32) (off n k : Nat)
      (b d : Block) (s : State), Issues p.val g.val (memUses i (accRegs w) 0 0) i x cur rest s →
    exOf x i cur = oneBit th.val → blockOf x.block s = some b → off = (regOf x th.val i.src0.toNat).toNat → n = accBytes w →
    SramClean p.val s →
    (LocalOf i x b k d s → off + n ≤ d.size →
      ∃ t y, exec (.load p g w i) s = .next t ∧ groupOf p.val g.val t = some y ∧ y = { stepped x cur rest with regs := y.regs } ∧
        (i.dst ≠ 255 → Loaded y th.val n i.dst (leNat (lmBytes k off n s))) ∧
        OnlyDst x y (exOf x i cur) i.dst.toNat (accRegs w) ∧ OtherWork p.val g.val s t ∧ t.regs = s.regs ∧ SameBytes s t) ∧
    (i.imm.toNat % 8 = 1 → cmInside (groupSlot x s) off n s = true →
      ∃ t y, exec (.load p g w i) s = .next t ∧ groupOf p.val g.val t = some y ∧ y = { stepped x cur rest with regs := y.regs } ∧
        (i.dst ≠ 255 → Loaded y th.val n i.dst
          (leNat (memRead zeroByte s.mem.cmem (cmKey (p.val / 5) (groupSlot x s) off s) n))) ∧
        OnlyDst x y (exOf x i cur) i.dst.toNat (accRegs w) ∧ OtherWork p.val g.val s t ∧ t.regs = s.regs ∧ SameBytes s t) ∧
    (LocalOf i x b k d s → d.size < off + n →
      ∃ t, exec (.load p g w i) s = .next t ∧ JobFault x.job 0x0E (insnDetail p.val cur s) t) ∧
    (i.imm.toNat % 8 = 1 → cmInside (groupSlot x s) off n s = false →
      ∃ t, exec (.load p g w i) s = .next t ∧ JobFault x.job 0x0F (insnDetail p.val cur s) t) ∧
    (3 < i.imm.toNat % 8 →
      ∃ t, exec (.load p g w i) s = .next t ∧ JobFault x.job 0x09 (insnDetail p.val cur s) t)) ∧
  (∀ (p : Fin 80) (g : Fin 64) (w : AccW) (i : Insn) (x : Group) (cur : Path) (rest : List Path) (th : Fin 32) (va n : Nat)
      (bs : List Byte) (h : List HostRd) (s s1 : State), Issues p.val g.val (memUses i (accRegs w) 0 0) i x cur rest s →
    exOf x i cur = oneBit th.val → i.imm.toNat % 8 = 2 →
    va = regVal x th.val i.src0 2 → n = accBytes w → vaReadAll p.val (groupSlot x s) va n .rd s = (.ok bs, s1) →
    h = hostPieces p.val g.val th.val (groupSlot x s) va n i.dst.toNat s1 →
    (h = [] → ∃ t y, exec (.load p g w i) s = .next t ∧ groupOf p.val g.val t = some y ∧
      y = { stepped x cur rest with regs := y.regs } ∧
      (i.dst ≠ 255 → Loaded y th.val n i.dst (leNat (wbOverlay p.val (groupSlot x s) va bs s1))) ∧ SameBytes s1 t) ∧
    (h ≠ [] → s1.pci.reads.length + h.length ≤ 1024 → ∃ t y, exec (.load p g w i) s = .next t ∧
      groupOf p.val g.val t = some y ∧
      y = { x with paths := { onward cur with wait := some .data } :: rest, regs := y.regs } ∧ SameBytes s1 t)) ∧
  (∀ (p : Fin 80) (g : Fin 64) (w : AccW) (i : Insn) (x : Group) (cur : Path) (rest : List Path) (th : Fin 32) (off n k : Nat)
      (b d : Block) (s : State), Issues p.val g.val (memUses i 0 (accRegs w) 0) i x cur rest s →
    exOf x i cur = oneBit th.val → blockOf x.block s = some b → off = (regOf x th.val i.src0.toNat).toNat → n = accBytes w →
    (LocalOf i x b k d s → off + n ≤ d.size → SramClean d.core s →
      ∃ t, exec (.store p g w i) s = .next t ∧
        groupOf p.val g.val t = some { x with paths := { onward cur with back := 0 } :: rest } ∧
        lmBytes k off n t = toLE n (regVal x th.val i.src1 (accRegs w)) ∧ LmKept (lmKey k off) n s t ∧
        t.mem.hbm = (tidyMem s).mem.hbm ∧ t.mem.cmem = (tidyMem s).mem.cmem ∧ OtherWork p.val g.val s t ∧ t.regs = s.regs) ∧
    (i.imm.toNat % 8 = 1 → cmInside (groupSlot x s) off n s = true → SramClean p.val s →
      ∃ t, exec (.store p g w i) s = .next t ∧
        groupOf p.val g.val t = some { x with paths := { onward cur with back := 0 } :: rest } ∧
        memRead zeroByte t.mem.cmem (cmKey (p.val / 5) (groupSlot x s) off s) n = toLE n (regVal x th.val i.src1 (accRegs w)) ∧
        (∀ a, (a < cmKey (p.val / 5) (groupSlot x s) off s ∨ cmKey (p.val / 5) (groupSlot x s) off s + n ≤ a) →
          memByte zeroByte t.mem.cmem a = memByte zeroByte s.mem.cmem a) ∧
        blockOf x.block t = some { b with stored := true } ∧ t.mem.lm = (tidyMem s).mem.lm ∧ t.regs = s.regs)) ∧
  (∀ (p : Fin 80) (g : Fin 64) (w : AccW) (i : Insn) (x : Group) (cur : Path) (rest : List Path) (th : Fin 32) (va n : Nat)
      (d : Dest) (s s1 : State), Issues p.val g.val (memUses i 0 (accRegs w) 0) i x cur rest s →
    exOf x i cur = oneBit th.val → i.imm.toNat % 8 = 2 → va = regVal x th.val i.src0 2 → n = accBytes w →
    va % 64 + n ≤ 64 → translate p.val (groupSlot x s) va .wr s = (.ok d, s1) → d ≠ .needAts → (coreOf p.val s1).wb = [] →
    ∃ t, exec (.store p g w i) s = .next t ∧
      (∀ k, k < n → wbByte p.val (groupSlot x s) (va + k) t = some (nth 0 (toLE n (regVal x th.val i.src1 (accRegs w))) k)) ∧
      SameBytes s1 t) ∧
  (∀ (p : Fin 80) (g : Fin 64) (op : AtomOp) (w64 : Bool) (i : Insn) (x : Group) (cur : Path) (rest : List Path) (th : Fin 32)
      (off n m k : Nat) (b d : Block) (s : State), m = (if w64 then 2 else 1) → n = 4 * m →
    Issues p.val g.val (memUses i m m (if op = .cas then m else 0)) i x cur rest s → ¬ (w64 = true ∧ op = .fadd) →
    exOf x i cur = oneBit th.val → blockOf x.block s = some b → LocalOf i x b k d s →
    off = (regOf x th.val i.src0.toNat).toNat → SramClean d.core s → off % n = 0 → off + n ≤ d.size →
    ∃ t y, exec (.atomic p g op w64 i) s = .next t ∧ groupOf p.val g.val t = some y ∧
      y = { x with paths := { onward cur with back := 0 } :: rest, regs := y.regs } ∧
      (i.dst ≠ 255 → Loaded y th.val n i.dst (leNat (lmBytes k off n s))) ∧
      OnlyDst x y (exOf x i cur) i.dst.toNat m ∧
      lmBytes k off n t = toLE n (atomVal op n (leNat (lmBytes k off n s)) (regVal x th.val i.src1 m)
        (regVal x th.val i.src2 m)) ∧ LmKept (lmKey k off) n s t ∧ t.mem.hbm = (tidyMem s).mem.hbm ∧ t.regs = s.regs) ∧
  (∀ (p : Fin 80) (g : Fin 64) (op : AtomOp) (w64 : Bool) (i : Insn) (x : Group) (cur : Path) (rest : List Path) (th : Fin 32)
      (va n m pa : Nat) (bs : List Byte) (s s1 s2 : State), m = (if w64 then 2 else 1) → n = 4 * m →
    Issues p.val g.val (memUses i m m (if op = .cas then m else 0)) i x cur rest s → ¬ (w64 = true ∧ op = .fadd) →
    exOf x i cur = oneBit th.val → i.imm.toNat % 8 = 2 → va = regVal x th.val i.src0 2 → va % n = 0 →
    translate p.val (groupSlot x s) va .at s = (.ok (.hbm pa), s1) → (coreOf p.val s1).wb = [] →
    hbmRead pa n s1 = (some bs, s2) →
    ∃ t y, exec (.atomic p g op w64 i) s = .next t ∧ groupOf p.val g.val t = some y ∧
      y = { x with paths := { onward cur with back := 0 } :: rest, regs := y.regs } ∧
      (i.dst ≠ 255 → Loaded y th.val n i.dst (leNat bs)) ∧ OnlyDst x y (exOf x i cur) i.dst.toNat m ∧
      hbmBytes pa n t = toLE n (atomVal op n (leNat bs) (regVal x th.val i.src1 m) (regVal x th.val i.src2 m)) ∧
      HbmKept pa n s2 t)

/-- What a barrier over the groups `l` does once the group's threads wait at it in `s1`: where every live thread of `l` waits,
all of them go on; until then none does. -/
def Sys2Proof.Claims.BarrierStep (w : PathWait) (l : List (Nat × Nat × Group)) (s1 t : State) : Prop :=
  (waitingOf w l ≠ liveOf l → t = tidyMem s1) ∧
  (waitingOf w l = liveOf l → ∀ e ∈ l, ∀ y, groupOf e.1 e.2.1 s1 = some y →
    groupOf e.1 e.2.1 t = some { y with paths := y.paths.map (fun z => if z.wait = some w then { z with wait := none } else z) })

/-- R101, R104, R105, R126, R127: fence with IMM[0] = 0 only advances; with IMM[0] = 1 it advances and empties its core's write buffer into
memory; wsync, gate.bcl and gate.dev hold the arriving threads until every live thread of the mask, of the block cluster or of
the kernel has arrived; gate.dev writes the buffer out too, and ends a job that is not cooperative. R102, R103:
gate.cfg gives a gate without arrivals its count and remembers who gave it, another thread's different count being an error; gate.pass and gate.join count the executing threads; the arrival that
completes the count ends the phase and lets every thread that waits at the gate go on, those beyond the count being the first
arrivals of the next phase. (The model's own reading where the spec leaves one: log 26, 29.) -/
def Obligations.FencesBarriersAndGates : Prop :=
  (∀ (p : Fin 80) (g : Fin 64) (i : Insn) (c : Instr) (x : Group) (cur : Path) (rest : List Path) (s : State),
    Issues p.val g.val fenceUses i x cur rest s → c = .fenceCluster p g i ∨ c = .fenceDevice p g i →
    (i.imm.getLsbD 0 = false → exec c s = .next (GroupNow p.val g.val (stepped x cur rest) s)) ∧
    (i.imm.getLsbD 0 = true → exOf x i cur ≠ 0 →
      ∃ t, exec c s = .next t ∧ groupOf p.val g.val t = some (stepped x cur rest) ∧
        (coreOf p.val t).wb = [] ∧ OtherWork p.val g.val s t ∧ t.fe = s.fe ∧
        ((coreOf p.val s).wb = [] → t = GroupNow p.val g.val (stepped x cur rest) s) ∧
        (∀ (e : WbEnt) (o : Nat) (b : Byte) (bs : List Byte), (coreOf p.val s).wb = [e] → byteRuns e.bytes = [(o, b :: bs)] →
          e.host = none → s.hbc.pendInv = [] →
          hbmBytes (e.pa + o) (bs.length + 1) t = b :: bs ∧ HbmKept (e.pa + o) (bs.length + 1) s t))) ∧
  (∀ (p : Fin 80) (g : Fin 64) (i : Insn) (x : Group) (cur : Path) (rest : List Path) (m : BitVec 32) (s : State),
    Issues p.val g.val { op := some 0xB0, src0 := 1 } i x cur rest s → (∀ y ∈ rest, y.wait = none) →
    exOf x i cur = cur.mask → cur.mask ≠ 0 → m = regOf x (leadOf x i cur) i.src0.toNat →
    exec (.wsync p g i) s = .next (GroupNow p.val g.val
      (if x.live &&& m &&& ~~~ cur.mask = 0 then
        { x with paths := { onward cur with since := s.cpt.seq } :: rest, turnOver := true }
       else { x with paths := { onward cur with wait := some (.wsync m), since := s.cpt.seq } :: rest, turnOver := true })
      (bumpSeq s))) ∧
  (∀ (p : Fin 80) (g : Fin 64) (i : Insn) (x : Group) (cur : Path) (rest : List Path) (b : Block) (s s1 : State),
    Issues p.val g.val { op := some 0xB4 } i x cur rest s → exOf x i cur ≠ 0 → blockOf x.block s = some b →
    s1 = setGroup p.val g.val (halted x cur rest (exOf x i cur) .bcl s.cpt.seq) (bumpSeq s) →
    ∃ t, exec (.gateBcl p g i) s = .next t ∧ BarrierStep .bcl (bclGroups b.job b.bcl s1) s1 t ∧ t.regs = s.regs ∧
      t.fe = s.fe ∧ SameBytes s t) ∧
  (∀ (p : Fin 80) (g : Fin 64) (i : Insn) (x : Group) (cur : Path) (rest : List Path) (k : Kernel) (s s1 : State),
    Issues p.val g.val { op := some 0xB5 } i x cur rest s → exOf x i cur ≠ 0 → kernelOf x.job s = some k → x.pix = none →
    s1 = wbFlushAll p.val (setGroup p.val g.val (halted x cur rest (exOf x i cur) .dev s.cpt.seq) (bumpSeq s)) →
    (k.coop = true → ∃ t, exec (.gateDev p g i) s = .next t ∧ BarrierStep .dev (jobGroups x.job s1) s1 t ∧
      (coreOf p.val t).wb = [] ∧ t.fe = s.fe) ∧
    (k.coop = false →
      ∃ t, exec (.gateDev p g i) s = .next t ∧ JobFault x.job 0x0B (insnDetail p.val cur s) t)) ∧
  (∀ (p : Fin 80) (g : Fin 64) (i : Insn) (x : Group) (cur : Path) (rest : List Path) (b : Block) (n : Nat) (s : State),
    Issues p.val g.val { op := some 0xB1, src0 := 1, imm := 15 } i x cur rest s → exOf x i cur ≠ 0 →
    blockOf x.block s = some b → n = (regOf x (leadOf x i cur) i.src0.toNat).toNat →
    (n ≤ 1024 → (gateOf x.block (i.imm.toNat % 16) s).arr = 0 →
      (∀ th, (exOf x i cur).getLsbD th = true → (regOf x th i.src0.toNat).toNat = n) →
      (∀ c ∈ (gateOf x.block (i.imm.toNat % 16) s).cfg, c.2 ≠ n →
        ∀ th, (exOf x i cur).getLsbD th = true → c.1 = x.idx * 32 + th) →
      ∃ t l, exec (.gateCfg p g i) s = .next t ∧ groupOf p.val g.val t = some (stepped x cur rest) ∧
        gateOf x.block (i.imm.toNat % 16) t = { gateOf x.block (i.imm.toNat % 16) s with n := n, cfg := l } ∧
        (∀ c, c ∈ l ↔ c ∈ (gateOf x.block (i.imm.toNat % 16) s).cfg ∨
          (c.2 = n ∧ ∃ th, (exOf x i cur).getLsbD th = true ∧ c.1 = x.idx * 32 + th)) ∧
        (∀ h, h ≠ i.imm.toNat % 16 → gateOf x.block h t = gateOf x.block h s) ∧ t.regs = s.regs ∧ SameBytes s t) ∧
    (1024 < n ∨ (gateOf x.block (i.imm.toNat % 16) s).arr ≠ 0 ∨
      (∃ th, (exOf x i cur).getLsbD th = true ∧ (regOf x th i.src0.toNat).toNat ≠ n) ∨
      (∃ c ∈ (gateOf x.block (i.imm.toNat % 16) s).cfg, c.2 ≠ n ∧
        ∃ th, (exOf x i cur).getLsbD th = true ∧ c.1 ≠ x.idx * 32 + th) →
      ∃ t, exec (.gateCfg p g i) s = .next t ∧ JobFault x.job 0x0B (insnDetail p.val cur s) t)) ∧
  (∀ (p : Fin 80) (g : Fin 64) (i : Insn) (x : Group) (cur : Path) (rest : List Path) (b : Block) (v : Gate) (k e : Nat)
      (s : State), Ready p.val g.val x cur rest s → insnCheck { imm := 15 } i x.nregs = 0 → exOf x i cur ≠ 0 →
    blockOf x.block s = some b → v = gateOf x.block (i.imm.toNat % 16) s → k = popcount (exOf x i cur) →
    e = gateExpect x.block (i.imm.toNat % 16) s → 0 < e → (∀ y ∈ x.paths, y.wait ≠ some (.gate (i.imm.toNat % 16))) →
    (StoreHolds p.val { op := some 0xB3, imm := 15 } i x cur s → ∃ t, exec (.gatePass p g i) s = .next t ∧ groupOf p.val g.val t = some (stepped x cur rest) ∧
      gateOf x.block (i.imm.toNat % 16) t =
        (if v.arr + k < e then { v with arr := v.arr + k } else { v with arr := (v.arr + k) % e, cfg := [] }) ∧
      (v.arr + k < e → t.cpt.cores = (setGroup p.val g.val (stepped x cur rest) s).cpt.cores) ∧
      t.regs = s.regs ∧ SameBytes s t) ∧
    (StoreHolds p.val { op := some 0xB2, imm := 15 } i x cur s → ∃ t, exec (.gateJoin p g i) s = .next t ∧
      gateOf x.block (i.imm.toNat % 16) t =
        (if v.arr + k < e then { v with arr := v.arr + k } else { v with arr := (v.arr + k) % e, cfg := [] }) ∧
      (v.arr + k < e →
        groupOf p.val g.val t = some (halted x cur rest (exOf x i cur) (.gate (i.imm.toNat % 16)) s.cpt.seq)) ∧
      (v.arr + k = e → b.core = p.val → ∃ y, groupOf p.val g.val t = some y ∧
        ∀ z ∈ y.paths, z.wait ≠ some (.gate (i.imm.toNat % 16))) ∧
      t.regs = s.regs ∧ SameBytes s t))

/-! ## Exits, rays, textures and pixels (R101, R103, R108 to R113, R248 to R256) -/

/-- R95, R101, R103, R108, R251: exiting threads leave the group; the last one takes the group off its core, and with the last
group of its block cluster the block leaves its core, its local memory reads 0 and the kernel counts it as finished. (The
model's own reading where the spec leaves one: log 26, 31.) -/
def Obligations.ExitsEndGroupsAndBlocks : Prop :=
  (∀ (p : Fin 80) (g : Fin 64) (i : Insn) (x : Group) (cur : Path) (rest : List Path) (s : State),
    Issues p.val g.val { op := some 0xBF } i x cur rest s → x.pix = none → exOf x i cur ≠ 0 →
    x.live &&& ~~~ (exOf x i cur) ≠ 0 →
    ∃ t y, exec (.exit p g i) s = .next t ∧ groupOf p.val g.val t = some y ∧ y.live = x.live &&& ~~~ (exOf x i cur) ∧
      y.regs = x.regs ∧ y.job = x.job ∧ y.block = x.block ∧ t.cpt.kernels = s.cpt.kernels ∧ t.regs = s.regs ∧
      t.fe = s.fe ∧ SameBytes s t) ∧
  (∀ (p : Fin 80) (g : Fin 64) (i : Insn) (x : Group) (cur : Path) (rest : List Path) (b : Block) (k : Kernel)
      (s s1 : State), Issues p.val g.val { op := some 0xBF } i x cur rest s → x.pix = none →
    exOf x i cur ≠ 0 → x.live &&& ~~~ (exOf x i cur) = 0 → blockOf x.block s = some b → b.pix = false →
    clusterBlocks b.job b.bcl s = [(x.block, b)] → kernelOf b.job s = some k → blockHasOps x.block s = false →
    (∀ n, (gateOf x.block n s).n = 0 → (gateOf x.block n s).arr = 0) →
    s1 = setCore p.val { coreOf p.val s with groups := tabDel g.val (coreOf p.val s).groups } s →
    (blockLive x.block s1 = true → ∃ t, exec (.exit p g i) s = .next t ∧ groupOf p.val g.val t = groupOf p.val g.val s1 ∧
      (∃ b', blockOf x.block t = some b') ∧ t.cpt.kernels = s.cpt.kernels ∧ SameBytes s t) ∧
    (blockLive x.block s1 = false → ∃ t, exec (.exit p g i) s = .next t ∧ blockOf x.block t = none ∧
      (∀ off, off < 2 ^ 19 → memByte zeroByte t.mem.lm (lmKey x.block off) = 0) ∧
      (∃ k', kernelOf b.job t = some k' ∧ k'.finished = k.finished + 1) ∧
      (kernelBlocks k ≤ k.finished + 1 → jobHasOps b.job s = false → k.pass = false → JobRuns b.job s →
        ∃ jb, tabFind b.job t.fe.jobs = some jb ∧ jb.fin = some ⟨0, 0, 0⟩)))

/-- The ray of a thread as rt.trace starts it (R110). -/
abbrev Sys2Proof.Claims.newRay (x : Group) (i : Insn) (th : Nat) : Ray :=
  { dst := i.dst.toNat, ray := (List.range 8).map (fun k => if i.src0 = 255 then 0 else regOf x th (i.src0.toNat + k)),
    root := regVal x th i.src1 2, flags := (regOf x th i.src2.toNat).toNat }

/-- The result registers from `d` on name a hit: t is its distance, u and v are two of its barycentric weights, each rounded to
binary32 up or down, then its ids (R110). -/
def Sys2Proof.Claims.HitWords (y : Group) (th d : Nat) (h : RtHit) : Prop :=
  (∃ a : Bool, regOf y th (d + 1) = ratWord a h.t) ∧
  (∃ (a b : Bool) (m n : Nat), m < 3 ∧ n < 3 ∧ m ≠ n ∧
    regOf y th (d + 2) = ratWord a (nth 0 [h.bary.x, h.bary.y, h.bary.z] m) ∧
    regOf y th (d + 3) = ratWord b (nth 0 [h.bary.x, h.bary.y, h.bary.z] n)) ∧
  regOf y th (d + 4) = h.prim ∧ regOf y th (d + 5) = h.geom ∧ (∀ n, h.inst = some n → regOf y th (d + 6) = n.id)

/-- R110, R111, R113: rt.trace starts the rays of the executing threads unless the core would hold more than 128, and their path
waits; the end of a traversal writes its status and, of a hit, what was hit and where, and ends the ray or pauses it at a candidate with its traversal as it stands;
rt.cont gives the paused rays their answer. (The model's own reading where the spec leaves one: log 26, 27, 30, 89.) -/
def Obligations.RaysStartEndAndContinue : Prop :=
  (∀ (p : Fin 80) (g : Fin 64) (i : Insn) (x : Group) (cur : Path) (rest : List Path) (s : State),
    Issues p.val g.val { op := some 0xD0, dst := 7, src0 := 8, src1 := 2, src2 := 1 } i x cur rest s →
    exOf x i cur ≠ 0 →
    (raysInFlight p.val s + popcount (exOf x i cur) ≤ 128 →
      ∃ t y, exec (.rtTrace p g i) s = .next t ∧ groupOf p.val g.val t = some y ∧
        y = { x with paths := { onward cur with wait := some .data } :: rest, rays := y.rays } ∧
        (∀ th, th < 32 → tabFind th y.rays =
          if (exOf x i cur).getLsbD th then some (newRay x i th) else tabFind th x.rays) ∧
        OtherWork p.val g.val s t ∧ t.regs = s.regs ∧ t.fe = s.fe ∧ SameBytes s t) ∧
    (128 < raysInFlight p.val s + popcount (exOf x i cur) → exec (.rtTrace p g i) s = .next (tidyMem s))) ∧
  (∀ (p : Fin 80) (g : Fin 64) (i : Insn) (x : Group) (cur : Path) (rest : List Path) (s : State),
    Issues p.val g.val { op := some 0xD1, dst := 7, imm := 1 } i x cur rest s → exOf x i cur ≠ 0 →
    ((∀ th, (exOf x i cur).getLsbD th = true → ∃ r, tabFind th x.rays = some r ∧ r.paused = true) →
      raysInFlight p.val s + popcount (exOf x i cur) ≤ 128 →
      ∃ t y, exec (.rtCont p g i) s = .next t ∧ groupOf p.val g.val t = some y ∧
        y = { x with paths := { onward cur with wait := some .data } :: rest, rays := y.rays } ∧
        (∀ th r, tabFind th x.rays = some r → tabFind th y.rays = some (
          if (exOf x i cur).getLsbD th
          then { rtAnswer (i.imm.getLsbD 0) r with dst := i.dst.toNat } else r)) ∧
        OtherWork p.val g.val s t ∧ t.regs = s.regs ∧ t.fe = s.fe ∧ SameBytes s t) ∧
    ((∃ th, (exOf x i cur).getLsbD th = true ∧ ∀ r, tabFind th x.rays = some r → r.paused = false) →
      ∃ t, exec (.rtCont p g i) s = .next t ∧ JobFault x.job 0x09 (insnDetail p.val cur s) t)) ∧
  (∀ (p : Fin 80) (g : Fin 64) (th : Fin 32) (x : Group) (r : Ray) (w : RtRun) (s s1 : State),
    groupOf p.val g.val s = some x → tabFind th.val x.rays = some r → r.paused = false → jobEnded x.job s = false →
    coreUp p.val s = true → blockStopping x.block s = false → r.dst + 7 ≤ 255 →
    rtTraverse ⟨p.val, x.block, groupSlot x s, r.flags⟩ r s = (w, s1) →
    ((w.fin = some .miss ∨ w.fin = some .overflow) → ∃ t y, exec (.rtTraceResult p g th) s = .next t ∧
      groupOf p.val g.val t = some y ∧
      regOf y th.val r.dst = (if w.fin = some .miss then 0#32 else 3#32) ∧ y.rays = tabDel th.val x.rays) ∧
    (∀ h, w.fin = some (.hit h) → ∃ t y, exec (.rtTraceResult p g th) s = .next t ∧ groupOf p.val g.val t = some y ∧
      regOf y th.val r.dst = 1#32 ∧ HitWords y th.val r.dst h ∧ y.rays = tabDel th.val x.rays) ∧
    (∀ h, w.fin = some (.candidate h) → ∃ t y, exec (.rtTraceResult p g th) s = .next t ∧ groupOf p.val g.val t = some y ∧
      regOf y th.val r.dst = 2#32 ∧ HitWords y th.val r.dst h ∧
      y.rays = tabSet th.val { r with stack := some w.stack, best := w.best, cand := some h, paused := true } x.rays))

/-- The group is a pixel group of a tile in flight: its pass, its draw's record, and the tile (R249). -/
abbrev Sys2Proof.Claims.OnTile (p : Nat) (x : Group) (q : PixGroup) (xp : Pass) (r : List Word) (w : TileWork) (s : State) : Prop :=
  x.pix = some q ∧ passOf x.job s = some xp ∧ r = drawRec xp q.draw ∧ workOf p x.job q.tile s = some w

/-- R250 to R252: pix.out records the four components of each executing thread for its exit; pix.ld delivers the components of
the thread's sample; pix.st stores the encoded components into the samples it names and no other; pix.ld and pix.st wait for the
threads of earlier primitives on their pixels. (The model's own reading where the spec leaves one: log 26, 52.) -/
def Obligations.PixelInstructionsUseTheTile : Prop :=
  (∀ (p : Fin 80) (g : Fin 64) (i : Insn) (x : Group) (cur : Path) (rest : List Path) (q : PixGroup) (xp : Pass)
      (r : List Word) (w : TileWork) (s : State), Issues p.val g.val { op := some 0xDB, src0 := 4, imm := 0x0F } i x cur rest s →
    OnTile p.val x q xp r w s → dPixAccess r = false →
    ∃ t y, exec (.pixOut p g i) s = .next t ∧ groupOf p.val g.val t = some y ∧
      y = { stepped x cur rest with outs := y.outs } ∧
      (∀ th, (exOf x i cur).getLsbD th = true → outOf y th (pixAtt i) = some (srcRow x th i.src0)) ∧
      OtherWork p.val g.val s t ∧ t.regs = s.regs ∧ t.fe = s.fe ∧ SameBytes s t) ∧
  (∀ (p : Fin 80) (g : Fin 64) (i : Insn) (x : Group) (cur : Path) (rest : List Path) (q : PixGroup) (xp : Pass)
      (r : List Word) (w : TileWork) (s : State), Issues p.val g.val { op := some 0xD9, dst := 4, imm := 0x7F } i x cur rest s →
    OnTile p.val x q xp r w s → dPixAccess r = true →
    (mustYield ⟨p.val, g.val, x, cur, rest, exOf x i cur⟩ q s = true → exec (.pixLd p g i) s = .next (tidyMem s)) ∧
    (mustYield ⟨p.val, g.val, x, cur, rest, exOf x i cur⟩ q s = false → pixAtt i < 8 → attFormat xp (pixAtt i) ≠ 0 →
      pixSample i < passSamples xp → i.dst.toNat + 4 ≤ 255 →
      ∃ t y, exec (.pixLd p g i) s = .next t ∧ groupOf p.val g.val t = some y ∧ y = { stepped x cur rest with regs := y.regs } ∧
        (∀ th k, (exOf x i cur).getLsbD th = true → k < 4 → regOf y th (i.dst.toNat + k) =
          nth 0 (colorDec (attFormat xp (pixAtt i)) (sampleOf w (pixAtt i) (pixIdx (threadPx q th)) (pixSample i))) k) ∧
        OtherWork p.val g.val s t ∧ t.regs = s.regs ∧ SameBytes s t)) ∧
  (∀ (p : Fin 80) (g : Fin 64) (i : Insn) (x : Group) (cur : Path) (rest : List Path) (q : PixGroup) (xp : Pass)
      (r : List Word) (w : TileWork) (th : Fin 32) (s : State),
    Issues p.val g.val { op := some 0xDA, src0 := 4, imm := 0xFF } i x cur rest s → OnTile p.val x q xp r w s → dPixAccess r = true →
    exOf x i cur = oneBit th.val → mustYield ⟨p.val, g.val, x, cur, rest, exOf x i cur⟩ q s = false → pixAtt i ≤ 8 →
    attFormat xp (pixAtt i) ≠ 0 → passSamples xp ≤ 4 →
    ∃ t w', exec (.pixSt p g i) s = .next t ∧ workOf p.val x.job q.tile t = some w' ∧ w' = { w with mem := w'.mem } ∧
      (∀ a pix sm, pix < 1024 → sm < 4 → sampleOf w' a pix sm =
        if a = pixAtt i ∧ pix = pixIdx (threadPx q th.val) ∧ sm ∈ stSamples xp q i th.val
        then tileEnc (attFormat xp (pixAtt i)) (srcRow x th.val i.src0) else sampleOf w a pix sm) ∧
      (∃ y, groupOf p.val g.val t = some y ∧ hasOut y th.val = true ∧ y.paths = onward cur :: rest ∧ y.regs = x.regs) ∧
      t.regs = s.regs ∧ SameBytes s t) ∧
  (∀ (p : Fin 80) (g : Fin 64) (i : Insn) (x : Group) (cur : Path) (rest : List Path) (q : PixGroup) (xp : Pass)
      (r : List Word) (w : TileWork) (s : State), Issues p.val g.val { op := some 0xBF } i x cur rest s →
    OnTile p.val x q xp r w s → exOf x i cur ≠ 0 → x.live &&& ~~~ (exOf x i cur) ≠ 0 →
    mustYield ⟨p.val, g.val, x, cur, rest, exOf x i cur⟩ q s = false →
    ∃ t, exec (.exit p g i) s = .next t ∧
      workOf p.val x.job q.tile t = some ((threadsOf (exOf x i cur)).foldl (commitThread xp r x q) w))

/-- R253 to R256: tex.s of a texture with one level and nearest filtering delivers the four components of the texel that the
coordinates wrap to, and residency code 0, or 2 where a STAGED access does not find its texels staged; a texture descriptor that breaks R253 ends the job with TEX_DESC. (The model's own
reading where the spec leaves one: log 26, 53, 92.) -/
def Obligations.TexturesDeliverTheirTexels : Prop :=
  (∀ (p : Fin 80) (g : Fin 64) (i : Insn) (x : Group) (cur : Path) (rest : List Path) (q : PixGroup) (xp : Pass)
      (r d : List Word) (w : TileWork) (th : Fin 32) (bs ts : List Byte) (u v : Word) (tx ty : Nat) (s s1 s2 : State),
    Issues p.val g.val { op := some 0xD8, dst := 5, src0 := 2, imm := 0x7F } i x cur rest s →
    OnTile p.val x q xp r w s → exOf x i cur = oneBit th.val → i.src0 ≠ 255 →
    i.dst.toNat + 5 ≤ 255 → cRead p.val x.job (dLong r 20 % 2 ^ 48 + 32 * (i.imm.toNat % 16)) 32 .rd s = (some bs, s1) →
    d = rowWords 4 8 bs → texBad d = false → tLevels d = 1 → tFilter d = 0 → tSparse d = false →
    u = regOf x th.val i.src0.toNat → v = regOf x th.val (i.src0.toNat + 1) →
    notFinite (fMul u (fInt (tWidth d))) = false → notFinite (fMul v (fInt (tHeight d))) = false →
    tx = texWrap (tWrapU d) (tWidth d) (floorInt (fMul u (fInt (tWidth d)))) →
    ty = texWrap (tWrapV d) (tHeight d) (floorInt (fMul v (fInt (tHeight d)))) →
    (i.imm.getLsbD 4 = false ∨ ∀ lod, stagedPath r d w.texels i lod u v = false) →
    cRead p.val x.job (texelAt d 0 tx ty).2 (texelSize (tFormat d)) .rd { s1 with free := s1.free + 8 } = (some ts, s2) →
    ∃ t y, exec (.texS p g i) s = .next t ∧ groupOf p.val g.val t = some y ∧ y = { stepped x cur rest with regs := y.regs } ∧
      (∀ k, k < 4 → regOf y th.val (i.dst.toNat + k) = nth 0 (texelDec (tFormat d) (leNat ts)) k) ∧
      regOf y th.val (i.dst.toNat + 4) = (if i.imm.getLsbD 4 then 2 else 0) ∧ OnlyDst x y (exOf x i cur) i.dst.toNat 5 ∧ SameBytes s2 t) ∧
  (∀ (p : Fin 80) (g : Fin 64) (i : Insn) (x : Group) (cur : Path) (rest : List Path) (q : PixGroup) (xp : Pass)
      (r : List Word) (w : TileWork) (bs : List Byte) (s s1 : State),
    Issues p.val g.val { op := some 0xD8, dst := 5, src0 := 2, imm := 0x7F } i x cur rest s → OnTile p.val x q xp r w s → exOf x i cur ≠ 0 →
    cRead p.val x.job (dLong r 20 % 2 ^ 48 + 32 * (i.imm.toNat % 16)) 32 .rd s = (some bs, s1) →
    texBad (rowWords 4 8 bs) = true →
    ∃ t, exec (.texS p g i) s = .next t ∧ JobFault x.job 0x17 (dLong r 20 % 2 ^ 48 + 32 * (i.imm.toNat % 16)) t)

/-! ## Placement and preemption (R92 to R95, R105, R108, R114, R120) -/

/-- The block that R94, R95, R106 and R108 put on a core. -/
def Sys2Proof.Claims.PlacedBlock (j : Nat) (k : Kernel) (b p : Nat) (s t : State) : Prop :=
  blockOf b t = some { job := j, core := p, index := k.next, bcl := k.next / k.bclSize, rank := 0,
                       size := k.localBytes, groups := k.groups, nregs := k.regs } ∧
  (∀ off, off < 2 ^ 19 → memByte zeroByte t.mem.lm (lmKey b off) = 0) ∧
  (∀ idx, idx < k.groups → ∃ g y, g < 64 ∧ groupOf p g s = none ∧ groupOf p g t = some y ∧ y.job = j ∧ y.block = b ∧
    y.idx = idx ∧ y.live = BitVec.allOnes 32 ∧ y.paths = [{ mask := BitVec.allOnes 32, pc := 0 }] ∧ y.nregs = k.regs ∧
    ∀ th, th < 32 → regOf y th 0 = w32 (idx * 32 + th) ∧ regOf y th 1 = w32 (k.next % k.gx) ∧
      regOf y th 5 = w32 k.param)

/-- The kernel's code image stands in core `p`'s instruction store. -/
def Sys2Proof.Claims.Staged (p j : Nat) (k : Kernel) (s : State) : Prop :=
  (coreOf p s).images.any (fun m => m.job == j && m.va == k.code) = true

/-- R24, R92, R94, R95, R108, R191: the next block of a kernel whose clusters are of one block goes to an enabled core with room,
with its groups at program counter 0 and its local memory zero; R65, R114, R120, R258, R259: a preemption request for a runnable queue of
the compositor-priority slot stops the unit's blocks and the placing, and does nothing where no slot has that priority; the save
takes the unit off its cores with its groups and engines, and writes the save area alone; the restore puts it back. (The model's
own reading where the spec leaves one: log 1, 31, 33.) -/
def Obligations.BlocksArePlacedPreemptedAndRestored : Prop :=
  (∀ (j : Nat) (p : Fin 80) (k : Kernel) (s : State), kernelOf j s = some k → k.bclSize = 1 → k.coop = false →
    k.paused = false → k.next < kernelBlocks k → jobEnded j s = false → devState s = 0 → clusterRoom j k [p.val] s = true →
    powered (pgCl (p.val / 5)) s = true → powered (pgSc p.val) s = true → (coreOf p.val s).jobs.contains j = true →
    Staged p.val j k s → (k.next = 0 → ∀ q ∈ partCores j k s, Staged q j k s) → s.tlr.cpri = none →
    ∃ t, exec (.blockPlace j [p]) s = .next t ∧ PlacedBlock j k s.cpt.nextBlock p.val s t ∧
      kernelOf j t = some { k with next := k.next + 1, cores := if k.cores.contains p.val then k.cores else k.cores ++ [p.val] } ∧
      (∀ q, q ≠ p.val → coreOf q t = coreOf q s) ∧ t.cpt.nextBlock = s.cpt.nextBlock + 1 ∧ t.regs = s.regs ∧ t.fe = s.fe) ∧
  (∀ (j unit : Nat) (s : State), cpriSlot s = none → exec (.preemptRequest j unit) s = .next (tidyMem s)) ∧
  (∀ (j unit c : Nat) (q : Fin 16) (k : Kernel) (s : State), kernelOf j s = some k → unitBlocks j unit s ≠ [] →
    jobEnded j s = false → cpriSlot s = some c → k.slot ≠ c → cpriRuns c q.val s = true →
    (unitsIn j (queueMask c q.val s) k s).contains unit = true → (∀ e ∈ unitBlocks j unit s, (coreOf e.2.core s).wb = []) →
    ∃ t, exec (.preemptRequest j unit) s = .next t ∧ kernelOf j t = some { k with paused := true } ∧
      (∀ e ∈ unitBlocks j unit s, blockStopping e.1 t = true) ∧
      (∀ b, b ∉ (unitBlocks j unit s).map (·.1) → blockOf b t = blockOf b s) ∧ t.cpt.cores = s.cpt.cores ∧
      t.regs = s.regs ∧ t.fe = s.fe ∧ SameBytes s t) ∧
  (∀ (j unit cycles b : Nat) (v : Block) (s : State), unitBlocks j unit s = [(b, v)] → v.stopping = true →
    unitBusy [(b, v)] s = false → jobEnded j s = false → s.hbc.ecc = [] → s.hbc.pendInv = [] → NoInjection s →
    ∃ t x, exec (.preemptSaveComplete j unit cycles) s = .next t ∧ t.cpt.saved = s.cpt.saved ++ [x] ∧ x.job = j ∧
      x.unit = unit ∧ x.blocks = [(b, v)] ∧ x.pinned = v.stored ∧
      x.groups = (blockGroups b s).map (fun g => (g.2.1, g.2.2)) ∧
      (∀ e ∈ t.cpt.blocks, e.1 ≠ b) ∧ (∀ g ∈ (coreOf v.core t).groups, g.2.block ≠ b) ∧
      getReg (pgSc v.core) 0 0x118 t = w32 (min cycles (2 ^ 32 - 1)) ∧ OtherRegs (fun k => k = rk (pgSc v.core) 0 0x118) s t ∧
      HbmKept ((slotOf (jobRef j s).slot s).saveBase + lcore v.core s * 2 ^ 20) (2 ^ 20) s t ∧
      t.mem.lm = (tidyMem s).mem.lm ∧ t.mem.cmem = (tidyMem s).mem.cmem) ∧
  (∀ (j unit b gs : Nat) (p : Fin 80) (v : Block) (k : Kernel) (x : Saved) (y : Group) (s : State),
    s.cpt.saved = [x] → x.job = j → x.unit = unit → kernelOf j s = some k → x.blocks = [(b, v)] → x.groups = [(gs, y)] →
    y.block = b → x.mes = [] → k.bclSize = 1 → jobEnded j s = false → devState s = 0 →
    restoreRoom x k [(b, v)] [p.val] s = true → powered (pgCl (p.val / 5)) s = true → powered (pgSc p.val) s = true →
    (coreOf p.val s).jobs.contains j = true → Staged p.val j k s →
    (∀ e ∈ s.cpt.blocks, e.2.job ≠ j) →
    ∃ t, exec (.preemptRestore j unit [p]) s = .next t ∧ t.cpt.saved = [] ∧
      blockOf b t = some { v with core := p.val, stopping := false } ∧ (∃ g, g < 64 ∧ groupOf p.val g t = some y) ∧
      (∃ k', kernelOf j t = some k' ∧ k'.paused = false ∧ k'.next = k.next) ∧ t.regs = s.regs ∧ SameBytes s t)

/-! ## HBM controllers (R137, R138, R141, R143) -/

/-- R137, R138, R141, R143: the end of a fill sets the region's bit, or clears the region where an invalidation waited;
REGION_INV.GO makes every byte of its region read 0 and no other, or waits for the fill; INIT starts training once; a scrub step
corrects what it meets and moves on, and a pass that ends is counted and raises its condition. (The model's own reading where
the spec leaves one: log 1, 34, 35, 85.) -/
def Obligations.HbmRegionsInitAndScrub : Prop :=
  (∀ (region : Nat) (s : State), s.hbc.filling.contains region = true →
    ∃ t, exec (.regionFillDone region) s = .next t ∧ t.hbc.filling = s.hbc.filling.filter (· != region) ∧
      (s.hbc.pendInv.contains region = false → tabGet false region t.hbc.valid = true ∧ t.regs = s.regs ∧ SameBytes s t) ∧
      (s.hbc.pendInv.contains region = true → bit (getReg (pgHbc 0) 0 0x128 t) 31 = false ∧
        t.hbc.pendInv.contains region = false ∧ hbmBytes (region * 2 ^ 21) (2 ^ 21) t = List.replicate (2 ^ 21) 0)) ∧
  (∀ (r : Requester) (v : Word) (n : Nat) (s : State), Heard r (pgHbc 0) 0x124 s = true → bit v 31 = true → n = fld v 0 16 →
    n < regionCount → bit (getReg (pgHbc 0) 0 0x128 s) 31 = false →
    ∃ t, exec (.regionInv r v) s = .next t ∧ getFld (pgHbc 0) 0 0x128 0 16 t = n ∧
      OtherRegs (fun k => k = rk (pgHbc 0) 0 0x128) s t ∧
      (s.hbc.filling.contains n = true → bit (getReg (pgHbc 0) 0 0x128 t) 31 = true ∧
        t.hbc = { s.hbc with pendInv := s.hbc.pendInv ++ [n] } ∧ SameBytes s t) ∧
      (s.hbc.filling.contains n = false → bit (getReg (pgHbc 0) 0 0x128 t) 31 = false ∧
        hbmBytes (n * 2 ^ 21) (2 ^ 21) t = List.replicate (2 ^ 21) 0 ∧ HbmKept (n * 2 ^ 21) (2 ^ 21) s t)) ∧
  (∀ (r : Requester) (n : Fin 4) (s : State), Heard r (pgHbc n.val) 0x100 s = true → bit (getReg (pgHbc n.val) 0 0x100 s) 0 = false →
    ∃ t, exec (.hbmInit r n) s = .next t ∧ bit (getReg (pgHbc n.val) 0 0x100 t) 0 = true ∧
      getFld (pgHbc n.val) 0 0x104 8 6 t = retiredCount n.val s ∧ SameBytes s t ∧
      (stage s ≠ 3 → OtherRegs (fun k => k = rk (pgHbc n.val) 0 0x100 ∨ k = rk (pgHbc n.val) 0 0x104) s t) ∧
      (stage s = 3 → (∀ m, m < 4 → m ≠ n.val → bit (getReg (pgHbc m) 0 0x100 s) 0 = true) → stage t = 4)) ∧
  (∀ (n : Fin 4) (s : State), scrubActive n.val s = true → scrubSteps n.val s ≠ 0 → s.hbc.ecc = [] →
    ∃ t, exec (.patrolScrubStep n) s = .next t ∧ SameBytes s t ∧
      (getFld (pgHbc n.val) 0 0x120 0 27 s + 1 < scrubSteps n.val s →
        getFld (pgHbc n.val) 0 0x120 0 27 t = getFld (pgHbc n.val) 0 0x120 0 27 s + 1 ∧
        OtherRegs (fun k => k = rk (pgHbc n.val) 0 0x120) s t) ∧
      (scrubSteps n.val s ≤ getFld (pgHbc n.val) 0 0x120 0 27 s + 1 → getFld (pgHbc n.val) 0 0x120 0 27 t = 0 ∧
        getFld (pgHbc n.val) 0 0x11C 0 16 t = min 65535 (getFld (pgHbc n.val) 0 0x11C 0 16 s + 1) ∧
        bit (getReg (pgHbc n.val) 0 0x010 t) 1 = true)) ∧
  (∀ (n : Fin 4) (u : Nat) (s : State), scrubActive n.val s = true → scrubSteps n.val s ≠ 0 →
    s.hbc.ecc = [(u, { ue := false })] → stackOf (u * 32) s = n.val →
    scrubPlace n.val (u / 8) s = getFld (pgHbc n.val) 0 0x120 0 27 s →
    ∃ t, exec (.patrolScrubStep n) s = .next t ∧ SameBytes s t ∧ t.hbc.ecc = [] ∧
      (getReg (pgHbc n.val) 0 0x10C t).toNat = min (2 ^ 32 - 1) ((getReg (pgHbc n.val) 0 0x10C s).toNat + 1) ∧
      bit (getReg (pgHbc n.val) 0 0x020 t) 1 = true)

/-! ## Translation, fault rings and DMA (R156, R157, R161 to R172, R470) -/

/-- R157, R172: a write with GO starts an invalidation unless one is in progress; it ends once no host read of the scope is
outstanding, and then leaves no translation of the scope in any buffer and no buffered store of the scope unwritten, and keeps the
other translations; the host's invalidation removes the PASID's ATS translations of the range at once, and is counted and answered
when no host read that they translated is outstanding; a 33rd outstanding one is not taken. (The model's own reading where the spec
leaves one: log 37, 90.) -/
def Obligations.InvalidationsRemoveTheirScope : Prop :=
  (∀ (r : Requester) (v : Word) (s : State), Heard r pgMmu 0x108 s = true → bit v 31 = true →
    (bit (getReg pgMmu 0 0x108 s) 31 = false →
      ∃ t, exec (.invalidate r v) s = .next t ∧ FieldsWritten pgMmu 0x108 v s t ∧ bit (getReg pgMmu 0 0x108 t) 31 = true ∧
        OtherRegs (fun k => k = rk pgMmu 0 0x108) s t ∧ RegsOnly s t) ∧
    (bit (getReg pgMmu 0 0x108 s) 31 = true → exec (.invalidate r v) s = .next (tidyMem s))) ∧
  (∀ s : State, bit (getReg pgMmu 0 0x108 s) 31 = true → readsInScope (invScope s) s = false →
    ∃ t, exec .invalidateDone s = .next t ∧ bit (getReg pgMmu 0 0x108 t) 31 = false ∧
      t.mmu.shared = s.mmu.shared.filter (fun e => !(invScope s e.slot e.base e.size)) ∧
      (∀ rq, tabGet [] rq t.mmu.micro = (tabGet [] rq s.mmu.micro).filter (fun e => !(invScope s e.slot e.base e.size))) ∧
      (∀ e ∈ t.mmu.walk, e ∈ s.mmu.walk ∧ invScope s e.slot (e.pfx * 2 ^ (12 + 9 * e.level)) (2 ^ (12 + 9 * e.level)) = false) ∧
      (∀ p, (coreOf p t).wb = (coreOf p s).wb.filter (fun e => !(invScope s e.slot (e.line * 64) 64))) ∧
      (∀ (p : Nat) (e : WbEnt) (o : Nat) (b : Byte) (bs : List Byte), (coreOf p s).wb = [e] → (∀ q, q ≠ p → (coreOf q s).wb = []) →
        invScope s e.slot (e.line * 64) 64 = true → byteRuns e.bytes = [(o, b :: bs)] → e.host = none → s.hbc.pendInv = [] →
        hbmBytes (e.pa + o) (bs.length + 1) t = b :: bs ∧ HbmKept (e.pa + o) (bs.length + 1) s t) ∧
      ((∀ p, (coreOf p s).wb = []) → SameBytes s t ∧ OtherRegs (fun k => k = rk pgMmu 0 0x108) s t) ∧
      t.fe = s.fe ∧ t.dma = s.dma) ∧
  (∀ s : State, bit (getReg pgMmu 0 0x108 s) 31 = false ∨ readsInScope (invScope s) s = true →
    exec .invalidateDone s = .next (tidyMem s)) ∧
  (∀ (pasid : BitVec 20) (va pages : Nat) (i : Nat × Nat × Nat) (s : State), selfHosted s = false → s.mmu.atsInv.length < 32 →
    i = (pasid.toNat, va, pages * 4096) →
    ∃ t, exec (.atsInvalidateRequest pasid va pages) s = .next t ∧
      (∀ e, e ∈ t.mmu.shared ↔ e ∈ s.mmu.shared ∧ ¬ (e.ats = true ∧ (slotOf e.slot s).pasid = pasid.toNat ∧
        (slotOf e.slot s).state ≠ 0 ∧ e.base < va + pages * 4096 ∧ va < e.base + e.size)) ∧
      t.mmu.micro = s.mmu.micro ∧ OtherRegs (fun k => k = rk pgMmu 0 0x154) s t ∧ SameBytes s t ∧
      (s.mmu.atsInv = [] → atsReading i s = false → t.out = .invCompletion pasid.toNat :: s.out ∧ t.mmu.atsInv = [] ∧
        (getReg pgMmu 0 0x154 t).toNat = min (2 ^ 32 - 1) ((getReg pgMmu 0 0x154 s).toNat + 1)) ∧
      (s.mmu.atsInv = [] → atsReading i s = true → t.out = s.out ∧ t.mmu.atsInv = [i] ∧ t.regs = s.regs)) ∧
  (∀ (pasid : BitVec 20) (va pages : Nat) (s : State), selfHosted s = true ∨ 32 ≤ s.mmu.atsInv.length →
    exec (.atsInvalidateRequest pasid va pages) s = .next (tidyMem s))

/-- The function whose fault ring FLTQ_SEL selects (Table 6-6). -/
abbrev Sys2Proof.Claims.fltSel (s : State) : Nat := getFld pgMmu 0 0x130 0 6 s

/-- R162 to R166: EN from 0 to 1 empties the selected ring; EN from 1 to 0 ends the transfers that wait to post, with their
records dropped and counted; a consumer count within the ring is taken and frees its slots, another is discarded; the oldest
waiting post of a function takes the slot that is free, its record stands in the ring, and its channel is stalled. (The model's
own reading where the spec leaves one: log 34, 44.) -/
def Obligations.FaultRingsPostInOrder : Prop :=
  (∀ (r : Requester) (v : Word) (s : State), Heard r pgMmu 0x134 s = true → bit v 0 = true →
    bit (getReg pgMmu (fltSel s) 0x134 s) 0 = false →
    ∃ t, exec (.fltqEnable r v) s = .next t ∧ bit (getReg pgMmu (fltSel s) 0x134 t) 0 = true ∧
      getFld pgMmu (fltSel s) 0x134 8 4 t = fld v 8 4 ∧ getFld pgMmu (fltSel s) 0x134 16 11 t = fld v 16 11 ∧
      getReg pgMmu (fltSel s) 0x140 t = 0 ∧ getReg pgMmu (fltSel s) 0x144 t = 0 ∧
      getFld pgMmu (fltSel s) 0x14C 0 2 t = 0 ∧
      OtherRegs (fun k => ∃ o ∈ [0x134, 0x140, 0x144, 0x14C], k = rk pgMmu (fltSel s) o) s t ∧ RegsOnly s t) ∧
  (∀ (r : Requester) (v : Word) (s : State), Heard r pgMmu 0x134 s = true → bit v 0 = false →
    bit (getReg pgMmu (fltSel s) 0x134 s) 0 = true →
    ∃ t, exec (.fltqDisable r v) s = .next t ∧ bit (getReg pgMmu (fltSel s) 0x134 t) 0 = false ∧
      ((∀ p ∈ s.mmu.posts, p.fn ≠ fltSel s) →
        OtherRegs (fun k => k = rk pgMmu (fltSel s) 0x134) s t ∧ RegsOnly s t) ∧
      (∀ (p : WaitPost) (x : Chan), s.mmu.posts = [p] → p.fn = fltSel s → chanOf p.chan s = some x → JobRuns x.job s →
        chanOf p.chan t = none ∧ t.mmu.posts = [] ∧ JobFault x.job 0x16 p.va t ∧
        (getReg pgMmu (fltSel s) 0x148 t).toNat = min (2 ^ 32 - 1) ((getReg pgMmu (fltSel s) 0x148 s).toNat + 1))) ∧
  (∀ (r : Requester) (v : Word) (w held : Nat) (s : State), Heard r pgMmu 0x144 s = true → w = fltWrap (fltSel s) s →
    held = ((getReg pgMmu (fltSel s) 0x140 s).toNat + w - v.toNat % w) % w →
    (v.toNat < w → held ≤ 2 ^ fltLog2 (fltSel s) s - 1 →
      ∃ t, exec (.fltqConsWrite r v) s = .next t ∧ getReg pgMmu (fltSel s) 0x144 t = v ∧ fltHeld (fltSel s) t = held ∧
        bit (getReg pgMmu (fltSel s) 0x14C t) 0 = decide (held = 2 ^ fltLog2 (fltSel s) s - 1) ∧
        OtherRegs (fun k => k = rk pgMmu (fltSel s) 0x144 ∨ k = rk pgMmu (fltSel s) 0x14C) s t ∧ RegsOnly s t) ∧
    (w ≤ v.toNat ∨ 2 ^ fltLog2 (fltSel s) s - 1 < held → exec (.fltqConsWrite r v) s = .next (tidyMem s))) ∧
  (∀ (f : Fin 64) (p : WaitPost) (x : Chan) (prod : Nat) (s : State), s.mmu.posts.find? (fun p => p.fn == f.val) = some p →
    chanOf p.chan s = some x → bit (getReg pgMmu f.val 0x134 s) 0 = true → fltHeld f.val s < 2 ^ fltLog2 f.val s - 1 →
    prod = (getReg pgMmu f.val 0x140 s).toNat → (fltBase f.val s).1 = false → s.hbc.pendInv = [] →
    ∃ t, exec (.faultPostWaiting f) s = .next t ∧ t.mmu.posts = s.mmu.posts.erase p ∧
      chanOf p.chan t = some { x with st := .stalled } ∧
      (getReg pgMmu f.val 0x140 t).toNat = (prod + 1) % fltWrap f.val s ∧
      hbmBytes ((fltBase f.val s).2 + 32 * (prod % (2 ^ fltLog2 f.val s - 1))) 32 t =
        retryRecord p.chan x.job p.va p.cause p.level p.write s prod ∧
      HbmKept ((fltBase f.val s).2 + 32 * (prod % (2 ^ fltLog2 f.val s - 1))) 32 s t ∧ t.fe = s.fe)

/-- The channel number of channel `c` of engine `n`. -/
abbrev Sys2Proof.Claims.chNo (n : Fin 4) (c : Fin 16) : Nat := n.val * 16 + c.val

/-- R166, R470: the first waiting transfer of an engine takes its lowest free channel; a fill or a copy that ends has written
its bytes and no others, its channel is free and its job ends OK; a translation failure that cannot be retried ends the job with
ACCESS_FAULT, one that can stalls the channel with a new token. (The model's own reading where the spec leaves one: log 38, 39.)
-/
def Obligations.DmaTransfersRunInStreamOrder : Prop :=
  (∀ (n : Fin 4) (w : Nat × Nat × Nat × Xfer) (c : Nat) (s : State), s.dma.waiting.find? (fun w => w.1 == n.val) = some w →
    freeChan n.val s = some c →
    ∃ t x, exec (.dmaChannelAssign n) s = .next t ∧ t.dma.waiting = s.dma.waiting.erase w ∧
      chanOf (n.val * 16 + c) t = some x ∧ x.job = w.2.1 ∧ x.slot = w.2.2.1 ∧ x.xfer = w.2.2.2 ∧ x.done = 0 ∧
      (∀ d, d ≠ n.val * 16 + c → chanOf d t = chanOf d s) ∧ t.fe = s.fe) ∧
  (∀ (n : Fin 4) (c : Fin 16) (x y : Chan) (s s1 : State), chanOf (chNo n c) s = some x → x.st = .running →
    JobRuns x.job s → chanRun n.val x s = ((y, none), s1) →
    ∃ t, exec (.dmaTransferEnd n c) s = .next t ∧ chanOf (chNo n c) t = none ∧ SameBytes s1 t ∧
      (∃ b, tabFind x.job t.fe.jobs = some b ∧ b.fin = some ⟨0, 0, 0⟩) ∧
      (∀ d, d ≠ chNo n c → chanOf d t = chanOf d s)) ∧
  (∀ (n : Fin 4) (c : Fin 16) (x : Chan) (dst len a : Nat) (pat : Word) (s s1 : State), chanOf (chNo n c) s = some x →
    x.st = .running → x.busErr = false → x.done = 0 → JobRuns x.job s → x.xfer = .fill dst len pat → 0 < len →
    len ≤ pageLeft dst → s.hbc.pendInv = [] →
    translate (rqDma n.val) x.slot dst .wr (prefetch (rqDma n.val) x.slot dst len s) = (.ok (.hbm a), s1) →
    ∃ t, exec (.dmaTransferEnd n c) s = .next t ∧ chanOf (chNo n c) t = none ∧
      hbmBytes a len t = (List.range len).map (fun i => BitVec.ofNat 8 (pat.toNat / 256 ^ (i % 4))) ∧ HbmKept a len s t ∧
      (∃ b, tabFind x.job t.fe.jobs = some b ∧ b.fin = some ⟨0, 0, 0⟩)) ∧
  (∀ (n : Fin 4) (c : Fin 16) (x : Chan) (src dst len a b : Nat) (bs : List Byte) (s s0 s1 s2 s3 : State),
    chanOf (chNo n c) s = some x → s.hbc.pendInv = [] →
    s0 = prefetch (rqDma n.val) x.slot dst len (prefetch (rqDma n.val) x.slot src len s) → x.st = .running → x.busErr = false → x.done = 0 → JobRuns x.job s →
    x.xfer = .copy src dst len → 0 < len → len ≤ pageLeft src → len ≤ pageLeft dst →
    translate (rqDma n.val) x.slot src .rd s0 = (.ok (.hbm a), s1) → dmaRead n.val x.slot src len s1 = (.ok bs, s2) →
    translate (rqDma n.val) x.slot dst .wr s2 = (.ok (.hbm b), s3) → bs.length = len →
    ∃ t, exec (.dmaTransferEnd n c) s = .next t ∧ chanOf (chNo n c) t = none ∧ hbmBytes b len t = bs ∧ HbmKept b len s t ∧
      (∃ jb, tabFind x.job t.fe.jobs = some jb ∧ jb.fin = some ⟨0, 0, 0⟩)) ∧
  (∀ (n : Fin 4) (c : Fin 16) (x y : Chan) (va k l : Nat) (wr : Bool) (s s1 : State), chanOf (chNo n c) s = some x →
    x.st = .running → JobRuns x.job s → chanRun n.val x s = ((y, some (.xl va k l wr)), s1) →
    ∃ t, exec (.dmaXlateFault n c) s = .next t ∧
      (retryable k = false → chanOf (chNo n c) t = none ∧ JobFault x.job 0x16 va t) ∧
      (retryable k = true → bit (getReg pgMmu (slotOf x.slot s).func 0x134 s1) 0 = true →
        fltHeld (slotOf x.slot s).func s1 < 2 ^ fltLog2 (slotOf x.slot s).func s1 - 1 →
        (∀ p ∈ s1.mmu.posts, p.fn ≠ (slotOf x.slot s).func) →
        chanOf (chNo n c) t = some { y with st := .stalled, va := va, wr := wr } ∧ JobRuns x.job t ∧
        tabGet 0 (chNo n c) t.dma.token = (tabGet 0 (chNo n c) s.dma.token + 1) % 65536))

/-- R167, R170, R171: a resume with the channel's token goes on or aborts, another is discarded and counted; an ATS answer that
grants the access is held in the shared buffer, translated or as an untranslated address, and the channel goes on, one that does not
sends a page request where PRI is enabled, as far as the host grants requests, else the channel waits to send; Success sends
the translation request again, another page response ends the job. (The model's own reading where the spec leaves one: log 1, 38, 44, 90.) -/
def Obligations.StalledChannelsResume : Prop :=
  (∀ (r : Requester) (n : Fin 4) (v : Word) (x : Chan) (k : Nat) (s : State), Heard r (pgDma n.val) 0x100 s = true →
    k = n.val * 16 + fld v 0 4 → chanOf k s = some x →
    (x.st ≠ .stalled ∨ fld v 16 16 ≠ tabGet 0 k s.dma.token →
      ∃ t, exec (.chResume r n v) s = .next t ∧ t.dma = s.dma ∧
        (getReg (pgDma n.val) 0 0x108 t).toNat = min (2 ^ 32 - 1) ((getReg (pgDma n.val) 0 0x108 s).toNat + 1) ∧
        OtherRegs (fun k => k = rk (pgDma n.val) 0 0x108) s t ∧ RegsOnly s t) ∧
    (x.st = .stalled → fld v 16 16 = tabGet 0 k s.dma.token → bit v 4 = true → JobRuns x.job s →
      ∃ t, exec (.chResume r n v) s = .next t ∧ chanOf k t = none ∧ JobFault x.job 0x16 x.va t ∧ SameBytes s t) ∧
    (x.st = .stalled → fld v 16 16 = tabGet 0 k s.dma.token → bit v 4 = false → (∀ a b l, x.xfer ≠ .copy a b l) →
      ∃ t, exec (.chResume r n v) s = .next t ∧ chanOf k t = some { x with st := .running } ∧ t.fe = s.fe)) ∧
  (∀ (n : Fin 4) (c : Fin 16) (a : AtsCpl) (x : Chan) (s : State), chanOf (chNo n c) s = some x → x.st = .atsWait →
    ((if x.wr then a.write else a.read) = true → (∀ i j l, x.xfer ≠ .copy i j l) →
      ∃ t, exec (.atsTranslationCompletion n c a) s = .next t ∧ chanOf (chNo n c) t = some { x with st := .running } ∧
        t.fe = s.fe ∧
        (∀ d, x.xfer = .gather d → t.regs = s.regs ∧ SameBytes s t ∧
          (∃ e ∈ t.mmu.shared, e.ats = true ∧ entHit x.slot x.va e = true ∧ e.r = a.read ∧ e.w = a.write ∧ e.tgt = 2 ∧
            e.untranslated = a.untranslated ∧ (a.untranslated = true → e.pa + (x.va - e.base) = x.va)) ∧
          (s.mmu.shared.length < 8 → ∀ o ∈ s.mmu.shared, ¬ (o.ats = true ∧ entHit x.slot x.va o = true) →
            o ∈ t.mmu.shared))) ∧
    ((if x.wr then a.write else a.read) = false → (slotOf x.slot s).priEn = true → priLimit s ≤ s.mmu.pri.length →
      ∃ t, exec (.atsTranslationCompletion n c a) s = .next t ∧ chanOf (chNo n c) t = some { x with st := .priHold } ∧
        t.out = s.out ∧ t.mmu = s.mmu ∧ t.regs = s.regs ∧ SameBytes s t) ∧
    ((if x.wr then a.write else a.read) = false → (slotOf x.slot s).priEn = true → s.mmu.pri.length < priLimit s →
      ∃ t, exec (.atsTranslationCompletion n c a) s = .next t ∧ chanOf (chNo n c) t = some { x with st := .priWait } ∧
        t.out = .pageRequest (chNo n c) (slotOf x.slot s).pasid (x.va / 4096 * 4096) :: s.out ∧
        t.mmu.pri = s.mmu.pri ++ [chNo n c] ∧ t.regs = s.regs ∧ SameBytes s t)) ∧
  (∀ (n : Fin 4) (c : Fin 16) (x : Chan) (s : State), chanOf (chNo n c) s = some x → x.st = .priWait →
    (∀ e ∈ s.dma.chans, e.2.st ≠ .priHold) →
    (∃ t, exec (.priResponse n c .success) s = .next t ∧ chanOf (chNo n c) t = some { x with st := .atsWait } ∧
      t.out = .atsRequest (chNo n c) (slotOf x.slot s).pasid (x.va / 4096 * 4096) :: s.out ∧
      t.mmu.pri = s.mmu.pri.filter (· != chNo n c) ∧ t.regs = s.regs ∧ SameBytes s t) ∧
    (∀ a : PriCode, a ≠ .success → JobRuns x.job s →
      ∃ t, exec (.priResponse n c a) s = .next t ∧ chanOf (chNo n c) t = none ∧ JobFault x.job 0x16 x.va t ∧
        t.mmu.pri = s.mmu.pri.filter (· != chNo n c)))

/-! ## Contexts, queues and doorbells (R178 to R189, R204, R452, R453) -/

/-- The slot that FE.SLOT_SEL selects. -/
abbrev Sys2Proof.Claims.slotSel (s : State) : Nat := getFld pgFe 0 0x104 0 6 s

/-- Nothing in a slot but its queues, and its compute, render, CZ and DMA jobs. -/
def Sys2Proof.Claims.OnlyJobs (k : Nat) (s : State) : Prop :=
  SlotQuiet k s ∧ (∀ c < 16, chEnabled c s = true → chSlot c s ≠ k) ∧
  ∀ e ∈ slotJobs k s, opOf e.2.cmd < 8 ∧ opOf e.2.cmd ≠ 3

/-- What the kill of a slot does (R204): DYING with its scan started, its queues DISABLED, its running jobs ABANDONED with
reason KILLED. -/
def Sys2Proof.Claims.SlotWasKilled (k : Nat) (s t : State) : Prop :=
  (slotOf k t).state = 3 ∧ (slotOf k t).scan = true ∧ (slotOf k t).driver = (slotOf k s).driver ∧
  t.fnc.scans = s.fnc.scans ++ [(slotOf k s).func] ∧ (∀ q, q < 16 → (queueOf k q t).state = 0) ∧
  (∀ m, m ≠ k → slotOf m t = slotOf m s) ∧
  (∀ j b q, tabFind j s.fe.jobs = some b → b.owner = .queue k q → b.fin = none →
    ∃ b', tabFind j t.fe.jobs = some b' ∧ b'.fin = some ⟨4, 7, 0⟩)

/-- R178, R204, R452: LOAD reads the record and answers LOAD_ERR; with 0 the slot is ACTIVE as the record says, with its
driver's reference, its queues DISABLED and no translation of an earlier context; KILL, by SLOT_CTL or by the function's own
CTX_KILL, makes it DYING and ends its work; the end of the scan takes the driver's reference, and a slot without references is
FREE with its cluster memory cleared. (The model's own reading where the spec leaves one: log 1, 40.) -/
def Obligations.ContextSlotsLoadAndDie : Prop :=
  (∀ (r : Requester) (v : Word) (k addr e : Nat) (w : List Word) (s : State), Heard r pgFe 0x110 s = true → bit v 8 = true →
    bit v 9 = false → k = slotSel s → (slotOf k s).state = 0 → compat s = false → stage s = 6 → s.hbc.ecc = [] →
    s.hbc.pendInv = [] →
    addr = slotCtxAddr k s → w = rowWords 4 32 (hbmBytes addr 128 s) → e = loadErr (fld v 0 6) addr w s →
    ∃ t, exec (.slotLoad r v) s = .next t ∧ getFld pgFe k 0x114 8 8 t = e ∧ slotOwner k t = fld v 0 6 ∧
      (e ≠ 0 → slotOf k t = slotOf k s ∧ SameBytes s t) ∧
      (e = 0 → slotOf k t = slotFromRecord addr 0 w s ∧ (slotOf k t).state = 1 ∧ (slotOf k t).refcnt = 1 ∧
        (∀ q, q < 16 → (queueOf k q t).state = 0) ∧ (∀ m ∈ t.mmu.shared, m.slot ≠ k) ∧
        hbmBytes (addr + 0x30) 4 t = toLE 4 1 ∧ HbmKept (addr + 0x30) 4 s t) ∧
      (∀ m, m ≠ k → slotOf m t = slotOf m s)) ∧
  (∀ (r : Requester) (v : Word) (k : Nat) (s : State), Heard r pgFe 0x110 s = true → bit v 9 = true → k = slotSel s →
    (slotOf k s).state = 1 ∨ (slotOf k s).state = 2 → OnlyJobs k s →
    ∃ t, exec (.slotKill r v) s = .next t ∧ SlotWasKilled k s t) ∧
  (∀ (r : Requester) (f : Fin 64) (v : Word) (k : Nat) (s : State), HeardFn r f.val s = true → bit v 31 = true → k = fld v 0 6 →
    (slotOwner k s = f.val → (slotOf k s).state = 1 ∨ (slotOf k s).state = 2 → OnlyJobs k s →
      ∃ t, exec (.ctxKill r f v) s = .next t ∧ SlotWasKilled k s t ∧ getFld pgFn f.val 0x118 0 6 t = k) ∧
    (slotOwner k s ≠ f.val →
      ∃ t, exec (.ctxKill r f v) s = .next t ∧ bit (getReg pgFn f.val 0x118 t) 30 = true ∧ getFld pgFn f.val 0x118 0 6 t = k ∧
        OtherRegs (fun n => n = rk pgFn f.val 0x118) s t ∧ RegsOnly s t)) ∧
  (∀ (k : Fin 64) (s : State), (slotOf k.val s).state = 3 → (slotOf k.val s).scan = true →
    (∀ i ∈ windowIdx (slotOf k.val s).func s, (fenceGet i s).valid = true → (fenceGet i s).ownerSlot ≠ k.val) →
    ((slotOf k.val s).driver = true → 1 < (slotOf k.val s).refcnt →
      ∃ t, exec (.fenceScanComplete k) s = .next t ∧
        slotOf k.val t = { slotOf k.val s with
          scan := false, driver := false, refcnt := (slotOf k.val s).refcnt - 1, lastUse := s.fe.us } ∧
        t.fnc.scans = s.fnc.scans.erase (slotOf k.val s).func ∧ t.fe.jobs = s.fe.jobs) ∧
    ((slotOf k.val s).driver = true → (slotOf k.val s).refcnt = 1 → tabFind (slotOf k.val s).func s.fe.disabling = none →
      ∃ t, exec (.fenceScanComplete k) s = .next t ∧ (slotOf k.val t).state = 0 ∧ (slotOf k.val t).refcnt = 0 ∧
        (∀ n off, n < 16 → off < (slotOf k.val s).cmemSize * 65536 →
          memByte zeroByte t.mem.cmem (n * 2 ^ 22 + (slotOf k.val s).cmemBase * 65536 + off) = 0) ∧
        (bit (getReg pgFnc (slotOf k.val s).func 0x11C s) 0 = false →
          (⟨(slotOf k.val s).func, 3, k.val, (slotOf k.val s).ctxId, (slotOf k.val s).func, k.val, 0⟩ : Release) ∈ t.fnc.held))) ∧
  (∀ (k : Fin 64) (i : Nat) (e : FenceEnt) (s : State), (slotOf k.val s).state = 3 → (slotOf k.val s).scan = true →
    (slotOf k.val s).driver = false → windowIdx (slotOf k.val s).func s = [i] → e = fenceGet i s → e.valid = true →
    e.ownerSlot = k.val → e.signalled = false → NoInjection s → bit (getReg pgFnc 0 0x028 s) 16 = false → s.hbc.pendInv = [] →
    (∀ w ∈ s.fnc.waits, w.index ≠ i) →
    ∃ t, exec (.fenceScanComplete k) s = .next t ∧
      fenceGet i t = { e with signalled := true, orphan := true, status := 1, sigCount := (e.sigCount + 1) % 2 ^ 32 } ∧
      HbmKept (fenceAddr i s) 16 s t ∧ (slotOf k.val t).scan = false)

/-- The slot and queue that a function's Q_SEL selects (R452). -/
abbrev Sys2Proof.Claims.qSelSlot (f : Nat) (s : State) : Nat := getFld pgFn f 0x10C 0 6 s
abbrev Sys2Proof.Claims.qSelQ (f : Nat) (s : State) : Nat := getFld pgFn f 0x10C 8 4 s

/-- The function may command the selected queue: the slot is its own and ACTIVE (R452). -/
def Sys2Proof.Claims.MayCommand (r : Requester) (f : Nat) (s : State) : Prop :=
  HeardFn r f s = true ∧ slotOwner (qSelSlot f s) s = f ∧ (slotOf (qSelSlot f s) s).state = 1

/-- Every queue but one is as it was, and no job changes. -/
def Sys2Proof.Claims.OtherQueues (k q : Nat) (s t : State) : Prop :=
  (∀ m n, n < 16 → ¬ (m = k ∧ n = q) → queueOf m n t = queueOf m n s) ∧ t.fe.jobs = s.fe.jobs

/-- R182, R189, R452, Table 7-6: ENABLE takes a DISABLED queue's record, or answers ENA_ERR; RESUME, RESET and DISABLE act on
the states that Table 7-6 names; a command for a slot that the function does not own, or that is not ACTIVE, is DENIED. A queue
whose timer reaches its limit with nothing left to fetch is HALTED, the transfer it has started retired with its record first; a
full completion ring is looked at again. (The model's own reading where the spec leaves one: log 1, 42, 43.) -/
def Obligations.QueueCommandsFollowTheirStates : Prop :=
  (∀ (r : Requester) (f : Fin 64) (c : Instr) (s : State),
    c = .qEnable r f ∨ c = .qResume r f ∨ c = .qReset r f ∨ c = .qDisable r f → HeardFn r f.val s = true →
    slotOwner (qSelSlot f.val s) s ≠ f.val ∨ (slotOf (qSelSlot f.val s) s).state ≠ 1 →
    ∃ t, exec c s = .next t ∧ bit (getReg pgFn f.val 0x114 t) 17 = true ∧
      OtherRegs (fun n => n = rk pgFn f.val 0x114) s t ∧ RegsOnly s t) ∧
  (∀ (r : Requester) (f : Fin 64) (k q e : Nat) (bs : List Byte) (s s1 : State), MayCommand r f.val s → k = qSelSlot f.val s →
    q = qSelQ f.val s → (queueOf k q s).state = 0 → vaRead rqFe k (qrecVa k q s) 64 .rd s = (.ok bs, s1) →
    e = enaErr (slotOf k s).func (rowWords 4 16 bs) →
    ∃ t, exec (.qEnable r f) s = .next t ∧ OtherQueues k q s t ∧
      (e = 0 → queueOf k q t = { queueFromRecord (rowWords 4 16 bs) (queueOf k q s) with state := 1 }) ∧
      (e ≠ 0 → queueOf k q t = { queueOf k q s with enaErr := e })) ∧
  (∀ (r : Requester) (f : Fin 64) (k q : Nat) (s : State), MayCommand r f.val s → k = qSelSlot f.val s → q = qSelQ f.val s →
    (queueOf k q s).state = 3 → (queueOf k q s).str.frames = [] →
    (∃ t, exec (.qResume r f) s = .next t ∧ OtherQueues k q s t ∧
      ((queueOf k q s).rptr ≠ (queueOf k q s).wptr → queueOf k q t = { queueOf k q s with state := 2 }) ∧
      ((queueOf k q s).rptr = (queueOf k q s).wptr → ownJobs (.queue k q) s = [] → (queueOf k q s).str.wait = none →
        queueOf k q t = { queueOf k q s with state := 1, timer := 0 })) ∧
    (∃ t, exec (.qReset r f) s = .next t ∧ OtherQueues k q s t ∧
      queueOf k q t = { queueOf k q s with
        state := 1, rptr := (queueOf k q s).wptr,
        str := { streamTop (queueOf k q s).str with batchNo := (queueOf k q s).str.batchNo + 1 }, timer := 0, full := false,
        held := false })) ∧
  (∀ (r : Requester) (f : Fin 64) (k q : Nat) (s : State), MayCommand r f.val s → k = qSelSlot f.val s → q = qSelQ f.val s →
    ((queueOf k q s).state = 1 ∨ (queueOf k q s).state = 3 →
      ∃ t, exec (.qDisable r f) s = .next t ∧ OtherQueues k q s t ∧
        queueOf k q t = { queueOf k q s with
          state := 0, str := streamTop (queueOf k q s).str,
          timer := if (ownJobs (.queue k q) s).isEmpty then 0 else (queueOf k q s).timer, full := false, held := false }) ∧
    ((queueOf k q s).state = 2 → exec (.qDisable r f) s = .next (tidyMem s))) ∧
  (∀ (k : Fin 64) (q : Fin 16) (s : State), (queueOf k.val q.val s).state = 2 →
    max 1 (queueOf k.val q.val s).timeout ≤ (queueOf k.val q.val s).timer → (queueOf k.val q.val s).str.wait = none →
    waitGot k.val q.val s = false → (queueOf k.val q.val s).rptr = (queueOf k.val q.val s).wptr →
    (queueOf k.val q.val s).str.frames = [] →
    (ownJobs (.queue k.val q.val) s = [] →
      ∃ t, exec (.queueTimeout k q) s = .next t ∧ OtherQueues k.val q.val s t ∧
        queueOf k.val q.val t = { queueOf k.val q.val s with state := 3, timer := 0 } ∧
        bit (getReg pgFv (slotOf k.val s).func 0x100 t) 2 = true) ∧
    (∀ j b, ownJobs (.queue k.val q.val) s = [(j, b)] → tabFind j s.fe.jobs = some b → 5 ≤ opOf b.cmd → opOf b.cmd ≤ 7 →
      b.fin = none → jobStalled j s = false → jobHasOps j s = false → kernelOf j s = none → tabFind j s.tlr.passes = none →
      tabFind j s.cz.jobs = none →
      ∃ t, exec (.queueTimeout k q) s = .next t ∧ (queueOf k.val q.val t).state = 3 ∧ (queueOf k.val q.val t).timer = 0 ∧
        tabFind j t.fe.jobs = none ∧ (∀ i b', tabFind i t.fe.jobs = some b' → (tabFind i s.fe.jobs).isSome = true))) ∧
  (∀ (k : Fin 64) (q : Fin 16) (bs : List Byte) (s s1 : State), (queueOf k.val q.val s).full = true →
    (queueOf k.val q.val s).state = 2 → s.hbc.pendInv = [] → vaRead rqFe k.val (qrecVa k.val q.val s + 0x1C) 4 .rd s = (.ok bs, s1) →
    ∃ t, exec (.cplConsRecheck k q) s = .next t ∧ OtherQueues k.val q.val s t ∧ SameBytes s t ∧
      queueOf k.val q.val t = { queueOf k.val q.val s with
        full := !(decide ((w32 (queueOf k.val q.val s).cplProd - w32 (leNat bs)).toNat < 2 ^ (queueOf k.val q.val s).cplLog2)) })

/-- A queue of the function that a doorbell with this WPTR rings: its slot is ACTIVE, it is enabled, and WPTR is not more than
its size ahead of RPTR (R183). -/
def Sys2Proof.Claims.Rings (f k q : Nat) (wptr : Word) (s : State) : Prop :=
  slotOwner k s = f ∧ (slotOf k s).state = 1 ∧ (queueOf k q s).state ≠ 0 ∧
  (wptr - w32 (queueOf k q s).rptr).toNat ≤ 2 ^ (queueOf k q s).log2

/-- The queue after its doorbell: WPTR stored, and an IDLE queue with commands ACTIVE (R183, Table 7-6). -/
abbrev Sys2Proof.Claims.rung (k q : Nat) (wptr : Word) (s : State) : Queue :=
  { queueOf k q s with
    wptr := wptr.toNat, bell := s.fe.us,
    state := if (queueOf k q s).state = 1 ∧ wptr.toNat ≠ (queueOf k q s).rptr then 2 else (queueOf k q s).state }

/-- The context ID `id` belongs to function `f`: its table entry names a record in HBM whose FUNC is f (R181). The two reads leave
the state `s'`. -/
def Sys2Proof.Claims.CompatNames (f id : Nat) (s s' : State) : Prop :=
  ∃ e h s1, hbmRead (getPair pgFe 0 0x118 s + 8 * id) 8 s = (some e, s1) ∧ leNat e ≠ 0 ∧
    hbmRead (leNat e) 4 s1 = (some h, s') ∧ fld (w32 (leNat h)) 20 6 = f

/-- R181, R183: a doorbell stores its WPTR and starts an IDLE queue with commands; one for another function's slot, for a slot
that is not ACTIVE, for a DISABLED queue or with a WPTR too far ahead is discarded and counted, and so are a native one in
compatibility mode and a compatibility one in native mode; a compatibility doorbell rings its resident context with the record's
WPTR, and is held while no context can leave its slot. (The model's own reading where the spec leaves one: log 41.) -/
def Obligations.DoorbellsStoreTheWritePointer : Prop :=
  (∀ (r : Requester) (f k : Fin 64) (q : Fin 16) (wptr : Word) (s : State), HeardFn r f.val s = true →
    (compat s = false → Rings f.val k.val q.val wptr s →
      ∃ t, exec (.doorbell r f k q wptr) s = .next t ∧ queueOf k.val q.val t = rung k.val q.val wptr s ∧
        slotOf k.val t = { slotOf k.val s with lastUse := s.fe.us } ∧ OtherQueues k.val q.val s t) ∧
    (compat s = true ∨ ¬ Rings f.val k.val q.val wptr s →
      ∃ t, exec (.doorbell r f k q wptr) s = .next t ∧
        (getReg pgFe 0 0x120 t).toNat = min (2 ^ 32 - 1) ((getReg pgFe 0 0x120 s).toNat + 1) ∧
        OtherRegs (fun n => n = rk pgFe 0 0x120) s t ∧ RegsOnly s t)) ∧
  (∀ (r : Requester) (f : Fin 64) (v : Word) (s : State), HeardFn r f.val s = true → compat s = false →
    ∃ t, exec (.compatDoorbell r f v) s = .next t ∧
      (getReg pgFe 0 0x120 t).toNat = min (2 ^ 32 - 1) ((getReg pgFe 0 0x120 s).toNat + 1) ∧
      OtherRegs (fun n => n = rk pgFe 0 0x120) s t ∧ RegsOnly s t) ∧
  (∀ (r : Requester) (f : Fin 64) (v : Word) (k : Nat) (bs : List Byte) (s s1 s2 : State), HeardFn r f.val s = true →
    compat s = true → CompatNames f.val (fld v 0 12) s s1 → residentSlot (fld v 0 12) s = some k →
    vaRead rqFe k (qrecVa k (fld v 12 4) s + 0x20) 4 .rd s1 = (.ok bs, s2) → Rings f.val k (fld v 12 4) (w32 (leNat bs)) s →
    ∃ t, exec (.compatDoorbell r f v) s = .next t ∧ queueOf k (fld v 12 4) t = rung k (fld v 12 4) (w32 (leNat bs)) s ∧
      OtherQueues k (fld v 12 4) s t ∧ t.fe.heldDb = s.fe.heldDb) ∧
  (∀ (r : Requester) (f : Fin 64) (v : Word) (s s1 : State), HeardFn r f.val s = true → compat s = true →
    CompatNames f.val (fld v 0 12) s s1 → residentSlot (fld v 0 12) s = none → (∀ k, k < 64 → (slotOf k s).state ≠ 0) →
    victim s = none →
    ∃ t, exec (.compatDoorbell r f v) s = .next t ∧ t.fe = { s.fe with heldDb := s.fe.heldDb ++ [(f.val, fld v 0 12, fld v 12 4)] } ∧
      t.regs = s.regs ∧ SameBytes s t) ∧
  (∀ (f id q k : Nat) (rest : List (Nat × Nat × Nat)) (bs : List Byte) (s s1 s2 : State), s.fe.heldDb = (f, id, q) :: rest →
    CompatNames f id { s with fe := { s.fe with heldDb := rest } } s1 → residentSlot id s = some k → q < 16 →
    vaRead rqFe k (qrecVa k q s + 0x20) 4 .rd s1 = (.ok bs, s2) → Rings f k q (w32 (leNat bs)) s →
    ∃ t, exec .compatDoorbellRetry s = .next t ∧ t.fe.heldDb = rest ∧ queueOf k q t = rung k q (w32 (leNat bs)) s ∧
      OtherQueues k q s t)

/-- R453: the word at offset 4 × (16 × s + q) of a function's DB page is the native doorbell of slot s, queue q. A write carries
the new WPTR: in native mode R183 decides whether it is stored, also in a HALTED queue, which stays HALTED, or discarded and
counted. A read returns 0. -/
def Obligations.DbPageWordsAreTheNativeDoorbells : Prop :=
  ∀ (r : Requester) (f k : Fin 64) (q : Fin 16) (off wptr : Word) (s : State), HeardFn r f.val s = true →
    off.toNat = (if r = .vf f then 0 else 0x1000000 + f.val * 0x10000) + 0x8000 + 4 * (16 * k.val + q.val) →
    exec (.registerWrite r off 4 wptr) s = exec (.doorbell r f k q wptr) s ∧
    (compat s = false → Rings f.val k.val q.val wptr s →
      ∃ t, exec (.registerWrite r off 4 wptr) s = .next t ∧ (queueOf k.val q.val t).wptr = wptr.toNat ∧
        ((queueOf k.val q.val s).state = 3 → (queueOf k.val q.val t).state = 3) ∧ OtherQueues k.val q.val s t) ∧
    (compat s = false → ¬ Rings f.val k.val q.val wptr s →
      ∃ t, exec (.registerWrite r off 4 wptr) s = .next t ∧
        (getReg pgFe 0 0x120 t).toNat = min (2 ^ 32 - 1) ((getReg pgFe 0 0x120 s).toNat + 1) ∧
        OtherRegs (fun n => n = rk pgFe 0 0x120) s t ∧ RegsOnly s t) ∧
    ∃ t, exec (.rcRead r ⟨off, 4⟩) s = .next t ∧ t.out = .regData r off 0 :: s.out ∧ t.regs = s.regs ∧ t.fe = s.fe ∧ SameBytes s t

/-! ## Command streams (R182 to R198, R468) -/

/-- The outcome of a command that ends at the fetch position and leaves `u` first. -/
abbrev Sys2Proof.Claims.Ended (f : Fetcher) (c : List Word) (u : State) : Out := .next (tidyMem (finish (ownerOf f) c u))

/-- A queue's command at the ring itself is behind its RPTR, with the jobs as they were. -/
def Sys2Proof.Claims.RingPassed (k q : Nat) (s t : State) : Prop :=
  (queueOf k q t).rptr = ((queueOf k q s).rptr + 1) % 2 ^ 32 ∧ OtherQueues k q s t

/-- R184, R190, R192 to R196: NOP ends without effect; a reserved opcode, a RETURN outside a called buffer and a CALL that is
nested too deep fault with their reasons; RETURN ends a repetition or the buffer; CALL enters its buffer; COND that holds skips
commands; WRITE stores its value. (The model's own reading where the spec leaves one: log 42, 44.) -/
def Obligations.CommandsThatAreNoJobs : Prop :=
  (∀ (f : Fetcher) (c : List Word) (level : Nat) (s s1 : State), Takes f c level s s1 → opOf c = 0 →
    exec (.nop f) s = Ended f c s1) ∧
  (∀ (k : Fin 64) (q : Fin 16) (c : List Word) (s s1 : State), Takes (.queue k q) c 0 s s1 → opOf c = 0 → isHrel c = false →
    ∃ t, exec (.nop (.queue k q)) s = .next t ∧ RingPassed k.val q.val s t) ∧
  (∀ (f : Fetcher) (c : List Word) (level : Nat) (s s1 : State), Served f c level s s1 → (streamOf (ownerOf f) s1).condSkip = 0 →
    (streamOf (ownerOf f) s1).batchSkip = none → opMasks (opOf c) = none →
    exec (.reservedCommandOpcode f) s =
      Ended f c (cmdFail (ownerOf f) c 1 0x0001 (opOf c + level * 2 ^ 8) 0 (issueNext (ownerOf f) s1))) ∧
  (∀ (f : Fetcher) (c : List Word) (level : Nat) (s s1 : State), Takes f c level s s1 → opOf c = 0x16 →
    (level = 0 → exec (.ret f) s = Ended f c (cmdFail (ownerOf f) c 1 0x0001 0x16 0 s1)) ∧
    (∀ x rest, (streamOf (ownerOf f) s1).frames = x :: rest → 0 < x.left →
      ∃ t, exec (.ret f) s = .next t ∧
        streamOf (ownerOf f) t = { streamOf (ownerOf f) s1 with
          frames := { x with pos := 0, left := x.left - 1 } :: rest, condSkip := 0,
          batchSkip := (streamOf (ownerOf f) t).batchSkip, batchNo := (streamOf (ownerOf f) t).batchNo }) ∧
    (∀ x, (streamOf (ownerOf f) s1).frames = [x] → x.left = 0 → isHrel x.cmd = false →
      ∃ t, exec (.ret f) s = .next t ∧ (streamOf (ownerOf f) t).frames = [] ∧ (streamOf (ownerOf f) t).condSkip = 0)) ∧
  (∀ (f : Fetcher) (c : List Word) (level : Nat) (s s1 : State), Takes f c level s s1 → opOf c = 0x15 →
    (4 ≤ level → exec (.call f) s = Ended f c (cmdFail (ownerOf f) c 1 0x0002 0 0 s1)) ∧
    (∀ va s2, level < 4 → argsOf c % 2 = 0 →
      nameRange (ownerOf f) (ownRef (ownerOf f) s1) (cw c 1) (cw c 2).toNat (32 * (cw c 3).toNat) s1 = (.ok va, s2) →
      ((cw c 4).toNat = 0 → exec (.call f) s = Ended f c s2) ∧
      ((cw c 4).toNat ≠ 0 →
        ∃ t, exec (.call f) s = .next t ∧
          streamOf (ownerOf f) t = { streamOf (ownerOf f) (bump (ownerOf f) s2) with
            frames := { base := va, count := (cw c 3).toNat, pos := 0, left := (cw c 4).toNat - 1, cmd := c } ::
              (streamOf (ownerOf f) (bump (ownerOf f) s2)).frames, condSkip := 0 })) ∧
    (∀ va rva s2 s3 s4 b, level < 4 → argsOf c % 2 = 1 →
      nameRange (ownerOf f) (ownRef (ownerOf f) s1) (cw c 1) (cw c 2).toNat (32 * (cw c 3).toNat) s1 = (.ok va, s2) →
      nameRange (ownerOf f) (ownRef (ownerOf f) s2) (cw c 5) (cw c 6).toNat 4 s2 = (.ok rva, s3) →
      vaReadAll (ownRq (ownerOf f)) (ownSlot (ownerOf f) s3) rva 4 .rd s3 = (.ok b, s4) →
      (leNat b = 0 → exec (.call f) s = Ended f c s4) ∧
      (leNat b ≠ 0 →
        ∃ t, exec (.call f) s = .next t ∧
          streamOf (ownerOf f) t = { streamOf (ownerOf f) (bump (ownerOf f) s4) with
            frames := { base := va, count := (cw c 3).toNat, pos := 0, left := leNat b - 1, cmd := c } ::
              (streamOf (ownerOf f) (bump (ownerOf f) s4)).frames, condSkip := 0 }))) ∧
  (∀ (f : Fetcher) (c : List Word) (level va n : Nat) (s s1 s2 s3 : State) (b : List Byte), Takes f c level s s1 →
    opOf c = 0x14 → n = (if argsOf c / 16 % 2 = 1 then 8 else 4) →
    nameRange (ownerOf f) (ownRef (ownerOf f) s1) (cw c 1) (cw c 2).toNat n s1 = (.ok va, s2) →
    vaReadAll (ownRq (ownerOf f)) (ownSlot (ownerOf f) s2) va n .rd s2 = (.ok b, s3) →
    (condTrue (argsOf c % 16) n (leNat b &&& (cw64 c 5 % 2 ^ (8 * n))) (cw64 c 3 % 2 ^ (8 * n)) = false →
      exec (.cond f) s = Ended f c s3) ∧
    (condTrue (argsOf c % 16) n (leNat b &&& (cw64 c 5 % 2 ^ (8 * n))) (cw64 c 3 % 2 ^ (8 * n)) = true →
      argsOf c / 32 % 2 = 0 → level = 0 → isHrel c = false →
      ∃ t, exec (.cond f) s = .next t ∧ (streamOf (ownerOf f) t).condSkip = fld (cw c 7) 0 16) ∧
    (condTrue (argsOf c % 16) n (leNat b &&& (cw64 c 5 % 2 ^ (8 * n))) (cw64 c 3 % 2 ^ (8 * n)) = true →
      argsOf c / 32 % 2 = 1 → level = 0 → exec (.cond f) s = Ended f c (cmdFail (ownerOf f) c 1 0x0001 0x14 0 s3))) ∧
  (∀ (f : Fetcher) (c : List Word) (level va n : Nat) (s s1 s2 : State), Takes f c level s s1 → opOf c = 0x13 →
    n = (if argsOf c % 2 = 1 then 8 else 4) →
    nameRange (ownerOf f) (ownRef (ownerOf f) s1) (cw c 1) (cw c 2).toNat n s1 = (.ok va, s2) →
    ∀ s3, vaWrite (ownRq (ownerOf f)) (ownSlot (ownerOf f) s2) va (toLE n (cw64 c 3)) s2 = (.ok (), s3) →
      exec (.writeCmd f) s = Ended f c s3)

/-- A fence command's name has been looked at: it is of this node, its entry can be read, and the look leaves `s2` (R198, R200). -/
abbrev Sys2Proof.Claims.Looked (f : Fetcher) (c : List Word) (s1 s2 : State) : Prop :=
  fenceNode (cw c 1) s1 = none ∧ cmdFence (ownerOf f) c s1 = (none, s2)

/-- The stream's status for its next SIGNAL forgotten (R195). -/
abbrev Sys2Proof.Claims.sigSpent (f : Fetcher) (u : State) : State := setStream (ownerOf f) { streamOf (ownerOf f) u with sig := 0 } u

/-- Nothing disturbs the words that the fence unit writes: no injection is armed and no region invalidation waits. -/
abbrev Sys2Proof.Claims.FenceQuiet (s : State) : Prop := NoInjection s ∧ bit (getReg pgFnc 0 0x028 s) 16 = false ∧ s.hbc.pendInv = []

/-- R194 to R198, R200, R437: SIGNAL signals its fence with the stream's status and forgets it; WAIT ends at once on a signalled
fence and is registered on another one; FENCE_RESET makes a signalled fence unsignalled; a fence that fails its check is BAD_HANDLE,
one whose entry cannot be read fails with its reason; for another node's fence the operation goes to that node, or ends as R428 says.
(The model's own reading where the spec leaves one: log 36, 42, 43.) -/
def Obligations.FenceCommandsActOnTheirFence : Prop :=
  (∀ (f : Fetcher) (c : List Word) (level : Nat) (s s1 s2 : State), Takes f c level s s1 → Looked f c s1 s2 →
    fenceNamed (ownerOf f) c s2 = none →
    (opOf c = 0x10 → exec (.signal f) s = Ended f c
      (cmdFail (ownerOf f) c 1 0x0003 (fld (cw c 1) 0 20 + fld (cw c 2) 0 16 * 2 ^ 32) 0 (sigSpent f s2))) ∧
    (opOf c = 0x11 → exec (.waitFence f) s = Ended f c
      (cmdFail (ownerOf f) c 1 0x0003 (fld (cw c 1) 0 20 + fld (cw c 2) 0 16 * 2 ^ 32) 0 s2)) ∧
    (opOf c = 0x12 → exec (.fenceReset f) s = Ended f c
      (cmdFail (ownerOf f) c 1 0x0003 (fld (cw c 1) 0 20 + fld (cw c 2) 0 16 * 2 ^ 32) 0 s2))) ∧
  (∀ (f : Fetcher) (c : List Word) (level : Nat) (rd : Nat × Nat) (s s1 s2 : State), Takes f c level s s1 →
    fenceNode (cw c 1) s1 = none → cmdFence (ownerOf f) c s1 = (some rd, s2) →
    (opOf c = 0x10 → exec (.signal f) s = Ended f c (cmdFail (ownerOf f) c 1 rd.1 rd.2 0 (sigSpent f s2))) ∧
    (opOf c = 0x11 → exec (.waitFence f) s = Ended f c (cmdFail (ownerOf f) c 1 rd.1 rd.2 0 s2)) ∧
    (opOf c = 0x12 → exec (.fenceReset f) s = Ended f c (cmdFail (ownerOf f) c 1 rd.1 rd.2 0 s2))) ∧
  (∀ (f : Fetcher) (c : List Word) (level i st : Nat) (e : FenceEnt) (s s1 s2 : State), Takes f c level s s1 → opOf c = 0x10 →
    Looked f c s1 s2 → fenceNamed (ownerOf f) c s2 = some i → e = fenceGet i s2 → st = (streamOf (ownerOf f) s2).sig →
    (e.signalled = true → exec (.signal f) s = Ended f c (sigSpent f s2)) ∧
    (e.signalled = false → st < 256 → FenceQuiet s2 → (∀ w ∈ s2.fnc.waits, w.index ≠ i) →
      ∃ u, exec (.signal f) s = Ended f c (sigSpent f u) ∧
        fenceGet i u = { e with signalled := true, status := st, sigCount := (e.sigCount + 1) % 2 ^ 32 } ∧
        HbmKept (fenceAddr i s2) 16 s2 u ∧ u.fe = s2.fe ∧ u.lvn = s2.lvn ∧ u.fnc = { s2.fnc with recErr := u.fnc.recErr })) ∧
  (∀ (f : Fetcher) (c : List Word) (level i : Nat) (s s1 s2 u : State), Takes f c level s s1 → opOf c = 0x11 →
    Looked f c s1 s2 → fenceNamed (ownerOf f) c s2 = some i → u = restartTimer (ownerOf f) s2 →
    ((fenceGet i s2).signalled = true → (fenceGet i s2).status = 0 ∨ bit (cw c 2) 16 = false →
      exec (.waitFence f) s = Ended f c u) ∧
    ((fenceGet i s2).signalled = true → (fenceGet i s2).status ≠ 0 → bit (cw c 2) 16 = true →
      exec (.waitFence f) s = Ended f c (setStream (ownerOf f)
        { streamOf (ownerOf f) u with batchSkip := some (fenceGet i s2).status } u)) ∧
    ((fenceGet i s2).signalled = false →
      ∃ t w, exec (.waitFence f) s = .next t ∧ (streamOf (ownerOf f) t).wait = some w ∧ w.index = i ∧
        w.policy = bit (cw c 2) 16 ∧ w.cmd = c ∧ w.remote = false ∧
        t.fnc.waits = s2.fnc.waits ++ [⟨i, fld (cw c 2) 0 16, waiterOf (ownerOf f), none, false⟩] ∧
        (slotOf (ownSlot (ownerOf f) s2) t).refcnt = (slotOf (ownSlot (ownerOf f) s2) s2).refcnt + 1)) ∧
  (∀ (f : Fetcher) (c : List Word) (level i : Nat) (e : FenceEnt) (s s1 s2 : State), Takes f c level s s1 → opOf c = 0x12 →
    Looked f c s1 s2 → fenceNamed (ownerOf f) c s2 = some i → e = fenceGet i s2 →
    (e.signalled = false → exec (.fenceReset f) s = Ended f c s2) ∧
    (e.signalled = true → FenceQuiet s2 → ∃ u, exec (.fenceReset f) s = Ended f c u ∧
      fenceGet i u = { e with signalled := false, status := 0 } ∧ HbmKept (fenceAddr i s2) 16 s2 u ∧ u.fe = s2.fe ∧
      u.fnc = { s2.fnc with recErr := u.fnc.recErr })) ∧
  (∀ (f : Fetcher) (c : List Word) (level m k : Nat) (o : Owner) (s s1 : State), o = ownerOf f → Takes f c level s s1 →
    fenceNode (cw c 1) s1 = some m → k = ownSlot o s1 → linkStopped k s1 = false →
    (opOf c = 0x10 → reachable m s1 = true → exec (.signal f) s = Ended f c (sigSpent f
      (fenceOp (linkWho o) k 0 (cw c 1) (cw c 2) (streamOf o s1).sig c (failNo o s1) ((streamOf o s1).started % 2 ^ 32) s1))) ∧
    (opOf c = 0x10 → reachable m s1 = false → ∃ d u, u = { sigSpent f s1 with free := (sigSpent f s1).free + 1 } ∧
      exec (.signal f) s = Ended f c (cmdFail o c 1 0x0200 d 0 u)) ∧
    (opOf c = 0x12 → reachable m s1 = true → exec (.fenceReset f) s = Ended f c
      (fenceOp (linkWho o) k 1 (cw c 1) (cw c 2) 0 c (failNo o s1) ((streamOf o s1).started % 2 ^ 32) s1)) ∧
    (opOf c = 0x12 → reachable m s1 = false → exec (.fenceReset f) s = Ended f c s1) ∧
    (opOf c = 0x11 → reachable m s1 = true →
      ∃ t w, exec (.waitFence f) s = .next t ∧ (streamOf o t).wait = some w ∧ w.index = fenceIdx (cw c 1) ∧ w.remote = true ∧
        w.node = fld (cw c 1) 20 4 ∧ w.cmd = c ∧ (slotOf k t).refcnt = (slotOf k s1).refcnt + 1) ∧
    (opOf c = 0x11 → reachable m s1 = false →
      exec (.waitFence f) s = Ended f c (waitSkip o c 1 (restartTimer o s1))))

/-- A job of the queue has started, with the ring's next command behind it: its number is the next one, and its slot has a
reference more (R180, R182, R186). -/
def Sys2Proof.Claims.JobBegun (k q : Nat) (c : List Word) (s t : State) : Prop :=
  t.fe.nextJob = s.fe.nextJob + 1 ∧
  (∃ b, tabFind s.fe.nextJob t.fe.jobs = some b ∧ b.owner = .queue k q ∧ b.cmd = c ∧
    b.startSeq = (queueOf k q s).str.started % 2 ^ 32 ∧ b.startUs = s.fe.us) ∧
  (∀ j, j ≠ s.fe.nextJob → tabFind j t.fe.jobs = tabFind j s.fe.jobs) ∧
  (queueOf k q t).rptr = ((queueOf k q s).rptr + 1) % 2 ^ 32 ∧ (queueOf k q t).str.started = (queueOf k q s).str.started + 1 ∧
  (∀ m n, n < 16 → ¬ (m = k ∧ n = q) → queueOf m n t = queueOf m n s) ∧
  (slotOf k t).refcnt = (slotOf k s).refcnt + 1

/-- The new job works on: nothing has ended it. -/
def Sys2Proof.Claims.QueueJobRuns (k q : Nat) (c : List Word) (s t : State) : Prop :=
  JobBegun k q c s t ∧ ∀ b, tabFind s.fe.nextJob t.fe.jobs = some b → b.fin = none

/-- A check has ended the new job, or there is nothing for it to do. -/
def Sys2Proof.Claims.JobEnds (k q : Nat) (c : List Word) (f : JobEnd) (s t : State) : Prop :=
  JobBegun k q c s t ∧ ∀ b, tabFind s.fe.nextJob t.fe.jobs = some b → b.fin = some f

/-- The queue takes this command of its ring, and there is room for its record. -/
def Sys2Proof.Claims.StartsJob (k : Fin 64) (q : Fin 16) (c : List Word) (s s1 s2 : State) : Prop :=
  Takes (.queue k q) c 0 s s1 ∧ (queueOf k.val q.val s1).full = false ∧ ringRoom k.val q.val s1 = (some true, s2)

/-- The job is in the state `u`, and its first action is the read of its descriptor, the words `d` at `va`, which leaves `s3`
(R202, R469). -/
def Sys2Proof.Claims.ReadsDesc (k : Fin 64) (q : Fin 16) (rq size align : Nat) (c : List Word) (va : Nat) (d : List Word) (s s1 s3 : State) : Prop :=
  ∃ s2 u bs s', StartsJob k q c s s1 s2 ∧
    u = (newJob (.queue k.val q.val) c (setQueue k.val q.val { queueOf k.val q.val s2 with held := false } s2)).2 ∧
    nameRange (.queue k.val q.val) (jobRef s.fe.nextJob u) (cw c 1) (cw c 2).toNat size u = (.ok va, s') ∧ va % align = 0 ∧
    vaReadAll rq k.val va size .rd s' = (.ok bs, s3) ∧ d = rowWords 4 (size / 4) bs

/-- The transfer `x` of the new job has a channel of engine `n`, or waits behind the others (R470). -/
def Sys2Proof.Claims.TransferTaken (n k : Nat) (x : Xfer) (s t : State) : Prop :=
  (s.dma.waiting.any (fun w => w.1 == n) = true ∨ freeChan n s = none →
    t.dma.waiting = s.dma.waiting ++ [(n, s.fe.nextJob, k, x)] ∧ t.dma.chans = s.dma.chans) ∧
  (∀ m, s.dma.waiting.any (fun w => w.1 == n) = false → freeChan n s = some m →
    t.dma.waiting = s.dma.waiting ∧
    ∃ y, chanOf (n * 16 + m) t = some y ∧ y.job = s.fe.nextJob ∧ y.slot = k ∧ y.xfer = x)

/-- The CLUSTER_MASK of a queue as R184 reads it. -/
abbrev Sys2Proof.Claims.maskOf (k q : Nat) (s : State) : Nat := if (queueOf k q s).cmask = 0 then 0xFFFF else (queueOf k q s).cmask

/-- R105, R185, R186, R190 to R192, R202, R219, R469, R470: LAUNCH with room for its record starts its job: with a descriptor and
objects that pass their checks its kernel is there, with no blocks it ends OK, and a bad descriptor is BAD_DESC. The DMA jobs take a
channel or wait for one; a transfer of no bytes ends OK. Without room the queue waits. (The model's own reading where the spec leaves
one: log 38, 42, 43, 91.) -/
def Obligations.JobCommandsStartTheirJobs : Prop :=
  (∀ (k : Fin 64) (q : Fin 16) (c : List Word) (i : Instr) (s s1 s2 : State), Takes (.queue k q) c 0 s s1 →
    (queueOf k.val q.val s1).full = false → ringRoom k.val q.val s1 = (some false, s2) →
    (opOf c = 1 ∧ i = .launch (.queue k q)) ∨ (opOf c = 5 ∧ i = .dmaCopy (.queue k q)) ∨
      (opOf c = 6 ∧ i = .dmaFill (.queue k q)) ∨ (opOf c = 7 ∧ i = .dmaGather (.queue k q)) →
    ∃ t, exec i s = .next t ∧ queueOf k.val q.val t = { queueOf k.val q.val s with full := true } ∧
      OtherQueues k.val q.val s t) ∧
  (∀ (k : Fin 64) (q : Fin 16) (c : List Word) (va code param : Nat) (d : List Word) (x : Kernel) (s s1 s3 s4 s5 : State),
    opOf c = 1 → ReadsDesc k q rqFe 64 64 c va d s s1 s3 →
    (launchBad d = true →
      ∃ t, exec (.launch (.queue k q)) s = .next t ∧ JobEnds k.val q.val c ⟨1, 0x0017, va⟩ s t) ∧
    (launchBad d = false →
      checkRange (jobRefOf (.queue k.val q.val) s.fe.nextJob s3) (nth 0 d 0) (dWord d 1) (dWord d 2) s3 = (.ok code, s4) →
      (dWord d 8 = 0 ∧ param = 0 ∧ s5 = s4) ∨ (dWord d 8 ≠ 0 ∧
        checkRange (jobRefOf (.queue k.val q.val) s.fe.nextJob s4) (nth 0 d 8) (dWord d 9) 0 s4 = (.ok param, s5)) →
      x = launchKernel d k.val code param (maskOf k.val q.val s) → x.codeBytes ≤ getFld pgCap 0 0x108 8 8 s5 * 1024 →
      (kernelBlocks x = 0 →
        ∃ t, exec (.launch (.queue k q)) s = .next t ∧ JobEnds k.val q.val c ⟨0, 0, 0⟩ s t) ∧
      (kernelBlocks x ≠ 0 → x.coop = false ∨ kernelBlocks x ≤ coopRoom x s5 →
        ∃ t, exec (.launch (.queue k q)) s = .next t ∧ QueueJobRuns k.val q.val c s t ∧ kernelOf s.fe.nextJob t = some x) ∧
      (kernelBlocks x ≠ 0 → x.coop = true → coopRoom x s5 < kernelBlocks x →
        ∃ t d', exec (.launch (.queue k q)) s = .next t ∧ JobEnds k.val q.val c ⟨1, 0x000C, d'⟩ s t))) ∧
  (∀ (k : Fin 64) (q : Fin 16) (c : List Word) (n src dst len so d : Nat) (s s1 s2 u s3 s4 : State), StartsJob k q c s s1 s2 →
    opOf c = 5 → n = (queueOf k.val q.val s).engine - 5 →
    len = (cw c 6).toNat + fld (cw c 7) 0 8 * 2 ^ 32 → so = (cw c 3).toNat + fld (cw c 5) 0 8 * 2 ^ 32 →
    d = (cw c 4).toNat + fld (cw c 5) 8 8 * 2 ^ 32 →
    u = (newJob (.queue k.val q.val) c (setQueue k.val q.val { queueOf k.val q.val s2 with held := false } s2)).2 →
    nameRange (.queue k.val q.val) (jobRef s.fe.nextJob u) (cw c 1) so len u = (.ok src, s3) →
    nameRange (.queue k.val q.val) (jobRef s.fe.nextJob s3) (cw c 2) d len s3 = (.ok dst, s4) →
    (len = 0 → ∃ t, exec (.dmaCopy (.queue k q)) s = .next t ∧ JobEnds k.val q.val c ⟨0, 0, 0⟩ s t) ∧
    (len ≠ 0 → ∃ t, exec (.dmaCopy (.queue k q)) s = .next t ∧ QueueJobRuns k.val q.val c s t ∧
      TransferTaken n k.val (.copy src dst len) s t)) ∧
  (∀ (k : Fin 64) (q : Fin 16) (c : List Word) (n dst : Nat) (s s1 s2 u s3 : State), StartsJob k q c s s1 s2 →
    opOf c = 6 → n = (queueOf k.val q.val s).engine - 5 →
    u = (newJob (.queue k.val q.val) c (setQueue k.val q.val { queueOf k.val q.val s2 with held := false } s2)).2 →
    nameRange (.queue k.val q.val) (jobRef s.fe.nextJob u) (cw c 1) ((cw c 2).toNat + fld (cw c 3) 0 8 * 2 ^ 32) (cw64 c 6) u =
      (.ok dst, s3) →
    (cw64 c 6 = 0 → ∃ t, exec (.dmaFill (.queue k q)) s = .next t ∧ JobEnds k.val q.val c ⟨0, 0, 0⟩ s t) ∧
    (cw64 c 6 ≠ 0 → ∃ t, exec (.dmaFill (.queue k q)) s = .next t ∧ QueueJobRuns k.val q.val c s t ∧
      TransferTaken n k.val (.fill dst (cw64 c 6) (cw c 4)) s t)) ∧
  (∀ (k : Fin 64) (q : Fin 16) (c : List Word) (n va : Nat) (s s1 s2 u s3 : State), StartsJob k q c s s1 s2 →
    opOf c = 7 → n = (queueOf k.val q.val s).engine - 5 →
    u = (newJob (.queue k.val q.val) c (setQueue k.val q.val { queueOf k.val q.val s2 with held := false } s2)).2 →
    nameRange (.queue k.val q.val) (jobRef s.fe.nextJob u) (cw c 1) (cw c 2).toNat 64 u = (.ok va, s3) →
    (va % 64 ≠ 0 → ∃ t, exec (.dmaGather (.queue k q)) s = .next t ∧ JobEnds k.val q.val c ⟨1, 0x0017, va⟩ s t) ∧
    (va % 64 = 0 → ∃ t, exec (.dmaGather (.queue k q)) s = .next t ∧ QueueJobRuns k.val q.val c s t ∧
      TransferTaken n k.val (.gather va) s t))

/-- The job of a CZ descriptor at `va` before its ranges are known: the flags of Table 11-1 (R284). -/
abbrev Sys2Proof.Claims.czFresh (k va : Nat) (d : List Word) : CzJob :=
  { slot := k, dva := va, dec := dWord d 0 % 2 = 1, first := dWord d 0 / 2 % 2 = 1, last := dWord d 0 / 4 % 2 = 1,
    dyn := dWord d 0 / 8 % 2 = 1, iva := 0, n := 0, ova := 0, cap := 0, sva := 0, hva := 0, hn := 0, pos := 0, comp := 0,
    crc := 0xFFFFFFFF#32, hdr := [] }

/-- The header that a descriptor gives (Table 11-1). -/
abbrev Sys2Proof.Claims.czTemplate (d : List Word) : List Byte := ((List.range 8).map (fun i => toLE 4 (dWord d (16 + i)))).flatten

/-- IN_LEN fits the stream: whole blocks before the last job of a compressed stream, whole elements in it, and the whole image where
one job holds it (R285). -/
abbrev Sys2Proof.Claims.CzLenOk (x : CzJob) (n : Nat) : Prop :=
  x.dec = false → (x.last = false → n % czBlock = 0) ∧ (x.last = true → n % czEsz (czHdrOf x.hdr) = 0) ∧
    ((czHdrOf x.hdr).tensor = false → x.first = true → x.last = true → n = czImage (czHdrOf x.hdr))

/-- The checks of a CZ descriptor pass, from its own words to its ranges, and `x` is the job that they give (R285, R295, R296). -/
def Sys2Proof.Claims.CzAccepted (k : Fin 64) (q : Fin 16) (z va : Nat) (d : List Word) (j : Nat) (x : CzJob) (s3 s' : State) : Prop :=
  ∃ x0 x1 r sva s4 s5 iva s6 ova s7, x0 = czFresh k.val va d ∧ r = jobRefOf (.queue k.val q.val) j s3 ∧ czReserved d = false ∧
    dWord d 9 % 4096 = 0 ∧
    (x0.dec = false → x0.first = true → czHdrOk (czTemplate d) = true) ∧
    (x0.first = true ∧ x0.last = true ∧ sva = 0 ∧ s4 = s3 ∨
      ¬ (x0.first = true ∧ x0.last = true) ∧ checkRange r (nth 0 d 8) (dWord d 9) 4096 s3 = (.ok sva, s4)) ∧
    (x0.first = true ∧ s5 = s4 ∧ x1 = { x0 with sva := sva, hdr := if x0.dec then [] else czTemplate d } ∨
      x0.first = false ∧ dWord d 8 ≠ 0 ∧ dWord d 10 ≠ 0 ∧ ∃ bs hd pos comp crc,
        vaReadAll (rqCz z) k.val sva 4096 .rd s4 = (.ok bs, s5) ∧ czState bs x0.dec = some (hd, pos, comp, crc) ∧
        x1 = { x0 with sva := sva, hdr := hd, pos := pos, comp := comp, crc := crc }) ∧
    CzLenOk x1 (dWord d 3) ∧ checkRange r (nth 0 d 1) (dWord d 2) (dWord d 3) s5 = (.ok iva, s6) ∧
    checkRange r (nth 0 d 4) (dWord d 5) (dWord d 6) s6 = (.ok ova, s7) ∧
    (x0.first = true ∧ s' = s7 ∧ x = { x1 with iva := iva, n := dWord d 3, ova := ova, cap := dWord d 6 } ∨
      x0.first = false ∧ ∃ hva, checkRange r (nth 0 d 10) (dWord d 11) (czSpan (czHdrOf x1.hdr) x1.pos) s7 = (.ok hva, s') ∧
        x = { x1 with iva := iva, n := dWord d 3, ova := ova, cap := dWord d 6, hva := hva,
                      hn := min x1.pos (czSpan (czHdrOf x1.hdr) x1.pos) })

/-- R185, R186, R234, R239, R266, R284, R285, R295 to R297, R469: RENDER takes the pool and the tiler has its pass, unless the
descriptor is bad or the pool is busy; it waits while another pass is served. COMPOSE loads the shadow copy and arms the commit, and is
held while one is armed; a channel that is not its slot's is CH_OWNER. CZ_JOB takes its context once the checks of its descriptor pass,
and is held while none is free. (The model's own reading where the spec leaves one: log 42, 43, 49, 57, 91.) -/
def Obligations.GraphicsJobsStartTheirWork : Prop :=
  (∀ (k : Fin 64) (q : Fin 16) (c : List Word) (va b : Nat) (d : List Word) (x : Pass) (s s1 s3 s4 s5 s6 : State), opOf c = 2 →
    x = { slot := k.val, desc := d, mask := maskOf k.val q.val s } → tilerFree k.val s1 = true →
    ReadsDesc k q rqTiler 512 256 c va d s s1 s3 →
    (passBad x = true →
      ∃ t, exec (.render (.queue k q)) s = .next t ∧ JobEnds k.val q.val c ⟨1, 0x0017, va⟩ s t) ∧
    (passBad x = false → tNat s.fe.nextJob (pVa x 4 + 0x24) 4 s3 = (some b, s4) → b % 2 = 1 →
      ∃ t, exec (.render (.queue k q)) s = .next t ∧ JobEnds k.val q.val c ⟨1, rPoolBusy, pVa x 4⟩ s t) ∧
    (passBad x = false → tNat s.fe.nextJob (pVa x 4 + 0x24) 4 s3 = (some b, s4) → b % 2 = 0 →
      tWrite s.fe.nextJob (pVa x 4 + 0x24) (toLE 4 (b + 1)) s4 = (some (), s5) →
      headersClear s.fe.nextJob x (setPass s.fe.nextJob { x with cores := passCores x.mask s5 } s5) = (some (), s6) →
      ∃ t y, exec (.render (.queue k q)) s = .next t ∧ JobBegun k.val q.val c s t ∧ passOf s.fe.nextJob t = some y ∧
        y.slot = k.val ∧ y.desc = d ∧ y.mask = x.mask ∧ y.cores = passCores x.mask s5)) ∧
  (∀ (k : Fin 64) (q : Fin 16) (c : List Word) (s s1 : State), Takes (.queue k q) c 0 s s1 → opOf c = 2 →
    tilerFree k.val s1 = false → exec (.render (.queue k q)) s = .next (tidyMem s)) ∧
  (∀ (k : Fin 64) (q : Fin 16) (c : List Word) (ch : Nat) (s s1 s2 : State), StartsJob k q c s s1 s2 → opOf c = 3 →
    ch = argsOf c % 16 →
    (chEnabled ch s1 = true → chSlot ch s1 = k.val → chArmed ch s1 = true →
      ∃ t, exec (.compose (.queue k q)) s = .next t ∧ OtherQueues k.val q.val s t ∧
        queueOf k.val q.val t = { queueOf k.val q.val s with held := true }) ∧
    (chEnabled ch s1 = false ∨ chSlot ch s1 ≠ k.val →
      ∃ t, exec (.compose (.queue k q)) s = .next t ∧ JobEnds k.val q.val c ⟨1, rChOwner, ch⟩ s t)) ∧
  (∀ (k : Fin 64) (q : Fin 16) (c : List Word) (ch va : Nat) (d : List Word) (r : JobRef) (s s1 s3 s4 s5 s6 : State), opOf c = 3 →
    ch = argsOf c % 16 → ReadsDesc k q rqCmp 576 64 c va d s s1 s3 → chEnabled ch s1 = true → chSlot ch s1 = k.val →
    chArmed ch s1 = false → r = jobRefOf (.queue k.val q.val) s.fe.nextJob s3 →
    (frameBad ch d s3 = true →
      ∃ t, exec (.compose (.queue k q)) s = .next t ∧ JobEnds k.val q.val c ⟨1, 0x0017, va⟩ s t) ∧
    (frameBad ch d s3 = false →
      handlesBad r ((partOrder.map (fun p => partHandles p (descPart d p) (hActive ch s3) (vActive ch s3))).flatten) s3 =
        (none, s4) →
      fencesBad r (slotOf k.val s4).func ((partOrder.map (fun p => partFences p (descPart d p))).flatten) s4 = (none, s5) →
      acquireAll r k.val [] ((partOrder.map (fun p => partRefs ch p (descPart d p) s5)).flatten) s5 = (.ok (), s6) →
      ∃ t, exec (.compose (.queue k q)) s = .next t ∧ QueueJobRuns k.val q.val c s t ∧ (cchan ch t).armed = some s.fe.nextJob ∧
        chArmed ch t = true ∧ ∀ i, i < 144 → getReg pgCmp ch (0x200 + 4 * i) t = nth 0 d i)) ∧
  (∀ (k : Fin 64) (q : Fin 16) (c : List Word) (z : Nat) (s s1 : State), Takes (.queue k q) c 0 s s1 → opOf c = 4 →
    z = (queueOf k.val q.val s).engine - 3 → czAvail z false s1 = none →
    ∃ t, exec (.czJob (.queue k q)) s = .next t ∧ OtherQueues k.val q.val s t ∧
      queueOf k.val q.val t = { queueOf k.val q.val s with held := true }) ∧
  (∀ (k : Fin 64) (q : Fin 16) (c : List Word) (z va : Nat) (d : List Word) (s s1 s3 : State), opOf c = 4 →
    z = (queueOf k.val q.val s).engine - 3 → (czAvail z false s1).isSome = true → ReadsDesc k q (rqCz z) 256 256 c va d s s1 s3 →
    (czReserved d = true →
      ∃ t, exec (.czJob (.queue k q)) s = .next t ∧ JobEnds k.val q.val c ⟨1, 0x0017, va⟩ s t) ∧
    (∀ x s', CzAccepted k q z va d s.fe.nextJob x s3 s' →
      ∃ t, exec (.czJob (.queue k q)) s = .next t ∧ QueueJobRuns k.val q.val c s t ∧ tabFind s.fe.nextJob t.cz.jobs = some x))

/-- R168, R180, R186, R187, R195, R202, R468: a fetch that fails halts its queue at that command, or fails the step of a batch;
the record of an ended job is written, and the job leaves the machine with its reference of the slot. (The model's own reading
where the spec leaves one: log 42, 43.) -/
def Obligations.FetchFaultsHaltAndEndedJobsRetire : Prop :=
  (∀ (k : Fin 64) (q : Fin 16) (va level : Nat) (e : AccErr) (s s1 : State), fetching (.queue k.val q.val) s = true →
    fetchPos (.queue k.val q.val) s = some (va, level) → vaRead rqFe k.val va 32 .rd s = (.error e, s1) →
    ∃ t, exec (.fetchFault (.queue k q)) s = .next t ∧ (queueOf k.val q.val t).state = 3 ∧
      (queueOf k.val q.val t).rptr = (queueOf k.val q.val s).rptr ∧ (queueOf k.val q.val t).str = (queueOf k.val q.val s).str ∧
      OtherQueues k.val q.val s t ∧ bit (getReg pgFv (slotOf k.val s).func 0x100 t) 1 = true) ∧
  (∀ (n : Fin 4) (x : Batch) (va level : Nat) (e : AccErr) (s s1 : State), fetching (.batch n.val) s = true →
    batchOf n.val s = some x → x.fail = none → fetchPos (.batch n.val) s = some (va, level) →
    vaRead rqLvn x.slot va 32 .rd s = (.error e, s1) →
    ∃ t y, exec (.fetchFault (.batch n)) s = .next t ∧ batchOf n.val t = some y ∧ y.fail = some (x.issue + 1, 1, accReason e) ∧
      y.issue = x.issue + 1 ∧ (x.str.batchSkip = none → y.str.batchSkip = some 3) ∧ t.fe.jobs = s.fe.jobs) ∧
  (∀ (j k q : Nat) (b : Job) (f : JobEnd) (s : State), tabFind j s.fe.jobs = some b → b.owner = .queue k q → q < 16 →
    b.fin = some f → jobHasOps j s = false → tabFind j s.tlr.passes = none → isHrel b.cmd = false →
    (slotOf k s).state ≠ 0 → 1 < (slotOf k s).refcnt →
    ∃ t, exec (.jobComplete j) s = .next t ∧ t.fe.jobs = tabDel j s.fe.jobs ∧ kernelOf j t = none ∧
      (slotOf k t).refcnt = (slotOf k s).refcnt - 1 ∧ (queueOf k q t).timer = 0 ∧
      (queueOf k q t).rptr = (queueOf k q s).rptr ∧
      (queueOf k q t).str.sig = (if (queueOf k q s).str.sig = 0 then fenceStatus f.status else (queueOf k q s).str.sig) ∧
      ((queueOf k q s).state = 2 → (queueOf k q t).state = 3 ∨
        (queueOf k q t).cplProd = ((queueOf k q s).cplProd + 1) % 2 ^ 32) ∧
      (f.status ≠ 0 → f.status ≠ 2 → (queueOf k q s).errPolicy = true → (queueOf k q s).str.batchNo = b.batch →
        (queueOf k q s).str.batchSkip = none → (queueOf k q t).str.batchSkip = some (fenceStatus f.status)) ∧
      (∀ m n, n < 16 → ¬ (m = k ∧ n = q) → queueOf m n t = queueOf m n s))

/-! ## Objects, fences, release rings and the disable of a function (R180, R197 to R206) -/

/-- An object-interface operation that its checks let through: the word written carries its OP, the slot is the function's own
and the function may name the object (R199). -/
def Sys2Proof.Claims.Operates (r : Requester) (f : Nat) (v : Word) (op : Nat) (s : State) : Prop :=
  HeardFn r f s = true ∧ fld v 0 3 = op ∧ objKind f s ≠ 3 ∧ objDenied f s = false

/-- The same for a fence that is VALID with the generation that the word names. -/
def Sys2Proof.Claims.OperatesOnFence (r : Requester) (f : Nat) (v : Word) (op i : Nat) (e : FenceEnt) (s : State) : Prop :=
  Operates r f v op s ∧ objKind f s = 1 ∧ i = objIndex f s ∧ e = fenceGet i s ∧ e.valid = true ∧ e.gen = fld v 16 16 ∧
  NoInjection s ∧ bit (getReg pgFnc 0 0x028 s) 16 = false ∧ s.hbc.ecc = [] ∧ s.hbc.pendInv = [] ∧ (∀ w ∈ s.fnc.waits, w.index ≠ i)

/-- OBJ_RES answers a result with a generation, and the fence is now `e`; every other HBM byte and every other register is as
it was. -/
def Sys2Proof.Claims.FenceAnswer (f res gen i : Nat) (e : FenceEnt) (s t : State) : Prop :=
  getReg pgFn f 0x128 t = w32 (res + gen * 2 ^ 16) ∧ fenceGet i t = e ∧ HbmKept (fenceAddr i s) 16 s t ∧ t.fe = s.fe ∧
  OtherRegs (fun k => k = rk pgFn f 0x128) s t

/-- R197, R199, R200, Table 7-11: ACQUIRE and RELEASE count a fence's references, SIGNAL and RESET set its state, CREATE makes
it, RELEASE of a slot drops the driver's reference; an operation that the function may not perform answers DENIED, one whose fence
entry cannot be read answers INVALID with its fault record; a WAIT that its fence has satisfied goes on. (The model's own reading where the spec leaves one: log 36, 43, 44.) -/
def Obligations.ObjectCommandsAnswerTheirResult : Prop :=
  (∀ (r : Requester) (f : Fin 64) (v : Word) (op : Nat) (c : Instr) (s : State), HeardFn r f.val s = true → fld v 0 3 = op →
    (op = 0 ∧ c = .objAcquire r f v) ∨ (op = 1 ∧ c = .objRelease r f v) ∨ (op = 2 ∧ c = .objSignal r f v) ∨
      (op = 3 ∧ c = .objReset r f v) ∨ (op = 4 ∧ c = .objCreate r f v) →
    (objKind f.val s = 3 → ∃ t, exec c s = .next t ∧ getReg pgFn f.val 0x128 t = 1 ∧
      OtherRegs (fun n => n = rk pgFn f.val 0x128) s t ∧ RegsOnly s t) ∧
    (objKind f.val s ≠ 3 → objDenied f.val s = true → ∃ t, exec c s = .next t ∧ getReg pgFn f.val 0x128 t = 2 ∧
      OtherRegs (fun n => n = rk pgFn f.val 0x128) s t ∧ RegsOnly s t) ∧
    (objKind f.val s = 1 → objDenied f.val s = false → ∀ rd s',
      nameFails f.val (objRef f.val s) (objIndex f.val s) s = (some rd, s') →
      exec c s = .next (tidyMem (setReg pgFn f.val 0x128 (w32 (1 + fld v 16 16 * 2 ^ 16)) s')))) ∧
  (∀ (r : Requester) (f : Fin 64) (v : Word) (i : Nat) (e : FenceEnt) (s : State), OperatesOnFence r f.val v 0 i e s →
    (e.refcnt < 2 ^ 32 - 1 →
      ∃ t, exec (.objAcquire r f v) s = .next t ∧ FenceAnswer f.val 0 e.gen i { e with refcnt := e.refcnt + 1 } s t) ∧
    (e.refcnt = 2 ^ 32 - 1 → ∃ t, exec (.objAcquire r f v) s = .next t ∧ FenceAnswer f.val 3 e.gen i e s t)) ∧
  (∀ (r : Requester) (f : Fin 64) (v : Word) (i : Nat) (e : FenceEnt) (s : State), OperatesOnFence r f.val v 1 i e s →
    (1 < e.refcnt →
      ∃ t, exec (.objRelease r f v) s = .next t ∧ FenceAnswer f.val 0 e.gen i { e with refcnt := e.refcnt - 1 } s t) ∧
    (e.refcnt = 0 → ∃ t, exec (.objRelease r f v) s = .next t ∧ FenceAnswer f.val 4 e.gen i e s t) ∧
    (e.refcnt = 1 → bit (getReg pgFnc e.ownerFunc 0x11C s) 0 = false →
      ∃ t, exec (.objRelease r f v) s = .next t ∧ getReg pgFn f.val 0x128 t = w32 (e.gen * 2 ^ 16) ∧
        (fenceGet i t).valid = false ∧ (fenceGet i t).refcnt = 0 ∧
        t.fnc.held = s.fnc.held ++
          [⟨e.ownerFunc, 2, e.ownerSlot, (slotOf e.ownerSlot s).ctxId, e.ownerFunc, i, e.gen⟩])) ∧
  (∀ (r : Requester) (f : Fin 64) (v : Word) (i : Nat) (e : FenceEnt) (s : State), OperatesOnFence r f.val v 2 i e s →
    e.ownerFunc = f.val → e.orphan = false →
    (e.signalled = false →
      ∃ t, exec (.objSignal r f v) s = .next t ∧ FenceAnswer f.val 0 e.gen i
        { e with signalled := true, status := fld v 8 8, sigCount := (e.sigCount + 1) % 2 ^ 32 } s t) ∧
    (e.signalled = true → ∃ t, exec (.objSignal r f v) s = .next t ∧ FenceAnswer f.val 0 e.gen i e s t)) ∧
  (∀ (r : Requester) (f : Fin 64) (v : Word) (i : Nat) (e : FenceEnt) (s : State), OperatesOnFence r f.val v 3 i e s →
    e.ownerFunc = f.val → e.orphan = false →
    (e.signalled = true →
      ∃ t, exec (.objReset r f v) s = .next t ∧ FenceAnswer f.val 0 e.gen i { e with signalled := false, status := 0 } s t) ∧
    (e.signalled = false → ∃ t, exec (.objReset r f v) s = .next t ∧ FenceAnswer f.val 0 e.gen i e s t)) ∧
  (∀ (r : Requester) (f : Fin 64) (v : Word) (i : Nat) (e : FenceEnt) (s : State), Operates r f.val v 4 s → objKind f.val s = 1 →
    i = objIndex f.val s → e = fenceGet i s → NoInjection s → bit (getReg pgFnc 0 0x028 s) 16 = false → s.hbc.ecc = [] →
    s.hbc.pendInv = [] → tabFind i s.fnc.recErr ≠ some true → inWindow f.val i s = true → i < fenceCount s →
    (slotOf (objSlot f.val s) s).state = 1 → e.valid = false →
    ∃ t, exec (.objCreate r f v) s = .next t ∧ FenceAnswer f.val 0 ((e.gen + 1) % 65536) i
      { valid := true, signalled := false, shared := objShared f.val s, orphan := false, status := 0, ownerSlot := objSlot f.val s,
        ownerFunc := f.val, gen := (e.gen + 1) % 65536, refcnt := 1, sigCount := e.sigCount } s t) ∧
  (∀ (r : Requester) (f : Fin 64) (v : Word) (k : Nat) (s : State), Operates r f.val v 1 s → objKind f.val s = 2 →
    k = objSlot f.val s → (slotOf k s).driver = true → 1 < (slotOf k s).refcnt →
    (slotOf k s).state = 1 ∨ (slotOf k s).state = 2 →
    ∃ t, exec (.objRelease r f v) s = .next t ∧ getReg pgFn f.val 0x128 t = w32 (fld v 16 16 * 2 ^ 16) ∧
      slotOf k t = { slotOf k s with state := 2, driver := false, refcnt := (slotOf k s).refcnt - 1, lastUse := s.fe.us } ∧
      ((slotOf k s).state = 1 → ∀ q, q < 16 → (queueOf k q t).state = 0) ∧ t.fe.jobs = s.fe.jobs) ∧
  (∀ (i k q st : Nat) (g : Nat) (x : WaitItem) (s : State), q < 16 → s.fnc.waits = [⟨i, g, .queue k q, some st, false⟩] →
    st < 256 → (queueOf k q s).str.wait = some x → (queueOf k q s).str.frames = [] → isHrel x.cmd = false →
    (slotOf k s).state ≠ 0 → 1 < (slotOf k s).refcnt →
    ∃ t, exec (.fenceWaitRelease i) s = .next t ∧ t.fnc.waits = [] ∧ (queueOf k q t).str.wait = none ∧
      (queueOf k q t).timer = 0 ∧ (queueOf k q t).rptr = (queueOf k q s).rptr ∧
      (slotOf k t).refcnt = (slotOf k s).refcnt - 1 ∧
      (isEnd x.cmd = false → (queueOf k q t).str.batchSkip =
        (if st ≠ 0 ∧ bit (cw x.cmd 2) 16 = true ∧ (queueOf k q s).str.batchSkip = none then some st
         else (queueOf k q s).str.batchSkip)))

/-- The function that FNC.FN_SEL selects. -/
abbrev Sys2Proof.Claims.fncSel (s : State) : Nat := getFld pgFnc 0 0x10C 0 6 s

/-- R203, R206: enabling a release ring sets both its counts to 0; a held release goes into the ring as soon as it has room, in
order; the disable of a function mutes it, stops its work with reason FUNC_RESET and opens the DMA window, whose end frees its
slots, masks its vectors and clears its view. (The model's own reading where the spec leaves one: log 45.) -/
def Obligations.ReleaseRingsAndFunctionDisables : Prop :=
  (∀ (r : Requester) (v : Word) (f : Nat) (s : State), Heard r pgFnc 0x11C s = true → bit v 0 = true → f = fncSel s →
    ∃ t, exec (.rrEnable r v) s = .next t ∧ bit (getReg pgFnc f 0x11C t) 0 = true ∧
      (bit (getReg pgFnc f 0x11C s) 0 = false → getReg pgFnc f 0x128 t = 0 ∧ getReg pgFnc f 0x12C t = 0) ∧
      (bit (getReg pgFnc f 0x11C s) 0 = true →
        getReg pgFnc f 0x128 t = getReg pgFnc f 0x128 s ∧ getReg pgFnc f 0x12C t = getReg pgFnc f 0x12C s) ∧
      OtherRegs (fun n => n = rk pgFnc f 0x11C ∨ n = rk pgFnc f 0x128 ∨ n = rk pgFnc f 0x12C) s t ∧ RegsOnly s t) ∧
  (∀ (f : Fin 64) (x : Release) (rest : List Release) (p : Word) (s : State), s.fnc.held = x :: rest → x.fn = f.val →
    p = getReg pgFnc f.val 0x128 s →
    (rrRoom f.val s = true → bit (getReg pgFnc f.val 0x11C s) 1 = false → s.hbc.pendInv = [] →
      ∃ t, exec (.releaseRecordHeldPost f) s = .next t ∧ t.fnc.held = rest ∧ getReg pgFnc f.val 0x128 t = p + 1 ∧
        hbmBytes (getPair pgFnc f.val 0x120 s + 16 * (p.toNat % rrSize f.val s)) 16 t = relRecord x p ∧
        HbmKept (getPair pgFnc f.val 0x120 s + 16 * (p.toNat % rrSize f.val s)) 16 s t ∧
        (getReg pgFnc f.val 0x130 t).toNat = min 65535 (rest.filter (fun h => h.fn == f.val)).length) ∧
    (rrRoom f.val s = false → exec (.releaseRecordHeldPost f) s = .next (tidyMem s))) ∧
  (∀ (f : Fin 64) (k : Nat) (s : State), tabFind f.val s.fe.disabling = none → funcSlots f.val s = [k] → OnlyJobs k s →
    (∀ b ∈ s.lvn.batches, (slotOf b.2.slot s).func ≠ f.val) →
    ∃ t, exec (.functionDisable f) s = .next t ∧ tabFind f.val t.pci.muted = some true ∧
      tabFind f.val t.fe.disabling = some 0 ∧ t.fe.heldDb = s.fe.heldDb.filter (fun h => h.1 != f.val) ∧
      (∀ q, q < 16 → (queueOf k q t).state = 0) ∧
      (∀ j b q, tabFind j s.fe.jobs = some b → b.owner = .queue k q → b.fin = none →
        (isDmaJob (j, b) && issuing (j, b) s) = false →
        ∃ b', tabFind j t.fe.jobs = some b' ∧ b'.fin = some ⟨4, 8, 0⟩)) ∧
  (∀ (f : Fin 64) (s : State), (tabFind f.val s.fe.disabling).isSome = true →
    exec (.functionDisable f) s = .next (tidyMem s)) ∧
  (∀ (f : Fin 64) (n : Nat) (s : State), tabFind f.val s.fe.disabling = some n → n < 100 →
    exec (.disableDmaWindowExpiry f) s = .next (tidyMem s)) ∧
  (∀ (f : Fin 64) (n k : Nat) (s : State), tabFind f.val s.fe.disabling = some n → 100 ≤ n → funcSlots f.val s = [k] →
    slotJobs k s = [] → bit (getReg pgFnc f.val 0x11C s) 0 = false →
    ∃ t, exec (.disableDmaWindowExpiry f) s = .next t ∧ (slotOf k t).state = 0 ∧ (slotOf k t).refcnt = 0 ∧
      (∀ q, q < 16 → (queueOf k q t).state = 0) ∧
      (⟨f.val, 3, k, (slotOf k s).ctxId, f.val, k, 0⟩ : Release) ∈ t.fnc.held ∧
      (∀ v < vecCount f.val, bit (getReg pgMsix f.val (16 * v + 12) t) 0 = true) ∧
      (∀ off < 65536, getReg pgFv f.val off t = resetVal pgFv f.val off) ∧
      tabFind f.val t.pci.muted = none ∧ tabFind f.val t.fe.disabling = none)

/-! ## Leaven: sessions, graphs and batches (R210 to R229) -/

/-- A queue's command that starts its job, in the state `w` in which the job's first actions run: its job is in the table, its
slot has the job's reference (R186, R213). -/
def Sys2Proof.Claims.StartsAt (k : Fin 64) (q : Fin 16) (c : List Word) (s s1 w : State) : Prop :=
  ∃ s2, StartsJob k q c s s1 s2 ∧
    w = (newJob (.queue k.val q.val) c (setQueue k.val q.val { queueOf k.val q.val s2 with held := false } s2)).2

/-- The outcome of such a command: its job's first actions have left `u`, and the next command is at the fetch position. -/
abbrev Sys2Proof.Claims.StartedTo (k q : Nat) (c : List Word) (u : State) : Out := .next (tidyMem (passJob (.queue k q) c u))

/-- The new job has ended with a status, a reason and a detail; or it has not ended. -/
def Sys2Proof.Claims.EndedWith (s u : State) (st r d : Nat) : Prop := ∃ b, tabFind s.fe.nextJob u.fe.jobs = some b ∧ b.fin = some ⟨st, r, d⟩
def Sys2Proof.Claims.JobGoesOn (s u : State) : Prop := ∃ b, tabFind s.fe.nextJob u.fe.jobs = some b ∧ b.fin = none

/-- A record on die has its 32 words (R212). -/
def Sys2Proof.Claims.WholeOnDie (i : Nat) (s : State) : Prop := ∀ ws, tabFind i s.lvn.onDie = some ws → ws.length = 32

/-- Such a command of session `i`, which lies in its function's window and whose record Leaven can read: the rest runs in `w` (R210,
R139). -/
def Sys2Proof.Claims.StartsOn (k : Fin 64) (q : Fin 16) (c : List Word) (i : Nat) (s s1 w : State) : Prop :=
  ∃ w0, StartsAt k q c s s1 w0 ∧ i = sessIdx c ∧ inSessWindow (slotOf k.val w0).func i w0 = true ∧ sessFails i w0 = (false, w)

/-- The use waits for a context of the CZ engine `z`, or has one, as the engine's contexts in `w` have it (R299). -/
def Sys2Proof.Claims.EngineAsked (z : Nat) (use : CzUse) (w u : State) : Prop :=
  (czAvail z false w = none → (z, use) ∈ u.cz.waiting) ∧
  ((∀ x ∈ w.cz.waiting, x.1 ≠ z) → (czAvail z false w).isSome = true → (czCtxOf use u).isSome = true)

/-- R139, R211 to R216, R224, R225: a session outside its function's window, or whose name fails, is BAD_HANDLE, one whose record
cannot be read BUS_ERROR; SESS_OPEN makes a FREE session IDLE with a new generation; SESS_STEP adds a pending step that holds the current
version, and starts the restore of a PARKED session; SESS_CLOSE frees an IDLE or PARKED session; a park and a restore go through a CZ
context and end PARKED and READY. (The model's own reading where the spec leaves one: log 46, 47, 48, 85.) -/
def Obligations.SessionsFollowTheirCommands : Prop :=
  (∀ (k : Fin 64) (q : Fin 16) (c : List Word) (i : Nat) (x : Instr) (s s1 w : State), StartsAt k q c s s1 w → i = sessIdx c →
    (opOf c = 8 ∧ x = .sessOpen (.queue k q)) ∨ (opOf c = 9 ∧ x = .sessStep (.queue k q) ∧ stepHeld k.val c s1 = false) ∨
      (opOf c = 0x0A ∧ argsOf c % 2 = 0 ∧ x = .sessClose (.queue k q) ∧ closeHeld k.val c s1 = false) ∨
      (opOf c = 0x0A ∧ argsOf c % 2 = 1 ∧ x = .sessPark (.queue k q) ∧ closeHeld k.val c s1 = false) →
    (inSessWindow (slotOf k.val w).func i w = false →
      ∃ u, exec x s = StartedTo k.val q.val c u ∧ EndedWith s u 1 0x0003 (lvnDetail i 0)) ∧
    (∀ w', inSessWindow (slotOf k.val w).func i w = true → sessFails i w = (true, w') →
      ∃ u, exec x s = StartedTo k.val q.val c u ∧ EndedWith s u 1 0x0015 (lvnDetail i 0)) ∧
    (∀ w', inSessWindow (slotOf k.val w).func i w = true → sessFails i w = (false, w') → opOf c ≠ 8 → sessNamed k.val c w' = false →
      ∃ u, exec x s = StartedTo k.val q.val c u ∧ EndedWith s u 1 0x0003 (lvnDetail i 0))) ∧
  (∀ (k : Fin 64) (q : Fin 16) (c : List Word) (i : Nat) (s s1 w : State), StartsOn k q c i s s1 w → opOf c = 8 →
    (sessState i w ≠ 0 → inSessWindow (slotOf k.val w).func i w = true →
      ∃ u, exec (.sessOpen (.queue k q)) s = StartedTo k.val q.val c u ∧ EndedWith s u 1 0x01C0 (lvnDetail i 0)) ∧
    (∀ va bs d w1 w2 w3 r, sessState i w = 0 → inSessWindow (slotOf k.val w).func i w = true → tabFind i w.lvn.onDie = none →
      r = jobRefOf (.queue k.val q.val) s.fe.nextJob w → checkRange r (cw c 3) (cw c 4).toNat 64 w = (.ok va, w1) →
      vaReadAll rqLvn k.val va 64 .rd w1 = (.ok bs, w2) → d = rowWords 4 16 bs → dWord d 6 ≤ dWord d 7 →
      (nth 0 d 4 = 0 ∧ w3 = w2 ∨ nth 0 d 4 ≠ 0 ∧ ∃ kva w', kvRegion r (nth 0 d 4) (dWord d 5) (dWord d 7) w2 = (.ok kva, w') ∧
        acquireRef r (nth 0 d 4) w' = (.ok (), w3)) →
      (slotOf k.val w3).func < 64 →
      ∃ u, exec (.sessOpen (.queue k q)) s = StartedTo k.val q.val c u ∧
        sessState i u = 1 ∧ sessSlot i u = k.val ∧ sessGen i u = (sessGen i w3 + 1) % 65536 ∧ sessGraph i u = dWord d 0 / 2 ^ 20 ∧
        sessW i 0x10 u = nth 0 d 4 ∧ sessW i 0x18 u = nth 0 d 6 ∧ sessW i 0x1C u = nth 0 d 7 ∧
        EndedWith s u 0 0 (lvnDetail i ((sessGen i w3 + 1) % 65536)))) ∧
  (∀ (k : Fin 64) (q : Fin 16) (c : List Word) (s s1 w : State), StartsAt k q c s s1 w → opOf c = 9 → stepHeld k.val c s1 = true →
    ∃ t, exec (.sessStep (.queue k q)) s = .next t ∧ OtherQueues k.val q.val s t ∧
      queueOf k.val q.val t = { queueOf k.val q.val s with held := true }) ∧
  (∀ (k : Fin 64) (q : Fin 16) (c : List Word) (i st : Nat) (s s1 w : State), StartsOn k q c i s s1 w → opOf c = 9 →
    stepHeld k.val c s1 = false → sessNamed k.val c w = true → st = sessState i w →
    (st = 0 ∨ st = 4 ∨ 5 < st →
      ∃ u, exec (.sessStep (.queue k q)) s = StartedTo k.val q.val c u ∧ EndedWith s u 1 0x01C0 (lvnDetail i 0)) ∧
    (∀ w1, st = 1 ∨ st = 2 ∨ st = 3 ∨ st = 5 → graphFails (sessGraph i w) w = (true, w1) →
      ∃ u, exec (.sessStep (.queue k q)) s = StartedTo k.val q.val c u ∧ EndedWith s u 1 0x0015 (lvnDetail i 0)) ∧
    (∀ w1, st = 1 ∨ st = 2 ∨ st = 3 ∨ st = 5 → graphFails (sessGraph i w) w = (false, w1) → graphCur (sessGraph i w1) w1 = none →
      ∃ u, exec (.sessStep (.queue k q)) s = StartedTo k.val q.val c u ∧ EndedWith s u 1 0x01C2 (lvnDetail i 0)) ∧
    (∀ v w1 w2 w', st = 1 ∨ st = 2 ∨ st = 3 ∨ st = 5 → graphFails (sessGraph i w) w = (false, w1) →
      graphCur (sessGraph i w1) w1 = some v → WholeOnDie i w →
      (st ≠ 5 ∧ w2 = w1 ∨ st = 5 ∧ (sessW i 0x18 w1).toNat ≤ (sessW i 0x1C w1).toNat ∧ ∃ va w1' r,
        r = jobRefOf (.queue k.val q.val) s.fe.nextJob w1 ∧
        kvRegion r (cw c 5) (cw c 6).toNat (sessW i 0x1C w1).toNat w1 = (.ok va, w1') ∧
        acquireRef r (cw c 5) w1' = (.ok (), w2)) →
      w' = verAdd (sessGraph i w2) v w2 →
      ∃ u x, exec (.sessStep (.queue k q)) s = StartedTo k.val q.val c u ∧ JobGoesOn s u ∧ u.lvn.steps = w.lvn.steps ++ [x] ∧
        x.session = i ∧ x.job = s.fe.nextJob ∧ x.graph = sessGraph i w2 ∧ x.vi = v ∧ x.user = cw64 c 3 ∧ x.start = w.lvn.us ∧
        x.missed = false ∧ sessPend i u = (sessPend i w' + 1) % 256 ∧
        sessState i u = (if sessState i w' = 1 then 2 else if sessState i w' = 5 then 6 else sessState i w') ∧
        (tabFind i u.lvn.onDie).isSome = true ∧
        (st = 5 → tabFind i u.lvn.restores = some (k.val, cw c 5, (cw c 6).toNat) ∧
          EngineAsked (parkEngine w) (.restore i) w u))) ∧
  (∀ (k : Fin 64) (q : Fin 16) (c : List Word) (i : Nat) (s s1 w : State), StartsOn k q c i s s1 w → opOf c = 0x0A →
    closeHeld k.val c s1 = false → sessNamed k.val c w = true →
    (argsOf c % 2 = 0 → sessState i w ≠ 1 → sessState i w ≠ 5 →
      ∃ u, exec (.sessClose (.queue k q)) s = StartedTo k.val q.val c u ∧ EndedWith s u 1 0x01C0 (lvnDetail i 0)) ∧
    (argsOf c % 2 = 0 → sessState i w = 1 ∨ sessState i w = 5 →
      ∃ u, exec (.sessClose (.queue k q)) s = StartedTo k.val q.val c u ∧ EndedWith s u 0 0 (lvnDetail i 0) ∧
        tabFind i u.lvn.onDie = none ∧
        (sessW i 0x10 w = 0 → sessW i 0x20 w = 0 → WholeOnDie i w → sessState i u = 0)) ∧
    (argsOf c % 2 = 1 → sessState i w ≠ 1 →
      ∃ u, exec (.sessPark (.queue k q)) s = StartedTo k.val q.val c u ∧ EndedWith s u 1 0x01C0 (lvnDetail i 0)) ∧
    (∀ n, argsOf c % 2 = 1 → sessState i w = 1 → n = (sessW i 0x18 w).toNat → (cw c 5).toNat < n + (n + 63) / 64 + 64 →
      ∃ u, exec (.sessPark (.queue k q)) s = StartedTo k.val q.val c u ∧ EndedWith s u 1 0x01C3 (lvnDetail i 0)) ∧
    (∀ n r va w1 w2 w3, argsOf c % 2 = 1 → sessState i w = 1 → n = (sessW i 0x18 w).toNat →
      n + (n + 63) / 64 + 64 ≤ (cw c 5).toNat → WholeOnDie i w → w.hbc.pendInv = [] → r = jobRefOf (.queue k.val q.val) s.fe.nextJob w →
      checkRange r (cw c 3) (cw c 4).toNat (cw c 5).toNat w = (.ok va, w1) →
      (n = 0 ∧ w2 = w1 ∨ n ≠ 0 ∧ ∃ kva, checkRange r (sessW i 0x10 w1) (sessW i 0x14 w1).toNat n w1 = (.ok kva, w2)) →
      acquireRef r (cw c 3) w2 = (.ok (), w3) →
      ∃ u, exec (.sessPark (.queue k q)) s = StartedTo k.val q.val c u ∧ JobGoesOn s u ∧ sessState i u = 4 ∧
        sessW i 0x20 u = cw c 3 ∧ sessW i 0x24 u = cw c 4 ∧ sessW i 0x2C u = cw c 5 ∧
        tabFind i u.lvn.parks = some s.fe.nextJob ∧ EngineAsked (parkEngine w) (.park i) w u)) ∧
  (∀ (i j n : Nat) (b : Job) (r : JobRef) (s s0 : State), czCtxOf (.park i) s = some n → sessState i s = 4 → WholeOnDie i s →
    tabFind i s.lvn.parks = some j → tabFind j s.fe.jobs = some b → b.fin = none →
    s0 = czLeave (.park i) { s with lvn := { s.lvn with parks := tabDel i s.lvn.parks } } → r = lvnRef (sessSlot i s) j s0 →
    (∀ data out raw s1 s2 s3, parkRead r (n / 4) (sessSlot i s) i s0 = (.ok data, s1) → parkStream data s1 = ((out, raw), s2) →
      lvnWrite r (n / 4) (sessSlot i s) (sessW i 0x20 s2) (sessW i 0x24 s2).toNat out s2 = (.ok (), s3) → WholeOnDie i s3 →
      s3.hbc.pendInv = [] →
      ∃ t b', exec (.parkComplete i) s = .next t ∧ tabFind i t.lvn.parks = none ∧ tabFind j t.fe.jobs = some b' ∧
        b'.fin = some ⟨0, 0, lvnDetail i 0⟩ ∧ sessState i t = 5 ∧ sessW i 0x10 t = 0 ∧ sessW i 0x14 t = 0) ∧
    (∀ e s1, parkRead r (n / 4) (sessSlot i s) i s0 = (.error e, s1) →
      ∃ t b', exec (.parkComplete i) s = .next t ∧ tabFind i t.lvn.parks = none ∧ tabFind j t.fe.jobs = some b' ∧
        b'.fin = some ⟨1, e, lvnDetail i 0⟩)) ∧
  (∀ (i j n slot off : Nat) (h : Word) (ws : List Word) (r : JobRef) (s s0 : State), czCtxOf (.restore i) s = some n →
    sessState i s = 6 → tabFind i s.lvn.onDie = some ws → ws.length = 32 → tabFind i s.lvn.restores = some (slot, h, off) →
    0 < sessPend i s → s0 = czLeave (.restore i) { s with lvn := { s.lvn with restores := tabDel i s.lvn.restores } } →
    j = (match sessSteps i s0 with | x :: _ => x.job | [] => s.fe.nextJob) → r = lvnRef slot j s0 →
    (∀ a m s1, restoreData r (n / 4) slot i h off s0 = (.ok (a, m), s1) →
      ∃ t, exec (.restoreComplete i) s = .next t ∧ tabFind i t.lvn.restores = none ∧ sessState i t = 2 ∧ sessW i 0x10 t = h ∧
        sessW i 0x14 t = w32 off ∧ sessW i 0x20 t = 0 ∧ sessPend i t = sessPend i s ∧ t.lvn.steps = s.lvn.steps) ∧
    (∀ e s1, restoreData r (n / 4) slot i h off s0 = (.error e, s1) →
      ∃ t, exec (.restoreComplete i) s = .next t ∧ tabFind i t.lvn.restores = none ∧ tabFind i t.lvn.onDie = none ∧
        ∀ x ∈ t.lvn.steps, x.session ≠ i))

/-- Such a command of graph `g`, whose record Leaven can read: the rest runs in `w` (R139). -/
def Sys2Proof.Claims.StartsOnGraph (k : Fin 64) (q : Fin 16) (c : List Word) (g : Nat) (s s1 w : State) : Prop :=
  ∃ w0, StartsAt k q c s s1 w0 ∧ g = fld (cw c 1) 0 12 ∧ graphFails g w0 = (false, w)

/-- R213, R226 to R228: GRAPH_COMMIT of a graph that the slot does not own is GRAPH_EMPTY, and is held while its eight version
entries are in use; else it fills the lowest free entry, makes it current and drops the hold of the version before. RETIRE drops the
current version. (The model's own reading where the spec leaves one: log 46.) -/
def Obligations.GraphsCommitAndRetireVersions : Prop :=
  (∀ (k : Fin 64) (q : Fin 16) (c : List Word) (s s1 w : State), StartsAt k q c s s1 w → opOf c = 0x0B → argsOf c % 2 = 0 →
    commitHeld k.val c s1 = true →
    ∃ t, exec (.graphCommit (.queue k q)) s = .next t ∧ OtherQueues k.val q.val s t ∧
      queueOf k.val q.val t = { queueOf k.val q.val s with held := true }) ∧
  (∀ (k : Fin 64) (q : Fin 16) (c : List Word) (g : Nat) (s s1 w : State), StartsOnGraph k q c g s s1 w → opOf c = 0x0B →
    argsOf c % 2 = 0 → commitHeld k.val c s1 = false →
    (graphOwned g k.val w = false →
      ∃ u, exec (.graphCommit (.queue k q)) s = StartedTo k.val q.val c u ∧ EndedWith s u 1 0x01C2 (lvnDetail g 0)) ∧
    (∀ v va ver r w1 w2 w3 w4, graphOwned g k.val w = true → verFree g w = some v →
      r = jobRefOf (.queue k.val q.val) s.fe.nextJob w →
      checkRange r (cw c 2) (cw c 3).toNat (32 * (cw c 4).toNat) w = (.ok va, w1) →
      (cw c 5 = 0 ∧ w2 = w1 ∨ cw c 5 ≠ 0 ∧ ∃ pva, checkRange r (cw c 5) 0 0 w1 = (.ok pva, w2)) →
      acquireRef r (cw c 2) w2 = (.ok (), w3) → acquireRef r (cw c 5) w3 = (.ok (), w4) → w4.hbc.pendInv = [] →
      ver = (if (graphW g 0x1C w4).toNat = 0 then 1 else (fld (graphW g 4 w4) 0 16 + 1) % 65536) →
      ∃ u, exec (.graphCommit (.queue k q)) s = StartedTo k.val q.val c u ∧ EndedWith s u 0 0 (lvnDetail g ver) ∧
        (graphCur g w4 = none → graphCur g u = some v ∧ graphW g (verOff v) u = w32 (ver + 2 ^ 16) ∧
          graphW g (verOff v + 4) u = 1 ∧ graphW g (verOff v + 8) u = cw c 2 ∧ graphW g (verOff v + 12) u = cw c 3 ∧
          graphW g (verOff v + 16) u = cw c 4 ∧ graphW g (verOff v + 20) u = cw c 5 ∧
          graphW g 0x1C u = w32 ((graphW g 0x1C w4).toNat + 1)) ∧
        (∀ p, graphCur g w4 = some p → p ≠ v → p < 8 → 1 < (graphW g (verOff p + 4) w4).toNat →
          graphCur g u = some v ∧ graphW g (verOff v) u = w32 (ver + 2 ^ 16) ∧
          (graphW g (verOff p + 4) u).toNat = (graphW g (verOff p + 4) w4).toNat - 1))) ∧
  (∀ (k : Fin 64) (q : Fin 16) (c : List Word) (g : Nat) (s s1 w : State), StartsOnGraph k q c g s s1 w → opOf c = 0x0B →
    argsOf c % 2 = 1 →
    (graphOwned g k.val w = false →
      ∃ u, exec (.graphRetire (.queue k q)) s = StartedTo k.val q.val c u ∧ EndedWith s u 1 0x01C2 (lvnDetail g 0)) ∧
    (graphOwned g k.val w = true →
      ∃ u, exec (.graphRetire (.queue k q)) s = StartedTo k.val q.val c u ∧ EndedWith s u 0 0 (lvnDetail g 0) ∧
        (graphCur g w = none → ∀ off, graphW g off u = graphW g off w) ∧
        (∀ v, graphCur g w = some v → 1 < (graphW g (verOff v + 4) w).toNat → w.hbc.pendInv = [] →
          graphCur g u = none ∧ (graphW g (verOff v + 4) u).toNat = (graphW g (verOff v + 4) w).toNat - 1)))

/-- R212, R217, R221 to R223, R229: a batch holds ready steps of the head step's graph and version, within the width limit, and
its sessions are RUNNING; its end retires the jobs of its entries and makes a session with further steps READY; the step timer
fails the rest of the step with TIMEOUT; a deadline miss is counted once and told to the function; in DOZE a batch first ends that
state. (The model's own reading
where the spec leaves one: log 33, 46, 48.) -/
def Obligations.BatchesFormEndTimeOutAndMiss : Prop :=
  (∀ s : State, dark pgLvn s = true ∨ bit (getReg pgLvn 0 0x100 s) 0 = false ∨ freeBatch s = none ∨ headStep s = none →
    exec .batchForm s = .next (tidyMem s)) ∧
  (∀ (b : Nat) (h : SStep) (s : State), dark pgLvn s = false → bit (getReg pgLvn 0 0x100 s) 0 = true → freeBatch s = some b →
    headStep s = some h → dozeHold (graphCores h.graph s) s = true → exec .batchForm s = .next (tidyMem (endDoze s))) ∧
  (∀ (b : Nat) (h : SStep) (s : State), dark pgLvn s = false → bit (getReg pgLvn 0 0x100 s) 0 = true → freeBatch s = some b →
    headStep s = some h → dozeHold (graphCores h.graph s) s = false →
    ∃ t x, exec .batchForm s = .next t ∧ batchOf b t = some x ∧ x.graph = h.graph ∧ x.ver = h.ver ∧ x.vi = h.vi ∧
      x.entries ≠ [] ∧ x.entries.length ≤ limited 1 512 (getFld pgLvn 0 0x118 0 10 s) ∧
      (∀ y ∈ x.entries, y ∈ readySteps s ∧ y.graph = h.graph ∧ y.ver = h.ver ∧
        (∀ ws, tabFind y.session s.lvn.onDie = some ws → ws.length = 32 → sessState y.session t = 3)) ∧
      t.lvn.steps = s.lvn.steps.filter (fun y => !(x.entries.any (fun e => e.job == y.job))) ∧
      t.lvn.seq = (s.lvn.seq + 1) % 2 ^ 32 ∧
      (getReg pgLvn 0 0x12C t).toNat = min (2 ^ 32 - 1) ((getReg pgLvn 0 0x12C s).toNat + 1)) ∧
  (∀ (b : Fin 4) (x : Batch) (s : State), batchOf b.val s = some x →
    (batchOver b.val x s = false → exec (.batchEnd b) s = .next (tidyMem s)) ∧
    (batchOver b.val x s = true →
      ∃ t, exec (.batchEnd b) s = .next t ∧ batchOf b.val t = none ∧
        ∀ y ∈ x.entries, y.gone = false → tabFind y.job t.fe.jobs = none) ∧
    (∀ y ws, batchOver b.val x s = true → x.entries = [y] → tabFind y.session s.lvn.onDie = some ws → ws.length = 32 →
      sessState y.session s = 3 → 1 < sessPend y.session s → (∀ m, (slotOf m s).refcnt ≠ 1) →
      ∃ t, exec (.batchEnd b) s = .next t ∧ sessState y.session t = 2 ∧ sessPend y.session t = sessPend y.session s - 1 ∧
        sessW y.session 0x48 t = sessW y.session 0x48 s + 1 ∧ sessW y.session 0x54 t = w32 x.ver)) ∧
  (∀ (b : Fin 4) (x : Batch) (s : State), batchOf b.val s = some x →
    (x.timer < max 1 (getReg pgLvn 0 0x11C s).toNat → exec (.stepTimeout b) s = .next (tidyMem s)) ∧
    (max 1 (getReg pgLvn 0 0x11C s).toNat ≤ x.timer → batchOver b.val x s = false → x.str.wait = none → x.fail = none →
      ∃ t y, exec (.stepTimeout b) s = .next t ∧ batchOf b.val t = some y ∧ y.fail = some (x.issue + 1, 2, 0x0005) ∧
        (x.str.batchSkip = none → y.str.batchSkip = some 2) ∧
        ∀ j jb, tabFind j s.fe.jobs = some jb → jb.owner = .batch b.val → jb.fin = none →
          ∃ jb' f, tabFind j t.fe.jobs = some jb' ∧ jb'.fin = some f ∧ f.status = 2)) ∧
  (∀ (i k q : Nat) (y : SStep) (jb : Job) (s : State), WholeOnDie i s → tabFind y.job s.fe.jobs = some jb →
    jb.owner = .queue k q →
    (s.lvn.batches.find? (fun b => b.2.entries.any (dueStep i s)) = none → s.lvn.steps.find? (dueStep i s) = some y →
      ∃ t, exec (.deadlineMiss i) s = .next t ∧
        t.lvn.steps = s.lvn.steps.map (fun z => if z.job = y.job then { z with missed := true } else z) ∧
        (getReg pgLvn 0 0x130 t).toNat = min (2 ^ 32 - 1) ((getReg pgLvn 0 0x130 s).toNat + 1) ∧
        (sessW i 0x4C t).toNat = min (2 ^ 32 - 1) ((sessW i 0x4C s).toNat + 1) ∧
        bit (getReg pgFv (slotOf k s).func 0x100 t) 3 = true ∧
        (y.crit = true → bit (getReg pgFv (slotOf k s).func 0x100 t) 5 = true)) ∧
    (∀ b x, s.lvn.batches.find? (fun b => b.2.entries.any (dueStep i s)) = some (b, x) →
      x.entries.find? (dueStep i s) = some y →
      ∃ t, exec (.deadlineMiss i) s = .next t ∧
        batchOf b t = some { x with
          entries := x.entries.map (fun z => if z.job = y.job then { z with missed := true } else z) } ∧
        (getReg pgLvn 0 0x130 t).toNat = min (2 ^ 32 - 1) ((getReg pgLvn 0 0x130 s).toNat + 1) ∧
        bit (getReg pgFv (slotOf k s).func 0x100 t) 3 = true)) ∧
  (∀ (i : Nat) (s : State), (∀ b ∈ s.lvn.batches, b.2.entries.any (dueStep i s) = false) →
    s.lvn.steps.find? (dueStep i s) = none → exec (.deadlineMiss i) s = .next (tidyMem s))

/-! ## Render passes (R232 to R259) -/

/-- The tiler runs pass `x` of job `j`. -/
def Sys2Proof.Claims.PassRuns (j : Nat) (x : Pass) (s : State) : Prop :=
  runPass s = some (j, x) ∧ passOf j s = some x ∧ ∃ b, tabFind j s.fe.jobs = some b ∧ b.fin = none

/-- The pass after the last triangle of its current draw: the next draw, or the tile phase with every tile (R232). -/
abbrev Sys2Proof.Claims.drawOver (x : Pass) : Pass :=
  { x with
    bin := x.bin + 1, begun := false, pos := 0, hist := [], odd := false, prim := 0,
    phase := if x.bin + 1 = pW x 8 then 2 else x.phase,
    todo := if x.bin + 1 = pW x 8 then List.range (passTx x * passTy x) else x.todo }

/-- R232, R237, R244 to R247, R257, R259: BIN_DRAW bins the draw and goes to the next one or to the tiles, and fails a draw with
too many primitives; during a stall the pool is read again, until the grace interval ends in a partial render or in POOL_EMPTY;
a tile goes to a core that may take it, and one for a gated cluster of a device in DOZE ends DOZE first; work of the compositor-priority slot preempts passes, whose tiles are saved after the
grace and come back when that work is over. (The model's own reading where the spec leaves one: log 33, 49, 50, 51, 54, 92, 93.) -/
def Obligations.PassesBinShadeAndYield : Prop :=
  (∀ (j : Nat) (x : Pass) (s : State), PassRuns j x s → x.phase = 1 → x.stalled = false → x.begun = true → x.tri = none →
    (primsOver (drawRec x x.bin) = true →
      ∃ t b, exec .binDraw s = .next t ∧ tabFind j t.fe.jobs = some b ∧ b.fin = some ⟨1, 0x0102, x.bin⟩) ∧
    (primsOver (drawRec x x.bin) = false → dWord (drawRec x x.bin) 2 ≤ x.pos →
      ∃ t, exec .binDraw s = .next t ∧ passOf j t = some (drawOver x) ∧ t.fe = s.fe ∧ SameBytes s t) ∧
    (∀ a b b0 b1 b2 s1 s2 s3, primsOver (drawRec x x.bin) = false → dWord (drawRec x x.bin) 2 = x.pos + 1 → x.hist = [a, b] →
      dIdxFmt (drawRec x x.bin) = 2 → dStrip (drawRec x x.bin) = false → x.prim < 4194304 →
      tRead j (dLong (drawRec x x.bin) 4 % 2 ^ 48 + 16 * a) 16 (setPass j { x with pos := x.pos + 1, hist := [] } s) =
        (some b0, s1) →
      tRead j (dLong (drawRec x x.bin) 4 % 2 ^ 48 + 16 * b) 16 s1 = (some b1, s2) →
      tRead j (dLong (drawRec x x.bin) 4 % 2 ^ 48 + 16 * x.pos) 16 s2 = (some b2, s3) →
      notFinite (nth 0 (rowWords 4 4 b0) 0) = true →
      ∃ t, exec .binDraw s = .next t ∧
        passOf j t = some (drawOver { x with primsIn := min (2 ^ 32 - 1) (x.primsIn + 1), fresh := true }))) ∧
  (∀ s : State, runPass s = none →
    exec .binDraw s = .next (tidyMem s) ∧ exec .poolProdRecheck s = .next (tidyMem s) ∧
    exec .partialRender s = .next (tidyMem s)) ∧
  (∀ (j : Nat) (x : Pass) (s : State), PassRuns j x s → x.phase ≠ 1 ∨ x.stalled = true →
    exec .binDraw s = .next (tidyMem s)) ∧
  (∀ (j a b : Nat) (x : Pass) (s s1 s2 : State), PassRuns j x s → x.phase = 1 → x.stalled = true → x.grace < passGrace x →
    tNat j (pVa x 4 + 0x1C) 4 s = (some a, s1) → tNat j (pVa x 4 + 0x20) 4 s1 = (some b, s2) →
    exec .partialRender s = .next (tidyMem s) ∧
    ∃ t, exec .poolProdRecheck s = .next t ∧
      passOf j t = some { x with grace := x.grace + 1, stalled := decide (a = b) } ∧ t.fe = s.fe ∧
        (s.hbc.pendInv = [] → SameBytes s t)) ∧
  (∀ (j : Nat) (x : Pass) (s : State), PassRuns j x s → x.phase = 1 → x.stalled = true → passGrace x ≤ x.grace →
    exec .poolProdRecheck s = .next (tidyMem s) ∧
    (x.chunks = [] ∨ x.fresh = false →
      ∃ t b, exec .partialRender s = .next t ∧ tabFind j t.fe.jobs = some b ∧ b.fin = some ⟨1, 0x0100, x.bin⟩) ∧
    (∀ l s1, x.chunks ≠ [] → x.fresh = true → listedTiles j x (List.range (passTx x * passTy x)) s = (some l, s1) → l ≠ [] →
      ∃ t, exec .partialRender s = .next t ∧
        passOf j t = some { x with phase := 3, todo := l, fresh := false, partials := min (2 ^ 32 - 1) (x.partials + 1) } ∧
        (getReg pgTlr 0 0x10C t).toNat = min (2 ^ 32 - 1) ((getReg pgTlr 0 0x10C s1).toNat + 1))) ∧
  (∀ (tile j p lo hi : Nat) (core : Fin 64) (x : Pass) (s s1 s2 : State), p = physOf core.val s → p < 80 → dark pgTlr s = false →
    devState s < 2 → tileHolder p tile s = none → PassRuns j x s → x.phase = 2 → tile ∈ x.todo →
    p ∈ x.cores → coreEnabled p s = true → reserved p s = true →
    ((coreOf p s).tiles.filter (fun w => w.job == j)).length < tileRoom x → dozeHold [p] s = false →
    tNat j (hdrVa x tile) 8 s = (some lo, s1) → tNat j (hdrVa x tile + 8) 8 s1 = (some hi, s2) →
    (tileSkips x (lo / 2 ^ 40) = false → hi / 2 ^ 46 % 2 = 1 → hi / 2 ^ 40 % 64 ≠ lcore p s2 →
      exec (.tileShade tile core) s = .next (tidyMem s)) ∧
    (tileSkips x (lo / 2 ^ 40) = false → hi / 2 ^ 46 % 2 = 0 →
      ∃ t y, exec (.tileShade tile core) s = .next t ∧ passOf j t = some y ∧ tile ∉ y.todo) ∧
    (tileSkips x (lo / 2 ^ 40) = true → (∃ k ∈ x.todo, k ≠ tile) →
      ∃ t, exec (.tileShade tile core) s = .next t ∧ passOf j t = some { x with todo := x.todo.filter (· != tile) } ∧
        (s.hbc.pendInv = [] → SameBytes s t) ∧ t.fe = s.fe)) ∧
  (∀ (tile j p : Nat) (core : Fin 64) (x : Pass) (s : State), p = physOf core.val s → p < 80 → dark pgTlr s = false →
    devState s < 2 → tileHolder p tile s = none → PassRuns j x s → x.phase = 2 ∨ x.phase = 3 → tile ∈ x.todo → p ∈ x.cores →
    coreEnabled p s = true → reserved p s = true →
    ((coreOf p s).tiles.filter (fun w => w.job == j)).length < tileRoom x → dozeHold [p] s = true →
    exec (.tileShade tile core) s = .next (tidyMem (endDoze s))) ∧
  (∀ (tile : Nat) (core : Fin 64) (s : State), 80 ≤ physOf core.val s ∨ dark pgTlr s = true ∨ 2 ≤ devState s →
    exec (.tileShade tile core) s = .next (tidyMem s)) ∧
  (∀ (k : Fin 64) (q : Fin 16) (s : State), cpriSlot s ≠ some k.val ∨ 2 ≤ (queueOf k.val q.val s).engine ∨ dark pgTlr s = true ∨
      fetching (.queue k.val q.val) s = false ∨ fetchPos (.queue k.val q.val) s = none →
    exec (.cpriPreempt k q) s = .next (tidyMem s)) ∧
  (∀ (k : Fin 64) (q : Fin 16) (s : State), cpriSlot s = some k.val → (queueOf k.val q.val s).engine < 2 → dark pgTlr s = false →
    fetching (.queue k.val q.val) s = true → (fetchPos (.queue k.val q.val) s).isSome = true →
    (∀ e ∈ s.cpt.kernels, e.2.slot = k.val ∨ jobEnded e.1 s = true) →
    ∃ t, exec (.cpriPreempt k q) s = .next t ∧ t.tlr.cpri = some (k.val, (queueOf k.val q.val s).bell) ∧
      ∀ j x, (j, x) ∈ s.tlr.passes → x.slot ≠ k.val → x.preempted = false → jobEnded j s = false →
        x.mask &&& queueMask k.val q.val s ≠ 0 → passOf j s = some x →
        ∃ y, passOf j t = some y ∧ y.preempted = true ∧ y.todo = x.todo ∧ y.phase = x.phase) ∧
  (∀ (p : Fin 80) (j : Nat) (x : Pass) (s : State),
    s.tlr.passes.find? (fun e => e.2.preempted && !(jobEnded e.1 s) && (coreOf p.val s).tiles.any (fun w => w.job == e.1)) =
      some (j, x) →
    (x.waited < preemptGrace s → exec (.preemptGraceExpiry p) s = .next (tidyMem s)) ∧
    (preemptGrace s ≤ x.waited → (pixGroups p.val j s).any (fun g => groupReads p.val g.1 s) = false →
      ∃ t m, exec (.preemptGraceExpiry p) s = .next t ∧ t.tlr.midtile = s.tlr.midtile ++ [m] ∧ m.job = j ∧ m.core = p.val ∧
        m.tiles = (coreOf p.val s).tiles.filter (fun w => w.job == j) ∧ (∀ w ∈ (coreOf p.val t).tiles, w.job ≠ j))) ∧
  (∀ (j : Nat) (x : Pass) (s : State), s.tlr.passes.find? (fun e => e.2.preempted && !(jobEnded e.1 s)) = some (j, x) →
    passOf j s = some x →
    (dark pgTlr s = true ∨ cpriWork x.mask s = true → exec .passResume s = .next (tidyMem s)) ∧
    (dark pgTlr s = false → cpriWork x.mask s = false →
      (∀ m ∈ s.tlr.midtile, m.job = j → (coreOf m.core s).groups.length + m.groups.length ≤ 64) →
      (dozeHold ((s.tlr.midtile.filter (fun m => m.job == j)).map (·.core)) s = true →
        exec .passResume s = .next (tidyMem (endDoze s))) ∧
      (dozeHold ((s.tlr.midtile.filter (fun m => m.job == j)).map (·.core)) s = false →
      ∃ t y, exec .passResume s = .next t ∧ passOf j t = some y ∧ y.preempted = false ∧ y.waited = 0 ∧ y.phase = x.phase ∧
        y.todo = x.todo ∧ (∀ p ∈ x.cores, p ∈ y.held) ∧ t.tlr.midtile = s.tlr.midtile.filter (fun m => m.job != j) ∧
        ∀ m ∈ s.tlr.midtile, m.job = j → ∀ w ∈ m.tiles, w ∈ (coreOf m.core t).tiles)))

/-! ## Composer channels and CZ streams (R262 to R299) -/

/-- The channel that CMP.CH_SEL selects. -/
abbrev Sys2Proof.Claims.cmpSel (s : State) : Nat := getFld pgCmp 0 0x104 0 4 s

/-- The registers of a channel that a frame boundary without a commit or a frame leaves alone: all but V_CTR. -/
def Sys2Proof.Claims.OnlyCounterReset (c : Nat) (s t : State) : Prop :=
  getReg pgCmp c 0x124 t = 0 ∧ OtherRegs (fun n => n = rk pgCmp c 0x124) s t ∧ SameBytes s t ∧ t.fe = s.fe ∧
  (cchan c t).busy = (cchan c s).busy

/-- A frame is in progress, for a job or as a repeat frame, and it is the next one in sequence. -/
def Sys2Proof.Claims.FrameBegun (c : Nat) (job : Option Nat) (s t : State) : Prop :=
  (cchan c t).busy = true ∧ (cchan c t).job = job ∧ (cchan c t).armed = none ∧ bit (getReg pgCmp c 0x10C t) 2 = true ∧
  getReg pgCmp c 0x128 t = getReg pgCmp c 0x128 s + 1

/-- R263, R266, R268, R269, R277 to R282, R297: a channel's enable answers EN_ERR and starts it, its disable ends what it had;
CH_COMMIT arms a commit, which the next boundary carries out part by part with a new frame; a frame that misses its deadline is
counted and told, and an incomplete one is abandoned at the boundary; a complete frame ends its job; a CZ job commits or fails.
(The model's own reading where the spec leaves one: log 55, 56, 57, 94.) -/
def Obligations.ChannelsCommitFramesAndStreamsCommit : Prop :=
  (∀ (r : Requester) (v : Word) (c : Nat) (s : State), Heard r pgCmp 0x108 s = true → bit v 0 = true → c = cmpSel s →
    (chEnabled c s = true →
      ∃ t, exec (.channelEnable r v) s = .next t ∧ getFld pgCmp c 0x108 1 2 t = fld v 1 2 ∧ chSlot c t = chSlot c s ∧
        chEnabled c t = true ∧ OtherRegs (fun n => n = rk pgCmp c 0x108) s t ∧ RegsOnly s t) ∧
    (∀ s', chEnabled c s = false → s' = ctlFields c v s →
      (enableError c s' ≠ 0 →
        ∃ t, exec (.channelEnable r v) s = .next t ∧ getFld pgCmp c 0x10C 16 3 t = enableError c s' ∧ chEnabled c t = false ∧
          chSlot c t = fld v 8 6 ∧ OtherRegs (fun n => n = rk pgCmp c 0x108 ∨ n = rk pgCmp c 0x10C) s t ∧ RegsOnly s t) ∧
      (enableError c s' = 0 →
        ∃ t, exec (.channelEnable r v) s = .next t ∧ getFld pgCmp c 0x10C 16 3 t = 0 ∧ chEnabled c t = true ∧
          chSlot c t = fld v 8 6 ∧ bit (getReg pgCmp 0 0x100 t) (16 + c) = true ∧ getReg pgCmp c 0x124 t = 0))) ∧
  (∀ (r : Requester) (v : Word) (c : Nat) (s : State), Heard r pgCmp 0x108 s = true → bit v 0 = false → c = cmpSel s →
    (chEnabled c s = false →
      ∃ t, exec (.channelDisable r v) s = .next t ∧ chSlot c t = fld v 8 6 ∧ chEnabled c t = false ∧
        OtherRegs (fun n => n = rk pgCmp c 0x108) s t ∧ RegsOnly s t) ∧
    (chEnabled c s = true →
      ∃ t, exec (.channelDisable r v) s = .next t ∧ chEnabled c t = false ∧ chArmed c t = false ∧ latePend c t = 0 ∧
        (cchan c t).busy = false ∧ (cchan c t).armed = none ∧ (cchan c t).actRef = [] ∧ (cchan c t).shRef = [] ∧
        (∀ j b, (cchan c s).armed = some j → (cchan c s).job ≠ some j → j < s.fe.nextJob → tabFind j s.fe.jobs = some b →
          b.fin = none → ∃ b', tabFind j t.fe.jobs = some b' ∧ b'.fin = some ⟨4, 0x0144, c⟩) ∧
        ∀ j b, (cchan c s).busy = true → (cchan c s).job = some j → j < s.fe.nextJob → tabFind j s.fe.jobs = some b →
          b.fin = none → ∃ b' f, tabFind j t.fe.jobs = some b' ∧ b'.fin = some f ∧ f.status = 4 ∧ f.reason = 0x0144 ∧
            f.detail % 256 = c + 16)) ∧
  (∀ (r : Requester) (v : Word) (c : Nat) (s : State), Heard r pgCmp 0x110 s = true → c = cmpSel s →
    (bit v 0 = false ∨ chArmed c s = true → exec (.chCommitArm r v) s = .next (tidyMem s)) ∧
    (bit v 0 = true → chArmed c s = false →
      ∃ t, exec (.chCommitArm r v) s = .next t ∧ chArmed c t = true ∧ bit (getReg pgCmp c 0x110 t) 0 = true ∧
        cchan c t = { cchan c s with armed := none } ∧
        OtherRegs (fun n => n = rk pgCmp c 0x10C ∨ n = rk pgCmp c 0x110) s t)) ∧
  (∀ (c : Fin 16) (s : State), chEnabled c.val s = false ∨ dark pgCmp s = true →
    exec (.frameBoundary c) s = .next (tidyMem s)) ∧
  (∀ (c : Fin 16) (s : State), chEnabled c.val s = true → dark pgCmp s = false → (cchan c.val s).busy = false →
    (chArmed c.val s = true →
      ∃ t, exec (.frameBoundary c) s = .next t ∧ FrameBegun c.val (cchan c.val s).armed s t ∧ chArmed c.val t = false ∧
        bit (getReg pgCmp c.val 0x110 t) 0 = false ∧
        (∀ i < 16, getReg pgCmp c.val (0x600 + 4 * i) t = getReg pgCmp c.val (0x200 + 4 * i) s) ∧
        ∀ l < 8, (getReg pgCmp c.val (0x200 + 4 * (16 + 16 * l)) s).toNat / 2 ^ 11 % 2 = 0 →
          bit (getReg pgCmp c.val 0x10C t) (8 + l) = false ∧
          ∀ i < 16, getReg pgCmp c.val (0x600 + 4 * (16 + 16 * l + i)) t = getReg pgCmp c.val (0x200 + 4 * (16 + 16 * l + i)) s) ∧
    (chArmed c.val s = false → latePend c.val s = 0 →
      (bit (getReg pgCmp c.val 0x108 s) 1 = true →
        ∃ t, exec (.frameBoundary c) s = .next t ∧ FrameBegun c.val none s t ∧
          (getReg pgCmp c.val 0x138 t).toNat = min (2 ^ 32 - 1) ((getReg pgCmp c.val 0x138 s).toNat + 1)) ∧
      (bit (getReg pgCmp c.val 0x108 s) 1 = false →
        ∃ t, exec (.frameBoundary c) s = .next t ∧ OnlyCounterReset c.val s t))) ∧
  (∀ (c : Fin 16) (s : State), chEnabled c.val s = true → dark pgCmp s = false → (cchan c.val s).busy = true →
    ∃ t, exec (.frameBoundary c) s = .next t ∧
      (getReg pgCmp c.val 0x134 t).toNat = min (2 ^ 32 - 1) ((getReg pgCmp c.val 0x134 s).toNat + 1) ∧
      ((cchan c.val s).missed = false →
        (getReg pgCmp c.val 0x130 t).toNat = min (2 ^ 32 - 1) ((getReg pgCmp c.val 0x130 s).toNat + 1)) ∧
      ∀ j b, (cchan c.val s).job = some j → tabFind j s.fe.jobs = some b → b.fin = none →
        ∃ b' f, tabFind j t.fe.jobs = some b' ∧ b'.fin = some f ∧ f.status = 1) ∧
  (∀ (c : Fin 16) (s : State),
    (chEnabled c.val s = false ∨ (cchan c.val s).busy = false ∨ (cchan c.val s).missed = true →
      exec (.frameDeadlineMiss c) s = .next (tidyMem s)) ∧
    (chEnabled c.val s = true → (cchan c.val s).busy = true → (cchan c.val s).missed = false →
      ∃ t, exec (.frameDeadlineMiss c) s = .next t ∧ cchan c.val t = { cchan c.val s with missed := true } ∧
        (getReg pgCmp c.val 0x130 t).toNat = min (2 ^ 32 - 1) ((getReg pgCmp c.val 0x130 s).toNat + 1) ∧
        bit (getReg pgFv (slotOf (chSlot c.val s) s).func 0x100 t) 4 = true ∧
        (bit (getReg pgCmp c.val 0x108 s) 2 = true →
          bit (getReg pgFv (slotOf (chSlot c.val s) s).func 0x100 t) 5 = true))) ∧
  (∀ (c : Fin 16) (s : State),
    (chEnabled c.val s = false ∨ (cchan c.val s).busy = false → exec (.frameComplete c) s = .next (tidyMem s)) ∧
    (chEnabled c.val s = true → (cchan c.val s).busy = true →
      ∃ t, exec (.frameComplete c) s = .next t ∧ (cchan c.val t).busy = false ∧ (cchan c.val t).job = none ∧
        bit (getReg pgCmp c.val 0x10C t) 2 = false ∧
        ∀ j b, (cchan c.val s).job = some j → tabFind j s.fe.jobs = some b → b.fin = none →
          ∃ b' f, tabFind j t.fe.jobs = some b' ∧ b'.fin = some f ∧ f.status ≤ 1 ∧
            ((cchan c.val s).missed = true → f.status = 1))) ∧
  (∀ (z : Fin 2) (n : Fin 4) (j : Nat) (x : CzJob) (b : Job) (s : State),
    tabFind (z.val * 4 + n.val) s.cz.ctx = some (.job j) → tabFind j s.cz.jobs = some x → tabFind j s.fe.jobs = some b →
    b.fin = none →
    (∃ t b' f, exec (.czCommit z n) s = .next t ∧ tabFind j t.cz.jobs = none ∧ tabFind j t.fe.jobs = some b' ∧
      b'.fin = some f ∧ f.status ≤ 1) ∧
    (∀ hist buf o own s1 s2 s3 s4 s5, x.dec = false → x.last = true → vaReadAll (rqCz z.val) x.slot x.hva x.hn .rd s = (.ok hist, s1) →
      vaReadAll (rqCz z.val) x.slot x.iva x.n .rd s1 = (.ok buf, s2) →
      o = (czCompress (czHdrOf x.hdr) hist buf x.pos x.dyn x.first x.last x.crc).1 → o.length ≤ x.cap →
      own = [(x.dva + 0x1C, toLE 4 o.length), (x.dva + 0x30, toLE 4 (~~~ (crcGo x.crc buf)).toNat)] →
      writeSeq (rqCz z.val) x.slot [(x.ova, o)] s2 = (.ok (), s3) →
      mayWrite (rqCz z.val) x.slot (own.map (fun w => pagePieces w.1 w.2.length)).flatten s3 = (.ok (), s4) →
      writeSeq (rqCz z.val) x.slot own s4 = (.ok (), s5) →
      ∃ t b', exec (.czCommit z n) s = .next t ∧ tabFind j t.fe.jobs = some b' ∧
        b'.fin = some ⟨0, 0, o.length + (~~~ (crcGo x.crc buf)).toNat * 2 ^ 32⟩))

/-! ## Basin (R355 to R372) -/

/-- Basin takes an unmasked event of source `i` that has not been raised before this command: AON runs, no reset is held, no
stop waits, and the source's bit is not masked (R357, R358). -/
def Sys2Proof.Claims.TakesEvent (i : Nat) (s : State) : Prop :=
  aonUp s = true ∧ s.rst.held = false ∧ s.bsn.stop = false ∧ s.bsn.inbox.contains i = false ∧
  bit (getReg (srcHome i).1 0 0x024 s) (srcHome i).2 = false

/-- The same, and the event makes the source SEVERE, with no interrupt, no ERR_N pulse and no power request under way (R358). -/
def Sys2Proof.Claims.TurnsSevere (i : Nat) (s : State) : Prop :=
  TakesEvent i s ∧ srcState i s < 2 ∧ max (getFld pgBsn i 0x104 0 8 s) 1 ≤ getFld pgBsn i 0x110 0 8 s + 1 ∧
  bit (getReg pgBsn i 0x104 s) 11 = false ∧ pulsing s = false ∧ s.rst.trans = none

/-- R355 to R366: an event of a source is counted at its sticky bit, masked or not; an unmasked one counts in its source, which
turns SEVERE at its threshold, with the capture of R360 and its reaction: a fence takes the unit out of service with a new
epoch, its work ends with UNIT_FENCED and its logical index leaves it; STOP_FUNC disables the functions that have work there;
STOP_DEVICE leaves its record and resets. A window, a quiet period and CLR make a source NORMAL again. (The model's own reading
where the spec leaves one: log 65, 66, 67.) -/
def Obligations.SourcesClassifyAndReact : Prop :=
  (∀ (srcs : List (Fin 288)) (s : State), aonUp s = false ∨ s.rst.held = true ∨ s.bsn.stop = true →
    exec (.basinSourceEvent srcs) s = .next (tidyMem s)) ∧
  (∀ (i : Fin 288) (s : State), aonUp s = true → s.rst.held = false → s.bsn.stop = false → s.bsn.inbox.contains i.val = false →
    bit (getReg (srcHome i.val).1 0 0x024 s) (srcHome i.val).2 = true →
    ∃ t, exec (.basinSourceEvent [i]) s = .next t ∧
      bit (getReg (srcHome i.val).1 0 0x020 t) (srcHome i.val).2 = true ∧
      (getReg (srcHome i.val).1 0 0x02C t).toNat = min (2 ^ 32 - 1) ((getReg (srcHome i.val).1 0 0x02C s).toNat + 1) ∧
      t.bsn = s.bsn ∧ getReg pgBsn i.val 0x110 t = getReg pgBsn i.val 0x110 s) ∧
  (∀ (i : Fin 288) (s : State), TakesEvent i.val s → srcState i.val s < 2 →
    getFld pgBsn i.val 0x110 0 8 s + 1 < max (getFld pgBsn i.val 0x104 0 8 s) 1 →
    ∃ t, exec (.basinSourceEvent [i]) s = .next t ∧
      bit (getReg (srcHome i.val).1 0 0x020 t) (srcHome i.val).2 = true ∧ srcState i.val t = 1 ∧
      getFld pgBsn i.val 0x110 0 8 t = getFld pgBsn i.val 0x110 0 8 s + 1 ∧
      getFld pgBsn i.val 0x110 16 16 t = min 65535 (getFld pgBsn i.val 0x110 16 16 s + 1) ∧ t.fe = s.fe ∧ SameBytes s t) ∧
  (∀ (i : Fin 288) (s : State), TurnsSevere i.val s → srcReact i.val s = 0 →
    ∃ t, exec (.basinSourceEvent [i]) s = .next t ∧ srcState i.val t = 2 ∧ t.bsn.attn = true ∧
      getReg pgBsn 0 0x140 t = w32 (i.val + srcGroup i.val * 2 ^ 16 + 2 ^ 31) ∧ getReg pgBsn 0 0x144 t = aonMs s ∧
      (bit (getReg pgBsn i.val 0x104 s) 10 = true → bit (getReg pgBsn 0 0x010 t) 0 = true) ∧ t.fe = s.fe ∧ SameBytes s t) ∧
  (∀ (i : Fin 288) (d : Nat) (s : State), i.val < 160 → d = i.val % 80 → TurnsSevere i.val s → srcReact i.val s = 1 →
    domFenced d s = false →
    ∃ t, exec (.basinSourceEvent [i]) s = .next t ∧ domFenced d t = true ∧ fenced (pgSc d) t = true ∧
      isolated (pgSc d) t = true ∧ powered (pgSc d) t = false ∧
      getFld (pgSc d) 0 0x03C 0 16 t = (getFld (pgSc d) 0 0x03C 0 16 s + 1) % 65536 ∧
      (∀ l, logicalOf d s = some l → physOf l t ≠ d) ∧
      (∀ j b, j ∈ unitJobs d s → tabFind j s.fe.jobs = some b → b.fin = none →
        ∃ b', tabFind j t.fe.jobs = some b' ∧ b'.fin = some ⟨1, 0x0019, srcGroup i.val⟩)) ∧
  (∀ (i : Fin 288) (d : Nat) (s : State), i.val < 160 → d = i.val % 80 → TurnsSevere i.val s → srcReact i.val s = 2 →
    ∃ t, exec (.basinSourceEvent [i]) s = .next t ∧
      ∀ j b k q, j ∈ unitJobs d s → (j, b) ∈ s.fe.jobs → b.owner = .queue k q →
        (tabFind (slotOf k s).func t.fe.disabling).isSome = true) ∧
  (∀ (i : Fin 288) (s : State), TurnsSevere i.val s → srcReact i.val s = 3 → cstBusy s = false →
    s.pins.sysRstN = true →
    ∃ t, exec (.basinSourceEvent [i]) s = .next t ∧ getFld pgRst 0 0x128 0 4 t = 3 ∧ t.fe = {} ∧ t.pins.errN = false ∧
      aonBytes 0x1FFC0 8 t = toLE 4 (i.val + srcGroup i.val * 2 ^ 16) ++ toLE 4 (aonMs s).toNat) ∧
  (∀ (i : Fin 288) (s : State), aonUp s = true → s.bsn.inbox.contains i.val = false →
    (srcState i.val s = 1 → tabGet 0 i.val s.bsn.winLen ≠ 0 →
      tabGet 0 i.val s.bsn.winLen ≤ s.aon.ms - tabGet 0 i.val s.bsn.winStart →
      ∃ t, exec (.basinWindowExpiry i) s = .next t ∧ srcState i.val t = 0 ∧ getFld pgBsn i.val 0x110 0 8 t = 0 ∧
        OtherRegs (fun k => k = rk pgBsn i.val 0x110) s t ∧ RegsOnly s t) ∧
    (srcState i.val s = 2 → tabGet 0 i.val s.bsn.quietLen ≠ 0 →
      tabGet 0 i.val s.bsn.quietLen ≤ s.aon.ms - tabGet 0 i.val s.bsn.quietStart →
      ∃ t, exec (.basinQuietExpiry i) s = .next t ∧ srcState i.val t = 0 ∧ getFld pgBsn i.val 0x110 0 8 t = 0 ∧
        (getReg pgBsn 0 0x138 t).toNat = min (2 ^ 32 - 1) ((getReg pgBsn 0 0x138 s).toNat + 1) ∧
        OtherRegs (fun k => k = rk pgBsn i.val 0x110 ∨ k = rk pgBsn 0 0x138) s t ∧ RegsOnly s t) ∧
    (srcState i.val s ≠ 1 → exec (.basinWindowExpiry i) s = .next (tidyMem s)) ∧
    (srcState i.val s ≠ 2 → exec (.basinQuietExpiry i) s = .next (tidyMem s))) ∧
  (∀ (r : Requester) (v : Word) (i : Nat) (s : State), Heard r pgBsn 0x110 s = true → bit v 15 = true →
    i = getFld pgBsn 0 0x100 0 9 s →
    (i < 288 → ∃ t, exec (.sourceClear r v) s = .next t ∧ srcState i t = 0 ∧ getFld pgBsn i 0x110 0 8 t = 0 ∧
      OtherRegs (fun k => k = rk pgBsn i 0x110) s t ∧ RegsOnly s t) ∧
    (288 ≤ i → exec (.sourceClear r v) s = .next (tidyMem s))) ∧
  (∀ (pg : Fin 146) (e : BitVec 16) (s : State),
    (fenced pg.val s = false → getFld pg.val 0 0x03C 0 16 s = e.toNat →
      exec (.staleEpochDrop pg e) s = .next (tidyMem s)) ∧
    (fenced pg.val s = true ∨ getFld pg.val 0 0x03C 0 16 s ≠ e.toNat →
      ∃ t, exec (.staleEpochDrop pg e) s = .next t ∧ bit (getReg pgBsn 0 0x020 t) 1 = true ∧
        (getReg pgBsn 0 0x13C t).toNat = min (2 ^ 32 - 1) ((getReg pgBsn 0 0x13C s).toNat + 1))) ∧
  (∀ (r : Requester) (v : Word) (d : Nat) (s : State), Heard r pgBsn 0x14C s = true → bit v 31 = true → d = fld v 0 7 →
    s.bsn.readmit = none →
    (domFenced d s = true → ∃ t, exec (.readmit r v) s = .next t ∧ t.bsn.readmit = some d ∧
      bit (getReg pgBsn 0 0x14C t) 31 = true ∧ getFld pgBsn 0 0x14C 28 2 t = 0) ∧
    (domFenced d s = false → ∃ t, exec (.readmit r v) s = .next t ∧ getFld pgBsn 0 0x14C 28 2 t = 3 ∧
      getFld pgBsn 0 0x14C 0 7 t = d ∧ OtherRegs (fun k => k = rk pgBsn 0 0x14C) s t ∧ RegsOnly s t)) ∧
  (∀ (d : Nat) (s : State), s.bsn.readmit = some d →
    (∃ t, exec (.readmitDone false) s = .next t ∧ t.bsn = { s.bsn with readmit := none } ∧
      bit (getReg pgBsn 0 0x14C t) 31 = false ∧ getFld pgBsn 0 0x14C 28 2 t = 2 ∧
      OtherRegs (fun k => k = rk pgBsn 0 0x14C) s t ∧ SameBytes s t) ∧
    (d < 80 → ∃ t, exec (.readmitDone true) s = .next t ∧ t.bsn.readmit = none ∧ getFld pgBsn 0 0x14C 28 2 t = 1 ∧
      domFenced d t = false ∧ fenced (pgSc d) t = false ∧ isolated (pgSc d) t = false ∧
      getFld (pgSc d) 0 0x03C 0 16 t = (getFld (pgSc d) 0 0x03C 0 16 s + 1) % 65536 ∧
      (∀ l, freeIndex (d / 5) s = some l → physOf l t = d) ∧
      (freeIndex (d / 5) s = none → spare (pgSc d) t = true))) ∧
  (∀ s : State,
    (pulsing s = true → ∃ t, exec .errnPulseEnd s = .next t ∧ pulsing t = false ∧
      t.pins = { s.pins with errN := bit (getReg pgBsn 0 0x148 s) 0 } ∧
      OtherRegs (fun k => k = rk pgBsn 0 0x148) s t) ∧
    (pulsing s = false → exec .errnPulseEnd s = .next (tidyMem s))) ∧
  (∀ (r : Requester) (pg : Fin 146) (v : Word) (s : State), Heard r pg.val 0x028 s = true → bit v 16 = true →
    ∃ t, exec (.fltInjArm r pg v) s = .next t ∧ FieldsWritten pg.val 0x028 v s t ∧
      OtherRegs (fun k => k = rk pg.val 0 0x028) s t ∧ RegsOnly s t)

/-! ## The security engine (R373 to R391) -/

/-- R376, R377, R380, R384 to R388, R391: SVN_ADV blows a version up to the running image's; MEAS_EXT extends a slot that the
writer may extend; an attestation request that nothing refuses waits its turn, and takes one leaf when it is signed; a committed
reservation moves RES_END; a valid debug token opens its scopes and is measured, another counts a try. (The model's own reading
where the spec leaves one: log 68, 69.) -/
def Obligations.SecurityEngineServesItsRequests : Prop :=
  (∀ (r : Requester) (v : Word) (s : State), Heard r pgSec 0x108 s = true →
    (r = .yns → svnFused s < fld v 0 7 → fld v 0 7 ≤ manSvn s.sec.manifest →
      ∃ t, exec (.svnAdvance r v) s = .next t ∧ svnFused t = fld v 0 7 ∧ t.regs = s.regs) ∧
    (r ≠ .yns ∨ fld v 0 7 ≤ svnFused s ∨ manSvn s.sec.manifest < fld v 0 7 →
      ∃ t, exec (.svnAdvance r v) s = .next t ∧ bit (getReg pgSec 0 0x100 t) 6 = true ∧
        OtherRegs (fun k => k = rk pgSec 0 0x100) s t ∧ RegsOnly s t)) ∧
  (∀ (r : Requester) (v : Word) (k : Nat) (s : State), Heard r pgSec 0x12C s = true → bit v 31 = true →
    k = getFld pgSec 0 0x128 0 3 s →
    (mayExtend r k = true → ∃ t, exec (.measurementExtend r v) s = .next t ∧
      measSlot k t = fitBytes 32 (Config.shake256 (measSlot k s ++ measData s)) ∧
      (∀ m, m < 8 → m ≠ k → measSlot m t = measSlot m s)) ∧
    (mayExtend r k = false → ∃ t, exec (.measurementExtend r v) s = .next t ∧ bit (getReg pgSec 0 0x12C t) 0 = true ∧
      OtherRegs (fun n => n = rk pgSec 0 0x12C) s t ∧ RegsOnly s t)) ∧
  (∀ (r : Requester) (b : AttBlock) (v : Word) (s : State),
    (match b with | .func f => HeardFn r f.val s = true | .sec => Heard r pgSec 0x1C8 s = true) → bit v 31 = true →
    (getFld pgAtt (attBank b) 0xC 0 3 s = 1 →
      ∃ t, exec (.attestRequest r b v) s = .next t ∧ t.sec = s.sec ∧ getFld pgAtt (attBank b) 0xC 0 3 t = 1) ∧
    (getFld pgAtt (attBank b) 0xC 0 3 s ≠ 1 → attRefuse (attFn b) (fld v 0 6) s = [] →
      ∃ t, exec (.attestRequest r b v) s = .next t ∧ getFld pgAtt (attBank b) 0xC 0 3 t = 1 ∧
        t.sec = { s.sec with queue := s.sec.queue ++
          [⟨attBank b, fld v 0 6, attFn b, getPair pgAtt (attBank b) 0 s, bit v 6, fld v 16 11, []⟩] }) ∧
    (getFld pgAtt (attBank b) 0xC 0 3 s ≠ 1 → attRefuse (attFn b) (fld v 0 6) s ≠ [] →
      ∃ t, exec (.attestRequest r b v) s = .next t ∧ t.sec = s.sec ∧
        getFld pgAtt (attBank b) 0xC 0 3 t ∈ attRefuse (attFn b) (fld v 0 6) s)) ∧
  (∀ s : State, s.sec.queue = [] ∨ dark pgSec s = true ∨ resEnd s ≤ resNext s →
    exec .attestComplete s = .next (tidyMem s)) ∧
  (∀ (a : AttReq) (rest : List AttReq) (s : State), s.sec.queue = a :: rest → dark pgSec s = false → resNext s < resEnd s →
    (a.block < 65 →
      ∃ t, exec .attestComplete s = .next t ∧ t.sec.queue = rest ∧
        (getFld pgAtt a.block 0xC 0 3 t = 2 ∨ getFld pgAtt a.block 0xC 0 3 t = 4) ∧
        (getFld pgAtt a.block 0xC 0 3 t = 2 → resNext t = resNext s + 1)) ∧
    (65 ≤ a.block →
      ∃ t, exec .attestComplete s = .next t ∧ t.sec.queue = rest ∧ resNext t = resNext s + 1 ∧
        tabFind (a.block - 65) t.mbx.pend = some (.final 0x08 0 0) ∧
        (getReg pgSec 0 0x124 t).toNat = min (2 ^ 32 - 1) ((getReg pgSec 0 0x124 s).toNat + 1))) ∧
  (∀ (e : Nat) (s : State), s.sec.resPending = some e → e < 2 ^ 64 →
    (leafWaits s = false → flashBytes (resAddr s.sec.resSeq) 16 s = resRecord e s.sec.resSeq →
      ∃ t, exec .leafReservationCommit s = .next t ∧ resEnd t = e ∧ t.sec = { s.sec with resPending := none } ∧
        OtherRegs (fun k => k = rk pgSec 0 0x118 ∨ k = rk pgSec 0 0x11C) s t) ∧
    (leafWaits s = true ∨ flashBytes (resAddr s.sec.resSeq) 16 s ≠ resRecord e s.sec.resSeq →
      exec .leafReservationCommit s = .next (tidyMem s))) ∧
  (∀ (k : List Byte) (s : State), dark pgSec s = false →
    (16 ≤ getFld pgSec 0 0x190 0 5 s → exec (.jtagDebugToken k) s = .next (tidyMem s)) ∧
    (getFld pgSec 0 0x190 0 5 s < 16 → tokenValid k s = true →
      ∃ t, exec (.jtagDebugToken k) s = .next t ∧ bit (getReg pgSec 0 0x100 t) 2 = true ∧
        getReg pgSec 0 0x194 t = getReg pgSec 0 0x194 s ||| w32 (leNat ((Config.tokenField 2 k).take 4)) ∧
        measSlot 0 t = fitBytes 32 (Config.shake256 (measSlot 0 s ++ Config.shake256 k)) ∧
        t.sec.attempts = s.sec.attempts + 1) ∧
    (getFld pgSec 0 0x190 0 5 s < 16 → tokenValid k s = false →
      ∃ t, exec (.jtagDebugToken k) s = .next t ∧ getFld pgSec 0 0x190 0 5 t = getFld pgSec 0 0x190 0 5 s + 1 ∧
        t.sec.attempts = s.sec.attempts + 1 ∧ OtherRegs (fun n => n = rk pgSec 0 0x190) s t))

/-! ## PCIe, the host and the CPU complex (R345, R350, R396 to R410) -/

/-- A function's disable runs: it is muted, and its DMA window is open (R206). -/
def Sys2Proof.Claims.BeingDisabled (f : Nat) (s : State) : Prop := (tabFind f s.fe.disabling).isSome = true

/-- The PCIe domain's registers are reset, and every function is being disabled (R206, R350, R402). -/
def Sys2Proof.Claims.PcieWasReset (t : State) : Prop :=
  (∀ off, off < 65536 → off ≠ 0x00C → off ≠ 0x03C → getReg pgPci 0 off t = resetVal pgPci 0 off) ∧
  t.pci.vfEnable = false ∧ t.pci.numVfs = 0 ∧ t.pci.d3 = [] ∧ ∀ f < 64, BeingDisabled f t

/-- R350: in hosted mode, without PERST_DEV, PCIE_PERST_N of a device that no reset holds resets the PCIe domain and disables every
function under R206; the rest of the device keeps running: no reset holds it, and its state and its boot stage are as they were. -/
def Obligations.PerstResetsThePcieDomainAndNoMore : Prop :=
  ∀ s : State, selfHosted s = false → s.pins.perstN = true → s.rst.held = false →
    bit (getReg pgRst 0 0x120 s) 1 = false →
    ∃ t, exec .pciePerst s = .next t ∧ PcieWasReset t ∧ inReset pgPci t = true ∧ t.pins.perstN = false ∧
      t.rst.held = false ∧ stage t = stage s ∧ devState t = devState s

/-- R350, R400 to R402, R404: PERST with PERST_DEV resets the device, which its release lets boot; training, a loss of the link,
VF Enable, an FLR and D3hot act on the functions that the host has, and on none while the link is down. (The model's own reading
where the spec leaves one: log 1, 70.) -/
def Obligations.PciePinsLinkAndFunctions : Prop :=
  (∀ s : State, selfHosted s = true ∨ s.pins.perstN = false → exec .pciePerst s = .next (tidyMem s)) ∧
  (∀ s : State, selfHosted s = false → s.pins.perstN = true →
    (s.rst.held = true →
      ∃ t, exec .pciePerst s = .next t ∧ t.pins = { s.pins with perstN := false } ∧ t.regs = s.regs ∧ t.fe = s.fe ∧
        SameBytes s t) ∧
    (s.rst.held = false → bit (getReg pgRst 0 0x120 s) 1 = true → s.pins.sysRstN = true → cstBusy s = false →
      ∃ t, exec .pciePerst s = .next t ∧ DeviceWasReset 5 true s t ∧ t.rst.perst = true ∧ t.pins.perstN = false)) ∧
  (∀ s : State, selfHosted s = false → s.pins.perstN = false →
    (devState s < 3 →
      ∃ t, exec .pciePerstNDeassert s = .next t ∧ t.pins.perstN = true ∧ t.rst.perst = false ∧ inReset pgPci t = false ∧
        (s.pins.sysRstN = true → s.pins.extest = false → t.rst.held = false)) ∧
    exec .pciePerstNDeassert s = exec (.wakeEvent .perst) s) ∧
  (∀ (speed : BitVec 3) (width : BitVec 5) (flit : Bool) (s : State),
    (s.rst.held = true ∨ dark pgPci s = true ∨ stage s < 3 ∨ linkShape speed.toNat width.toNat flit = false →
      exec (.pcieLinkUp speed width flit) s = .next (tidyMem s)) ∧
    (s.rst.held = false → dark pgPci s = false → 3 ≤ stage s → linkShape speed.toNat width.toNat flit = true →
      (if selfHosted s then bit (getReg pgPci 0 0x108 s) 31 = true else s.pins.perstN = true) →
      ∃ t, exec (.pcieLinkUp speed width flit) s = .next t ∧ getFld pgPci 0 0x100 1 3 t = speed.toNat ∧
        getFld pgPci 0 0x100 4 5 t = width.toNat ∧ bit (getReg pgPci 0 0x100 t) 9 = flit ∧
        bit (getReg pgPci 0 0x100 t) 0 = selfHosted s ∧ t.pins.wakeN = true ∧
        OtherRegs (fun k => k = rk pgPci 0 0x100) s t)) ∧
  (∀ (c : Instr) (s : State), c = .linkDown ∨ (∃ n, c = .vfEnable n) ∨ c = .vfEnableClear ∨ (∃ f, c = .flr f) ∨
      (∃ f, c = .d3hotEntry f) ∨ (∃ f, c = .d3hotExit f) → linkUp s = false → exec c s = .next (tidyMem s)) ∧
  (∀ s : State, linkUp s = true → ∃ t, exec .linkDown s = .next t ∧ PcieWasReset t) ∧
  (∀ (n : Nat) (s : State), linkUp s = true → s.pci.vfEnable = false →
    ∃ t, exec (.vfEnable n) s = .next t ∧
      t.pci = { s.pci with vfEnable := true, numVfs := if 63 < n then s.pci.numVfs else n } ∧ t.regs = s.regs ∧ t.fe = s.fe ∧
      SameBytes s t) ∧
  (∀ s : State, linkUp s = true → s.pci.vfEnable = true →
    ∃ t, exec .vfEnableClear s = .next t ∧ t.pci.vfEnable = false ∧ (∀ f, 1 ≤ f → f < 64 → BeingDisabled f t) ∧
      (tabFind 0 s.fe.disabling = none → tabFind 0 t.fe.disabling = none) ∧ ∀ f, f ≠ 0 → fnOn f t = false) ∧
  (∀ (f : Fin 64) (s : State), linkUp s = true →
    (fnOn f.val s = false → exec (.flr f) s = .next (tidyMem s) ∧ exec (.d3hotEntry f) s = .next (tidyMem s) ∧
      exec (.d3hotExit f) s = .next (tidyMem s)) ∧
    (fnOn f.val s = true → ∃ t, exec (.flr f) s = .next t ∧ tabFind f.val t.pci.inFlr = some true ∧ BeingDisabled f.val t ∧
      fnServed f.val t = false ∧ (f.val = 0 → t.pci.vfEnable = false ∧ ∀ g < 64, BeingDisabled g t)) ∧
    (fnOn f.val s = true → ∃ t, exec (.d3hotEntry f) s = .next t ∧ tabFind f.val t.pci.d3 = some true ∧
      fnServed f.val t = false ∧ t.regs = s.regs ∧ t.fe = s.fe ∧ SameBytes s t ∧
      ∀ g, g ≠ f.val → tabFind g t.pci.d3 = tabFind g s.pci.d3) ∧
    (fnOn f.val s = true → ∃ t, exec (.d3hotExit f) s = .next t ∧ tabFind f.val t.pci.d3 = none ∧ t.regs = s.regs ∧
      t.fe = s.fe ∧ SameBytes s t ∧ ∀ g, g ≠ f.val → tabFind g t.pci.d3 = tabFind g s.pci.d3))

/-- The HBM address of BAR2's offset 0: the window of BAR2_WIN (R397). -/
abbrev Sys2Proof.Claims.bar2Base (s : State) : Nat := getFld pgPci 0 0x104 0 9 s * 2 ^ 28

/-- R397, R399, R405, R408 to R410: BAR2 reads and writes HBM at its window, and counts what lies above the capacity; a host
read's data reach their channel or thread, and a poisoned or missing completion is counted and ends the thread's job; the root
port serves the CPU complex's devices through the tables of its slot; HART_CTL runs the harts that are not fenced; a write of
CCCR 0xF2 is the SDIO wake source. (The model's own reading where the spec leaves one: log 70, 71, 79.) -/
def Obligations.HostAndCpuAccessesAreServed : Prop :=
  (∀ (off len : Nat) (w : Option (List Byte)) (s : State), linkUp s = false →
    exec (.bar2Access off len w) s = .next (tidyMem s)) ∧
  (∀ (off len : Nat) (bs : List Byte) (s : State), linkUp s = true →
    (fnServed 0 s = false ∨ 2 ^ 37 < off + len →
      ∃ t, exec (.bar2Access off len none) s = .next t ∧ t.out = .unsupported :: s.out ∧ t.regs = s.regs ∧ SameBytes s t) ∧
    (fnServed 0 s = true → off + bs.length ≤ 2 ^ 37 → bar2Base s + off + bs.length ≤ hbmCap s →
      ∃ t, exec (.bar2Access off len (some bs)) s = .next t ∧ t.fe = s.fe ∧
        (s.hbc.pendInv = [] → hbmBytes (bar2Base s + off) bs.length t = bs ∧ HbmKept (bar2Base s + off) bs.length s t)) ∧
    (∀ s1, fnServed 0 s = true → off + len ≤ 2 ^ 37 → bar2Base s + off + len ≤ hbmCap s →
      hbmRead (off + bar2Base s) len s = (some bs, s1) →
      ∃ t, exec (.bar2Access off len none) s = .next t ∧ t.out = .cplData bs false :: s1.out ∧
        (s.hbc.pendInv = [] → SameBytes s t)) ∧
    (fnServed 0 s = true → off + bs.length ≤ 2 ^ 37 → bs ≠ [] → hbmCap s ≤ bar2Base s + off →
      ∃ t, exec (.bar2Access off len (some bs)) s = .next t ∧ SameBytes s t ∧
        (getReg pgPci 0 0x110 t).toNat = min (2 ^ 32 - 1) ((getReg pgPci 0 0x110 s).toNat + 1))) ∧
  (∀ (tag : Nat) (bad : Bool) (data : List Byte) (s : State), tabFind tag s.pci.reads = none →
    exec (.hostReadCompletion tag bad data) s = .next (tidyMem s) ∧ exec (.completionTimeout tag) s = .next (tidyMem s)) ∧
  (∀ (tag c : Nat) (r : HostRd) (x : Chan) (data : List Byte) (s : State), tabFind tag s.pci.reads = some r →
    r.waiter = .chan c → data.length = r.len → s.dma.chans = [(c, x)] → s.mmu.atsInv = [] →
    chanReading c { s with pci := { s.pci with reads := tabDel tag s.pci.reads } } = true →
    ∃ t, exec (.hostReadCompletion tag false data) s = .next t ∧ hostBytes r.addr r.len t = data ∧
      t.pci.reads = tabDel tag s.pci.reads ∧ chanOf c t = some { x with fetched := x.fetched + r.len } ∧ t.regs = s.regs) ∧
  (∀ (tag p g th dst w off : Nat) (r : HostRd) (x : Group) (data : List Byte) (s : State), tabFind tag s.pci.reads = some r →
    r.waiter = .thread p g th dst w off → groupOf p g s = some x → s.dma.chans = [] → data.length = r.len →
    ∃ t, exec (.hostReadCompletion tag false data) s = .next t ∧ hostBytes r.addr r.len t = data ∧
      t.pci.reads = tabDel tag s.pci.reads ∧ t.fe = s.fe ∧
      ∃ y old, groupOf p g t = some y ∧ old = toLE w (regVal x th (BitVec.ofNat 8 dst) (if w = 8 then 2 else 1)) ∧
        y.regs = (regLoad th (BitVec.ofNat 8 dst) w (leNat (old.take off ++
          (data.zipIdx).map (fun b => hostOverlay p (groupSlot x s) (r.addr + b.2) b.1 s) ++ old.drop (off + data.length)))
          (x, s)).1.regs) ∧
  (∀ (tag p g th dst w off : Nat) (r : HostRd) (x : Group) (b : Job) (data : List Byte) (s : State),
    tabFind tag s.pci.reads = some r → r.waiter = .thread p g th dst w off → groupOf p g s = some x → s.dma.chans = [] →
    tabFind x.job s.fe.jobs = some b → b.fin = none →
    (∃ t b' f, exec (.hostReadCompletion tag true data) s = .next t ∧ tabFind tag t.pci.reads = none ∧
      (getReg pgPci 0 0x11C t).toNat = min (2 ^ 32 - 1) ((getReg pgPci 0 0x11C s).toNat + 1) ∧
      tabFind x.job t.fe.jobs = some b' ∧ b'.fin = some f ∧ f.status = 1) ∧
    (∃ t b' f, exec (.completionTimeout tag) s = .next t ∧ tabFind tag t.pci.reads = none ∧
      (getReg pgPci 0 0x118 t).toNat = min (2 ^ 32 - 1) ((getReg pgPci 0 0x118 s).toNat + 1) ∧
      tabFind x.job t.fe.jobs = some b' ∧ b'.fin = some f ∧ f.status = 1)) ∧
  (∀ (q : InboundReq) (s : State), rootUp s = false → exec (.rootPortInboundRequest q) s = .next (tidyMem s)) ∧
  (∀ (a n : Nat) (bs : List Byte) (s : State), rootUp s = true → isRegSpace a = true →
    (∃ t, exec (.rootPortInboundRequest (.read a n)) s = .next t ∧ t.out = .unsupported :: s.out ∧ t.regs = s.regs ∧
      SameBytes s t) ∧
    (∃ t, exec (.rootPortInboundRequest (.write a bs)) s = .next t ∧ t.out = s.out ∧ t.regs = s.regs ∧ SameBytes s t) ∧
    (∃ t, exec (.rootPortInboundRequest (.translation a)) s = .next t ∧ t.out = .unsupported :: s.out ∧ t.regs = s.regs ∧
      SameBytes s t)) ∧
  (∀ (a n : Nat) (bs : List Byte) (s s1 : State), rootUp s = true → isRegSpace a = false →
    (isImsic a = true → ∃ t, exec (.rootPortInboundRequest (.write a bs)) s = .next t ∧ t.out = .imsic a bs :: s.out ∧
      t.regs = s.regs ∧ SameBytes s t) ∧
    (isImsic a = true → ∃ t, exec (.rootPortInboundRequest (.read a n)) s = .next t ∧
      t.out = .cplData (List.replicate n 0) false :: s.out ∧ t.regs = s.regs ∧ SameBytes s t) ∧
    (isImsic a = false → vaReadAll rqRoot (getFld pgPci 0 0x108 0 6 s) a n .rd s = (.ok bs, s1) →
      ∃ t, exec (.rootPortInboundRequest (.read a n)) s = .next t ∧ t.out = .cplData bs false :: s1.out) ∧
    (isImsic a = false → vaWriteAll rqRoot (getFld pgPci 0 0x108 0 6 s) a bs s = (.ok (), s1) →
      exec (.rootPortInboundRequest (.write a bs)) s = .next (tidyMem s1)) ∧
    (∀ k l va, isImsic a = false →
      vaReadAll rqRoot (getFld pgPci 0 0x108 0 6 s) a n .rd s = (.error (.xl k l, va), s1) →
      ∃ t, exec (.rootPortInboundRequest (.read a n)) s = .next t ∧ t.out = .completerAbort :: s1.out ∧
        (getReg pgPci 0 0x114 t).toNat = min (2 ^ 32 - 1) ((getReg pgPci 0 0x114 s1).toNat + 1))) ∧
  (∀ (r : Requester) (v : Word) (s : State), Heard r pgHcx 0x100 s = true →
    ∃ t, exec (.hartRun r v) s = .next t ∧ FieldsWritten pgHcx 0x100 v s t ∧ SameBytes s t ∧ t.fe = s.fe ∧
      ((∀ d, 96 ≤ d → d ≤ 104 → domainPowered d s = true) → RegsOnly s t) ∧
      (∀ h < 8, bit (getReg pgHcx 0 0x104 t) h = true → domainPowered (96 + h) t = true) ∧
      (∀ h < 8, bit (getReg pgHcx 0 0x104 t) h = (bit v h && !(domFenced (96 + h) s)) ∧
        bit (getReg pgHcx 0 0x104 t) (8 + h) =
          (bit (getReg pgHcx 0 0x104 s) (8 + h) && bit v h && !(domFenced (96 + h) s))) ∧
      OtherRegs (fun k => k = rk pgHcx 0 0x100 ∨ k = rk pgHcx 0 0x104) s t) ∧
  (∀ (v : Byte) (s : State), exec (.sdioWakeWrite v) s = exec (.wakeEvent .sdio) s ∧
    (s.rst.held = false → bit (getReg pgRst 0 0x108 s) (wakeBit .sdio) = true → wakeHolds .sdio s = true →
      s.rst.trans = none → devState s = 2 → s.rst.exiting = false →
      ∃ t, exec (.sdioWakeWrite v) s = .next t ∧ t.rst = { s.rst with exiting := true, exitSrc := 2 ^ wakeBit .sdio } ∧
        t.regs = s.regs))

/-! ## The management mailbox (R347, R412 to R415) -/

/-- The command is the row of Table 16-9 that the request's opcode names, or BAD_OP_REQUEST where it names none. -/
def Sys2Proof.Claims.MbRow (c : Instr) (p : MbPort) (q : MbReq) : Prop :=
  (q.op.toNat, c) ∈ [(0x01, Instr.getInfo p q), (0x02, .getTelemetry p q), (0x03, .readReg p q), (0x04, .writeReg p q),
    (0x05, .setState p q), (0x06, .devReset p q), (0x07, .getCert p q), (0x08, .attest p q), (0x09, .readLog p q),
    (0x0A, .debugToken p q), (0x0B, .imgBegin p q), (0x0C, .imgChunk p q), (0x0D, .imgEnd p q), (0x0E, .poll p q),
    (0x0F, .setSiteCfg p q)] ∨
  ((q.op.toNat = 0 ∨ 0x0F < q.op.toNat) ∧ c = .badOpRequest p q)

/-- The availability of a command in Table 16-9: R, F and Y. -/
def Sys2Proof.Claims.MbAvailable (op : Nat) (s : State) : Prop :=
  op = 0x01 ∨ op = 0x0E ∨ ((op = 0x07 ∨ op = 0x08) ∧ stage s = 6) ∨ (op = 0x0B ∧ (stage s = 7 ∨ stage s = 6)) ∨
  (op = 0x0C ∧ (stage s = 7 ∨ 3 ≤ stage s ∧ stage s ≤ 6)) ∨
  (op ∈ [0x02, 0x03, 0x04, 0x05, 0x06, 0x09, 0x0A, 0x0D, 0x0F] ∧ 3 ≤ stage s ∧ stage s ≤ 6)

/-- The command is served in the device state: S of Table 16-9. -/
def Sys2Proof.Claims.MbAwake (op : Nat) (s : State) : Prop := devState s = 2 → op ∈ [0x01, 0x02, 0x03, 0x05, 0x06, 0x0E]

/-- The port permits the command: SDI_CTL.WR_EN for the write-class commands over SDIO, and IMG_EN for those of an image at
READY (R414). -/
def Sys2Proof.Claims.MbPermitted (p : MbPort) (op : Nat) (s : State) : Prop :=
  p = .sdio → op ∈ [0x04, 0x05, 0x06, 0x0A, 0x0B, 0x0C, 0x0D, 0x0F] →
    bit (getReg pgSdi 0 0x100 s) 0 = true ∧
    (stage s = 6 → op ∈ [0x0B, 0x0C, 0x0D] → bit (getReg pgSdi 0 0x100 s) 1 = true)

/-- The request with opcode `op` reaches its port and is served there. -/
def Sys2Proof.Claims.MbServes (op : Nat) (p : MbPort) (q : MbReq) (s : State) : Prop :=
  portServed p s = true ∧ q.op.toNat = op ∧ MbAvailable op s ∧ MbAwake op s ∧ MbPermitted p op s ∧ q.len.toNat ≤ 1008

/-- The response that stands in a port: DONE and STATUS, the opcode and the tag echoed, RES0, RES1 and the payload (R413). -/
def Sys2Proof.Claims.MbAnswered (p : MbPort) (q : MbReq) (status : Nat) (r0 r1 : Word) (pl : List Byte) (u : State) : Prop :=
  getReg pgMb (portIdx p) 0x004 u = w32 (2 + status * 2 ^ 8) ∧
  getReg pgMb (portIdx p) 0x500 u = w32 (q.op.toNat + status * 2 ^ 8 + pl.length * 2 ^ 16) ∧
  getReg pgMb (portIdx p) 0x504 u = q.tag ∧ getReg pgMb (portIdx p) 0x508 u = r0 ∧ getReg pgMb (portIdx p) 0x50C u = r1 ∧
  areaBytes p 0x510 pl.length u = pl

/-- What an answer changes besides its port: the count of DENIED answers, and the pending bit of a masked vector. -/
def Sys2Proof.Claims.MbRegs (k : Nat) : Prop := k / 65536 / 512 = pgMb ∨ k / 65536 / 512 = pgPba ∨ k = rk pgSdi 0 0x10C

/-- The port answers without any other effect: `status`, RES0, RES1 and payload; an SDIO request also wakes. -/
def Sys2Proof.Claims.MbOnlyAnswers (p : MbPort) (q : MbReq) (status : Nat) (r0 r1 : Word) (pl : List Byte) (s : State) : Prop :=
  ∀ c, MbRow c p q → ∃ u, exec c s = .next (tidyMem (mbWake p u)) ∧ MbAnswered p q status r0 r1 pl u ∧
    OtherRegs MbRegs s u ∧ SameBytes s u ∧ u.fe = s.fe ∧ u.rst = s.rst ∧ u.cst = s.cst ∧ u.sec = s.sec ∧ u.mbx.pend = s.mbx.pend ∧
    u.mbx.img = s.mbx.img ∧
    (getReg pgSdi 0 0x10C u).toNat =
      if status = 3 then min (2 ^ 32 - 1) ((getReg pgSdi 0 0x10C s).toNat + 1) else (getReg pgSdi 0 0x10C s).toNat

/-- R412 to R414, R391: a port that carries no request takes none; a reserved opcode answers BAD_OP, SLEEP answers ASLEEP, a
boot stage without the command STAGE, a port without the permission DENIED (counted), a long payload BAD_ARG; each command of
Table 16-9 that is served answers its result with OP and TAG echoed. (The model's own reading where the spec leaves one: log 1,
72.) -/
def Obligations.MailboxRequestsAreCheckedAndAnswered : Prop :=
  (∀ (c : Instr) (p : MbPort) (q : MbReq) (s : State), MbRow c p q → portServed p s = false → exec c s = .next (tidyMem s)) ∧
  (∀ (p : MbPort) (q : MbReq) (s : State), portServed p s = true →
    (q.op.toNat = 0 ∨ 0x0F < q.op.toNat → MbOnlyAnswers p q 1 0 0 [] s) ∧
    (1 ≤ q.op.toNat → q.op.toNat ≤ 0x0F →
      (¬ MbAwake q.op.toNat s → MbOnlyAnswers p q 6 0 0 [] s) ∧
      (MbAwake q.op.toNat s → ¬ MbAvailable q.op.toNat s → MbOnlyAnswers p q 5 0 0 [] s) ∧
      (MbAwake q.op.toNat s → MbAvailable q.op.toNat s → ¬ MbPermitted p q.op.toNat s → MbOnlyAnswers p q 3 0 0 [] s) ∧
      (MbAwake q.op.toNat s → MbAvailable q.op.toNat s → MbPermitted p q.op.toNat s → 1008 < q.len.toNat →
        MbOnlyAnswers p q 2 0 0 [] s))) ∧
  (∀ (p : MbPort) (q : MbReq) (s : State),
    (MbServes 0x01 p q s → MbOnlyAnswers p q 0 0 0 (fitBytes 32 (Config.shake256 Config.identityKey) ++
      wordBytes [yReg pgYns 0x104 s, yReg pgRst 0x12C s, yReg pgRst 0x104 s, yReg pgRst 0x128 s, yReg pgSec 0x100 s,
        yReg pgCap 0x12C s]) s) ∧
    (MbServes 0x02 p q s → MbOnlyAnswers p q 0 0 0 (mbTelemetry s).payload s ∧ (mbTelemetry s).payload.length = 224)) ∧
  (∀ (p : MbPort) (q : MbReq) (v : Word) (s s1 : State), MbServes 0x03 p q s →
    (0x1000000 ≤ q.arg0.toNat → MbOnlyAnswers p q 3 0 0 [] s) ∧
    (q.arg0.toNat < 0x1000000 → pageAsleep q.arg0.toNat s = true → MbOnlyAnswers p q 6 0 0 [] s) ∧
    (q.arg0.toNat < 0x1000000 → pageAsleep q.arg0.toNat s = false → busRead .mb q.arg0.toNat 4 (placeReq p q s) = (v, s1) →
      ∃ u, exec (.readReg p q) s = .next (tidyMem (mbWake p u)) ∧ MbAnswered p q 0 v 0 [] u ∧ OtherRegs MbRegs s1 u ∧
        SameBytes s1 u ∧ u.fe = s1.fe)) ∧
  (∀ (p : MbPort) (q : MbReq) (s : State), MbServes 0x04 p q s →
    ((∀ pg ∈ [pgPwr, pgBsn, pgRst, pgAna, pgCst, pgSdi], mbPage q.arg0.toNat ≠ some pg) → MbOnlyAnswers p q 3 0 0 [] s) ∧
    (∀ pg ∈ [pgPwr, pgBsn, pgRst, pgAna, pgCst, pgSdi], mbPage q.arg0.toNat = some pg →
      ∃ u, exec (.writeReg p q) s = .next (tidyMem (mbWake p u)) ∧ MbAnswered p q 0 0 0 [] u ∧
        OtherRegs MbRegs (busWrite .mb q.arg0.toNat 4 q.arg1 (placeReq p q s)) u)) ∧
  (∀ (p : MbPort) (q : MbReq) (s : State), MbServes 0x05 p q s →
    (3 < q.arg0.toNat → MbOnlyAnswers p q 2 0 0 [] s) ∧
    (q.arg0.toNat ≤ 3 → bit (getReg pgRst 0 0x100 s) 31 = true → MbOnlyAnswers p q 4 (yReg pgRst 0x104 s) 0 [] s) ∧
    (∀ w, q.arg0.toNat ≤ 3 → bit (getReg pgRst 0 0x100 s) 31 = false →
      w = stateCtlWrite .yns (w32 (q.arg0.toNat + 2 ^ 31)) (placeReq p q s) →
      ∃ u, exec (.setState p q) s = .next (tidyMem (mbWake p u)) ∧ MbAnswered p q 0 (yReg pgRst 0x104 w) 0 [] u ∧
        getFld pgRst 0 0x100 0 2 u = q.arg0.toNat ∧ OtherRegs MbRegs w u ∧ u.rst = w.rst)) ∧
  (∀ (p : MbPort) (q : MbReq) (s : State), MbServes 0x06 p q s → s.pins.sysRstN = true → cstBusy s = false →
    ∃ u, exec (.devReset p q) s = .next (tidyMem (mbWake p u)) ∧ DeviceWasReset 2 (s.rst.perst || s.pins.extest) s u) ∧
  (∀ (p : MbPort) (q : MbReq) (s : State), MbServes 0x07 p q s →
    (Config.certificate.length < q.arg0.toNat → MbOnlyAnswers p q 2 0 0 [] s) ∧
    (∀ bs, q.arg0.toNat ≤ Config.certificate.length → bs = (Config.certificate.drop q.arg0.toNat).take 32768 →
      ∃ u, exec (.getCert p q) s = .next (tidyMem (mbWake p u)) ∧
        MbAnswered p q 0 (w32 Config.certificate.length) (w32 bs.length) [] u ∧ bulkBytes p 0 bs.length u = bs ∧
        OtherRegs MbRegs s u ∧ SameBytes s u)) ∧
  (∀ (p : MbPort) (q : MbReq) (s : State), MbServes 0x08 p q s →
    (q.len.toNat ≠ 96 → MbOnlyAnswers p q 2 0 0 [] s) ∧
    (q.len.toNat = 96 → pendRuns p s = true ∨ 16 ≤ attWaiting s → MbOnlyAnswers p q 4 0 0 [] s) ∧
    (q.len.toNat = 96 → pendRuns p s = false → attWaiting s < 16 → signOff s = true → MbOnlyAnswers p q 8 5 0 [] s) ∧
    (q.len.toNat = 96 → pendRuns p s = false → attWaiting s < 16 → signOff s = false → q.payload.length = 96 →
      ∃ u, exec (.attest p q) s = .next (tidyMem (mbWake p u)) ∧ MbAnswered p q 7 0 0 [] u ∧
        tabFind (portIdx p) u.mbx.pend = some (.running 0x08 0) ∧
        u.sec = { s.sec with queue := s.sec.queue ++ [⟨65 + portIdx p, 64, 64, 0, false, 0, q.payload⟩] } ∧
        OtherRegs MbRegs s u ∧ SameBytes s u)) ∧
  (∀ (p : MbPort) (q : MbReq) (rs : List (List Byte)) (s : State), MbServes 0x09 p q s →
    rs = ((logRecords s).drop q.arg0.toNat).take 512 →
    ∃ u, exec (.readLog p q) s = .next (tidyMem (mbWake p u)) ∧ MbAnswered p q 0 (w32 rs.length) 0 [] u ∧
      bulkBytes p 0 rs.flatten.length u = rs.flatten ∧ OtherRegs MbRegs s u ∧ SameBytes s u) ∧
  (∀ (p : MbPort) (q : MbReq) (s : State), MbServes 0x0A p q s →
    (32768 < q.arg0.toNat → MbOnlyAnswers p q 2 0 0 [] s) ∧
    (∀ w, q.bulk.length = q.arg0.toNat → q.arg0.toNat ≤ 32768 → w = Sys2Proof.Machine.debugToken q.bulk (placeReq p q s) →
      ∃ u, exec (.debugToken p q) s = .next (tidyMem (mbWake p u)) ∧ MbAnswered p q 0 (yReg pgSec 0x190 w) 0 [] u ∧
        OtherRegs MbRegs w u ∧ u.sec = w.sec)) ∧
  (∀ (p : MbPort) (q : MbReq) (s : State), MbServes 0x0E p q s →
    (tabFind (portIdx p) s.mbx.pend = none → MbOnlyAnswers p q 2 0 0 [] s) ∧
    (∀ op total, tabFind (portIdx p) s.mbx.pend = some (.running op total) →
      ∃ u w, exec (.poll p q) s = .next (tidyMem (mbWake p u)) ∧ MbAnswered p q 7 w 0 [] u ∧ u.mbx.pend = s.mbx.pend ∧
        (op = 0x0F → w = w32 (total - bytesWaiting (.site p) s)) ∧
        (∀ i, op = 0x0D → s.mbx.img = some i → i.port = p → i.phase = 3 → w = w32 (total - bytesWaiting (.image p) s)) ∧
        OtherRegs MbRegs s u ∧ SameBytes s u) ∧
    (∀ op st r, tabFind (portIdx p) s.mbx.pend = some (.final op st r) →
      ∃ u, exec (.poll p q) s = .next (tidyMem (mbWake p u)) ∧ MbAnswered p q st r 0 [] u ∧
        tabFind (portIdx p) u.mbx.pend = none ∧ OtherRegs MbRegs s u ∧ SameBytes s u))

/-- R347, R415: IMG_BEGIN opens the one session or answers BUSY; a chunk that breaks a condition answers BAD_ARG and changes
nothing, another is staged, and the one that completes segment 0 in RECOVERY starts its verification; IMG_END takes the whole
image; a verified segment 0 runs, a verified image is committed unit by unit, and a failure closes the session with its BOOT_ERR
code; SET_SITE_CFG checks the record, gives it the next SEQ and writes the older copy. (The model's own reading where the spec
leaves one: log 60, 72, 73.) -/
def Obligations.ImagesAndSiteRecordsAreTakenCheckedAndCommitted : Prop :=
  (∀ (p : MbPort) (q : MbReq) (s : State), MbServes 0x0B p q s →
    (∀ i, s.mbx.img = some i → i.port ≠ p ∨ i.phase = 3 → MbOnlyAnswers p q 4 0 0 [] s) ∧
    ((∀ i, s.mbx.img = some i → i.port = p ∧ i.phase ≠ 3) →
      (q.arg0.toNat = 0 ∨ 0x1000000 < q.arg0.toNat → MbOnlyAnswers p q 2 0 0 [] s) ∧
      (1 ≤ q.arg0.toNat → q.arg0.toNat ≤ 0x1000000 →
        ∃ u, exec (.imgBegin p q) s = .next (tidyMem (mbWake p u)) ∧ MbAnswered p q 0 0 0 [] u ∧
          u.mbx.img = some { port := p, len := q.arg0.toNat, got := [], recovery := stage s == 7 } ∧
          OtherRegs MbRegs s u ∧ SameBytes s u))) ∧
  (∀ (p : MbPort) (q : MbReq) (s : State), MbServes 0x0C p q s →
    (s.mbx.img = none → MbOnlyAnswers p q 2 0 0 [] s) ∧
    (∀ i, s.mbx.img = some i →
      (i.port ≠ p ∨ i.phase ≠ 0 ∨ imgWaits i s = true → MbOnlyAnswers p q 4 0 0 [] s) ∧
      (i.port = p → i.phase = 0 → imgWaits i s = false →
        (¬ (q.arg0.toNat = i.got.length ∧ 1 ≤ q.arg1.toNat ∧ q.arg1.toNat ≤ 32768 ∧
            (q.arg1.toNat % 4 = 0 ∨ q.arg0.toNat + q.arg1.toNat = i.len) ∧ q.arg0.toNat + q.arg1.toNat ≤ i.len) →
          MbOnlyAnswers p q 2 0 0 [] s) ∧
        (∀ j, chunkOk i q.arg0.toNat q.arg1.toNat = true → q.bulk.length = q.arg1.toNat →
          j = { i with got := i.got ++ q.bulk } →
          (stage s = 7 → seg0Arrived j = true →
            ∃ u, exec (.imgChunk p q) s = .next (tidyMem (mbWake p u)) ∧ MbAnswered p q 7 0 0 [] u ∧
              u.mbx.img = some { j with phase := 1 } ∧ tabFind (portIdx p) u.mbx.pend = some (.running 0x0C 0) ∧
              OtherRegs MbRegs s u) ∧
          ((stage s = 7 ∧ seg0Arrived j = false) ∨ (stage s ≠ 7 ∧ i.recovery = false) →
            ∃ u, exec (.imgChunk p q) s = .next (tidyMem (mbWake p u)) ∧ MbAnswered p q 0 0 0 [] u ∧
              u.mbx.img = some j ∧ u.mbx.pend = s.mbx.pend ∧ OtherRegs MbRegs s u) ∧
          (∀ w, stage s ≠ 7 → i.recovery = true → w = loadArrived q.arg0.toNat j (setImg (some j) (placeReq p q s)) →
            ∃ u, exec (.imgChunk p q) s = .next (tidyMem (mbWake p u)) ∧ u.mbx.img = w.mbx.img ∧ OtherRegs MbRegs w u ∧
              if w.mbx.img = none then MbAnswered p q 8 7 0 [] u else MbAnswered p q 0 0 0 [] u))))) ∧
  (∀ (p : MbPort) (q : MbReq) (s : State), MbServes 0x0D p q s →
    (s.mbx.img = none → MbOnlyAnswers p q 2 0 0 [] s) ∧
    (∀ i, s.mbx.img = some i →
      (i.port ≠ p ∨ i.phase ≠ 0 ∨ imgWaits i s = true ∨ pendRuns p s = true → MbOnlyAnswers p q 4 0 0 [] s) ∧
      (i.port = p → i.phase = 0 → imgWaits i s = false → pendRuns p s = false →
        (i.got.length ≠ i.len → MbOnlyAnswers p q 2 0 0 [] s) ∧
        (i.got.length = i.len →
          ∃ u, exec (.imgEnd p q) s = .next (tidyMem (mbWake p u)) ∧ MbAnswered p q 7 0 0 [] u ∧
            u.mbx.img = some { i with phase := 2, commit := bit q.arg1 0 } ∧
            tabFind (portIdx p) u.mbx.pend = some (.running 0x0D i.len) ∧ OtherRegs MbRegs s u)))) ∧
  (∀ s : State, (∀ i, s.mbx.img = some i → i.phase ≠ 1 ∧ i.phase ≠ 2) → exec .imageVerifyComplete s = .next (tidyMem s)) ∧
  (∀ (i : ImgSession) (s : State), s.mbx.img = some i → i.phase = 1 →
    (verifyImage (sessionBytes i) s = 0 → allReady s = false →
      ∃ t, exec .imageVerifyComplete s = .next t ∧ t.mbx.img = some { i with phase := 0 } ∧
        tabFind (portIdx i.port) t.mbx.pend = some (.final 0x0C 0 0) ∧ stage t = (if allInit s then 4 else 3) ∧
        getReg pgYns 0 0x104 t = manVer i.got ∧ t.sec.manifest = fitBytes 2048 i.got ∧ SameBytes s t) ∧
    (∀ code, verifyImage (sessionBytes i) s = code → code ≠ 0 →
      ∃ t, exec .imageVerifyComplete s = .next t ∧ t.mbx.img = none ∧
        tabFind (portIdx i.port) t.mbx.pend = some (.final 0x0C 8 (w32 code)) ∧ stage t = 7 ∧
        getFld pgSec 0 0x10C 0 4 t = code ∧
        getFld pgRst 0 0x12C 8 8 t = min 255 (getFld pgRst 0 0x12C 8 8 s + 1) ∧ SameBytes s t)) ∧
  (∀ (i : ImgSession) (s : State), s.mbx.img = some i → i.phase = 2 →
    (wholeCode i s = 0 → i.commit = false →
      ∃ t, exec .imageVerifyComplete s = .next t ∧ t.mbx.img = none ∧ t.cst = s.cst ∧ t.regs = s.regs ∧
        tabFind (portIdx i.port) t.mbx.pend = some (.final 0x0D 0 0) ∧ SameBytes s t) ∧
    (wholeCode i s = 0 → i.commit = true →
      ∃ t, exec .imageVerifyComplete s = .next t ∧ t.mbx.img = some { i with phase := 3 } ∧
        t.cst.queue = s.cst.queue ++ (writeUnits 0 i.got).map (fun u => (u, FlashOwner.image i.port)) ∧
        t.mbx.pend = s.mbx.pend ∧ OtherRegs (fun k => k = rk pgCst 0 0x114) s t ∧ SameBytes s t) ∧
    (∀ code, wholeCode i s = code → code ≠ 0 →
      ∃ t, exec .imageVerifyComplete s = .next t ∧ t.mbx.img = none ∧
        tabFind (portIdx i.port) t.mbx.pend = some (.final 0x0D 8 (w32 code)) ∧ stage t = stage s ∧
        getFld pgSec 0 0x10C 0 4 t = code ∧
        getFld pgRst 0 0x12C 8 8 t = min 255 (getFld pgRst 0 0x12C 8 8 s + 1) ∧ t.cst = s.cst ∧ SameBytes s t)) ∧
  (∀ s : State, (∀ i, s.mbx.img = some i → i.phase = 3 → ownerUnits (.image i.port) s ≠ 0) →
    exec .imageCommitComplete s = .next (tidyMem s)) ∧
  (∀ (i : ImgSession) (s : State), s.mbx.img = some i → i.phase = 3 → ownerUnits (.image i.port) s = 0 →
    ∃ t, exec .imageCommitComplete s = .next t ∧ t.mbx.img = none ∧ t.regs = s.regs ∧ SameBytes s t ∧
      tabFind (portIdx i.port) t.mbx.pend = some (.final 0x0D 0 0)) ∧
  (∀ (p : MbPort) (q : MbReq) (s : State), MbServes 0x0F p q s →
    (q.arg0.toNat < 16 ∨ 32768 < q.arg0.toNat → MbOnlyAnswers p q 2 0 0 [] s) ∧
    (∀ rd : Nat → Nat → List Byte, q.bulk.length = q.arg0.toNat → 16 ≤ q.arg0.toNat → q.arg0.toNat ≤ 32768 →
      (∀ a k, rd a k = memRead zeroByte (placeReq p q s).mbx.bulk (portIdx p * 2 ^ 15 + a) k) →
      (siteOk rd = false ∨ q.arg0.toNat ≠ 16 + 8 * leNat ((q.bulk.drop 4).take 4) → MbOnlyAnswers p q 2 0 0 [] s) ∧
      (siteOk rd = true → q.arg0.toNat = 16 + 8 * leNat ((q.bulk.drop 4).take 4) →
        (pendRuns p s = true ∨ ownerUnits (.site .sdio) s ≠ 0 ∨ ownerUnits (.site .host) s ≠ 0 →
          MbOnlyAnswers p q 4 0 0 [] s) ∧
        (pendRuns p s = false → ownerUnits (.site .sdio) s = 0 → ownerUnits (.site .host) s = 0 →
          ∃ u, exec (.setSiteCfg p q) s = .next (tidyMem (mbWake p u)) ∧ MbAnswered p q 7 0 0 [] u ∧
            tabFind (portIdx p) u.mbx.pend = some (.running 0x0F q.arg0.toNat) ∧
            u.cst.queue = s.cst.queue ++ (writeUnits (siteCopy (siteTarget s)) (siteStamp q.bulk (siteNext s))).map
              (fun x => (x, FlashOwner.site p)) ∧
            OtherRegs (fun k => MbRegs k ∨ k = rk pgCst 0 0x114) s u))))

/-! ## Svaumon ports and flits (R418 to R422, R425 to R428) -/

/-- The flits of a port that an ACK leaves unacknowledged. -/
abbrev Sys2Proof.Claims.unacked (w0 : Word) (p : SvlPort) : List (Nat × Nat × List Byte) :=
  match p.retry.findIdx? (fun e => e.1 == fld w0 20 12) with
  | some i => p.retry.drop (i + 1)
  | none => p.retry

/-- The replays of a port in a row after an ACK: an advance of ACK ends the row (R420). -/
abbrev Sys2Proof.Claims.replaysAfter (w0 : Word) (p : SvlPort) : Nat :=
  if (p.retry.findIdx? (fun e => e.1 == fld w0 20 12)).isSome then 0 else p.replays

/-- A flit's words 0 and 1, and that it passes the CRC with its FTYPE (Tables 17-1, 17-2). -/
def Sys2Proof.Claims.FlitOk (ftype : Nat) (flit body : List Byte) (w0 w1 : Word) : Prop :=
  flit.length = 256 ∧ body = (fecDecode flit).1.take 240 ∧
  leNat (((fecDecode flit).1.drop 240).take 4) = (crc32c body).toNat ∧ w0 = w32 (leNat (body.take 4)) ∧
  w1 = w32 (leNat ((body.drop 4).take 4)) ∧ fld w0 0 4 = ftype

/-- ACK and credits of a flit are taken, and FEC_CNT counts the bytes corrected (R419 to R421). -/
def Sys2Proof.Claims.AckTaken (k : Fin 4) (flit : List Byte) (w0 w1 : Word) (s t : State) : Prop :=
  (portOf k.val t).cr = List.zipWith (· + ·) (portOf k.val s).cr [fld w1 0 8, fld w1 8 8, fld w1 16 8] ∧
  (portOf k.val t).retry = unacked w0 (portOf k.val s) ∧
  (getReg (pgSvl k.val) 0 0x10C t).toNat =
    min (2 ^ 32 - 1) ((getReg (pgSvl k.val) 0 0x10C s).toNat + (fecDecode flit).2)

/-- A flit has been discarded: it counts, and one NAK goes out until a flit arrives in order (R420). -/
def Sys2Proof.Claims.FlitDiscarded (k : Fin 4) (s t : State) : Prop :=
  (getReg (pgSvl k.val) 0 0x110 t).toNat = min (2 ^ 32 - 1) ((getReg (pgSvl k.val) 0 0x110 s).toNat + 1) ∧
  (portOf k.val t).nak = true ∧ (portOf k.val t).rxNext = (portOf k.val s).rxNext ∧ t.svl.inbox = s.svl.inbox ∧
  OtherRegs (fun n => n = rk (pgSvl k.val) 0 0x10C ∨ n = rk (pgSvl k.val) 0 0x110) s t ∧ SameBytes s t

/-- A flit that a port sends: FTYPE, VC, SEQ, the current ACK and the credits freed. -/
abbrev Sys2Proof.Claims.sentFlit (k : Fin 4) (ftype vc seq : Nat) (payload : List Byte) (s : State) : OutEvent :=
  .flit k.val (flitBytes ftype vc seq ((portOf k.val s).rxNext + 4095) ((portOf k.val s).freed.map (min 255)) payload)

/-- The port has gone down (R427): what it held is lost, its SVL_PEER source is set, and REACH clears behind it. -/
def Sys2Proof.Claims.PortLost (k : Fin 4) (s t : State) : Prop :=
  getFld (pgSvl k.val) 0 0x100 0 2 t = 0 ∧ portOf k.val t = {} ∧ bit (getReg (pgSvl k.val) 0 0x020 t) 0 = true ∧
  (∀ m, m < 2 ^ domDim s → routePort (ownNode s) m = some k.val → bit (getReg (pgSvl 0) 0 0x208 t) m = false) ∧
  (k.val < domDim s → bit (getReg (pgSvl 0) 0 0x208 t) 16 = false)

/-- A descriptor without SIG_EN has ended: LR_CONS has counted, and the first failure is captured (R430). -/
def Sys2Proof.Claims.DescriptorFailed (r : Nat) (reason : Nat) (s t : State) : Prop :=
  (lringOf r t).run = none ∧ getReg (pgSvl 0) r 0x228 t = getReg (pgSvl 0) r 0x228 s + 1 ∧
  (bit (getReg (pgSvl 0) r 0x234 s) 31 = false → getFld (pgSvl 0) r 0x230 16 16 t = reason ∧
    getReg (pgSvl 0) r 0x234 t = w32 ((getReg (pgSvl 0) r 0x228 s).toNat % 2 ^ 31 + 2 ^ 31))

/-- R428: what needs the lost port ends: a transfer of a ring with FAULT and LINK_LOST, a remote WAIT with ABANDONED. -/
def Sys2Proof.Claims.LossEnds (k : Fin 4) (c : Instr) (s : State) : Prop :=
  (∀ (r : Fin 16) (x : LinkRun) (e : Nat × LinkReq), (lringOf r.val s).run = some x → isColl x.desc = false →
    ldBit x.desc 10 = false → e ∈ s.svl.tags → e.2.who = .ring r.val → e.2.op ≠ 6 → e.2.node ≠ ownNode s →
    routePort (ownNode s) e.2.node = some k.val →
    ∃ t, exec c s = .next t ∧ PortLost k s t ∧ DescriptorFailed r.val rLinkLost s t) ∧
  (∀ (n a b : Nat) (q : LinkReq), (∀ r < 16, (lringOf r s).run = none) → s.svl.tags = [(n, q)] → q.who = .queue a b →
    q.op = 6 → q.sub = 2 → q.node ≠ ownNode s → routePort (ownNode s) q.node = some k.val →
    ∃ w, exec c s = .next (tidyMem (waitDone (.queue a b) (.ok 1) w)) ∧ w.svl.tags = [] ∧ w.fe = s.fe ∧ PortLost k s w)

/-- R419 to R422, R425, R427, R428: training admits a port whose peer agrees and records the cause otherwise; a flit whose CRC
fails is discarded with one NAK, another one's ACK and credits are taken; a NAK replays the unacknowledged flits in order, the
eighth time in a row or a lane error starts a retrain; heartbeats are sent on their period, and their silence is peer loss. (The
model's own reading where the spec leaves one: log 1, 74, 75.) -/
def Obligations.PortsTrainRetryAndDetectLoss : Prop :=
  (∀ (k : Fin 4) (i : TrainInfo) (s : State),
    bit (getReg (pgSvl k.val) 0 0x104 s) 0 = false ∨ domDim s ≤ k.val ∨ portTrained k.val s = true ∨ dark (pgSvl k.val) s = true →
    exec (.portTraining k i) s = .next (tidyMem s) ∧ exec (.portRetrainTimer k) s = .next (tidyMem s)) ∧
  (∀ (k : Fin 4) (i : TrainInfo) (s : State), bit (getReg (pgSvl k.val) 0 0x104 s) 0 = true → k.val < domDim s →
    portTrained k.val s = false → dark (pgSvl k.val) s = false →
    (i.ok = false → ∃ t, exec (.portTraining k i) s = .next t ∧ getFld (pgSvl k.val) 0 0x100 8 3 t = 4 ∧
      OtherRegs (fun n => n = rk (pgSvl k.val) 0 0x100) s t ∧ RegsOnly s t) ∧
    (∀ e, i.ok = true →
      e = (if i.node.toNat ≠ ownNode s ^^^ 2 ^ k.val then 1 else if min 4 i.dim.toNat ≠ domDim s then 2
        else if i.tag ≠ domTag s then 3 else 0) →
      (e ≠ 0 → ∃ t, exec (.portTraining k i) s = .next t ∧ getFld (pgSvl k.val) 0 0x100 8 3 t = e ∧
        getFld (pgSvl k.val) 0 0x100 4 4 t = i.node.toNat ∧ getReg (pgSvl k.val) 0 0x118 t = i.peerId0 ∧
        getReg (pgSvl k.val) 0 0x11C t = i.peerId1 ∧ portTrained k.val t = false ∧ RegsOnly s t) ∧
      (e = 0 → ∃ t, exec (.portTraining k i) s = .next t ∧ portTrained k.val t = true ∧ portUp k.val t = true ∧
        getFld (pgSvl k.val) 0 0x100 8 3 t = 0 ∧ getReg (pgSvl k.val) 0 0x118 t = i.peerId0 ∧
        getReg (pgSvl k.val) 0 0x11C t = i.peerId1 ∧ portOf k.val t = { cr := [i.cr0, i.cr1, i.cr2] } ∧
        (∀ m, m < 16 → bit (getReg (pgSvl 0) 0 0x208 t) m =
          (bit (getReg (pgSvl 0) 0 0x208 s) m ||
            (decide (m < 2 ^ domDim s) && routePort (ownNode s) m == some k.val))) ∧
        (bit (getReg (pgSvl 0) 0 0x208 t) 16 = true ↔ ∀ j, j < domDim s → bit (getReg (pgSvl j) 0 0x100 t) 1 = true) ∧
        SameBytes s t)) ∧
    ((portOf k.val s).train < 1000 → exec (.portRetrainTimer k) s = .next (tidyMem s)) ∧
    (1000 ≤ (portOf k.val s).train → ∃ t, exec (.portRetrainTimer k) s = .next t ∧
      t.out = sentFlit k 4 0 0 (trainPayload s) s :: s.out ∧ (portOf k.val t).train = 0 ∧ t.regs = s.regs ∧
      SameBytes s t)) ∧
  (∀ (k : Fin 4) (c : Instr) (ftype : Nat) (flit : List Byte) (s : State),
    (ftype, c) ∈ [(0, Instr.idleFlitReceive k flit), (1, .dataFlitReceive k flit), (2, .nakReceive k flit),
      (3, .heartbeatReceive k flit)] →
    (portTrained k.val s = false → exec c s = .next (tidyMem s)) ∧
    (portTrained k.val s = true →
      flit.length ≠ 256 ∨ leNat (((fecDecode flit).1.drop 240).take 4) ≠ (crc32c ((fecDecode flit).1.take 240)).toNat →
      ∃ t, exec c s = .next t ∧ FlitDiscarded k s t ∧
        t.out = (if (portOf k.val s).nak then [] else [sentFlit k 2 0 (portOf k.val s).txSeq [] s]) ++ s.out) ∧
    (∀ n body w0 w1, portTrained k.val s = true → FlitOk n flit body w0 w1 → n ≠ ftype → exec c s = .next (tidyMem s))) ∧
  (∀ (k : Fin 4) (flit body : List Byte) (w0 w1 : Word) (s : State), portTrained k.val s = true → (portOf k.val s).txq = [] →
    (FlitOk 0 flit body w0 w1 → ∃ t, exec (.idleFlitReceive k flit) s = .next t ∧ AckTaken k flit w0 w1 s t ∧ t.out = s.out ∧
      OtherRegs (fun n => n = rk (pgSvl k.val) 0 0x10C) s t ∧ SameBytes s t) ∧
    (FlitOk 3 flit body w0 w1 → ∃ t, exec (.heartbeatReceive k flit) s = .next t ∧ AckTaken k flit w0 w1 s t ∧
      (portOf k.val t).loss = 0 ∧ t.out = s.out ∧ OtherRegs (fun n => n = rk (pgSvl k.val) 0 0x10C) s t ∧ SameBytes s t) ∧
    (FlitOk 2 flit body w0 w1 →
      (unacked w0 (portOf k.val s) = [] → ∃ t, exec (.nakReceive k flit) s = .next t ∧ AckTaken k flit w0 w1 s t ∧
        t.out = s.out ∧ OtherRegs (fun n => n = rk (pgSvl k.val) 0 0x10C) s t) ∧
      (unacked w0 (portOf k.val s) ≠ [] →
        ∃ t, exec (.nakReceive k flit) s = .next t ∧ AckTaken k flit w0 w1 s t ∧
          (getReg (pgSvl k.val) 0 0x108 t).toNat = min (2 ^ 32 - 1) ((getReg (pgSvl k.val) 0 0x108 s).toNat + 1) ∧
          (replaysAfter w0 (portOf k.val s) < 7 → (portOf k.val t).retraining = (portOf k.val s).retraining ∧
            (portOf k.val t).replays = replaysAfter w0 (portOf k.val s) + 1 ∧
            ((portOf k.val s).freed = [0, 0, 0] → t.out =
              ((unacked w0 (portOf k.val s)).map (fun e => sentFlit k 1 e.2.1 e.1 e.2.2 s)).reverse ++ s.out)) ∧
          (7 ≤ replaysAfter w0 (portOf k.val s) → (portOf k.val t).retraining = true ∧
            bit (getReg (pgSvl k.val) 0 0x020 t) 1 = true)))) ∧
  (∀ (k : Fin 4) (s : State),
    (portTrained k.val s = false → exec (.laneError k) s = .next (tidyMem s)) ∧
    (portTrained k.val s = true → ∃ t, exec (.laneError k) s = .next t ∧
      portOf k.val t = { portOf k.val s with retraining := true, replays := 0 } ∧
      bit (getReg (pgSvl k.val) 0 0x020 t) 1 = true ∧
      (getReg (pgSvl k.val) 0 0x02C t).toNat = min (2 ^ 32 - 1) ((getReg (pgSvl k.val) 0 0x02C s).toNat + 1) ∧
      SameBytes s t) ∧
    (∀ ok, (portOf k.val s).retraining = false → exec (.linkRetrainComplete k ok) s = .next (tidyMem s)) ∧
    ((portOf k.val s).retraining = true → (portOf k.val s).txq = [] → (portOf k.val s).replays < 7 →
      ∃ t, exec (.linkRetrainComplete k true) s = .next t ∧ (portOf k.val t).retraining = false ∧
        (portOf k.val t).retry = (portOf k.val s).retry ∧ (portOf k.val t).rxNext = (portOf k.val s).rxNext ∧
        (portOf k.val t).txSeq = (portOf k.val s).txSeq ∧ (portOf k.val t).cr = (portOf k.val s).cr ∧
        ((portOf k.val s).freed = [0, 0, 0] → t.out =
          ((portOf k.val s).retry.map (fun e => sentFlit k 1 e.2.1 e.1 e.2.2 s)).reverse ++ s.out)) ∧
    ((portOf k.val s).retraining = true →
      (∃ t, exec (.linkRetrainComplete k false) s = .next t ∧ PortLost k s t) ∧ LossEnds k (.linkRetrainComplete k false) s)) ∧
  (∀ (k : Fin 4) (s : State),
    (portUp k.val s = false ∨ (portOf k.val s).hb < max 1 (getFld (pgSvl k.val) 0 0x104 8 8 s) →
      exec (.heartbeatSend k) s = .next (tidyMem s)) ∧
    (portUp k.val s = true → max 1 (getFld (pgSvl k.val) 0 0x104 8 8 s) ≤ (portOf k.val s).hb →
      ∃ t, exec (.heartbeatSend k) s = .next t ∧ t.out = sentFlit k 3 0 (portOf k.val s).txSeq [] s :: s.out ∧
        (portOf k.val t).hb = 0 ∧ t.regs = s.regs ∧ SameBytes s t) ∧
    (portUp k.val s = false ∨ (portOf k.val s).loss < max 1 (getFld (pgSvl k.val) 0 0x104 16 8 s) →
      exec (.peerLoss k) s = .next (tidyMem s)) ∧
    (portUp k.val s = true → max 1 (getFld (pgSvl k.val) 0 0x104 16 8 s) ≤ (portOf k.val s).loss →
      (∃ t, exec (.peerLoss k) s = .next t ∧ PortLost k s t) ∧ LossEnds k (.peerLoss k) s)) ∧
  (∀ (k : Fin 4) (flit body : List Byte) (w0 w1 : Word) (s : State), portTrained k.val s = true → FlitOk 1 flit body w0 w1 →
    (fld w0 8 12 ≠ (portOf k.val s).rxNext → ∃ t, exec (.dataFlitReceive k flit) s = .next t ∧ FlitDiscarded k s t) ∧
    (fld w0 8 12 = (portOf k.val s).rxNext →
      (∃ t, exec (.dataFlitReceive k flit) s = .next t ∧ (portOf k.val t).nak = false ∧
        (portOf k.val t).rxNext = ((portOf k.val s).rxNext + 1) % 4096) ∧
      (∀ (q : Packet) (n vc : Nat), vc = fld w0 4 2 → vc < 3 → fld w0 6 2 = 0 → leNat ((body.drop 7).take 1) = 0 →
        tabGet [] vc (portOf k.val s).part = [] → body.drop 8 = packetBytes q ++ List.replicate n 0 →
        q.data.length = dataLen q.op.toNat q.len.toNat → q.op ≠ 0 →
        (packetBad vc (w32 (leNat (body.drop 8 |>.take 4))) q = true →
          ∃ t, exec (.dataFlitReceive k flit) s = .next t ∧ t.svl.inbox = s.svl.inbox ∧
            (getReg (pgSvl k.val) 0 0x110 t).toNat = min (2 ^ 32 - 1) ((getReg (pgSvl k.val) 0 0x110 s).toNat + 1)) ∧
        (packetBad vc (w32 (leNat (body.drop 8 |>.take 4))) q = false →
          (q.dst.toNat = ownNode s →
            ∃ t, exec (.dataFlitReceive k flit) s = .next t ∧ t.svl.inbox = s.svl.inbox ++ [q] ∧
              OtherRegs (fun m => m = rk (pgSvl k.val) 0 0x10C) s t ∧ SameBytes s t) ∧
          (∀ j, routePort (ownNode s) q.dst.toNat = some j → j ≠ k.val → portUp j s = true → (packetBytes q).length ≤ 232 →
            (portOf j s).txq = [] → (portOf j s).retraining = false → (portOf j s).retry.length < 1024 →
            0 < nth 0 (portOf j s).cr vc →
            ∃ t, exec (.dataFlitReceive k flit) s = .next t ∧ t.svl.inbox = s.svl.inbox ∧
              (portOf j t).retry = (portOf j s).retry ++ [((portOf j s).txSeq, vc, packetBytes q)] ∧
              (portOf j t).txSeq = ((portOf j s).txSeq + 1) % 4096 ∧ nth 0 (portOf j t).cr vc = nth 0 (portOf j s).cr vc - 1) ∧
          (∀ j, routePort (ownNode s) q.dst.toNat = some j → portUp j s = false →
            ¬ (q.op.toNat = 2 ∨ q.op.toNat = 4 ∨ (q.op.toNat = 1 ∧ q.sub.toNat = 1)) →
            ∃ t, exec (.dataFlitReceive k flit) s = .next t ∧ t.svl.inbox = s.svl.inbox ∧
              ∀ j', j' ≠ k.val → portOf j' t = portOf j' s)))))

/-! ## Svaumon packets (R423 to R426, R431, R433, R436, R437) -/

/-- The packet is the first of its stream that waits at this node (R423). -/
def Sys2Proof.Claims.Arrived (op : Nat) (p : Packet) (s : State) : Prop :=
  dark (pgSvl 0) s = false ∧ p.op.toNat = op ∧
  s.svl.inbox.find? (fun q => q.src == p.src && vcOf q.op.toNat == vcOf p.op.toNat) = some p

/-- The state with that packet taken out. -/
abbrev Sys2Proof.Claims.taken (p : Packet) (s : State) : State := { s with svl := { s.svl with inbox := s.svl.inbox.erase p } }

/-- The state with the packet taken out and the request that it answers ended. -/
abbrev Sys2Proof.Claims.answered (p : Packet) (s : State) : State :=
  { s with svl := { s.svl with inbox := s.svl.inbox.erase p, tags := tabDel p.tag.toNat s.svl.tags } }

/-- The packet has gone out on its route with the next PSEQ of its stream: a port that may send it holds it in its retry
buffer (R420, R421, R423, R426). -/
def Sys2Proof.Claims.PacketSent (q : Packet) (s t : State) : Prop :=
  ∀ i, routePort (ownNode s) q.dst.toNat = some i → reachable q.dst.toNat s = true → (portOf i s).txq = [] →
    (portOf i s).retraining = false → (portOf i s).retry.length < 1024 → 0 < nth 0 (portOf i s).cr (vcOf q.op.toNat) →
    (packetBytes q).length ≤ 232 →
    (portOf i t).retry = (portOf i s).retry ++ [((portOf i s).txSeq, vcOf q.op.toNat,
      packetBytes { q with pseq := BitVec.ofNat 16 (tabGet 0 (q.dst.toNat * 4 + vcOf q.op.toNat) s.svl.pOut) })]

/-- A response with an operation and data has gone out to a packet's source. -/
def Sys2Proof.Claims.AnswerSent (p : Packet) (op : Nat) (data : List Byte) (s t : State) : Prop :=
  PacketSent (mkPacket op p.src.toNat p.slot.toNat p.tag.toNat data.length 0 0 data s) s t

/-- An inbound access that is refused: counted at the port it came by, not performed (R424). -/
def Sys2Proof.Claims.InboundRefused (p : Packet) (s t : State) : Prop :=
  (getReg (pgSvl (arrivalPort p s)) 0 0x114 t).toNat =
    min (2 ^ 32 - 1) ((getReg (pgSvl (arrivalPort p s)) 0 0x114 s).toNat + 1) ∧
  OtherRegs (fun n => n = rk (pgSvl (arrivalPort p s)) 0 0x114) s t ∧ SameBytes s t ∧ t.fe = s.fe ∧ t.fnc = s.fnc

/-- A descriptor without SIG_EN has ended with OK: LR_CONS has counted, and no failure is captured for it (R430). -/
def Sys2Proof.Claims.DescriptorEnded (r : Nat) (s t : State) : Prop :=
  (lringOf r t).run = none ∧ getReg (pgSvl 0) r 0x228 t = getReg (pgSvl 0) r 0x228 s + 1 ∧
  getReg (pgSvl 0) r 0x234 t = getReg (pgSvl 0) r 0x234 s ∧
  getFld (pgSvl 0) r 0x230 16 16 t = getFld (pgSvl 0) r 0x230 16 16 s

/-- The fence unit writes its records without an injected error (R369). -/
def Sys2Proof.Claims.NoFenceInjection (s : State) : Prop := NoInjection s ∧ bit (getReg pgFnc 0 0x028 s) 16 = false

/-- The fence operation that a packet asks for: fence `i` and the function of the packet's slot; what the read of the entry answers, and
the state that it leaves (R200, R437). -/
def Sys2Proof.Claims.FenceRead (sub : Nat) (p : Packet) (i fn : Nat) (bad : Option (Nat × Nat)) (s s1 : State) : Prop :=
  Arrived 6 p s ∧ p.sub.toNat = sub ∧ slotOpen p.slot.toNat s = true ∧ i = p.arg.toNat % 2 ^ 20 ∧
  fn = (slotOf p.slot.toNat s).func ∧ nameFails fn ⟨p.slot.toNat, 0, 0, true⟩ i (taken p s) = (bad, s1)

/-- The same with an entry that could be read. -/
def Sys2Proof.Claims.FenceAsked (sub : Nat) (p : Packet) (i fn : Nat) (e : FenceEnt) (s s1 : State) : Prop :=
  FenceRead sub p i fn none s s1 ∧ e = fenceGet i s1

/-- The request of a ring that a packet answers, and the ring's descriptor. -/
def Sys2Proof.Claims.AnswersRing (op : Nat) (p : Packet) (q : LinkReq) (r : Nat) (x : LinkRun) (s : State) : Prop :=
  Arrived op p s ∧ tabFind p.tag.toNat s.svl.tags = some q ∧ q.node = p.src.toNat ∧ q.who = .ring r ∧ r < 16 ∧
  (lringOf r s).run = some x ∧ ldBit x.desc 10 = false

/-- No other request of the ring waits for its response. -/
def Sys2Proof.Claims.LastOfRing (p : Packet) (r : Nat) (s : State) : Prop :=
  ∀ e ∈ s.svl.tags, e.1 ≠ p.tag.toNat → e.2.who = .ring r → e.2.op = 6

/-- R423, R424, R431, R433, R436, R437: a packet is performed when it is its stream's first; an access of a slot that is not
ACTIVE, not enabled or not translated is refused, answered and counted; WRITE, READ and ATOMIC act on the slot's memory; fence
operations act as the slot; a response ends its request, and the last one its descriptor; a collective's packets wait for their
ring. (The model's own reading where the spec leaves one: log 1, 36, 74, 76, 77.) -/
def Obligations.PacketsArePerformedAndAnswered : Prop :=
  (∀ (c : Instr) (op : Nat) (p : Packet) (s : State),
    (op, c) ∈ [(1, Instr.linkWrite p), (2, .linkRead p), (3, .linkReadRsp p), (4, .linkAtomic p), (5, .linkAtomicRsp p),
      (6, .linkFenceSignal p), (6, .linkFenceReset p), (6, .linkFenceRegisterWait p), (7, .fenceNotify p), (8, .linkAck p),
      (9, .errorRsp p), (10, .collStep p), (11, .linkBarrier p), (12, .snapMark p)] → ¬ Arrived op p s →
    exec c s = .next (tidyMem s)) ∧
  (∀ (p : Packet) (s : State), slotOpen p.slot.toNat s = false →
    (Arrived 1 p s → ∃ t, exec (.linkWrite p) s = .next t ∧ InboundRefused p s t ∧
      (p.sub.toNat % 2 = 1 → AnswerSent p 8 (toLE 4 (1 + 0x0016 * 2 ^ 16)) s t) ∧
      (p.sub.toNat % 2 = 0 → t.svl = (taken p s).svl ∧ t.out = s.out)) ∧
    (Arrived 2 p s → ∃ t, exec (.linkRead p) s = .next t ∧ InboundRefused p s t ∧
      AnswerSent p 9 (toLE 4 (0x0016 * 2 ^ 16)) s t) ∧
    (Arrived 4 p s → ∃ t, exec (.linkAtomic p) s = .next t ∧ InboundRefused p s t ∧
      AnswerSent p 9 (toLE 4 (0x0016 * 2 ^ 16)) s t) ∧
    (∀ c, (p.sub.toNat, c) ∈ [(0, Instr.linkFenceSignal p), (1, .linkFenceReset p), (2, .linkFenceRegisterWait p)] →
      Arrived 6 p s → ∃ t, exec c s = .next t ∧ InboundRefused p s t ∧ AnswerSent p 9 (toLE 4 (0x0003 * 2 ^ 16)) s t)) ∧
  (∀ (p : Packet) (r : Nat) (s s1 : State),
    (Arrived 1 p s → inboundRefused p p.data.length .wr (taken p s) = (some r, s1) →
      ∃ t, exec (.linkWrite p) s = .next t ∧ InboundRefused p s1 t ∧
        (p.sub.toNat % 2 = 1 → AnswerSent p 8 (toLE 4 (1 + r * 2 ^ 16)) s t)) ∧
    (Arrived 2 p s → inboundRefused p p.len.toNat .rd (taken p s) = (some r, s1) →
      ∃ t, exec (.linkRead p) s = .next t ∧ InboundRefused p s1 t ∧ AnswerSent p 9 (toLE 4 (r * 2 ^ 16)) s t)) ∧
  (∀ (p : Packet) (s s1 s2 : State), Arrived 1 p s → inboundRefused p p.data.length .wr (taken p s) = (none, s1) →
    vaWriteAll rqLink p.slot.toNat p.arg.toNat p.data s1 = (.ok (), s2) →
    (p.sub.toNat % 2 = 0 → exec (.linkWrite p) s = .next (tidyMem s2)) ∧
    (p.sub.toNat % 2 = 1 → ∃ t, exec (.linkWrite p) s = .next t ∧ SameBytes s2 t ∧ t.regs = s2.regs ∧
      AnswerSent p 8 (toLE 4 0) s t)) ∧
  (∀ (p : Packet) (bs : List Byte) (s s1 s2 : State), Arrived 2 p s →
    inboundRefused p p.len.toNat .rd (taken p s) = (none, s1) →
    vaReadAll rqLink p.slot.toNat p.arg.toNat p.len.toNat .rd s1 = (.ok bs, s2) →
    ∃ t, exec (.linkRead p) s = .next t ∧ SameBytes s2 t ∧ t.regs = s2.regs ∧ AnswerSent p 3 bs s t) ∧
  (∀ (p : Packet) (e : AccErr × Nat) (s s1 s2 : State), Arrived 2 p s →
    inboundRefused p p.len.toNat .rd (taken p s) = (none, s1) →
    vaReadAll rqLink p.slot.toNat p.arg.toNat p.len.toNat .rd s1 = (.error e, s2) →
    ∃ t, exec (.linkRead p) s = .next t ∧ SameBytes s2 t ∧ t.regs = s2.regs ∧
      AnswerSent p 9 (toLE 4 (0x0015 * 2 ^ 16)) s t) ∧
  (∀ (p : Packet) (op : AtomOp) (n pa : Nat) (ha : HostAttr) (bs : List Byte) (s s1 s2 s3 : State), Arrived 4 p s →
    (p.sub.toNat, op) ∈ [(0, AtomOp.add), (1, .xchg), (2, .cas), (3, .smin), (4, .smax), (5, .and), (6, .or), (7, .xor)] →
    n = (if p.sub.toNat = 2 then p.data.length / 2 else p.data.length) → n = 4 ∨ n = 8 →
    inboundRefused p n .at (taken p s) = (none, s1) →
    (p.arg.toNat % n ≠ 0 → ∃ t, exec (.linkAtomic p) s = .next t ∧ SameBytes s1 t ∧ t.regs = s1.regs ∧
      AnswerSent p 9 (toLE 4 (0x0011 * 2 ^ 16)) s t) ∧
    (p.arg.toNat % n = 0 → translate rqLink p.slot.toNat p.arg.toNat .at s1 = (.ok (.hbm pa), s2) →
      hbmRead pa n s2 = (some bs, s3) →
      ∃ t, exec (.linkAtomic p) s = .next t ∧
        hbmBytes pa n t = toLE n (atomVal op n (leNat bs) (leNat (p.data.take n)) (leNat (p.data.drop n))) ∧
        HbmKept pa n s3 t ∧ AnswerSent p 5 bs s t) ∧
    (p.arg.toNat % n = 0 → translate rqLink p.slot.toNat p.arg.toNat .at s1 = (.ok (.hbm pa), s2) →
      hbmRead pa n s2 = (none, s3) →
      ∃ t, exec (.linkAtomic p) s = .next t ∧ SameBytes s3 t ∧ t.regs = s3.regs ∧
        AnswerSent p 9 (toLE 4 (0x0015 * 2 ^ 16)) s t) ∧
    (p.arg.toNat % n = 0 → translate rqLink p.slot.toNat p.arg.toNat .at s1 = (.ok (.host pa ha), s2) →
      (p.sub.toNat ≤ 2 → ∃ t, exec (.linkAtomic p) s = .next t ∧
        hostBytes pa n t = toLE n (atomVal op n (leNat (hostBytes pa n s2)) (leNat (p.data.take n))
          (leNat (p.data.drop n))) ∧ AnswerSent p 5 (hostBytes pa n s2) s t) ∧
      (2 < p.sub.toNat → ∃ t, exec (.linkAtomic p) s = .next t ∧ SameBytes s2 t ∧
        AnswerSent p 9 (toLE 4 (0x0012 * 2 ^ 16)) s t))) ∧
  (∀ (p : Packet) (i fn : Nat) (e : FenceEnt) (s s1 : State),
    (∀ c sub rd, (sub, c) ∈ [(0, Instr.linkFenceSignal p), (1, .linkFenceReset p), (2, .linkFenceRegisterWait p)] →
      FenceRead sub p i fn (some rd) s s1 →
      ∃ t, exec c s = .next t ∧ SameBytes s1 t ∧ t.regs = s1.regs ∧ t.fnc = s1.fnc ∧
        AnswerSent p 9 (toLE 4 (rd.1 * 2 ^ 16)) s1 t) ∧
    (∀ c sub, (sub, c) ∈ [(0, Instr.linkFenceSignal p), (1, .linkFenceReset p)] → FenceAsked sub p i fn e s s1 →
      maySignal fn i (p.arg.toNat / 2 ^ 32 % 2 ^ 16) s1 = false →
      ∃ t, exec c s = .next t ∧ SameBytes s1 t ∧ t.regs = s1.regs ∧ t.fnc = s1.fnc ∧
        AnswerSent p 9 (toLE 4 (0x0003 * 2 ^ 16)) s1 t) ∧
    (FenceAsked 2 p i fn e s s1 → mayName fn i (p.arg.toNat / 2 ^ 32 % 2 ^ 16) s1 = false →
      ∃ t, exec (.linkFenceRegisterWait p) s = .next t ∧ SameBytes s1 t ∧ t.regs = s1.regs ∧ t.fnc = s1.fnc ∧
        AnswerSent p 9 (toLE 4 (0x0003 * 2 ^ 16)) s1 t) ∧
    (FenceAsked 0 p i fn e s s1 → maySignal fn i (p.arg.toNat / 2 ^ 32 % 2 ^ 16) s1 = true →
      (e.signalled = true → exec (.linkFenceSignal p) s = .next (tidyMem s1)) ∧
      (e.signalled = false → NoFenceInjection s1 → (∀ w ∈ s1.fnc.waits, w.index ≠ i) →
        ∃ t, exec (.linkFenceSignal p) s = .next t ∧ fenceGet i t = { e with
            signalled := true, status := leNat (p.data.take 1), sigCount := (e.sigCount + 1) % 2 ^ 32 } ∧
          (s1.hbc.pendInv = [] → HbmKept (fenceAddr i s1) 16 s1 t) ∧
          t.fnc = { s1.fnc with recErr := tabDel i s1.fnc.recErr } ∧ t.fe = s.fe ∧ t.svl = (taken p s).svl)) ∧
    (FenceAsked 1 p i fn e s s1 → maySignal fn i (p.arg.toNat / 2 ^ 32 % 2 ^ 16) s1 = true → NoFenceInjection s1 →
      (e.signalled = false → exec (.linkFenceReset p) s = .next (tidyMem s1)) ∧
      (e.signalled = true → ∃ t, exec (.linkFenceReset p) s = .next t ∧
        fenceGet i t = { e with signalled := false, status := 0 } ∧
        (s1.hbc.pendInv = [] → HbmKept (fenceAddr i s1) 16 s1 t) ∧
        t.fnc = { s1.fnc with recErr := tabDel i s1.fnc.recErr } ∧ t.fe = s.fe ∧ t.svl = (taken p s).svl)) ∧
    (FenceAsked 2 p i fn e s s1 → mayName fn i (p.arg.toNat / 2 ^ 32 % 2 ^ 16) s1 = true →
      (e.signalled = true → ∃ t, exec (.linkFenceRegisterWait p) s = .next t ∧ t.fnc = s1.fnc ∧ SameBytes s1 t ∧
        AnswerSent p 7 (toLE 8 e.status) s1 t) ∧
      (e.signalled = false → ∃ t, exec (.linkFenceRegisterWait p) s = .next t ∧ t.regs = s1.regs ∧ SameBytes s1 t ∧
        t.fnc.waits = s1.fnc.waits ++ [⟨i, e.gen, .remote p.src.toNat p.slot.toNat p.tag.toNat, none, false⟩]))) ∧
  (∀ (c : Instr) (op : Nat) (p : Packet) (s : State),
    (op, c) ∈ [(3, Instr.linkReadRsp p), (5, .linkAtomicRsp p), (7, .fenceNotify p), (8, .linkAck p), (9, .errorRsp p)] →
    Arrived op p s → (∀ q, tabFind p.tag.toNat s.svl.tags = some q → q.node ≠ p.src.toNat) →
    exec c s = .next (tidyMem (taken p s))) ∧
  (∀ (p : Packet) (q : LinkReq) (a b : Nat) (s : State), tabFind p.tag.toNat s.svl.tags = some q → q.node = p.src.toNat →
    q.op = 6 → q.who = .queue a b →
    (Arrived 7 p s → q.sub = 2 →
      exec (.fenceNotify p) s = .next (tidyMem (waitDone (.queue a b) (.ok (leNat (p.data.take 1))) (answered p s)))) ∧
    (Arrived 9 p s → exec (.errorRsp p) s =
      .next (tidyMem (remoteFail (.queue a b) q (leNat (p.data.take 4) / 2 ^ 16 % 2 ^ 16) (answered p s))))) ∧
  (∀ (p : Packet) (q : LinkReq) (r : Nat) (x : LinkRun) (s : State),
    (AnswersRing 7 p q r x s → q.op = 6 → q.sub = 2 → ldBit x.desc 9 = false → leNat (p.data.take 1) ≠ 0 →
      ∃ t, exec (.fenceNotify p) s = .next t ∧ DescriptorEnded r s t ∧ SameBytes s t) ∧
    (AnswersRing 8 p q r x s → leNat (p.data.take 1) % 2 = 0 → q.op = 1 → ldOp x.desc = 1 →
      (LastOfRing p r s → ∃ t, exec (.linkAck p) s = .next t ∧ DescriptorEnded r s t ∧ SameBytes s t) ∧
      (¬ LastOfRing p r s → exec (.linkAck p) s = .next (tidyMem (answered p s)))) ∧
    (AnswersRing 8 p q r x s → leNat (p.data.take 1) % 2 = 1 → q.op ≠ 6 → isColl x.desc = false →
      ∃ t, exec (.linkAck p) s = .next t ∧ DescriptorFailed r (leNat (p.data.take 4) / 2 ^ 16 % 2 ^ 16) s t ∧
        SameBytes s t) ∧
    (AnswersRing 9 p q r x s → q.op ≠ 6 → isColl x.desc = false →
      ∃ t, exec (.errorRsp p) s = .next t ∧ DescriptorFailed r (leNat (p.data.take 4) / 2 ^ 16 % 2 ^ 16) s t ∧
        SameBytes s t)) ∧
  (∀ (c : Instr) (op rop : Nat) (p : Packet) (q : LinkReq) (r : Nat) (x : LinkRun) (s s1 : State),
    (rop, op, c) ∈ [(3, 2, Instr.linkReadRsp p), (5, 4, .linkAtomicRsp p)] → AnswersRing rop p q r x s → q.op = op →
    ldOp x.desc + 1 = (if op = 2 then 3 else 4) → LastOfRing p r s → (op = 2 → ldLen x.desc ≤ x.off) →
    vaWriteAll rqLink (lrSlot r s) q.va (p.data.take q.len) (answered p s) = (.ok (), s1) →
    ∃ t, exec c s = .next t ∧ DescriptorEnded r s t ∧ SameBytes s1 t) ∧
  (∀ (p : Packet) (g c : Nat) (s : State), g = p.arg.toNat / 2 ^ 32 % 2 ^ 8 → c = p.arg.toNat % 2 ^ 32 → collRing g c s = none →
    (Arrived 11 p s → exec (.linkBarrier p) s = .next (tidyMem { taken p s with
      svl := { (taken p s).svl with coll := s.svl.coll ++ [⟨g, c, p.src.toNat, 1, 0, 0, 0, []⟩] } })) ∧
    (Arrived 12 p s → (∃ q ∈ s.svl.inbox, q.src = p.src ∧ vcOf q.op.toNat = 0) →
      exec (.snapMark p) s = .next (tidyMem s)) ∧
    (Arrived 12 p s → (∀ q ∈ s.svl.inbox, q.src = p.src → vcOf q.op.toNat ≠ 0) →
      exec (.snapMark p) s = .next (tidyMem { taken p s with
        svl := { (taken p s).svl with coll := s.svl.coll ++ [⟨g, c, p.src.toNat, 2, 0, 0, 0, []⟩] } })) ∧
    (Arrived 10 p s → leNat (p.data.take 4) % 16 = 0 → exec (.collStep p) s = .next (tidyMem { taken p s with
      svl := { (taken p s).svl with coll := s.svl.coll ++ [⟨g, c, p.src.toNat, 0, leNat (p.data.take 4) / 16 % 16,
        leNat ((p.data.drop 4).take 8), leNat ((p.data.drop 12).take 4), p.data.drop 16⟩] } })) ∧
    (Arrived 10 p s → leNat (p.data.take 4) % 16 ≠ 0 → ∃ t, exec (.collStep p) s = .next t ∧
      t.svl.inbox = s.svl.inbox.erase p ∧ t.svl.coll = s.svl.coll ∧ t.svl.rings = s.svl.rings ∧ t.regs = s.regs ∧
      ((∀ a ∈ s.svl.aborts, a.1 ≠ g ∨ a.2.1 ≠ c) → 2 ≤ 2 ^ domDim s →
        t.svl.aborts = s.svl.aborts ++ [(g, c, 2 ^ p.src.toNat)]))) ∧
  (∀ (p : Packet) (g c r : Nat) (x : LinkRun) (s : State), g = p.arg.toNat / 2 ^ 32 % 2 ^ 8 → c = p.arg.toNat % 2 ^ 32 →
    collRing g c s = some (r, x) → ldBit x.desc 10 = false →
    (Arrived 10 p s → leNat (p.data.take 4) % 16 ≠ 0 →
      ∃ t, exec (.collStep p) s = .next t ∧
        DescriptorFailed r (if leNat (p.data.take 4) / 16 % 16 = 1 then rCollMismatch else rCollAbort) s t ∧ SameBytes s t) ∧
    (Arrived 11 p s → ldOp x.desc = 7 → (∀ m ∈ s.svl.coll, m.group = g → m.cseq = c → m.kind = 1) →
      (∀ n, n < 2 ^ domDim s → n ≠ ownNode s → n = p.src.toNat ∨
        ∃ m ∈ s.svl.coll, m.group = g ∧ m.cseq = c ∧ m.kind = 1 ∧ m.src = n) →
      ∃ t, exec (.linkBarrier p) s = .next t ∧ DescriptorEnded r s t ∧ SameBytes s t) ∧
    (Arrived 11 p s → ldOp x.desc ≠ 7 → ldOp x.desc ≠ 8 →
      ∃ t, exec (.linkBarrier p) s = .next t ∧ DescriptorFailed r rCollMismatch s t ∧ SameBytes s t))

/-! ## The link engine's rings (R429 to R436) -/

/-- The ring that LR_SEL selects. -/
abbrev Sys2Proof.Claims.lrSel (s : State) : Nat := getFld (pgSvl 0) 0 0x214 0 4 s

/-- The ring is ACTIVE and fetches the descriptor `d` now; the read leaves `s1` (R429, R430). -/
def Sys2Proof.Claims.RingReads (r : Fin 16) (d : List Word) (s s1 : State) : Prop :=
  dark (pgSvl 0) s = false ∧ lrState r.val s = 2 ∧ (lringOf r.val s).run = none ∧ lrWork r.val s = true ∧
  ∃ bs, d = rowWords 4 16 bs ∧
    vaReadAll rqLink (lrSlot r.val s) (getPair (pgSvl 0) r.val 0x218 s + 64 * (lrIndex r.val s % lrSize r.val s)) 64 .rd s =
      (.ok bs, s1)

/-- The descriptor is good and executes at once: no wait, no stopped slot (R430, R436). -/
def Sys2Proof.Claims.RingExecutes (r : Fin 16) (op : Nat) (d : List Word) (s s1 : State) : Prop :=
  RingReads r d s s1 ∧ ldOp d = op ∧ ldBad r.val d s1 = false ∧ ldBit d 8 = false ∧ linkStopped (lrSlot r.val s1) s1 = false

/-- The descriptor's rows: OP values 0 to 8 of Table 17-6. -/
def Sys2Proof.Claims.RingRow (r : Fin 16) (op : Nat) (c : Instr) : Prop :=
  (op, c) ∈ [(0, Instr.linkDescNop r), (1, .linkPut r), (2, .linkGet r), (3, .linkDescAtomic r), (4, .allreduce r),
    (5, .allgather r), (6, .broadcast r), (7, .linkDescBarrier r), (8, .snapshot r)]

/-- The ring's request has gone out under a free tag: the request that waits for its response, and the packet (R431). -/
def Sys2Proof.Claims.RequestSent (r : Fin 16) (q : LinkReq) (len sub dst : Nat) (data : List Byte) (d : List Word) (s t : State) : Prop :=
  ∃ n x, freeTag s = some n ∧ tabFind n t.svl.tags = some q ∧ (lringOf r.val t).run = some x ∧ x.desc = d ∧ x.phase = 3 ∧
    PacketSent (mkPacket q.op q.node (lrSlot r.val s) n len sub dst data s) s t

/-- The state differs from another one in the link's own state, its output and a ring's FLAGS only. -/
def Sys2Proof.Claims.LinkOnly (r : Fin 16) (s w : State) : Prop :=
  w = { s with svl := w.svl, out := w.out, regs := w.regs } ∧ OtherRegs (fun k => k = rk (pgSvl 0) r.val 0x230) s w

/-- A collective's output is written to DST_VA of the ring's slot, and the descriptor ends by what the write answers. -/
def Sys2Proof.Claims.OutputWritten (r : Fin 16) (c : Instr) (d : List Word) (bs : List Byte) (s s1 : State) : Prop :=
  ∃ t w, exec c s = .next t ∧ LinkOnly r s1 w ∧
    (∀ s2, vaWriteAll rqLink (lrSlot r.val s1) (ldDst d) bs w = (.ok (), s2) → DescriptorEnded r.val s t ∧ SameBytes s2 t) ∧
    (∀ e a s2, vaWriteAll rqLink (lrSlot r.val s1) (ldDst d) bs w = (.error (e, a), s2) →
      DescriptorFailed r.val (accReason e) s t ∧ SameBytes s2 t)

/-- R429 to R436: a write of LR_PROD gives an enabled ring work; a descriptor that cannot be read or is bad ends with its
reason; WAIT_EN and SIG_EN act on their fences; PUT, GET and ATOMIC send their requests; a collective takes its CSEQ and ends
with its result, an abort or LINK_LOST; the ring timer ends a descriptor with TIMEOUT and halts the ring, which RESUME and RESET
leave. (The model's own reading where the spec leaves one: log 1, 36, 76, 77.) -/
def Obligations.RingsExecuteTheirDescriptors : Prop :=
  (∀ (q : Requester) (v : Word) (r : Nat) (s : State), Heard q (pgSvl 0) 0x224 s = true → r = lrSel s →
    ∃ t, exec (.lrProdWrite q v) s = .next t ∧ getReg (pgSvl 0) r 0x224 t = v ∧
      (lrState r s = 1 → lrLoop r s = false → lrState r t = (if v = getReg (pgSvl 0) r 0x228 s then 1 else 2)) ∧
      (lrState r s = 1 → lrLoop r s = true → lrState r t = (if v = 0 then 1 else 2)) ∧
      (lrState r s = 0 ∨ lrState r s = 3 → lrState r t = lrState r s) ∧
      OtherRegs (fun k => k = rk (pgSvl 0) r 0x224 ∨ k = rk (pgSvl 0) r 0x230) s t ∧ RegsOnly s t) ∧
  (∀ (q : Requester) (v : Word) (r : Nat) (s : State), Heard q (pgSvl 0) 0x238 s = true → r = lrSel s →
    (bit v 0 = true → lrState r s ≠ 3 → exec (.lrResume q v) s = .next (tidyMem s)) ∧
    (bit v 0 = true → lrState r s = 3 → ∃ t, exec (.lrResume q v) s = .next t ∧
      lrState r t = (if lrWork r s then 2 else 1) ∧ OtherRegs (fun k => k = rk (pgSvl 0) r 0x230) s t ∧ RegsOnly s t) ∧
    (bit v 1 = true → lrState r s ≠ 3 → exec (.lrReset q v) s = .next (tidyMem s)) ∧
    (bit v 1 = true → lrState r s = 3 → lrLoop r s = false → ∃ t, exec (.lrReset q v) s = .next t ∧ lrState r t = 1 ∧
      getReg (pgSvl 0) r 0x228 t = getReg (pgSvl 0) r 0x224 s ∧
      OtherRegs (fun k => k = rk (pgSvl 0) r 0x228 ∨ k = rk (pgSvl 0) r 0x230) s t ∧ RegsOnly s t) ∧
    (bit v 1 = true → lrState r s = 3 → lrLoop r s = true → ∃ t, exec (.lrReset q v) s = .next t ∧ lrState r t = 1 ∧
      lringOf r t = { lringOf r s with pos := 0 } ∧ OtherRegs (fun k => k = rk (pgSvl 0) r 0x230) s t ∧ SameBytes s t)) ∧
  (∀ (r : Fin 16) (s : State),
    (lrState r.val s ≠ 2 ∨ (lringOf r.val s).timer < max 1 (getReg (pgSvl 0) r.val 0x22C s).toNat →
      exec (.linkRingTimeout r) s = .next (tidyMem s)) ∧
    (∀ x, lrState r.val s = 2 → max 1 (getReg (pgSvl 0) r.val 0x22C s).toNat ≤ (lringOf r.val s).timer →
      (lringOf r.val s).run = some x → ldBit x.desc 10 = false →
      ∃ t, exec (.linkRingTimeout r) s = .next t ∧ DescriptorFailed r.val 0x0005 s t ∧ lrState r.val t = 3 ∧
        (lringOf r.val t).timer = 0 ∧ SameBytes s t)) ∧
  (∀ (r : Fin 16) (op : Nat) (c : Instr) (s : State), RingRow r op c →
    (dark (pgSvl 0) s = true ∨ lrState r.val s ≠ 2 → exec c s = .next (tidyMem s)) ∧
    (∀ x, (lringOf r.val s).run = some x → ldOp x.desc ≠ op ∨ x.phase = 1 ∨ x.phase = 3 → exec c s = .next (tidyMem s)) ∧
    ((lringOf r.val s).run = none → lrWork r.val s = false → exec c s = .next (tidyMem s)) ∧
    (∀ e a s1, dark (pgSvl 0) s = false → lrState r.val s = 2 → (lringOf r.val s).run = none → lrWork r.val s = true →
      vaReadAll rqLink (lrSlot r.val s) (getPair (pgSvl 0) r.val 0x218 s + 64 * (lrIndex r.val s % lrSize r.val s)) 64 .rd s =
        (.error (e, a), s1) →
      ∃ t, exec c s = .next t ∧ DescriptorFailed r.val (accReason e) s t ∧ SameBytes s1 t) ∧
    (∀ d s1, RingReads r d s s1 → ldOp d ≠ op → ldOp d < 9 → exec c s = .next (tidyMem s)) ∧
    (∀ d s1, RingReads r d s s1 → ldOp d = op ∨ 9 ≤ ldOp d → ldBad r.val d s1 = true → ldBit d 10 = false →
      ∃ t, exec c s = .next t ∧ DescriptorFailed r.val 0x0017 s t ∧ SameBytes s1 t) ∧
    (∀ d s1 s2 i fn bad, RingReads r d s s1 → ldOp d = op → ldBad r.val d s1 = false → ldBit d 8 = true →
      fenceNode (nth 0 d 6) s1 = none → i = fenceIdx (nth 0 d 6) → fn = (slotOf (lrSlot r.val s1) s1).func →
      nameFails fn ⟨lrSlot r.val s1, 0, 0, true⟩ i s1 = (bad, s2) →
      (∀ rd, bad = some rd → ldBit d 10 = false →
        ∃ t, exec c s = .next t ∧ DescriptorFailed r.val rd.1 s t ∧ SameBytes s2 t) ∧
      (bad = none → mayName fn i (fld (nth 0 d 7) 0 16) s2 = false → ldBit d 10 = false →
        ∃ t, exec c s = .next t ∧ DescriptorFailed r.val 0x0003 s t ∧ SameBytes s2 t) ∧
      (bad = none → mayName fn i (fld (nth 0 d 7) 0 16) s2 = true → ldBit d 9 = false → (fenceGet i s2).signalled = false →
        ∃ t, exec c s = .next t ∧ (lringOf r.val t).run = some { desc := d, phase := 1 } ∧
          t.fnc.waits = s2.fnc.waits ++ [⟨i, fld (nth 0 d 7) 0 16, .ring r.val, none, false⟩] ∧ t.regs = s2.regs ∧
          SameBytes s2 t) ∧
      (bad = none → mayName fn i (fld (nth 0 d 7) 0 16) s2 = true → ldBit d 9 = false → ldBit d 10 = false →
        (fenceGet i s2).signalled = true → (fenceGet i s2).status ≠ 0 →
        ∃ t, exec c s = .next t ∧ DescriptorEnded r.val s t ∧ SameBytes s2 t))) ∧
  (∀ (r : Fin 16) (d : List Word) (s s1 : State), RingExecutes r 0 d s s1 →
    (ldBit d 10 = false → ∃ t, exec (.linkDescNop r) s = .next t ∧ DescriptorEnded r.val s t ∧ SameBytes s1 t) ∧
    (∀ i e fn s2, ldBit d 10 = true → fenceNode (nth 0 d 8) s1 = none → i = fenceIdx (nth 0 d 8) →
      fn = (slotOf (lrSlot r.val s1) s1).func → nameFails fn ⟨lrSlot r.val s1, 0, 0, true⟩ i s1 = (none, s2) →
      e = fenceGet i s2 → NoFenceInjection s2 → (∀ w ∈ s2.fnc.waits, w.index ≠ i) →
      maySignal fn i (fld (nth 0 d 9) 0 16) s2 = true → e.signalled = false →
      ∃ t, exec (.linkDescNop r) s = .next t ∧ DescriptorEnded r.val s t ∧
        fenceGet i t = { e with signalled := true, status := 0, sigCount := (e.sigCount + 1) % 2 ^ 32 })) ∧
  (∀ (r : Fin 16) (op : Nat) (c : Instr) (d : List Word) (s s1 : State), RingRow r op c → RingExecutes r op d s s1 →
    (op = 1 ∨ op = 2 ∨ op = 3 → reachable (ldNode d) s1 = false → ldBit d 10 = false →
      ∃ t, exec c s = .next t ∧ DescriptorFailed r.val rLinkLost s t ∧ SameBytes s1 t) ∧
    (op = 1 ∨ op = 2 → reachable (ldNode d) s1 = true → ldLen d = 0 → ldBit d 10 = false →
      ∃ t, exec c s = .next t ∧ DescriptorEnded r.val s t ∧ SameBytes s1 t) ∧
    (∀ bs s2, op = 1 → reachable (ldNode d) s1 = true → 0 < ldLen d → ldLen d ≤ pageLeft (ldDst d) → tagFree s1 = true →
      vaReadAll rqLink (lrSlot r.val s1) (ldSrc d) (ldLen d) .rd s1 = (.ok bs, s2) →
      ∃ t, exec c s = .next t ∧ SameBytes s2 t ∧
        RequestSent r { who := .ring r.val, node := ldNode d, op := 1, sub := 1, va := 0, len := 0 } bs.length 1 (ldDst d) bs d
          s2 t) ∧
    (op = 2 → reachable (ldNode d) s1 = true → 0 < ldLen d → ldLen d ≤ pageLeft (ldSrc d) → tagFree s1 = true →
      ∃ t, exec c s = .next t ∧ SameBytes s1 t ∧
        RequestSent r { who := .ring r.val, node := ldNode d, op := 2, sub := 0, va := ldDst d, len := ldLen d } (ldLen d) 0
          (ldSrc d) [] d s1 t) ∧
    (op = 3 → reachable (ldNode d) s1 = true → tagFree s1 = true →
      ∃ t, exec c s = .next t ∧ SameBytes s1 t ∧
        RequestSent r ⟨.ring r.val, ldNode d, 4, fld (nth 0 d 0) 12 3, ldSrc d, if ldBit d 15 then 8 else 4, [], 0, 0⟩
          (atomicData d).length (fld (nth 0 d 0) 12 3) (ldDst d) (atomicData d) d s1 t)) ∧
  (∀ (r : Fin 16) (op : Nat) (c : Instr) (d : List Word) (s s1 : State), RingRow r op c → RingExecutes r op d s s1 → 4 ≤ op →
    ldBit d 10 = false →
    (∀ a ∈ s1.svl.aborts, a.1 = lrGroup r.val s1 → a.2.1 = (lringOf r.val s1).cseq →
      ∃ t, exec c s = .next t ∧ DescriptorFailed r.val rCollAbort s t ∧
        (lringOf r.val t).cseq = ((lringOf r.val s).cseq + 1) % 2 ^ 32 ∧ SameBytes s1 t) ∧
    ((∀ a ∈ s1.svl.aborts, a.1 = lrGroup r.val s1 → a.2.1 ≠ (lringOf r.val s1).cseq) →
      (∃ m, m < 2 ^ domDim s1 ∧ reachable m s1 = false) →
      ∃ t, exec c s = .next t ∧ DescriptorFailed r.val rLinkLost s t ∧
        (lringOf r.val t).cseq = ((lringOf r.val s).cseq + 1) % 2 ^ 32 ∧ SameBytes s1 t) ∧
    ((∀ a ∈ s1.svl.aborts, a.1 = lrGroup r.val s1 → a.2.1 ≠ (lringOf r.val s1).cseq) →
      (∀ m, m < 2 ^ domDim s1 → reachable m s1 = true) →
      (∀ m ∈ s1.svl.coll, m.group = lrGroup r.val s1 → m.cseq ≠ (lringOf r.val s1).cseq) →
      (7 ≤ op → 0 < domDim s1 → ∃ t x, exec c s = .next t ∧ (lringOf r.val t).run = some x ∧ x.desc = d ∧ x.phase = 3 ∧
        x.step = 0 ∧ x.cseq = (lringOf r.val s).cseq ∧ (lringOf r.val t).cseq = ((lringOf r.val s).cseq + 1) % 2 ^ 32 ∧
        t.regs = s1.regs ∧ SameBytes s1 t ∧
        (domDim s1 = 1 → PacketSent (mkPacket 11 (ownNode s1 ^^^ 1) (lrSlot r.val s1) 0 0 0
          (collArg (lrGroup r.val s1) (lringOf r.val s).cseq) [] s1) s1 t)) ∧
      (7 ≤ op → domDim s1 = 0 → ownNode s1 = 0 → ∃ t, exec c s = .next t ∧ DescriptorEnded r.val s t ∧ SameBytes s1 t) ∧
      (∀ bs s2, op = 4 ∨ op = 5 → vaReadAll rqLink (lrSlot r.val s1) (ldSrc d) (ldLen d) .rd s1 = (.ok bs, s2) →
        (domDim s1 = 0 → ownNode s1 = 0 → op = 4 → OutputWritten r c d
          (reduceOut d (rowWords (if ldBit d 11 then 2 else 4) (bs.length / (if ldBit d 11 then 2 else 4)) bs)).1 s s2) ∧
        (domDim s1 = 0 → ownNode s1 = 0 → op = 5 → OutputWritten r c d bs s s2) ∧
        (0 < domDim s1 → ∃ t x, exec c s = .next t ∧ (lringOf r.val t).run = some x ∧ x.desc = d ∧ x.phase = 3 ∧ x.step = 0 ∧
          x.cseq = (lringOf r.val s).cseq ∧ SameBytes s2 t ∧ OtherRegs (fun k => k = rk (pgSvl 0) r.val 0x230) s2 t ∧
          (op = 4 → getFld (pgSvl 0) r.val 0x230 4 4 t = 0) ∧ (op = 5 → t.regs = s2.regs))) ∧
      (∀ bs s2, op = 6 → ldNode d = ownNode s1 →
        vaReadAll rqLink (lrSlot r.val s1) (ldSrc d) (ldLen d) .rd s1 = (.ok bs, s2) → OutputWritten r c d bs s s2) ∧
      (op = 6 → ldNode d ≠ ownNode s1 → ∃ t x, exec c s = .next t ∧ (lringOf r.val t).run = some x ∧ x.desc = d ∧ x.phase = 3 ∧
        x.cseq = (lringOf r.val s).cseq ∧ SameBytes s1 t ∧ t.regs = s1.regs))) ∧
  (∀ (r : Fin 16) (d : List Word) (bs other : List Byte) (s s1 s2 : State) (own : List Word), RingExecutes r 4 d s s1 →
    ldBit d 10 = false → domDim s1 = 1 → ownNode s1 ≤ 1 → reachable (ownNode s1 ^^^ 1) s1 = true →
    (∀ a ∈ s1.svl.aborts, a.1 ≠ lrGroup r.val s1) →
    vaReadAll rqLink (lrSlot r.val s1) (ldSrc d) (ldLen d) .rd s1 = (.ok bs, s2) →
    own = rowWords (if ldBit d 11 then 2 else 4) (bs.length / (if ldBit d 11 then 2 else 4)) bs →
    s1.svl.coll = [⟨lrGroup r.val s1, (lringOf r.val s1).cseq, ownNode s1 ^^^ 1, 0, 0, collSig d, 0, other⟩] →
    other.length = 4 * own.length →
    OutputWritten r (.allreduce r) d (reduceOut d (List.zipWith
      (fun a b => (if ownNode s1 = 0 then accAdd true a b else accAdd true b a).1) own (rowWords 4 own.length other))).1 s s2)
end

