-- ==== Sys2Proof/Laws/Mem.lean ====
section
/-!
SUPPORT. Tables and memories: a read after a write, what a write leaves alone, and the canonical form that every memory
operation keeps.
-/
namespace Sys2Proof.Machine

/-! ## Tables -/

@[simp] theorem tabFind_nil {α : Type} (k : Nat) : tabFind k ([] : Tab α) = none := rfl

theorem tabFind_cons {α : Type} (k k' : Nat) (v : α) (t : Tab α) :
    tabFind k ((k', v) :: t) = if k' = k then some v else tabFind k t := rfl

@[simp] theorem tabFind_set_self {α : Type} (k : Nat) (v : α) (t : Tab α) : tabFind k (tabSet k v t) = some v := by
  induction t with
  | nil => simp [tabSet, tabFind_cons]
  | cons e t ih =>
    obtain ⟨k', v'⟩ := e
    unfold tabSet
    split_ifs with h1 h2
    · rw [tabFind_cons, if_neg (by omega), ih]
    · simp [tabFind_cons]
    · simp [tabFind_cons]

theorem tabFind_set_ne {α : Type} {j k : Nat} (h : j ≠ k) (v : α) (t : Tab α) :
    tabFind j (tabSet k v t) = tabFind j t := by
  induction t with
  | nil => simp [tabSet, tabFind_cons, h.symm]
  | cons e t ih =>
    obtain ⟨k', v'⟩ := e
    unfold tabSet
    split_ifs with h1 h2
    · simp only [tabFind_cons, ih]
    · subst h2; simp [tabFind_cons, h.symm]
    · simp [tabFind_cons, h.symm]

@[simp] theorem tabFind_del_self {α : Type} (k : Nat) (t : Tab α) : tabFind k (tabDel k t) = none := by
  induction t with
  | nil => rfl
  | cons e t ih =>
    obtain ⟨k', v'⟩ := e
    unfold tabDel
    split_ifs with h
    · exact ih
    · rw [tabFind_cons, if_neg h, ih]

theorem tabFind_del_ne {α : Type} {j k : Nat} (h : j ≠ k) (t : Tab α) : tabFind j (tabDel k t) = tabFind j t := by
  induction t with
  | nil => rfl
  | cons e t ih =>
    obtain ⟨k', v'⟩ := e
    unfold tabDel
    split_ifs with h'
    · rw [ih, tabFind_cons, if_neg (by omega)]
    · simp only [tabFind_cons, ih]

@[simp] theorem tabGet_set_self {α : Type} (d : α) (k : Nat) (v : α) (t : Tab α) : tabGet d k (tabSet k v t) = v := by
  simp [tabGet]

theorem tabGet_set_ne {α : Type} (d : α) {j k : Nat} (h : j ≠ k) (v : α) (t : Tab α) :
    tabGet d j (tabSet k v t) = tabGet d j t := by
  simp [tabGet, tabFind_set_ne h]

@[simp] theorem tabGet_del_self {α : Type} (d : α) (k : Nat) (t : Tab α) : tabGet d k (tabDel k t) = d := by
  simp [tabGet]

theorem tabGet_del_ne {α : Type} (d : α) {j k : Nat} (h : j ≠ k) (t : Tab α) : tabGet d j (tabDel k t) = tabGet d j t := by
  simp [tabGet, tabFind_del_ne h]

/-! ## The order of the keys -/

/-- Keys strictly rising. -/
abbrev tabSorted {α : Type} (t : Tab α) : Prop := t.Pairwise (fun a b => a.1 < b.1)

theorem mem_tabSet {α : Type} {e : Nat × α} {k : Nat} {v : α} {t : Tab α} (h : e ∈ tabSet k v t) :
    e = (k, v) ∨ (e ∈ t ∧ (tabSorted t → e.1 ≠ k)) := by
  induction t with
  | nil => simp [tabSet] at h; exact .inl h
  | cons e' t ih =>
    obtain ⟨k', v'⟩ := e'
    unfold tabSet at h
    split_ifs at h with h1 h2
    · rcases List.mem_cons.1 h with rfl | h
      · exact .inr ⟨by simp, fun _ => by simpa using by omega⟩
      · rcases ih h with h | ⟨h, hs⟩
        · exact .inl h
        · exact .inr ⟨by simp [h], fun hp => hs (List.pairwise_cons.1 hp).2⟩
    · rcases List.mem_cons.1 h with rfl | h
      · exact .inl rfl
      · refine .inr ⟨by simp [h], fun hp => ?_⟩
        have := (List.pairwise_cons.1 hp).1 _ h
        simp only at this; omega
    · rcases List.mem_cons.1 h with rfl | h
      · exact .inl rfl
      · refine .inr ⟨h, fun hp => ?_⟩
        rcases List.mem_cons.1 h with rfl | h
        · simpa using by omega
        · have := (List.pairwise_cons.1 hp).1 _ h
          simp only at this; omega

theorem tabSorted_set {α : Type} (k : Nat) (v : α) {t : Tab α} (h : tabSorted t) : tabSorted (tabSet k v t) := by
  induction t with
  | nil => simp [tabSet]
  | cons e t ih =>
    obtain ⟨k', v'⟩ := e
    obtain ⟨h0, ht⟩ := List.pairwise_cons.1 h
    unfold tabSet
    split_ifs with h1 h2
    · refine List.pairwise_cons.2 ⟨fun b hb => ?_, ih ht⟩
      rcases mem_tabSet hb with rfl | ⟨hb, _⟩
      · exact h1
      · exact h0 _ hb
    · subst h2; exact List.pairwise_cons.2 ⟨h0, ht⟩
    · refine List.pairwise_cons.2 ⟨fun b hb => ?_, h⟩
      rcases List.mem_cons.1 hb with rfl | hb
      · simp only; omega
      · have := h0 _ hb
        simp only at this ⊢; omega

theorem tabDel_eq_filter {α : Type} (k : Nat) (t : Tab α) : tabDel k t = t.filter (fun e => e.1 != k) := by
  induction t with
  | nil => rfl
  | cons e t ih =>
    obtain ⟨k', v'⟩ := e
    unfold tabDel
    split_ifs with h
    · simp [h, ih]
    · simp [h, ih]

theorem tabSorted_filter {α : Type} (p : Nat × α → Bool) {t : Tab α} (h : tabSorted t) : tabSorted (t.filter p) :=
  List.Pairwise.filter p h

/-! ## Memories -/

/-- The canonical form in words: keys strictly rising, and no entry that its address would read as anyway. -/
theorem memWf_iff (d : Nat → Byte) (m : Tab Byte) : memWf d m = true ↔ tabSorted m ∧ ∀ e ∈ m, e.2 ≠ d e.1 := by
  induction m with
  | nil => simp [memWf]
  | cons e t ih =>
    obtain ⟨a, v⟩ := e
    cases t with
    | nil => simp [memWf]
    | cons e' t =>
      obtain ⟨a', v'⟩ := e'
      rw [memWf, Bool.and_eq_true, Bool.and_eq_true, ih]
      constructor
      · rintro ⟨⟨h1, h2⟩, hs, ha⟩
        have h2 : a < a' := by simpa using h2
        refine ⟨List.pairwise_cons.2 ⟨fun b hb => ?_, hs⟩, fun b hb => ?_⟩
        · rcases List.mem_cons.1 hb with rfl | hb
          · exact h2
          · exact lt_trans h2 ((List.pairwise_cons.1 hs).1 _ hb)
        · rcases List.mem_cons.1 hb with rfl | hb
          · simpa using h1
          · exact ha _ hb
      · rintro ⟨hs, ha⟩
        refine ⟨⟨by simpa using ha (a, v) (by simp), ?_⟩, (List.pairwise_cons.1 hs).2, fun e he => ha e (by simp [he])⟩
        simpa using (List.pairwise_cons.1 hs).1 (a', v') (by simp)

@[simp] theorem memByte_set_self (d : Nat → Byte) (a : Nat) (v : Byte) (m : Tab Byte) :
    memByte d (memSet d a v m) a = v := by
  unfold memByte memSet
  split_ifs with h
  · simp [h]
  · simp

theorem memByte_set_ne (d : Nat → Byte) {a b : Nat} (h : b ≠ a) (v : Byte) (m : Tab Byte) :
    memByte d (memSet d a v m) b = memByte d m b := by
  unfold memByte memSet
  split_ifs
  · rw [tabFind_del_ne h]
  · rw [tabFind_set_ne h]

theorem memWf_set (d : Nat → Byte) (a : Nat) (v : Byte) {m : Tab Byte} (h : memWf d m = true) :
    memWf d (memSet d a v m) = true := by
  rw [memWf_iff] at h ⊢
  unfold memSet
  split_ifs with hv
  · rw [tabDel_eq_filter]
    exact ⟨tabSorted_filter _ h.1, fun e he => h.2 e (List.mem_filter.1 he).1⟩
  · refine ⟨tabSorted_set _ _ h.1, fun e he => ?_⟩
    rcases mem_tabSet he with rfl | ⟨he, _⟩
    · exact hv
    · exact h.2 e he

theorem memWf_write (d : Nat → Byte) (bs : List Byte) (a : Nat) {m : Tab Byte} (h : memWf d m = true) :
    memWf d (memWrite d a bs m) = true := by
  induction bs generalizing a m with
  | nil => exact h
  | cons b t ih => exact ih (a + 1) (memWf_set d a b h)

theorem memWf_clear (d : Nat → Byte) (a n : Nat) {m : Tab Byte} (h : memWf d m = true) :
    memWf d (memClear a n m) = true := by
  rw [memWf_iff] at h ⊢
  exact ⟨tabSorted_filter _ h.1, fun e he => h.2 e (List.mem_filter.1 he).1⟩

theorem memWf_canon (d : Nat → Byte) (m : Tab Byte) : memWf d (memCanon d m) = true := by
  induction m with
  | nil => rfl
  | cons e t ih => exact memWf_set d e.1 e.2 ih

/-- The canonical form changes no read. -/
@[simp] theorem memByte_canon (d : Nat → Byte) (m : Tab Byte) (a : Nat) : memByte d (memCanon d m) a = memByte d m a := by
  induction m with
  | nil => rfl
  | cons e t ih =>
    obtain ⟨k, v⟩ := e
    show memByte d (memSet d k v (memCanon d t)) a = _
    by_cases h : a = k
    · subst h; rw [memByte_set_self]; simp [memByte, tabFind_cons]
    · rw [memByte_set_ne d h, ih]; simp [memByte, tabFind_cons, Ne.symm h]

theorem memRead_canon (d : Nat → Byte) (m : Tab Byte) (a n : Nat) :
    memRead d (memCanon d m) a n = memRead d m a n := by
  induction n generalizing a with
  | zero => rfl
  | succ n ih => simp only [memRead, memByte_canon, ih]

/-- A byte that a write does not reach reads as before. -/
theorem memByte_write_out (d : Nat → Byte) (bs : List Byte) (a b : Nat) (m : Tab Byte)
    (h : b < a ∨ a + bs.length ≤ b) : memByte d (memWrite d a bs m) b = memByte d m b := by
  induction bs generalizing a m with
  | nil => rfl
  | cons x t ih =>
    simp only [List.length_cons] at h
    show memByte d (memWrite d (a + 1) t (memSet d a x m)) b = _
    rw [ih (a + 1) _ (by omega), memByte_set_ne d (by omega)]

/-- A byte that a write reaches reads as written. -/
theorem memByte_write_in (d : Nat → Byte) (bs : List Byte) (a i : Nat) (m : Tab Byte) (h : i < bs.length) :
    memByte d (memWrite d a bs m) (a + i) = bs[i] := by
  induction bs generalizing a m i with
  | nil => simp at h
  | cons x t ih =>
    show memByte d (memWrite d (a + 1) t (memSet d a x m)) (a + i) = _
    cases i with
    | zero => rw [memByte_write_out d t (a + 1) _ _ (by omega)]; simp
    | succ i =>
      have := ih (a + 1) i (memSet d a x m) (by simpa using h)
      rw [show a + (i + 1) = a + 1 + i by omega, this]; simp

/-- A read after a write of the same bytes. -/
theorem memRead_write (d : Nat → Byte) (bs : List Byte) (a : Nat) (m : Tab Byte) :
    memRead d (memWrite d a bs m) a bs.length = bs := by
  suffices h : ∀ (cs : List Byte) (b : Nat) (m' : Tab Byte),
      (∀ i (hi : i < cs.length), memByte d m' (b + i) = cs[i]) → memRead d m' b cs.length = cs from
    h bs a _ (fun i hi => memByte_write_in d bs a i m hi)
  intro cs
  induction cs with
  | nil => intros; rfl
  | cons c t ih =>
    intro b m' h
    simp only [List.length_cons, memRead]
    rw [ih (b + 1) m' (fun i hi => by
      have := h (i + 1) (by simpa using hi)
      rw [show b + 1 + i = b + (i + 1) by omega, this]; simp)]
    have := h 0 (by simp)
    simp at this
    rw [this]

end Sys2Proof.Machine
end

