-- ==== Sys2Proof/Laws/State.lean ====
section
/-!
SUPPORT. What each named update of the state leaves alone: one lemma a field, so that no proof unfolds a record update.
-/
namespace Sys2Proof.Machine

/-! ## setReg -/

@[simp] theorem setReg_pending (pg bank off : Nat) (v : Word) (s : State) : (setReg pg bank off v s).pending = s.pending := rfl
@[simp] theorem setReg_out (pg bank off : Nat) (v : Word) (s : State) : (setReg pg bank off v s).out = s.out := rfl
@[simp] theorem setReg_free (pg bank off : Nat) (v : Word) (s : State) : (setReg pg bank off v s).free = s.free := rfl
@[simp] theorem setReg_lat (pg bank off : Nat) (v : Word) (s : State) : (setReg pg bank off v s).lat = s.lat := rfl
@[simp] theorem setReg_pins (pg bank off : Nat) (v : Word) (s : State) : (setReg pg bank off v s).pins = s.pins := rfl
@[simp] theorem setReg_aon (pg bank off : Nat) (v : Word) (s : State) : (setReg pg bank off v s).aon = s.aon := rfl
@[simp] theorem setReg_mem (pg bank off : Nat) (v : Word) (s : State) : (setReg pg bank off v s).mem = s.mem := rfl
@[simp] theorem setReg_pwr (pg bank off : Nat) (v : Word) (s : State) : (setReg pg bank off v s).pwr = s.pwr := rfl
@[simp] theorem setReg_bsn (pg bank off : Nat) (v : Word) (s : State) : (setReg pg bank off v s).bsn = s.bsn := rfl
@[simp] theorem setReg_rst (pg bank off : Nat) (v : Word) (s : State) : (setReg pg bank off v s).rst = s.rst := rfl
@[simp] theorem setReg_cst (pg bank off : Nat) (v : Word) (s : State) : (setReg pg bank off v s).cst = s.cst := rfl
@[simp] theorem setReg_mmu (pg bank off : Nat) (v : Word) (s : State) : (setReg pg bank off v s).mmu = s.mmu := rfl
@[simp] theorem setReg_dma (pg bank off : Nat) (v : Word) (s : State) : (setReg pg bank off v s).dma = s.dma := rfl
@[simp] theorem setReg_fe (pg bank off : Nat) (v : Word) (s : State) : (setReg pg bank off v s).fe = s.fe := rfl
@[simp] theorem setReg_fnc (pg bank off : Nat) (v : Word) (s : State) : (setReg pg bank off v s).fnc = s.fnc := rfl
@[simp] theorem setReg_hbc (pg bank off : Nat) (v : Word) (s : State) : (setReg pg bank off v s).hbc = s.hbc := rfl
@[simp] theorem setReg_pci (pg bank off : Nat) (v : Word) (s : State) : (setReg pg bank off v s).pci = s.pci := rfl
@[simp] theorem setReg_sec (pg bank off : Nat) (v : Word) (s : State) : (setReg pg bank off v s).sec = s.sec := rfl
@[simp] theorem setReg_mbx (pg bank off : Nat) (v : Word) (s : State) : (setReg pg bank off v s).mbx = s.mbx := rfl
@[simp] theorem setReg_cpt (pg bank off : Nat) (v : Word) (s : State) : (setReg pg bank off v s).cpt = s.cpt := rfl
@[simp] theorem setReg_lvn (pg bank off : Nat) (v : Word) (s : State) : (setReg pg bank off v s).lvn = s.lvn := rfl
@[simp] theorem setReg_tlr (pg bank off : Nat) (v : Word) (s : State) : (setReg pg bank off v s).tlr = s.tlr := rfl
@[simp] theorem setReg_cmp (pg bank off : Nat) (v : Word) (s : State) : (setReg pg bank off v s).cmp = s.cmp := rfl
@[simp] theorem setReg_cz (pg bank off : Nat) (v : Word) (s : State) : (setReg pg bank off v s).cz = s.cz := rfl
@[simp] theorem setReg_svl (pg bank off : Nat) (v : Word) (s : State) : (setReg pg bank off v s).svl = s.svl := rfl

/-! ## setFld -/

@[simp] theorem setFld_pending (pg bank off lo n v : Nat) (s : State) : (setFld pg bank off lo n v s).pending = s.pending := rfl
@[simp] theorem setFld_out (pg bank off lo n v : Nat) (s : State) : (setFld pg bank off lo n v s).out = s.out := rfl
@[simp] theorem setFld_free (pg bank off lo n v : Nat) (s : State) : (setFld pg bank off lo n v s).free = s.free := rfl
@[simp] theorem setFld_lat (pg bank off lo n v : Nat) (s : State) : (setFld pg bank off lo n v s).lat = s.lat := rfl
@[simp] theorem setFld_pins (pg bank off lo n v : Nat) (s : State) : (setFld pg bank off lo n v s).pins = s.pins := rfl
@[simp] theorem setFld_aon (pg bank off lo n v : Nat) (s : State) : (setFld pg bank off lo n v s).aon = s.aon := rfl
@[simp] theorem setFld_mem (pg bank off lo n v : Nat) (s : State) : (setFld pg bank off lo n v s).mem = s.mem := rfl
@[simp] theorem setFld_pwr (pg bank off lo n v : Nat) (s : State) : (setFld pg bank off lo n v s).pwr = s.pwr := rfl
@[simp] theorem setFld_bsn (pg bank off lo n v : Nat) (s : State) : (setFld pg bank off lo n v s).bsn = s.bsn := rfl
@[simp] theorem setFld_rst (pg bank off lo n v : Nat) (s : State) : (setFld pg bank off lo n v s).rst = s.rst := rfl
@[simp] theorem setFld_cst (pg bank off lo n v : Nat) (s : State) : (setFld pg bank off lo n v s).cst = s.cst := rfl
@[simp] theorem setFld_mmu (pg bank off lo n v : Nat) (s : State) : (setFld pg bank off lo n v s).mmu = s.mmu := rfl
@[simp] theorem setFld_dma (pg bank off lo n v : Nat) (s : State) : (setFld pg bank off lo n v s).dma = s.dma := rfl
@[simp] theorem setFld_fe (pg bank off lo n v : Nat) (s : State) : (setFld pg bank off lo n v s).fe = s.fe := rfl
@[simp] theorem setFld_fnc (pg bank off lo n v : Nat) (s : State) : (setFld pg bank off lo n v s).fnc = s.fnc := rfl
@[simp] theorem setFld_hbc (pg bank off lo n v : Nat) (s : State) : (setFld pg bank off lo n v s).hbc = s.hbc := rfl
@[simp] theorem setFld_pci (pg bank off lo n v : Nat) (s : State) : (setFld pg bank off lo n v s).pci = s.pci := rfl
@[simp] theorem setFld_sec (pg bank off lo n v : Nat) (s : State) : (setFld pg bank off lo n v s).sec = s.sec := rfl
@[simp] theorem setFld_mbx (pg bank off lo n v : Nat) (s : State) : (setFld pg bank off lo n v s).mbx = s.mbx := rfl
@[simp] theorem setFld_cpt (pg bank off lo n v : Nat) (s : State) : (setFld pg bank off lo n v s).cpt = s.cpt := rfl
@[simp] theorem setFld_lvn (pg bank off lo n v : Nat) (s : State) : (setFld pg bank off lo n v s).lvn = s.lvn := rfl
@[simp] theorem setFld_tlr (pg bank off lo n v : Nat) (s : State) : (setFld pg bank off lo n v s).tlr = s.tlr := rfl
@[simp] theorem setFld_cmp (pg bank off lo n v : Nat) (s : State) : (setFld pg bank off lo n v s).cmp = s.cmp := rfl
@[simp] theorem setFld_cz (pg bank off lo n v : Nat) (s : State) : (setFld pg bank off lo n v s).cz = s.cz := rfl
@[simp] theorem setFld_svl (pg bank off lo n v : Nat) (s : State) : (setFld pg bank off lo n v s).svl = s.svl := rfl

/-! ## addFld -/

@[simp] theorem addFld_pending (pg bank off lo n k : Nat) (s : State) : (addFld pg bank off lo n k s).pending = s.pending := rfl
@[simp] theorem addFld_out (pg bank off lo n k : Nat) (s : State) : (addFld pg bank off lo n k s).out = s.out := rfl
@[simp] theorem addFld_free (pg bank off lo n k : Nat) (s : State) : (addFld pg bank off lo n k s).free = s.free := rfl
@[simp] theorem addFld_lat (pg bank off lo n k : Nat) (s : State) : (addFld pg bank off lo n k s).lat = s.lat := rfl
@[simp] theorem addFld_pins (pg bank off lo n k : Nat) (s : State) : (addFld pg bank off lo n k s).pins = s.pins := rfl
@[simp] theorem addFld_aon (pg bank off lo n k : Nat) (s : State) : (addFld pg bank off lo n k s).aon = s.aon := rfl
@[simp] theorem addFld_mem (pg bank off lo n k : Nat) (s : State) : (addFld pg bank off lo n k s).mem = s.mem := rfl
@[simp] theorem addFld_pwr (pg bank off lo n k : Nat) (s : State) : (addFld pg bank off lo n k s).pwr = s.pwr := rfl
@[simp] theorem addFld_bsn (pg bank off lo n k : Nat) (s : State) : (addFld pg bank off lo n k s).bsn = s.bsn := rfl
@[simp] theorem addFld_rst (pg bank off lo n k : Nat) (s : State) : (addFld pg bank off lo n k s).rst = s.rst := rfl
@[simp] theorem addFld_cst (pg bank off lo n k : Nat) (s : State) : (addFld pg bank off lo n k s).cst = s.cst := rfl
@[simp] theorem addFld_mmu (pg bank off lo n k : Nat) (s : State) : (addFld pg bank off lo n k s).mmu = s.mmu := rfl
@[simp] theorem addFld_dma (pg bank off lo n k : Nat) (s : State) : (addFld pg bank off lo n k s).dma = s.dma := rfl
@[simp] theorem addFld_fe (pg bank off lo n k : Nat) (s : State) : (addFld pg bank off lo n k s).fe = s.fe := rfl
@[simp] theorem addFld_fnc (pg bank off lo n k : Nat) (s : State) : (addFld pg bank off lo n k s).fnc = s.fnc := rfl
@[simp] theorem addFld_hbc (pg bank off lo n k : Nat) (s : State) : (addFld pg bank off lo n k s).hbc = s.hbc := rfl
@[simp] theorem addFld_pci (pg bank off lo n k : Nat) (s : State) : (addFld pg bank off lo n k s).pci = s.pci := rfl
@[simp] theorem addFld_sec (pg bank off lo n k : Nat) (s : State) : (addFld pg bank off lo n k s).sec = s.sec := rfl
@[simp] theorem addFld_mbx (pg bank off lo n k : Nat) (s : State) : (addFld pg bank off lo n k s).mbx = s.mbx := rfl
@[simp] theorem addFld_cpt (pg bank off lo n k : Nat) (s : State) : (addFld pg bank off lo n k s).cpt = s.cpt := rfl
@[simp] theorem addFld_lvn (pg bank off lo n k : Nat) (s : State) : (addFld pg bank off lo n k s).lvn = s.lvn := rfl
@[simp] theorem addFld_tlr (pg bank off lo n k : Nat) (s : State) : (addFld pg bank off lo n k s).tlr = s.tlr := rfl
@[simp] theorem addFld_cmp (pg bank off lo n k : Nat) (s : State) : (addFld pg bank off lo n k s).cmp = s.cmp := rfl
@[simp] theorem addFld_cz (pg bank off lo n k : Nat) (s : State) : (addFld pg bank off lo n k s).cz = s.cz := rfl
@[simp] theorem addFld_svl (pg bank off lo n k : Nat) (s : State) : (addFld pg bank off lo n k s).svl = s.svl := rfl

/-! ## count32 -/

@[simp] theorem count32_pending (pg bank off : Nat) (s : State) : (count32 pg bank off s).pending = s.pending := rfl
@[simp] theorem count32_out (pg bank off : Nat) (s : State) : (count32 pg bank off s).out = s.out := rfl
@[simp] theorem count32_free (pg bank off : Nat) (s : State) : (count32 pg bank off s).free = s.free := rfl
@[simp] theorem count32_lat (pg bank off : Nat) (s : State) : (count32 pg bank off s).lat = s.lat := rfl
@[simp] theorem count32_pins (pg bank off : Nat) (s : State) : (count32 pg bank off s).pins = s.pins := rfl
@[simp] theorem count32_aon (pg bank off : Nat) (s : State) : (count32 pg bank off s).aon = s.aon := rfl
@[simp] theorem count32_mem (pg bank off : Nat) (s : State) : (count32 pg bank off s).mem = s.mem := rfl
@[simp] theorem count32_pwr (pg bank off : Nat) (s : State) : (count32 pg bank off s).pwr = s.pwr := rfl
@[simp] theorem count32_bsn (pg bank off : Nat) (s : State) : (count32 pg bank off s).bsn = s.bsn := rfl
@[simp] theorem count32_rst (pg bank off : Nat) (s : State) : (count32 pg bank off s).rst = s.rst := rfl
@[simp] theorem count32_cst (pg bank off : Nat) (s : State) : (count32 pg bank off s).cst = s.cst := rfl
@[simp] theorem count32_mmu (pg bank off : Nat) (s : State) : (count32 pg bank off s).mmu = s.mmu := rfl
@[simp] theorem count32_dma (pg bank off : Nat) (s : State) : (count32 pg bank off s).dma = s.dma := rfl
@[simp] theorem count32_fe (pg bank off : Nat) (s : State) : (count32 pg bank off s).fe = s.fe := rfl
@[simp] theorem count32_fnc (pg bank off : Nat) (s : State) : (count32 pg bank off s).fnc = s.fnc := rfl
@[simp] theorem count32_hbc (pg bank off : Nat) (s : State) : (count32 pg bank off s).hbc = s.hbc := rfl
@[simp] theorem count32_pci (pg bank off : Nat) (s : State) : (count32 pg bank off s).pci = s.pci := rfl
@[simp] theorem count32_sec (pg bank off : Nat) (s : State) : (count32 pg bank off s).sec = s.sec := rfl
@[simp] theorem count32_mbx (pg bank off : Nat) (s : State) : (count32 pg bank off s).mbx = s.mbx := rfl
@[simp] theorem count32_cpt (pg bank off : Nat) (s : State) : (count32 pg bank off s).cpt = s.cpt := rfl
@[simp] theorem count32_lvn (pg bank off : Nat) (s : State) : (count32 pg bank off s).lvn = s.lvn := rfl
@[simp] theorem count32_tlr (pg bank off : Nat) (s : State) : (count32 pg bank off s).tlr = s.tlr := rfl
@[simp] theorem count32_cmp (pg bank off : Nat) (s : State) : (count32 pg bank off s).cmp = s.cmp := rfl
@[simp] theorem count32_cz (pg bank off : Nat) (s : State) : (count32 pg bank off s).cz = s.cz := rfl
@[simp] theorem count32_svl (pg bank off : Nat) (s : State) : (count32 pg bank off s).svl = s.svl := rfl

/-! ## wrap32 -/

@[simp] theorem wrap32_pending (pg bank off : Nat) (s : State) : (wrap32 pg bank off s).pending = s.pending := rfl
@[simp] theorem wrap32_out (pg bank off : Nat) (s : State) : (wrap32 pg bank off s).out = s.out := rfl
@[simp] theorem wrap32_free (pg bank off : Nat) (s : State) : (wrap32 pg bank off s).free = s.free := rfl
@[simp] theorem wrap32_lat (pg bank off : Nat) (s : State) : (wrap32 pg bank off s).lat = s.lat := rfl
@[simp] theorem wrap32_pins (pg bank off : Nat) (s : State) : (wrap32 pg bank off s).pins = s.pins := rfl
@[simp] theorem wrap32_aon (pg bank off : Nat) (s : State) : (wrap32 pg bank off s).aon = s.aon := rfl
@[simp] theorem wrap32_mem (pg bank off : Nat) (s : State) : (wrap32 pg bank off s).mem = s.mem := rfl
@[simp] theorem wrap32_pwr (pg bank off : Nat) (s : State) : (wrap32 pg bank off s).pwr = s.pwr := rfl
@[simp] theorem wrap32_bsn (pg bank off : Nat) (s : State) : (wrap32 pg bank off s).bsn = s.bsn := rfl
@[simp] theorem wrap32_rst (pg bank off : Nat) (s : State) : (wrap32 pg bank off s).rst = s.rst := rfl
@[simp] theorem wrap32_cst (pg bank off : Nat) (s : State) : (wrap32 pg bank off s).cst = s.cst := rfl
@[simp] theorem wrap32_mmu (pg bank off : Nat) (s : State) : (wrap32 pg bank off s).mmu = s.mmu := rfl
@[simp] theorem wrap32_dma (pg bank off : Nat) (s : State) : (wrap32 pg bank off s).dma = s.dma := rfl
@[simp] theorem wrap32_fe (pg bank off : Nat) (s : State) : (wrap32 pg bank off s).fe = s.fe := rfl
@[simp] theorem wrap32_fnc (pg bank off : Nat) (s : State) : (wrap32 pg bank off s).fnc = s.fnc := rfl
@[simp] theorem wrap32_hbc (pg bank off : Nat) (s : State) : (wrap32 pg bank off s).hbc = s.hbc := rfl
@[simp] theorem wrap32_pci (pg bank off : Nat) (s : State) : (wrap32 pg bank off s).pci = s.pci := rfl
@[simp] theorem wrap32_sec (pg bank off : Nat) (s : State) : (wrap32 pg bank off s).sec = s.sec := rfl
@[simp] theorem wrap32_mbx (pg bank off : Nat) (s : State) : (wrap32 pg bank off s).mbx = s.mbx := rfl
@[simp] theorem wrap32_cpt (pg bank off : Nat) (s : State) : (wrap32 pg bank off s).cpt = s.cpt := rfl
@[simp] theorem wrap32_lvn (pg bank off : Nat) (s : State) : (wrap32 pg bank off s).lvn = s.lvn := rfl
@[simp] theorem wrap32_tlr (pg bank off : Nat) (s : State) : (wrap32 pg bank off s).tlr = s.tlr := rfl
@[simp] theorem wrap32_cmp (pg bank off : Nat) (s : State) : (wrap32 pg bank off s).cmp = s.cmp := rfl
@[simp] theorem wrap32_cz (pg bank off : Nat) (s : State) : (wrap32 pg bank off s).cz = s.cz := rfl
@[simp] theorem wrap32_svl (pg bank off : Nat) (s : State) : (wrap32 pg bank off s).svl = s.svl := rfl

/-! ## setPair -/

@[simp] theorem setPair_pending (pg bank off v : Nat) (s : State) : (setPair pg bank off v s).pending = s.pending := rfl
@[simp] theorem setPair_out (pg bank off v : Nat) (s : State) : (setPair pg bank off v s).out = s.out := rfl
@[simp] theorem setPair_free (pg bank off v : Nat) (s : State) : (setPair pg bank off v s).free = s.free := rfl
@[simp] theorem setPair_lat (pg bank off v : Nat) (s : State) : (setPair pg bank off v s).lat = s.lat := rfl
@[simp] theorem setPair_pins (pg bank off v : Nat) (s : State) : (setPair pg bank off v s).pins = s.pins := rfl
@[simp] theorem setPair_aon (pg bank off v : Nat) (s : State) : (setPair pg bank off v s).aon = s.aon := rfl
@[simp] theorem setPair_mem (pg bank off v : Nat) (s : State) : (setPair pg bank off v s).mem = s.mem := rfl
@[simp] theorem setPair_pwr (pg bank off v : Nat) (s : State) : (setPair pg bank off v s).pwr = s.pwr := rfl
@[simp] theorem setPair_bsn (pg bank off v : Nat) (s : State) : (setPair pg bank off v s).bsn = s.bsn := rfl
@[simp] theorem setPair_rst (pg bank off v : Nat) (s : State) : (setPair pg bank off v s).rst = s.rst := rfl
@[simp] theorem setPair_cst (pg bank off v : Nat) (s : State) : (setPair pg bank off v s).cst = s.cst := rfl
@[simp] theorem setPair_mmu (pg bank off v : Nat) (s : State) : (setPair pg bank off v s).mmu = s.mmu := rfl
@[simp] theorem setPair_dma (pg bank off v : Nat) (s : State) : (setPair pg bank off v s).dma = s.dma := rfl
@[simp] theorem setPair_fe (pg bank off v : Nat) (s : State) : (setPair pg bank off v s).fe = s.fe := rfl
@[simp] theorem setPair_fnc (pg bank off v : Nat) (s : State) : (setPair pg bank off v s).fnc = s.fnc := rfl
@[simp] theorem setPair_hbc (pg bank off v : Nat) (s : State) : (setPair pg bank off v s).hbc = s.hbc := rfl
@[simp] theorem setPair_pci (pg bank off v : Nat) (s : State) : (setPair pg bank off v s).pci = s.pci := rfl
@[simp] theorem setPair_sec (pg bank off v : Nat) (s : State) : (setPair pg bank off v s).sec = s.sec := rfl
@[simp] theorem setPair_mbx (pg bank off v : Nat) (s : State) : (setPair pg bank off v s).mbx = s.mbx := rfl
@[simp] theorem setPair_cpt (pg bank off v : Nat) (s : State) : (setPair pg bank off v s).cpt = s.cpt := rfl
@[simp] theorem setPair_lvn (pg bank off v : Nat) (s : State) : (setPair pg bank off v s).lvn = s.lvn := rfl
@[simp] theorem setPair_tlr (pg bank off v : Nat) (s : State) : (setPair pg bank off v s).tlr = s.tlr := rfl
@[simp] theorem setPair_cmp (pg bank off v : Nat) (s : State) : (setPair pg bank off v s).cmp = s.cmp := rfl
@[simp] theorem setPair_cz (pg bank off v : Nat) (s : State) : (setPair pg bank off v s).cz = s.cz := rfl
@[simp] theorem setPair_svl (pg bank off v : Nat) (s : State) : (setPair pg bank off v s).svl = s.svl := rfl

/-! ## emit -/

@[simp] theorem emit_pending (e : OutEvent) (s : State) : (emit e s).pending = s.pending := rfl
@[simp] theorem emit_regs (e : OutEvent) (s : State) : (emit e s).regs = s.regs := rfl
@[simp] theorem emit_free (e : OutEvent) (s : State) : (emit e s).free = s.free := rfl
@[simp] theorem emit_lat (e : OutEvent) (s : State) : (emit e s).lat = s.lat := rfl
@[simp] theorem emit_pins (e : OutEvent) (s : State) : (emit e s).pins = s.pins := rfl
@[simp] theorem emit_aon (e : OutEvent) (s : State) : (emit e s).aon = s.aon := rfl
@[simp] theorem emit_mem (e : OutEvent) (s : State) : (emit e s).mem = s.mem := rfl
@[simp] theorem emit_pwr (e : OutEvent) (s : State) : (emit e s).pwr = s.pwr := rfl
@[simp] theorem emit_bsn (e : OutEvent) (s : State) : (emit e s).bsn = s.bsn := rfl
@[simp] theorem emit_rst (e : OutEvent) (s : State) : (emit e s).rst = s.rst := rfl
@[simp] theorem emit_cst (e : OutEvent) (s : State) : (emit e s).cst = s.cst := rfl
@[simp] theorem emit_mmu (e : OutEvent) (s : State) : (emit e s).mmu = s.mmu := rfl
@[simp] theorem emit_dma (e : OutEvent) (s : State) : (emit e s).dma = s.dma := rfl
@[simp] theorem emit_fe (e : OutEvent) (s : State) : (emit e s).fe = s.fe := rfl
@[simp] theorem emit_fnc (e : OutEvent) (s : State) : (emit e s).fnc = s.fnc := rfl
@[simp] theorem emit_hbc (e : OutEvent) (s : State) : (emit e s).hbc = s.hbc := rfl
@[simp] theorem emit_pci (e : OutEvent) (s : State) : (emit e s).pci = s.pci := rfl
@[simp] theorem emit_sec (e : OutEvent) (s : State) : (emit e s).sec = s.sec := rfl
@[simp] theorem emit_mbx (e : OutEvent) (s : State) : (emit e s).mbx = s.mbx := rfl
@[simp] theorem emit_cpt (e : OutEvent) (s : State) : (emit e s).cpt = s.cpt := rfl
@[simp] theorem emit_lvn (e : OutEvent) (s : State) : (emit e s).lvn = s.lvn := rfl
@[simp] theorem emit_tlr (e : OutEvent) (s : State) : (emit e s).tlr = s.tlr := rfl
@[simp] theorem emit_cmp (e : OutEvent) (s : State) : (emit e s).cmp = s.cmp := rfl
@[simp] theorem emit_cz (e : OutEvent) (s : State) : (emit e s).cz = s.cz := rfl
@[simp] theorem emit_svl (e : OutEvent) (s : State) : (emit e s).svl = s.svl := rfl

/-! ## hostPut -/

@[simp] theorem hostPut_pending (a : Nat) (bs : List Byte) (s : State) : (hostPut a bs s).pending = s.pending := rfl
@[simp] theorem hostPut_regs (a : Nat) (bs : List Byte) (s : State) : (hostPut a bs s).regs = s.regs := rfl
@[simp] theorem hostPut_out (a : Nat) (bs : List Byte) (s : State) : (hostPut a bs s).out = s.out := rfl
@[simp] theorem hostPut_free (a : Nat) (bs : List Byte) (s : State) : (hostPut a bs s).free = s.free := rfl
@[simp] theorem hostPut_lat (a : Nat) (bs : List Byte) (s : State) : (hostPut a bs s).lat = s.lat := rfl
@[simp] theorem hostPut_pins (a : Nat) (bs : List Byte) (s : State) : (hostPut a bs s).pins = s.pins := rfl
@[simp] theorem hostPut_aon (a : Nat) (bs : List Byte) (s : State) : (hostPut a bs s).aon = s.aon := rfl
@[simp] theorem hostPut_pwr (a : Nat) (bs : List Byte) (s : State) : (hostPut a bs s).pwr = s.pwr := rfl
@[simp] theorem hostPut_bsn (a : Nat) (bs : List Byte) (s : State) : (hostPut a bs s).bsn = s.bsn := rfl
@[simp] theorem hostPut_rst (a : Nat) (bs : List Byte) (s : State) : (hostPut a bs s).rst = s.rst := rfl
@[simp] theorem hostPut_cst (a : Nat) (bs : List Byte) (s : State) : (hostPut a bs s).cst = s.cst := rfl
@[simp] theorem hostPut_mmu (a : Nat) (bs : List Byte) (s : State) : (hostPut a bs s).mmu = s.mmu := rfl
@[simp] theorem hostPut_dma (a : Nat) (bs : List Byte) (s : State) : (hostPut a bs s).dma = s.dma := rfl
@[simp] theorem hostPut_fe (a : Nat) (bs : List Byte) (s : State) : (hostPut a bs s).fe = s.fe := rfl
@[simp] theorem hostPut_fnc (a : Nat) (bs : List Byte) (s : State) : (hostPut a bs s).fnc = s.fnc := rfl
@[simp] theorem hostPut_hbc (a : Nat) (bs : List Byte) (s : State) : (hostPut a bs s).hbc = s.hbc := rfl
@[simp] theorem hostPut_pci (a : Nat) (bs : List Byte) (s : State) : (hostPut a bs s).pci = s.pci := rfl
@[simp] theorem hostPut_sec (a : Nat) (bs : List Byte) (s : State) : (hostPut a bs s).sec = s.sec := rfl
@[simp] theorem hostPut_mbx (a : Nat) (bs : List Byte) (s : State) : (hostPut a bs s).mbx = s.mbx := rfl
@[simp] theorem hostPut_cpt (a : Nat) (bs : List Byte) (s : State) : (hostPut a bs s).cpt = s.cpt := rfl
@[simp] theorem hostPut_lvn (a : Nat) (bs : List Byte) (s : State) : (hostPut a bs s).lvn = s.lvn := rfl
@[simp] theorem hostPut_tlr (a : Nat) (bs : List Byte) (s : State) : (hostPut a bs s).tlr = s.tlr := rfl
@[simp] theorem hostPut_cmp (a : Nat) (bs : List Byte) (s : State) : (hostPut a bs s).cmp = s.cmp := rfl
@[simp] theorem hostPut_cz (a : Nat) (bs : List Byte) (s : State) : (hostPut a bs s).cz = s.cz := rfl
@[simp] theorem hostPut_svl (a : Nat) (bs : List Byte) (s : State) : (hostPut a bs s).svl = s.svl := rfl

/-! ## aonPut -/

@[simp] theorem aonPut_pending (a : Nat) (bs : List Byte) (s : State) : (aonPut a bs s).pending = s.pending := rfl
@[simp] theorem aonPut_regs (a : Nat) (bs : List Byte) (s : State) : (aonPut a bs s).regs = s.regs := rfl
@[simp] theorem aonPut_out (a : Nat) (bs : List Byte) (s : State) : (aonPut a bs s).out = s.out := rfl
@[simp] theorem aonPut_free (a : Nat) (bs : List Byte) (s : State) : (aonPut a bs s).free = s.free := rfl
@[simp] theorem aonPut_lat (a : Nat) (bs : List Byte) (s : State) : (aonPut a bs s).lat = s.lat := rfl
@[simp] theorem aonPut_pins (a : Nat) (bs : List Byte) (s : State) : (aonPut a bs s).pins = s.pins := rfl
@[simp] theorem aonPut_aon (a : Nat) (bs : List Byte) (s : State) : (aonPut a bs s).aon = s.aon := rfl
@[simp] theorem aonPut_pwr (a : Nat) (bs : List Byte) (s : State) : (aonPut a bs s).pwr = s.pwr := rfl
@[simp] theorem aonPut_bsn (a : Nat) (bs : List Byte) (s : State) : (aonPut a bs s).bsn = s.bsn := rfl
@[simp] theorem aonPut_rst (a : Nat) (bs : List Byte) (s : State) : (aonPut a bs s).rst = s.rst := rfl
@[simp] theorem aonPut_cst (a : Nat) (bs : List Byte) (s : State) : (aonPut a bs s).cst = s.cst := rfl
@[simp] theorem aonPut_mmu (a : Nat) (bs : List Byte) (s : State) : (aonPut a bs s).mmu = s.mmu := rfl
@[simp] theorem aonPut_dma (a : Nat) (bs : List Byte) (s : State) : (aonPut a bs s).dma = s.dma := rfl
@[simp] theorem aonPut_fe (a : Nat) (bs : List Byte) (s : State) : (aonPut a bs s).fe = s.fe := rfl
@[simp] theorem aonPut_fnc (a : Nat) (bs : List Byte) (s : State) : (aonPut a bs s).fnc = s.fnc := rfl
@[simp] theorem aonPut_hbc (a : Nat) (bs : List Byte) (s : State) : (aonPut a bs s).hbc = s.hbc := rfl
@[simp] theorem aonPut_pci (a : Nat) (bs : List Byte) (s : State) : (aonPut a bs s).pci = s.pci := rfl
@[simp] theorem aonPut_sec (a : Nat) (bs : List Byte) (s : State) : (aonPut a bs s).sec = s.sec := rfl
@[simp] theorem aonPut_mbx (a : Nat) (bs : List Byte) (s : State) : (aonPut a bs s).mbx = s.mbx := rfl
@[simp] theorem aonPut_cpt (a : Nat) (bs : List Byte) (s : State) : (aonPut a bs s).cpt = s.cpt := rfl
@[simp] theorem aonPut_lvn (a : Nat) (bs : List Byte) (s : State) : (aonPut a bs s).lvn = s.lvn := rfl
@[simp] theorem aonPut_tlr (a : Nat) (bs : List Byte) (s : State) : (aonPut a bs s).tlr = s.tlr := rfl
@[simp] theorem aonPut_cmp (a : Nat) (bs : List Byte) (s : State) : (aonPut a bs s).cmp = s.cmp := rfl
@[simp] theorem aonPut_cz (a : Nat) (bs : List Byte) (s : State) : (aonPut a bs s).cz = s.cz := rfl
@[simp] theorem aonPut_svl (a : Nat) (bs : List Byte) (s : State) : (aonPut a bs s).svl = s.svl := rfl

/-! ## tidyMem -/

@[simp] theorem tidyMem_pending (s : State) : (tidyMem s).pending = s.pending := rfl
@[simp] theorem tidyMem_regs (s : State) : (tidyMem s).regs = s.regs := rfl
@[simp] theorem tidyMem_out (s : State) : (tidyMem s).out = s.out := rfl
@[simp] theorem tidyMem_free (s : State) : (tidyMem s).free = s.free := rfl
@[simp] theorem tidyMem_lat (s : State) : (tidyMem s).lat = s.lat := rfl
@[simp] theorem tidyMem_pins (s : State) : (tidyMem s).pins = s.pins := rfl
@[simp] theorem tidyMem_aon (s : State) : (tidyMem s).aon = s.aon := rfl
@[simp] theorem tidyMem_pwr (s : State) : (tidyMem s).pwr = s.pwr := rfl
@[simp] theorem tidyMem_bsn (s : State) : (tidyMem s).bsn = s.bsn := rfl
@[simp] theorem tidyMem_rst (s : State) : (tidyMem s).rst = s.rst := rfl
@[simp] theorem tidyMem_cst (s : State) : (tidyMem s).cst = s.cst := rfl
@[simp] theorem tidyMem_mmu (s : State) : (tidyMem s).mmu = s.mmu := rfl
@[simp] theorem tidyMem_dma (s : State) : (tidyMem s).dma = s.dma := rfl
@[simp] theorem tidyMem_fe (s : State) : (tidyMem s).fe = s.fe := rfl
@[simp] theorem tidyMem_fnc (s : State) : (tidyMem s).fnc = s.fnc := rfl
@[simp] theorem tidyMem_hbc (s : State) : (tidyMem s).hbc = s.hbc := rfl
@[simp] theorem tidyMem_pci (s : State) : (tidyMem s).pci = s.pci := rfl
@[simp] theorem tidyMem_sec (s : State) : (tidyMem s).sec = s.sec := rfl
@[simp] theorem tidyMem_mbx (s : State) : (tidyMem s).mbx = s.mbx := rfl
@[simp] theorem tidyMem_cpt (s : State) : (tidyMem s).cpt = s.cpt := rfl
@[simp] theorem tidyMem_lvn (s : State) : (tidyMem s).lvn = s.lvn := rfl
@[simp] theorem tidyMem_tlr (s : State) : (tidyMem s).tlr = s.tlr := rfl
@[simp] theorem tidyMem_cmp (s : State) : (tidyMem s).cmp = s.cmp := rfl
@[simp] theorem tidyMem_cz (s : State) : (tidyMem s).cz = s.cz := rfl
@[simp] theorem tidyMem_svl (s : State) : (tidyMem s).svl = s.svl := rfl

/-! ## takeFree -/

@[simp] theorem takeFree_pending (s : State) : (takeFree s).2.pending = s.pending := rfl
@[simp] theorem takeFree_regs (s : State) : (takeFree s).2.regs = s.regs := rfl
@[simp] theorem takeFree_out (s : State) : (takeFree s).2.out = s.out := rfl
@[simp] theorem takeFree_lat (s : State) : (takeFree s).2.lat = s.lat := rfl
@[simp] theorem takeFree_pins (s : State) : (takeFree s).2.pins = s.pins := rfl
@[simp] theorem takeFree_aon (s : State) : (takeFree s).2.aon = s.aon := rfl
@[simp] theorem takeFree_mem (s : State) : (takeFree s).2.mem = s.mem := rfl
@[simp] theorem takeFree_pwr (s : State) : (takeFree s).2.pwr = s.pwr := rfl
@[simp] theorem takeFree_bsn (s : State) : (takeFree s).2.bsn = s.bsn := rfl
@[simp] theorem takeFree_rst (s : State) : (takeFree s).2.rst = s.rst := rfl
@[simp] theorem takeFree_cst (s : State) : (takeFree s).2.cst = s.cst := rfl
@[simp] theorem takeFree_mmu (s : State) : (takeFree s).2.mmu = s.mmu := rfl
@[simp] theorem takeFree_dma (s : State) : (takeFree s).2.dma = s.dma := rfl
@[simp] theorem takeFree_fe (s : State) : (takeFree s).2.fe = s.fe := rfl
@[simp] theorem takeFree_fnc (s : State) : (takeFree s).2.fnc = s.fnc := rfl
@[simp] theorem takeFree_hbc (s : State) : (takeFree s).2.hbc = s.hbc := rfl
@[simp] theorem takeFree_pci (s : State) : (takeFree s).2.pci = s.pci := rfl
@[simp] theorem takeFree_sec (s : State) : (takeFree s).2.sec = s.sec := rfl
@[simp] theorem takeFree_mbx (s : State) : (takeFree s).2.mbx = s.mbx := rfl
@[simp] theorem takeFree_cpt (s : State) : (takeFree s).2.cpt = s.cpt := rfl
@[simp] theorem takeFree_lvn (s : State) : (takeFree s).2.lvn = s.lvn := rfl
@[simp] theorem takeFree_tlr (s : State) : (takeFree s).2.tlr = s.tlr := rfl
@[simp] theorem takeFree_cmp (s : State) : (takeFree s).2.cmp = s.cmp := rfl
@[simp] theorem takeFree_cz (s : State) : (takeFree s).2.cz = s.cz := rfl
@[simp] theorem takeFree_svl (s : State) : (takeFree s).2.svl = s.svl := rfl

/-! ## takeFreeWord -/

@[simp] theorem takeFreeWord_pending (s : State) : (takeFreeWord s).2.pending = s.pending := rfl
@[simp] theorem takeFreeWord_regs (s : State) : (takeFreeWord s).2.regs = s.regs := rfl
@[simp] theorem takeFreeWord_out (s : State) : (takeFreeWord s).2.out = s.out := rfl
@[simp] theorem takeFreeWord_lat (s : State) : (takeFreeWord s).2.lat = s.lat := rfl
@[simp] theorem takeFreeWord_pins (s : State) : (takeFreeWord s).2.pins = s.pins := rfl
@[simp] theorem takeFreeWord_aon (s : State) : (takeFreeWord s).2.aon = s.aon := rfl
@[simp] theorem takeFreeWord_mem (s : State) : (takeFreeWord s).2.mem = s.mem := rfl
@[simp] theorem takeFreeWord_pwr (s : State) : (takeFreeWord s).2.pwr = s.pwr := rfl
@[simp] theorem takeFreeWord_bsn (s : State) : (takeFreeWord s).2.bsn = s.bsn := rfl
@[simp] theorem takeFreeWord_rst (s : State) : (takeFreeWord s).2.rst = s.rst := rfl
@[simp] theorem takeFreeWord_cst (s : State) : (takeFreeWord s).2.cst = s.cst := rfl
@[simp] theorem takeFreeWord_mmu (s : State) : (takeFreeWord s).2.mmu = s.mmu := rfl
@[simp] theorem takeFreeWord_dma (s : State) : (takeFreeWord s).2.dma = s.dma := rfl
@[simp] theorem takeFreeWord_fe (s : State) : (takeFreeWord s).2.fe = s.fe := rfl
@[simp] theorem takeFreeWord_fnc (s : State) : (takeFreeWord s).2.fnc = s.fnc := rfl
@[simp] theorem takeFreeWord_hbc (s : State) : (takeFreeWord s).2.hbc = s.hbc := rfl
@[simp] theorem takeFreeWord_pci (s : State) : (takeFreeWord s).2.pci = s.pci := rfl
@[simp] theorem takeFreeWord_sec (s : State) : (takeFreeWord s).2.sec = s.sec := rfl
@[simp] theorem takeFreeWord_mbx (s : State) : (takeFreeWord s).2.mbx = s.mbx := rfl
@[simp] theorem takeFreeWord_cpt (s : State) : (takeFreeWord s).2.cpt = s.cpt := rfl
@[simp] theorem takeFreeWord_lvn (s : State) : (takeFreeWord s).2.lvn = s.lvn := rfl
@[simp] theorem takeFreeWord_tlr (s : State) : (takeFreeWord s).2.tlr = s.tlr := rfl
@[simp] theorem takeFreeWord_cmp (s : State) : (takeFreeWord s).2.cmp = s.cmp := rfl
@[simp] theorem takeFreeWord_cz (s : State) : (takeFreeWord s).2.cz = s.cz := rfl
@[simp] theorem takeFreeWord_svl (s : State) : (takeFreeWord s).2.svl = s.svl := rfl

/-! ## What the updates write -/

theorem setReg_regs (pg bank off : Nat) (v : Word) (s : State) :
    (setReg pg bank off v s).regs = tabSet (rk pg bank off) v s.regs := rfl
@[simp] theorem emit_out (e : OutEvent) (s : State) : (emit e s).out = e :: s.out := rfl
@[simp] theorem takeFree_free (s : State) : (takeFree s).2.free = s.free + 1 := rfl
@[simp] theorem takeFreeWord_free (s : State) : (takeFreeWord s).2.free = s.free + 1 := rfl
@[simp] theorem getReg_tidyMem (pg bank off : Nat) (s : State) : getReg pg bank off (tidyMem s) = getReg pg bank off s := rfl
@[simp] theorem getReg_emit (pg bank off : Nat) (e : OutEvent) (s : State) :
    getReg pg bank off (emit e s) = getReg pg bank off s := rfl
@[simp] theorem getFld_tidyMem (pg bank off lo n : Nat) (s : State) :
    getFld pg bank off lo n (tidyMem s) = getFld pg bank off lo n s := rfl

end Sys2Proof.Machine
end

