-- ==== Sys2Proof/Laws/Memory.lean ====
section
/-!
SUPPORT. The memories of the state: the canonical form, and what each named write of a memory does to what a byte reads as.
-/
namespace Sys2Proof.Machine

/-! ## The canonical form -/

theorem memsCanonical_tidyMem (s : State) : MemsCanonical (tidyMem s) :=
  ⟨memWf_canon _ _, memWf_canon _ _, memWf_canon _ _, memWf_canon _ _, memWf_canon _ _, memWf_canon _ _⟩

theorem memsCanonical_hostPut (a : Nat) (bs : List Byte) {s : State} (h : MemsCanonical s) :
    MemsCanonical (hostPut a bs s) :=
  ⟨h.1, memWf_write _ _ _ h.2.1, h.2.2.1, h.2.2.2.1, h.2.2.2.2.1, h.2.2.2.2.2⟩

theorem memsCanonical_flashPut (a : Nat) (bs : List Byte) {s : State} (h : MemsCanonical s) :
    MemsCanonical (flashPut a bs s) :=
  ⟨h.1, h.2.1, memWf_write _ _ _ h.2.2.1, h.2.2.2.1, h.2.2.2.2.1, h.2.2.2.2.2⟩

theorem memsCanonical_aonPut (a : Nat) (bs : List Byte) {s : State} (h : MemsCanonical s) :
    MemsCanonical (aonPut a bs s) :=
  ⟨h.1, h.2.1, h.2.2.1, memWf_write _ _ _ h.2.2.2.1, h.2.2.2.2.1, h.2.2.2.2.2⟩

/-! ## Reads -/

@[simp] theorem hbmBytes_tidyMem (a n : Nat) (s : State) : hbmBytes a n (tidyMem s) = hbmBytes a n s :=
  memRead_canon _ _ _ _

@[simp] theorem hostBytes_tidyMem (a n : Nat) (s : State) : hostBytes a n (tidyMem s) = hostBytes a n s :=
  memRead_canon _ _ _ _

@[simp] theorem flashBytes_tidyMem (a n : Nat) (s : State) : flashBytes a n (tidyMem s) = flashBytes a n s :=
  memRead_canon _ _ _ _

@[simp] theorem aonBytes_tidyMem (a n : Nat) (s : State) : aonBytes a n (tidyMem s) = aonBytes a n s :=
  memRead_canon _ _ _ _

/-- The canonical form changes no byte that a memory reads as. -/
theorem sameBytes_tidyMem (s : State) : SameBytes s (tidyMem s) :=
  ⟨fun _ _ => memRead_canon _ _ _ _, fun _ _ => memRead_canon _ _ _ _, fun _ _ => memRead_canon _ _ _ _,
    fun _ _ => memRead_canon _ _ _ _, fun _ => memByte_canon _ _ _, fun _ => memByte_canon _ _ _⟩

/-- Bytes written to host memory read back. -/
theorem hostBytes_hostPut (a : Nat) (bs : List Byte) (s : State) : hostBytes a bs.length (hostPut a bs s) = bs :=
  memRead_write _ _ _ _

/-- Bytes programmed into the flash read back. -/
theorem flashBytes_flashPut (a : Nat) (bs : List Byte) (s : State) : flashBytes a bs.length (flashPut a bs s) = bs :=
  memRead_write _ _ _ _

/-- Bytes written to the AON SRAM read back. -/
theorem aonBytes_aonPut (a : Nat) (bs : List Byte) (s : State) : aonBytes a bs.length (aonPut a bs s) = bs :=
  memRead_write _ _ _ _

/-! ## Outcomes -/

/-- The one thing that the outcome of a meaning is. -/
theorem toNext_eq (s : State) : toNext s = .next (tidyMem s) := rfl

theorem toNext_inj_iff (s t : State) : toNext s = .next t ↔ t = tidyMem s := by
  unfold toNext
  constructor
  · intro h; injection h with h; exact h.symm
  · rintro rfl; rfl

end Sys2Proof.Machine
end

