-- ==== Sys2Proof/Laws/Regs.lean ====
section
/-!
SUPPORT. Registers: what a register reads after a write of it or of another, the bits of a field, and what the shared gates
of a register write answer.
-/
namespace Sys2Proof.Machine

/-! ## One register -/

@[simp] theorem getReg_setReg_self (pg bank off : Nat) (v : Word) (s : State) :
    getReg pg bank off (setReg pg bank off v s) = v := by
  simp [getReg, setReg]

theorem getReg_setReg_ne {pg bank off pg' bank' off' : Nat} (h : rk pg bank off ≠ rk pg' bank' off') (v : Word)
    (s : State) : getReg pg bank off (setReg pg' bank' off' v s) = getReg pg bank off s := by
  simp [getReg, setReg, tabFind_set_ne h]

/-- A register written twice holds the second value. -/
theorem tabSet_tabSet {α : Type} (k : Nat) (v w : α) (t : Tab α) : tabSet k w (tabSet k v t) = tabSet k w t := by
  induction t with
  | nil => simp [tabSet]
  | cons e t ih =>
    obtain ⟨k', v'⟩ := e
    by_cases h1 : k' < k
    · simp [tabSet, h1, ih]
    · by_cases h2 : k' = k
      · subst h2; simp [tabSet]
      · simp [tabSet, h1, h2]

@[simp] theorem setReg_setReg (pg bank off : Nat) (v w : Word) (s : State) :
    setReg pg bank off w (setReg pg bank off v s) = setReg pg bank off w s := by
  simp [setReg, tabSet_tabSet]

/-! ## Fields -/

theorem bit_fmask (lo n k : Nat) : bit (fmask lo n) k = decide (lo ≤ k ∧ k < lo + n ∧ k < 32) := by
  unfold bit fmask
  rw [BitVec.getLsbD_ofNat, Nat.testBit_mul_two_pow, Nat.testBit_two_pow_sub_one]
  by_cases h1 : lo ≤ k <;> by_cases h2 : k < 32 <;> (simp [h1, h2]; try omega)

theorem bit_putFld (w : Word) (lo n v k : Nat) (hk : k < 32) :
    bit (putFld w lo n v) k = if lo ≤ k ∧ k < lo + n then v.testBit (k - lo) else bit w k := by
  have hm := bit_fmask lo n k
  unfold bit at hm
  unfold bit putFld
  rw [BitVec.getLsbD_or, BitVec.getLsbD_and, BitVec.getLsbD_not, hm, BitVec.getLsbD_ofNat, Nat.testBit_mul_two_pow,
    Nat.testBit_mod_two_pow]
  by_cases h1 : lo ≤ k <;> by_cases h2 : k < lo + n <;> (simp [h1, h2, hk]; try omega)

theorem fld_testBit (w : Word) (lo n j : Nat) : (fld w lo n).testBit j = (decide (j < n) && bit w (lo + j)) := by
  unfold fld bit
  rw [Nat.testBit_mod_two_pow, Nat.testBit_div_two_pow, BitVec.getLsbD]
  congr 2
  omega

/-- A field reads back what was put into it. -/
theorem fld_putFld_self (w : Word) (lo n v : Nat) (h : lo + n ≤ 32) : fld (putFld w lo n v) lo n = v % 2 ^ n := by
  apply Nat.eq_of_testBit_eq
  intro j
  rw [fld_testBit, Nat.testBit_mod_two_pow]
  by_cases hj : j < n
  · rw [bit_putFld _ _ _ _ _ (by omega), if_pos (by omega)]
    simp [hj]
  · simp [hj]

/-- A field apart from the one that is put keeps its value. -/
theorem fld_putFld_ne (w : Word) (lo n v lo' n' : Nat) (hb : lo' + n' ≤ 32) (h : lo' + n' ≤ lo ∨ lo + n ≤ lo') :
    fld (putFld w lo n v) lo' n' = fld w lo' n' := by
  apply Nat.eq_of_testBit_eq
  intro j
  rw [fld_testBit, fld_testBit]
  by_cases hj : j < n'
  · rw [bit_putFld _ _ _ _ _ (by omega), if_neg (by omega)]
  · simp [hj]

@[simp] theorem getFld_setFld_self (pg bank off lo n v : Nat) (h : lo + n ≤ 32) (s : State) :
    getFld pg bank off lo n (setFld pg bank off lo n v s) = v % 2 ^ n := by
  simp [getFld, setFld, fld_putFld_self _ _ _ _ h]

theorem getReg_setFld_ne {pg bank off pg' bank' off' : Nat} (h : rk pg bank off ≠ rk pg' bank' off') (lo n v : Nat)
    (s : State) : getReg pg bank off (setFld pg' bank' off' lo n v s) = getReg pg bank off s :=
  getReg_setReg_ne h _ _

/-! ## The gates of a register write -/

/-- A write that takes effect. -/
theorem blockWrite_heard {r : Requester} {pg off : Nat} {s : State} (h : Heard r pg off s = true) (f : State → State) :
    blockWrite r pg off f s = f s := by
  simp only [Heard, Bool.and_eq_true, Bool.not_eq_true'] at h
  simp [blockWrite, h.1.1, h.1.2, h.2]

/-- A write to a function's region that takes effect. -/
theorem regionWrite_heard {r : Requester} {fn : Nat} {s : State} (h : HeardFn r fn s = true) (f : State → State) :
    regionWrite r fn f s = f s := by
  simp only [HeardFn, Bool.and_eq_true, Bool.not_eq_true'] at h
  simp [regionWrite, h.1.1, h.1.2, h.2]

end Sys2Proof.Machine
end

