-- ==== Sys2Proof/Laws/Irq.lean ====
section
/-!
SUPPORT. What an interrupt condition and an event of a source can do: which registers they may change, and that nothing else
of the state changes but the output and, for an event, Basin's inbox.
-/
namespace Sys2Proof.Machine

/-- `t` differs from `s` at most in registers of `R`, the output, Basin's state, Proofer's state and the free counter. -/
def Alters (R : Nat → Prop) (s t : State) : Prop :=
  OtherRegs R s t ∧ t = { s with regs := t.regs, out := t.out, bsn := t.bsn, pwr := t.pwr, free := t.free }

theorem Alters.refl (R : Nat → Prop) (s : State) : Alters R s s := ⟨fun _ _ => rfl, rfl⟩

theorem Alters.trans {R : Nat → Prop} {s t u : State} (h : Alters R s t) (h' : Alters R t u) : Alters R s u := by
  refine ⟨fun k hk => (h'.1 k hk).trans (h.1 k hk), ?_⟩
  obtain ⟨_, h⟩ := h
  obtain ⟨_, h'⟩ := h'
  rw [h', h]

theorem Alters.mono {R R' : Nat → Prop} {s t : State} (h : Alters R s t) (hr : ∀ k, R k → R' k) : Alters R' s t :=
  ⟨fun k hk => h.1 k (fun h => hk (hr k h)), h.2⟩

theorem Alters.getReg {R : Nat → Prop} {s t : State} (h : Alters R s t) {pg bank off : Nat} (hk : ¬ R (rk pg bank off)) :
    getReg pg bank off t = getReg pg bank off s := by
  simp [Machine.getReg, h.1 _ hk]

theorem Alters.mem {R : Nat → Prop} {s t : State} (h : Alters R s t) : (tidyMem t).mem = (tidyMem s).mem := by
  rw [h.2]; rfl

theorem Alters.fe {R : Nat → Prop} {s t : State} (h : Alters R s t) : t.fe = s.fe := by rw [h.2]

theorem Alters.cpt {R : Nat → Prop} {s t : State} (h : Alters R s t) : t.cpt = s.cpt := by rw [h.2]

theorem Alters.foldl {α : Type} {R : Nat → Prop} (f : State → α → State) (h : ∀ s a, Alters R s (f s a)) :
    ∀ (l : List α) (s : State), Alters R s (l.foldl f s)
  | [], s => .refl R s
  | a :: l, s => (h s a).trans (Alters.foldl f h l (f s a))

theorem alters_setReg {R : Nat → Prop} (pg bank off : Nat) (v : Word) (s : State) (h : R (rk pg bank off)) :
    Alters R s (setReg pg bank off v s) :=
  ⟨fun k hk => tabFind_set_ne (by rintro rfl; exact hk h) _ _, rfl⟩

theorem alters_setFld {R : Nat → Prop} (pg bank off lo n v : Nat) (s : State) (h : R (rk pg bank off)) :
    Alters R s (setFld pg bank off lo n v s) := alters_setReg _ _ _ _ s h

theorem alters_count32 {R : Nat → Prop} (pg bank off : Nat) (s : State) (h : R (rk pg bank off)) :
    Alters R s (count32 pg bank off s) := alters_setReg _ _ _ _ s h

/-- The registers that a condition of a page may change: IRQ_RAW, IRQ_PEND and the PF's pending vectors. -/
def irqRegs (pg k : Nat) : Prop := k = rk pg 0 0x010 ∨ k = rk pg 0 0x018 ∨ k / 65536 / 512 = pgPba

/-- The registers that an event at a page may change: those of its conditions, FLT_STICKY and FLT_CNT. -/
def faultRegs (pg k : Nat) : Prop := irqRegs pg k ∨ k = rk pg 0 0x020 ∨ k = rk pg 0 0x02C

theorem sendMsix_pf (vec : Nat) (hv : vec < 2048) (s : State) :
    OtherRegs (fun k => k / 65536 / 512 = pgPba) s (sendMsix 0 vec s) ∧
      sendMsix 0 vec s = { s with regs := (sendMsix 0 vec s).regs, out := (sendMsix 0 vec s).out } := by
  unfold sendMsix
  split
  · exact ⟨fun _ _ => rfl, rfl⟩
  · split
    · refine ⟨fun k hk => ?_, rfl⟩
      refine tabFind_set_ne ?_ _ _
      rintro rfl
      exact hk (by simp only [rk, pgPba]; omega)
    · exact ⟨fun _ _ => rfl, rfl⟩

theorem sumNotify_does (pg : Nat) (b : Bool) (s : State) :
    OtherRegs (irqRegs pg) s (sumNotify pg b s) ∧
      sumNotify pg b s = { s with regs := (sumNotify pg b s).regs, out := (sumNotify pg b s).out } := by
  unfold sumNotify
  split
  · obtain ⟨h1, h2⟩ := sendMsix_pf (getFld pgGlb 0 0x108 16 11 s) (by unfold getFld fld; omega) s
    exact ⟨fun k hk => h1 k (fun h => hk (.inr (.inr h))), h2⟩
  · exact ⟨fun _ _ => rfl, rfl⟩

theorem setPend_does (pg : Nat) (bits : Word) (s : State) :
    OtherRegs (irqRegs pg) s (setPend pg bits s) ∧
      setPend pg bits s = { s with regs := (setPend pg bits s).regs, out := (setPend pg bits s).out } := by
  unfold setPend
  obtain ⟨h1, h2⟩ := sumNotify_does pg (irqReq pg s) (setReg pg 0 0x018 (getReg pg 0 0x018 s ||| bits) s)
  refine ⟨fun k hk => (h1 k hk).trans (tabFind_set_ne (fun h => hk (.inr (.inl h))) _ _), ?_⟩
  exact h2

/-- What a condition of a page can do: IRQ_RAW and IRQ_PEND of the page, and what the summary interrupt sends. -/
theorem raiseIrq_does (pg j : Nat) (s : State) :
    OtherRegs (irqRegs pg) s (raiseIrq pg j s) ∧
      raiseIrq pg j s = { s with regs := (raiseIrq pg j s).regs, out := (raiseIrq pg j s).out } := by
  unfold raiseIrq
  split
  · exact ⟨fun _ _ => rfl, rfl⟩
  · obtain ⟨h1, h2⟩ := setPend_does pg (oneBit j) (setReg pg 0 0x010 (getReg pg 0 0x010 s ||| oneBit j) s)
    exact ⟨fun k hk => (h1 k hk).trans (tabFind_set_ne (fun h => hk (.inl h)) _ _), h2⟩

theorem alters_raiseIrq {R : Nat → Prop} (pg j : Nat) (s : State) (h : ∀ k, irqRegs pg k → R k) :
    Alters R s (raiseIrq pg j s) := by
  obtain ⟨h1, h2⟩ := raiseIrq_does pg j s
  exact ⟨fun k hk => h1 k (fun h' => hk (h k h')), by rw [h2]⟩

/-- What a sticky bit can do: FLT_STICKY, and condition 31. -/
theorem setSticky_does (pg b : Nat) (s : State) :
    OtherRegs (faultRegs pg) s (setSticky pg b s) ∧
      setSticky pg b s = { s with regs := (setSticky pg b s).regs, out := (setSticky pg b s).out } := by
  unfold setSticky
  obtain ⟨h1, h2⟩ := raiseIrq_does pg 31 (setReg pg 0 0x020 (getReg pg 0 0x020 s ||| oneBit b) s)
  exact ⟨fun k hk => (h1 k (fun h => hk (.inl h))).trans (tabFind_set_ne (fun h => hk (.inr (.inl h))) _ _), h2⟩

/-- What an event at a sticky bit can do: the page's fault and condition registers, the output, and Basin's inbox. -/
theorem faultAt_does (src pg b : Nat) (s : State) :
    OtherRegs (faultRegs pg) s (faultAt src pg b s) ∧
      faultAt src pg b s =
        { s with regs := (faultAt src pg b s).regs, out := (faultAt src pg b s).out, bsn := (faultAt src pg b s).bsn } := by
  obtain ⟨h1, h2⟩ := setSticky_does pg b s
  have h3 : OtherRegs (faultRegs pg) s (count32 pg 0 0x02C (setSticky pg b s)) := fun k hk =>
    (tabFind_set_ne (fun h => hk (.inr (.inr h))) _ _).trans (h1 k hk)
  have h4 : count32 pg 0 0x02C (setSticky pg b s) =
      { s with regs := (count32 pg 0 0x02C (setSticky pg b s)).regs, out := (setSticky pg b s).out } := by
    show setReg pg 0 0x02C _ (setSticky pg b s) = _
    rw [h2]; rfl
  unfold faultAt
  simp only
  split
  · refine ⟨h3, ?_⟩; rw [h4]
  · refine ⟨h3, ?_⟩; rw [h4]

theorem alters_fault {R : Nat → Prop} (i : Nat) (s : State) (h : ∀ k, faultRegs (srcHome i).1 k → R k) :
    Alters R s (fault i s) := by
  obtain ⟨h1, h2⟩ := faultAt_does i (srcHome i).1 (srcHome i).2 s
  exact ⟨fun k hk => h1 k (fun h' => hk (h k h')), by unfold fault; rw [h2]⟩

/-! ## Bits -/

theorem bit_or (a b : Word) (k : Nat) : bit (a ||| b) k = (bit a k || bit b k) := by simp [bit]

theorem bit_and (a b : Word) (k : Nat) : bit (a &&& b) k = (bit a k && bit b k) := by simp [bit]

theorem bit_oneBit (j k : Nat) (h : j < 32) : bit (oneBit j) k = decide (k = j) := by
  unfold bit oneBit
  rw [BitVec.getLsbD_ofNat, Nat.testBit_two_pow]
  by_cases hk : k = j
  · subst hk; simp [h]
  · simp [hk]; intro _ h; exact absurd h.symm hk

/-- Condition `j` stands in IRQ_RAW after it arises. -/
theorem raiseIrq_raw (pg j : Nat) (hp : pg ≠ pgPba) (hj : j < 32) (s : State) :
    bit (getReg pg 0 0x010 (raiseIrq pg j s)) j = true := by
  unfold raiseIrq
  split
  · assumption
  · unfold setPend sumNotify
    have key : ∀ t : State, bit (getReg pg 0 0x010 t) j = true →
        bit (getReg pg 0 0x010 (if (!irqReq pg (setReg pg 0 0x010 (getReg pg 0 0x010 s ||| oneBit j) s) && irqReq pg t &&
          bit (getReg pgGlb 0 0x108 t) 0) = true then sendMsix 0 (getFld pgGlb 0 0x108 16 11 t) t else t)) j = true := by
      intro t ht
      split
      · obtain ⟨h1, -⟩ := sendMsix_pf (getFld pgGlb 0 0x108 16 11 t) (by unfold getFld fld; omega) t
        have := h1 (rk pg 0 0x010) (by simp only [rk]; omega)
        unfold getReg; rw [this]; exact ht
      · exact ht
    apply key
    rw [getReg_setReg_ne (by simp only [rk]; omega), getReg_setReg_self, bit_or, bit_oneBit _ _ hj]
    simp

end Sys2Proof.Machine
end

