-- ==== Sys2Proof/Laws/Proofer.lean ====
section
/-!
SUPPORT. What Proofer's shared operations can do: throttle reasons, targets, publications.
-/
namespace Sys2Proof.Machine

/-- The registers that a throttle reason may change: THR_EVT, THR_LAST, the page's conditions. -/
def thrRegs (k : Nat) : Prop := (∃ r < 8, k = rk pgPwr 0 (0x160 + 4 * r)) ∨ k = rk pgPwr 0 0x180 ∨ irqRegs pgPwr k

/-- The registers that a due step may change: WEIR_STS and DEFER_CNT of a cluster. -/
def stepRegs (k : Nat) : Prop := ∃ c < 16, k = rk (pgWeir c) 0 0x104 ∨ k = rk (pgWeir c) 0 0x110

/-- The registers of a publication: the caps and the budget, and those of the check of R319, of the targets and reasons. -/
def pubRegs (k : Nat) : Prop :=
  k = rk pgPwr 0 0x118 ∨ k = rk pgPwr 0 0x110 ∨ (∃ i < 20, k = rk pgPwr 0 (0x1A0 + 4 * i)) ∨ faultRegs pgBsn k ∨
    stepRegs k ∨ thrRegs k

theorem setThr_does (r c : Nat) (on : Bool) (s : State) (hr : r < 8) :
    Alters thrRegs s (setThr r c on s) ∧ (setThr r c on s).bsn = s.bsn ∧
      ∃ n, (setThr r c on s).pwr = { s.pwr with thr := tabSet r on s.pwr.thr, thrSeen := n } := by
  unfold setThr
  simp only
  generalize (if on && !(s.pwr.thrSeen.contains r) then r :: s.pwr.thrSeen else s.pwr.thrSeen) = n
  refine and_assoc.mp (And.intro ?_ (⟨n, ?_⟩ : ∃ n, _)) <;> split
  all_goals try exact ⟨⟨fun _ _ => rfl, rfl⟩, rfl⟩
  all_goals try rfl
  · obtain ⟨h1, h2⟩ := raiseIrq_does pgPwr 1 (setReg pgPwr 0 0x180 (w32 (c + r * 16 + 128))
      (count32 pgPwr 0 (0x160 + 4 * r) { s with pwr := { s.pwr with thr := tabSet r on s.pwr.thr, thrSeen := n } }))
    refine ⟨⟨fun k hk => ?_, ?_⟩, ?_⟩
    · refine (h1 k (fun h => hk (.inr (.inr h)))).trans ?_
      refine (tabFind_set_ne (fun h => hk (.inr (.inl h))) _ _).trans ?_
      exact tabFind_set_ne (fun h => hk (.inl ⟨r, hr, h⟩)) _ _
    · rw [h2]; rfl
    · rw [h2]; rfl
  · obtain ⟨-, h2⟩ := raiseIrq_does pgPwr 1 (setReg pgPwr 0 0x180 (w32 (c + r * 16 + 128))
      (count32 pgPwr 0 (0x160 + 4 * r) { s with pwr := { s.pwr with thr := tabSet r on s.pwr.thr, thrSeen := n } }))
    rw [h2]; rfl

/-- The reasons put in order change THR_EVT, THR_LAST and conditions, and of Proofer's state the reasons in force. -/
theorem updateThr_does (s : State) :
    Alters thrRegs s (updateThr s) ∧ (updateThr s).bsn = s.bsn ∧
      ∃ t n, (updateThr s).pwr = { s.pwr with thr := t, thrSeen := n } := by
  have h : ∀ (r c : Nat) (on : Bool) (u : State), r < 8 →
      (Alters thrRegs s u ∧ u.bsn = s.bsn ∧ ∃ t n, u.pwr = { s.pwr with thr := t, thrSeen := n }) →
      (Alters thrRegs s (setThr r c on u) ∧ (setThr r c on u).bsn = s.bsn ∧
        ∃ t n, (setThr r c on u).pwr = { s.pwr with thr := t, thrSeen := n }) := by
    intro r c on u hr ⟨h1, h2, t, n, h3⟩
    obtain ⟨g1, g2, m, g3⟩ := setThr_does r c on u hr
    exact ⟨h1.trans g1, g2.trans h2, _, m, g3.trans (by rw [h3])⟩
  unfold updateThr
  exact h _ _ _ _ (by omega) (h _ _ _ _ (by omega) (h _ _ _ _ (by omega) (h _ _ _ _ (by omega)
    (h _ _ _ _ (by omega) (h _ _ _ _ (by omega) ⟨.refl _ _, rfl, _, _, rfl⟩)))))

theorem setTarget_does (c p : Nat) (s : State) (hc : c < 16) :
    Alters stepRegs s (setTarget c p s) ∧ (setTarget c p s).bsn = s.bsn ∧
      ∃ b, (setTarget c p s).pwr = { s.pwr with target := tabSet c p s.pwr.target, stepping := b } := by
  unfold setTarget
  simp only
  split
  · exact ⟨⟨fun _ _ => rfl, rfl⟩, rfl, _, rfl⟩
  · split
    · refine ⟨⟨fun k hk => ?_, rfl⟩, rfl, _, rfl⟩
      refine (tabFind_set_ne (fun h => hk ⟨c, hc, .inr h⟩) _ _).trans ?_
      exact tabFind_set_ne (fun h => hk ⟨c, hc, .inl h⟩) _ _
    · exact ⟨⟨fun _ _ => rfl, rfl⟩, rfl, _, rfl⟩

/-- A cluster's target after a publication: its step registers and FIX_STS, and of Proofer's state the targets, the due steps, the
holds and the energy reason. -/
theorem applyTarget_does (c : Nat) (s : State) (hc : c < 16) :
    Alters (fun k => stepRegs k ∨ k = rk pgPwr 0 0x118) s (applyTarget s c) ∧ (applyTarget s c).bsn = s.bsn ∧
      ∃ b h e, (applyTarget s c).pwr =
        { s.pwr with target := tabSet c (chooseTarget c s).1 s.pwr.target, stepping := b, thermHold := h, enerDown := e } := by
  unfold applyTarget
  simp only
  generalize (tabSet c (b2n (chooseTarget c s).2.1 + 2 * b2n (chooseTarget c s).2.2.1) s.pwr.thermHold) = th
  generalize (if (chooseTarget c s).2.2.2 then tabSet c true s.pwr.enerDown else s.pwr.enerDown) = ed
  generalize hu : ({ s with pwr := { s.pwr with thermHold := th, enerDown := ed } } : State) = u
  have hb : Alters (fun k => k = rk pgPwr 0 0x118) u (breakFixed u) ∧ (breakFixed u).bsn = u.bsn ∧ (breakFixed u).pwr = u.pwr := by
    unfold breakFixed
    split
    · exact ⟨⟨fun k hk => tabFind_set_ne hk _ _, rfl⟩, rfl, rfl⟩
    · exact ⟨.refl _ _, rfl, rfl⟩
  have hv : ∀ v, v = u ∨ v = breakFixed u →
      Alters (fun k => k = rk pgPwr 0 0x118) u v ∧ v.bsn = u.bsn ∧ v.pwr = u.pwr := by
    rintro v (rfl | rfl)
    · exact ⟨.refl _ _, rfl, rfl⟩
    · exact hb
  generalize hw : (if (chooseTarget c s).1 = 12 then u else breakFixed u) = v
  obtain ⟨k1, k2, k3⟩ := hv v (by rw [← hw]; split <;> simp)
  obtain ⟨h1, h2, b, h3⟩ := setTarget_does c (chooseTarget c s).1 v hc
  subst hu
  refine ⟨⟨fun k hk => ?_, ?_⟩, h2.trans k2, b, _, _, h3.trans (by rw [k3])⟩
  · exact (h1.1 k (fun h => hk (.inl h))).trans (k1.1 k (fun h => hk (.inr h)))
  · have k4 := k1.2
    have h4 := h1.2
    rw [h4, k4]

/-- A fold of an operation that keeps what `g` reads keeps it. -/
theorem foldl_keeps {α β : Type} (g : State → β) (f : State → α → State) (l : List α)
    (h : ∀ s, ∀ a ∈ l, g (f s a) = g s) (s : State) : g (l.foldl f s) = g s := by
  induction l generalizing s with
  | nil => rfl
  | cons a l ih =>
    simp only [List.foldl_cons]
    rw [ih (fun s b hb => h s b (by simp [hb])), h s a (by simp)]

theorem Alters.foldlMem {α : Type} {R : Nat → Prop} (f : State → α → State) (l : List α)
    (h : ∀ s, ∀ a ∈ l, Alters R s (f s a)) (s : State) : Alters R s (l.foldl f s) := by
  induction l generalizing s with
  | nil => exact .refl R s
  | cons a l ih =>
    simp only [List.foldl_cons]
    exact (h s a (by simp)).trans (ih (fun s b hb => h s b (by simp [hb])) _)

theorem overdrawCheck_does (s : State) :
    Alters (faultRegs pgBsn) s (overdrawCheck s) ∧ (overdrawCheck s).pwr = s.pwr := by
  unfold overdrawCheck
  simp only
  split
  · refine ⟨alters_fault 231 s (fun k h => h), ?_⟩
    obtain ⟨-, h2⟩ := faultAt_does 231 (srcHome 231).1 (srcHome 231).2 s
    unfold fault; rw [h2]
  · exact ⟨.refl _ s, rfl⟩

end Sys2Proof.Machine
end

