-- ==== Sys2Proof/Laws/Units.lean ====
section
/-!
SUPPORT. What the updates of one entry of a unit's table leave alone: one lemma a field of the state, and one a field of the unit,
so that no proof unfolds a record update; and that a read of a register does not see them.
-/
namespace Sys2Proof.Machine

/-! ## setSlot -/

@[simp] theorem setSlot_pending (k : Nat) (v : Slot) (s : State) : (setSlot k v s).pending = s.pending := rfl
@[simp] theorem setSlot_regs (k : Nat) (v : Slot) (s : State) : (setSlot k v s).regs = s.regs := rfl
@[simp] theorem setSlot_out (k : Nat) (v : Slot) (s : State) : (setSlot k v s).out = s.out := rfl
@[simp] theorem setSlot_free (k : Nat) (v : Slot) (s : State) : (setSlot k v s).free = s.free := rfl
@[simp] theorem setSlot_lat (k : Nat) (v : Slot) (s : State) : (setSlot k v s).lat = s.lat := rfl
@[simp] theorem setSlot_pins (k : Nat) (v : Slot) (s : State) : (setSlot k v s).pins = s.pins := rfl
@[simp] theorem setSlot_aon (k : Nat) (v : Slot) (s : State) : (setSlot k v s).aon = s.aon := rfl
@[simp] theorem setSlot_mem (k : Nat) (v : Slot) (s : State) : (setSlot k v s).mem = s.mem := rfl
@[simp] theorem setSlot_pwr (k : Nat) (v : Slot) (s : State) : (setSlot k v s).pwr = s.pwr := rfl
@[simp] theorem setSlot_bsn (k : Nat) (v : Slot) (s : State) : (setSlot k v s).bsn = s.bsn := rfl
@[simp] theorem setSlot_rst (k : Nat) (v : Slot) (s : State) : (setSlot k v s).rst = s.rst := rfl
@[simp] theorem setSlot_cst (k : Nat) (v : Slot) (s : State) : (setSlot k v s).cst = s.cst := rfl
@[simp] theorem setSlot_mmu (k : Nat) (v : Slot) (s : State) : (setSlot k v s).mmu = s.mmu := rfl
@[simp] theorem setSlot_dma (k : Nat) (v : Slot) (s : State) : (setSlot k v s).dma = s.dma := rfl
@[simp] theorem setSlot_fnc (k : Nat) (v : Slot) (s : State) : (setSlot k v s).fnc = s.fnc := rfl
@[simp] theorem setSlot_hbc (k : Nat) (v : Slot) (s : State) : (setSlot k v s).hbc = s.hbc := rfl
@[simp] theorem setSlot_pci (k : Nat) (v : Slot) (s : State) : (setSlot k v s).pci = s.pci := rfl
@[simp] theorem setSlot_sec (k : Nat) (v : Slot) (s : State) : (setSlot k v s).sec = s.sec := rfl
@[simp] theorem setSlot_mbx (k : Nat) (v : Slot) (s : State) : (setSlot k v s).mbx = s.mbx := rfl
@[simp] theorem setSlot_cpt (k : Nat) (v : Slot) (s : State) : (setSlot k v s).cpt = s.cpt := rfl
@[simp] theorem setSlot_lvn (k : Nat) (v : Slot) (s : State) : (setSlot k v s).lvn = s.lvn := rfl
@[simp] theorem setSlot_tlr (k : Nat) (v : Slot) (s : State) : (setSlot k v s).tlr = s.tlr := rfl
@[simp] theorem setSlot_cmp (k : Nat) (v : Slot) (s : State) : (setSlot k v s).cmp = s.cmp := rfl
@[simp] theorem setSlot_cz (k : Nat) (v : Slot) (s : State) : (setSlot k v s).cz = s.cz := rfl
@[simp] theorem setSlot_svl (k : Nat) (v : Slot) (s : State) : (setSlot k v s).svl = s.svl := rfl
@[simp] theorem setSlot_fe_queues (k : Nat) (v : Slot) (s : State) : (setSlot k v s).fe.queues = s.fe.queues := rfl
@[simp] theorem setSlot_fe_jobs (k : Nat) (v : Slot) (s : State) : (setSlot k v s).fe.jobs = s.fe.jobs := rfl
@[simp] theorem setSlot_fe_nextJob (k : Nat) (v : Slot) (s : State) : (setSlot k v s).fe.nextJob = s.fe.nextJob := rfl
@[simp] theorem setSlot_fe_us (k : Nat) (v : Slot) (s : State) : (setSlot k v s).fe.us = s.fe.us := rfl
@[simp] theorem setSlot_fe_batchRef (k : Nat) (v : Slot) (s : State) : (setSlot k v s).fe.batchRef = s.fe.batchRef := rfl
@[simp] theorem setSlot_fe_heldDb (k : Nat) (v : Slot) (s : State) : (setSlot k v s).fe.heldDb = s.fe.heldDb := rfl
@[simp] theorem setSlot_fe_disabling (k : Nat) (v : Slot) (s : State) : (setSlot k v s).fe.disabling = s.fe.disabling := rfl
@[simp] theorem setSlot_fe_turn (k : Nat) (v : Slot) (s : State) : (setSlot k v s).fe.turn = s.fe.turn := rfl
@[simp] theorem getReg_setSlot (pg bank off : Nat) (k : Nat) (v : Slot) (s : State) :
    getReg pg bank off (setSlot k v s) = getReg pg bank off s := rfl

/-! ## setQueue -/

@[simp] theorem setQueue_pending (slot q : Nat) (v : Queue) (s : State) : (setQueue slot q v s).pending = s.pending := rfl
@[simp] theorem setQueue_regs (slot q : Nat) (v : Queue) (s : State) : (setQueue slot q v s).regs = s.regs := rfl
@[simp] theorem setQueue_out (slot q : Nat) (v : Queue) (s : State) : (setQueue slot q v s).out = s.out := rfl
@[simp] theorem setQueue_free (slot q : Nat) (v : Queue) (s : State) : (setQueue slot q v s).free = s.free := rfl
@[simp] theorem setQueue_lat (slot q : Nat) (v : Queue) (s : State) : (setQueue slot q v s).lat = s.lat := rfl
@[simp] theorem setQueue_pins (slot q : Nat) (v : Queue) (s : State) : (setQueue slot q v s).pins = s.pins := rfl
@[simp] theorem setQueue_aon (slot q : Nat) (v : Queue) (s : State) : (setQueue slot q v s).aon = s.aon := rfl
@[simp] theorem setQueue_mem (slot q : Nat) (v : Queue) (s : State) : (setQueue slot q v s).mem = s.mem := rfl
@[simp] theorem setQueue_pwr (slot q : Nat) (v : Queue) (s : State) : (setQueue slot q v s).pwr = s.pwr := rfl
@[simp] theorem setQueue_bsn (slot q : Nat) (v : Queue) (s : State) : (setQueue slot q v s).bsn = s.bsn := rfl
@[simp] theorem setQueue_rst (slot q : Nat) (v : Queue) (s : State) : (setQueue slot q v s).rst = s.rst := rfl
@[simp] theorem setQueue_cst (slot q : Nat) (v : Queue) (s : State) : (setQueue slot q v s).cst = s.cst := rfl
@[simp] theorem setQueue_mmu (slot q : Nat) (v : Queue) (s : State) : (setQueue slot q v s).mmu = s.mmu := rfl
@[simp] theorem setQueue_dma (slot q : Nat) (v : Queue) (s : State) : (setQueue slot q v s).dma = s.dma := rfl
@[simp] theorem setQueue_fnc (slot q : Nat) (v : Queue) (s : State) : (setQueue slot q v s).fnc = s.fnc := rfl
@[simp] theorem setQueue_hbc (slot q : Nat) (v : Queue) (s : State) : (setQueue slot q v s).hbc = s.hbc := rfl
@[simp] theorem setQueue_pci (slot q : Nat) (v : Queue) (s : State) : (setQueue slot q v s).pci = s.pci := rfl
@[simp] theorem setQueue_sec (slot q : Nat) (v : Queue) (s : State) : (setQueue slot q v s).sec = s.sec := rfl
@[simp] theorem setQueue_mbx (slot q : Nat) (v : Queue) (s : State) : (setQueue slot q v s).mbx = s.mbx := rfl
@[simp] theorem setQueue_cpt (slot q : Nat) (v : Queue) (s : State) : (setQueue slot q v s).cpt = s.cpt := rfl
@[simp] theorem setQueue_lvn (slot q : Nat) (v : Queue) (s : State) : (setQueue slot q v s).lvn = s.lvn := rfl
@[simp] theorem setQueue_tlr (slot q : Nat) (v : Queue) (s : State) : (setQueue slot q v s).tlr = s.tlr := rfl
@[simp] theorem setQueue_cmp (slot q : Nat) (v : Queue) (s : State) : (setQueue slot q v s).cmp = s.cmp := rfl
@[simp] theorem setQueue_cz (slot q : Nat) (v : Queue) (s : State) : (setQueue slot q v s).cz = s.cz := rfl
@[simp] theorem setQueue_svl (slot q : Nat) (v : Queue) (s : State) : (setQueue slot q v s).svl = s.svl := rfl
@[simp] theorem setQueue_fe_slots (slot q : Nat) (v : Queue) (s : State) : (setQueue slot q v s).fe.slots = s.fe.slots := rfl
@[simp] theorem setQueue_fe_jobs (slot q : Nat) (v : Queue) (s : State) : (setQueue slot q v s).fe.jobs = s.fe.jobs := rfl
@[simp] theorem setQueue_fe_nextJob (slot q : Nat) (v : Queue) (s : State) : (setQueue slot q v s).fe.nextJob = s.fe.nextJob := rfl
@[simp] theorem setQueue_fe_us (slot q : Nat) (v : Queue) (s : State) : (setQueue slot q v s).fe.us = s.fe.us := rfl
@[simp] theorem setQueue_fe_batchRef (slot q : Nat) (v : Queue) (s : State) : (setQueue slot q v s).fe.batchRef = s.fe.batchRef := rfl
@[simp] theorem setQueue_fe_heldDb (slot q : Nat) (v : Queue) (s : State) : (setQueue slot q v s).fe.heldDb = s.fe.heldDb := rfl
@[simp] theorem setQueue_fe_disabling (slot q : Nat) (v : Queue) (s : State) : (setQueue slot q v s).fe.disabling = s.fe.disabling := rfl
@[simp] theorem setQueue_fe_turn (slot q : Nat) (v : Queue) (s : State) : (setQueue slot q v s).fe.turn = s.fe.turn := rfl
@[simp] theorem getReg_setQueue (pg bank off : Nat) (slot q : Nat) (v : Queue) (s : State) :
    getReg pg bank off (setQueue slot q v s) = getReg pg bank off s := rfl

/-! ## setJob -/

@[simp] theorem setJob_pending (j : Nat) (v : Job) (s : State) : (setJob j v s).pending = s.pending := rfl
@[simp] theorem setJob_regs (j : Nat) (v : Job) (s : State) : (setJob j v s).regs = s.regs := rfl
@[simp] theorem setJob_out (j : Nat) (v : Job) (s : State) : (setJob j v s).out = s.out := rfl
@[simp] theorem setJob_free (j : Nat) (v : Job) (s : State) : (setJob j v s).free = s.free := rfl
@[simp] theorem setJob_lat (j : Nat) (v : Job) (s : State) : (setJob j v s).lat = s.lat := rfl
@[simp] theorem setJob_pins (j : Nat) (v : Job) (s : State) : (setJob j v s).pins = s.pins := rfl
@[simp] theorem setJob_aon (j : Nat) (v : Job) (s : State) : (setJob j v s).aon = s.aon := rfl
@[simp] theorem setJob_mem (j : Nat) (v : Job) (s : State) : (setJob j v s).mem = s.mem := rfl
@[simp] theorem setJob_pwr (j : Nat) (v : Job) (s : State) : (setJob j v s).pwr = s.pwr := rfl
@[simp] theorem setJob_bsn (j : Nat) (v : Job) (s : State) : (setJob j v s).bsn = s.bsn := rfl
@[simp] theorem setJob_rst (j : Nat) (v : Job) (s : State) : (setJob j v s).rst = s.rst := rfl
@[simp] theorem setJob_cst (j : Nat) (v : Job) (s : State) : (setJob j v s).cst = s.cst := rfl
@[simp] theorem setJob_mmu (j : Nat) (v : Job) (s : State) : (setJob j v s).mmu = s.mmu := rfl
@[simp] theorem setJob_dma (j : Nat) (v : Job) (s : State) : (setJob j v s).dma = s.dma := rfl
@[simp] theorem setJob_fnc (j : Nat) (v : Job) (s : State) : (setJob j v s).fnc = s.fnc := rfl
@[simp] theorem setJob_hbc (j : Nat) (v : Job) (s : State) : (setJob j v s).hbc = s.hbc := rfl
@[simp] theorem setJob_pci (j : Nat) (v : Job) (s : State) : (setJob j v s).pci = s.pci := rfl
@[simp] theorem setJob_sec (j : Nat) (v : Job) (s : State) : (setJob j v s).sec = s.sec := rfl
@[simp] theorem setJob_mbx (j : Nat) (v : Job) (s : State) : (setJob j v s).mbx = s.mbx := rfl
@[simp] theorem setJob_cpt (j : Nat) (v : Job) (s : State) : (setJob j v s).cpt = s.cpt := rfl
@[simp] theorem setJob_lvn (j : Nat) (v : Job) (s : State) : (setJob j v s).lvn = s.lvn := rfl
@[simp] theorem setJob_tlr (j : Nat) (v : Job) (s : State) : (setJob j v s).tlr = s.tlr := rfl
@[simp] theorem setJob_cmp (j : Nat) (v : Job) (s : State) : (setJob j v s).cmp = s.cmp := rfl
@[simp] theorem setJob_cz (j : Nat) (v : Job) (s : State) : (setJob j v s).cz = s.cz := rfl
@[simp] theorem setJob_svl (j : Nat) (v : Job) (s : State) : (setJob j v s).svl = s.svl := rfl
@[simp] theorem setJob_fe_slots (j : Nat) (v : Job) (s : State) : (setJob j v s).fe.slots = s.fe.slots := rfl
@[simp] theorem setJob_fe_queues (j : Nat) (v : Job) (s : State) : (setJob j v s).fe.queues = s.fe.queues := rfl
@[simp] theorem setJob_fe_nextJob (j : Nat) (v : Job) (s : State) : (setJob j v s).fe.nextJob = s.fe.nextJob := rfl
@[simp] theorem setJob_fe_us (j : Nat) (v : Job) (s : State) : (setJob j v s).fe.us = s.fe.us := rfl
@[simp] theorem setJob_fe_batchRef (j : Nat) (v : Job) (s : State) : (setJob j v s).fe.batchRef = s.fe.batchRef := rfl
@[simp] theorem setJob_fe_heldDb (j : Nat) (v : Job) (s : State) : (setJob j v s).fe.heldDb = s.fe.heldDb := rfl
@[simp] theorem setJob_fe_disabling (j : Nat) (v : Job) (s : State) : (setJob j v s).fe.disabling = s.fe.disabling := rfl
@[simp] theorem setJob_fe_turn (j : Nat) (v : Job) (s : State) : (setJob j v s).fe.turn = s.fe.turn := rfl
@[simp] theorem getReg_setJob (pg bank off : Nat) (j : Nat) (v : Job) (s : State) :
    getReg pg bank off (setJob j v s) = getReg pg bank off s := rfl

/-! ## setCore -/

@[simp] theorem setCore_pending (p : Nat) (v : Core) (s : State) : (setCore p v s).pending = s.pending := rfl
@[simp] theorem setCore_regs (p : Nat) (v : Core) (s : State) : (setCore p v s).regs = s.regs := rfl
@[simp] theorem setCore_out (p : Nat) (v : Core) (s : State) : (setCore p v s).out = s.out := rfl
@[simp] theorem setCore_free (p : Nat) (v : Core) (s : State) : (setCore p v s).free = s.free := rfl
@[simp] theorem setCore_lat (p : Nat) (v : Core) (s : State) : (setCore p v s).lat = s.lat := rfl
@[simp] theorem setCore_pins (p : Nat) (v : Core) (s : State) : (setCore p v s).pins = s.pins := rfl
@[simp] theorem setCore_aon (p : Nat) (v : Core) (s : State) : (setCore p v s).aon = s.aon := rfl
@[simp] theorem setCore_mem (p : Nat) (v : Core) (s : State) : (setCore p v s).mem = s.mem := rfl
@[simp] theorem setCore_pwr (p : Nat) (v : Core) (s : State) : (setCore p v s).pwr = s.pwr := rfl
@[simp] theorem setCore_bsn (p : Nat) (v : Core) (s : State) : (setCore p v s).bsn = s.bsn := rfl
@[simp] theorem setCore_rst (p : Nat) (v : Core) (s : State) : (setCore p v s).rst = s.rst := rfl
@[simp] theorem setCore_cst (p : Nat) (v : Core) (s : State) : (setCore p v s).cst = s.cst := rfl
@[simp] theorem setCore_mmu (p : Nat) (v : Core) (s : State) : (setCore p v s).mmu = s.mmu := rfl
@[simp] theorem setCore_dma (p : Nat) (v : Core) (s : State) : (setCore p v s).dma = s.dma := rfl
@[simp] theorem setCore_fe (p : Nat) (v : Core) (s : State) : (setCore p v s).fe = s.fe := rfl
@[simp] theorem setCore_fnc (p : Nat) (v : Core) (s : State) : (setCore p v s).fnc = s.fnc := rfl
@[simp] theorem setCore_hbc (p : Nat) (v : Core) (s : State) : (setCore p v s).hbc = s.hbc := rfl
@[simp] theorem setCore_pci (p : Nat) (v : Core) (s : State) : (setCore p v s).pci = s.pci := rfl
@[simp] theorem setCore_sec (p : Nat) (v : Core) (s : State) : (setCore p v s).sec = s.sec := rfl
@[simp] theorem setCore_mbx (p : Nat) (v : Core) (s : State) : (setCore p v s).mbx = s.mbx := rfl
@[simp] theorem setCore_lvn (p : Nat) (v : Core) (s : State) : (setCore p v s).lvn = s.lvn := rfl
@[simp] theorem setCore_tlr (p : Nat) (v : Core) (s : State) : (setCore p v s).tlr = s.tlr := rfl
@[simp] theorem setCore_cmp (p : Nat) (v : Core) (s : State) : (setCore p v s).cmp = s.cmp := rfl
@[simp] theorem setCore_cz (p : Nat) (v : Core) (s : State) : (setCore p v s).cz = s.cz := rfl
@[simp] theorem setCore_svl (p : Nat) (v : Core) (s : State) : (setCore p v s).svl = s.svl := rfl
@[simp] theorem setCore_cpt_blocks (p : Nat) (v : Core) (s : State) : (setCore p v s).cpt.blocks = s.cpt.blocks := rfl
@[simp] theorem setCore_cpt_kernels (p : Nat) (v : Core) (s : State) : (setCore p v s).cpt.kernels = s.cpt.kernels := rfl
@[simp] theorem setCore_cpt_nextBlock (p : Nat) (v : Core) (s : State) : (setCore p v s).cpt.nextBlock = s.cpt.nextBlock := rfl
@[simp] theorem setCore_cpt_seq (p : Nat) (v : Core) (s : State) : (setCore p v s).cpt.seq = s.cpt.seq := rfl
@[simp] theorem setCore_cpt_saved (p : Nat) (v : Core) (s : State) : (setCore p v s).cpt.saved = s.cpt.saved := rfl
@[simp] theorem setCore_cpt_gates (p : Nat) (v : Core) (s : State) : (setCore p v s).cpt.gates = s.cpt.gates := rfl
@[simp] theorem setCore_cpt_lmErr (p : Nat) (v : Core) (s : State) : (setCore p v s).cpt.lmErr = s.cpt.lmErr := rfl
@[simp] theorem setCore_cpt_cmErr (p : Nat) (v : Core) (s : State) : (setCore p v s).cpt.cmErr = s.cpt.cmErr := rfl
@[simp] theorem getReg_setCore (pg bank off : Nat) (p : Nat) (v : Core) (s : State) :
    getReg pg bank off (setCore p v s) = getReg pg bank off s := rfl

/-! ## setMe -/

@[simp] theorem setMe_pending (p e : Nat) (v : Me) (s : State) : (setMe p e v s).pending = s.pending := rfl
@[simp] theorem setMe_regs (p e : Nat) (v : Me) (s : State) : (setMe p e v s).regs = s.regs := rfl
@[simp] theorem setMe_out (p e : Nat) (v : Me) (s : State) : (setMe p e v s).out = s.out := rfl
@[simp] theorem setMe_free (p e : Nat) (v : Me) (s : State) : (setMe p e v s).free = s.free := rfl
@[simp] theorem setMe_lat (p e : Nat) (v : Me) (s : State) : (setMe p e v s).lat = s.lat := rfl
@[simp] theorem setMe_pins (p e : Nat) (v : Me) (s : State) : (setMe p e v s).pins = s.pins := rfl
@[simp] theorem setMe_aon (p e : Nat) (v : Me) (s : State) : (setMe p e v s).aon = s.aon := rfl
@[simp] theorem setMe_mem (p e : Nat) (v : Me) (s : State) : (setMe p e v s).mem = s.mem := rfl
@[simp] theorem setMe_pwr (p e : Nat) (v : Me) (s : State) : (setMe p e v s).pwr = s.pwr := rfl
@[simp] theorem setMe_bsn (p e : Nat) (v : Me) (s : State) : (setMe p e v s).bsn = s.bsn := rfl
@[simp] theorem setMe_rst (p e : Nat) (v : Me) (s : State) : (setMe p e v s).rst = s.rst := rfl
@[simp] theorem setMe_cst (p e : Nat) (v : Me) (s : State) : (setMe p e v s).cst = s.cst := rfl
@[simp] theorem setMe_mmu (p e : Nat) (v : Me) (s : State) : (setMe p e v s).mmu = s.mmu := rfl
@[simp] theorem setMe_dma (p e : Nat) (v : Me) (s : State) : (setMe p e v s).dma = s.dma := rfl
@[simp] theorem setMe_fe (p e : Nat) (v : Me) (s : State) : (setMe p e v s).fe = s.fe := rfl
@[simp] theorem setMe_fnc (p e : Nat) (v : Me) (s : State) : (setMe p e v s).fnc = s.fnc := rfl
@[simp] theorem setMe_hbc (p e : Nat) (v : Me) (s : State) : (setMe p e v s).hbc = s.hbc := rfl
@[simp] theorem setMe_pci (p e : Nat) (v : Me) (s : State) : (setMe p e v s).pci = s.pci := rfl
@[simp] theorem setMe_sec (p e : Nat) (v : Me) (s : State) : (setMe p e v s).sec = s.sec := rfl
@[simp] theorem setMe_mbx (p e : Nat) (v : Me) (s : State) : (setMe p e v s).mbx = s.mbx := rfl
@[simp] theorem setMe_lvn (p e : Nat) (v : Me) (s : State) : (setMe p e v s).lvn = s.lvn := rfl
@[simp] theorem setMe_tlr (p e : Nat) (v : Me) (s : State) : (setMe p e v s).tlr = s.tlr := rfl
@[simp] theorem setMe_cmp (p e : Nat) (v : Me) (s : State) : (setMe p e v s).cmp = s.cmp := rfl
@[simp] theorem setMe_cz (p e : Nat) (v : Me) (s : State) : (setMe p e v s).cz = s.cz := rfl
@[simp] theorem setMe_svl (p e : Nat) (v : Me) (s : State) : (setMe p e v s).svl = s.svl := rfl
@[simp] theorem setMe_cpt_blocks (p e : Nat) (v : Me) (s : State) : (setMe p e v s).cpt.blocks = s.cpt.blocks := rfl
@[simp] theorem setMe_cpt_kernels (p e : Nat) (v : Me) (s : State) : (setMe p e v s).cpt.kernels = s.cpt.kernels := rfl
@[simp] theorem setMe_cpt_nextBlock (p e : Nat) (v : Me) (s : State) : (setMe p e v s).cpt.nextBlock = s.cpt.nextBlock := rfl
@[simp] theorem setMe_cpt_seq (p e : Nat) (v : Me) (s : State) : (setMe p e v s).cpt.seq = s.cpt.seq := rfl
@[simp] theorem setMe_cpt_saved (p e : Nat) (v : Me) (s : State) : (setMe p e v s).cpt.saved = s.cpt.saved := rfl
@[simp] theorem setMe_cpt_gates (p e : Nat) (v : Me) (s : State) : (setMe p e v s).cpt.gates = s.cpt.gates := rfl
@[simp] theorem setMe_cpt_lmErr (p e : Nat) (v : Me) (s : State) : (setMe p e v s).cpt.lmErr = s.cpt.lmErr := rfl
@[simp] theorem setMe_cpt_cmErr (p e : Nat) (v : Me) (s : State) : (setMe p e v s).cpt.cmErr = s.cpt.cmErr := rfl
@[simp] theorem getReg_setMe (pg bank off : Nat) (p e : Nat) (v : Me) (s : State) :
    getReg pg bank off (setMe p e v s) = getReg pg bank off s := rfl

/-! ## setGroup -/

@[simp] theorem setGroup_pending (p g : Nat) (v : Group) (s : State) : (setGroup p g v s).pending = s.pending := rfl
@[simp] theorem setGroup_regs (p g : Nat) (v : Group) (s : State) : (setGroup p g v s).regs = s.regs := rfl
@[simp] theorem setGroup_out (p g : Nat) (v : Group) (s : State) : (setGroup p g v s).out = s.out := rfl
@[simp] theorem setGroup_free (p g : Nat) (v : Group) (s : State) : (setGroup p g v s).free = s.free := rfl
@[simp] theorem setGroup_lat (p g : Nat) (v : Group) (s : State) : (setGroup p g v s).lat = s.lat := rfl
@[simp] theorem setGroup_pins (p g : Nat) (v : Group) (s : State) : (setGroup p g v s).pins = s.pins := rfl
@[simp] theorem setGroup_aon (p g : Nat) (v : Group) (s : State) : (setGroup p g v s).aon = s.aon := rfl
@[simp] theorem setGroup_mem (p g : Nat) (v : Group) (s : State) : (setGroup p g v s).mem = s.mem := rfl
@[simp] theorem setGroup_pwr (p g : Nat) (v : Group) (s : State) : (setGroup p g v s).pwr = s.pwr := rfl
@[simp] theorem setGroup_bsn (p g : Nat) (v : Group) (s : State) : (setGroup p g v s).bsn = s.bsn := rfl
@[simp] theorem setGroup_rst (p g : Nat) (v : Group) (s : State) : (setGroup p g v s).rst = s.rst := rfl
@[simp] theorem setGroup_cst (p g : Nat) (v : Group) (s : State) : (setGroup p g v s).cst = s.cst := rfl
@[simp] theorem setGroup_mmu (p g : Nat) (v : Group) (s : State) : (setGroup p g v s).mmu = s.mmu := rfl
@[simp] theorem setGroup_dma (p g : Nat) (v : Group) (s : State) : (setGroup p g v s).dma = s.dma := rfl
@[simp] theorem setGroup_fe (p g : Nat) (v : Group) (s : State) : (setGroup p g v s).fe = s.fe := rfl
@[simp] theorem setGroup_fnc (p g : Nat) (v : Group) (s : State) : (setGroup p g v s).fnc = s.fnc := rfl
@[simp] theorem setGroup_hbc (p g : Nat) (v : Group) (s : State) : (setGroup p g v s).hbc = s.hbc := rfl
@[simp] theorem setGroup_pci (p g : Nat) (v : Group) (s : State) : (setGroup p g v s).pci = s.pci := rfl
@[simp] theorem setGroup_sec (p g : Nat) (v : Group) (s : State) : (setGroup p g v s).sec = s.sec := rfl
@[simp] theorem setGroup_mbx (p g : Nat) (v : Group) (s : State) : (setGroup p g v s).mbx = s.mbx := rfl
@[simp] theorem setGroup_lvn (p g : Nat) (v : Group) (s : State) : (setGroup p g v s).lvn = s.lvn := rfl
@[simp] theorem setGroup_tlr (p g : Nat) (v : Group) (s : State) : (setGroup p g v s).tlr = s.tlr := rfl
@[simp] theorem setGroup_cmp (p g : Nat) (v : Group) (s : State) : (setGroup p g v s).cmp = s.cmp := rfl
@[simp] theorem setGroup_cz (p g : Nat) (v : Group) (s : State) : (setGroup p g v s).cz = s.cz := rfl
@[simp] theorem setGroup_svl (p g : Nat) (v : Group) (s : State) : (setGroup p g v s).svl = s.svl := rfl
@[simp] theorem setGroup_cpt_blocks (p g : Nat) (v : Group) (s : State) : (setGroup p g v s).cpt.blocks = s.cpt.blocks := rfl
@[simp] theorem setGroup_cpt_kernels (p g : Nat) (v : Group) (s : State) : (setGroup p g v s).cpt.kernels = s.cpt.kernels := rfl
@[simp] theorem setGroup_cpt_nextBlock (p g : Nat) (v : Group) (s : State) : (setGroup p g v s).cpt.nextBlock = s.cpt.nextBlock := rfl
@[simp] theorem setGroup_cpt_seq (p g : Nat) (v : Group) (s : State) : (setGroup p g v s).cpt.seq = s.cpt.seq := rfl
@[simp] theorem setGroup_cpt_saved (p g : Nat) (v : Group) (s : State) : (setGroup p g v s).cpt.saved = s.cpt.saved := rfl
@[simp] theorem setGroup_cpt_gates (p g : Nat) (v : Group) (s : State) : (setGroup p g v s).cpt.gates = s.cpt.gates := rfl
@[simp] theorem setGroup_cpt_lmErr (p g : Nat) (v : Group) (s : State) : (setGroup p g v s).cpt.lmErr = s.cpt.lmErr := rfl
@[simp] theorem setGroup_cpt_cmErr (p g : Nat) (v : Group) (s : State) : (setGroup p g v s).cpt.cmErr = s.cpt.cmErr := rfl
@[simp] theorem getReg_setGroup (pg bank off : Nat) (p g : Nat) (v : Group) (s : State) :
    getReg pg bank off (setGroup p g v s) = getReg pg bank off s := rfl

/-! ## setBlock -/

@[simp] theorem setBlock_pending (b : Nat) (v : Block) (s : State) : (setBlock b v s).pending = s.pending := rfl
@[simp] theorem setBlock_regs (b : Nat) (v : Block) (s : State) : (setBlock b v s).regs = s.regs := rfl
@[simp] theorem setBlock_out (b : Nat) (v : Block) (s : State) : (setBlock b v s).out = s.out := rfl
@[simp] theorem setBlock_free (b : Nat) (v : Block) (s : State) : (setBlock b v s).free = s.free := rfl
@[simp] theorem setBlock_lat (b : Nat) (v : Block) (s : State) : (setBlock b v s).lat = s.lat := rfl
@[simp] theorem setBlock_pins (b : Nat) (v : Block) (s : State) : (setBlock b v s).pins = s.pins := rfl
@[simp] theorem setBlock_aon (b : Nat) (v : Block) (s : State) : (setBlock b v s).aon = s.aon := rfl
@[simp] theorem setBlock_mem (b : Nat) (v : Block) (s : State) : (setBlock b v s).mem = s.mem := rfl
@[simp] theorem setBlock_pwr (b : Nat) (v : Block) (s : State) : (setBlock b v s).pwr = s.pwr := rfl
@[simp] theorem setBlock_bsn (b : Nat) (v : Block) (s : State) : (setBlock b v s).bsn = s.bsn := rfl
@[simp] theorem setBlock_rst (b : Nat) (v : Block) (s : State) : (setBlock b v s).rst = s.rst := rfl
@[simp] theorem setBlock_cst (b : Nat) (v : Block) (s : State) : (setBlock b v s).cst = s.cst := rfl
@[simp] theorem setBlock_mmu (b : Nat) (v : Block) (s : State) : (setBlock b v s).mmu = s.mmu := rfl
@[simp] theorem setBlock_dma (b : Nat) (v : Block) (s : State) : (setBlock b v s).dma = s.dma := rfl
@[simp] theorem setBlock_fe (b : Nat) (v : Block) (s : State) : (setBlock b v s).fe = s.fe := rfl
@[simp] theorem setBlock_fnc (b : Nat) (v : Block) (s : State) : (setBlock b v s).fnc = s.fnc := rfl
@[simp] theorem setBlock_hbc (b : Nat) (v : Block) (s : State) : (setBlock b v s).hbc = s.hbc := rfl
@[simp] theorem setBlock_pci (b : Nat) (v : Block) (s : State) : (setBlock b v s).pci = s.pci := rfl
@[simp] theorem setBlock_sec (b : Nat) (v : Block) (s : State) : (setBlock b v s).sec = s.sec := rfl
@[simp] theorem setBlock_mbx (b : Nat) (v : Block) (s : State) : (setBlock b v s).mbx = s.mbx := rfl
@[simp] theorem setBlock_lvn (b : Nat) (v : Block) (s : State) : (setBlock b v s).lvn = s.lvn := rfl
@[simp] theorem setBlock_tlr (b : Nat) (v : Block) (s : State) : (setBlock b v s).tlr = s.tlr := rfl
@[simp] theorem setBlock_cmp (b : Nat) (v : Block) (s : State) : (setBlock b v s).cmp = s.cmp := rfl
@[simp] theorem setBlock_cz (b : Nat) (v : Block) (s : State) : (setBlock b v s).cz = s.cz := rfl
@[simp] theorem setBlock_svl (b : Nat) (v : Block) (s : State) : (setBlock b v s).svl = s.svl := rfl
@[simp] theorem setBlock_cpt_cores (b : Nat) (v : Block) (s : State) : (setBlock b v s).cpt.cores = s.cpt.cores := rfl
@[simp] theorem setBlock_cpt_kernels (b : Nat) (v : Block) (s : State) : (setBlock b v s).cpt.kernels = s.cpt.kernels := rfl
@[simp] theorem setBlock_cpt_nextBlock (b : Nat) (v : Block) (s : State) : (setBlock b v s).cpt.nextBlock = s.cpt.nextBlock := rfl
@[simp] theorem setBlock_cpt_seq (b : Nat) (v : Block) (s : State) : (setBlock b v s).cpt.seq = s.cpt.seq := rfl
@[simp] theorem setBlock_cpt_saved (b : Nat) (v : Block) (s : State) : (setBlock b v s).cpt.saved = s.cpt.saved := rfl
@[simp] theorem setBlock_cpt_gates (b : Nat) (v : Block) (s : State) : (setBlock b v s).cpt.gates = s.cpt.gates := rfl
@[simp] theorem setBlock_cpt_lmErr (b : Nat) (v : Block) (s : State) : (setBlock b v s).cpt.lmErr = s.cpt.lmErr := rfl
@[simp] theorem setBlock_cpt_cmErr (b : Nat) (v : Block) (s : State) : (setBlock b v s).cpt.cmErr = s.cpt.cmErr := rfl
@[simp] theorem getReg_setBlock (pg bank off : Nat) (b : Nat) (v : Block) (s : State) :
    getReg pg bank off (setBlock b v s) = getReg pg bank off s := rfl

/-! ## setKernel -/

@[simp] theorem setKernel_pending (j : Nat) (v : Kernel) (s : State) : (setKernel j v s).pending = s.pending := rfl
@[simp] theorem setKernel_regs (j : Nat) (v : Kernel) (s : State) : (setKernel j v s).regs = s.regs := rfl
@[simp] theorem setKernel_out (j : Nat) (v : Kernel) (s : State) : (setKernel j v s).out = s.out := rfl
@[simp] theorem setKernel_free (j : Nat) (v : Kernel) (s : State) : (setKernel j v s).free = s.free := rfl
@[simp] theorem setKernel_lat (j : Nat) (v : Kernel) (s : State) : (setKernel j v s).lat = s.lat := rfl
@[simp] theorem setKernel_pins (j : Nat) (v : Kernel) (s : State) : (setKernel j v s).pins = s.pins := rfl
@[simp] theorem setKernel_aon (j : Nat) (v : Kernel) (s : State) : (setKernel j v s).aon = s.aon := rfl
@[simp] theorem setKernel_mem (j : Nat) (v : Kernel) (s : State) : (setKernel j v s).mem = s.mem := rfl
@[simp] theorem setKernel_pwr (j : Nat) (v : Kernel) (s : State) : (setKernel j v s).pwr = s.pwr := rfl
@[simp] theorem setKernel_bsn (j : Nat) (v : Kernel) (s : State) : (setKernel j v s).bsn = s.bsn := rfl
@[simp] theorem setKernel_rst (j : Nat) (v : Kernel) (s : State) : (setKernel j v s).rst = s.rst := rfl
@[simp] theorem setKernel_cst (j : Nat) (v : Kernel) (s : State) : (setKernel j v s).cst = s.cst := rfl
@[simp] theorem setKernel_mmu (j : Nat) (v : Kernel) (s : State) : (setKernel j v s).mmu = s.mmu := rfl
@[simp] theorem setKernel_dma (j : Nat) (v : Kernel) (s : State) : (setKernel j v s).dma = s.dma := rfl
@[simp] theorem setKernel_fe (j : Nat) (v : Kernel) (s : State) : (setKernel j v s).fe = s.fe := rfl
@[simp] theorem setKernel_fnc (j : Nat) (v : Kernel) (s : State) : (setKernel j v s).fnc = s.fnc := rfl
@[simp] theorem setKernel_hbc (j : Nat) (v : Kernel) (s : State) : (setKernel j v s).hbc = s.hbc := rfl
@[simp] theorem setKernel_pci (j : Nat) (v : Kernel) (s : State) : (setKernel j v s).pci = s.pci := rfl
@[simp] theorem setKernel_sec (j : Nat) (v : Kernel) (s : State) : (setKernel j v s).sec = s.sec := rfl
@[simp] theorem setKernel_mbx (j : Nat) (v : Kernel) (s : State) : (setKernel j v s).mbx = s.mbx := rfl
@[simp] theorem setKernel_lvn (j : Nat) (v : Kernel) (s : State) : (setKernel j v s).lvn = s.lvn := rfl
@[simp] theorem setKernel_tlr (j : Nat) (v : Kernel) (s : State) : (setKernel j v s).tlr = s.tlr := rfl
@[simp] theorem setKernel_cmp (j : Nat) (v : Kernel) (s : State) : (setKernel j v s).cmp = s.cmp := rfl
@[simp] theorem setKernel_cz (j : Nat) (v : Kernel) (s : State) : (setKernel j v s).cz = s.cz := rfl
@[simp] theorem setKernel_svl (j : Nat) (v : Kernel) (s : State) : (setKernel j v s).svl = s.svl := rfl
@[simp] theorem setKernel_cpt_cores (j : Nat) (v : Kernel) (s : State) : (setKernel j v s).cpt.cores = s.cpt.cores := rfl
@[simp] theorem setKernel_cpt_blocks (j : Nat) (v : Kernel) (s : State) : (setKernel j v s).cpt.blocks = s.cpt.blocks := rfl
@[simp] theorem setKernel_cpt_nextBlock (j : Nat) (v : Kernel) (s : State) : (setKernel j v s).cpt.nextBlock = s.cpt.nextBlock := rfl
@[simp] theorem setKernel_cpt_seq (j : Nat) (v : Kernel) (s : State) : (setKernel j v s).cpt.seq = s.cpt.seq := rfl
@[simp] theorem setKernel_cpt_saved (j : Nat) (v : Kernel) (s : State) : (setKernel j v s).cpt.saved = s.cpt.saved := rfl
@[simp] theorem setKernel_cpt_gates (j : Nat) (v : Kernel) (s : State) : (setKernel j v s).cpt.gates = s.cpt.gates := rfl
@[simp] theorem setKernel_cpt_lmErr (j : Nat) (v : Kernel) (s : State) : (setKernel j v s).cpt.lmErr = s.cpt.lmErr := rfl
@[simp] theorem setKernel_cpt_cmErr (j : Nat) (v : Kernel) (s : State) : (setKernel j v s).cpt.cmErr = s.cpt.cmErr := rfl
@[simp] theorem getReg_setKernel (pg bank off : Nat) (j : Nat) (v : Kernel) (s : State) :
    getReg pg bank off (setKernel j v s) = getReg pg bank off s := rfl

/-! ## setChan -/

@[simp] theorem setChan_pending (c : Nat) (v : Chan) (s : State) : (setChan c v s).pending = s.pending := rfl
@[simp] theorem setChan_regs (c : Nat) (v : Chan) (s : State) : (setChan c v s).regs = s.regs := rfl
@[simp] theorem setChan_out (c : Nat) (v : Chan) (s : State) : (setChan c v s).out = s.out := rfl
@[simp] theorem setChan_free (c : Nat) (v : Chan) (s : State) : (setChan c v s).free = s.free := rfl
@[simp] theorem setChan_lat (c : Nat) (v : Chan) (s : State) : (setChan c v s).lat = s.lat := rfl
@[simp] theorem setChan_pins (c : Nat) (v : Chan) (s : State) : (setChan c v s).pins = s.pins := rfl
@[simp] theorem setChan_aon (c : Nat) (v : Chan) (s : State) : (setChan c v s).aon = s.aon := rfl
@[simp] theorem setChan_mem (c : Nat) (v : Chan) (s : State) : (setChan c v s).mem = s.mem := rfl
@[simp] theorem setChan_pwr (c : Nat) (v : Chan) (s : State) : (setChan c v s).pwr = s.pwr := rfl
@[simp] theorem setChan_bsn (c : Nat) (v : Chan) (s : State) : (setChan c v s).bsn = s.bsn := rfl
@[simp] theorem setChan_rst (c : Nat) (v : Chan) (s : State) : (setChan c v s).rst = s.rst := rfl
@[simp] theorem setChan_cst (c : Nat) (v : Chan) (s : State) : (setChan c v s).cst = s.cst := rfl
@[simp] theorem setChan_mmu (c : Nat) (v : Chan) (s : State) : (setChan c v s).mmu = s.mmu := rfl
@[simp] theorem setChan_fe (c : Nat) (v : Chan) (s : State) : (setChan c v s).fe = s.fe := rfl
@[simp] theorem setChan_fnc (c : Nat) (v : Chan) (s : State) : (setChan c v s).fnc = s.fnc := rfl
@[simp] theorem setChan_hbc (c : Nat) (v : Chan) (s : State) : (setChan c v s).hbc = s.hbc := rfl
@[simp] theorem setChan_pci (c : Nat) (v : Chan) (s : State) : (setChan c v s).pci = s.pci := rfl
@[simp] theorem setChan_sec (c : Nat) (v : Chan) (s : State) : (setChan c v s).sec = s.sec := rfl
@[simp] theorem setChan_mbx (c : Nat) (v : Chan) (s : State) : (setChan c v s).mbx = s.mbx := rfl
@[simp] theorem setChan_cpt (c : Nat) (v : Chan) (s : State) : (setChan c v s).cpt = s.cpt := rfl
@[simp] theorem setChan_lvn (c : Nat) (v : Chan) (s : State) : (setChan c v s).lvn = s.lvn := rfl
@[simp] theorem setChan_tlr (c : Nat) (v : Chan) (s : State) : (setChan c v s).tlr = s.tlr := rfl
@[simp] theorem setChan_cmp (c : Nat) (v : Chan) (s : State) : (setChan c v s).cmp = s.cmp := rfl
@[simp] theorem setChan_cz (c : Nat) (v : Chan) (s : State) : (setChan c v s).cz = s.cz := rfl
@[simp] theorem setChan_svl (c : Nat) (v : Chan) (s : State) : (setChan c v s).svl = s.svl := rfl
@[simp] theorem setChan_dma_waiting (c : Nat) (v : Chan) (s : State) : (setChan c v s).dma.waiting = s.dma.waiting := rfl
@[simp] theorem setChan_dma_token (c : Nat) (v : Chan) (s : State) : (setChan c v s).dma.token = s.dma.token := rfl
@[simp] theorem getReg_setChan (pg bank off : Nat) (c : Nat) (v : Chan) (s : State) :
    getReg pg bank off (setChan c v s) = getReg pg bank off s := rfl

/-! ## setBatch -/

@[simp] theorem setBatch_pending (b : Nat) (v : Batch) (s : State) : (setBatch b v s).pending = s.pending := rfl
@[simp] theorem setBatch_regs (b : Nat) (v : Batch) (s : State) : (setBatch b v s).regs = s.regs := rfl
@[simp] theorem setBatch_out (b : Nat) (v : Batch) (s : State) : (setBatch b v s).out = s.out := rfl
@[simp] theorem setBatch_free (b : Nat) (v : Batch) (s : State) : (setBatch b v s).free = s.free := rfl
@[simp] theorem setBatch_lat (b : Nat) (v : Batch) (s : State) : (setBatch b v s).lat = s.lat := rfl
@[simp] theorem setBatch_pins (b : Nat) (v : Batch) (s : State) : (setBatch b v s).pins = s.pins := rfl
@[simp] theorem setBatch_aon (b : Nat) (v : Batch) (s : State) : (setBatch b v s).aon = s.aon := rfl
@[simp] theorem setBatch_mem (b : Nat) (v : Batch) (s : State) : (setBatch b v s).mem = s.mem := rfl
@[simp] theorem setBatch_pwr (b : Nat) (v : Batch) (s : State) : (setBatch b v s).pwr = s.pwr := rfl
@[simp] theorem setBatch_bsn (b : Nat) (v : Batch) (s : State) : (setBatch b v s).bsn = s.bsn := rfl
@[simp] theorem setBatch_rst (b : Nat) (v : Batch) (s : State) : (setBatch b v s).rst = s.rst := rfl
@[simp] theorem setBatch_cst (b : Nat) (v : Batch) (s : State) : (setBatch b v s).cst = s.cst := rfl
@[simp] theorem setBatch_mmu (b : Nat) (v : Batch) (s : State) : (setBatch b v s).mmu = s.mmu := rfl
@[simp] theorem setBatch_dma (b : Nat) (v : Batch) (s : State) : (setBatch b v s).dma = s.dma := rfl
@[simp] theorem setBatch_fe (b : Nat) (v : Batch) (s : State) : (setBatch b v s).fe = s.fe := rfl
@[simp] theorem setBatch_fnc (b : Nat) (v : Batch) (s : State) : (setBatch b v s).fnc = s.fnc := rfl
@[simp] theorem setBatch_hbc (b : Nat) (v : Batch) (s : State) : (setBatch b v s).hbc = s.hbc := rfl
@[simp] theorem setBatch_pci (b : Nat) (v : Batch) (s : State) : (setBatch b v s).pci = s.pci := rfl
@[simp] theorem setBatch_sec (b : Nat) (v : Batch) (s : State) : (setBatch b v s).sec = s.sec := rfl
@[simp] theorem setBatch_mbx (b : Nat) (v : Batch) (s : State) : (setBatch b v s).mbx = s.mbx := rfl
@[simp] theorem setBatch_cpt (b : Nat) (v : Batch) (s : State) : (setBatch b v s).cpt = s.cpt := rfl
@[simp] theorem setBatch_tlr (b : Nat) (v : Batch) (s : State) : (setBatch b v s).tlr = s.tlr := rfl
@[simp] theorem setBatch_cmp (b : Nat) (v : Batch) (s : State) : (setBatch b v s).cmp = s.cmp := rfl
@[simp] theorem setBatch_cz (b : Nat) (v : Batch) (s : State) : (setBatch b v s).cz = s.cz := rfl
@[simp] theorem setBatch_svl (b : Nat) (v : Batch) (s : State) : (setBatch b v s).svl = s.svl := rfl
@[simp] theorem setBatch_lvn_steps (b : Nat) (v : Batch) (s : State) : (setBatch b v s).lvn.steps = s.lvn.steps := rfl
@[simp] theorem setBatch_lvn_onDie (b : Nat) (v : Batch) (s : State) : (setBatch b v s).lvn.onDie = s.lvn.onDie := rfl
@[simp] theorem setBatch_lvn_ptr (b : Nat) (v : Batch) (s : State) : (setBatch b v s).lvn.ptr = s.lvn.ptr := rfl
@[simp] theorem setBatch_lvn_seq (b : Nat) (v : Batch) (s : State) : (setBatch b v s).lvn.seq = s.lvn.seq := rfl
@[simp] theorem setBatch_lvn_us (b : Nat) (v : Batch) (s : State) : (setBatch b v s).lvn.us = s.lvn.us := rfl
@[simp] theorem setBatch_lvn_parks (b : Nat) (v : Batch) (s : State) : (setBatch b v s).lvn.parks = s.lvn.parks := rfl
@[simp] theorem setBatch_lvn_restores (b : Nat) (v : Batch) (s : State) : (setBatch b v s).lvn.restores = s.lvn.restores := rfl
@[simp] theorem setBatch_lvn_recErr (b : Nat) (v : Batch) (s : State) : (setBatch b v s).lvn.recErr = s.lvn.recErr := rfl
@[simp] theorem getReg_setBatch (pg bank off : Nat) (b : Nat) (v : Batch) (s : State) :
    getReg pg bank off (setBatch b v s) = getReg pg bank off s := rfl

/-! ## setCchan -/

@[simp] theorem setCchan_pending (c : Nat) (x : CChan) (s : State) : (setCchan c x s).pending = s.pending := rfl
@[simp] theorem setCchan_regs (c : Nat) (x : CChan) (s : State) : (setCchan c x s).regs = s.regs := rfl
@[simp] theorem setCchan_out (c : Nat) (x : CChan) (s : State) : (setCchan c x s).out = s.out := rfl
@[simp] theorem setCchan_free (c : Nat) (x : CChan) (s : State) : (setCchan c x s).free = s.free := rfl
@[simp] theorem setCchan_lat (c : Nat) (x : CChan) (s : State) : (setCchan c x s).lat = s.lat := rfl
@[simp] theorem setCchan_pins (c : Nat) (x : CChan) (s : State) : (setCchan c x s).pins = s.pins := rfl
@[simp] theorem setCchan_aon (c : Nat) (x : CChan) (s : State) : (setCchan c x s).aon = s.aon := rfl
@[simp] theorem setCchan_mem (c : Nat) (x : CChan) (s : State) : (setCchan c x s).mem = s.mem := rfl
@[simp] theorem setCchan_pwr (c : Nat) (x : CChan) (s : State) : (setCchan c x s).pwr = s.pwr := rfl
@[simp] theorem setCchan_bsn (c : Nat) (x : CChan) (s : State) : (setCchan c x s).bsn = s.bsn := rfl
@[simp] theorem setCchan_rst (c : Nat) (x : CChan) (s : State) : (setCchan c x s).rst = s.rst := rfl
@[simp] theorem setCchan_cst (c : Nat) (x : CChan) (s : State) : (setCchan c x s).cst = s.cst := rfl
@[simp] theorem setCchan_mmu (c : Nat) (x : CChan) (s : State) : (setCchan c x s).mmu = s.mmu := rfl
@[simp] theorem setCchan_dma (c : Nat) (x : CChan) (s : State) : (setCchan c x s).dma = s.dma := rfl
@[simp] theorem setCchan_fe (c : Nat) (x : CChan) (s : State) : (setCchan c x s).fe = s.fe := rfl
@[simp] theorem setCchan_fnc (c : Nat) (x : CChan) (s : State) : (setCchan c x s).fnc = s.fnc := rfl
@[simp] theorem setCchan_hbc (c : Nat) (x : CChan) (s : State) : (setCchan c x s).hbc = s.hbc := rfl
@[simp] theorem setCchan_pci (c : Nat) (x : CChan) (s : State) : (setCchan c x s).pci = s.pci := rfl
@[simp] theorem setCchan_sec (c : Nat) (x : CChan) (s : State) : (setCchan c x s).sec = s.sec := rfl
@[simp] theorem setCchan_mbx (c : Nat) (x : CChan) (s : State) : (setCchan c x s).mbx = s.mbx := rfl
@[simp] theorem setCchan_cpt (c : Nat) (x : CChan) (s : State) : (setCchan c x s).cpt = s.cpt := rfl
@[simp] theorem setCchan_lvn (c : Nat) (x : CChan) (s : State) : (setCchan c x s).lvn = s.lvn := rfl
@[simp] theorem setCchan_tlr (c : Nat) (x : CChan) (s : State) : (setCchan c x s).tlr = s.tlr := rfl
@[simp] theorem setCchan_cz (c : Nat) (x : CChan) (s : State) : (setCchan c x s).cz = s.cz := rfl
@[simp] theorem setCchan_svl (c : Nat) (x : CChan) (s : State) : (setCchan c x s).svl = s.svl := rfl
@[simp] theorem getReg_setCchan (pg bank off : Nat) (c : Nat) (x : CChan) (s : State) :
    getReg pg bank off (setCchan c x s) = getReg pg bank off s := rfl

/-! ## setLring -/

@[simp] theorem setLring_pending (r : Nat) (x : LRing) (s : State) : (setLring r x s).pending = s.pending := rfl
@[simp] theorem setLring_regs (r : Nat) (x : LRing) (s : State) : (setLring r x s).regs = s.regs := rfl
@[simp] theorem setLring_out (r : Nat) (x : LRing) (s : State) : (setLring r x s).out = s.out := rfl
@[simp] theorem setLring_free (r : Nat) (x : LRing) (s : State) : (setLring r x s).free = s.free := rfl
@[simp] theorem setLring_lat (r : Nat) (x : LRing) (s : State) : (setLring r x s).lat = s.lat := rfl
@[simp] theorem setLring_pins (r : Nat) (x : LRing) (s : State) : (setLring r x s).pins = s.pins := rfl
@[simp] theorem setLring_aon (r : Nat) (x : LRing) (s : State) : (setLring r x s).aon = s.aon := rfl
@[simp] theorem setLring_mem (r : Nat) (x : LRing) (s : State) : (setLring r x s).mem = s.mem := rfl
@[simp] theorem setLring_pwr (r : Nat) (x : LRing) (s : State) : (setLring r x s).pwr = s.pwr := rfl
@[simp] theorem setLring_bsn (r : Nat) (x : LRing) (s : State) : (setLring r x s).bsn = s.bsn := rfl
@[simp] theorem setLring_rst (r : Nat) (x : LRing) (s : State) : (setLring r x s).rst = s.rst := rfl
@[simp] theorem setLring_cst (r : Nat) (x : LRing) (s : State) : (setLring r x s).cst = s.cst := rfl
@[simp] theorem setLring_mmu (r : Nat) (x : LRing) (s : State) : (setLring r x s).mmu = s.mmu := rfl
@[simp] theorem setLring_dma (r : Nat) (x : LRing) (s : State) : (setLring r x s).dma = s.dma := rfl
@[simp] theorem setLring_fe (r : Nat) (x : LRing) (s : State) : (setLring r x s).fe = s.fe := rfl
@[simp] theorem setLring_fnc (r : Nat) (x : LRing) (s : State) : (setLring r x s).fnc = s.fnc := rfl
@[simp] theorem setLring_hbc (r : Nat) (x : LRing) (s : State) : (setLring r x s).hbc = s.hbc := rfl
@[simp] theorem setLring_pci (r : Nat) (x : LRing) (s : State) : (setLring r x s).pci = s.pci := rfl
@[simp] theorem setLring_sec (r : Nat) (x : LRing) (s : State) : (setLring r x s).sec = s.sec := rfl
@[simp] theorem setLring_mbx (r : Nat) (x : LRing) (s : State) : (setLring r x s).mbx = s.mbx := rfl
@[simp] theorem setLring_cpt (r : Nat) (x : LRing) (s : State) : (setLring r x s).cpt = s.cpt := rfl
@[simp] theorem setLring_lvn (r : Nat) (x : LRing) (s : State) : (setLring r x s).lvn = s.lvn := rfl
@[simp] theorem setLring_tlr (r : Nat) (x : LRing) (s : State) : (setLring r x s).tlr = s.tlr := rfl
@[simp] theorem setLring_cmp (r : Nat) (x : LRing) (s : State) : (setLring r x s).cmp = s.cmp := rfl
@[simp] theorem setLring_cz (r : Nat) (x : LRing) (s : State) : (setLring r x s).cz = s.cz := rfl
@[simp] theorem setLring_svl_ports (r : Nat) (x : LRing) (s : State) : (setLring r x s).svl.ports = s.svl.ports := rfl
@[simp] theorem setLring_svl_inbox (r : Nat) (x : LRing) (s : State) : (setLring r x s).svl.inbox = s.svl.inbox := rfl
@[simp] theorem setLring_svl_pOut (r : Nat) (x : LRing) (s : State) : (setLring r x s).svl.pOut = s.svl.pOut := rfl
@[simp] theorem setLring_svl_tags (r : Nat) (x : LRing) (s : State) : (setLring r x s).svl.tags = s.svl.tags := rfl
@[simp] theorem setLring_svl_coll (r : Nat) (x : LRing) (s : State) : (setLring r x s).svl.coll = s.svl.coll := rfl
@[simp] theorem setLring_svl_aborts (r : Nat) (x : LRing) (s : State) : (setLring r x s).svl.aborts = s.svl.aborts := rfl
@[simp] theorem setLring_svl_stopped (r : Nat) (x : LRing) (s : State) : (setLring r x s).svl.stopped = s.svl.stopped := rfl
@[simp] theorem getReg_setLring (pg bank off : Nat) (r : Nat) (x : LRing) (s : State) :
    getReg pg bank off (setLring r x s) = getReg pg bank off s := rfl

/-! ## setImg -/

@[simp] theorem setImg_pending (i : Option ImgSession) (s : State) : (setImg i s).pending = s.pending := rfl
@[simp] theorem setImg_regs (i : Option ImgSession) (s : State) : (setImg i s).regs = s.regs := rfl
@[simp] theorem setImg_out (i : Option ImgSession) (s : State) : (setImg i s).out = s.out := rfl
@[simp] theorem setImg_free (i : Option ImgSession) (s : State) : (setImg i s).free = s.free := rfl
@[simp] theorem setImg_lat (i : Option ImgSession) (s : State) : (setImg i s).lat = s.lat := rfl
@[simp] theorem setImg_pins (i : Option ImgSession) (s : State) : (setImg i s).pins = s.pins := rfl
@[simp] theorem setImg_aon (i : Option ImgSession) (s : State) : (setImg i s).aon = s.aon := rfl
@[simp] theorem setImg_mem (i : Option ImgSession) (s : State) : (setImg i s).mem = s.mem := rfl
@[simp] theorem setImg_pwr (i : Option ImgSession) (s : State) : (setImg i s).pwr = s.pwr := rfl
@[simp] theorem setImg_bsn (i : Option ImgSession) (s : State) : (setImg i s).bsn = s.bsn := rfl
@[simp] theorem setImg_rst (i : Option ImgSession) (s : State) : (setImg i s).rst = s.rst := rfl
@[simp] theorem setImg_cst (i : Option ImgSession) (s : State) : (setImg i s).cst = s.cst := rfl
@[simp] theorem setImg_mmu (i : Option ImgSession) (s : State) : (setImg i s).mmu = s.mmu := rfl
@[simp] theorem setImg_dma (i : Option ImgSession) (s : State) : (setImg i s).dma = s.dma := rfl
@[simp] theorem setImg_fe (i : Option ImgSession) (s : State) : (setImg i s).fe = s.fe := rfl
@[simp] theorem setImg_fnc (i : Option ImgSession) (s : State) : (setImg i s).fnc = s.fnc := rfl
@[simp] theorem setImg_hbc (i : Option ImgSession) (s : State) : (setImg i s).hbc = s.hbc := rfl
@[simp] theorem setImg_pci (i : Option ImgSession) (s : State) : (setImg i s).pci = s.pci := rfl
@[simp] theorem setImg_sec (i : Option ImgSession) (s : State) : (setImg i s).sec = s.sec := rfl
@[simp] theorem setImg_cpt (i : Option ImgSession) (s : State) : (setImg i s).cpt = s.cpt := rfl
@[simp] theorem setImg_lvn (i : Option ImgSession) (s : State) : (setImg i s).lvn = s.lvn := rfl
@[simp] theorem setImg_tlr (i : Option ImgSession) (s : State) : (setImg i s).tlr = s.tlr := rfl
@[simp] theorem setImg_cmp (i : Option ImgSession) (s : State) : (setImg i s).cmp = s.cmp := rfl
@[simp] theorem setImg_cz (i : Option ImgSession) (s : State) : (setImg i s).cz = s.cz := rfl
@[simp] theorem setImg_svl (i : Option ImgSession) (s : State) : (setImg i s).svl = s.svl := rfl
@[simp] theorem setImg_mbx_bulk (i : Option ImgSession) (s : State) : (setImg i s).mbx.bulk = s.mbx.bulk := rfl
@[simp] theorem setImg_mbx_pend (i : Option ImgSession) (s : State) : (setImg i s).mbx.pend = s.mbx.pend := rfl
@[simp] theorem setImg_mbx_staged (i : Option ImgSession) (s : State) : (setImg i s).mbx.staged = s.mbx.staged := rfl
@[simp] theorem getReg_setImg (pg bank off : Nat) (i : Option ImgSession) (s : State) :
    getReg pg bank off (setImg i s) = getReg pg bank off s := rfl

end Sys2Proof.Machine
end

