-- ==== Sys2Proof/WellFormed.lean ====
section
/-!
DEFINITION. Well-formed commands: operands that the manual's interfaces can carry. Every meaning is total: a command that is
not well formed is no command of the part, and what its meaning gives says nothing of the part.
-/
namespace Sys2Proof

/-- An offset of the 32 MiB register space (R396). -/
def busOff (off : Word) : Bool := off.toNat < 2 ^ 25

/-- A 32-bit register's offset (R6). -/
def busReg (off : Word) : Bool := busOff off && off.toNat % 4 == 0

/-- A size that a bus access can have in bytes. -/
def accSize (n : Nat) : Bool := [1, 2, 4, 8, 16, 32, 64].contains n

/-- A BAR2 access of 1 to 4,096 bytes inside the 128 GiB (R396, R397). -/
def bar2Span (off len : Nat) (wdata : Option (List Byte)) : Bool :=
  let n := match wdata with | some bs => bs.length | none => len
  1 ≤ n && n ≤ 4096 && off + n ≤ 2 ^ 37

/-- An inbound request of 1 to 4,096 bytes (R408). -/
def inboundOk (q : InboundReq) : Bool :=
  match q with
  | .read a n => 1 ≤ n && n ≤ 4096 && a < 2 ^ 64
  | .write a bs => 1 ≤ bs.length && bs.length ≤ 4096 && a < 2 ^ 64
  | .translation a => a < 2 ^ 64

/-- A mailbox request: LEN is the payload's length, and the bulk window holds 32 KiB (R412, R413). -/
def reqOk (q : MbReq) : Bool := q.payload.length == q.len.toNat && q.bulk.length ≤ 32768

/-- A packet's data is no longer than a flit stream carries for it (Table 17-3). -/
def packetOk (p : Packet) : Bool := p.data.length ≤ 4096

/-- A well-formed command. -/
def Instr.wf (i : Instr) : Bool :=
  match i with
  | .sysRstNAssert => true
  | .sysRstNDeassert _ => true
  | .bootVerifyComplete => true
  | .registerWrite _ off size _ => busOff off && accSize size
  | .pairLoRead _ off => busReg off.addr
  | .pairLoWrite _ off _ => busReg off
  | .pairHiWrite _ off _ => busReg off
  | .rcRead _ off => busOff off.addr
  | .budSeqRead _ => true
  | .attStsRead _ _ => true
  | .lockSet _ _ => true
  | .lockAll _ _ => true
  | .irqForce _ _ _ => true
  | .aonMsStep => true
  | .crystalSwitch => true
  | .budgetPublish => true
  | .outOfCyclePublication => true
  | .energySample evs => evs.all (fun e => e.count < 2 ^ 32)
  | .sensorSample _ _ => true
  | .hardOverdraw => true
  | .dvfsStepComplete _ => true
  | .droopDetect _ _ => true
  | .droopClear _ _ => true
  | .dvfsHoldExpiry _ => true
  | .coreIdleGate _ => true
  | .meGo _ _ _ => true
  | .meWait _ _ _ => true
  | .gateWindow _ => true
  | .meIdleTimeout _ _ => true
  | .meOpStart _ _ => true
  | .meOpFinish _ _ cycles => 0 < cycles
  | .residueMismatch _ _ _ => true
  | .meInjArm _ _ _ => true
  | .aluInsn _ _ _ _ => true
  | .branch _ _ target _ => target % 8 == 0
  | .load _ _ _ _ => true
  | .store _ _ _ _ => true
  | .atomic _ _ _ _ _ => true
  | .fenceCluster _ _ _ => true
  | .fenceDevice _ _ _ => true
  | .wsync _ _ _ => true
  | .gateCfg _ _ _ => true
  | .gateJoin _ _ _ => true
  | .gatePass _ _ _ => true
  | .gateBcl _ _ _ => true
  | .gateDev _ _ _ => true
  | .maskLive _ _ _ => true
  | .exit _ _ _ => true
  | .rtTrace _ _ _ => true
  | .rtCont _ _ _ => true
  | .rtTraceResult _ _ _ => true
  | .texS _ _ _ => true
  | .pixLd _ _ _ => true
  | .pixSt _ _ _ => true
  | .pixOut _ _ _ => true
  | .blockPlace _ _ => true
  | .preemptRequest _ _ => true
  | .preemptSaveComplete _ _ _ => true
  | .preemptRestore _ _ _ => true
  | .regionFillDone region => region < 49152
  | .regionInv _ _ => true
  | .hbmInit _ _ => true
  | .hbmReady _ => true
  | .patrolScrubStep _ => true
  | .invalidate _ _ => true
  | .invalidateDone => true
  | .faultPostWaiting _ => true
  | .fltqEnable _ _ => true
  | .fltqDisable _ _ => true
  | .fltqConsWrite _ _ => true
  | .dmaChannelAssign _ => true
  | .dmaXlateFault _ _ => true
  | .dmaTransferEnd _ _ => true
  | .chResume _ _ _ => true
  | .atsTranslationCompletion _ _ c => c.addr % 4096 == 0 && 12 ≤ c.log2len
  | .priResponse _ _ _ => true
  | .atsInvalidateRequest _ va _ => va % 4096 == 0 && va < 2 ^ 48
  | .slotLoad _ _ => true
  | .slotKill _ _ => true
  | .ctxKill _ _ _ => true
  | .fenceScanComplete _ => true
  | .compatDoorbell _ _ _ => true
  | .compatDoorbellRetry => true
  | .qEnable _ _ => true
  | .qResume _ _ => true
  | .qReset _ _ => true
  | .qDisable _ _ => true
  | .doorbell _ _ _ _ _ => true
  | .fetchFault _ => true
  | .cplConsRecheck _ _ => true
  | .jobComplete _ => true
  | .queueTimeout _ _ => true
  | .nop _ => true
  | .launch _ => true
  | .render _ => true
  | .compose _ => true
  | .czJob _ => true
  | .dmaCopy _ => true
  | .dmaFill _ => true
  | .dmaGather _ => true
  | .signal _ => true
  | .waitFence _ => true
  | .fenceReset _ => true
  | .writeCmd _ => true
  | .cond _ => true
  | .call _ => true
  | .ret _ => true
  | .fenceWaitRelease index => index < 2 ^ 20
  | .objAcquire _ _ _ => true
  | .objRelease _ _ _ => true
  | .objSignal _ _ _ => true
  | .objReset _ _ _ => true
  | .objCreate _ _ _ => true
  | .releaseRecordHeldPost _ => true
  | .rrEnable _ _ => true
  | .functionDisable _ => true
  | .disableDmaWindowExpiry _ => true
  | .sessOpen _ => true
  | .sessStep _ => true
  | .sessClose _ => true
  | .sessPark _ => true
  | .parkComplete session => session < 262144
  | .restoreComplete session => session < 262144
  | .graphCommit _ => true
  | .graphRetire _ => true
  | .batchForm => true
  | .batchEnd _ => true
  | .stepTimeout _ => true
  | .deadlineMiss session => session < 262144
  | .binDraw => true
  | .poolProdRecheck => true
  | .partialRender => true
  | .tileShade _ _ => true
  | .cpriPreempt _ _ => true
  | .preemptGraceExpiry _ => true
  | .passResume => true
  | .channelEnable _ _ => true
  | .channelDisable _ _ => true
  | .chCommitArm _ _ => true
  | .frameBoundary _ => true
  | .frameDeadlineMiss _ => true
  | .frameComplete _ => true
  | .czCommit _ _ => true
  | .stateRequest _ _ => true
  | .blockPowerResponse _ _ => true
  | .powerDelayExpiry _ => true
  | .wakeEvent _ => true
  | .wakeCounterExpiry => true
  | .sleepExitComplete => true
  | .deviceReset _ => true
  | .powerDomainReset _ _ => true
  | .powerDomainResetDone => true
  | .pciePerst => true
  | .cisternUnitStart _ => true
  | .cisternRetryExpiry => true
  | .cisternUnitComplete => true
  | .basinSourceEvent srcs => !srcs.isEmpty
  | .basinWindowExpiry _ => true
  | .basinQuietExpiry _ => true
  | .sourceClear _ _ => true
  | .staleEpochDrop _ _ => true
  | .readmit _ _ => true
  | .readmitDone _ => true
  | .errnPulseEnd => true
  | .fltInjArm _ _ _ => true
  | .svnAdvance _ _ => true
  | .measurementExtend _ _ => true
  | .attestRequest _ _ _ => true
  | .attestComplete => true
  | .leafReservationCommit => true
  | .jtagDebugToken _ => true
  | .extest => true
  | .vfEnable numVfs => numVfs < 2 ^ 16
  | .vfEnableClear => true
  | .flr _ => true
  | .linkDown => true
  | .d3hotEntry _ => true
  | .bar2Access off len wdata => bar2Span off len wdata
  | .hostReadCompletion _ _ data => data.length ≤ 4096
  | .completionTimeout _ => true
  | .rootPortInboundRequest q => inboundOk q
  | .hartRun _ _ => true
  | .sdioWakeWrite _ => true
  | .getInfo _ q => reqOk q
  | .getTelemetry _ q => reqOk q
  | .readReg _ q => reqOk q
  | .writeReg _ q => reqOk q
  | .setState _ q => reqOk q
  | .devReset _ q => reqOk q
  | .getCert _ q => reqOk q
  | .attest _ q => reqOk q
  | .readLog _ q => reqOk q
  | .debugToken _ q => reqOk q
  | .imgBegin _ q => reqOk q
  | .imgChunk _ q => reqOk q
  | .imgEnd _ q => reqOk q
  | .poll _ q => reqOk q
  | .setSiteCfg _ q => reqOk q
  | .imageVerifyComplete => true
  | .imageCommitComplete => true
  | .portTraining _ t => t.dim.toNat ≤ 4
  | .portRetrainTimer _ => true
  | .dataFlitReceive _ flit => flit.length == 256
  | .nakReceive _ flit => flit.length == 256
  | .linkRetrainComplete _ _ => true
  | .heartbeatSend _ => true
  | .heartbeatReceive _ flit => flit.length == 256
  | .peerLoss _ => true
  | .linkWrite p => packetOk p
  | .linkRead p => packetOk p
  | .linkReadRsp p => packetOk p
  | .linkAtomic p => packetOk p
  | .linkAtomicRsp p => packetOk p
  | .linkFenceSignal p => packetOk p
  | .linkFenceReset p => packetOk p
  | .linkFenceRegisterWait p => packetOk p
  | .fenceNotify p => packetOk p
  | .linkAck p => packetOk p
  | .errorRsp p => packetOk p
  | .collStep p => packetOk p
  | .linkBarrier p => packetOk p
  | .snapMark p => packetOk p
  | .linkReset p => packetOk p
  | .lrProdWrite _ _ => true
  | .linkPut _ => true
  | .linkGet _ => true
  | .linkDescAtomic _ => true
  | .allreduce _ => true
  | .allgather _ => true
  | .broadcast _ => true
  | .linkDescBarrier _ => true
  | .snapshot _ => true
  | .linkDescNop _ => true
  | .linkRingTimeout _ => true
  | .lrResume _ _ => true
  | .lrReset _ _ => true
  | .domainResetRequest _ _ => true
  | .adcConversion _ => true
  | .adcReferenceCheck _ => true
  | .comparatorCrossing _ _ => true
  | .pllLossOfLock _ => true
  | .pcieLinkUp speed width _ => 1 ≤ speed.toNat && speed.toNat ≤ 6 && [1, 2, 4, 8, 16].contains width.toNat
  | .pciePerstNDeassert => true
  | .d3hotExit _ => true
  | .extestDeselect => true
  | .bootStageReady => true
  | .idleFlitReceive _ flit => flit.length == 256
  | .laneError _ => true
  | .reservedCommandOpcode _ => true
  | .badOpRequest _ q => reqOk q

end Sys2Proof
end

