-- ==== Sys2Proof/Tests/Slice0.lean ====
section
/-!
SUPPORT. Tests: ill-formed commands that `Instr.wf` refuses, and for the statements' hypotheses states and operands that meet
them, at a boundary value where a clause has a range. Where a comment names no source, the value is the rule's own number.
-/
namespace Sys2Proof.Tests
set_option Elab.async false
open Sys2Proof Sys2Proof.Machine Sys2Proof.Claims

/-! ## Small states -/

/-- A part that is ON at stage READY in hosted mode with its link up: every domain powered. -/
def up : State :=
  { regs := tabSet (rk pgRst 0 0x12C) 6 (tabSet (rk pgPci 0 0x100) 0xA ((span 0 146).map (fun pg => (rk pg 0 0x00C, 1)))),
    pins := { sysRstN := true, perstN := true }, rst := { held := false, loaded := true } }

/-- A state with registers set. -/
def withRegs (l : List (Nat × Word)) (s : State) : State := { s with regs := l.foldl (fun t e => tabSet e.1 e.2 t) s.regs }

/-- `up` with registers set. -/
def upWith (l : List (Nat × Word)) : State := withRegs l up

/-- A list of bytes of a word, as memory cells for the HBM of a small state. -/
def hbmUp (l : List (Nat × Nat × Nat)) (s : State) : State :=
  { s with mem := { s.mem with hbm := l.foldl (fun m e => memWrite zeroByte e.1 (toLE e.2.1 e.2.2) m) s.mem.hbm } }

/-! ## Well-formed commands -/

theorem test_wf_register_access :
    (Instr.registerWrite .pf 0x2000000#32 4 0).wf = false ∧ (Instr.registerWrite .pf 0x2000#32 3 0).wf = false ∧
    (Instr.pairLoRead .pf ⟨0x2102#32, 4⟩).wf = false ∧ (Instr.pairLoWrite .pf 0x2102#32 0).wf = false ∧
    (Instr.pairHiWrite .pf 0x2000004#32 0).wf = false ∧ (Instr.rcRead .pf ⟨0x2000000#32, 4⟩).wf = false ∧
    (Instr.registerWrite .pf 0x1FFFFFC#32 4 0).wf = true := by decide

theorem test_wf_units :
    (Instr.energySample [⟨0, .coreCycle, 2 ^ 32, none, none⟩]).wf = false ∧ (Instr.meOpFinish 0 0 0).wf = false ∧
    (Instr.branch 0 0 4 ⟨0, 0, 0, 0, 0, false, 0⟩).wf = false ∧ (Instr.regionFillDone 49152).wf = false ∧
    (Instr.fenceWaitRelease (2 ^ 20)).wf = false ∧ (Instr.parkComplete 262144).wf = false ∧
    (Instr.restoreComplete 262144).wf = false ∧ (Instr.deadlineMiss 262144).wf = false ∧
    (Instr.basinSourceEvent []).wf = false ∧ (Instr.regionFillDone 49151).wf = true := by decide

theorem test_wf_host :
    (Instr.atsTranslationCompletion 0 0 ⟨1, 12, true, true, false⟩).wf = false ∧
    (Instr.atsTranslationCompletion 0 0 ⟨0, 11, true, true, false⟩).wf = false ∧
    (Instr.atsInvalidateRequest 0 1 1).wf = false ∧ (Instr.atsInvalidateRequest 0 (2 ^ 48) 1).wf = false ∧
    (Instr.vfEnable 65536).wf = false ∧ (Instr.bar2Access 0 0 none).wf = false ∧ (Instr.bar2Access 0 4097 none).wf = false ∧
    (Instr.bar2Access (2 ^ 37) 1 none).wf = false ∧ (Instr.rootPortInboundRequest (.read 0 0)).wf = false ∧
    (Instr.rootPortInboundRequest (.write 0 [])).wf = false ∧ (Instr.rootPortInboundRequest (.translation (2 ^ 64))).wf = false ∧
    (Instr.pcieLinkUp 7 16 false).wf = false ∧ (Instr.pcieLinkUp 5 3 false).wf = false ∧
    (Instr.getInfo .host ⟨1, 0, 1, 0, 0, 0, [], []⟩).wf = false ∧
    (Instr.badOpRequest .host ⟨16, 0, 1, 0, 0, 0, [], []⟩).wf = false := by decide

theorem test_wf_link :
    (Instr.portTraining 0 ⟨true, 0, 0, 0, 5, 0, 0, 0, 0⟩).wf = false ∧ (Instr.dataFlitReceive 0 []).wf = false ∧
    (Instr.nakReceive 0 []).wf = false ∧ (Instr.heartbeatReceive 0 []).wf = false ∧ (Instr.idleFlitReceive 0 []).wf = false ∧
    packetOk ⟨1, 0, 0, 0, 0, 0, 0, 0, 0, List.replicate 4097 0⟩ = false := by decide +kernel

/-! ## Step, reset, registers -/

theorem test_step_hypothesis : ({ State.reset with pending := [.crystalSwitch] } : State).pending = .crystalSwitch :: [] := by
  decide +kernel

theorem test_empty_queue_hypotheses :
    (State.reset.pending = [] ∧ State.reset.rst.held = true) ∧
    (up.pending = [] ∧ up.rst.held = false ∧ devState up < 2 ∧ powered pgFe up = true ∧ stage up = 6) := by decide +kernel

theorem test_memories_canonical_at_reset : MemsCanonical State.reset :=
  ⟨rfl, rfl, rfl, rfl, rfl, rfl⟩

theorem test_lock_and_force_hypotheses :
    Heard .yns 0 0x008 up = true ∧ Heard .pf 145 0x01C up = true ∧ Heard .yns pgGlb 0x180 up = true ∧
    bit (0x80000000#32 : Word) 31 = true := by decide +kernel

theorem test_register_write_hypotheses : plainPage pgClk ∧ Reaches .yns 0xA100#32 pgClk 0 0x100 up = true := by
  refine ⟨by unfold plainPage; decide, by decide +kernel⟩

/-- The tiler's page is gated: R444 discards. A 32-bit access at offset 2 is irregular. -/
theorem test_discarded_write_hypotheses :
    (let s := upWith [(rk pgTlr 0 0x00C, 0)]
     reqServed .pf s = true ∧ resolve .pf 0xA0100 s = .reg pgTlr 0 0x100 ∧ darkAt pgTlr 0x100 s = true) ∧
    (let s := { upWith [(rk pgFe 0 0x00C, 0)] with lat := { lo := [(regLatch .pf pgFe 0 0x118, 6)] } }
     reqServed .pf s = true ∧ resolve .pf 0x9011C s = .reg pgFe 0 0x11C ∧ darkAt pgFe 0x11C s = true ∧ isPairLo pgFe 0x11C = false ∧
      isPairHi pgFe 0x11C = true ∧ (tabFind (regLatch .pf pgFe 0 (0x11C - 4)) s.lat.lo).isSome = true ∧
      resolve .pf 0x90118 s = .reg pgFe 0 0x118 ∧ isPairLo pgFe 0x118 = true) ∧
    (reqServed .pf up = true ∧ regular 0xA102 4 = false ∧ inPage .pf 0xA102 = true ∧ resolve .pf 0xA102 up = .reg pgClk 0 0x102) := by
  decide +kernel

theorem test_pair_hypotheses :
    (Reaches .pf 0x2130#32 pgPwr 0 0x130 up = true ∧ isPairLo pgPwr 0x130 = true ∧ Reaches .pf 0x2134#32 pgPwr 0 0x134 up = true ∧
      tabFind (regLatch .pf pgPwr 0 0x134) up.lat.hi = none) ∧
    (let s := { up with lat := { hi := [(regLatch .pf pgPwr 0 0x134, 5)], lo := [(regLatch .pf pgFe 0 0x118, 6)] } }
     Reaches .pf 0x2134#32 pgPwr 0 0x134 s = true ∧ tabFind (regLatch .pf pgPwr 0 0x134) s.lat.hi = some 5 ∧
      Reaches .pf 0x9011C#32 pgFe 0 0x11C s = true ∧ isPairLo pgFe 0x118 = true ∧
      tabFind (regLatch .pf pgFe 0 0x118) s.lat.lo = some 6 ∧ pairFixed pgFe 0 0x118 s = false) ∧
    (let s := upWith [(rk pgMmu 0 0x108, 0x80000000)]
     pairFixed pgMmu 0 0x10C s = true ∧ Reaches .pf 0xA4110#32 pgMmu 0 0x110 s = true) ∧
    (reqServed .pf up = true ∧ reqServed .yns up = true) := by decide +kernel

theorem test_read_hypotheses :
    (Reaches .pf 0x4010C#32 (pgSc 0) 0 0x10C up = true ∧ accBits (fun a => a == .rc) (pgSc 0) 0x10C ≠ 0) ∧
    Heard .pf pgPwr 0x1A0 up = true ∧
    (reachesBlocks .pf = true ∧ reqServed .pf up = true ∧ dark pgAtt up = false) ∧ reachesRegion .pf 63 = true := by
  decide +kernel

/-! ## Resets, boot, power, AON, Cistern -/

theorem test_reset_pin_hypotheses :
    State.reset.pins.sysRstN = false ∧ State.reset.rst.held = true ∧ State.reset.rst.perst = false ∧
    State.reset.pins.extest = false := by decide

/-- A RESET packet with tag 7 for a domain whose tag is 7, and one with tag 6. -/
def resetPacket (tag : Nat) : Packet := ⟨0xD, 0, 1, 0, 0, 4, 0, 0, 0, toLE 4 tag⟩

theorem test_device_reset_hypotheses :
    (mayReset .pf = true ∧ Heard .pf pgRst 0x120 up = true ∧ up.pins.sysRstN = true ∧ cstBusy up = false) ∧
    (let s := upWith [(rk pgCst 0 0x114, 1)]
     Heard .pf pgRst 0x120 s = true ∧ cstBusy s = true ∧ s.rst.pending = none) ∧
    (let s := { up with bsn := { stop := true } }
     bit (getReg pgBsn 0 0x148 s) 16 = false ∧ cstBusy s = false) ∧
    (∀ c ∈ [RstCause.svaumon, .perst, .wakeOff], cstBusy { up with rst := { held := false, pending := some c } } = false) ∧
    (up.pins.extest = false ∧ up.rst.held = false) ∧
    (let s := { State.reset with pins := { sysRstN := true, extest := true } }
     s.rst.held = true ∧ s.rst.perst = false) ∧
    (let s := { upWith [(rk (pgSvl 0) 0 0x204, 7)] with svl := { inbox := [resetPacket 6, resetPacket 7] } }
     dark (pgSvl 0) s = false ∧ s.svl.inbox.contains (resetPacket 7) = true ∧ s.svl.inbox.contains (resetPacket 6) = true ∧
      leNat ((resetPacket 7).data.take 4) = (domTag s).toNat ∧ leNat ((resetPacket 6).data.take 4) ≠ (domTag s).toNat ∧
      cstBusy s = false) ∧
    (Heard .pf (pgSvl 0) 0x200 up = true ∧ mayDomReset .pf up = true ∧ bit (getReg (pgSvl 0) 0 0x200 up) 31 = false) := by
  decide +kernel

/-- Domain 0 is refused while it is powered; domain 127 names no domain; a gated domain may be reset. -/
theorem test_domain_reset_hypotheses :
    Heard .yns pgRst 0x124 up = true ∧ domRstRefuses (fld 0x80000000#32 0 7) up = true ∧
    domRstRefuses (fld 0x8000007F#32 0 7) up = true ∧
    (let s := upWith [(rk (pgSc 0) 0 0x00C, 0)]
     Heard .yns pgRst 0x124 s = true ∧ s.rst.domReset = none ∧ domRstRefuses (fld 0x80000000#32 0 7) s = false) ∧
    (domRstRefuses (fld 0x80000060#32 0 7) up = false ∧ domainPages 96 = []) ∧
    ({ up with rst := { held := false, domReset := some 119 } } : State).rst.domReset = some 119 := by decide +kernel

/-- Boot: the ROM reads the image; a stack trains; the site record's two copies (Table 13-8) hold no valid header. -/
theorem test_boot_hypotheses :
    (let s := upWith [(rk pgRst 0 0x12C, 2)]
     s.rst.held = false ∧ stage s ≤ 2) ∧
    (let s := upWith [(rk (pgHbc 3) 0 0x100, 1)]
     s.rst.held = false ∧ dark (pgHbc 3) s = false ∧ bit (getReg (pgHbc 3) 0 0x100 s) 0 = true ∧
      bit (getReg (pgHbc 3) 0 0x104 s) 0 = false ∧ stage s ≠ 4) ∧
    (let s := upWith [(rk (pgHbc 3) 0 0x100, 1), (rk (pgHbc 0) 0 0x104, 1), (rk (pgHbc 1) 0 0x104, 1), (rk (pgHbc 2) 0 0x104, 1)]
     ∀ m < 4, m ≠ 3 → bit (getReg (pgHbc m) 0 0x104 s) 0 = true) := by decide +kernel

/-- A request for SLEEP waits for the front end. -/
def asking : State :=
  { upWith [(rk pgRst 0 0x100, 0x80000002)] with
    rst := { held := false, loaded := true, trans := some { target := 2, prev := 0, seq := 1, waiting := [pgFe, pgCst] } } }

theorem test_power_handshake_hypotheses :
    (Heard .yns pgRst 0x100 up = true ∧ mayState .yns = true ∧ bit (getReg pgRst 0 0x100 up) 31 = false ∧
      up.rst.exiting = false ∧ up.rst.trans = none ∧ devState up = 0 ∧ askedPages 2 up ≠ []) ∧
    (let s := upWith [(rk pgRst 0 0x104, 1)]
     Heard .yns pgRst 0x100 s = true ∧ devState s = 1) ∧
    (let s := { asking with fe := { queues := [(0, { state := 2 })] } }
     mustRefuse pgFe 2 s = some 1) ∧
    (mustRefuse pgFe 2 asking = none ∧ pageDomain pgFe ≠ 120 ∧ holdsAccept pgFe 2 asking = false ∧
      [pgFe, pgCst].filter (· != pgFe) ≠ []) ∧
    (let s := withRegs [(rk pgFe 0 0x034, 3)] asking
     let x : Trans := { target := 2, prev := 0, seq := 0, waiting := [pgFe, pgHcx], waited := max (delayLimit pgFe) (delayLimit pgHcx) }
     let s := withRegs [(rk pgHcx 0 0x034, 3)] { s with rst := { s.rst with trans := some x } }
     s.rst.trans = some x ∧ delayLimit pgFe ≤ x.waited ∧ delaying pgFe x s = true ∧ delayLimit pgHcx ≤ x.waited ∧
      delaying pgHcx x s = true) ∧
    (let x : Trans := { target := 2, prev := 0, seq := 1, waiting := [pgFe] }
     let s := { upWith [(rk pgRst 0 0x104, 119 * 2 ^ 8)] with
       rst := { held := false, aborted := some x }, fe := { queues := [(0, { state := 2 })] } }
     s.rst.trans = none ∧ s.rst.aborted = some x ∧ x.waiting.contains pgFe = true ∧ mustRefuse pgFe x.target s = some 1 ∧
      pageDomain pgFe < getFld pgRst 0 0x104 8 7 s) := by decide +kernel

theorem test_wake_hypotheses :
    (let s := upWith [(rk pgRst 0 0x104, 2), (rk pgRst 0 0x108, 0x50), (rk pgRst 0 0x110, 33)]
     s.rst.held = false ∧ bit (getReg pgRst 0 0x108 s) (wakeBit .sdio) = true ∧ wakeHolds .sdio s = true ∧ s.rst.trans = none ∧
      devState s = 2 ∧ s.rst.exiting = false ∧ bit (getReg pgRst 0 0x108 s) 6 = true ∧ wakeCntDue s = true) ∧
    (let s := upWith [(rk pgRst 0 0x104, 1), (rk pgRst 0 0x108, 0x10)]
     wakeHolds .sdio s = true ∧ devState s = 1) ∧
    (let s := withRegs [(rk pgRst 0 0x108, 0x10)] asking
     wakeHolds .sdio s = true ∧ bit (getReg pgRst 0 0x108 s) (wakeBit .sdio) = true ∧ s.rst.trans ≠ none ∧ devState s < 2) ∧
    (let s := { upWith [(rk pgRst 0 0x104, 2), (rk pgRst 0 0x108, 0)] with pins := { sysRstN := true } }
     selfHosted s = false ∧ s.pins.perstN = false ∧ s.rst.held = false ∧ bit (getReg pgRst 0 0x108 s) 7 = false) ∧
    (let s := { upWith [(rk pgRst 0 0x104, 1), (rk pgRst 0 0x108, 0x80)] with pins := { sysRstN := true } }
     selfHosted s = false ∧ s.pins.perstN = false ∧ bit (getReg pgRst 0 0x108 s) 7 = true ∧ devState s = 1 ∧ s.rst.trans = none) ∧
    (let s := { withRegs [(rk pgRst 0 0x108, 0x80)] asking with pins := { sysRstN := true } }
     selfHosted s = false ∧ s.pins.perstN = false ∧ s.rst.held = false ∧ bit (getReg pgRst 0 0x108 s) 7 = true ∧ devState s < 2 ∧
      s.rst.trans ≠ none) ∧
    (let s := { upWith [(rk pgRst 0 0x104, 2)] with rst := { held := false, exiting := true, exitSrc := 16 } }
     s.rst.exiting = true ∧ devState s = 2) := by decide +kernel

theorem test_aon_hypotheses :
    up.pins.sysRstN = true ∧ up.aon.onCrystal = false ∧
    ({ up with aon := { onCrystal := true, f := 124 } } : State).aon.f < 125 ∧
    adcNext (upWith [(rk pgAna 0 0x100, 0x80)]) = some 7 ∧
    clkLocked 2 up = true ∧ clkLocked 23 up = true ∧ devState up ≠ 3 ∧
    (let s := upWith [(rk pgAna 0 0x128, 8 + 1023 * 16)]
     cmpNext 0 1800000 s ≠ cmpOut 0 s) := by decide +kernel

/-- The reference conversion that the fuse names is in range, one 9 codes above it is not (R464). -/
theorem test_adc_reference_range :
    refInRange Config.adcRef = true ∧ refInRange (Config.adcRef + 9) = false := by
  unfold refInRange; constructor
  · simp
  · simp

/-- A page program waits at the front; the capacitor holds enough at full scale and nothing at 0. -/
def flashing : State :=
  { upWith [(rk pgCst 0 0x100, 0xFFFFFF), (rk pgCst 0 0x104, 0x0FFF0000), (rk pgCst 0 0x108, 8)] with
    cst := { queue := [(.prog 0x1000 [1, 2], .log)] } }

theorem test_cistern_hypotheses :
    (cstBusy flashing = false ∧ flashing.cst.waiting = false ∧ flashing.rst.held = false ∧
      huNeed (.prog 0x1000 [1, 2]) flashing ≤ huAvail (huVolts 4095 flashing) flashing ∧
      getFld pgCst 0 0x100 0 24 flashing ≠ 0 ∧
      huAvail (huVolts 0 flashing) flashing < huNeed (.prog 0x1000 [1, 2]) flashing) ∧
    (let s := { up with cst := { waiting := true, retryAt := 0 } }
     s.cst.waiting = true ∧ s.cst.retryAt ≤ s.aon.ms) ∧
    (cstBusy (withRegs [(rk pgCst 0 0x114, 1)] flashing) = true ∧
      (withRegs [(rk pgCst 0 0x114, 1)] flashing).cst.queue ≠ []) := by decide +kernel

/-! ## Proofer and the matrix engines -/

theorem test_proofer_hypotheses :
    (let s := { up with pwr := { count := 100 } }
     Counting s ∧ 100 ≤ s.pwr.count ∧ s.pwr.ovrDue = false) ∧
    (let s := { up with pwr := { oocDue := true, ovrDue := true } }
     Counting s ∧ s.pwr.oocDue = true ∧ s.pwr.ovrDue = true ∧ ovrSignal s = false) ∧
    (Counting (upWith [(rk pgRst 0 0x104, 1)])) := by decide +kernel

theorem test_step_droop_idle_hypotheses :
    (let s := { up with pwr := { stepping := [(15, true)], target := [(15, 7)] } }
     tabGet false 15 s.pwr.stepping = true ∧ tabGet false 15 s.pwr.droop = false ∧ tabGet false 15 s.pwr.hold = false) ∧
    (clPowered 15 up = true ∧ tabGet false 15 up.pwr.droop = false) ∧
    (let s := { up with pwr := { droop := [(15, true)] } }
     Counting s ∧ tabGet false 15 s.pwr.droop = true ∧ bit (getReg (pgWeir 15) 0 0x104 s) 1 = false) ∧
    (let s := { up with pwr := { hold := [(15, true)] } }
     Counting s ∧ tabGet false 15 s.pwr.hold = true ∧ tabGet false 15 s.pwr.droop = false) ∧
    (let s := { upWith [(rk pgPwr 0 0x11C, 5)] with pwr := { idle := [(79, 5)] } }
     getFld pgPwr 0 0x11C 0 8 s ≠ 0 ∧ getFld pgPwr 0 0x11C 0 8 s ≤ tabGet 0 79 s.pwr.idle ∧ coreBusy 79 s = false ∧
      powered (pgSc 79) s = true) := by decide +kernel

/-- Every rail point is 700 mV or more and a droop threshold 255 mV or less: a rail at 0 is below the level. -/
theorem test_droop_levels (s : State) : 0 < droopLevel 15 s := by
  have h : getFld (pgWeir 15) 0 0x100 0 8 s < 256 := Nat.mod_lt _ (by decide)
  have hp : 700 ≤ pointMv 15 (clPoint 15 s) s := by unfold pointMv; omega
  unfold droopLevel; omega

/-! ## A slot, a job, a thread group -/

/-- Slot 3 is ACTIVE with three references, one of them the driver's; its addresses below 2 MiB lie in HBM at 2 MiB (a shared
buffer entry, R153), and its queue records at 0x2000. -/
def ctx : State :=
  { up with
    fe := { slots := [(3, { state := 1, ctx := 0x300000, refcnt := 3, driver := true, qtbl := 0x2000, htbl := 0x6000, htblLog2 := 4 })],
            us := 9 },
    mmu := { shared := [{ slot := 3, base := 0, size := 2 ^ 21, pa := 2 ^ 21, r := true, w := true, x := true, pin := true, tgt := 0,
                           level := 1 }] } }

/-- The current path of every test: all 32 threads at the first instruction. -/
def path0 : Path := { mask := BitVec.allOnes 32, pc := 0 }

/-- A group of job 0 in block 0 with 64 registers: a thread's register 1 holds 64, 2 holds 1, and 3 holds 0. -/
def group0 : Group :=
  { job := 0, block := 0, idx := 0, live := BitVec.allOnes 32, paths := [path0], nregs := 64,
    regs := ((List.range 32).map (fun th => [(th * 512 + 1, 64#32), (th * 512 + 2, 1#32), (th * 512 + 3, 0#32)])).flatten }

/-- The same with thread 31 alone. -/
def path1 : Path := { mask := 0x80000000#32, pc := 0 }
def group1 : Group := { group0 with live := 0x80000000#32, paths := [path1] }

def job0 : Job := { owner := .queue 3 5, cmd := [1], startSeq := 0, startUs := 0 }
def block0 : Block := { job := 0, core := 0, index := 0, bcl := 0, rank := 0, size := 4096, groups := 1 }
def kernel0 : Kernel :=
  { slot := 3, code := 0, codeBytes := 64, gx := 2, gy := 1, gz := 1, regs := 64, groups := 1, bclSize := 1, coop := false,
    ntrap := false, localBytes := 4096, param := 0, mask := 0xFFFF, next := 1 }

/-- Job 0 runs on core 0 with group `x`. -/
def running (x : Group) : State :=
  { ctx with
    fe := { ctx.fe with jobs := [(0, job0)], nextJob := 1 },
    cpt := { cores := [(0, { groups := [(0, x)], jobs := [0], images := [{ job := 0, va := 0, bytes := [] }] })], blocks := [(0, block0)],
             kernels := [(0, kernel0)], nextBlock := 1 } }

/-- An instruction without a predicate. -/
def ins (dst src0 src1 src2 : BitVec 8) (imm : BitVec 19) : Insn := ⟨dst, src0, src1, src2, 15, false, imm⟩

/-! ## Matrix engines -/

/-- The group's me.go takes its descriptors at the address in register 3 and its engines from register 2. -/
theorem test_me_go_hypotheses :
    (let i := ins 255 3 2 255 0
     let s := { running group0 with cpt := { (running group0).cpt with cores := [(0,
       { groups := [(0, group0)], jobs := [0], images := [{ job := 0, va := 0, bytes := toLE 8 (0xC0 + insnFields i) }] })] } }
     insnWord 0 group0 0 s = some (0xC0 + insnFields i) ∧
      Issues 0 0 { op := some 0xC0, src0 := 1, src1 := 1 } i group0 path0 [] s ∧ exOf group0 i path0 ≠ 0 ∧
      blockOf 0 s = some block0 ∧ ∀ e < 32, (meOf 0 e s).pend = none) ∧
    (let s := { running group0 with cpt := { (running group0).cpt with
        cores := [(0, { groups := [(0, group0)], mes := [(0, { pend := some { job := 0, block := 0, group := 0, addr := 0 } })] })] } }
     Issues 0 0 { op := some 0xC0, src0 := 1, src1 := 1 } (ins 255 3 2 255 0) group0 path0 [] s ∧ (1#32 : Word).getLsbD 0 = true ∧ (meOf 0 0 s).pend ≠ none) ∧
    (let i := ins 255 2 255 255 0
     Issues 0 0 { op := some 0xC1, src0 := 1 } i group0 path0 [] (running group0) ∧ exOf group0 i path0 ≠ 0) := by decide +kernel

theorem test_me_gate_hypotheses :
    (let g : List GateReq := (List.range 17).map (fun e => ⟨0, e, true⟩)
     let s := { up with cpt := { gates := [(0, g)] } }
     counting s = true ∧ tabGet [] 0 s.cpt.gates ≠ [] ∧ ((tabGet [] 0 s.cpt.gates).map (fun r => (r.core, r.me))).Nodup) ∧
    (let s := { up with cpt := { cores := [(79, { mes := [(31, { active := true })] })] } }
     (meOf 79 31 s).active = true ∧ (meOf 79 31 s).run = none ∧ (meOf 79 31 s).pend = none ∧ gateHas 79 31 false s = false) ∧
    Heard .pf (pgSc 79) 0x420 up = true := by decide +kernel

/-- Engine 31 of core 0 with an operation. -/
def engine (op : MeOp) (s : State) : State :=
  { s with cpt := { s.cpt with cores := [(0, { (coreOf 0 s) with mes := [(31, { active := true, run := some op })] })] } }

/-- An operation that has not started; with `bad`, its descriptor address breaks R61. -/
def meOp (bad : Bool) : MeOp := { job := 0, block := 0, group := 0, addr := 0, bad := bad }

/-- Local memory with a descriptor at 0 that R76 accepts (E4M3, one element, K = 1) and its two streams at 64 and 128. -/
def withDescriptor (s : State) : State := { s with mem := { s.mem with lm := [(4, 1), (8, 64), (12, 128), (128, 4)] } }

theorem test_me_start_hypotheses :
    (let s := engine (meOp false) (withDescriptor (running group0))
     (meOf 0 31 s).run = some (meOp false) ∧ (meOf 0 31 s).active = true ∧ coreUp 0 s = true ∧ blockOf 0 s = some block0 ∧
      block0.stopping = false ∧ tabFind 0 s.fe.jobs = some job0 ∧ job0.fin = none ∧
      meCheck (meOp false) 4096 (meTile (meOf 0 31 s) 0 (df (lmWords 0 0 16 s) 0 11 1)).int s = 0) ∧
    (let s := engine (meOp true) (running group0)
     meCheck (meOp true) 4096 (meTile (meOf 0 31 s) 0 (df (lmWords 0 0 16 s) 0 11 1)).int s = 5) := by decide +kernel

/-- The operation as it has started, with its output at 256 where `out` is 16384. -/
def meRun (out : Word) : MeOp :=
  { meOp false with
    started := true, desc := [out, 1, 64, 128, 0, 0x100000, 256, 0, 0, 0, 0, 0, 0, 0, 0, 0], sdA := List.replicate 16 0,
    sdB := [4, 0, 0, 0, 0, 0, 0, 0, 0, 0, 0, 0, 0, 0, 0, 0] }

theorem test_me_end_hypotheses :
    (let s := engine (meRun 0) (withDescriptor (running group0))
     (meOf 0 31 s).run = some (meRun 0) ∧ meLeast (meRun 0).desc ≤ 32 ∧ 32 ≤ meMost (meRun 0) ∧ clashIn 0 31 (meRun 0) s = [] ∧
      clashOut 0 31 (meRun 0) s = [] ∧ jobEnded 0 s = false ∧ blockLive 0 s = true ∧
      kernelOf 0 s = some kernel0 ∧ kernel0.finished < kernelBlocks kernel0 ∧ s.cpt.lmErr = [] ∧
      bit (getReg (pgSc 0) 0 0x420 s) 16 = false ∧ bit (getReg (pgSc 0) 0 0x028 s) 16 = false ∧
      df (meRun 0).desc 0 14 1 = 0 ∧ stageChecked (meRun 0) 0 s = true ∧ tabFind 0 s.fe.jobs = some job0) ∧
    (df (meRun 16384).desc 0 14 1 = 1 ∧
      meN (meRun 16384).desc * outSize (df (meRun 16384).desc 0 16 4) ≤ df (meRun 16384).desc 5 16 16) := by decide +kernel

/-! ## Shader instructions -/

theorem test_alu_hypotheses :
    (let s := running group0
     let i := ins 4 1 2 3 0
     Ready 0 0 group0 path0 [] s ∧ StoreHolds 0 (aluUses .ffma) i group0 path0 s ∧ insnCheck (aluUses .ffma) i 64 = 0 ∧
      insnCheck (aluUses .ffma) (ins 64 1 2 3 0) 64 = 0x0A ∧ insnCheck (aluUses .fadd) (ins 4 1 2 3 0) 64 = 0x09 ∧
      (exOf group0 i path0).getLsbD 31 = true ∧ StoreHolds 0 (aluUses .unimpl) i group0 path0 s) ∧
    Issues 0 0 { op := some 0xB9, dst := 1 } (ins 63 255 255 255 0) group0 path0 [] (running group0) ∧
    Issues 0 0 { anyImm := true, anyReg := true } (ins 255 255 255 255 0) group0 path0 [] (running group0) ∧
    exOf group0 (ins 255 255 255 255 0) path0 ≠ 0 ∧
    exOf group0 ⟨255, 255, 255, 255, 0, false, 0⟩ { path0 with mask := 0 } = 0 := by decide +kernel

/-- Local memory: the last byte of the 4,096-byte allocation lies inside, one further does not; block 1 is the other rank of the
block's cluster, on core 1. -/
theorem test_local_access_hypotheses :
    (let s := running group1
     let i := ins 4 1 255 255 0
     Issues 0 0 (memUses i (accRegs .b8) 0 0) i group1 path1 [] s ∧ exOf group1 i path1 = oneBit 31 ∧
      Issues 0 0 (memUses i 0 (accRegs .b4) 0) (ins 255 1 5 255 0) group1 path1 [] s ∧ blockOf 0 s = some block0 ∧ block0.core = 0 ∧
      LocalOf i group1 block0 0 block0 s ∧ SramClean 0 s ∧ (regOf group1 31 1).toNat + 4032 ≤ block0.size) ∧
    (let x := { group1 with regs := [(31 * 512 + 1, 4089#32)] }
     Ready 0 0 x path1 [] (running x) ∧ block0.size < (regOf x 31 1).toNat + 8) ∧
    (let b1 : Block := { block0 with core := 1, index := 1, rank := 1 }
     let s := { running group1 with cpt := { (running group1).cpt with blocks := [(0, block0), (1, b1)] } }
     let i := ins 4 1 255 255 11
     Issues 0 0 (memUses i (accRegs .b8) 0 0) i group1 path1 [] s ∧ LocalOf i group1 block0 1 b1 s ∧
      (regOf group1 31 1).toNat + 8 ≤ b1.size ∧ 3 < (ins 4 1 255 255 12).imm.toNat % 8) := by
  unfold SramClean; refine ⟨?_, ?_, ?_⟩ <;> decide +kernel

/-- Cluster memory: the slot's window of 64 KiB. -/
def clustered (x : Group) : State :=
  { running x with fe := { (running x).fe with
      slots := [(3, { state := 1, cmemBase := 1, cmemSize := 1, refcnt := 3 })] } }

theorem test_cluster_access_hypotheses :
    let x := { group1 with regs := [(31 * 512 + 1, 65532#32), (31 * 512 + 2, 1)] }
    let s := clustered x
    let i := ins 4 1 255 255 1
    Issues 0 0 (memUses i (accRegs .b4) 0 0) i x path1 [] s ∧ groupSlot x s = 3 ∧ cmInside 3 65532 4 s = true ∧
      cmInside 3 65533 4 s = false := by decide +kernel

/-- Global memory: the pair r6, r7 names an address of the slot's page; the write buffer is empty. -/
theorem test_global_access_hypotheses :
    let x := { group1 with regs := [(31 * 512 + 6, 0x40#32), (31 * 512 + 7, 0#32)] }
    let s := running x
    let i := ins 4 6 8 10 2
    Issues 0 0 (memUses i 2 2 2) i x path1 [] s ∧
    Issues 0 0 (memUses i (accRegs .b8) 0 0) (ins 4 6 255 255 2) x path1 [] s ∧ i.imm.toNat % 8 = 2 ∧ regVal x 31 6 2 = 64 ∧
    (translate 0 3 64 .rd s).1 = .ok (.hbm 0x200040) ∧ (vaReadAll 0 3 64 8 .rd s).1.toOption = some (List.replicate 8 0) ∧
    hostPieces 0 0 31 3 64 8 4 (vaReadAll 0 3 64 8 .rd s).2 = [] ∧
    (translate 0 3 64 .wr s).1 = .ok (.hbm 0x200040) ∧ (coreOf 0 (translate 0 3 64 .wr s).2).wb = [] ∧
    (translate 0 3 64 .at s).1 = .ok (.hbm 0x200040) ∧ (coreOf 0 (translate 0 3 64 .at s).2).wb = [] ∧
    (hbmRead 0x200040 8 (translate 0 3 64 .at s).2).1 = some (List.replicate 8 0) := by decide +kernel

/-- A leaf of host memory: the slot's next page is the host's at 1 MiB. A load of 8 bytes at its end takes 4 bytes of each page. -/
def hostPage (s : State) : State :=
  { s with mmu := { s.mmu with shared := [
      { slot := 3, base := 0, size := 4096, pa := 2 ^ 20, r := true, w := true, x := true, pin := true, tgt := 1, level := 0 },
      { slot := 3, base := 4096, size := 4096, pa := 2 ^ 21, r := true, w := true, x := true, pin := true, tgt := 0, level := 0 }] } }

theorem test_host_access_hypotheses :
    let x := { group1 with regs := [(31 * 512 + 6, 4092#32), (31 * 512 + 7, 0#32)] }
    let s := hostPage (running x)
    let r := vaReadAll 0 3 4092 8 .rd s
    Issues 0 0 (memUses (ins 4 6 255 255 2) (accRegs .b8) 0 0) (ins 4 6 255 255 2) x path1 [] s ∧ regVal x 31 6 2 = 4092 ∧
    groupSlot x s = 3 ∧ r.1.toOption.isSome = true ∧ (hostPieces 0 0 31 3 4092 8 4 r.2).length = 1 ∧
    r.2.pci.reads.length + (hostPieces 0 0 31 3 4092 8 4 r.2).length ≤ 1024 := by decide +kernel

theorem test_atomic_hypotheses :
    let s := running group1
    Issues 0 0 (memUses (ins 4 1 6 8 0) 2 2 2) (ins 4 1 6 8 0) group1 path1 [] s ∧
    Issues 0 0 (memUses (ins 4 1 6 255 0) 1 1 0) (ins 4 1 6 255 0) group1 path1 [] s ∧
    LocalOf (ins 4 1 6 8 0) group1 block0 0 block0 s ∧ (regOf group1 31 1).toNat % 8 = 0 ∧
    (regOf group1 31 1).toNat + 8 ≤ block0.size := by decide +kernel

/-- Fences, barriers and gates: a block of one group whose 32 threads arrive together. -/
theorem test_barrier_hypotheses :
    (let s := running group0
     Issues 0 0 fenceUses (ins 255 255 255 255 0) group0 path0 [] s ∧ Issues 0 0 fenceUses (ins 255 255 255 255 1) group0 path0 [] s ∧
      (ins 255 255 255 255 1).imm.getLsbD 0 = true ∧ (coreOf 0 s).wb = [] ∧
      Issues 0 0 { op := some 0xB0, src0 := 1 } (ins 255 2 255 255 0) group0 path0 [] s ∧
      exOf group0 (ins 255 2 255 255 0) path0 = path0.mask ∧ path0.mask ≠ 0 ∧
      Issues 0 0 { op := some 0xB4 } (ins 255 255 255 255 0) group0 path0 [] s ∧
      Issues 0 0 { op := some 0xB5 } (ins 255 255 255 255 0) group0 path0 [] s ∧
      kernelOf 0 s = some kernel0 ∧ kernel0.coop = false ∧ group0.pix = none) ∧
    (let s := running group0
     let s1 := setGroup 0 0 (halted group0 path0 [] (exOf group0 (ins 255 255 255 255 0) path0) .bcl s.cpt.seq) (bumpSeq s)
     waitingOf .bcl (bclGroups 0 0 s1) = liveOf (bclGroups 0 0 s1)) ∧
    (let s := { running group0 with cpt := { (running group0).cpt with kernels := [(0, { kernel0 with coop := true })] } }
     Ready 0 0 group0 path0 [] s ∧ kernelOf 0 s = some { kernel0 with coop := true }) ∧
    (let e : WbEnt := { slot := 3, line := 1, host := none, pa := 0x200040, bytes := [(4, 7), (5, 8)] }
     let s := { running group0 with cpt := { (running group0).cpt with cores := [(0, { groups := [(0, group0)], wb := [e] })] } }
     Ready 0 0 group0 path0 [] s ∧ byteRuns e.bytes = [(4, 7 :: [8])] ∧ s.hbc.pendInv = []) := by
  refine ⟨⟨?_, ?_, ?_, ?_, ?_, ?_⟩, ?_, ?_, ?_⟩ <;> decide +kernel

theorem test_gate_hypotheses :
    (let s := running group0
     let i := ins 255 1 255 255 15
     Issues 0 0 { op := some 0xB1, src0 := 1, imm := 15 } i group0 path0 [] s ∧ exOf group0 i path0 ≠ 0 ∧
      (regOf group0 (leadOf group0 i path0) 1).toNat ≤ 1024 ∧
      (gateOf 0 15 s).arr = 0 ∧ (∀ th < 32, (exOf group0 i path0).getLsbD th = true → (regOf group0 th 1).toNat = 64) ∧
      (gateOf 0 15 s).cfg = []) ∧
    (let s := { running group1 with cpt := { (running group1).cpt with blocks := [(0, { block0 with gates := [(15, { n := 9, cfg := [(31, 9)] })] })] } }
     Issues 0 0 { op := some 0xB1, src0 := 1, imm := 15 } (ins 255 1 255 255 15) group1 path1 [] s ∧
      (∀ c ∈ (gateOf 0 15 s).cfg, c.2 ≠ 64 → c.1 = group1.idx * 32 + 31) ∧
      exOf group1 (ins 255 1 255 255 15) path1 = oneBit 31) ∧
    (let s := { running group0 with cpt := { (running group0).cpt with blocks := [(0, { block0 with gates := [(15, { n := 9, cfg := [(31, 9)] })] })] } }
     ∃ c ∈ (gateOf 0 15 s).cfg, c.2 ≠ 64 ∧ c.1 ≠ group0.idx * 32 + 0) ∧
    (let x := { group0 with regs := ((List.range 32).map (fun th => (th * 512 + 1, 1025#32))) }
     Ready 0 0 x path0 [] (running x) ∧ 1024 < (regOf x (leadOf x (ins 255 1 255 255 15) path0) 1).toNat) ∧
    (let s := running group0
     let i := ins 255 255 255 255 15
     insnCheck { imm := 15 } i 64 = 0 ∧ StoreHolds 0 { op := some 0xB3, imm := 15 } i group0 path0 s ∧
      StoreHolds 0 { op := some 0xB2, imm := 15 } i group0 path0 s ∧ 0 < gateExpect 0 15 s ∧
      (gateOf 0 15 s).arr + popcount (exOf group0 i path0) = gateExpect 0 15 s ∧
      ∀ y ∈ group0.paths, y.wait ≠ some (.gate 15)) ∧
    (let s := { running group0 with cpt := { (running group0).cpt with blocks := [(0, { block0 with gates := [(15, { n := 64 })] })] } }
     (gateOf 0 15 s).arr + 32 < gateExpect 0 15 s) := by
  refine ⟨?_, ?_, ?_, ?_, ?_, ?_⟩ <;> decide +kernel

/-! ## Exits, rays, pixels and textures -/

/-- Threads 0 to 15 stand on the current path and exit; then all threads of the kernel's last block. -/
theorem test_exit_hypotheses :
    (let low : Path := { mask := 0xFFFF#32, pc := 0 }
     let high : Path := { mask := 0xFFFF0000#32, pc := 8 }
     let x := { group0 with paths := [low, high] }
     let i := ins 255 255 255 255 0
     Issues 0 0 { op := some 0xBF } i x low [high] (running x) ∧ x.pix = none ∧ exOf x i low ≠ 0 ∧
      x.live &&& ~~~ (exOf x i low) ≠ 0) ∧
    (let s := { running group0 with cpt := { (running group0).cpt with kernels := [(0, { kernel0 with finished := 1 })] } }
     let i := ins 255 255 255 255 0
     Issues 0 0 { op := some 0xBF } i group0 path0 [] s ∧ exOf group0 i path0 ≠ 0 ∧ group0.live &&& ~~~ (exOf group0 i path0) = 0 ∧
      blockOf 0 s = some block0 ∧ block0.pix = false ∧ kernel0.pass = false ∧
      clusterBlocks 0 0 s = [(0, block0)] ∧ kernelOf 0 s = some { kernel0 with finished := 1 } ∧ blockHasOps 0 s = false ∧
      blockLive 0 (setCore 0 { coreOf 0 s with groups := tabDel 0 (coreOf 0 s).groups } s) = false ∧
      kernelBlocks kernel0 ≤ 1 + 1 ∧ jobHasOps 0 s = false ∧ tabFind 0 s.fe.jobs = some job0 ∧ job0.fin = none) ∧
    (let s := setGroup 0 1 { group0 with idx := 1 } (running group0)
     Ready 0 0 group0 path0 [] s ∧ clusterBlocks 0 0 s = [(0, block0)] ∧ blockHasOps 0 s = false ∧
      blockLive 0 (setCore 0 { coreOf 0 s with groups := tabDel 0 (coreOf 0 s).groups } s) = true) := by
  repeat' apply And.intro
  all_goals decide +kernel

theorem test_exit_gates_hypothesis (n : Nat) :
    (gateOf 0 n (running group0)).n = 0 → (gateOf 0 n (running group0)).arr = 0 := fun _ => rfl

/-- A ray of thread 31; a group with a ray of each of its 32 threads. -/
def ray0 (paused : Bool) : Ray := { dst := 10, ray := List.replicate 8 0x7FC00000#32, root := 1, flags := 0, paused := paused }
def withRays (paused : Bool) : Group := { group0 with rays := (List.range 32).map (fun th => (th, ray0 paused)) }

/-- With three such groups beside it a group's 32 rays make 128; with four they would make 160. -/
def beside (n : Nat) (x : Group) : State := (List.range n).foldl (fun s k => setGroup 0 (k + 1) (withRays false) s) (running x)

theorem test_ray_hypotheses :
    (let i := ins 10 20 30 32 0
     Issues 0 0 { op := some 0xD0, dst := 7, src0 := 8, src1 := 2, src2 := 1 } i group0 path0 [] (beside 3 group0) ∧
      exOf group0 i path0 ≠ 0 ∧ raysInFlight 0 (beside 3 group0) + popcount (exOf group0 i path0) = 128 ∧
      Ready 0 0 group0 path0 [] (beside 4 group0) ∧
      128 < raysInFlight 0 (beside 4 group0) + popcount (exOf group0 i path0)) ∧
    (let x := withRays true
     let i := ins 10 255 255 255 1
     Issues 0 0 { op := some 0xD1, dst := 7, imm := 1 } i x path0 [] (beside 3 x) ∧ exOf x i path0 ≠ 0 ∧
      (∀ th < 32, tabFind th x.rays = some (ray0 true)) ∧ raysInFlight 0 (beside 3 x) + popcount (exOf x i path0) = 128) ∧
    (exOf group0 (ins 10 255 255 255 1) path0).getLsbD 0 = true ∧ tabFind 0 group0.rays = none := by
  repeat' apply And.intro
  all_goals decide +kernel

/-- A ray from (0, 0, −1) along +z; the triangle at 0x40 of the slot lies across it. -/
def ray1 : Ray := { dst := 57, ray := [0, 0, 0xBF800000#32, 0, 0, 0, 0x3F800000#32, 0x40000000#32], root := 0x42, flags := 0 }
def scene (flags : Nat) : State :=
  hbmUp [(0x200040, 4, 0xBF800000), (0x200044, 4, 0xBF800000), (0x20004C, 4, 0x3F800000), (0x200050, 4, 0xBF800000),
    (0x20005C, 4, 0x3F800000), (0x200064, 4, 7), (0x20006C, 4, flags)]
    (running { group0 with rays := [(31, ray1)] })

/-- How a walk ends. -/
def endKind (e : RtEnd) : Nat := match e with | .miss => 0 | .hit _ => 1 | .candidate _ => 2 | .overflow => 3 | _ => 4

theorem test_ray_result_hypotheses :
    (let x := { group0 with rays := [(31, ray1)] }
     let s := scene 1
     groupOf 0 0 s = some x ∧ tabFind 31 x.rays = some ray1 ∧ ray1.paused = false ∧ jobEnded 0 s = false ∧ coreUp 0 s = true ∧
      blockStopping 0 s = false ∧ ray1.dst + 7 ≤ 255 ∧ (rtTraverse ⟨0, 0, groupSlot x s, 0⟩ ray1 s).1.fin.map endKind = some 1 ∧
      (rtTraverse ⟨0, 0, groupSlot x s, 0⟩ (ray0 false) s).1.fin.map endKind = some 0) ∧
    (rtTraverse ⟨0, 0, 3, 0⟩ ray1 (scene 0)).1.fin.map endKind = some 2 := by
  repeat' apply And.intro
  all_goals decide +kernel

/-- A list with one entry set. -/
def putAt (k : Nat) (v : Word) (l : List Word) : List Word := l.take k ++ v :: l.drop (k + 1)

/-- A pass with one sample and format 1 in attachments 0 and 8, whose draw 0 has the flags `f`; its tile 0 on core 0. -/
def pass0 (f : Word) : Pass :=
  { slot := 3, desc := putAt 101 1 (putAt 37 1 (List.replicate 128 0)), mask := 0xFFFF, cores := [0], phase := 2,
    recs := [(0, putAt 3 f (List.replicate 32 0))] }

/-- A pixel group of the tile, and the state with it. -/
def pix0 (entry : Nat) : PixGroup :=
  { tile := 0, entry := entry, prim := 0, draw := 0, px := (List.range 32).map (fun th => (th % 8, th / 8)),
    cov := List.replicate 32 1, body := List.replicate 64 0 }
def tile0 : TileWork := { job := 0, tile := 0 }
def pixels (x : Group) (f : Word) : State :=
  let s := running x
  { setCore 0 { coreOf 0 s with tiles := [tile0] } s with tlr := { s.tlr with passes := [(0, pass0 f)] } }

theorem test_pixel_hypotheses :
    (let x := { group0 with pix := some (pix0 1) }
     let s := pixels x 0
     let i := ins 255 60 255 255 15
     Issues 0 0 { op := some 0xDB, src0 := 4, imm := 0x0F } i x path0 [] s ∧
      OnTile 0 x (pix0 1) (pass0 0) (drawRec (pass0 0) 0) tile0 s ∧ dPixAccess (drawRec (pass0 0) 0) = false ∧
      exOf x i path0 ≠ 0) ∧
    (let x := { group0 with pix := some (pix0 1) }
     let s := pixels x 0x80
     let i := ins 60 255 255 255 0
     Issues 0 0 { op := some 0xD9, dst := 4, imm := 0x7F } i x path0 [] s ∧
      OnTile 0 x (pix0 1) (pass0 0x80) (drawRec (pass0 0x80) 0) tile0 s ∧ dPixAccess (drawRec (pass0 0x80) 0) = true ∧
      mustYield ⟨0, 0, x, path0, [], exOf x i path0⟩ (pix0 1) s = false ∧
      mustYield ⟨0, 0, x, path0, [], exOf x i path0⟩ (pix0 1) (setGroup 0 1 { group0 with pix := some (pix0 0) } s) = true ∧
      pixAtt i < 8 ∧ attFormat (pass0 0x80) (pixAtt i) ≠ 0 ∧ pixSample i < passSamples (pass0 0x80) ∧
      i.dst.toNat + 4 ≤ 255) := by
  repeat' apply And.intro
  all_goals decide +kernel

theorem test_pixel_store_and_exit_hypotheses :
    (let x := { group1 with pix := some (pix0 1) }
     let s := pixels x 0x80
     let i := ins 255 60 255 255 0x88
     Issues 0 0 { op := some 0xDA, src0 := 4, imm := 0xFF } i x path1 [] s ∧
      OnTile 0 x (pix0 1) (pass0 0x80) (drawRec (pass0 0x80) 0) tile0 s ∧ exOf x i path1 = oneBit 31 ∧
      mustYield ⟨0, 0, x, path1, [], exOf x i path1⟩ (pix0 1) s = false ∧ pixAtt i = 8 ∧
      attFormat (pass0 0x80) (pixAtt i) ≠ 0 ∧ passSamples (pass0 0x80) ≤ 4) ∧
    (let low : Path := { mask := 0xFFFF#32, pc := 0 }
     let high : Path := { mask := 0xFFFF0000#32, pc := 8 }
     let x := { group0 with paths := [low, high], pix := some (pix0 1) }
     let i := ins 255 255 255 255 0
     Issues 0 0 { op := some 0xBF } i x low [high] (pixels x 0) ∧ OnTile 0 x (pix0 1) (pass0 0) (drawRec (pass0 0) 0) tile0 (pixels x 0) ∧
      exOf x i low ≠ 0 ∧ x.live &&& ~~~ (exOf x i low) ≠ 0 ∧
      mustYield ⟨0, 0, x, low, [high], exOf x i low⟩ (pix0 1) (pixels x 0) = false) := by
  repeat' apply And.intro
  all_goals decide +kernel

/-- The texture of 32 zero bytes has one texel; one with filter 3 breaks R253. -/
theorem test_texture_hypotheses :
    (let x := { group1 with pix := some (pix0 1) }
     let s := pixels x 0
     let i := ins 59 1 255 255 15
     let r := drawRec (pass0 0) 0
     let d : List Word := List.replicate 8 0
     let u := regOf x 31 1
     let v := regOf x 31 2
     Issues 0 0 { op := some 0xD8, dst := 5, src0 := 2, imm := 0x7F } i x path1 [] s ∧ OnTile 0 x (pix0 1) (pass0 0) r tile0 s ∧
      exOf x i path1 = oneBit 31 ∧ i.src0 ≠ 255 ∧ i.imm.getLsbD 4 = false ∧ stagedPath r d tile0.texels (ins 59 1 255 255 31) 0 u v = false ∧ i.dst.toNat + 5 ≤ 255 ∧
      (cRead 0 0 (dLong r 20 % 2 ^ 48 + 32 * (i.imm.toNat % 16)) 32 .rd s).1 = some (List.replicate 32 0) ∧
      rowWords 4 8 (List.replicate 32 0) = d ∧ texBad d = false ∧ tLevels d = 1 ∧ tFilter d = 0 ∧ tSparse d = false ∧
      notFinite (fMul u (fInt (tWidth d))) = false ∧ notFinite (fMul v (fInt (tHeight d))) = false ∧
      (cRead 0 0 (texelAt d 0 (texWrap (tWrapU d) (tWidth d) (floorInt (fMul u (fInt (tWidth d)))))
          (texWrap (tWrapV d) (tHeight d) (floorInt (fMul v (fInt (tHeight d)))))).2 (texelSize (tFormat d)) .rd
        { (cRead 0 0 (dLong r 20 % 2 ^ 48 + 32 * (i.imm.toNat % 16)) 32 .rd s).2 with free := 8 }).1 = some [0]) ∧
    (let x := { group1 with pix := some (pix0 1) }
     let s := hbmUp [(0x2001EC, 4, 0x300)] (pixels x 0)
     let bs := List.replicate 13 (0 : Byte) ++ 3 :: List.replicate 18 0
     Issues 0 0 { op := some 0xD8, dst := 5, src0 := 2, imm := 0x7F } (ins 59 1 255 255 15) x path1 [] s ∧
      exOf x (ins 59 1 255 255 15) path1 ≠ 0 ∧ (cRead 0 0 (32 * 15) 32 .rd s).1 = some bs ∧
      texBad (rowWords 4 8 bs) = true) := by
  repeat' apply And.intro
  all_goals decide +kernel

/-! ## Placement and HBM -/

/-- Physical core 0 is logical core 0, and not a spare one. -/
def withCore0 (s : State) : State := withRegs [(rk pgCap 0 0x140, 0x03020100#32), (rk (pgSc 0) 0 0x03C, 0)] s

/-- Slot 4 has compositor priority, and its queue 15, which may use every cluster, has a command. -/
def cpriOver (s : State) : State :=
  let t := withRegs [(rk pgTlr 0 0x104, 0x80000004#32)] s
  setQueue 4 15 { state := 2, engine := 1, wptr := 1 } { t with fe := { t.fe with slots := (4, { state := 1 }) :: t.fe.slots } }

theorem test_placement_hypotheses :
    (let s := withCore0 (running group0)
     kernelOf 0 s = some kernel0 ∧ kernel0.bclSize = 1 ∧ kernel0.coop = false ∧ kernel0.paused = false ∧
      kernel0.next < kernelBlocks kernel0 ∧ jobEnded 0 s = false ∧ devState s = 0 ∧ clusterRoom 0 kernel0 [0] s = true ∧
      powered (pgCl 0) s = true ∧ powered (pgSc 0) s = true ∧ (coreOf 0 s).jobs.contains 0 = true ∧
      Staged 0 0 kernel0 s ∧ s.tlr.cpri = none ∧ cpriSlot s = none) ∧
    (let s := cpriOver (running group0)
     kernelOf 0 s = some kernel0 ∧ unitBlocks 0 0 s ≠ [] ∧ jobEnded 0 s = false ∧ cpriSlot s = some 4 ∧ kernel0.slot ≠ 4 ∧
      cpriRuns 4 15 s = true ∧ (unitsIn 0 (queueMask 4 15 s) kernel0 s).contains 0 = true ∧
      ∀ e ∈ unitBlocks 0 0 s, (coreOf e.2.core s).wb = []) ∧
    (let v := { block0 with stopping := true }
     let s := setBlock 0 v (running group0)
     unitBlocks 0 0 s = [(0, v)] ∧ v.stopping = true ∧ unitBusy [(0, v)] s = false ∧ jobEnded 0 s = false ∧ s.hbc.ecc = [] ∧
      s.hbc.pendInv = [] ∧ NoInjection s) ∧
    (let v := { block0 with stopping := true }
     let x : Saved := { job := 0, unit := 0, cluster := 0, pinned := false, blocks := [(0, v)], groups := [(7, group0)], mes := [] }
     let s0 := withCore0 (running group0)
     let s := { s0 with cpt := { s0.cpt with
        cores := [(0, { jobs := [0], images := [{ job := 0, va := 0, bytes := [] }] })], blocks := [], saved := [x] } }
     s.cpt.saved = [x] ∧ kernelOf 0 s = some kernel0 ∧ group0.block = 0 ∧ jobEnded 0 s = false ∧ devState s = 0 ∧
      restoreRoom x kernel0 [(0, v)] [0] s = true ∧ powered (pgCl 0) s = true ∧ powered (pgSc 0) s = true ∧
      (coreOf 0 s).jobs.contains 0 = true ∧ Staged 0 0 kernel0 s ∧ x.mes = [] ∧ kernel0.bclSize = 1 ∧
      ∀ e ∈ s.cpt.blocks, e.2.job ≠ 0) := by
  unfold Staged NoInjection; refine ⟨⟨?_, ?_, ?_, ?_, ?_, ?_⟩, ?_, ?_, ?_⟩ <;> decide +kernel

theorem test_hbm_hypotheses :
    (let s := { up with hbc := { up.hbc with filling := [49151] } }
     s.hbc.filling.contains 49151 = true ∧ s.hbc.pendInv.contains 49151 = false ∧
      Heard .pf (pgHbc 0) 0x124 s = true ∧ bit 0x8000BFFF#32 31 = true ∧ fld 0x8000BFFF#32 0 16 = 49151 ∧ 49151 < regionCount ∧
      bit (getReg (pgHbc 0) 0 0x128 s) 31 = false) ∧
    (let s := { up with hbc := { up.hbc with filling := [49151], pendInv := [49151] } }
     s.hbc.filling.contains 49151 = true ∧ s.hbc.pendInv.contains 49151 = true) ∧
    up.hbc.filling.contains 49151 = false ∧ bit (getReg (pgHbc 0) 0 0x128 up) 31 = false ∧
    (Heard .pf (pgHbc 3) 0x100 up = true ∧ bit (getReg (pgHbc 3) 0 0x100 up) 0 = false ∧ stage up ≠ 3) ∧
    (let s := upWith [(rk pgRst 0 0x12C, 3), (rk (pgHbc 0) 0 0x100, 1), (rk (pgHbc 1) 0 0x100, 1), (rk (pgHbc 2) 0 0x100, 1)]
     Heard .pf (pgHbc 3) 0x100 s = true ∧ bit (getReg (pgHbc 3) 0 0x100 s) 0 = false ∧ stage s = 3 ∧
      ∀ m < 4, m ≠ 3 → bit (getReg (pgHbc m) 0 0x100 s) 0 = true) ∧
    (let s := upWith [(rk (pgHbc 3) 0 0x118, 1), (rk (pgHbc 3) 0 0x104, 1)]
     scrubActive 3 s = true ∧ scrubSteps 3 s ≠ 0 ∧ s.hbc.ecc = [] ∧ getFld (pgHbc 3) 0 0x120 0 27 s + 1 < scrubSteps 3 s) ∧
    (let s := upWith [(rk (pgHbc 3) 0 0x118, 1), (rk (pgHbc 3) 0 0x104, 1), (rk (pgHbc 3) 0 0x120, 100663295)]
     scrubActive 3 s = true ∧ scrubSteps 3 s = getFld (pgHbc 3) 0 0x120 0 27 s + 1) := by decide +kernel

/-! ## Translation, fault rings and DMA -/

/-- A host read of slot 3's first page in flight, translated by an ATS entry. -/
def hostRead0 : HostRd :=
  { slot := 3, attr := { translated := true }, va := 0, addr := 2 ^ 20, len := 4, waiter := .chan 63 }

/-- The scope of INV_CTL is slot 3, all addresses; core 79 holds one buffered store of the slot. -/
def invalidating (reads : Tab HostRd) : State :=
  let s := withRegs [(rk pgMmu 0 0x108, 0x80000043#32)] ctx
  { s with pci := { s.pci with reads := reads },
           cpt := { cores := [(79, { wb := [{ slot := 3, line := 1, host := none, pa := 0x200040, bytes := [(4, 7), (5, 8)] }] })] } }

theorem test_invalidation_hypotheses :
    (Heard .pf pgMmu 0x108 up = true ∧ bit 0x80000000#32 31 = true ∧ bit (getReg pgMmu 0 0x108 up) 31 = false) ∧
    (let s := upWith [(rk pgMmu 0 0x108, 0x80000000#32)]
     Heard .pf pgMmu 0x108 s = true ∧ bit (getReg pgMmu 0 0x108 s) 31 = true) ∧
    (let s := invalidating []
     bit (getReg pgMmu 0 0x108 s) 31 = true ∧ readsInScope (invScope s) s = false ∧ (coreOf 79 s).wb.length = 1 ∧
      invScope s 3 64 64 = true ∧ s.hbc.pendInv = []) ∧
    readsInScope (invScope (invalidating [(0, hostRead0)])) (invalidating [(0, hostRead0)]) = true ∧
    selfHosted ctx = false ∧ ctx.mmu.atsInv = [] ∧ atsReading (0, 0, 4096) ctx = false ∧
    atsReading (0, 0, 4096) (invalidating [(0, hostRead0)]) = true ∧
    (let s := { ctx with mmu := { ctx.mmu with atsInv := List.replicate 32 (0, 0, 4096) } }
     32 ≤ s.mmu.atsInv.length) := by
  repeat' apply And.intro
  all_goals decide +kernel

/-- Slot 3's second 2 MiB may be read and not written. -/
def ctx2 : State :=
  { ctx with mmu := { shared := ctx.mmu.shared ++ [
      { slot := 3, base := 2 ^ 21, size := 2 ^ 21, pa := 2 ^ 22, r := true, w := false, x := true, pin := false, tgt := 0, level := 1 }] } }

/-- Engine 3's channel 15 holds a transfer of job 0. -/
def chan0 : Chan := { job := 0, slot := 3, xfer := .fill 0xF00 256 0x04030201#32 }
def moving (x : Chan) : State :=
  { ctx2 with fe := { ctx2.fe with jobs := [(0, job0)], nextJob := 1 }, dma := { chans := [(63, x)], token := [(63, 65535)] } }

/-- What stopped a channel, if it is a failed translation: whether that can be retried. -/
def stopRetry (e : Option Stop) : Option Bool := match e with | some (.xl _ k _ _) => some (retryable k) | _ => none

theorem test_fault_ring_hypotheses :
    (let s := upWith [(rk pgMmu 0 0x130, 63)]
     Heard .pf pgMmu 0x134 s = true ∧ bit 0x601#32 0 = true ∧ fltSel s = 63 ∧ bit (getReg pgMmu 63 0x134 s) 0 = false) ∧
    (let w : WaitPost := ⟨63, 0, 0x1000, 1, 0, true⟩
     let x := { chan0 with st := .postWait }
     let s := withRegs [(rk pgMmu 0 0x134, 0x601#32)] { moving x with mmu := { posts := [w] } }
     Heard .pf pgMmu 0x134 s = true ∧ bit 0x600#32 0 = false ∧ bit (getReg pgMmu (fltSel s) 0x134 s) 0 = true ∧
      s.mmu.posts = [w] ∧ w.fn = fltSel s ∧ chanOf w.chan s = some x ∧ tabFind x.job s.fe.jobs = some job0 ∧ job0.fin = none ∧
      s.mmu.posts.find? (fun p => p.fn == 0) = some w ∧ fltHeld 0 s < 2 ^ fltLog2 0 s - 1 ∧ (fltBase 0 s).1 = false ∧ s.hbc.pendInv = []) ∧
    (let s := upWith [(rk pgMmu 0 0x134, 0x601#32), (rk pgMmu 0 0x140, 63)]
     bit (getReg pgMmu (fltSel s) 0x134 s) 0 = true ∧ (∀ p ∈ s.mmu.posts, p.fn ≠ fltSel s) ∧
      Heard .pf pgMmu 0x144 s = true ∧ fltWrap (fltSel s) s = 63 * 2 ^ 26 ∧ fltHeld 0 s = 2 ^ fltLog2 0 s - 1 ∧
      (63 + 63 * 2 ^ 26 - 0) % (63 * 2 ^ 26) = 2 ^ 6 - 1 ∧ 2 ^ 6 - 1 < (63 + 63 * 2 ^ 26 - 64) % (63 * 2 ^ 26) ∧
      63 * 2 ^ 26 ≤ (0xFC000000#32 : Word).toNat) := by
  repeat' apply And.intro
  all_goals decide +kernel

theorem test_dma_hypotheses :
    (let w : Nat × Nat × Nat × Xfer := (3, 1, 3, .fill 0 4 0)
     let s := { moving chan0 with dma := { chans := (List.range 15).map (fun c => (48 + c, chan0)), waiting := [(0, w.2), w] } }
     s.dma.waiting.find? (fun w => w.1 == 3) = some w ∧ freeChan 3 s = some 15) ∧
    (let s := moving chan0
     chanOf (chNo 3 15) s = some chan0 ∧ chan0.st = .running ∧ tabFind 0 s.fe.jobs = some job0 ∧ job0.fin = none ∧
      (chanRun 3 chan0 s).1.2 = none ∧ chan0.busErr = false ∧ chan0.done = 0 ∧ 256 ≤ pageLeft 0xF00 ∧ s.hbc.pendInv = [] ∧
      (translate (rqDma 3) 3 0xF00 .wr (prefetch (rqDma 3) 3 0xF00 256 s)).1 = .ok (.hbm 0x200F00)) ∧
    (let x := { chan0 with xfer := .copy 0xF80 0x1F80 128 }
     let s := moving x
     let s0 := prefetch (rqDma 3) 3 0x1F80 128 (prefetch (rqDma 3) 3 0xF80 128 s)
     let s1 := (translate (rqDma 3) 3 0xF80 .rd s0).2
     let s2 := (dmaRead 3 3 0xF80 128 s1).2
     chanOf (chNo 3 15) s = some x ∧ 128 ≤ pageLeft 0xF80 ∧ 128 ≤ pageLeft 0x1F80 ∧
      (translate (rqDma 3) 3 0xF80 .rd s0).1 = .ok (.hbm 0x200F80) ∧
      (dmaRead 3 3 0xF80 128 s1).1.toOption = some (List.replicate 128 0) ∧
      (translate (rqDma 3) 3 0x1F80 .wr s2).1 = .ok (.hbm 0x201F80)) := by
  repeat' apply And.intro
  all_goals decide +kernel

theorem test_dma_fault_hypotheses :
    (let x := { chan0 with xfer := .fill (2 ^ 21) 256 0 }
     let s := moving x
     chanOf (chNo 3 15) s = some x ∧ x.st = .running ∧ stopRetry (chanRun 3 x s).1.2 = some false) ∧
    (let x := { chan0 with xfer := .fill (2 ^ 22) 256 0 }
     let s := withRegs [(rk pgMmu 0 0x134, 0x601#32)] (moving x)
     let s1 := (chanRun 3 x s).2
     chanOf (chNo 3 15) s = some x ∧ stopRetry (chanRun 3 x s).1.2 = some true ∧ (slotOf 3 s).func = 0 ∧
      bit (getReg pgMmu 0 0x134 s1) 0 = true ∧ fltHeld 0 s1 < 2 ^ fltLog2 0 s1 - 1 ∧ ∀ p ∈ s1.mmu.posts, p.fn ≠ 0) := by
  repeat' apply And.intro
  all_goals decide +kernel

theorem test_channel_hypotheses :
    (let x := { chan0 with st := .stalled }
     let s := moving x
     Heard .pf (pgDma 3) 0x100 s = true ∧ 3 * 16 + fld 0xFFFF001F#32 0 4 = 63 ∧ chanOf 63 s = some x ∧
      fld 0xFFFF001F#32 16 16 = tabGet 0 63 s.dma.token ∧ bit 0xFFFF001F#32 4 = true ∧ bit 0xFFFF000F#32 4 = false ∧
      fld 0xFFFF000F#32 16 16 = tabGet 0 63 s.dma.token ∧ fld 0x0000000F#32 16 16 ≠ tabGet 0 63 s.dma.token ∧
      tabFind 0 s.fe.jobs = some job0) ∧
    (let x := { chan0 with st := .atsWait, wr := true }
     let s := { moving x with fe := { (moving x).fe with slots := [(3, { state := 1, priEn := true })] } }
     chanOf (chNo 3 15) s = some x ∧ (slotOf 3 s).priEn = true ∧ s.mmu.pri.length < priLimit s ∧ x.st = .atsWait ∧
      let t := { s with mmu := { s.mmu with pri := List.range 64 } }
      priLimit t ≤ t.mmu.pri.length) ∧
    (let x := { chan0 with st := .priWait }
     let s := moving x
     chanOf (chNo 3 15) s = some x ∧ x.st = .priWait ∧ (∀ e ∈ s.dma.chans, e.2.st ≠ .priHold) ∧
      tabFind 0 s.fe.jobs = some job0) := by
  repeat' apply And.intro
  all_goals decide +kernel

theorem test_fill_is_no_copy (a b l : Nat) : chan0.xfer ≠ .copy a b l := by simp [chan0]

theorem test_gather_is_no_copy (d : Nat) (a b l : Nat) : (Xfer.gather d) ≠ .copy a b l := by simp

/-! ## Contexts, queues and doorbells -/

/-- Slot 5 is FREE and selected, its SLOT_CTX names 0x300000; the record there is the one that `ctx` would load, or zeros. -/
def loading (ok : Bool) : State :=
  let s := withRegs [(rk pgFe 0 0x104, 5), (rk pgFe 5 0x108, 0x300000), (rk pgRst 0 0x12C, 0x6), (rk pgCap 0 0x114, 98304)] ctx
  if ok then hbmUp [(0x300000, 4, 0x80000001), (0x300020, 4, 4)] s else s

theorem test_slot_load_hypotheses :
    (let s := loading true
     Heard .pf pgFe 0x110 s = true ∧ bit 0x100#32 8 = true ∧ bit 0x100#32 9 = false ∧ slotSel s = 5 ∧
      (slotOf 5 s).state = 0 ∧ compat s = false ∧ stage s = 6 ∧ s.hbc.ecc = [] ∧ slotCtxAddr 5 s = 0x300000 ∧
      s.hbc.pendInv = [] ∧
      loadErr (fld 0x100#32 0 6) 0x300000 (rowWords 4 32 (hbmBytes 0x300000 128 s)) s = 0) ∧
    (let s := loading false
     (slotOf 5 s).state = 0 ∧ stage s = 6 ∧
      loadErr (fld 0x100#32 0 6) 0x300000 (rowWords 4 32 (hbmBytes 0x300000 128 s)) s = 1) := by
  repeat' apply And.intro
  all_goals decide +kernel

/-- Queue 5 of slot 3 in a state, its ring at 0x1000, and one job of it. -/
def queue (st : Nat) : Queue := { state := st, ring := 0x1000, log2 := 6, cpl := 0x4000, cplLog2 := 6, rptr := 1, wptr := 1 }
def withQueue (x : Queue) (s : State) : State := setQueue 3 5 x s
def job1 : Job := { owner := .queue 3 5, cmd := [5, 0, 0, 0, 0, 0, 0, 0], startSeq := 0, startUs := 0 }
def withJob1 (s : State) : State := { s with fe := { s.fe with jobs := [(0, job1)], nextJob := 1 } }

theorem test_slot_kill_hypotheses :
    let s := withJob1 (withQueue (queue 2) (withRegs [(rk pgFe 0 0x104, 3)] ctx))
    Heard .pf pgFe 0x110 s = true ∧ bit 0x200#32 9 = true ∧ slotSel s = 3 ∧ (slotOf 3 s).state = 1 ∧ OnlyJobs 3 s ∧
    HeardFn .pf 0 s = true ∧ bit 0x80000003#32 31 = true ∧ fld 0x80000003#32 0 6 = 3 ∧ slotOwner 3 s = 0 ∧
    tabFind 0 s.fe.jobs = some job1 ∧ job1.fin = none ∧ HeardFn .pf 63 s = true ∧ slotOwner 3 s ≠ 63 := by
  unfold OnlyJobs SlotQuiet
  repeat' apply And.intro
  all_goals decide +kernel

/-- Slot 3 is DYING with its scan; its function's window is the one fence 0, of the slot `own`. -/
def dying (driver : Bool) (n own : Nat) : State :=
  hbmUp [(0x800000, 4, 1 + own * 2 ^ 16), (0x800008, 4, 1)]
    { withRegs [(rk pgFnc 0 0x100, 0x800000), (rk pgFnc 0 0x108, 1), (rk pgFnc 0 0x114, 1)] ctx with
      fe := { ctx.fe with slots := [(3, { state := 3, scan := true, driver := driver, refcnt := n, cmemSize := 1 })] },
      fnc := { scans := [0] } }

theorem test_fence_scan_hypotheses :
    (let s := dying true 2 5
     (slotOf 3 s).state = 3 ∧ (slotOf 3 s).scan = true ∧ windowIdx (slotOf 3 s).func s = [0] ∧ (fenceGet 0 s).valid = true ∧
      (fenceGet 0 s).ownerSlot ≠ 3 ∧ (slotOf 3 s).driver = true ∧ 1 < (slotOf 3 s).refcnt) ∧
    (let s := dying true 1 5
     (slotOf 3 s).refcnt = 1 ∧ tabFind (slotOf 3 s).func s.fe.disabling = none ∧ (fenceGet 0 s).ownerSlot ≠ 3 ∧
      bit (getReg pgFnc (slotOf 3 s).func 0x11C s) 0 = false) ∧
    (let s := dying false 1 3
     (slotOf 3 s).driver = false ∧ windowIdx (slotOf 3 s).func s = [0] ∧ (fenceGet 0 s).valid = true ∧
      (fenceGet 0 s).ownerSlot = 3 ∧ (fenceGet 0 s).signalled = false ∧ NoInjection s ∧ s.hbc.pendInv = [] ∧ bit (getReg pgFnc 0 0x028 s) 16 = false ∧ ∀ w ∈ s.fnc.waits, w.index ≠ 0) := by
  unfold NoInjection
  repeat' apply And.intro
  all_goals decide +kernel

/-- The function selects queue 5 of slot 3. -/
def chosen (x : Queue) : State := withQueue x (withRegs [(rk pgFn 0 0x10C, 0x503)] ctx)

theorem test_queue_command_hypotheses :
    (HeardFn .pf 63 ctx = true ∧ slotOwner (qSelSlot 63 ctx) ctx ≠ 63) ∧
    (let s := hbmUp [(0x202148, 4, 6), (0x202158, 4, 6)] (chosen (queue 0))
     MayCommand .pf 0 s ∧ qSelSlot 0 s = 3 ∧ qSelQ 0 s = 5 ∧ (queueOf 3 5 s).state = 0 ∧
      ((vaRead rqFe 3 (qrecVa 3 5 s) 64 .rd s).1.toOption.map (fun bs => enaErr 0 (rowWords 4 16 bs))) = some 0) ∧
    (let s := chosen (queue 0)
     MayCommand .pf 0 s ∧ (queueOf 3 5 s).state = 0 ∧
      ((vaRead rqFe 3 (qrecVa 3 5 s) 64 .rd s).1.toOption.map (fun bs => enaErr 0 (rowWords 4 16 bs))) = some 1) ∧
    (let s := chosen (queue 3)
     MayCommand .pf 0 s ∧ (queueOf 3 5 s).state = 3 ∧ (queueOf 3 5 s).str.frames = [] ∧
      (queueOf 3 5 s).rptr = (queueOf 3 5 s).wptr ∧ ownJobs (.queue 3 5) s = [] ∧ (queueOf 3 5 s).str.wait = none) ∧
    (let s := chosen { queue 3 with wptr := 2 }
     MayCommand .pf 0 s ∧ (queueOf 3 5 s).state = 3 ∧ (queueOf 3 5 s).rptr ≠ (queueOf 3 5 s).wptr) ∧
    (MayCommand .pf 0 (chosen (queue 1)) ∧ (queueOf 3 5 (chosen (queue 1))).state = 1) ∧
    (MayCommand .pf 0 (chosen (queue 2)) ∧ (queueOf 3 5 (chosen (queue 2))).state = 2) := by
  unfold MayCommand
  repeat' apply And.intro
  all_goals decide +kernel

theorem test_queue_timer_hypotheses :
    (let s := chosen { queue 2 with timer := 1 }
     (queueOf 3 5 s).state = 2 ∧ max 1 (queueOf 3 5 s).timeout = (queueOf 3 5 s).timer ∧ (queueOf 3 5 s).str.wait = none ∧
      waitGot 3 5 s = false ∧ (queueOf 3 5 s).rptr = (queueOf 3 5 s).wptr ∧ (queueOf 3 5 s).str.frames = [] ∧
      ownJobs (.queue 3 5) s = []) ∧
    (let s := withJob1 (chosen { queue 2 with timer := 1 })
     ownJobs (.queue 3 5) s = [(0, job1)] ∧ tabFind 0 s.fe.jobs = some job1 ∧ opOf job1.cmd = 5 ∧ job1.fin = none ∧
      jobStalled 0 s = false ∧ jobHasOps 0 s = false ∧ kernelOf 0 s = none ∧ tabFind 0 s.tlr.passes = none ∧ tabFind 0 s.cz.jobs = none) ∧
    (let s := chosen { queue 2 with full := true }
     (queueOf 3 5 s).full = true ∧ (queueOf 3 5 s).state = 2 ∧ s.hbc.pendInv = [] ∧
      (vaRead rqFe 3 (qrecVa 3 5 s + 0x1C) 4 .rd s).1.toOption = some [0, 0, 0, 0]) := by
  repeat' apply And.intro
  all_goals decide +kernel

theorem test_doorbell_hypotheses :
    (let s := chosen (queue 1)
     HeardFn .pf 0 s = true ∧ compat s = false ∧ Rings 0 3 5 65 s ∧ ¬ Rings 0 3 5 66 s ∧ ¬ Rings 0 3 4 0 s ∧
      (0x1000000 + 0x8000 + 4 * (16 * 3 + 5) : Nat) = (0x10080D4#32 : Word).toNat) ∧
    (Rings 0 3 5 1 (chosen (queue 3)) ∧ (queueOf 3 5 (chosen (queue 3))).state = 3) := by
  unfold Rings
  repeat' apply And.intro
  all_goals decide +kernel

/-- Compatibility mode: context ID 5 has its record at 0x300000; it is resident in slot 3, or every slot is DRAINING. -/
def compatible (resident : Bool) : State :=
  let s := hbmUp [(0x400028, 4, 0x300000)] (chosen (queue 1))
  let slots := if resident then [(3, { slotOf 3 s with ctxId := 5 })] else (List.range 64).map (fun k => (k, { state := 2 }))
  withRegs [(rk pgFe 0 0x100, 1), (rk pgFe 0 0x118, 0x400000)]
    { s with fe := { s.fe with slots := slots, heldDb := if resident then [(0, 5, 5)] else [] } }

/-- Context 5's table entry names the record at 0x300000, and the record function 0; the state after the two reads. -/
def namesRead (s : State) : Option (List Byte) × Option (List Byte) × State :=
  let a := hbmRead (getPair pgFe 0 0x118 s + 40) 8 s
  let b := hbmRead 0x300000 4 a.2
  (a.1, b.1, b.2)

theorem test_compat_doorbell_hypotheses :
    (let s := hbmUp [(0x202160, 4, 65)] (compatible true)
     HeardFn .pf 0 s = true ∧ compat s = true ∧ fld 0x5005#32 0 12 = 5 ∧ fld 0x5005#32 12 4 = 5 ∧
      (namesRead s).1 = some (toLE 8 0x300000) ∧ (namesRead s).2.1 = some [0, 0, 0, 0] ∧ leNat (toLE 8 0x300000) = 0x300000 ∧
      residentSlot 5 s = some 3 ∧ s.fe.heldDb = [(0, 5, 5)] ∧
      (vaRead rqFe 3 (qrecVa 3 5 s + 0x20) 4 .rd (namesRead s).2.2).1.toOption = some [65, 0, 0, 0] ∧
      w32 (leNat [65, 0, 0, 0]) = 65 ∧ Rings 0 3 5 65 s ∧
      let t := { s with fe := { s.fe with heldDb := [] } }
      (namesRead t).1 = some (toLE 8 0x300000) ∧ (namesRead t).2.1 = some [0, 0, 0, 0]) ∧
    (let s := compatible false
     HeardFn .pf 0 s = true ∧ compat s = true ∧ (namesRead s).1 = some (toLE 8 0x300000) ∧ (namesRead s).2.1 = some [0, 0, 0, 0] ∧ residentSlot 5 s = none ∧
      (∀ k < 64, (slotOf k s).state ≠ 0) ∧ victim s = none) := by
  unfold Rings
  repeat' apply And.intro
  all_goals decide +kernel

/-! ## Command streams -/

/-- What a stream reads at its fetch position, and the state in which it takes that command. -/
def readAt (f : Fetcher) (s : State) : Except AccErr (List Byte) × State :=
  match fetchPos (ownerOf f) s with
  | some (va, _) => vaRead (ownRq (ownerOf f)) (ownSlot (ownerOf f) s) va 32 .rd s
  | none => (.ok [], s)
def cmdAt (f : Fetcher) (s : State) : List Word := ((readAt f s).1.toOption.map (rowWords 4 8)).getD []
def servedAt (f : Fetcher) (s : State) : State := took (ownerOf f) (cmdAt f s) (readAt f s).2
def takesAt (f : Fetcher) (s : State) : State := issueNext (ownerOf f) (servedAt f s)

/-- The conditions of `Fetched` and of `Takes`, to be evaluated. -/
def fetches (f : Fetcher) (c : List Word) (level : Nat) (s : State) : Bool :=
  fetching (ownerOf f) s && ((fetchPos (ownerOf f) s).map (·.2) == some level) &&
  ((readAt f s).1.toOption.map (rowWords 4 8) == some c)
def serves (f : Fetcher) (c : List Word) (level : Nat) (s : State) : Bool :=
  fetches f c level s && Machine.chosen (ownerOf f) c s
def takesOk (f : Fetcher) (c : List Word) (level : Nat) (s : State) : Bool :=
  serves f c level s && ((streamOf (ownerOf f) (servedAt f s)).condSkip == 0) &&
  ((streamOf (ownerOf f) (servedAt f s)).batchSkip == none) && !(badCmd (ownerOf f) c (takesAt f s)) &&
  !(mustWait (ownerOf f) c (takesAt f s))

theorem fetched_of_fetches {f : Fetcher} {c : List Word} {level : Nat} {s : State} (h : fetches f c level s = true) :
    Fetched f c level s (readAt f s).2 := by
  simp only [fetches, Bool.and_eq_true, beq_iff_eq] at h
  obtain ⟨⟨hf, hp⟩, hc⟩ := h
  cases hv : fetchPos (ownerOf f) s with
  | none => simp [hv] at hp
  | some v =>
    obtain ⟨va, l⟩ := v
    simp only [hv, Option.map_some, Option.some.injEq] at hp
    subst hp
    simp only [readAt, hv] at hc
    cases hr : vaRead (ownRq (ownerOf f)) (ownSlot (ownerOf f) s) va 32 .rd s with
    | mk r s' =>
      rw [hr] at hc
      cases r with
      | error e => simp [Except.toOption] at hc
      | ok bs =>
        simp only [Except.toOption, Option.map_some, Option.some.injEq] at hc
        exact ⟨hf, va, bs, hv, by simp only [readAt, hv, hr], hc.symm⟩

theorem served_of_serves {f : Fetcher} {c : List Word} {level : Nat} {s : State} (h : serves f c level s = true) :
    Served f c level s (servedAt f s) := by
  simp only [serves, Bool.and_eq_true] at h
  have hc : cmdAt f s = c := by
    have := h.1
    simp only [fetches, Bool.and_eq_true, beq_iff_eq] at this
    simp [cmdAt, this.2]
  exact ⟨_, fetched_of_fetches h.1, h.2, by rw [servedAt, hc]⟩

theorem takes_of_takesOk {f : Fetcher} {c : List Word} {level : Nat} {s : State} (h : takesOk f c level s = true) :
    Takes f c level s (takesAt f s) := by
  simp only [takesOk, Bool.and_eq_true, beq_iff_eq, Bool.not_eq_eq_eq_not, Bool.not_true] at h
  obtain ⟨⟨⟨⟨h1, h2⟩, h3⟩, h4⟩, h5⟩ := h
  exact ⟨_, served_of_serves h1, h2, h3, rfl, h4, h5⟩

/-- Words as cells of HBM. -/
def wordsAt (a : Nat) (c : List Word) : List (Nat × Nat × Nat) := (c.zipIdx).map (fun e => (a + 4 * e.2, 4, e.1.toNat))

/-- Queue 5 of slot 3 is ACTIVE on engine `e` with the one command `c` at 0x1000; handle 1 names the 64 KiB at 0x10000; fence 0
is in the function's window, with `fence` as its first word. -/
def posted (e : Nat) (c : List Word) (fence : Word) : State :=
  hbmUp (wordsAt 0x201000 c ++ wordsAt 0x206010 [1, 1, 1, 1] ++ wordsAt 0x800000 [fence, 0, 1])
    (withQueue { queue 2 with engine := e, rptr := 0 }
      (withRegs [(rk pgFnc 0 0x100, 0x800000), (rk pgFnc 0 0x108, 1), (rk pgFnc 0 0x114, 1)] ctx))

/-- The same with `n` entered buffers, the innermost at the command. -/
def inBuffer (n left : Nat) (s : State) : State :=
  let x : Frame := { base := 0x1000, count := 1, pos := 0, left := left, cmd := [0x15, 1, 0, 1, 2, 0, 0, 0] }
  setQueue 3 5 { queueOf 3 5 s with str := { (queueOf 3 5 s).str with frames := List.replicate n x } } s

abbrev q5 : Fetcher := .queue 3 5
abbrev o5 : Owner := .queue 3 5

/-- The range that a command names, in the state in which it is taken. -/
def namedVa (c : List Word) (len : Nat) (s : State) : Option Nat :=
  (nameRange o5 (ownRef o5 (takesAt q5 s)) (cw c 1) (cw c 2).toNat len (takesAt q5 s)).1.toOption

theorem test_nop_and_reserved_hypotheses :
    takesOk q5 (List.replicate 8 0) 0 (posted 0 (List.replicate 8 0) 1) = true ∧ opOf (List.replicate 8 0) = 0 ∧
    isHrel (List.replicate 8 0) = false ∧
    (let c : List Word := [0x0C, 0, 0, 0, 0, 0, 0, 0]
     let s := posted 0 c 1
     serves q5 c 0 s = true ∧ (streamOf o5 (servedAt q5 s)).condSkip = 0 ∧ (streamOf o5 (servedAt q5 s)).batchSkip = none ∧
      opMasks (opOf c) = none) := by
  repeat' apply And.intro
  all_goals decide +kernel

theorem test_call_and_return_hypotheses :
    (let c : List Word := [0x16, 0, 0, 0, 0, 0, 0, 0]
     let s := posted 0 c 1
     takesOk q5 c 0 s = true ∧ opOf c = 0x16 ∧ takesOk q5 c 1 (inBuffer 1 1 s) = true ∧
      (streamOf o5 (takesAt q5 (inBuffer 1 1 s))).frames.map (·.left) = [1] ∧ takesOk q5 c 1 (inBuffer 1 0 s) = true ∧
      (streamOf o5 (takesAt q5 (inBuffer 1 0 s))).frames.map (fun x => (x.left, isHrel x.cmd)) = [(0, false)]) ∧
    (let c : List Word := [0x15, 1, 0, 1, 2, 0, 0, 0]
     let s := posted 0 c 1
     opOf c = 0x15 ∧ argsOf c % 2 = 0 ∧ (cw c 4).toNat ≠ 0 ∧ takesOk q5 c 4 (inBuffer 4 0 s) = true ∧
      takesOk q5 c 3 (inBuffer 3 0 s) = true ∧ namedVa c 32 (inBuffer 3 0 s) = some 0x10000) ∧
    (let c : List Word := [0x15, 1, 0, 1, 0, 0, 0, 0]
     takesOk q5 c 0 (posted 0 c 1) = true ∧ (cw c 4).toNat = 0 ∧ namedVa c 32 (posted 0 c 1) = some 0x10000) ∧
    (let c : List Word := [0x10015, 1, 0, 1, 0, 1, 0xFFFC, 0]
     let named := fun (s : State) => nameRange o5 (ownRef o5 (takesAt q5 s)) (cw c 1) (cw c 2).toNat 32 (takesAt q5 s)
     let count := fun (s : State) => nameRange o5 (ownRef o5 (named s).2) (cw c 5) (cw c 6).toNat 4 (named s).2
     let read := fun (s : State) => (vaReadAll rqFe 3 0x1FFFC 4 .rd (count s).2).1.toOption
     let s := posted 0 c 1
     let s' := hbmUp [(0x21FFFC, 4, 2)] s
     argsOf c % 2 = 1 ∧ takesOk q5 c 0 s = true ∧ (named s).1.toOption = some 0x10000 ∧ (count s).1.toOption = some 0x1FFFC ∧
      read s = some [0, 0, 0, 0] ∧ takesOk q5 c 0 s' = true ∧ (count s').1.toOption = some 0x1FFFC ∧ read s' = some [2, 0, 0, 0]) := by
  repeat' apply And.intro
  all_goals decide +kernel

theorem test_cond_and_write_hypotheses :
    (let c : List Word := [0x14, 1, 0, 0, 0, 0, 0, 2]
     let s := posted 0 c 1
     takesOk q5 c 0 s = true ∧ opOf c = 0x14 ∧ namedVa c 4 s = some 0x10000 ∧ argsOf c / 32 % 2 = 0 ∧ isHrel c = false ∧
      (vaReadAll rqFe 3 0x10000 4 .rd (nameRange o5 (ownRef o5 (takesAt q5 s)) 1 0 4 (takesAt q5 s)).2).1.toOption =
        some [0, 0, 0, 0] ∧
      condTrue (argsOf c % 16) 4 (leNat [0, 0, 0, 0] &&& (cw64 c 5 % 2 ^ (8 * 4))) (cw64 c 3 % 2 ^ (8 * 4)) = true) ∧
    (let c : List Word := [0x10014, 1, 0, 0, 0, 0, 0, 2]
     takesOk q5 c 0 (posted 0 c 1) = true ∧ namedVa c 4 (posted 0 c 1) = some 0x10000 ∧ condTrue (argsOf c % 16) 4 0 0 = false) ∧
    (let c : List Word := [0x200014, 1, 0, 0, 0, 0, 0, 0]
     takesOk q5 c 0 (posted 0 c 1) = true ∧ namedVa c 4 (posted 0 c 1) = some 0x10000 ∧ argsOf c / 32 % 2 = 1 ∧
      condTrue (argsOf c % 16) 4 0 0 = true) ∧
    (let c : List Word := [0x10013, 1, 0xFFF8, 7, 8, 0, 0, 0]
     let s := posted 0 c 1
     takesOk q5 c 0 s = true ∧ opOf c = 0x13 ∧ argsOf c % 2 = 1 ∧ namedVa c 8 s = some 0x1FFF8 ∧
      (vaWrite rqFe 3 0x1FFF8 (toLE 8 (cw64 c 3)) (nameRange o5 (ownRef o5 (takesAt q5 s)) 1 0xFFF8 8 (takesAt q5 s)).2).1.toOption
        = some ()) := by
  repeat' apply And.intro
  all_goals decide +kernel

/-- The stream's look at the fence that a command names: what fails, and the state after it. -/
def looked (c : List Word) (s : State) : Option (Nat × Nat) × State := cmdFence o5 c (takesAt q5 s)

/-- The command is taken, and its fence 0 of this node can be read. -/
def looksOk (c : List Word) (s : State) : Bool :=
  takesOk q5 c 0 s && (fenceNode (cw c 1) (takesAt q5 s)).isNone && (looked c s).1.isNone &&
  (fenceNamed o5 c (looked c s).2 == some 0)

theorem looked_of_looksOk {c : List Word} {s : State} (h : looksOk c s = true) :
    Takes q5 c 0 s (takesAt q5 s) ∧ Looked q5 c (takesAt q5 s) (looked c s).2 ∧ fenceNamed o5 c (looked c s).2 = some 0 := by
  simp only [looksOk, Bool.and_eq_true, beq_iff_eq, Option.isNone_iff_eq_none] at h
  obtain ⟨⟨⟨h1, h2⟩, h3⟩, h4⟩ := h
  exact ⟨takes_of_takesOk h1, ⟨h2, Prod.ext h3 rfl⟩, h4⟩

theorem test_fence_command_hypotheses :
    (∀ op ∈ [0x10, 0x11, 0x12], let c : List Word := [op, 0, 7, 0, 0, 0, 0, 0]
      takesOk q5 c 0 (posted 0 c 1) = true ∧ fenceNode (cw c 1) (takesAt q5 (posted 0 c 1)) = none ∧
        (looked c (posted 0 c 1)).1 = none ∧ fenceNamed o5 c (looked c (posted 0 c 1)).2 = none) ∧
    (∀ op ∈ [0x10, 0x11, 0x12], let c : List Word := [op, 0, 0, 0, 0, 0, 0, 0]
      let s := { posted 0 c 1 with hbc := { (posted 0 c 1).hbc with ecc := [(0x40000, { ue := true, seen := true })] } }
      takesOk q5 c 0 s = true ∧ fenceNode (cw c 1) (takesAt q5 s) = none ∧ (looked c s).1.map (·.1) = some 0x15) ∧
    (let c : List Word := [0x10, 0, 0, 0, 0, 0, 0, 0]
     let s2 := (looked c (posted 0 c 1)).2
     looksOk c (posted 0 c 1) = true ∧ opOf c = 0x10 ∧ (fenceGet 0 s2).signalled = false ∧ (streamOf o5 s2).sig < 256 ∧
      FenceQuiet s2 ∧ (∀ w ∈ s2.fnc.waits, w.index ≠ 0) ∧ looksOk c (posted 0 c 3) = true ∧
      (fenceGet 0 (looked c (posted 0 c 3)).2).signalled = true) ∧
    (let c : List Word := [0x11, 0, 0x10000, 0, 0, 0, 0, 0]
     looksOk c (posted 0 c 1) = true ∧ opOf c = 0x11 ∧ (fenceGet 0 (looked c (posted 0 c 1)).2).signalled = false ∧
      looksOk c (posted 0 c 3) = true ∧ (fenceGet 0 (looked c (posted 0 c 3)).2).signalled = true ∧
      (fenceGet 0 (looked c (posted 0 c 3)).2).status = 0 ∧ looksOk c (posted 0 c 0x103) = true ∧
      (fenceGet 0 (looked c (posted 0 c 0x103)).2).signalled = true ∧
      (fenceGet 0 (looked c (posted 0 c 0x103)).2).status ≠ 0 ∧ bit (cw c 2) 16 = true) ∧
    (let c : List Word := [0x12, 0, 0, 0, 0, 0, 0, 0]
     looksOk c (posted 0 c 1) = true ∧ opOf c = 0x12 ∧ (fenceGet 0 (looked c (posted 0 c 1)).2).signalled = false ∧
      looksOk c (posted 0 c 3) = true ∧ FenceQuiet (looked c (posted 0 c 3)).2 ∧
      (fenceGet 0 (looked c (posted 0 c 3)).2).signalled = true) := by
  unfold FenceQuiet NoInjection
  repeat' first | apply And.intro | refine List.forall_mem_cons.mpr ⟨?_, ?_⟩ | exact List.forall_mem_nil _
  all_goals decide +kernel

/-- The fence is node 8's; with `r`, node 0 reaches it. -/
theorem test_remote_fence_command_hypotheses :
    ∀ op ∈ [0x10, 0x11, 0x12], let c : List Word := [op, 0x01800000, 0, 0, 0, 0, 0, 0]
      ∀ r ∈ [0, 0x100],
        let s := withRegs [(rk (pgSvl 0) 0 0x200, 0x40), (rk (pgSvl 0) 0 0x208, r), (rk (pgSvl 3) 0 0x100, 2)] (posted 0 c 1)
        takesOk q5 c 0 s = true ∧ fenceNode (cw c 1) (takesAt q5 s) = some 8 ∧ linkStopped 3 (takesAt q5 s) = false ∧
          reachable 8 (takesAt q5 s) = (r != 0) := by
  repeat' first | apply And.intro | refine List.forall_mem_cons.mpr ⟨?_, ?_⟩ | exact List.forall_mem_nil _
  all_goals decide +kernel

/-- The completion ring is full, or a command that is a job may start. -/
def startable (c : List Word) (s : State) : Bool :=
  takesOk q5 c 0 s && !((queueOf 3 5 (takesAt q5 s)).full) && ((ringRoom 3 5 (takesAt q5 s)).1 == some true)

theorem starts_of_startable {c : List Word} {s : State} (h : startable c s = true) :
    StartsJob 3 5 c s (takesAt q5 s) (ringRoom 3 5 (takesAt q5 s)).2 := by
  simp only [startable, Bool.and_eq_true, beq_iff_eq, Bool.not_eq_eq_eq_not, Bool.not_true] at h
  obtain ⟨⟨h1, h2⟩, h3⟩ := h
  exact ⟨takes_of_takesOk h1, h2, Prod.ext h3 rfl⟩

/-- HBM bytes written where no error injection is armed; the controller that a byte belongs to plays no part then. -/
def beforePut (a n : Nat) (s : State) : State :=
  let rs := chunksOf (2 ^ 21) a n
  hbmMerge a n (rs.foldl touchRegion (settleFills rs s))
def plainPut (a : Nat) (bs : List Byte) (s : State) : State :=
  let s := beforePut a bs.length s
  { s with
    mem := { s.mem with hbm := memWrite (hbmDefault s.hbc.stale) a bs s.mem.hbm },
    hbc := { s.hbc with ecc := clearEcc a bs.length s.hbc.ecc } }

theorem stackOf_lt (a : Nat) (s : State) : stackOf a s < 4 := by
  have h : ∀ n, nth 0 (livePcs s) n < 128 := fun n => by
    unfold nth
    by_cases hn : n < (livePcs s).length
    · have := List.getElem_mem hn
      rw [List.getD_eq_getElem _ _ hn]
      exact List.mem_range.mp (List.mem_filter.mp this).1
    · simp [List.getD, List.getElem?_eq_none (Nat.le_of_not_lt hn)]
  exact (Nat.div_lt_iff_lt_mul (by decide)).mpr (h _)

theorem hbmPut_eq_plainPut {a : Nat} {bs : List Byte} {s : State} (hb : bs ≠ []) (h : NoInjection (plainPut a bs s)) :
    hbmPut a bs s = plainPut a bs s := by
  obtain ⟨b, l, rfl⟩ := List.exists_cons_of_ne_nil hb
  have hn : bit (getReg (pgHbc (stackOf a (plainPut a (b :: l) s))) 0 0x028 (plainPut a (b :: l) s)) 16 = false :=
    h _ (stackOf_lt _ _)
  show (match takeInjection (pgHbc (stackOf a (plainPut a (b :: l) s))) (plainPut a (b :: l) s) with
    | (some ue, s) => { s with hbc := { s.hbc with ecc := tabSet (a / 32) { ue := ue ||
        (match tabFind (a / 32) s.hbc.ecc with | some e => e.ue | none => false) } s.hbc.ecc } }
    | (none, s) => s) = _
  simp only [takeInjection, hn, Bool.false_and, Bool.false_eq_true, if_false]

/-- Queue 5's new job before its slot has the job's reference, and after: the state in which its first actions run. -/
def jobAt (c : List Word) (s : State) : State :=
  let s2 := (ringRoom 3 5 (takesAt q5 s)).2
  let s := setQueue 3 5 { queueOf 3 5 s2 with held := false } s2
  let t := streamOf o5 s
  let b : Job := { owner := o5, cmd := c, startSeq := t.started % 2 ^ 32, startUs := s.fe.us, batch := failNo o5 s }
  let j := s.fe.nextJob
  let s := setStream o5 { t with started := t.started + 1 } s
  { s with fe := { s.fe with nextJob := j + 1, jobs := tabSet j b s.fe.jobs } }
def startedAt (c : List Word) (s : State) : State :=
  let x := slotOf 3 (jobAt c s)
  plainPut (x.ctx + 0x30) (toLE 4 (x.refcnt + 1)) (setSlot 3 { x with refcnt := x.refcnt + 1, lastUse := (jobAt c s).fe.us } (jobAt c s))

def begins (c : List Word) (s : State) : Bool :=
  startable c s && (List.range 4).all (fun n => !(bit (getReg (pgHbc n) 0 0x028 (startedAt c s)) 16))

/-- The descriptor that the new job's command names: its address and its bytes, and the state after its read. -/
def descVa (c : List Word) (size : Nat) (s : State) : Except (Nat × Nat) Nat × State :=
  nameRange o5 (jobRef s.fe.nextJob (startedAt c s)) (cw c 1) (cw c 2).toNat size (startedAt c s)
def descAt (rq size va : Nat) (c : List Word) (s : State) : Except (AccErr × Nat) (List Byte) × State :=
  vaReadAll rq 3 va size .rd (descVa c size s).2

/-- The conditions of `ReadsDesc`, to be evaluated. -/
def readsOk (rq size align : Nat) (c : List Word) (va : Nat) (d : List Word) (s : State) : Bool :=
  begins c s && ((descVa c size s).1.toOption == some va) && va % align == 0 &&
  ((descAt rq size va c s).1.toOption.map (rowWords 4 (size / 4)) == some d)

theorem pair_of_ok {α β ε : Type} {x : Except ε α × β} {b : α} (h : x.1.toOption = some b) : x = (.ok b, x.2) := by
  obtain ⟨_ | c, s⟩ := x <;> simp_all [Except.toOption]

theorem newJob_eq_startedAt {c : List Word} {s : State} (h : begins c s = true) :
    startedAt c s = (newJob o5 c (setQueue 3 5 { queueOf 3 5 (ringRoom 3 5 (takesAt q5 s)).2 with held := false }
      (ringRoom 3 5 (takesAt q5 s)).2)).2 := by
  simp only [begins, Bool.and_eq_true, List.all_eq_true, List.mem_range, Bool.not_eq_eq_eq_not, Bool.not_true] at h
  exact (hbmPut_eq_plainPut (by simp [toLE]) h.2).symm

theorem readsDesc_of_readsOk {rq size align va : Nat} {c d : List Word} {s : State} (h : readsOk rq size align c va d s = true) :
    ReadsDesc 3 5 rq size align c va d s (takesAt q5 s) (descAt rq size va c s).2 := by
  simp only [readsOk, Bool.and_eq_true, beq_iff_eq] at h
  obtain ⟨⟨⟨h1, h2⟩, h3⟩, h4⟩ := h
  have hb := h1
  simp only [begins, Bool.and_eq_true] at hb
  obtain ⟨bs, h5, rfl⟩ := Option.map_eq_some_iff.mp h4
  exact ⟨_, _, bs, (descVa c size s).2, starts_of_startable hb.1, newJob_eq_startedAt h1, pair_of_ok h2, h3, pair_of_ok h5, rfl⟩

/-- A job command with handle 1 and offset 0. -/
def jobCmd (op : Word) : List Word := [op, 1, 0, 0, 0, 0, 0, 0]

/-- Words at the start of handle 1's object. -/
def withDesc0 (d : List Word) (s : State) : State := hbmUp (wordsAt 0x210000 d) s

/-- A state in which queue 5 of engine `e` starts a job whose descriptor is `d`. -/
def withJobDesc (e : Nat) (c d : List Word) : State := withDesc0 d (posted e c 1)

/-- A launch descriptor: its code at offset 0x100 of handle 1, `gx` blocks of one group, `f` more flags. -/
def launchWords (gx f : Word) : List Word := [1, 0x100, 8, gx, 1, 1, 0x140 + f, 1] ++ List.replicate 8 0

theorem test_launch_hypotheses :
    (let c := jobCmd 1
     let s := withQueue { queueOf 3 5 (posted 0 c 1) with cplProd := 64 } (posted 0 c 1)
     opOf c = 1 ∧ takesOk q5 c 0 s = true ∧ (queueOf 3 5 (takesAt q5 s)).full = false ∧
      (ringRoom 3 5 (takesAt q5 s)).1 = some false) ∧
    (let d : List Word := List.replicate 16 0
     readsOk rqFe 64 64 (jobCmd 1) 0x10000 d (withJobDesc 0 (jobCmd 1) d) = true ∧ launchBad d = true) ∧
    (∀ gx ∈ [0, 2], let d := launchWords gx 0
      let s := withJobDesc 0 (jobCmd 1) d
      let s3 := (descAt rqFe 64 0x10000 (jobCmd 1) s).2
      let r := checkRange (jobRefOf o5 0 s3) 1 0x100 8 s3
      let x := launchKernel d 3 0x10100 0 (maskOf 3 5 s)
      readsOk rqFe 64 64 (jobCmd 1) 0x10000 d s = true ∧ launchBad d = false ∧ r.1.toOption = some 0x10100 ∧ dWord d 8 = 0 ∧
        x.codeBytes ≤ getFld pgCap 0 0x108 8 8 r.2 * 1024 ∧ x.coop = false ∧ kernelBlocks x = gx.toNat) ∧
    (let d := launchWords 0xFFFF 0x10000
     let s0 := withJobDesc 0 (jobCmd 1) d
     let s := withRegs ((List.range 16).map (fun n => (rk pgCap 0 (0x140 + 4 * n), w32 (0x03020100 + 0x05050505 * n))) ++
        (span 0 5).map (fun p => (rk (pgSc p) 0 0x03C, 0)))
       (withQueue { queueOf 3 5 s0 with cmask := 1 } s0)
     let s3 := (descAt rqFe 64 0x10000 (jobCmd 1) s).2
     let r := checkRange (jobRefOf o5 0 s3) 1 0x100 8 s3
     let x := launchKernel d 3 0x10100 0 (maskOf 3 5 s)
     readsOk rqFe 64 64 (jobCmd 1) 0x10000 d s = true ∧ launchBad d = false ∧ r.1.toOption = some 0x10100 ∧ x.coop = true ∧
      coopRoom x r.2 < kernelBlocks x) := by
  repeat' first | apply And.intro | refine List.forall_mem_cons.mpr ⟨?_, ?_⟩ | exact List.forall_mem_nil _
  all_goals decide +kernel

/-- The ranges of a copy of `n` bytes, of a fill of `n` bytes and of a gather descriptor at offset `off`. -/
theorem test_transfer_command_hypotheses :
    (∀ n ∈ [0, 0x100], let c : List Word := [5, 1, 1, 0, 0xFF00, 0, n, 0]
      let s := posted 5 c 1
      let u := startedAt c s
      let a := nameRange o5 (jobRef 0 u) (cw c 1) 0 n.toNat u
      let b := nameRange o5 (jobRef 0 a.2) (cw c 2) 0xFF00 n.toNat a.2
      begins c s = true ∧ opOf c = 5 ∧ a.1.toOption = some 0x10000 ∧ b.1.toOption = some 0x1FF00) ∧
    (∀ n ∈ [0, 0x100], let c : List Word := [6, 1, 0xFF00, 0, 7, 0, n, 0]
      let s := posted 8 c 1
      begins c s = true ∧ opOf c = 6 ∧ cw64 c 6 = n.toNat ∧
        (nameRange o5 (jobRef 0 (startedAt c s)) (cw c 1) 0xFF00 n.toNat (startedAt c s)).1.toOption = some 0x1FF00) ∧
    (∀ off ∈ [0x40, 0x41], let c : List Word := [7, 1, off, 0, 0, 0, 0, 0]
      let s := posted 8 c 1
      begins c s = true ∧ opOf c = 7 ∧
        (nameRange o5 (jobRef 0 (startedAt c s)) (cw c 1) off.toNat 64 (startedAt c s)).1.toOption = some (0x10000 + off.toNat)) := by
  repeat' first | apply And.intro | refine List.forall_mem_cons.mpr ⟨?_, ?_⟩ | exact List.forall_mem_nil _
  all_goals decide +kernel

/-- A pass descriptor for one pixel without attachments; its tile headers at 0x18000, its pool at 0x14000. -/
def passWords : List Word := [0x10001, 0x10, 0x18000, 0, 0x14000, 0, 0, 0, 1, 1] ++ List.replicate 118 0
def rendering (busy : Nat) (d : List Word) : State := hbmUp [(0x214024, 4, busy)] (withJobDesc 1 (jobCmd 2) d)
def passOfWords (d : List Word) : Pass := { slot := 3, desc := d, mask := 0xFFFF }
def poolRead (s : State) : Option Nat × State := tNat 0 0x14024 4 (descAt rqTiler 512 0x10000 (jobCmd 2) s).2

theorem test_render_hypotheses :
    (∀ d ∈ [passWords, List.replicate 128 0], let s := rendering 0 d
      readsOk rqTiler 512 256 (jobCmd 2) 0x10000 d s = true ∧ tilerFree 3 (takesAt q5 s) = true ∧ maskOf 3 5 s = 0xFFFF ∧
        passBad (passOfWords d) = (d != passWords)) ∧
    pVa (passOfWords passWords) 4 + 0x24 = 0x14024 ∧ (poolRead (rendering 0 passWords)).1 = some 0 ∧
    (poolRead (rendering 1 passWords)).1 = some 1 ∧
    (let s := posted 1 (jobCmd 2) 1
     let s' := { s with tlr := { s.tlr with passes := [(0, pass0 0)] } }
     takesOk q5 (jobCmd 2) 0 s' = true ∧ tilerFree 3 (takesAt q5 s') = false) := by
  repeat' apply And.intro
  all_goals decide +kernel

theorem tWrite_of_translate {j va a : Nat} {bs : List Byte} {s s1 : State} (hp : pagePieces va bs.length = [(va, bs.length)])
    (ht : translate rqTiler (jobSlot j s) va .wr s = (.ok (.hbm a), s1)) : tWrite j va bs s = (some (), hbmPut a bs s1) := by
  simp only [tWrite, vaWriteAll, hp, List.foldl_cons, List.foldl_nil, Nat.sub_self, List.drop_zero, List.take_length, vaWrite, ht]

/-- The pool is taken, and the tile headers are written. -/
theorem test_render_starts :
    let x := passOfWords passWords
    let s4 := (poolRead (rendering 0 passWords)).2
    let w1 := (translate rqTiler 3 0x14024 .wr s4).2
    let s5 := plainPut 0x214024 (toLE 4 1) w1
    let u := setPass 0 { x with cores := passCores x.mask s5 } s5
    let w2 := (translate rqTiler 3 0x18000 .wr u).2
    tWrite 0 0x14024 (toLE 4 1) s4 = (some (), s5) ∧
      headersClear 0 x u = (some (), plainPut 0x218000 (List.replicate 16 0) w2) := by
  intro x s4 w1 s5 u w2
  have h1 : (translate rqTiler (jobSlot 0 s4) 0x14024 .wr s4).1.toOption = some (.hbm 0x214024) := by decide +kernel
  have h2 : (translate rqTiler (jobSlot 0 u) 0x18000 .wr u).1.toOption = some (.hbm 0x218000) := by decide +kernel
  have e1 : jobSlot 0 s4 = 3 := by decide +kernel
  have e2 : jobSlot 0 u = 3 := by decide +kernel
  have n1 : NoInjection s5 := by unfold NoInjection; decide +kernel
  have n2 : NoInjection (plainPut 0x218000 (List.replicate 16 0) w2) := by unfold NoInjection; decide +kernel
  refine ⟨?_, ?_⟩
  · rw [tWrite_of_translate (by decide) (pair_of_ok h1), e1, hbmPut_eq_plainPut (by decide) n1]
  · rw [headersClear, show pVa x 2 = 0x18000 by decide, show 16 * passTx x * passTy x = 16 by decide,
      tWrite_of_translate (by decide) (pair_of_ok h2), e2, hbmPut_eq_plainPut (by decide) n2]

/-- A CZ descriptor of one whole tensor stream of 64 bytes. -/
def czWords (flags : Word) : List Word :=
  [flags, 1, 0x100, 64, 1, 0x200, 64] ++ List.replicate 9 0 ++ [0x15A43, 1] ++ List.replicate 46 0

theorem test_cz_command_hypotheses :
    (let s := posted 4 (jobCmd 4) 1
     let s' := { s with cz := { s.cz with ctx := (span 4 4).map (fun k => (k, .park k)) } }
     takesOk q5 (jobCmd 4) 0 s' = true ∧ (queueOf 3 5 s').engine - 3 = 1 ∧ czAvail 1 false (takesAt q5 s') = none) ∧
    (∀ f ∈ [6, 0x16], let s := withJobDesc 4 (jobCmd 4) (czWords f)
      readsOk (rqCz 1) 256 256 (jobCmd 4) 0x10000 (czWords f) s = true ∧ (czAvail 1 false (takesAt q5 s)).isSome = true ∧
        czReserved (czWords f) = (f != 6)) := by
  repeat' first | apply And.intro | refine List.forall_mem_cons.mpr ⟨?_, ?_⟩ | exact List.forall_mem_nil _
  all_goals decide +kernel

theorem test_cz_accepted :
    let d := czWords 6
    let s3 := (descAt (rqCz 1) 256 0x10000 (jobCmd 4) (withJobDesc 4 (jobCmd 4) d)).2
    ∃ x s', CzAccepted 3 5 1 0x10000 d 0 x s3 s' := by
  intro d s3
  have hi : (checkRange (jobRefOf o5 0 s3) 1 0x100 64 s3).1.toOption = some 0x10100 := by decide +kernel
  have ho : (checkRange (jobRefOf o5 0 s3) 1 0x200 64 (checkRange (jobRefOf o5 0 s3) 1 0x100 64 s3).2).1.toOption = some 0x10200 := by
    decide +kernel
  exact ⟨_, _, _, _, _, 0, s3, s3, _, _, _, _, rfl, rfl, by decide, by decide, by decide, .inl ⟨by decide, by decide, rfl, rfl⟩,
    .inl ⟨by decide, rfl, rfl⟩, by unfold CzLenOk; decide, pair_of_ok hi, pair_of_ok ho, .inl ⟨by decide, rfl, rfl⟩⟩

/-- A reference taken on a handle whose entry is valid: its count is one more. -/
theorem acquireRef_of_entry {r : JobRef} {h : Word} {e : HandleEnt} {a : Nat} {s s1 s2 : State} (h0 : h ≠ 0)
    (hi : ¬ (fld h 0 16 = 0 ∨ 2 ^ (slotOf r.slot s).htblLog2 ≤ fld h 0 16))
    (hg : handleGet r.slot (fld h 0 16) s = (.ok e, s1)) (hv : (!e.valid || e.gen != fld h 16 16) = false)
    (hr : ¬ 2 ^ 32 - 1 ≤ e.refcnt)
    (ht : translate rqFnc r.slot (handleVa r.slot (fld h 0 16) s1 + 4) .wr s1 = (.ok (.hbm a), s2)) :
    acquireRef r h s = (.ok (), hbmPut a (toLE 4 (e.refcnt + 1)) s2) := by
  simp only [acquireRef, h0, if_false, handleAcquire, hi, hg, hv, Bool.false_eq_true, hr, handleSet, vaWrite, ht,
    Nat.add_one_ne_zero, Nat.zero_ne_one]

theorem test_compose_command_hypotheses :
    let c := jobCmd 0xF0003
    let s := withRegs [(rk pgCmp 15 0x108, 0x301)] (posted 2 c 1)
    let s' := withRegs [(rk pgCmp 15 0x10C, 2)] s
    opOf c = 3 ∧ argsOf c % 16 = 15 ∧ startable c s = true ∧ chEnabled 15 (takesAt q5 s) = true ∧
    chSlot 15 (takesAt q5 s) = 3 ∧ chArmed 15 (takesAt q5 s) = false ∧ startable c s' = true ∧
    chEnabled 15 (takesAt q5 s') = true ∧ chSlot 15 (takesAt q5 s') = 3 ∧ chArmed 15 (takesAt q5 s') = true ∧
    startable c (posted 2 c 1) = true ∧ chEnabled 15 (takesAt q5 (posted 2 c 1)) = false := by
  repeat' apply And.intro
  all_goals decide +kernel

/-- A frame descriptor for channel 15 with one output buffer in handle 1. -/
def frameWords : List Word := [0x10101, 0, 1] ++ List.replicate 141 0
def composing (d : List Word) : State := withRegs [(rk pgCmp 15 0x108, 0x301)] (withJobDesc 2 (jobCmd 0xF0003) d)

/-- The checks of the frame descriptor, in order, and the reference that it takes. -/
theorem test_compose_frame_hypotheses :
    let c := jobCmd 0xF0003
    let d := frameWords
    let s3 := (descAt rqCmp 576 0x10000 c (composing d)).2
    let r := jobRefOf o5 0 s3
    let h := handlesBad r ((partOrder.map (fun p => partHandles p (descPart d p) (hActive 15 s3) (vActive 15 s3))).flatten) s3
    let g := fencesBad r (slotOf 3 h.2).func ((partOrder.map (fun p => partFences p (descPart d p))).flatten) h.2
    let e := handleGet 3 1 g.2
    let w := (translate rqFnc 3 0x6014 .wr e.2).2
    readsOk rqCmp 576 64 c 0x10000 d (composing d) = true ∧ frameBad 15 d s3 = false ∧ h.1 = none ∧ g.1 = none ∧
    acquireAll r 3 [] ((partOrder.map (fun p => partRefs 15 p (descPart d p) g.2)).flatten) g.2 =
      (.ok (), plainPut 0x206014 (toLE 4 2) w) ∧
    readsOk rqCmp 576 64 c 0x10000 (List.replicate 144 0) (composing (List.replicate 144 0)) = true ∧
    frameBad 15 (List.replicate 144 0) (composing (List.replicate 144 0)) = true := by
  intro c d s3 r h g e w
  have hs : r.slot = 3 := by decide +kernel
  have he : e.1.toOption = some ⟨true, 0, 1, 0x10000, 0x10000⟩ := by decide +kernel
  have ht : (translate rqFnc 3 0x6014 .wr e.2).1.toOption = some (.hbm 0x206014) := by decide +kernel
  have hn : NoInjection (plainPut 0x206014 (toLE 4 2) w) := by unfold NoInjection; decide +kernel
  have hr : (partOrder.map (fun p => partRefs 15 p (descPart d p) g.2)).flatten = [.hnd 1] := by decide +kernel
  refine ⟨by decide +kernel, by decide +kernel, by decide +kernel, by decide +kernel, ?_, by decide +kernel, by decide +kernel⟩
  rw [hr]
  show (match acquireRef r 1 g.2 with
    | (.error e, s) => (Except.error e, [].foldl (refDrop 3) s)
    | (.ok _, s) => acquireAll r 3 [.hnd 1] [] s) = _
  rw [acquireRef_of_entry (e := ⟨true, 0, 1, 0x10000, 0x10000⟩) (a := 0x206014) (s1 := e.2) (s2 := w)
    (by decide) ?_ ?_ (by decide) (by decide) ?_, hbmPut_eq_plainPut (by simp [toLE]) hn]
  · rfl
  · rw [hs]; decide +kernel
  · rw [hs]; exact pair_of_ok he
  · rw [hs, show handleVa 3 (fld (1 : Word) 0 16) e.2 + 4 = 0x6014 by decide +kernel]; exact pair_of_ok ht

/-- Batch 3 of slot 3, whose buffer stands at `base`. -/
def batch0 (base : Nat) : Batch :=
  { graph := 0, ver := 0, vi := 0, slot := 3, entries := [], mask := 0xFFFF, dma := 0, param := 0, area := 0,
    str := { frames := [{ base := base, count := 1, pos := 0, left := 0, cmd := [] }] } }

theorem test_fetch_fault_hypotheses :
    (let s := withQueue { queue 2 with ring := 2 ^ 22, rptr := 0 } ctx
     fetching o5 s = true ∧ fetchPos o5 s = some (2 ^ 22, 0) ∧ (vaRead rqFe 3 (2 ^ 22) 32 .rd s).1.toOption = none) ∧
    (let s := { ctx with lvn := { ctx.lvn with batches := [(3, batch0 (2 ^ 22))] } }
     fetching (.batch 3) s = true ∧ batchOf 3 s = some (batch0 (2 ^ 22)) ∧ (batch0 (2 ^ 22)).fail = none ∧
      fetchPos (.batch 3) s = some (2 ^ 22, 1) ∧ (vaRead rqLvn 3 (2 ^ 22) 32 .rd s).1.toOption = none) ∧
    (let b := { job1 with fin := some ⟨1, 0x16, 0⟩ }
     let s := { withQueue { queue 2 with errPolicy := true } ctx with
       fe := { (withQueue { queue 2 with errPolicy := true } ctx).fe with jobs := [(0, b)], nextJob := 1 } }
     tabFind 0 s.fe.jobs = some b ∧ jobHasOps 0 s = false ∧ tabFind 0 s.tlr.passes = none ∧ isHrel b.cmd = false ∧
      (slotOf 3 s).state ≠ 0 ∧ 1 < (slotOf 3 s).refcnt ∧ (queueOf 3 5 s).state = 2 ∧ (queueOf 3 5 s).errPolicy = true ∧
      (queueOf 3 5 s).str.batchNo = b.batch ∧ (queueOf 3 5 s).str.batchSkip = none) := by
  repeat' apply And.intro
  all_goals decide +kernel

/-! ## Objects, release rings and disables -/

/-- Function 0 selects an object: kind 1 is fence 0, kind 2 is slot 3; the fence has `w` as its first word and `n` references. -/
def object (kind : Nat) (w : Word) (n : Nat) : State :=
  hbmUp (wordsAt 0x800000 [w, 7, w32 n])
    (withRegs [(rk pgFnc 0 0x100, 0x800000), (rk pgFnc 0 0x108, 1), (rk pgFnc 0 0x114, 1),
      (rk pgFn 0 0x120, w32 (3 * 2 ^ 20 + kind * 2 ^ 26))] ctx)

/-- The fence is one on which an operation with generation 7 acts. -/
def onFence (op : Nat) (s : State) : Prop := OperatesOnFence .pf 0 (w32 (op + 7 * 2 ^ 16)) op 0 (fenceGet 0 s) s

theorem test_object_hypotheses :
    (HeardFn .pf 0 (object 3 1 1) = true ∧ objKind 0 (object 3 1 1) = 3 ∧ HeardFn .pf 63 (object 1 1 1) = true ∧
      objKind 63 (object 1 1 1) ≠ 3 ∧ objDenied 63 (object 1 1 1) = true ∧ fld 4#32 0 3 = 4) ∧
    (let s := { object 1 1 1 with hbc := { (object 1 1 1).hbc with ecc := [(0x40000, { ue := true, seen := true })] } }
     objKind 0 s = 1 ∧ objDenied 0 s = false ∧ (nameFails 0 (objRef 0 s) (objIndex 0 s) s).1.isSome = true) ∧
    (onFence 0 (object 1 1 1) ∧ (fenceGet 0 (object 1 1 1)).refcnt < 2 ^ 32 - 1) ∧
    (onFence 0 (object 1 1 (2 ^ 32 - 1)) ∧ (fenceGet 0 (object 1 1 (2 ^ 32 - 1))).refcnt = 2 ^ 32 - 1) := by
  unfold onFence OperatesOnFence Operates NoInjection
  repeat' apply And.intro
  all_goals decide +kernel

theorem test_object_release_hypotheses :
    (onFence 1 (object 1 1 2) ∧ 1 < (fenceGet 0 (object 1 1 2)).refcnt) ∧
    (onFence 1 (object 1 1 0) ∧ (fenceGet 0 (object 1 1 0)).refcnt = 0) ∧
    (onFence 1 (object 1 1 1) ∧ (fenceGet 0 (object 1 1 1)).refcnt = 1 ∧
      bit (getReg pgFnc (fenceGet 0 (object 1 1 1)).ownerFunc 0x11C (object 1 1 1)) 0 = false) := by
  unfold onFence OperatesOnFence Operates NoInjection
  repeat' apply And.intro
  all_goals decide +kernel

theorem test_object_signal_hypotheses :
    (onFence 2 (object 1 1 1) ∧ (fenceGet 0 (object 1 1 1)).ownerFunc = 0 ∧ (fenceGet 0 (object 1 1 1)).orphan = false ∧
      (fenceGet 0 (object 1 1 1)).signalled = false) ∧
    (onFence 2 (object 1 3 1) ∧ onFence 3 (object 1 3 1) ∧ (fenceGet 0 (object 1 3 1)).ownerFunc = 0 ∧
      (fenceGet 0 (object 1 3 1)).orphan = false ∧ (fenceGet 0 (object 1 3 1)).signalled = true) := by
  unfold onFence OperatesOnFence Operates NoInjection
  repeat' apply And.intro
  all_goals decide +kernel

theorem test_create_and_release_hypotheses :
    (let s := object 1 0 0
     Operates .pf 0 4#32 4 s ∧ objKind 0 s = 1 ∧ objIndex 0 s = 0 ∧ NoInjection s ∧ bit (getReg pgFnc 0 0x028 s) 16 = false ∧ s.hbc.ecc = [] ∧
      s.hbc.pendInv = [] ∧ tabFind 0 s.fnc.recErr ≠ some true ∧ inWindow 0 0 s = true ∧
      0 < fenceCount s ∧ (slotOf (objSlot 0 s) s).state = 1 ∧ (fenceGet 0 s).valid = false) ∧
    (let s := object 2 0 0
     Operates .pf 0 1#32 1 s ∧ objKind 0 s = 2 ∧ objSlot 0 s = 3 ∧ (slotOf 3 s).driver = true ∧ 1 < (slotOf 3 s).refcnt ∧
      (slotOf 3 s).state = 1) ∧
    (let x : WaitItem := ⟨0, 7, false, 0, true, [0x11, 0, 0x10007, 0, 0, 0, 0, 0], 0⟩
     let s := withQueue { queue 2 with str := { wait := some x } }
       { ctx with fnc := { ctx.fnc with waits := [⟨0, 7, .queue 3 5, some 255, false⟩] } }
     s.fnc.waits = [⟨0, 7, .queue 3 5, some 255, false⟩] ∧ (queueOf 3 5 s).str.wait = some x ∧
      (queueOf 3 5 s).str.frames = [] ∧ isHrel x.cmd = false ∧ (slotOf 3 s).state ≠ 0 ∧ 1 < (slotOf 3 s).refcnt ∧
      isEnd x.cmd = false ∧ bit (cw x.cmd 2) 16 = true ∧ (queueOf 3 5 s).str.batchSkip = none) := by
  unfold Operates NoInjection
  repeat' apply And.intro
  all_goals decide +kernel

theorem test_release_ring_hypotheses :
    (Heard .pf pgFnc 0x11C ctx = true ∧ fncSel ctx = 0 ∧ bit (getReg pgFnc 0 0x11C ctx) 0 = false) ∧
    (let x : Release := ⟨0, 1, 3, 0, 0, 1, 7⟩
     let s := { ctx with fnc := { ctx.fnc with held := [x] } }
     s.fnc.held = [x] ∧ rrRoom 0 s = false ∧
      (let s' := withRegs [(rk pgFnc 0 0x11C, 0x601), (rk pgFnc 0 0x120, 0x900000), (rk pgFnc 0 0x128, 63)] s
       rrRoom 0 s' = true ∧ bit (getReg pgFnc 0 0x11C s') 1 = false ∧ s'.hbc.pendInv = [] ∧ bit (getReg pgFnc 0 0x11C s') 0 = true)) := by
  repeat' apply And.intro
  all_goals decide +kernel

theorem test_function_disable_hypotheses :
    (let s := withJob1 (withQueue (queue 2) ctx)
     tabFind 0 s.fe.disabling = none ∧ funcSlots 0 s = [3] ∧ OnlyJobs 3 s ∧ s.lvn.batches = [] ∧ tabFind 0 s.fe.jobs = some job1 ∧
      (isDmaJob (0, job1) && issuing (0, job1) s) = false) ∧
    (let s := { ctx with fe := { ctx.fe with disabling := [(0, 99), (1, 100)], slots := [(3, { state := 1, func := 1 })] } }
     (tabFind 0 s.fe.disabling).isSome = true ∧ tabFind 0 s.fe.disabling = some 99 ∧ tabFind 1 s.fe.disabling = some 100 ∧
      funcSlots 1 s = [3] ∧ slotJobs 3 s = [] ∧ bit (getReg pgFnc 1 0x11C s) 0 = false) := by
  unfold OnlyJobs SlotQuiet
  repeat' apply And.intro
  all_goals decide +kernel

/-! ## Leaven -/

theorem startsAt_of_begins {c : List Word} {s : State} (h : begins c s = true) :
    StartsAt 3 5 c s (takesAt q5 s) (startedAt c s) := by
  simp only [begins, Bool.and_eq_true, List.all_eq_true, List.mem_range, Bool.not_eq_eq_eq_not, Bool.not_true] at h
  refine ⟨_, starts_of_startable h.1, ?_⟩
  exact (hbmPut_eq_plainPut (by simp [toLE]) h.2).symm

/-- The last session record is the function's window and holds `sw`; graph record 0 holds `gw`; queue 5 has the command `c`. -/
def leaven (c sw gw : List Word) : State :=
  hbmUp (wordsAt (0xA00000 + 128 * 262143) sw ++ wordsAt 0xB00000 gw)
    (withRegs [(rk pgLvn 0 0x108, 0xA00000), (rk pgLvn 0 0x110, 0xB00000), (rk pgLvn 0 0x124, 262143), (rk pgLvn 0 0x128, 1)]
      (posted 9 c 1))

/-- Leaven has looked at the session, or the graph, that a command names: whether its record cannot be read, and the state after it. -/
def sessAt (c : List Word) (s : State) : Bool × State := sessFails (sessIdx c) (startedAt c s)
def graphAt (c : List Word) (s : State) : Bool × State := graphFails (fld (cw c 1) 0 12) (startedAt c s)

/-- The conditions of `StartsOn` and `StartsOnGraph`, to be evaluated. -/
def onSess (c : List Word) (i : Nat) (s : State) : Bool :=
  begins c s && (i == sessIdx c) && inSessWindow (slotOf 3 (startedAt c s)).func i (startedAt c s) && !(sessAt c s).1
def onGraph (c : List Word) (g : Nat) (s : State) : Bool := begins c s && (g == fld (cw c 1) 0 12) && !(graphAt c s).1

theorem startsOn_of_onSess {c : List Word} {i : Nat} {s : State} (h : onSess c i s = true) :
    StartsOn 3 5 c i s (takesAt q5 s) (sessAt c s).2 := by
  simp only [onSess, Bool.and_eq_true, beq_iff_eq, Bool.not_eq_eq_eq_not, Bool.not_true] at h
  obtain ⟨⟨⟨h1, h2⟩, h3⟩, h4⟩ := h
  exact ⟨_, startsAt_of_begins h1, h2, h3, by rw [h2]; exact Prod.ext h4 rfl⟩

theorem graphFails_of_graphAt {c : List Word} {g : Nat} {s : State} (h : g = fld (cw c 1) 0 12) (hf : (graphAt c s).1 = false) :
    graphFails g (startedAt c s) = (false, (graphAt c s).2) := by
  rw [h]
  change (graphFails (fld (cw c 1) 0 12) (startedAt c s)).1 = false at hf
  change _ = (false, (graphFails (fld (cw c 1) 0 12) (startedAt c s)).2)
  generalize graphFails (fld (cw c 1) 0 12) (startedAt c s) = x at hf ⊢
  cases x
  simp only at hf
  rw [hf]

theorem startsOnGraph_of_onGraph {c : List Word} {g : Nat} {s : State} (h : onGraph c g s = true) :
    StartsOnGraph 3 5 c g s (takesAt q5 s) (graphAt c s).2 := by
  simp only [onGraph, Bool.and_eq_true, beq_iff_eq, Bool.not_eq_eq_eq_not, Bool.not_true] at h
  exact ⟨_, startsAt_of_begins h.1.1, h.1.2, graphFails_of_graphAt h.1.2 h.2⟩

/-- The unit of a session record, or of graph record 0, has an uncorrectable error. -/
def unreadable (u : Nat) (s : State) : State := { s with hbc := { s.hbc with ecc := [(u, { ue := true, seen := true })] } }
def sessUnit : Nat := (0xA00000 + 128 * 262143) / 32
def graphUnit : Nat := 0xB00000 / 32

theorem test_session_name_hypotheses :
    (∀ c ∈ [[8, 0, 0, 1, 0, 0, 0, 0], [9, 0, 0, 0, 0, 0, 0, 0], [0x0A, 0, 0, 0, 0, 0, 0, 0], [0x1000A, 0, 0, 1, 0, 0x10000, 0, 0]],
      begins c (leaven c [] []) = true ∧ stepHeld 3 c (takesAt q5 (leaven c [] [])) = false ∧
      closeHeld 3 c (takesAt q5 (leaven c [] [])) = false ∧
      inSessWindow (slotOf 3 (startedAt c (leaven c [] []))).func (sessIdx c) (startedAt c (leaven c [] [])) = false) ∧
    (∀ c ∈ [[8, 0x3FFFF, 0, 1, 0, 0, 0, 0], [9, 0x3FFFF, 0, 0, 0, 0, 0, 0], [0x0A, 0x3FFFF, 0, 0, 0, 0, 0, 0],
        [0x1000A, 0x3FFFF, 0, 1, 0, 0x10000, 0, 0]],
      begins c (unreadable sessUnit (leaven c [] [])) = true ∧ stepHeld 3 c (takesAt q5 (unreadable sessUnit (leaven c [] []))) = false ∧
      closeHeld 3 c (takesAt q5 (unreadable sessUnit (leaven c [] []))) = false ∧
      inSessWindow 0 (sessIdx c) (startedAt c (unreadable sessUnit (leaven c [] []))) = true ∧
      (sessAt c (unreadable sessUnit (leaven c [] []))).1 = true) ∧
    (∀ c ∈ [[9, 0x3FFFF, 5, 0, 0, 0, 0, 0], [0x0A, 0x3FFFF, 5, 0, 0, 0, 0, 0], [0x1000A, 0x3FFFF, 5, 1, 0, 0x10000, 0, 0]],
      onSess c 0x3FFFF (leaven c [0x301] []) = true ∧ stepHeld 3 c (takesAt q5 (leaven c [0x301] [])) = false ∧
      closeHeld 3 c (takesAt q5 (leaven c [0x301] [])) = false ∧ sessNamed 3 c (sessAt c (leaven c [0x301] [])).2 = false) := by
  repeat' first | apply And.intro | refine List.forall_mem_cons.mpr ⟨?_, ?_⟩ | exact List.forall_mem_nil _
  all_goals decide +kernel

/-- A template at 0x1FFC0: with `h`, a KV cache in that handle's object. -/
def template (h : Word) (c : List Word) : State := hbmUp (wordsAt 0x21FFC0 [0, 0, 0, 0, h, 0, 0, 64]) (leaven c [] [])

theorem test_session_open_hypotheses :
    (let c : List Word := [8, 0x3FFFF, 0, 1, 0, 0, 0, 0]
     let s := leaven c [1] []
     onSess c 0x3FFFF s = true ∧ opOf c = 8 ∧ inSessWindow (slotOf 3 (sessAt c s).2).func 0x3FFFF (sessAt c s).2 = true ∧
      sessState 0x3FFFF (sessAt c s).2 ≠ 0) ∧
    (let c : List Word := [8, 0x3FFFF, 0, 1, 0xFFC0, 0, 0, 0]
     let w := fun h => (sessAt c (template h c)).2
     let r := fun h => checkRange (jobRefOf o5 0 (w h)) (cw c 3) (cw c 4).toNat 64 (w h)
     let d := fun h => ((vaReadAll rqLvn 3 0x1FFC0 64 .rd (r h).2).1.toOption.map (rowWords 4 16)).getD []
     onSess c 0x3FFFF (template 0 c) = true ∧ sessState 0x3FFFF (w 0) = 0 ∧ tabFind 0x3FFFF (w 0).lvn.onDie = none ∧
      (r 0).1.toOption = some 0x1FFC0 ∧ (d 0).length = 16 ∧ dWord (d 0) 6 ≤ dWord (d 0) 7 ∧ nth 0 (d 0) 4 = 0 ∧
      (slotOf 3 (vaReadAll rqLvn 3 0x1FFC0 64 .rd (r 0).2).2).func < 64 ∧
      onSess c 0x3FFFF (template 1 c) = true ∧ sessState 0x3FFFF (w 1) = 0 ∧ tabFind 0x3FFFF (w 1).lvn.onDie = none ∧
      (r 1).1.toOption = some 0x1FFC0 ∧ (d 1).length = 16 ∧ dWord (d 1) 6 ≤ dWord (d 1) 7 ∧ nth 0 (d 1) 4 ≠ 0 ∧
      (kvRegion (jobRefOf o5 0 (w 1)) (nth 0 (d 1) 4) (dWord (d 1) 5) (dWord (d 1) 7)
        (vaReadAll rqLvn 3 0x1FFC0 64 .rd (r 1).2).2).1.toOption = some 0x10000) := by
  repeat' apply And.intro
  all_goals decide +kernel

/-- A reference that job 0 of slot 3 takes on handle 1 succeeds, whose entry's count is 1. -/
def takesRef (r : JobRef) (s : State) : Bool :=
  r.slot == 3 && ((handleGet 3 1 s).1.toOption == some ⟨true, 0, 1, 0x10000, 0x10000⟩) &&
  ((translate rqFnc 3 0x6014 .wr (handleGet 3 1 s).2).1.toOption == some (.hbm 0x206014)) &&
  !(decide (2 ^ (slotOf 3 s).htblLog2 ≤ 1)) && (handleVa 3 1 (handleGet 3 1 s).2 == 0x6010)

theorem acquires_of_takesRef {r : JobRef} {s : State} (h : takesRef r s = true) : ∃ t, acquireRef r 1 s = (.ok (), t) := by
  simp only [takesRef, Bool.and_eq_true, beq_iff_eq, Bool.not_eq_eq_eq_not, Bool.not_true, decide_eq_false_iff_not] at h
  obtain ⟨⟨⟨⟨hs, hg⟩, ht⟩, hl⟩, hv⟩ := h
  refine ⟨_, acquireRef_of_entry (e := ⟨true, 0, 1, 0x10000, 0x10000⟩) (a := 0x206014) (s1 := (handleGet 3 1 s).2)
    (s2 := (translate rqFnc 3 0x6014 .wr (handleGet 3 1 s).2).2) (by decide) ?_ ?_ (by decide) (by decide) ?_⟩
  · rw [hs, show fld (1 : Word) 0 16 = 1 by decide]; omega
  · rw [hs]; exact pair_of_ok hg
  · rw [hs, show fld (1 : Word) 0 16 = 1 by decide, hv]; exact pair_of_ok ht

theorem test_session_open_reference :
    let c : List Word := [8, 0x3FFFF, 0, 1, 0xFFC0, 0, 0, 0]
    let w := (sessAt c (template 1 c)).2
    let r := checkRange (jobRefOf o5 0 w) 1 0xFFC0 64 w
    ∃ t, acquireRef (jobRefOf o5 0 w) 1
      (kvRegion (jobRefOf o5 0 w) 1 0 64 (vaReadAll rqLvn 3 0x1FFC0 64 .rd r.2).2).2 = (.ok (), t) :=
  acquires_of_takesRef (by decide +kernel)

theorem test_session_step_hypotheses :
    let c : List Word := [9, 0x3FFFF, 0, 0, 0, 1, 0, 0]
    let i := 0x3FFFF
    (let s := leaven c [0x304] []
     begins c s = true ∧ opOf c = 9 ∧ sessIdx c = i ∧ stepHeld 3 c (takesAt q5 s) = true) ∧
    (let s := leaven c [0x306] []
     onSess c i s = true ∧ stepHeld 3 c (takesAt q5 s) = false ∧ sessNamed 3 c (sessAt c s).2 = true ∧
      sessState i (sessAt c s).2 = 6) ∧
    (let s := unreadable graphUnit (leaven c [0x301] [0x301])
     onSess c i s = true ∧ stepHeld 3 c (takesAt q5 s) = false ∧ sessNamed 3 c (sessAt c s).2 = true ∧
      sessState i (sessAt c s).2 = 1 ∧ (graphFails (sessGraph i (sessAt c s).2) (sessAt c s).2).1 = true) ∧
    (let s := leaven c [0x301] [0x301]
     let w1 := graphFails (sessGraph i (sessAt c s).2) (sessAt c s).2
     onSess c i s = true ∧ stepHeld 3 c (takesAt q5 s) = false ∧ sessNamed 3 c (sessAt c s).2 = true ∧ w1.1 = false ∧
      graphCur (sessGraph i w1.2) w1.2 = none) ∧
    (let s := leaven c [0x302, 0xFE0000] [0x301, 0x80000]
     let w1 := graphFails (sessGraph i (sessAt c s).2) (sessAt c s).2
     onSess c i s = true ∧ stepHeld 3 c (takesAt q5 s) = false ∧ sessNamed 3 c (sessAt c s).2 = true ∧
      sessState i (sessAt c s).2 = 2 ∧ w1.1 = false ∧ graphCur (sessGraph i w1.2) w1.2 = some 0 ∧
      tabFind i (sessAt c s).2.lvn.onDie = none) ∧
    (let s := leaven c [0x305] [0x301, 0x80000]
     let w := (sessAt c s).2
     let w1 := graphFails (sessGraph i w) w
     let r := jobRefOf o5 0 w1.2
     onSess c i s = true ∧ stepHeld 3 c (takesAt q5 s) = false ∧ sessNamed 3 c w = true ∧ sessState i w = 5 ∧ w1.1 = false ∧
      graphCur (sessGraph i w1.2) w1.2 = some 0 ∧ tabFind i w.lvn.onDie = none ∧
      (sessW i 0x18 w1.2).toNat ≤ (sessW i 0x1C w1.2).toNat ∧
      (kvRegion r (cw c 5) (cw c 6).toNat (sessW i 0x1C w1.2).toNat w1.2).1.toOption = some 0x10000 ∧
      takesRef r (kvRegion r (cw c 5) (cw c 6).toNat (sessW i 0x1C w1.2).toNat w1.2).2 = true ∧
      (czAvail (parkEngine w) false w).isSome = true ∧ w.cz.waiting = []) := by
  repeat' apply And.intro
  all_goals decide +kernel

theorem test_session_close_hypotheses :
    let c : List Word := [0x0A, 0x3FFFF, 0, 0, 0, 0, 0, 0]
    let d : List Word := [0x1000A, 0x3FFFF, 0, 1, 0, 0x10000, 0, 0]
    let i := 0x3FFFF
    (let s := leaven c [0x300] []
     onSess c i s = true ∧ opOf c = 0x0A ∧ argsOf c % 2 = 0 ∧ closeHeld 3 c (takesAt q5 s) = false ∧
      sessNamed 3 c (sessAt c s).2 = true ∧ sessState i (sessAt c s).2 = 0) ∧
    (let s := leaven c [0x301] []
     onSess c i s = true ∧ closeHeld 3 c (takesAt q5 s) = false ∧ sessNamed 3 c (sessAt c s).2 = true ∧
      sessState i (sessAt c s).2 = 1 ∧ sessW i 0x10 (sessAt c s).2 = 0 ∧ sessW i 0x20 (sessAt c s).2 = 0 ∧
      tabFind i (sessAt c s).2.lvn.onDie = none) ∧
    (let s := leaven d [0x305] []
     onSess d i s = true ∧ opOf d = 0x0A ∧ argsOf d % 2 = 1 ∧ closeHeld 3 d (takesAt q5 s) = false ∧
      sessNamed 3 d (sessAt d s).2 = true ∧ sessState i (sessAt d s).2 = 5) ∧
    (let s := leaven d [0x301, 0, 0, 0, 0, 0, 0x10000] []
     onSess d i s = true ∧ closeHeld 3 d (takesAt q5 s) = false ∧ sessNamed 3 d (sessAt d s).2 = true ∧
      sessState i (sessAt d s).2 = 1 ∧ (cw d 5).toNat < 0x10000 + (0x10000 + 63) / 64 + 64 ∧
      (sessW i 0x18 (sessAt d s).2).toNat = 0x10000) ∧
    (∀ n ∈ [0, 64], let s := leaven d [0x301, 0, 0, 0, 1, 0, n] []
      let w := (sessAt d s).2
      let r := jobRefOf o5 0 w
      let a := checkRange r (cw d 3) (cw d 4).toNat (cw d 5).toNat w
      onSess d i s = true ∧ closeHeld 3 d (takesAt q5 s) = false ∧ sessNamed 3 d w = true ∧ sessState i w = 1 ∧
        (sessW i 0x18 w).toNat = n.toNat ∧ n.toNat + (n.toNat + 63) / 64 + 64 ≤ (cw d 5).toNat ∧ w.hbc.pendInv = [] ∧
        tabFind i w.lvn.onDie = none ∧ a.1.toOption = some 0x10000 ∧ takesRef r a.2 = true ∧
        (checkRange r (sessW i 0x10 a.2) (sessW i 0x14 a.2).toNat 64 a.2).1.toOption = some 0x10000 ∧
        takesRef r (checkRange r (sessW i 0x10 a.2) (sessW i 0x14 a.2).toNat 64 a.2).2 = true ∧
        (czAvail (parkEngine w) false w).isSome = true ∧ w.cz.waiting = []) := by
  repeat' first | apply And.intro | refine List.forall_mem_cons.mpr ⟨?_, ?_⟩ | exact List.forall_mem_nil _
  all_goals decide +kernel

/-- A park of the session in context 7 for job 0, its spill in handle 1; with `kv`, of 64 bytes in handle 0, which names nothing. -/
def parking (kv : Word) : State :=
  let i := 0x3FFFF
  let s0 := withJob1 (leaven [] [0x304, 0, 0, 0, 0, 0, kv, 0, 1, 0, 0, 0x1000] [])
  { s0 with cz := { s0.cz with ctx := [(7, .park i)] }, lvn := { s0.lvn with parks := [(i, 0)] } }
def parkLeft (kv : Word) : State :=
  czLeave (.park 0x3FFFF) { parking kv with lvn := { (parking kv).lvn with parks := tabDel 0x3FFFF (parking kv).lvn.parks } }

theorem test_park_hypotheses :
    let i := 0x3FFFF
    (∀ kv ∈ [0, 64], czCtxOf (.park i) (parking kv) = some 7 ∧ sessState i (parking kv) = 4 ∧
      tabFind i (parking kv).lvn.onDie = none ∧ tabFind i (parking kv).lvn.parks = some 0 ∧
      tabFind 0 (parking kv).fe.jobs = some job1 ∧ job1.fin = none ∧
      (parkRead (lvnRef 3 0 (parkLeft kv)) 1 3 i (parkLeft kv)).1.toOption = (if kv = 0 then some [] else none)) := by
  repeat' first | apply And.intro | refine List.forall_mem_cons.mpr ⟨?_, ?_⟩ | exact List.forall_mem_nil _
  all_goals decide +kernel

/-- The stream of no bytes has 56 bytes, whatever its element size and its tables. -/
def emptyStream (e : Nat) (dyn : Bool) : List Byte :=
  (czCompress { tensor := true, esz := e, pred := 5, nc0 := 0, nc1 := 0, rb0 := 0, rb1 := 0, rows0 := 0, rows1 := 0, cs := 0 } [] []
    0 dyn true true 0xFFFFFFFF#32).1

theorem emptyStream_length : ∀ e < 3, ∀ d, (emptyStream e d).length = 56 := by decide +kernel

theorem noInjection_plainPut {a : Nat} {bs : List Byte} {s : State} (h : NoInjection (beforePut a bs.length s)) :
    NoInjection (plainPut a bs s) := h
theorem plainPut_lvn (a : Nat) (bs : List Byte) (s : State) : (plainPut a bs s).lvn = (beforePut a bs.length s).lvn := rfl
theorem plainPut_pendInv (a : Nat) (bs : List Byte) (s : State) :
    (plainPut a bs s).hbc.pendInv = (beforePut a bs.length s).hbc.pendInv := rfl

theorem lvnWrite_of_translate {r : JobRef} {z slot off va a : Nat} {h : Word} {out : List Byte} {s s1 s2 : State}
    (hc : checkRange r h off out.length s = (.ok va, s1)) (hp : pagePieces va out.length = [(va, out.length)])
    (ht : translate (rqCz z) slot va .wr s1 = (.ok (.hbm a), s2)) :
    lvnWrite r z slot h off out s = (.ok (), hbmPut a out s2) := by
  simp only [lvnWrite, hc, vaWriteAll, hp, List.foldl_cons, List.foldl_nil, Nat.sub_self, List.drop_zero, List.take_length, vaWrite, ht]

/-- The park of a session without a KV cache writes its stream of 56 bytes into the spill. -/
theorem test_park_write :
    let i := 0x3FFFF
    let s1 := parkLeft 0
    let s2 : State := { s1 with free := s1.free + 1 }
    ∃ out raw s3, parkStream [] s1 = ((out, raw), s2) ∧
      lvnWrite (lvnRef 3 0 s1) 1 3 (sessW i 0x20 s2) (sessW i 0x24 s2).toNat out s2 = (.ok (), s3) ∧
      tabFind i s3.lvn.onDie = none ∧ s3.hbc.pendInv = [] := by
  intro i s1 s2
  have hl : (parkStream [] s1).1.1.length = 56 := by
    show (emptyStream (if 0 % 2 ^ (Config.freeNat s1.free % 3) = 0 then Config.freeNat s1.free % 3 else 0) _).length = 56
    exact emptyStream_length _ (by split <;> omega) _
  have hc : (checkRange (lvnRef 3 0 s1) (sessW i 0x20 s2) (sessW i 0x24 s2).toNat 56 s2).1.toOption = some 0x10000 := by decide +kernel
  have ht : (translate (rqCz 1) 3 0x10000 .wr
      (checkRange (lvnRef 3 0 s1) (sessW i 0x20 s2) (sessW i 0x24 s2).toNat 56 s2).2).1.toOption = some (.hbm 0x210000) := by decide +kernel
  generalize hw : (translate (rqCz 1) 3 0x10000 .wr
      (checkRange (lvnRef 3 0 s1) (sessW i 0x20 s2) (sessW i 0x24 s2).toNat 56 s2).2) = w at ht
  have hn : NoInjection (beforePut 0x210000 56 w.2) := by rw [← hw]; unfold NoInjection; decide +kernel
  have hd : tabFind i (beforePut 0x210000 56 w.2).lvn.onDie = none := by rw [← hw]; decide +kernel
  have hp : (beforePut 0x210000 56 w.2).hbc.pendInv = [] := by rw [← hw]; decide +kernel
  refine ⟨(parkStream [] s1).1.1, (parkStream [] s1).1.2, plainPut 0x210000 (parkStream [] s1).1.1 w.2, rfl, ?_, ?_, ?_⟩
  · rw [lvnWrite_of_translate (va := 0x10000) (by rw [hl]; exact pair_of_ok hc) (by rw [hl]; decide) (hw.trans (pair_of_ok ht)),
      hbmPut_eq_plainPut (fun h => absurd (h ▸ hl) (by decide)) (noInjection_plainPut (by rw [hl]; exact hn))]
  · rw [plainPut_lvn, hl]; exact hd
  · rw [plainPut_pendInv, hl]; exact hp

theorem test_restore_hypotheses :
    let i := 0x3FFFF
    let bs := emptyStream 0 false
    let ws : Word → List Word := fun h => [0x306, 0x10000, 0, 0, 0, 0, 0, 0, h, 0, w32 bs.length] ++ List.replicate 21 0
    ∀ h ∈ [0, 1], let s0 := withDesc0 (rowWords 4 (bs.length / 4) bs) (leaven [] [] [])
      let s : State := { s0 with
        cz := { s0.cz with ctx := [(7, .restore i)] }, lvn := { s0.lvn with onDie := [(i, ws h)], restores := [(i, (3, 1, 0))] } }
      let t := czLeave (.restore i) { s with lvn := { s.lvn with restores := tabDel i s.lvn.restores } }
      czCtxOf (.restore i) s = some 7 ∧ sessState i s = 6 ∧ tabFind i s.lvn.onDie = some (ws h) ∧ (ws h).length = 32 ∧
        tabFind i s.lvn.restores = some (3, 1, 0) ∧ 0 < sessPend i s ∧ sessSteps i t = [] ∧
        (restoreData (lvnRef 3 s.fe.nextJob t) 1 3 i 1 0 t).1.toOption = (if h = 0 then none else some (bs.length, 0)) := by
  repeat' first | apply And.intro | refine List.forall_mem_cons.mpr ⟨?_, ?_⟩ | exact List.forall_mem_nil _
  all_goals decide +kernel

theorem test_graph_hypotheses :
    let c : List Word := [0x0B, 0, 1, 0xFFE0, 1, 0, 0, 0]
    let d : List Word := [0x1000B, 0, 0, 0, 1, 0, 0, 0]
    (let s := leaven c [] ([0x301, 0x80000] ++ List.replicate 14 0 ++ (List.replicate 8 [0x10000, 2, 0, 0, 0, 0]).flatten)
     begins c s = true ∧ commitHeld 3 c (takesAt q5 s) = true) ∧
    (let s := leaven c [] []
     onGraph c 0 s = true ∧ opOf c = 0x0B ∧ argsOf c % 2 = 0 ∧ commitHeld 3 c (takesAt q5 s) = false ∧
      graphOwned 0 3 (graphAt c s).2 = false) ∧
    (∀ g ∈ [[0x301], [0x301, 0x80000] ++ List.replicate 14 0 ++ [0x10000, 2]], let s := leaven c [] g
     let w := (graphAt c s).2
     let w1 := checkRange (jobRefOf o5 0 w) 1 0xFFE0 32 w
     onGraph c 0 s = true ∧ commitHeld 3 c (takesAt q5 s) = false ∧ graphOwned 0 3 w = true ∧
      verFree 0 w = some (if g.length = 1 then 0 else 1) ∧ w1.1.toOption = some 0x1FFE0 ∧ cw c 5 = 0) ∧
    (let s := leaven d [] []
     onGraph d 0 s = true ∧ argsOf d % 2 = 1 ∧ graphOwned 0 3 (graphAt d s).2 = false) ∧
    (let s := leaven d [] [0x301]
     onGraph d 0 s = true ∧ graphOwned 0 3 (graphAt d s).2 = true ∧ graphCur 0 (graphAt d s).2 = none) ∧
    (let s := leaven d [] ([0x301, 0x80000] ++ List.replicate 14 0 ++ [0x10000, 2])
     onGraph d 0 s = true ∧ graphOwned 0 3 (graphAt d s).2 = true ∧ graphCur 0 (graphAt d s).2 = some 0 ∧
      1 < (graphW 0 (verOff 0 + 4) (graphAt d s).2).toNat ∧ (graphAt d s).2.hbc.pendInv = []) := by
  repeat' first | apply And.intro | refine List.forall_mem_cons.mpr ⟨?_, ?_⟩ | exact List.forall_mem_nil _
  all_goals decide +kernel

/-- The reference that a commit takes on its handle: the handle's count at 0x206014 is 2 afterwards; with `g`, version 0 is current with
two holds. -/
def commitRef (g : List Word) : Prop :=
  let c : List Word := [0x0B, 0, 1, 0xFFE0, 1, 0, 0, 0]
  let w := (graphAt c (leaven c [] g)).2
  let r := jobRefOf o5 0 w
  let w1 := (checkRange r 1 0xFFE0 32 w).2
  let t := plainPut 0x206014 (toLE 4 2) (translate rqFnc 3 0x6014 .wr (handleGet 3 1 w1).2).2
  acquireRef r 1 w1 = (.ok (), t) ∧ t.hbc.pendInv = [] ∧
    graphCur 0 t = (if g.length = 1 then none else some 0) ∧ (g.length ≠ 1 → 1 < (graphW 0 (verOff 0 + 4) t).toNat)

theorem acquireRef_eq {r : JobRef} {s : State} (h : takesRef r s = true)
    (hn : NoInjection (plainPut 0x206014 (toLE 4 2) (translate rqFnc 3 0x6014 .wr (handleGet 3 1 s).2).2)) :
    acquireRef r 1 s = (.ok (), plainPut 0x206014 (toLE 4 2) (translate rqFnc 3 0x6014 .wr (handleGet 3 1 s).2).2) := by
  simp only [takesRef, Bool.and_eq_true, beq_iff_eq, Bool.not_eq_eq_eq_not, Bool.not_true, decide_eq_false_iff_not] at h
  obtain ⟨⟨⟨⟨hs, hg⟩, ht⟩, hl⟩, hv⟩ := h
  rw [← hbmPut_eq_plainPut (by simp [toLE]) hn]
  refine acquireRef_of_entry (e := ⟨true, 0, 1, 0x10000, 0x10000⟩) (a := 0x206014) (s1 := (handleGet 3 1 s).2) (by decide) ?_ ?_
    (by decide) (by decide) ?_
  · rw [hs, show fld (1 : Word) 0 16 = 1 by decide]; omega
  · rw [hs]; exact pair_of_ok hg
  · rw [hs, show fld (1 : Word) 0 16 = 1 by decide, hv]; exact pair_of_ok ht

theorem test_graph_commit_reference :
    commitRef [0x301] ∧ commitRef ([0x301, 0x80000] ++ List.replicate 14 0 ++ [0x10000, 2]) := by
  refine ⟨⟨acquireRef_eq ?_ ?_, ?_, ?_, ?_⟩, acquireRef_eq ?_ ?_, ?_, ?_, ?_⟩
  all_goals first | decide +kernel | (unfold NoInjection; decide +kernel)

/-- A step of the session with a deadline that the counter has reached, and batch 3 with its step. -/
def step0 : SStep :=
  { session := 0x3FFFF, job := 0, graph := 0, ver := 0, vi := 0, start := 0, user := 0, deadline := 5, crit := true }
def over0 : Batch := { batch0 0 with entries := [step0], str := {}, timer := 1 }
def stepping (steps : List SStep) (bs : Tab Batch) (die : Tab (List Word)) (sw : List Word) : State :=
  let s := withJob1 (withRegs [(rk pgLvn 0 0x100, 1)] (leaven [] sw [0x301, 0x80000]))
  { s with lvn := { s.lvn with steps := steps, batches := bs, onDie := die, us := 5 } }

/-- The part is in DOZE with cluster 0 gated. -/
def gatedDoze (s : State) : State := withRegs [(rk pgRst 0 0x104, 1), (rk (pgCl 0) 0 0x00C, 0)] s

theorem test_batch_hypotheses :
    (let s := stepping [] [] [] []
     dark pgLvn s = false ∧ bit (getReg pgLvn 0 0x100 s) 0 = true ∧ headStep s = none) ∧
    (let s := stepping [step0] [] [] [0x302]
     dark pgLvn s = false ∧ bit (getReg pgLvn 0 0x100 s) 0 = true ∧ freeBatch s = some 0 ∧ headStep s = some step0 ∧
      dozeHold (graphCores step0.graph s) s = false ∧
      (let t := gatedDoze s
       freeBatch t = some 0 ∧ headStep t = some step0 ∧ dozeHold (graphCores step0.graph t) t = true)) ∧
    (let x := batch0 0x1000
     let s := stepping [] [(3, { x with entries := [step0] })] [] []
     batchOf 3 s = some { x with entries := [step0] } ∧ batchOver 3 { x with entries := [step0] } s = false ∧
      x.timer < max 1 (getReg pgLvn 0 0x11C s).toNat ∧ x.str.wait = none ∧ x.fail = none ∧
      (let s' := withRegs [(rk pgLvn 0 0x11C, 0)] s
       max 1 (getReg pgLvn 0 0x11C s').toNat ≤ ({ x with timer := 1 } : Batch).timer)) ∧
    (let ws : List Word := 0x303 :: 0x20000 :: List.replicate 30 0
     let s := stepping [] [(3, over0)] [(0x3FFFF, ws)] []
     batchOf 3 s = some over0 ∧ batchOver 3 over0 s = true ∧ over0.entries = [step0] ∧
      tabFind step0.session s.lvn.onDie = some ws ∧ ws.length = 32 ∧ sessState step0.session s = 3 ∧
      1 < sessPend step0.session s ∧ s.fe.slots.all (fun e => e.2.refcnt != 1)) := by
  repeat' apply And.intro
  all_goals decide +kernel

theorem test_deadline_hypotheses :
    let i := 0x3FFFF
    (let s := stepping [step0] [] [] []
     tabFind i s.lvn.onDie = none ∧ tabFind step0.job s.fe.jobs = some job1 ∧ job1.owner = .queue 3 5 ∧
      s.lvn.batches.find? (fun b => b.2.entries.any (dueStep i s)) = none ∧ s.lvn.steps.find? (dueStep i s) = some step0) ∧
    (let s := stepping [] [(3, over0)] [] []
     s.lvn.batches.find? (fun b => b.2.entries.any (dueStep i s)) = some (3, over0) ∧
      over0.entries.find? (dueStep i s) = some step0) ∧
    (let s := { stepping [step0] [(3, over0)] [] [] with lvn := { (stepping [step0] [(3, over0)] [] []).lvn with us := 4 } }
     (∀ b ∈ s.lvn.batches, b.2.entries.any (dueStep i s) = false) ∧ s.lvn.steps.find? (dueStep i s) = none) := by
  repeat' apply And.intro
  all_goals decide +kernel

/-! ## Render passes and the composer -/

/-- Pass 0 of slot `k` with one tile, headers at 0x10000 and its pool at 0x20000; its one draw has the record of `f`, with `n`
indices that are their own values and positions at 0x30000. -/
def pass1 (k n : Nat) (f : Word) : Pass :=
  { slot := k, desc := putAt 0 0x200020 (putAt 2 0x10000 (putAt 4 0x20000 (putAt 8 1 (List.replicate 128 0)))), mask := 0xFFFF,
    recs := [(0, putAt 2 (w32 n) (putAt 3 (f + 2) (putAt 4 0x30000 (List.replicate 32 0))))], begun := true }
def passing (x : Pass) : State :=
  let s := withCore0 ctx
  { s with fe := { s.fe with jobs := [(0, job0)], nextJob := 1 }, tlr := { s.tlr with passes := [(0, x)] } }

/-- What `PassRuns` asks of job 0. -/
def passOk (x : Pass) : Bool :=
  (runPass (passing x) == some (0, x)) && (passOf 0 (passing x) == some x) && (tabFind 0 (passing x).fe.jobs == some job0) &&
  (job0.fin == none)

theorem test_bin_hypotheses :
    (let x := pass1 3 12582915 0
     passOk x = true ∧ x.phase = 1 ∧ x.stalled = false ∧ x.begun = true ∧ x.tri = none ∧ primsOver (drawRec x x.bin) = true) ∧
    (let x := pass1 3 0 0
     passOk x = true ∧ primsOver (drawRec x x.bin) = false ∧ dWord (drawRec x x.bin) 2 ≤ x.pos) ∧
    (let x := { pass1 3 3 0 with pos := 2, hist := [0, 1] }
     let s := hbmUp [(0x230000, 4, 0x7F800000)] (passing x)
     let y := { x with pos := 3, hist := [] }
     let r0 := tRead 0 0x30000 16 (setPass 0 y s)
     let r1 := tRead 0 0x30010 16 r0.2
     passOk x = true ∧ primsOver (drawRec x x.bin) = false ∧ dWord (drawRec x x.bin) 2 = x.pos + 1 ∧ x.hist = [0, 1] ∧
      dIdxFmt (drawRec x x.bin) = 2 ∧ dStrip (drawRec x x.bin) = false ∧ x.prim < 4194304 ∧
      dLong (drawRec x x.bin) 4 % 2 ^ 48 = 0x30000 ∧
      r0.1 = some (0 :: 0 :: 0x80 :: 0x7F :: List.replicate 12 0) ∧ r1.1 = some (List.replicate 16 0) ∧
      (tRead 0 0x30020 16 r1.2).1 = some (List.replicate 16 0) ∧
      notFinite (nth 0 (rowWords 4 4 (0 :: 0 :: 0x80 :: 0x7F :: List.replicate 12 0)) 0) = true) ∧
    runPass ctx = none := by decide +kernel

theorem test_stall_hypotheses :
    (let x := { pass1 3 3 0 with stalled := true }
     let s := passing x
     passOk x = true ∧ s.hbc.pendInv = [] ∧ x.phase = 1 ∧ x.grace < passGrace x ∧ (tNat 0 (pVa x 4 + 0x1C) 4 s).1 = some 0 ∧
      (tNat 0 (pVa x 4 + 0x20) 4 (tNat 0 (pVa x 4 + 0x1C) 4 s).2).1 = some 0) ∧
    (let x := { pass1 3 3 0 with stalled := true, grace := 1 }
     passOk x = true ∧ passGrace x = x.grace ∧ x.chunks = []) ∧
    (let x := { pass1 3 3 0 with stalled := true, grace := 1, chunks := [0x40000] }
     let s := hbmUp [(0x210000, 8, 1 + 2 ^ 40)] (passing x)
     passOk x = true ∧ x.fresh = true ∧ (listedTiles 0 x (List.range (passTx x * passTy x)) s).1 = some [0]) := by decide +kernel

/-- The pass in its tile phase on core 0, with an attachment that is not loaded, or none. -/
def pass2 (att : Bool) (todo : List Nat) : Pass :=
  let x := pass1 3 0 0
  { x with phase := 2, todo := todo, cores := [0], desc := if att then putAt 1 0x10 (putAt 37 1 x.desc) else x.desc }

theorem test_tile_hypotheses :
    (let x := pass2 true [0]
     let s := hbmUp [(0x210008, 8, 2 ^ 46 + 5 * 2 ^ 40)] (passing x)
     let lo := tNat 0 (hdrVa x 0) 8 s
     physOf 0 s = 0 ∧ dark pgTlr s = false ∧ devState s < 2 ∧ tileHolder 0 0 s = none ∧ passOk x = true ∧ coreEnabled 0 s = true ∧
      reserved 0 s = true ∧ ((coreOf 0 s).tiles.filter (fun w => w.job == 0)).length < tileRoom x ∧ dozeHold [0] s = false ∧
      lo.1 = some 0 ∧ (tNat 0 (hdrVa x 0 + 8) 8 lo.2).1 = some (2 ^ 46 + 5 * 2 ^ 40) ∧ tileSkips x (0 / 2 ^ 40) = false ∧
      (2 ^ 46 + 5 * 2 ^ 40) / 2 ^ 46 % 2 = 1 ∧
      (2 ^ 46 + 5 * 2 ^ 40) / 2 ^ 40 % 64 ≠ lcore 0 (tNat 0 (hdrVa x 0 + 8) 8 lo.2).2) ∧
    (let x := pass2 true [0]
     (tNat 0 (hdrVa x 0) 8 (passing x)).1 = some 0 ∧
      (tNat 0 (hdrVa x 0 + 8) 8 (tNat 0 (hdrVa x 0) 8 (passing x)).2).1 = some 0) ∧
    (let x := pass2 false [0, 1]
     let s := passing x
     passOk x = true ∧ tileHolder 0 0 s = none ∧ reserved 0 s = true ∧
      ((coreOf 0 s).tiles.filter (fun w => w.job == 0)).length < tileRoom x ∧ (tNat 0 (hdrVa x 0) 8 s).1 = some 0 ∧
      tileSkips x (0 / 2 ^ 40) = true ∧ s.hbc.pendInv = []) ∧
    (let s := gatedDoze (passing (pass2 true [0]))
     physOf 0 s = 0 ∧ dark pgTlr s = false ∧ devState s = 1 ∧ tileHolder 0 0 s = none ∧ runPass s = some (0, pass2 true [0]) ∧
      coreEnabled 0 s = true ∧ reserved 0 s = true ∧
      ((coreOf 0 s).tiles.filter (fun w => w.job == 0)).length < tileRoom (pass2 true [0]) ∧ dozeHold [0] s = true) ∧
    80 ≤ physOf 0 (upWith [(rk pgCap 0 0x140, 80)]) := by decide +kernel

/-- A preempted pass of slot 5 with a tile in flight on core 0, saved or not. -/
def preempted (waited : Nat) (saved : Bool) : State :=
  let x := { pass1 5 0 0 with phase := 2, preempted := true, waited := waited, cores := [0] }
  let s := setCore 0 { tiles := if saved then [] else [tile0] } (passing x)
  { s with tlr := { s.tlr with midtile := if saved then [⟨0, 0, [tile0], [], []⟩] else [] } }

theorem test_preemption_hypotheses :
    (let s := withRegs [(rk pgTlr 0 0x104, 0x80000003#32)] (withQueue { queue 2 with engine := 1, rptr := 0 } (passing (pass1 5 0 0)))
     cpriSlot s = some 3 ∧ (queueOf 3 5 s).engine < 2 ∧ dark pgTlr s = false ∧ fetching (.queue 3 5) s = true ∧
      (fetchPos (.queue 3 5) s).isSome = true ∧ (∀ e ∈ s.cpt.kernels, e.2.slot = 3 ∨ jobEnded e.1 s = true) ∧
      s.tlr.passes = [(0, pass1 5 0 0)] ∧ jobEnded 0 s = false ∧ (pass1 5 0 0).mask &&& queueMask 3 5 s ≠ 0) ∧
    cpriSlot ctx ≠ some 3 := by decide +kernel

theorem test_grace_hypotheses :
    (let s := preempted 0 false
     (s.tlr.passes.find? (fun e => e.2.preempted && !(jobEnded e.1 s) && (coreOf 0 s).tiles.any (fun w => w.job == e.1))).map
        (fun e => (e.1, e.2.waited)) = some (0, 0) ∧ 0 < preemptGrace s) ∧
    (let s := preempted 255 false
     preemptGrace s ≤ 255 ∧ (pixGroups 0 0 s).any (fun g => groupReads 0 g.1 s) = false) ∧
    (let s := preempted 255 true
     (s.tlr.passes.find? (fun e => e.2.preempted && !(jobEnded e.1 s))).map (·.1) = some 0 ∧ (passOf 0 s).isSome = true ∧
      dark pgTlr s = false ∧ cpriWork 0xFFFF s = false ∧
      (∀ m ∈ s.tlr.midtile, m.job = 0 → (coreOf m.core s).groups.length + m.groups.length ≤ 64) ∧
      dozeHold ((s.tlr.midtile.filter (fun m => m.job == 0)).map (·.core)) s = false) ∧
    (let s := gatedDoze (preempted 255 true)
     (s.tlr.passes.find? (fun e => e.2.preempted && !(jobEnded e.1 s))).map (·.1) = some 0 ∧ dark pgTlr s = false ∧
      cpriWork 0xFFFF s = false ∧ (∀ m ∈ s.tlr.midtile, m.job = 0 → (coreOf m.core s).groups.length + m.groups.length ≤ 64) ∧
      dozeHold ((s.tlr.midtile.filter (fun m => m.job == 0)).map (·.core)) s = true) := by decide +kernel

/-- Channel 15 is selected, with one pixel; enabled for slot 3 with control bits `v`, and with status bits `st`. -/
def channel (v st : Word) (x : CChan) : State :=
  let s := withRegs [(rk pgCmp 0 0x104, 15), (rk pgCmp 15 0x118, 0x110001), (rk pgCmp 15 0x11C, 0x20001),
    (rk pgCmp 15 0x120, 1), (rk pgCmp 15 0x108, v), (rk pgCmp 15 0x10C, st)] ctx
  { s with cmp := [(15, x)], fe := { s.fe with jobs := [(0, job0)], nextJob := 1 } }

theorem test_channel_control_hypotheses :
    (let s := channel 0 0 {}
     Heard .pf pgCmp 0x108 s = true ∧ cmpSel s = 15 ∧ chEnabled 15 s = false ∧ enableError 15 (ctlFields 15 0x301#32 s) = 0 ∧
      bit 0x301#32 0 = true ∧ Heard .pf pgCmp 0x110 s = true ∧ chArmed 15 s = false ∧ dark pgCmp s = false) ∧
    (let s := withRegs [(rk pgCmp 15 0x118, 0x100001)] (channel 0 0 {})
     chEnabled 15 s = false ∧ enableError 15 (ctlFields 15 0x301#32 s) ≠ 0) ∧
    (let s := channel 0x301 2 { armed := some 0 }
     chEnabled 15 s = true ∧ bit 0x300#32 0 = false ∧ (cchan 15 s).armed = some 0 ∧ (cchan 15 s).job ≠ some 0 ∧
      0 < s.fe.nextJob ∧ tabFind 0 s.fe.jobs = some job0 ∧ job0.fin = none ∧ chArmed 15 s = true) ∧
    (let s := channel 0x301 4 { busy := true, job := some 0 }
     chEnabled 15 s = true ∧ (cchan 15 s).busy = true ∧ (cchan 15 s).job = some 0 ∧ 0 < s.fe.nextJob ∧
      tabFind 0 s.fe.jobs = some job0) := by decide +kernel

theorem test_frame_hypotheses :
    (let s := channel 0x301 2 { armed := some 0 }
     chEnabled 15 s = true ∧ dark pgCmp s = false ∧ (cchan 15 s).busy = false ∧ chArmed 15 s = true ∧
      (getReg pgCmp 15 (0x200 + 4 * (16 + 16 * 7)) s).toNat / 2 ^ 11 % 2 = 0) ∧
    (let s := channel 0x303 0 {}
     chArmed 15 s = false ∧ latePend 15 s = 0 ∧ bit (getReg pgCmp 15 0x108 s) 1 = true ∧
      (slotOf (chSlot 15 s) s).state = 1) ∧
    (let s := channel 0x301 0 {}
     chArmed 15 s = false ∧ latePend 15 s = 0 ∧ bit (getReg pgCmp 15 0x108 s) 1 = false) ∧
    (let s := channel 0x305 4 { busy := true, job := some 0 }
     chEnabled 15 s = true ∧ dark pgCmp s = false ∧ (cchan 15 s).busy = true ∧ (cchan 15 s).missed = false ∧
      (cchan 15 s).job = some 0 ∧ bit (getReg pgCmp 15 0x108 s) 2 = true ∧ tabFind 0 s.fe.jobs = some job0) ∧
    chEnabled 15 ctx = false := by decide +kernel

/-- Job 0's CZ stream of `n` bytes in context 3 of engine 1. -/
def czJob0 (n : Nat) : CzJob :=
  { slot := 3, dva := 0x10000, dec := false, first := true, last := true, dyn := false, iva := 0x20000, n := n, ova := 0x30000,
    cap := 4096, sva := 0, hva := 0, hn := 0, pos := 0, comp := 0, crc := 0xFFFFFFFF#32, hdr := List.replicate 64 0 }
def compressing (n : Nat) : State :=
  { ctx with fe := { ctx.fe with jobs := [(0, job0)], nextJob := 1 }, cz := { ctx.cz with ctx := [(7, .job 0)], jobs := [(0, czJob0 n)] } }

theorem test_cz_hypotheses :
    let s := compressing 0
    tabFind (1 * 4 + 3) s.cz.ctx = some (.job 0) ∧ tabFind 0 s.cz.jobs = some (czJob0 0) ∧ tabFind 0 s.fe.jobs = some job0 ∧
    job0.fin = none := by decide +kernel

/-- A write to a page of HBM that has no error to inject. -/
theorem vaWriteAll_of_translate {rq k va a : Nat} {bs : List Byte} {s s1 : State}
    (hp : pagePieces va bs.length = [(va, bs.length)]) (hb : bs ≠ [])
    (ht : (translate rq k va .wr s).1.toOption = some (.hbm a)) (hs : (translate rq k va .wr s).2 = s1)
    (hn : NoInjection (plainPut a bs s1)) : vaWriteAll rq k va bs s = (.ok (), plainPut a bs s1) := by
  have h := pair_of_ok ht
  rw [hs] at h
  simp only [vaWriteAll, hp, List.foldl_cons, List.foldl_nil, Nat.sub_self, List.drop_zero, List.take_length, vaWrite, h,
    hbmPut_eq_plainPut hb hn]

/-- An empty stream's output, and the states after its writes. -/
def czOut : List Byte := (czCompress (czHdrOf (czJob0 0).hdr) [] [] 0 false true true 0xFFFFFFFF#32).1
def czPut (va : Nat) (bs : List Byte) (s : State) : State := plainPut (va + 2 ^ 21) bs (translate (rqCz 1) 3 va .wr s).2

theorem test_cz_commits :
    let x := czJob0 0
    let s := compressing 0
    let own := [(x.dva + 0x1C, toLE 4 czOut.length), (x.dva + 0x30, toLE 4 (~~~ (crcGo x.crc [])).toNat)]
    let s3 := czPut x.ova czOut s
    let m := mayWrite (rqCz 1) 3 (own.map (fun w => pagePieces w.1 w.2.length)).flatten s3
    vaReadAll (rqCz 1) 3 x.hva x.hn .rd s = (.ok [], s) ∧ vaReadAll (rqCz 1) 3 x.iva x.n .rd s = (.ok [], s) ∧
    czOut.length ≤ x.cap ∧ writeSeq (rqCz 1) 3 [(x.ova, czOut)] s = (.ok (), s3) ∧ m = (.ok (), m.2) ∧
    writeSeq (rqCz 1) 3 own m.2 = (.ok (), czPut (x.dva + 0x30) (toLE 4 (~~~ (crcGo x.crc [])).toNat)
      (czPut (x.dva + 0x1C) (toLE 4 czOut.length) m.2)) := by
  intro x s own s3 m
  have hm : m.1.toOption = some () := by decide +kernel
  have h1 : vaWriteAll (rqCz 1) 3 x.ova czOut s = (.ok (), s3) :=
    vaWriteAll_of_translate (by decide +kernel) (by decide +kernel) (by decide +kernel) rfl (by unfold NoInjection; decide +kernel)
  have h2 : vaWriteAll (rqCz 1) 3 (x.dva + 0x1C) (toLE 4 czOut.length) m.2 = (.ok (), czPut (x.dva + 0x1C) (toLE 4 czOut.length) m.2) :=
    vaWriteAll_of_translate (by decide +kernel) (by decide +kernel) (by decide +kernel) rfl (by unfold NoInjection; decide +kernel)
  have h3 : vaWriteAll (rqCz 1) 3 (x.dva + 0x30) (toLE 4 (~~~ (crcGo x.crc [])).toNat)
      (czPut (x.dva + 0x1C) (toLE 4 czOut.length) m.2) = (.ok (), czPut (x.dva + 0x30) (toLE 4 (~~~ (crcGo x.crc [])).toNat)
      (czPut (x.dva + 0x1C) (toLE 4 czOut.length) m.2)) :=
    vaWriteAll_of_translate (by decide +kernel) (by decide +kernel) (by decide +kernel) rfl (by unfold NoInjection; decide +kernel)
  refine ⟨by decide +kernel, by decide +kernel, by decide +kernel, ?_, pair_of_ok hm, ?_⟩
  · rw [writeSeq, h1]; rfl
  · rw [writeSeq, h2]; simp only [writeSeq, h3]

/-! ## Basin and the security engine -/

/-- The source's event is the next one: `n` of at most 255 counted, STATE `st`, SRC_CFG `cfg`. -/
def basin (i : Nat) (cfg : Word) (n st : Nat) : State :=
  upWith [(rk pgBsn i 0x104, cfg), (rk pgBsn i 0x110, w32 (n + st * 256))]

theorem test_basin_event_hypotheses :
    aonUp State.reset = false ∧
    (let s := upWith [(rk (srcHome 287).1 0 0x024, oneBit (srcHome 287).2)]
     aonUp s = true ∧ s.rst.held = false ∧ s.bsn.stop = false ∧ s.bsn.inbox.contains 287 = false ∧
      bit (getReg (srcHome 287).1 0 0x024 s) (srcHome 287).2 = true) ∧
    (let s := basin 287 0xFF 253 1
     TakesEvent 287 s ∧ srcState 287 s < 2 ∧ getFld pgBsn 287 0x110 0 8 s + 1 < max (getFld pgBsn 287 0x104 0 8 s) 1) := by
  unfold TakesEvent; decide +kernel

theorem test_basin_reaction_hypotheses :
    (let s := basin 287 0xFF 254 1
     TurnsSevere 287 s ∧ srcReact 287 s = 0) ∧
    (let s := basin 79 0x100 0 0
     TurnsSevere 79 s ∧ srcReact 79 s = 1 ∧ domFenced 79 s = false) ∧
    (let s := withRegs [(rk pgBsn 80 0x104, 0x200)] (running group0)
     TurnsSevere 80 s ∧ srcReact 80 s = 2 ∧ 0 ∈ unitJobs 0 s ∧ (0, job0) ∈ s.fe.jobs ∧ job0.owner = .queue 3 5 ∧
      tabFind 0 s.fe.jobs = some job0 ∧ job0.fin = none) ∧
    (let s := basin 0 0x300 0 0
     TurnsSevere 0 s ∧ srcReact 0 s = 3 ∧ cstBusy s = false ∧ s.pins.sysRstN = true) ∧
    logicalOf 0 (withCore0 up) = some 0 := by
  unfold TurnsSevere TakesEvent; decide +kernel

theorem test_basin_time_hypotheses :
    (let s := { basin 287 0 0 1 with bsn := { winLen := [(287, 1)] }, aon := { ms := 1 } }
     aonUp s = true ∧ s.bsn.inbox.contains 287 = false ∧ srcState 287 s = 1 ∧ tabGet 0 287 s.bsn.winLen ≠ 0 ∧
      tabGet 0 287 s.bsn.winLen ≤ s.aon.ms - tabGet 0 287 s.bsn.winStart) ∧
    (let s := { basin 287 0 0 2 with bsn := { quietLen := [(287, 1)] }, aon := { ms := 1 } }
     s.bsn.inbox.contains 287 = false ∧ srcState 287 s = 2 ∧ tabGet 0 287 s.bsn.quietLen ≠ 0 ∧
      tabGet 0 287 s.bsn.quietLen ≤ s.aon.ms - tabGet 0 287 s.bsn.quietStart) ∧
    (Heard .pf pgBsn 0x110 up = true ∧ bit 0x8000#32 15 = true ∧
      getFld pgBsn 0 0x100 0 9 (upWith [(rk pgBsn 0 0x100, 287)]) = 287 ∧
      getFld pgBsn 0 0x100 0 9 (upWith [(rk pgBsn 0 0x100, 288)]) = 288) ∧
    (let s := upWith [(rk 145 0 0x03C, 0xFFFF)]
     fenced 145 s = false ∧ getFld 145 0 0x03C 0 16 s = (0xFFFF#16).toNat ∧ getFld 145 0 0x03C 0 16 s ≠ (0#16).toNat) ∧
    (let s := upWith [(rk pgBsn 0 0x150, 1)]
     Heard .pf pgBsn 0x14C s = true ∧ s.bsn.readmit = none ∧ domFenced (fld 0x80000000#32 0 7) s = true ∧
      domFenced (fld 0x8000007F#32 0 7) s = false) ∧
    ({ up with bsn := { readmit := some 79 } } : State).bsn.readmit = some 79 ∧
    (pulsing (upWith [(rk pgBsn 0 0x148, 0x10000)]) = true ∧ pulsing up = false) ∧
    (Heard .pf 145 0x028 up = true ∧ bit 0x10000#32 16 = true) := by decide +kernel

/-- The security engine serves, with leaves from `n` to `e` and attestation codes at 0. -/
def secure (n e : Word) : State := withRegs [(rk pgSec 0 0x100, 1), (rk pgSec 0 0x110, n), (rk pgSec 0 0x118, e)] ctx

theorem test_measurement_attestation_hypotheses :
    Heard .pf pgSec 0x108 up = true ∧ Heard .yns pgSec 0x108 up = true ∧
    (let s := upWith [(rk pgSec 0 0x128, 7)]
     Heard .pf pgSec 0x12C s = true ∧ bit 0x80000000#32 31 = true ∧ getFld pgSec 0 0x128 0 3 s = 7 ∧ mayExtend .pf 7 = true) ∧
    (Heard .yns pgSec 0x12C up = true ∧ getFld pgSec 0 0x128 0 3 up = 0 ∧ mayExtend .yns 0 = false) ∧
    (let s := secure 0 256
     HeardFn .pf 0 s = true ∧ Heard .pf pgSec 0x1C8 s = true ∧ getFld pgAtt (attBank (.func 0)) 0xC 0 3 s ≠ 1 ∧
      attRefuse (attFn (.func 0)) (fld 0x80000003#32 0 6) s = [] ∧
      attRefuse (attFn .sec) (fld 0x80000004#32 0 6) s ≠ []) ∧
    getFld pgAtt (attBank .sec) 0xC 0 3 (upWith [(rk pgAtt 64 0xC, 1)]) = 1 := by decide +kernel

theorem test_signing_hypotheses :
    up.sec.queue = [] ∧
    (let s := { secure 255 256 with sec := { queue := [⟨64, 3, 0, 0, false, 0, []⟩] } }
     dark pgSec s = false ∧ resNext s < resEnd s) ∧
    (let s := { secure 255 256 with sec := { queue := [⟨66, 64, 64, 0, false, 0, []⟩] } }
     dark pgSec s = false ∧ resNext s < resEnd s ∧ 65 ≤ (66 : Nat)) ∧
    (let s := { up with sec := { resPending := some 512, resSeq := 2 }, cst := { up.cst with queue := [(.prog (resAddr 2) (resRecord 512 2), .leaf)] } }
     s.sec.resPending = some 512 ∧ leafWaits s = true) ∧
    (let s := { up with sec := { resPending := some 512, resSeq := 2 }, mem := { up.mem with flash := memWrite Config.flashByte (resAddr 2) (resRecord 512 2) [] } }
     s.sec.resPending = some 512 ∧ leafWaits s = false) ∧
    (dark pgSec up = false ∧ getFld pgSec 0 0x190 0 5 up < 16 ∧
      16 ≤ getFld pgSec 0 0x190 0 5 (upWith [(rk pgSec 0 0x190, 16)])) := by decide +kernel

/-! ## PCIe, the host, the CPU complex -/

/-- VF 63 is there. -/
def withVfs : State := { up with pci := { vfEnable := true, numVfs := 63 } }

/-- Self-hosted mode with the root port's link up at 64 GT/s, for slot 3. -/
def rooted (s : State) : State :=
  withRegs [(rk pgGlb 0 0x104, 1), (rk pgRst 0 0x12C, 0x16), (rk pgPci 0 0x100, 0xB), (rk pgPci 0 0x108, 0x80000003#32)] s

theorem test_perst_hypotheses :
    (selfHosted up = false ∧ up.pins.perstN = true ∧ up.rst.held = false ∧ devState up < 2 ∧
      bit (getReg pgRst 0 0x120 up) 1 = false) ∧
    (let s := upWith [(rk pgRst 0 0x120, 2)]
     selfHosted s = false ∧ devState s < 2 ∧ bit (getReg pgRst 0 0x120 s) 1 = true ∧ s.pins.sysRstN = true ∧ cstBusy s = false) ∧
    2 ≤ devState (upWith [(rk pgRst 0 0x104, 2)]) ∧
    (let s := { up with pins := { sysRstN := true } }
     selfHosted s = false ∧ s.pins.perstN = false ∧ devState s < 2 ∧ s.pins.extest = false) ∧
    (let s := { upWith [(rk pgRst 0 0x104, 2)] with pins := { sysRstN := true } }
     selfHosted s = false ∧ s.pins.perstN = false ∧ 2 ≤ devState s) := by decide +kernel

theorem test_link_function_hypotheses :
    (linkShape 7 16 true = false ∧ linkShape 6 16 false = false ∧ linkShape 5 3 false = false ∧ linkShape 6 16 true = true) ∧
    (let s := upWith [(rk pgRst 0 0x12C, 3), (rk pgPci 0 0x100, 0)]
     s.rst.held = false ∧ dark pgPci s = false ∧ 3 ≤ stage s ∧ selfHosted s = false ∧ s.pins.perstN = true ∧ linkUp s = false) ∧
    (selfHosted (rooted up) = true ∧ bit (getReg pgPci 0 0x108 (rooted up)) 31 = true ∧ dark pgPci (rooted up) = false) ∧
    (linkUp up = true ∧ up.pci.vfEnable = false ∧ fnOn 63 up = false ∧ tabFind 0 up.fe.disabling = none) ∧
    (linkUp withVfs = true ∧ withVfs.pci.vfEnable = true ∧ fnOn 63 withVfs = true ∧ fnOn 0 withVfs = true) := by decide +kernel

theorem test_bar2_hypotheses :
    (fnServed 0 up = true ∧ 2 ^ 37 < (2 ^ 37 - 3) + 4) ∧
    (let s := upWith [(rk pgCap 0 0x114, 98304)]
     linkUp s = true ∧ fnServed 0 s = true ∧ (96 * 2 ^ 30 - 4) + 4 ≤ 2 ^ 37 ∧ bar2Base s + (96 * 2 ^ 30 - 4) + 4 ≤ hbmCap s ∧
      (hbmRead (96 * 2 ^ 30 - 4 + bar2Base s) 4 s).1 = some [0, 0, 0, 0]) ∧
    (let s := upWith [(rk pgCap 0 0x114, 98304), (rk pgPci 0 0x104, 511)]
     linkUp s = true ∧ fnServed 0 s = true ∧ hbmCap s ≤ bar2Base s + (2 ^ 37 - 4)) ∧
    tabFind 0 up.pci.reads = none := by decide +kernel

/-- A read of four bytes at 0x1000 of host memory. -/
def read4 (w : HostWaiter) : HostRd := { slot := 3, attr := {}, va := 0, addr := 0x1000, len := 4, waiter := w }

/-- The reads with tags 254 and 255 of four bytes each of host memory. -/
def awaited (w : HostWaiter) (s : State) : State :=
  { s with pci := { s.pci with reads := [(254, { read4 w with addr := 0x1004 }), (255, read4 w)] } }

theorem test_host_read_hypotheses :
    (let x := { chan0 with xfer := .copy 0x1000 0x2000 8 }
     let s := awaited (.chan 63) (moving x)
     tabFind 255 s.pci.reads = some (read4 (.chan 63)) ∧ s.dma.chans = [(63, x)] ∧ s.mmu.atsInv = [] ∧
      chanReading 63 { s with pci := { s.pci with reads := tabDel 255 s.pci.reads } } = true) ∧
    (let s := awaited (.thread 0 0 31 5 4 0) (running group0)
     tabFind 255 s.pci.reads = some (read4 (.thread 0 0 31 5 4 0)) ∧ groupOf 0 0 s = some group0 ∧ s.dma.chans = [] ∧
      tabFind group0.job s.fe.jobs = some job0 ∧ job0.fin = none) := by decide +kernel

theorem test_root_port_hypotheses :
    rootUp up = false ∧
    (let s := rooted ctx
     rootUp s = true ∧ isRegSpace 0x2008000000 = false ∧ isImsic 0x2008000000 = true ∧ isImsic 0x2009007FFF = true ∧
      isRegSpace 0x2009008000 = false ∧ isImsic 0x2009008000 = false ∧ isRegSpace 0xFFC = false ∧ isImsic 0xFFC = false ∧
      isRegSpace 0x2000000000 = true ∧ isRegSpace 0x2001FFFFFF = true ∧ isRegSpace (2 ^ 22) = false ∧ isImsic (2 ^ 22) = false ∧
      (match (vaReadAll rqRoot 3 (2 ^ 22) 4 .rd s).1 with | .error (.xl _ _, _) => true | _ => false) = true ∧
      (vaWriteAll rqRoot 3 0xFFC [1] s).1.toOption = some () ∧
      getFld pgPci 0 0x108 0 6 s = 3 ∧ (vaReadAll rqRoot 3 0xFFC 4 .rd s).1.toOption = some [0, 0, 0, 0]) := by decide +kernel

theorem test_hart_sdio_hypotheses :
    Heard .pf pgHcx 0x100 up = true ∧ domFenced (96 + 7) (upWith [(rk pgBsn 0 0x15C, 0x80#32)]) = true ∧
    (let s := { up with pwr := { up.pwr with domOn := (span 96 9).map (fun d => (d, true)) } }
     Heard .pf pgHcx 0x100 s = true ∧ ∀ d ∈ span 96 9, domainPowered d s = true) ∧
    (let s := upWith [(rk pgRst 0 0x104, 2), (rk pgRst 0 0x108, oneBit (wakeBit .sdio))]
     s.rst.held = false ∧ bit (getReg pgRst 0 0x108 s) (wakeBit .sdio) = true ∧ wakeHolds .sdio s = true ∧ s.rst.trans = none ∧
      devState s = 2 ∧ s.rst.exiting = false) := by decide +kernel

/-! ## The mailbox, images, site records -/

/-- A request with an opcode, its arguments and the data in the bulk window. -/
def asks (op : BitVec 8) (a0 a1 : Word) (bulk : List Byte) : MbReq := ⟨op, 0, 1008, 0x12345678, a0, a1, [], bulk⟩

/-- SDI_CTL permits what it can, and the part may sign. -/
def permitted : State := upWith [(rk pgSdi 0 0x100, 3), (rk pgSec 0 0x100, 1)]

theorem test_mailbox_service_hypotheses : ∀ op < 16, 1 ≤ op → MbServes op .sdio (asks (BitVec.ofNat 8 op) 0 0 []) permitted := by
  have h1 : ∀ op < 16, (asks (BitVec.ofNat 8 op) 0 0 []).op.toNat = op := by decide +kernel
  have h2 : ∀ op < 16, 1 ≤ op → MbAvailable op permitted := by
    have h : stage permitted = 6 := by decide +kernel
    intro op h1 h2; simp [MbAvailable, h]; omega
  have h3 : ∀ op < 16, MbAwake op permitted := by unfold MbAwake; decide +kernel
  have h4 : ∀ op, MbPermitted .sdio op permitted := fun _ _ _ => ⟨by decide +kernel, fun _ _ => by decide +kernel⟩
  exact fun op h k => ⟨by decide +kernel, h1 op h, h2 op h k, h3 op h, h4 op, by simp [asks]⟩

theorem test_mailbox_check_hypotheses :
    portServed .host (upWith [(rk pgPci 0 0x100, 0)]) = false ∧ portServed .sdio (upWith [(rk pgRst 0 0x104, 3)]) = false ∧
    portServed .host up = true ∧ portServed .sdio up = true ∧ portServed .sdio (upWith [(rk pgRst 0 0x104, 2)]) = true ∧
    portServed .sdio (upWith [(rk pgRst 0 0x12C, 2)]) = true ∧ (1008 : Nat) < (1009#16).toNat := by decide +kernel

theorem test_mailbox_asleep_hypotheses :
    let s := upWith [(rk pgRst 0 0x104, 2)]
    ¬ MbAwake 0x04 s ∧ MbAwake 0x0E s := by unfold MbAwake; decide +kernel

theorem test_mailbox_stage_hypotheses :
    let s := upWith [(rk pgRst 0 0x12C, 2)]
    ¬ MbAvailable 0x0F s ∧ MbAvailable 0x01 s := by unfold MbAvailable; decide +kernel

theorem test_mailbox_denied_hypotheses :
    ¬ MbPermitted .sdio 0x0B (upWith [(rk pgSdi 0 0x100, 0)]) ∧ MbPermitted .sdio 0x03 up ∧ ¬ MbPermitted .sdio 0x0B (upWith [(rk pgSdi 0 0x100, 1)]) := by
  have h : ∀ s, bit (getReg pgSdi 0 0x100 s) 0 = false ∨ (stage s = 6 ∧ bit (getReg pgSdi 0 0x100 s) 1 = false) →
      ¬ MbPermitted .sdio 0x0B s := fun s hs hp => by
    have := hp rfl (by decide)
    rcases hs with hs | hs
    · exact absurd (hs.symm.trans this.1) (by decide)
    · exact absurd (hs.2.symm.trans (this.2 hs.1 (by decide))) (by decide)
  exact ⟨h _ (by decide +kernel), fun _ hn => absurd hn (by decide), h _ (by decide +kernel)⟩

theorem test_mailbox_command_hypotheses :
    (0x1000000 ≤ (0x1000000#32 : Word).toNat ∧ pageAsleep 0xFFF000 up = false ∧
      pageAsleep (pgFe * 0x1000) (upWith [(rk pgRst 0 0x104, 2)]) = true) ∧
    (∀ pg ∈ [pgPwr, pgBsn, pgRst, pgAna, pgCst, pgSdi], mbPage 0xFFF000 ≠ some pg) ∧ mbPage (pgPwr * 0x1000) = some pgPwr ∧
    (bit (getReg pgRst 0 0x100 asking) 31 = true ∧ bit (getReg pgRst 0 0x100 up) 31 = false) ∧
    (up.pins.sysRstN = true ∧ cstBusy up = false) ∧ (0#32 : Word).toNat ≤ Config.certificate.length ∧
    (pendRuns .sdio permitted = false ∧ attWaiting permitted < 16 ∧ signOff permitted = false ∧
      signOff (upWith [(rk pgSec 0 0x100, 2)]) = true) ∧
    (let s := { permitted with sec := { queue := List.replicate 16 ⟨65, 64, 64, 0, false, 0, []⟩ } }
     16 ≤ attWaiting s) ∧
    tabFind (portIdx .sdio) up.mbx.pend = none ∧
    (let s := { up with mbx := { pend := [(portIdx .sdio, .running 0x0F 16), (portIdx .host, .final 0x0D 0 0)] } }
     tabFind (portIdx .sdio) s.mbx.pend = some (.running 0x0F 16) ∧ pendRuns .sdio s = true ∧
      tabFind (portIdx .host) s.mbx.pend = some (.final 0x0D 0 0)) := by
  refine ⟨by decide +kernel, by decide +kernel, by decide +kernel, by decide +kernel, by decide +kernel, Nat.zero_le _,
    by decide +kernel, by decide +kernel, by decide +kernel, by decide +kernel⟩

/-- A session of 64 bytes on the SDIO port. -/
def session (got : List Byte) (phase : Nat) (rec : Bool) : ImgSession :=
  { port := .sdio, len := 64, got := got, recovery := rec, phase := phase }
def inSession (i : ImgSession) (stg : Word) : State :=
  { withRegs [(rk pgRst 0 0x12C, stg)] permitted with mbx := { img := some i } }

theorem test_image_transfer_hypotheses :
    (let i := session (List.replicate 32 0) 0 true
     let s := inSession i 7
     s.mbx.img = some i ∧ i.port ≠ .host ∧ imgWaits i s = false ∧ chunkOk i 32 32 = true ∧ chunkOk i 32 33 = false ∧
      chunkOk i 32 28 = true ∧ stage s = 7 ∧ seg0Arrived { i with got := i.got ++ List.replicate 28 0 } = false ∧
      seg0Arrived { i with got := i.got ++ List.replicate 32 0 } = true) ∧
    (let i := session (List.replicate 32 0) 0 false
     let s := inSession i 6
     stage s ≠ 7 ∧ i.recovery = false ∧ imgWaits i s = false) ∧
    (let i := session (List.replicate 32 0) 0 true
     let s := withRegs ((List.range 4).map (fun n => (rk (pgHbc n) 0 0x104, 1))) (inSession i 6)
     stage s ≠ 7 ∧ i.recovery = true ∧ imgWaits i s = false ∧ imgWaits i (inSession i 6) = true) ∧
    (let i := session (List.replicate 64 0) 0 false
     i.got.length = i.len ∧ imgWaits i (inSession i 6) = false ∧ pendRuns .sdio (inSession i 6) = false) := by decide +kernel

/-- An image without MAGIC fails with code 1 (R375). -/
theorem test_image_verification_hypotheses :
    (let i := session [] 1 true
     let s := inSession i 7
     s.mbx.img = some i ∧ i.phase = 1 ∧ verifyImage (sessionBytes i) s = 1) ∧
    (let i := session [] 2 false
     let s := inSession i 6
     s.mbx.img = some i ∧ i.phase = 2 ∧ wholeCode i s = 1) ∧
    (let i := session [] 3 false
     let s := inSession i 6
     s.mbx.img = some i ∧ i.phase = 3 ∧ ownerUnits (.image i.port) s = 0 ∧
      ownerUnits (.image i.port) { s with cst := { s.cst with queue := [(.erase 0, .image .sdio)] } } ≠ 0) := by decide +kernel

/-- A site record without entries: MAGIC, COUNT 0, SEQ 7 and the CRC of these 12 bytes (Table 13-8). -/
def siteRec : List Byte := toLE 4 0x53434647 ++ toLE 4 0 ++ toLE 4 7 ++ toLE 4 (crc32c (toLE 4 0x53434647 ++ toLE 4 0 ++ toLE 4 7)).toNat

theorem test_site_record_hypotheses :
    (let q := asks 0x0F 16 0 siteRec
     q.bulk.length = q.arg0.toNat ∧ 16 ≤ q.arg0.toNat ∧ q.arg0.toNat ≤ 32768 ∧
      siteOk (fun a k => memRead zeroByte (placeReq .host q up).mbx.bulk (portIdx .host * 2 ^ 15 + a) k) = true ∧
      q.arg0.toNat = 16 + 8 * leNat ((q.bulk.drop 4).take 4) ∧ pendRuns .host up = false ∧ ownerUnits (.site .sdio) up = 0 ∧
      ownerUnits (.site .host) up = 0) ∧
    (let q := asks 0x0F 16 0 (List.replicate 16 0)
     siteOk (fun a k => memRead zeroByte (placeReq .sdio q up).mbx.bulk (portIdx .sdio * 2 ^ 15 + a) k) = false) ∧
    ownerUnits (.site .sdio) { up with cst := { up.cst with queue := [(.erase 0x1D00, .site .sdio)] } } ≠ 0 := by
  decide +kernel

/-! ## Svaumon ports -/

/-- Node `n` of a domain of dimension `d`, with every port up and every node reachable. -/
def meshed (n d : Nat) (s : State) : State :=
  withRegs ([(rk (pgSvl 0) 0 0x200, w32 (n + d * 16)), (rk (pgSvl 0) 0 0x208, 0x1FFFF)] ++
    (List.range 4).map (fun k => (rk (pgSvl k) 0 0x100, 3))) s

/-- Node 0 of a domain of 16; port 3 is as given. -/
def onPort (p : SvlPort) : State := { meshed 0 4 ctx with svl := { ports := [(3, p)] } }

/-- Node 0 of a domain of 16 whose port 3 is enabled and down. -/
def training (p : SvlPort) : State := withRegs [(rk (pgSvl 3) 0 0x100, 0), (rk (pgSvl 3) 0 0x104, 1)] (onPort p)

theorem test_training_hypotheses :
    (let s := training { train := 1000 }
     bit (getReg (pgSvl 3) 0 0x104 s) 0 = true ∧ 3 < domDim s ∧ portTrained 3 s = false ∧ dark (pgSvl 3) s = false ∧
      (8#4).toNat = ownNode s ^^^ 2 ^ 3 ∧ min 4 (5#3).toNat = domDim s ∧ 0#32 = domTag s ∧ 1#32 ≠ domTag s ∧
      (0#4).toNat ≠ ownNode s ^^^ 2 ^ 3 ∧ min 4 (3#3).toNat ≠ domDim s ∧ 1000 ≤ (portOf 3 s).train) ∧
    (portOf 3 (training { train := 999 })).train < 1000 ∧ domDim (upWith [(rk (pgSvl 0) 0 0x200, 0x30)]) ≤ 3 := by decide +kernel

/-- The CRC and a syndrome with each intermediate value a numeral, so that the kernel evaluates them step by step. -/
def crcFold : Nat → List Byte → Nat
  | n, [] => n
  | 0, b :: t => crcFold (crc32cByte 0 b).toNat t
  | n + 1, b :: t => crcFold (crc32cByte (BitVec.ofNat 32 (n + 1)) b).toNat t

def synFold (a : Nat) : Nat → List Nat → Nat
  | n, [] => n
  | 0, b :: t => synFold a (gfMul 0 a ^^^ b) t
  | n + 1, b :: t => synFold a (gfMul (n + 1) a ^^^ b) t

theorem crcFold_eq : ∀ (l : List Byte) (c : Word), crcFold c.toNat l = (l.foldl crc32cByte c).toNat
  | [], c => by cases h : c.toNat <;> simp [crcFold, h]
  | b :: t, c => by
    rw [List.foldl_cons, ← crcFold_eq t]
    cases h : c.toNat with
    | zero => rw [show c = 0 from BitVec.eq_of_toNat_eq h]; rfl
    | succ n => rw [show c = BitVec.ofNat 32 (n + 1) by rw [← h]; simp]; rfl

theorem synFold_eq (a : Nat) : ∀ (l : List Nat) (n : Nat), synFold a n l = l.foldl (fun r d => gfMul r a ^^^ d) n
  | [], n => by cases n <;> rfl
  | b :: t, n => by rw [List.foldl_cons, ← synFold_eq a t]; cases n <;> rfl

theorem crc32c_eq (l : List Byte) : (crc32c l).toNat = 2 ^ 32 - 1 - crcFold 0xFFFFFFFF l := by
  have h := crcFold_eq l 0xFFFFFFFF#32
  rw [crc32c, BitVec.toNat_not, ← h]; rfl

theorem rsCorrect_of_syndromes {w : List Nat} (h : ∀ i < 6, synFold (gfPow 2 i) 0 w = 0) : rsCorrect w = (w, 0) := by
  have h6 : (List.range 6).map (rsSyn w) = [0, 0, 0, 0, 0, 0] := by
    have e : ∀ i < 6, rsSyn w i = 0 := fun i hi => (synFold_eq _ w 0).symm.trans (h i hi)
    simp [List.range, List.range.loop, e]
  rw [rsCorrect, h6]; rfl

/-- A flit of 256 bytes: its first bytes, zeros, and its CRC with the parity. -/
def flitOf (head tail : List Byte) : List Byte := head ++ List.replicate (240 - head.length) 0 ++ tail

/-- IDLE, NAK and HEARTBEAT that acknowledge flit 4095, with credits 1, 2 and 3. -/
def idleFlit : Nat → List Byte
  | 0 => flitOf [0, 0, 240, 255, 1, 2, 3] [207, 168, 36, 134, 56, 7, 140, 62, 16, 30, 147, 205, 31, 108, 49, 85]
  | 2 => flitOf [2, 0, 240, 255, 1, 2, 3] [178, 123, 120, 124, 230, 213, 135, 28, 219, 104, 162, 180, 86, 183, 116, 88]
  | _ => flitOf [3, 0, 240, 255, 1, 2, 3] [116, 41, 160, 131, 147, 18, 102, 61, 125, 179, 96, 82, 147, 230, 94, 127]

/-- A packet without data from node 8 in group 1 with CSEQ 5: a BARRIER (OP 11), or a reserved OP. -/
def call (op dst : Nat) : Packet := ⟨BitVec.ofNat 4 op, BitVec.ofNat 4 dst, 8, 3, 0, 0, 0, 0, 0x100000005, []⟩

/-- The DATA flit with SEQ 4095 on VC 2 that carries `call 11 1`, and the one with `call 14 0`. -/
def dataFlitOf : Nat → List Byte
  | 11 => flitOf ([33, 255, 15, 0, 0, 0, 0, 0] ++ packetBytes (call 11 1))
      [188, 250, 10, 107, 99, 129, 141, 120, 200, 167, 33, 67, 155, 225, 27, 170]
  | _ => flitOf ([33, 255, 15, 0, 0, 0, 0, 0] ++ packetBytes (call 14 0))
      [143, 50, 175, 118, 193, 149, 246, 2, 16, 237, 62, 168, 216, 222, 197, 143]

/-- Both codewords of a flit are without an error. -/
def codewords (f : List Byte) : Bool :=
  [everyOther f, everyOther (f.drop 1)].all (fun l =>
    (List.range 6).all (fun i => synFold (gfPow 2 i) 0 (l.map (·.toNat)) == 0))

theorem fecDecode_of_codewords {f : List Byte} (h : codewords f = true)
    (hi : interleave (everyOther f) (everyOther (f.drop 1)) = f) : fecDecode f = (f, 0) := by
  simp only [codewords, List.all_cons, List.all_nil, Bool.and_true, Bool.and_eq_true, List.all_eq_true, List.mem_range,
    beq_iff_eq] at h
  simp [fecDecode, rsCorrect_of_syndromes h.1, rsCorrect_of_syndromes h.2, Function.comp_def, hi, -List.drop_one]

/-- The flit's parity, its CRC and its FTYPE. -/
def flitGood (n : Nat) (f : List Byte) : Bool :=
  codewords f && (interleave (everyOther f) (everyOther (f.drop 1)) == f) && f.length == 256 &&
  leNat ((f.drop 240).take 4) == 2 ^ 32 - 1 - crcFold 0xFFFFFFFF (f.take 240) && fld (w32 (leNat (f.take 4))) 0 4 == n

theorem flitOk_of_good {n : Nat} {f : List Byte} (h : flitGood n f = true) :
    FlitOk n f (f.take 240) (w32 (leNat (f.take 4))) (w32 (leNat ((f.drop 4).take 4))) := by
  simp only [flitGood, Bool.and_eq_true, beq_iff_eq] at h
  obtain ⟨⟨⟨⟨hc, hi⟩, hl⟩, hcrc⟩, hf⟩ := h
  have e := fecDecode_of_codewords hc hi
  refine ⟨hl, by rw [e], by rw [e, crc32c_eq, hcrc], by simp [List.take_take], ?_, hf⟩
  simp [List.drop_take, List.take_take]

theorem flits_good : ([0, 2, 3].all (fun n => flitGood n (idleFlit n)) && flitGood 1 (dataFlitOf 11) &&
    flitGood 1 (dataFlitOf 14)) = true := by decide +kernel

theorem test_flit_hypotheses : (∀ n ∈ [0, 2, 3], ∃ b w0 w1, FlitOk n (idleFlit n) b w0 w1) ∧
    (∃ b w0 w1, FlitOk 1 (dataFlitOf 11) b w0 w1) ∧ ∃ b w0 w1, FlitOk 1 (dataFlitOf 14) b w0 w1 := by
  have h := flits_good
  simp only [Bool.and_eq_true, List.all_eq_true] at h
  exact ⟨fun n hn => ⟨_, _, _, flitOk_of_good (h.1.1 n hn)⟩, ⟨_, _, _, flitOk_of_good h.1.2⟩, ⟨_, _, _, flitOk_of_good h.2⟩⟩

/-- The CRC of a flit of zeros is not 0. -/
theorem test_bad_flit_hypotheses :
    leNat (((fecDecode (List.replicate 256 0)).1.drop 240).take 4) ≠
      (crc32c ((fecDecode (List.replicate 256 0)).1.take 240)).toNat := by
  rw [fecDecode_of_codewords (by decide +kernel) (by decide +kernel), crc32c_eq]; decide +kernel

theorem test_retry_hypotheses :
    (let s := onPort { cr := [0, 0, 0], replays := 6, retry := [(4094, 0, [1])] }
     let w0 := w32 (leNat ((idleFlit 2).take 4))
     portTrained 3 s = true ∧ portTrained 3 (training {}) = false ∧ (portOf 3 s).txq = [] ∧ unacked w0 (portOf 3 s) ≠ [] ∧
      replaysAfter w0 (portOf 3 s) < 7 ∧ (portOf 3 s).freed = [0, 0, 0]) ∧
    (let s := onPort { replays := 7, retry := [(4094, 0, [1])] }
     7 ≤ replaysAfter (w32 (leNat ((idleFlit 2).take 4))) (portOf 3 s)) ∧
    (let s := onPort { replays := 7, retry := [(4094, 0, [1]), (4095, 0, [2])] }
     unacked (w32 (leNat ((idleFlit 2).take 4))) (portOf 3 s) = []) ∧
    (let s := onPort { retraining := true, retry := [(4094, 0, [1])], replays := 6 }
     (portOf 3 s).retraining = true ∧ (portOf 3 s).txq = [] ∧ (portOf 3 s).replays < 7) := by decide +kernel

theorem test_heartbeat_hypotheses :
    (let s := withRegs [(rk (pgSvl 3) 0 0x104, 0xFFFF01)] (onPort { hb := 255, loss := 255 })
     portUp 3 s = true ∧ max 1 (getFld (pgSvl 3) 0 0x104 8 8 s) ≤ (portOf 3 s).hb ∧
      max 1 (getFld (pgSvl 3) 0 0x104 16 8 s) ≤ (portOf 3 s).loss) ∧
    (let s := withRegs [(rk (pgSvl 3) 0 0x104, 1)] (onPort {})
     (portOf 3 s).hb < max 1 (getFld (pgSvl 3) 0 0x104 8 8 s)) ∧ portUp 3 (training {}) = false := by decide +kernel

/-- A READ of ring 15 and a remote WAIT of queue 5 that need node 8. -/
def ringRead : LinkReq := { who := .ring 15, node := 8, op := 2, sub := 0, va := 0x1000, len := 4 }
def remoteWait : LinkReq := { who := .queue 3 5, node := 8, op := 6, sub := 2, va := 0, len := 8 }

/-- Ring 15 executes a descriptor with OP `op`; `d` is the rest of its first word. -/
def ringDesc (op d len : Nat) : List Word :=
  [w32 (op + d), w32 len, 0xF00, 0, 0x1F00, 0, 0, 0, 0, 0, 1, 0, 0, 0, 0, 0]
def executing (op d len : Nat) (s : State) : State :=
  { s with svl := { s.svl with rings := [(15, { run := some { desc := ringDesc op d len, phase := 3 } })] } }

theorem test_loss_hypotheses :
    (let s := executing 2 0x80 4 (onPort {})
     let t := { s with svl := { s.svl with tags := [(0, ringRead)] } }
     (lringOf 15 t).run = some { desc := ringDesc 2 0x80 4, phase := 3 } ∧ isColl (ringDesc 2 0x80 4) = false ∧
      ldBit (ringDesc 2 0x80 4) 10 = false ∧ t.svl.tags = [(0, ringRead)] ∧ ringRead.node ≠ ownNode t ∧
      routePort (ownNode t) ringRead.node = some 3) ∧
    (let t := { onPort {} with svl := { tags := [(0, remoteWait)] } }
     (∀ r < 16, (lringOf r t).run = none) ∧ t.svl.tags = [(0, remoteWait)] ∧ remoteWait.node ≠ ownNode t ∧
      routePort (ownNode t) remoteWait.node = some 3) := by decide +kernel

theorem test_packet_delivery_hypotheses :
    (∀ q ∈ [call 11 1, call 14 0],
      (let body := (dataFlitOf q.op.toNat).take 240
       let w0 := w32 (leNat (body.take 4))
       fld w0 8 12 = 4095 ∧ fld w0 4 2 = 2 ∧ fld w0 6 2 = 0 ∧ leNat ((body.drop 7).take 1) = 0 ∧
        body.drop 8 = packetBytes q ++ List.replicate 216 0 ∧ q.data.length = dataLen q.op.toNat q.len.toNat ∧ q.op ≠ 0)) ∧
    (let w := fun n => w32 (leNat (((dataFlitOf n).drop 8).take 4))
     packetBad 2 (w 14) (call 14 0) = true ∧ packetBad 2 (w 11) (call 11 1) = false) ∧
    (call 11 1).dst.toNat = ownNode (meshed 1 4 ctx) ∧
    (let s := { meshed 0 4 ctx with svl := { ports := [(3, { rxNext := 4095 }), (0, { cr := [0, 0, 1] })] } }
     (portOf 3 s).rxNext = 4095 ∧ tabGet [] 2 (portOf 3 s).part = [] ∧
      routePort (ownNode s) (call 11 1).dst.toNat = some 0 ∧ portUp 0 s = true ∧ (packetBytes (call 11 1)).length ≤ 232 ∧
      (portOf 0 s).txq = [] ∧ (portOf 0 s).retraining = false ∧ (portOf 0 s).retry.length < 1024 ∧
      0 < nth 0 (portOf 0 s).cr 2) ∧
    (let s := withRegs [(rk (pgSvl 0) 0 0x100, 0)] (onPort { rxNext := 4095 })
     portUp 0 s = false ∧ (call 11 1).op.toNat ≠ 2 ∧ (call 11 1).op.toNat ≠ 4 ∧ (call 11 1).op.toNat ≠ 1) := by decide +kernel

/-! ## Svaumon packets -/

/-- The only packet that waits at the node of state `s`, which takes inbound accesses of slot 3; the slot's third 2 MiB are host
memory. -/
def arrives (p : Packet) (s : State) : State :=
  let e : TlbEnt :=
    { slot := 3, base := 2 ^ 21, size := 2 ^ 21, pa := 2 ^ 22, r := true, w := false, x := true, pin := false, tgt := 0, level := 1 }
  let m := { s.mmu with
    shared := s.mmu.shared ++ [e, { e with base := 2 ^ 22, pa := 0x100000, w := true, pin := true, tgt := 1 }] }
  { withRegs [(rk (pgSvl 0) 0 0x20C, 8)] (meshed 0 4 s) with mmu := m, svl := { s.svl with inbox := [p] } }

/-- A packet of node 8 for slot 3 with tag 4095. -/
def pkt (op sub len arg : Nat) (data : List Byte) : Packet :=
  ⟨BitVec.ofNat 4 op, 0, 8, 3, 4095, BitVec.ofNat 13 len, BitVec.ofNat 3 sub, 0, BitVec.ofNat 64 arg, data⟩

theorem test_arrival_hypotheses :
    (∀ op < 13, 1 ≤ op → Arrived op (pkt op 0 0 0 []) (arrives (pkt op 0 0 0 []) ctx)) ∧
    ¬ Arrived 11 (pkt 11 0 0 0 []) (arrives (pkt 11 0 0 0x1000 []) ctx) ∧
    slotOpen (pkt 1 0 0 0 []).slot.toNat up = false := by unfold Arrived; decide +kernel

/-- The unit of HBM that holds the address has an uncorrectable error. -/
def badUnit (a : Nat) (s : State) : State := { s with hbc := { s.hbc with ecc := [(a / 32, { ue := true, seen := true })] } }

/-- WRITE and READ of slot 3: the second 2 MiB may not be written, the fourth are not mapped. -/
theorem test_inbound_hypotheses :
    (let p := pkt 1 1 4 (2 ^ 22 - 4) [1, 2, 3, 4]
     (inboundRefused p p.data.length .wr (taken p (arrives p ctx))).1 = some 0x0016) ∧
    (let p := pkt 2 0 4 (3 * 2 ^ 21) []
     (inboundRefused p p.len.toNat .rd (taken p (arrives p ctx))).1 = some 0x0016) ∧
    (let p := pkt 1 1 4 0xFFC [1, 2, 3, 4]
     let r := inboundRefused p p.data.length .wr (taken p (arrives p ctx))
     r.1 = none ∧ (vaWriteAll rqLink 3 0xFFC p.data r.2).1.toOption = some ()) ∧
    (let p := pkt 2 0 4 0xFFC []
     let r := inboundRefused p p.len.toNat .rd (taken p (arrives p ctx))
     r.1 = none ∧ (vaReadAll rqLink 3 0xFFC 4 .rd r.2).1.toOption = some [0, 0, 0, 0]) ∧
    (let p := pkt 2 0 4 0xFFC []
     let r := inboundRefused p p.len.toNat .rd (taken p (arrives p (badUnit 0x200FFC ctx)))
     r.1 = none ∧ (vaReadAll rqLink 3 0xFFC 4 .rd r.2).1.toOption = none) := by decide +kernel

/-- An ATOMIC at `va`, and the state before its translation. -/
def atomicAt (sub va : Nat) (data : List Byte) : Packet := pkt 4 sub data.length va data
def inboundAt (p : Packet) (n : Nat) : Option Nat × State := inboundRefused p n .at (taken p (arrives p ctx))
def leadsTo (p : Packet) (n : Nat) : Option Dest := (translate rqLink 3 p.arg.toNat .at (inboundAt p n).2).1.toOption

theorem test_inbound_atomic_hypotheses :
    (let p := atomicAt 7 0xFFC [1, 2, 3, 4]
     let r := inboundAt p 4
     Arrived 4 p (arrives p ctx) ∧ r.1 = none ∧ p.arg.toNat % 4 = 0 ∧
      leadsTo p 4 = some (.hbm 0x200FFC) ∧
      (hbmRead 0x200FFC 4 (translate rqLink 3 0xFFC .at r.2).2).1 = some [0, 0, 0, 0]) ∧
    (let p := atomicAt 7 0xFFC [1, 2, 3, 4]
     let s := (inboundRefused p 4 .at (taken p (arrives p (badUnit 0x200FFC ctx)))).2
     (translate rqLink 3 0xFFC .at s).1.toOption = some (.hbm 0x200FFC) ∧
      (hbmRead 0x200FFC 4 (translate rqLink 3 0xFFC .at s).2).1 = none) ∧
    (let p := atomicAt 2 0xFFC (List.replicate 16 1)
     p.data.length / 2 = 8 ∧ (inboundAt p 8).1 = none ∧ p.arg.toNat % 8 ≠ 0) ∧
    (let p := atomicAt 2 (2 ^ 22) (List.replicate 16 1)
     (inboundAt p 8).1 = none ∧ leadsTo p 8 = some (.host 0x100000 {})) ∧
    (let p := atomicAt 3 (2 ^ 22) [1, 2, 3, 4]
     (inboundAt p 4).1 = none ∧ leadsTo p 4 = some (.host 0x100000 {}) ∧
      2 < p.sub.toNat) := by unfold Arrived; decide +kernel

/-- A FENCE_OP on fence 0 with generation `gen`; the fence's first word is `w`. -/
def fencePkt (sub gen : Nat) : Packet := pkt 6 sub 8 (gen * 2 ^ 32) [5, 0, 0, 0, 0, 0, 0, 0]
def fenceState (sub gen : Nat) (w : Word) : State := arrives (fencePkt sub gen) (object 1 w 1)
def fenceLook (p : Packet) (s : State) : Option (Nat × Nat) × State := nameFails 0 ⟨3, 0, 0, true⟩ 0 (taken p s)

theorem fenceRead_of_look {sub gen : Nat} {s : State} (h : Arrived 6 (fencePkt sub gen) s) (hs : (fencePkt sub gen).sub.toNat = sub)
    (ho : slotOpen 3 s = true) (hi : (fencePkt sub gen).arg.toNat % 2 ^ 20 = 0) (hf : (slotOf 3 s).func = 0) :
    FenceRead sub (fencePkt sub gen) 0 0 (fenceLook (fencePkt sub gen) s).1 s (fenceLook (fencePkt sub gen) s).2 :=
  ⟨h, hs, ho, hi.symm, hf.symm, rfl⟩

theorem test_fence_asked_hypotheses : ∀ sub < 3, ∀ e ∈ [(7, 1), (7, 3), (6, 1)],
    ∃ s1, FenceAsked sub (fencePkt sub e.1) 0 0 (fenceGet 0 s1) (fenceState sub e.1 e.2) s1 := by
  have h : ∀ sub < 3, ∀ e ∈ [(7, (1 : Word)), (7, 3), (6, 1)],
      Arrived 6 (fencePkt sub e.1) (fenceState sub e.1 e.2) ∧ (fencePkt sub e.1).sub.toNat = sub ∧
      slotOpen 3 (fenceState sub e.1 e.2) = true ∧ (fencePkt sub e.1).arg.toNat % 2 ^ 20 = 0 ∧
      (slotOf 3 (fenceState sub e.1 e.2)).func = 0 ∧ (fenceLook (fencePkt sub e.1) (fenceState sub e.1 e.2)).1 = none := by
    unfold Arrived; decide +kernel
  intro sub hs e he
  obtain ⟨h1, h2, h3, h4, h5, h6⟩ := h sub hs e he
  exact ⟨_, h6 ▸ fenceRead_of_look h1 h2 h3 h4 h5, rfl⟩

theorem test_fence_unreadable_hypotheses : ∀ sub < 3,
    ∃ rd s1, FenceRead sub (fencePkt sub 7) 0 0 (some rd) (badUnit 0x800000 (fenceState sub 7 1)) s1 := by
  have h : ∀ sub < 3,
      let s := badUnit 0x800000 (fenceState sub 7 1)
      Arrived 6 (fencePkt sub 7) s ∧ (fencePkt sub 7).sub.toNat = sub ∧ slotOpen 3 s = true ∧
      (fencePkt sub 7).arg.toNat % 2 ^ 20 = 0 ∧ (slotOf 3 s).func = 0 ∧ (fenceLook (fencePkt sub 7) s).1.isSome = true := by
    unfold Arrived; decide +kernel
  intro sub hs
  obtain ⟨h1, h2, h3, h4, h5, h6⟩ := h sub hs
  obtain ⟨rd, hr⟩ := Option.isSome_iff_exists.mp h6
  exact ⟨rd, _, hr ▸ fenceRead_of_look h1 h2 h3 h4 h5⟩

theorem test_fence_packet_hypotheses :
    (let s := (fenceLook (fencePkt 0 7) (fenceState 0 7 1)).2
     maySignal 0 0 7 s = true ∧ mayName 0 0 7 s = true ∧ maySignal 0 0 6 s = false ∧ mayName 0 0 6 s = false ∧
      (fencePkt 0 7).arg.toNat / 2 ^ 32 % 2 ^ 16 = 7 ∧ (fenceGet 0 s).signalled = false ∧ NoFenceInjection s ∧ s.fnc.waits = [] ∧
      s.hbc.pendInv = []) ∧
    (let s := (fenceLook (fencePkt 0 7) (fenceState 0 7 3)).2
     maySignal 0 0 7 s = true ∧ mayName 0 0 7 s = true ∧ (fenceGet 0 s).signalled = true ∧ NoFenceInjection s ∧
      s.hbc.pendInv = []) := by
  unfold NoFenceInjection NoInjection; decide +kernel

/-- A request with tag 4095 that node 8 answers with `p`; ring 15 executes a descriptor with OP `op`. -/
def answers (p : Packet) (q : LinkReq) (op : Nat) : State :=
  let s := arrives p ctx
  executing op 0x80 4 { s with svl := { s.svl with tags := [(4095, q)] } }

/-- A request of ring 15 that node 8 answers. -/
def ringReq (op sub : Nat) : LinkReq := { who := .ring 15, node := 8, op := op, sub := sub, va := 0x1000, len := 4 }

theorem test_response_hypotheses :
    tabFind 4095 (arrives (pkt 3 0 0 0 []) ctx).svl.tags = none ∧
    (let p := pkt 7 0 8 0 [1, 0, 0, 0, 0, 0, 0, 0]
     let s := answers p remoteWait 0
     tabFind 4095 s.svl.tags = some remoteWait ∧ remoteWait.node = p.src.toNat ∧ Arrived 7 p s ∧
      AnswersRing 7 p (ringReq 6 2) 15 { desc := ringDesc 0 0x80 4, phase := 3 } (answers p (ringReq 6 2) 0) ∧
      leNat (p.data.take 1) ≠ 0 ∧ ldBit (ringDesc 0 0x80 4) 9 = false) ∧
    (let p := pkt 8 0 4 0 [0, 0, 0, 0]
     let q := ringReq 1 1
     AnswersRing 8 p q 15 { desc := ringDesc 1 0x80 4, phase := 3 } (answers p q 1) ∧
      LastOfRing p 15 (answers p q 1) ∧ leNat (p.data.take 1) % 2 = 0 ∧ ldOp (ringDesc 1 0x80 4) = 1) := by
  unfold AnswersRing LastOfRing Arrived; decide +kernel

theorem test_error_response_hypotheses :
    (let p := pkt 8 0 4 0 [1, 0, 0x16, 0]
     AnswersRing 8 p (ringReq 1 1) 15 { desc := ringDesc 1 0x80 4, phase := 3 } (answers p (ringReq 1 1) 1) ∧
      leNat (p.data.take 1) % 2 = 1 ∧ isColl (ringDesc 1 0x80 4) = false) ∧
    (let p := pkt 9 0 4 0 [0, 0, 0x16, 0]
     AnswersRing 9 p (ringReq 2 0) 15 { desc := ringDesc 2 0x80 4, phase := 3 } (answers p (ringReq 2 0) 2) ∧
      Arrived 9 p (answers p remoteWait 0)) := by unfold AnswersRing Arrived; decide +kernel

theorem test_not_last_of_ring :
    let p := pkt 8 0 4 0 [0, 0, 0, 0]
    let s := answers p (ringReq 1 1) 1
    ¬ LastOfRing p 15 { s with svl := { s.svl with tags := [(4094, ringReq 1 1), (4095, ringReq 1 1)] } } := by
  unfold LastOfRing; decide +kernel

theorem test_data_response_hypotheses :
    (let p := pkt 3 0 4 0 [1, 2, 3, 4]
     let s := withRegs [(rk (pgSvl 0) 15 0x220, 3)] (arrives p ctx)
     let x : LinkRun := { desc := ringDesc 2 0x80 4, phase := 3, off := 4 }
     let s := { s with svl := { s.svl with tags := [(4095, ringReq 2 0)], rings := [(15, { run := some x })] } }
     AnswersRing 3 p (ringReq 2 0) 15 x s ∧ LastOfRing p 15 s ∧ ldOp x.desc + 1 = 3 ∧ ldLen x.desc ≤ x.off ∧
      (vaWriteAll rqLink (lrSlot 15 s) 0x1000 p.data (answered p s)).1.toOption = some ()) ∧
    (let p := pkt 5 0 4 0 [1, 2, 3, 4]
     let s := withRegs [(rk (pgSvl 0) 15 0x220, 3)] (answers p (ringReq 4 0) 3)
     AnswersRing 5 p (ringReq 4 0) 15 { desc := ringDesc 3 0x80 4, phase := 3 } s ∧ LastOfRing p 15 s ∧
      ldOp (ringDesc 3 0x80 4) + 1 = 4 ∧ (vaWriteAll rqLink (lrSlot 15 s) 0x1000 p.data (answered p s)).1.toOption = some ()) := by
  unfold AnswersRing LastOfRing Arrived; decide +kernel

/-- A packet of group 1 and CSEQ 5 from node 8; ring 15 runs that collective with OP `op` in a domain of dimension 4. -/
def collPkt (op : Nat) (data : List Byte) : Packet := pkt op 0 data.length 0x100000005 data
def collective (op : Nat) (p : Packet) (peers : List Nat) : State :=
  let s := withRegs [(rk (pgSvl 0) 15 0x220, 0x10003)] (arrives p ctx)
  { s with svl := { s.svl with
    rings := [(15, { run := some { desc := ringDesc op 0 4, phase := 3, cseq := 5 } })],
    coll := peers.map (fun m => { group := 1, cseq := 5, src := m, kind := 1 }) } }

theorem test_collective_packet_hypotheses :
    ((collPkt 11 []).arg.toNat / 2 ^ 32 % 2 ^ 8 = 1 ∧ (collPkt 11 []).arg.toNat % 2 ^ 32 = 5) ∧
    (∀ op ∈ [10, 11, 12], collRing 1 5 (arrives (collPkt op [0, 0, 0, 0]) ctx) = none ∧
      Arrived op (collPkt op [0, 0, 0, 0]) (arrives (collPkt op [0, 0, 0, 0]) ctx)) ∧
    (let s := arrives (collPkt 12 []) ctx
     ∀ q ∈ s.svl.inbox, q.src = (collPkt 12 []).src → vcOf q.op.toNat ≠ 0) ∧
    (let s := arrives (collPkt 12 []) ctx
     let s := { s with svl := { s.svl with inbox := [pkt 1 0 0 0 [], collPkt 12 []] } }
     Arrived 12 (collPkt 12 []) s ∧ ∃ q ∈ s.svl.inbox, q.src = (collPkt 12 []).src ∧ vcOf q.op.toNat = 0) ∧
    (leNat ([1, 0, 0, 0].take 4 : List Byte) % 16 ≠ 0 ∧ 2 ≤ 2 ^ domDim (arrives (collPkt 10 [1, 0, 0, 0]) ctx)) := by
  unfold Arrived; decide +kernel

theorem test_running_collective_hypotheses :
    (let s := collective 4 (collPkt 10 [0x11, 0, 0, 0]) []
     (collRing 1 5 s).map (fun e => (e.1, ldBit e.2.desc 10)) = some (15, false) ∧ Arrived 10 (collPkt 10 [0x11, 0, 0, 0]) s) ∧
    (let s := collective 7 (collPkt 11 []) [1, 2, 3, 4, 5, 6, 7, 9, 10, 11, 12, 13, 14, 15]
     (collRing 1 5 s).map (fun e => (e.1, ldOp e.2.desc)) = some (15, 7) ∧
      (∀ n < 2 ^ domDim s, n ≠ ownNode s → n = (collPkt 11 []).src.toNat ∨
        ∃ m ∈ s.svl.coll, m.group = 1 ∧ m.cseq = 5 ∧ m.kind = 1 ∧ m.src = n)) ∧
    (let s := collective 4 (collPkt 11 []) []
     (collRing 1 5 s).map (fun e => (e.1, ldOp e.2.desc)) = some (15, 4) ∧ Arrived 11 (collPkt 11 []) s) := by
  unfold Arrived; decide +kernel

/-! ## The link engine's rings -/

/-- Ring 15 of slot 3 in group 1, with descriptor `d` at 0x3000 as its only work; STATE `st`; fence 0 has generation 7 and `w` as
its first word. The node is node 0 of a domain of dimension `dim`. -/
def ring (d : List Word) (st dim : Nat) (w : Word) : State :=
  withRegs [(rk (pgSvl 0) 0 0x214, 15), (rk (pgSvl 0) 15 0x220, 0x12003), (rk (pgSvl 0) 15 0x218, 0x3000),
      (rk (pgSvl 0) 15 0x224, 1), (rk (pgSvl 0) 15 0x228, 0), (rk (pgSvl 0) 15 0x230, w32 st), (rk (pgSvl 0) 15 0x22C, 9)]
    (hbmUp (wordsAt 0x203000 d) (meshed 0 dim (object 1 w 1)))

/-- What the ring reads, and the conditions of `RingReads` and `RingExecutes`, to be evaluated. -/
def ringRead15 (s : State) : Except (AccErr × Nat) (List Byte) × State :=
  vaReadAll rqLink (lrSlot 15 s) (getPair (pgSvl 0) 15 0x218 s + 64 * (lrIndex 15 s % lrSize 15 s)) 64 .rd s
def ringReads (d : List Word) (s : State) : Bool :=
  !(dark (pgSvl 0) s) && lrState 15 s == 2 && (lringOf 15 s).run == none && lrWork 15 s &&
  (ringRead15 s).1.toOption.map (rowWords 4 16) == some d
def ringExecutes (op : Nat) (d : List Word) (s : State) : Bool :=
  let s1 := (ringRead15 s).2
  ringReads d s && ldOp d == op && !(ldBad 15 d s1) && !(ldBit d 8) && !(linkStopped (lrSlot 15 s1) s1)

theorem reads_of_ringReads {d : List Word} {s : State} (h : ringReads d s = true) : RingReads 15 d s (ringRead15 s).2 := by
  simp only [ringReads, Bool.and_eq_true, beq_iff_eq, Bool.not_eq_eq_eq_not, Bool.not_true] at h
  obtain ⟨⟨⟨⟨h1, h2⟩, h3⟩, h4⟩, h5⟩ := h
  refine ⟨h1, h2, h3, h4, ?_⟩
  cases hv : ringRead15 s with
  | mk r s' =>
    rw [hv] at h5
    cases r with
    | error e => simp [Except.toOption] at h5
    | ok bs => simp only [Except.toOption, Option.map_some, Option.some.injEq] at h5; exact ⟨bs, h5.symm, hv⟩

theorem executes_of_ringExecutes {op : Nat} {d : List Word} {s : State} (h : ringExecutes op d s = true) :
    RingExecutes 15 op d s (ringRead15 s).2 := by
  simp only [ringExecutes, Bool.and_eq_true, beq_iff_eq, Bool.not_eq_eq_eq_not, Bool.not_true] at h
  obtain ⟨⟨⟨⟨h1, h2⟩, h3⟩, h4⟩, h5⟩ := h
  exact ⟨reads_of_ringReads h1, h2, h3, h4, h5⟩

theorem test_ring_register_hypotheses :
    (let s := ring [] 1 0 1
     Heard .pf (pgSvl 0) 0x224 s = true ∧ Heard .pf (pgSvl 0) 0x238 s = true ∧ lrSel s = 15 ∧ lrState 15 s = 1 ∧
      lrLoop 15 s = false ∧ lrState 15 up = 0) ∧
    (let s := withRegs [(rk (pgSvl 0) 15 0x220, 0x13003)] (ring [] 3 0 1)
     lrState 15 s = 3 ∧ lrLoop 15 s = true ∧ lrLoop 15 (ring [] 3 0 1) = false) ∧
    (let s := ring [] 2 0 1
     let x : LinkRun := { desc := ringDesc 2 0x80 4, phase := 3 }
     let s := { s with svl := { s.svl with rings := [(15, { run := some x, timer := 9 })] } }
     lrState 15 s = 2 ∧ max 1 (getReg (pgSvl 0) 15 0x22C s).toNat ≤ (lringOf 15 s).timer ∧ (lringOf 15 s).run = some x ∧
      ldBit x.desc 10 = false) ∧
    (lringOf 15 (ring [] 2 0 1)).timer < max 1 (getReg (pgSvl 0) 15 0x22C (ring [] 2 0 1)).toNat := by decide +kernel

/-- A descriptor with WAIT_EN and SIG_EN as `d` has them, both on fence 0 with generation `gen`. -/
def fenceDesc (d : Nat) (gen : Word) : List Word := [w32 d, 0, 0, 0, 0, 0, 0, gen, 0, gen, 0, 0, 0, 0, 0, 0]

theorem test_ring_read_hypotheses :
    (lrState 15 (ring [] 1 0 1) ≠ 2 ∧
      (let s := withRegs [(rk (pgSvl 0) 15 0x224, 0)] (ring [] 2 0 1)
       (lringOf 15 s).run = none ∧ lrWork 15 s = false) ∧
      (let s := executing 2 0x80 4 (ring [] 2 0 1)
       (lringOf 15 s).run = some { desc := ringDesc 2 0x80 4, phase := 3 } ∧ ldOp (ringDesc 2 0x80 4) ≠ 0)) ∧
    (let s := withRegs [(rk (pgSvl 0) 15 0x218, 0x600000)] (ring [] 2 0 1)
     dark (pgSvl 0) s = false ∧ lrState 15 s = 2 ∧ (lringOf 15 s).run = none ∧ lrWork 15 s = true ∧
      (ringRead15 s).1.toOption = none) ∧
    (∀ d ∈ [ringDesc 8 0 0, ringDesc 9 0 0, ringDesc 0 65536 0, fenceDesc 256 7, fenceDesc 256 6], ringReads d (ring d 2 0 1) = true) ∧
    ldBad 15 (ringDesc 9 0 0) up = true ∧ ldBad 15 (ringDesc 0 65536 0) up = true ∧ ldBit (ringDesc 0 65536 0) 10 = false := by
  decide +kernel

/-- Ring 15's look at fence 0. -/
def ringLook (s : State) : Option (Nat × Nat) × State := nameFails 0 ⟨lrSlot 15 s, 0, 0, true⟩ 0 s

theorem test_ring_wait_hypotheses :
    (let d := fenceDesc 256 7
     let s1 := (ringRead15 (ring d 2 0 1)).2
     let s2 := (ringLook s1).2
     ldOp d = 0 ∧ ldBad 15 d s1 = false ∧ ldBit d 8 = true ∧ ldBit d 9 = false ∧ ldBit d 10 = false ∧
      fenceNode (nth 0 d 6) s1 = none ∧ fenceIdx (nth 0 d 6) = 0 ∧ (slotOf (lrSlot 15 s1) s1).func = 0 ∧
      (ringLook s1).1 = none ∧ mayName 0 0 7 s2 = true ∧ mayName 0 0 6 s2 = false ∧ (fenceGet 0 s2).signalled = false ∧
      (ringLook (badUnit 0x800000 s1)).1.isSome = true) ∧
    (let s1 := (ringRead15 (ring (fenceDesc 256 7) 2 0 0x103)).2
     let s2 := (ringLook s1).2
     (ringLook s1).1 = none ∧ mayName 0 0 7 s2 = true ∧ (fenceGet 0 s2).signalled = true ∧ (fenceGet 0 s2).status ≠ 0) := by
  decide +kernel

theorem test_ring_nop_hypotheses :
    ringExecutes 0 (ringDesc 0 0 0) (ring (ringDesc 0 0 0) 2 0 1) = true ∧ ldBit (ringDesc 0 0 0) 10 = false ∧
    (let d := fenceDesc 1024 7
     let s1 := (ringRead15 (ring d 2 0 1)).2
     let s2 := (ringLook s1).2
     ringExecutes 0 d (ring d 2 0 1) = true ∧ ldBit d 10 = true ∧ fenceNode (nth 0 d 8) s1 = none ∧
      fenceIdx (nth 0 d 8) = 0 ∧ (slotOf (lrSlot 15 s1) s1).func = 0 ∧ (ringLook s1).1 = none ∧ NoFenceInjection s2 ∧
      s2.fnc.waits = [] ∧ maySignal 0 0 7 s2 = true ∧ (fenceGet 0 s2).signalled = false) := by
  unfold NoFenceInjection NoInjection; decide +kernel

/-- Transfers with node 8 as their peer, in a domain of 16; `at15` is the state in which one executes. -/
def at15 (d : List Word) (dim : Nat) : State := (ringRead15 (ring d 2 dim 1)).2

theorem test_ring_transfer_hypotheses :
    (∀ op < 4, 1 ≤ op → ∀ n ∈ [0, 4], op < 3 ∨ n = 4 → ringExecutes op (ringDesc op 0x80 n) (ring (ringDesc op 0x80 n) 2 4 1) = true) ∧
    (let d := ringDesc 1 0x80 4
     let s1 := at15 d 4
     reachable (ldNode d) s1 = true ∧ ldLen d ≤ pageLeft (ldDst d) ∧ ldLen d ≤ pageLeft (ldSrc d) ∧ tagFree s1 = true ∧
      ldBit d 10 = false ∧ (vaReadAll rqLink (lrSlot 15 s1) (ldSrc d) (ldLen d) .rd s1).1.toOption = some [0, 0, 0, 0]) ∧
    (let s := withRegs [(rk (pgSvl 0) 0 0x208, 0)] (ring (ringDesc 3 0x80 4) 2 4 1)
     ringExecutes 3 (ringDesc 3 0x80 4) s = true ∧ reachable 8 (ringRead15 s).2 = false) := by decide +kernel

theorem test_collective_hypotheses :
    (∀ op < 9, 4 ≤ op → ringExecutes op (ringDesc op 0 4) (ring (ringDesc op 0 4) 2 4 1) = true ∧
      ringExecutes op (ringDesc op 0 4) (ring (ringDesc op 0 4) 2 0 1) = true) ∧
    (let s1 := at15 (ringDesc 7 0 4) 4
     s1.svl.aborts = [] ∧ s1.svl.coll = [] ∧ (∀ m < 2 ^ domDim s1, reachable m s1 = true) ∧ 0 < domDim s1 ∧ ownNode s1 = 0 ∧
      domDim (at15 (ringDesc 7 0 4) 0) = 0) ∧
    (let s := withRegs [(rk (pgSvl 0) 0 0x208, 0)] (ring (ringDesc 7 0 4) 2 4 1)
     ringExecutes 7 (ringDesc 7 0 4) s = true ∧ 8 < 2 ^ domDim (ringRead15 s).2 ∧ reachable 8 (ringRead15 s).2 = false) ∧
    (let s := ring (ringDesc 7 0 4) 2 4 1
     let s := { s with svl := { s.svl with aborts := [(1, 0, 2)] } }
     let s1 := (ringRead15 s).2
     ringExecutes 7 (ringDesc 7 0 4) s = true ∧ s1.svl.aborts = [(1, 0, 2)] ∧ lrGroup 15 s1 = 1 ∧ (lringOf 15 s1).cseq = 0) ∧
    (let s1 := at15 (ringDesc 6 0x10 4) 4
     ldNode (ringDesc 6 0x10 4) ≠ ownNode s1 ∧ ldNode (ringDesc 6 0 4) = ownNode (at15 (ringDesc 6 0 4) 4)) := by
  decide +kernel

theorem test_collective_output_hypotheses :
    (∀ op ∈ [4, 5, 6], ∀ dim ∈ [0, 4],
      (let d := ringDesc op 0 4
       let s1 := at15 d dim
       let r := vaReadAll rqLink (lrSlot 15 s1) (ldSrc d) (ldLen d) .rd s1
       r.1.toOption = some [0, 0, 0, 0] ∧ (vaWriteAll rqLink (lrSlot 15 r.2) (ldDst d) [0, 0, 0, 0] r.2).1.toOption = some ())) ∧
    (let d := ringDesc 4 0 4
     let s := ring d 2 1 1
     let m : CollMsg := ⟨1, 0, 1, 0, 0, collSig d, 0, [0, 0, 0x80, 0x3F]⟩
     let s := { s with svl := { s.svl with coll := [m] } }
     let s1 := (ringRead15 s).2
     ringExecutes 4 d s = true ∧ domDim s1 = 1 ∧ ownNode s1 ≤ 1 ∧ reachable (ownNode s1 ^^^ 1) s1 = true ∧ s1.svl.aborts = [] ∧
      ldBit d 10 = false ∧ s1.svl.coll = [⟨lrGroup 15 s1, (lringOf 15 s1).cseq, ownNode s1 ^^^ 1, 0, 0, collSig d, 0, m.data⟩] ∧
      (vaReadAll rqLink (lrSlot 15 s1) (ldSrc d) (ldLen d) .rd s1).1.toOption = some [0, 0, 0, 0] ∧
      m.data.length = 4 * (rowWords 4 1 [0, 0, 0, 0]).length) := by decide +kernel

end Sys2Proof.Tests
end

/-!
PROOFS. The register space and the resets of 00_scope.md. First what a step leaves alone, which registers are pairs, what a read
and a write of a register are on the bus, and what a write makes of a field; then the statements.
-/
namespace Sys2Proof.Machine
open Sys2Proof.Claims

/-! ## Steps that change registers only -/

/-- `t` differs from `s` at most in the registers of `R`. -/
def AltersRegs (R : Nat → Prop) (s t : State) : Prop := OtherRegs R s t ∧ t = { s with regs := t.regs }

theorem AltersRegs.refl (R : Nat → Prop) (s : State) : AltersRegs R s s := ⟨fun _ _ => rfl, rfl⟩

theorem AltersRegs.trans {R : Nat → Prop} {s t u : State} (h : AltersRegs R s t) (h' : AltersRegs R t u) :
    AltersRegs R s u := by
  obtain ⟨ho, hs⟩ := h
  obtain ⟨ho', hs'⟩ := h'
  exact ⟨fun k hk => (ho' k hk).trans (ho k hk), by rw [hs', hs]⟩

theorem AltersRegs.foldl {α : Type} {R : Nat → Prop} {f : State → α → State} :
    ∀ {l : List α} (s : State), (∀ a ∈ l, ∀ s, AltersRegs R s (f s a)) → AltersRegs R s (l.foldl f s)
  | [], s, _ => .refl R s
  | a :: l, s, h => (h a (by simp) s).trans (AltersRegs.foldl (f s a) fun b hb => h b (by simp [hb]))

theorem altersRegs_setReg {R : Nat → Prop} {pg bank off : Nat} (h : R (rk pg bank off)) (v : Word) (s : State) :
    AltersRegs R s (setReg pg bank off v s) :=
  ⟨fun _ hk => tabFind_set_ne (by rintro rfl; exact hk h) _ _, rfl⟩

theorem altersRegs_setFld {R : Nat → Prop} {pg bank off : Nat} (h : R (rk pg bank off)) (lo n v : Nat) (s : State) :
    AltersRegs R s (setFld pg bank off lo n v s) := altersRegs_setReg h _ s

theorem altersRegs_addFld {R : Nat → Prop} {pg bank off : Nat} (h : R (rk pg bank off)) (lo n k : Nat) (s : State) :
    AltersRegs R s (addFld pg bank off lo n k s) := altersRegs_setReg h _ s

theorem altersRegs_writeByType {R : Nat → Prop} {pg bank off : Nat} (h : R (rk pg bank off)) (v : Word) (s : State) :
    AltersRegs R s (writeByType pg bank off v s) := altersRegs_setReg h _ s

theorem AltersRegs.regsOnly {R : Nat → Prop} {s t : State} (h : AltersRegs R s t) : RegsOnly s (tidyMem t) :=
  congrArg tidyMem h.2

theorem AltersRegs.lat {R : Nat → Prop} {s t : State} (h : AltersRegs R s t) : t.lat = s.lat := by rw [h.2]

theorem AltersRegs.out {R : Nat → Prop} {s t : State} (h : AltersRegs R s t) : t.out = s.out := by rw [h.2]

/-- A state that holds the memories of `s`, and the units that say what an unlisted byte reads as, reads as `s` does. -/
theorem sameBytes_tidyMem_of_eq {s t : State} (hm : t.mem = s.mem) (hh : t.hbc = s.hbc) (ha : t.aon = s.aon) :
    SameBytes s (tidyMem t) := by
  obtain ⟨h1, h2, h3, h4, h5, h6⟩ := sameBytes_tidyMem t
  refine ⟨fun a n => (h1 a n).trans ?_, fun a n => (h2 a n).trans ?_, fun a n => (h3 a n).trans ?_,
    fun a n => (h4 a n).trans ?_, fun a => (h5 a).trans ?_, fun a => (h6 a).trans ?_⟩ <;>
  simp only [hbmBytes, hostBytes, flashBytes, aonBytes, hm, hh, ha]

theorem AltersRegs.sameBytes {R : Nat → Prop} {s t : State} (h : AltersRegs R s t) : SameBytes s (tidyMem t) := by
  obtain ⟨-, h⟩ := h
  exact sameBytes_tidyMem_of_eq (by rw [h]) (by rw [h]) (by rw [h])

theorem AltersRegs.sameBytes_emit {R : Nat → Prop} {s t : State} (h : AltersRegs R s t) (e : OutEvent) :
    SameBytes s (tidyMem (emit e t)) := by
  obtain ⟨-, h⟩ := h
  exact sameBytes_tidyMem_of_eq (by rw [h]; rfl) (by rw [h]; rfl) (by rw [h]; rfl)

/-! ## Counters and fields -/

theorem fld_whole (w : Word) : fld w 0 32 = w.toNat := by
  have := w.isLt
  simp only [fld]; omega

/-- A counter of 32 bits saturates. -/
theorem getReg_addFld_whole (pg bank off k : Nat) (s : State) :
    (getReg pg bank off (addFld pg bank off 0 32 k s)).toNat = min (2 ^ 32 - 1) ((getReg pg bank off s).toNat + k) := by
  have h : getFld pg bank off 0 32 (addFld pg bank off 0 32 k s) = _ := getFld_setFld_self pg bank off 0 32 _ (by omega) s
  rw [getFld, fld_whole] at h
  rw [h, getFld, fld_whole, satAdd]
  split <;> omega

/-- Words that agree on the bits of a field have the same value there. -/
theorem fld_congr {a b : Word} {lo n : Nat} (h : ∀ k, lo ≤ k → k < lo + n → bit a k = bit b k) : fld a lo n = fld b lo n := by
  apply Nat.eq_of_testBit_eq
  intro j
  rw [fld_testBit, fld_testBit]
  by_cases hj : j < n
  · rw [h _ (by omega) (by omega)]
  · simp [hj]

theorem bit_of_ge (w : Word) {k : Nat} (h : 32 ≤ k) : bit w k = false := BitVec.getLsbD_of_ge w k h

theorem bit_not (a : Word) {k : Nat} (h : k < 32) : bit (~~~a) k = !bit a k := by simp [bit, h]

/-- A field of one bit that is set to `b` reads `b`. -/
theorem bit_setFld_self (pg bank off : Nat) {lo : Nat} (h : lo < 32) (b : Bool) (s : State) :
    bit (getReg pg bank off (setFld pg bank off lo 1 (b2n b) s)) lo = b := by
  rw [setFld, getReg_setReg_self, bit_putFld _ _ _ _ _ h, if_pos (by omega), Nat.sub_self]
  cases b <;> rfl

/-- The other bits of a register are as they were. -/
theorem bit_setFld_ne (pg bank off lo n v : Nat) {k : Nat} (h : k < lo ∨ lo + n ≤ k) (s : State) :
    bit (getReg pg bank off (setFld pg bank off lo n v s)) k = bit (getReg pg bank off s) k := by
  rw [setFld, getReg_setReg_self]
  by_cases hk : k < 32
  · rw [bit_putFld _ _ _ _ _ hk, if_neg (by omega)]
  · rw [bit_of_ge _ (by omega), bit_of_ge _ (by omega)]

/-! ## The pairs of R8 -/

/-- Page and offset of each _LO register of `isPairLo`. -/
def pairLos : List (Nat × Nat) :=
  [(pgPwr, 0x130), (pgPwr, 0x138), (pgMmu, 0x10C), (pgMmu, 0x138), (pgFe, 0x108), (pgFe, 0x118), (pgFnc, 0x100), (pgFnc, 0x120),
    (pgLvn, 0x108), (pgLvn, 0x110), (pgRst, 0x118), (pgSec, 0x110), (pgSec, 0x118), (pgAtt, 0x0), (pgHcx, 0x108),
    (pgSvl 0, 0x20C), (pgSvl 0, 0x218), (pgFn, 0x104)]

theorem isPairLo_iff_mem {pg off : Nat} : isPairLo pg off = true ↔ (pg, off) ∈ pairLos := by
  simp [isPairLo, pairLos, and_or_left, or_assoc]

/-- What holds of every entry of `pairLos` holds of every _LO register. -/
theorem forall_isPairLo (P : Nat → Nat → Prop) (h : ∀ e ∈ pairLos, P e.1 e.2) {pg off : Nat}
    (hp : isPairLo pg off = true) : P pg off := h (pg, off) (isPairLo_iff_mem.1 hp)

theorem isPairHi_of_isPairLo {pg off : Nat} (h : isPairLo pg off = true) : isPairHi pg off = false :=
  forall_isPairLo (fun pg off => isPairHi pg off = false) (by decide) h

theorem isPairLo_add_four {pg off : Nat} (h : isPairLo pg off = true) : isPairLo pg (off + 4) = false :=
  forall_isPairLo (fun pg off => isPairLo pg (off + 4) = false) (by decide) h

theorem isPairHi_add_four (pg off : Nat) : isPairHi pg (off + 4) = isPairLo pg off := by simp [isPairHi]

theorem exists_lo_of_isPairHi {pg off : Nat} (h : isPairHi pg off = true) : ∃ o, off = o + 4 ∧ isPairLo pg o = true := by
  simp only [isPairHi, Bool.and_eq_true, decide_eq_true_eq] at h
  exact ⟨off - 4, by omega, h.2⟩

/-- The pages that hold register pairs. -/
def pairPages : List Nat := [pgPwr, pgSec, pgRst, pgFe, pgMmu, pgLvn, pgFnc, pgSvl 0, pgHcx, pgFn, pgAtt]

theorem not_pair_of_page {pg : Nat} (h : pg ∉ pairPages) (off : Nat) : isPairLo pg off = false ∧ isPairHi pg off = false := by
  have key (o : Nat) : isPairLo pg o = false :=
    Bool.eq_false_iff.2 fun hl => h (forall_isPairLo (fun pg _ => pg ∈ pairPages) (by decide) hl)
  exact ⟨key off, by simp [isPairHi, key]⟩

/-! ## The bus (R6, R442, R444) -/

theorem reaches_iff {r : Requester} {off : Word} {pg bank o : Nat} {s : State} : Reaches r off pg bank o s = true ↔
    reqServed r s = true ∧ regular off.toNat 4 = true ∧ resolve r off.toNat s = .reg pg bank o ∧ darkAt pg o s = false := by
  simp [Reaches, and_assoc]

theorem heard_iff {r : Requester} {pg off : Nat} {s : State} : Heard r pg off s = true ↔
    reachesBlocks r = true ∧ reqServed r s = true ∧ darkAt pg off s = false := by
  simp [Heard, and_assoc]

theorem readRow_reg {r : Requester} {off : Word} {pg bank o : Nat} {s : State} (hs : reqServed r s = true)
    (hr : regular off.toNat 4 = true) (ht : resolve r off.toNat s = .reg pg bank o) :
    readRow r off 4 s = emit (.regData r off (regRead r pg bank o s).1) (regRead r pg bank o s).2 := by
  simp [readRow, busRead, hs, hr, ht]

theorem writeRow_reg {r : Requester} {off : Word} {pg bank o : Nat} {s : State} (hs : reqServed r s = true)
    (hr : regular off.toNat 4 = true) (ht : resolve r off.toNat s = .reg pg bank o) (v : Word) :
    writeRow r off 4 v s = regBusWrite r pg bank o v s := by
  simp [writeRow, busWrite, hs, hr, ht]

/-- REGISTER_WRITE is a bus write wherever it does not lead to the control register of the host mailbox port. -/
theorem registerWrite_reg {r : Requester} {off : Word} {pg bank o : Nat} {s : State} (hs : reqServed r s = true)
    (hr : regular off.toNat 4 = true) (ht : resolve r off.toNat s = .reg pg bank o) (hp : pg ≠ pgMb) (v : Word) :
    registerWrite r off 4 v s = regBusWrite r pg bank o v s := by
  rw [registerWrite, ← writeRow_reg hs hr ht]
  simp [isMbGo, ht, hp]

theorem busRead_irregular {r : Requester} {off size : Nat} {s : State} (hr : regular off size = false)
    (hp : inPage r off = true) (hb : ∀ o, resolve r off s ≠ .bulk o) : busRead r off size s = (0, countIrregular s) := by
  unfold busRead
  split
  case h_1 o ho => exact absurd ho (hb o)
  case h_2 => simp [hr, hp]

theorem busWrite_irregular {r : Requester} {off size : Nat} {s : State} (hr : regular off size = false)
    (hp : inPage r off = true) (hb : ∀ o, resolve r off s ≠ .bulk o) (v : Word) : busWrite r off size v s = countIrregular s := by
  unfold busWrite
  split
  case h_1 o ho => exact absurd ho (hb o)
  case h_2 => simp [hr, hp]

/-! ## The rows of the register space -/

theorem exec_registerWrite (r : Requester) (off : Word) (size : Nat) (v : Word) (s : State) :
    exec (.registerWrite r off size v) s = .next (tidyMem (registerWrite r off size v s)) := rfl

theorem exec_pairLoRead (r : Requester) (sp : RegSpan) (s : State) :
    exec (.pairLoRead r sp) s = .next (tidyMem (readRow r sp.addr sp.size s)) := rfl

theorem exec_rcRead (r : Requester) (sp : RegSpan) (s : State) :
    exec (.rcRead r sp) s = .next (tidyMem (readRow r sp.addr sp.size s)) := rfl

theorem exec_pairLoWrite (r : Requester) (off v : Word) (s : State) :
    exec (.pairLoWrite r off v) s = .next (tidyMem (writeRow r off 4 v s)) := rfl

theorem exec_pairHiWrite (r : Requester) (off v : Word) (s : State) :
    exec (.pairHiWrite r off v) s = .next (tidyMem (writeRow r off 4 v s)) := rfl

theorem exec_budSeqRead (r : Requester) (s : State) :
    exec (.budSeqRead r) s = .next (tidyMem (if reachesBlocks r then readRow r 0x21A0#32 4 s else s)) := rfl

theorem exec_attStsRead (r : Requester) (b : AttBlock) (s : State) :
    exec (.attStsRead r b) s = .next (tidyMem (if reachesAtt r b then readRow r (attStsOff r b) 4 s else s)) := rfl

theorem exec_lockSet (r : Requester) (page : Fin 146) (s : State) :
    exec (.lockSet r page) s = .next (tidyMem (blockWrite r page.val 0x008 (fun s => lockPage s page.val) s)) := rfl

theorem exec_lockAll (r : Requester) (v : Word) (s : State) :
    exec (.lockAll r v) s = .next (tidyMem (if bit v 31 then blockWrite r pgGlb 0x180 (lockAllWrite v) s else s)) := rfl

theorem exec_irqForce (r : Requester) (page : Fin 146) (v : Word) (s : State) :
    exec (.irqForce r page v) s = .next (tidyMem (blockWrite r page.val 0x01C (setPend page.val v) s)) := rfl

theorem exec_sysRstNAssert (s : State) : exec .sysRstNAssert s = .next (tidyMem (coldReset s)) := rfl

theorem exec_sysRstNDeassert (mode : Bool) (s : State) :
    exec (.sysRstNDeassert mode) s = .next (tidyMem (coldRelease mode s)) := rfl

/-- A 32-bit read that reaches a register answers what the register reads as. -/
theorem readRow_reaches {r : Requester} {off : Word} {pg bank o : Nat} {s : State} (h : Reaches r off pg bank o s = true) :
    readRow r off 4 s = emit (.regData r off (regRead r pg bank o s).1) (regRead r pg bank o s).2 := by
  obtain ⟨hs, hr, ht, -⟩ := reaches_iff.1 h
  exact readRow_reg hs hr ht

theorem writeRow_reaches {r : Requester} {off : Word} {pg bank o : Nat} {s : State} (h : Reaches r off pg bank o s = true)
    (v : Word) : writeRow r off 4 v s = regBusWrite r pg bank o v s := by
  obtain ⟨hs, hr, ht, -⟩ := reaches_iff.1 h
  exact writeRow_reg hs hr ht v

theorem rcRead_reaches {r : Requester} {off : Word} {pg bank o : Nat} {s : State} (h : Reaches r off pg bank o s = true) :
    exec (.rcRead r ⟨off, 4⟩) s =
      .next (tidyMem (emit (.regData r off (regRead r pg bank o s).1) (regRead r pg bank o s).2)) := by
  rw [exec_rcRead, readRow_reaches h]

/-! ## A read of a register (R8, R9) -/

/-- No field of the register clears on a read. -/
abbrev NoRc (pg off : Nat) : Prop := accBits (fun a => a == .rc) pg off = 0

theorem noRc_pairLo {pg off : Nat} (h : isPairLo pg off = true) : NoRc pg off :=
  forall_isPairLo NoRc (by decide) h

theorem noRc_pairHi {pg off : Nat} (h : isPairHi pg off = true) : NoRc pg off := by
  obtain ⟨o, rfl, hl⟩ := exists_lo_of_isPairHi h
  exact forall_isPairLo (fun pg o => NoRc pg (o + 4)) (by decide) hl

theorem noRc_budget {pg off : Nat} (h : isBudget pg off = true) : NoRc pg off := by
  have key : ∀ i < 0x4C, NoRc pgPwr (0x1A4 + i) := by decide
  simp only [isBudget, Bool.and_eq_true, beq_iff_eq, decide_eq_true_eq] at h
  obtain ⟨⟨rfl, h1⟩, h2⟩ := h
  rw [show off = 0x1A4 + (off - 0x1A4) by omega]
  exact key _ (by omega)

/-- TIMER_POS, whose read takes a free value, is half of no pair. -/
theorem not_timerPos_of_pair {pg off : Nat} (h : isPairLo pg off = true ∨ isPairHi pg off = true) :
    ¬(pg = pgCmp ∧ off = 0x124) := by
  rintro ⟨rfl, rfl⟩
  exact absurd h (by decide)

theorem regRead_pairLo {pg off : Nat} (r : Requester) {bank : Nat} {s : State} (hd : darkAt pg off s = false)
    (hp : isPairLo pg off = true) : regRead r pg bank off s = (liveVal pg bank off s, latchHi r pg bank off s) := by
  simp [regRead, hd, not_timerPos_of_pair (.inl hp), hp, isPairHi_of_isPairLo hp]

/-- A _HI read that finds a latched value uses it up. -/
theorem regRead_pairHi_latched {pg off : Nat} {r : Requester} {bank : Nat} {s : State} {v : Word} (hd : darkAt pg off s = false)
    (hp : isPairHi pg off = true) (hv : tabFind (regLatch r pg bank off) s.lat.hi = some v) :
    regRead r pg bank off s = (v, { s with lat := { s.lat with hi := tabDel (regLatch r pg bank off) s.lat.hi } }) := by
  simp [regRead, hd, not_timerPos_of_pair (.inr hp), hp, hv]

theorem regRead_pairHi_live {pg off : Nat} {r : Requester} {bank : Nat} {s : State} (hd : darkAt pg off s = false)
    (hp : isPairHi pg off = true) (hv : tabFind (regLatch r pg bank off) s.lat.hi = none) :
    regRead r pg bank off s = (liveVal pg bank off s, s) := by
  simp [regRead, hd, not_timerPos_of_pair (.inr hp), hp, hv]

/-- A register with an RC field is none of those whose read has another effect. -/
theorem regRead_rc {pg off : Nat} (r : Requester) {bank : Nat} {s : State} (hd : darkAt pg off s = false)
    (hrc : accBits (fun a => a == .rc) pg off ≠ 0) :
    regRead r pg bank off s = (liveVal pg bank off s, clearRc pg bank off s) := by
  have hlo : isPairLo pg off = false := Bool.eq_false_iff.2 fun h => hrc (noRc_pairLo h)
  have hhi : isPairHi pg off = false := Bool.eq_false_iff.2 fun h => hrc (noRc_pairHi h)
  have hb : isBudget pg off = false := Bool.eq_false_iff.2 fun h => hrc (noRc_budget h)
  have hc : ¬(pg = pgCmp ∧ off = 0x124) := by rintro ⟨rfl, rfl⟩; exact hrc (by decide)
  have hq : ¬(pg = pgPwr ∧ off = 0x1A0) := by rintro ⟨rfl, rfl⟩; exact hrc (by decide)
  have ha : ¬(pg = pgAtt ∧ off = 0xC) := by rintro ⟨rfl, rfl⟩; exact hrc (by decide)
  simp [regRead, hd, hlo, hhi, hb, hc, hq, ha]

theorem regRead_budSeq (r : Requester) {bank : Nat} {s : State} (hd : darkAt pgPwr 0x1A0 s = false) :
    regRead r pgPwr bank 0x1A0 s = (liveVal pgPwr bank 0x1A0 s, latchBudget r s) := by
  have hhi : isPairHi pgPwr 0x1A0 = false := by decide
  have hlo : isPairLo pgPwr 0x1A0 = false := by decide
  have hb : isBudget pgPwr 0x1A0 = false := by decide
  simp [regRead, hd, hlo, hhi, hb]

theorem regRead_attSts (r : Requester) {bank : Nat} {s : State} (hd : darkAt pgAtt 0xC s = false) :
    regRead r pgAtt bank 0xC s = (liveVal pgAtt bank 0xC s, attRead bank s) := by
  have hhi : isPairHi pgAtt 0xC = false := by decide
  have hlo : isPairLo pgAtt 0xC = false := by decide
  have hb : isBudget pgAtt 0xC = false := by decide
  simp [regRead, hd, hlo, hhi, hb]

theorem altersRegs_clearRc {R : Nat → Prop} {pg bank off : Nat} (h : R (rk pg bank off)) (s : State) :
    AltersRegs R s (clearRc pg bank off s) := by
  simp only [clearRc]
  split
  · exact .refl R s
  · exact altersRegs_setReg h _ s

theorem getReg_clearRc (pg bank off : Nat) (s : State) : getReg pg bank off (clearRc pg bank off s) =
    getReg pg bank off s &&& ~~~ (accBits (fun a => a == .rc) pg off) := by
  simp only [clearRc]
  split
  · next h => rw [h, show ~~~(0 : Word) = BitVec.allOnes 32 from rfl, BitVec.and_allOnes]
  · exact getReg_setReg_self _ _ _ _ s

theorem altersRegs_attRead {R : Nat → Prop} {b : Nat} (h : R (rk pgAtt b 0xC)) (s : State) : AltersRegs R s (attRead b s) := by
  unfold attRead
  split
  · exact .refl R s
  · exact altersRegs_setFld h _ _ _ s

theorem getFld_attRead (b : Nat) (s : State) :
    getFld pgAtt b 0xC 0 3 (attRead b s) = if getFld pgAtt b 0xC 0 3 s = 1 then 1 else 0 := by
  unfold attRead
  split
  · assumption
  · simp

/-- Of several entries set under keys that differ, each is found. -/
theorem tabFind_foldl_tabSet {α β : Type} (key : β → Nat) (val : β → α) {i : β} (hinj : ∀ j, key j = key i → j = i) :
    ∀ (l : List β) (t : Tab α), i ∈ l ∨ tabFind (key i) t = some (val i) →
      tabFind (key i) (l.foldl (fun t j => tabSet (key j) (val j) t) t) = some (val i)
  | [], _, h => by simpa using h
  | j :: l, t, h => by
    refine tabFind_foldl_tabSet key val hinj l _ ?_
    by_cases hj : key j = key i
    · rw [hinj j hj]
      exact .inr (tabFind_set_self _ _ _)
    · rw [tabFind_set_ne (Ne.symm hj)]
      refine h.imp_left fun hm => ?_
      rcases List.mem_cons.1 hm with rfl | hm
      · exact absurd rfl hj
      · exact hm

@[simp] theorem latchBudget_regs (r : Requester) (s : State) : (latchBudget r s).regs = s.regs := by simp only [latchBudget]
@[simp] theorem latchBudget_out (r : Requester) (s : State) : (latchBudget r s).out = s.out := by simp only [latchBudget]
@[simp] theorem latchBudget_mem (r : Requester) (s : State) : (latchBudget r s).mem = s.mem := by simp only [latchBudget]
@[simp] theorem latchBudget_hbc (r : Requester) (s : State) : (latchBudget r s).hbc = s.hbc := by simp only [latchBudget]
@[simp] theorem latchBudget_aon (r : Requester) (s : State) : (latchBudget r s).aon = s.aon := by simp only [latchBudget]

theorem latchBudget_bud (r : Requester) (s : State) : (latchBudget r s).lat.bud =
    (List.range 19).foldl (fun t i => tabSet (budKey r (0x1A4 + 4 * i)) (liveVal pgPwr 0 (0x1A4 + 4 * i) s) t) s.lat.bud := by
  simp only [latchBudget]

/-- A read of BUD_SEQ latches each of the 19 budget registers. -/
theorem tabFind_latchBudget (r : Requester) (s : State) {i : Nat} (hi : i < 19) :
    tabFind (budKey r (0x1A4 + 4 * i)) (latchBudget r s).lat.bud = some (liveVal pgPwr 0 (0x1A4 + 4 * i) s) := by
  have hinj : ∀ j, budKey r (0x1A4 + 4 * j) = budKey r (0x1A4 + 4 * i) → j = i := by simp only [budKey]; omega
  rw [latchBudget_bud]
  exact tabFind_foldl_tabSet (fun i => budKey r (0x1A4 + 4 * i)) (fun i => liveVal pgPwr 0 (0x1A4 + 4 * i) s) hinj _ _
    (.inl (List.mem_range.2 hi))

/-! ## A write of a register (R8, R444) -/

theorem regBusWrite_pairLo {pg off : Nat} (h : isPairLo pg off = true) (r : Requester) (bank : Nat) (v : Word) (s : State) :
    regBusWrite r pg bank off v s = holdLo r pg bank off v s := by
  simp [regBusWrite, h]

theorem regBusWrite_pairHi {pg o : Nat} (h : isPairLo pg o = true) (r : Requester) (bank : Nat) (v : Word) (s : State) :
    regBusWrite r pg bank (o + 4) v s = pairWrite r pg bank (o + 4) v s := by
  simp [regBusWrite, h, isPairLo_add_four h, isPairHi_add_four]

/-- A dark register other than a _LO register takes no write: what is left is the count, and the held _LO write dropped. -/
theorem regBusWrite_dark {pg off : Nat} {s : State} (hd : darkAt pg off s = true) (hlo : isPairLo pg off = false) (r : Requester)
    (bank : Nat) (v : Word) : regBusWrite r pg bank off v s =
      if isPairHi pg off then
        gatedWrites (1 + (tabFind (regLatch r pg bank (off - 4)) s.lat.lo).toList.length) (dropLo r pg bank (off - 4) s)
      else gatedWrites 1 s := by
  have hd' : darkAt pg off (dropLo r pg bank (off - 4) s) = true := hd
  simp [regBusWrite, pairWrite, hlo, hd, hd']

/-- A _HI write with a held _LO write: neither half where the pair is fixed, else both. -/
theorem pairWrite_held {r : Requester} {pg bank o : Nat} {s : State} {w : Word} (hd : darkAt pg (o + 4) s = false)
    (hw : tabFind (regLatch r pg bank o) s.lat.lo = some w) (v : Word) : pairWrite r pg bank (o + 4) v s =
      if pairFixed pg bank o s then dropLo r pg bank o s
      else writeByType pg bank (o + 4) v (writeByType pg bank o w (dropLo r pg bank o s)) := by
  have hd' : darkAt pg (o + 4) (dropLo r pg bank o s) = false := hd
  have hf : pairFixed pg bank o (dropLo r pg bank o s) = pairFixed pg bank o s := rfl
  simp [pairWrite, hw, hd', hf]

/-- What a write by the access types leaves depends on the register itself and on the page's LOCK. -/
theorem getReg_writeByType_congr {pg bank off : Nat} {s t : State} (hr : getReg pg bank off t = getReg pg bank off s)
    (hl : locked pg t = locked pg s) (v : Word) :
    getReg pg bank off (writeByType pg bank off v t) = getReg pg bank off (writeByType pg bank off v s) := by
  simp [writeByType, hr, hl]

theorem getReg_writeByType_ne {pg bank off pg' bank' off' : Nat} (h : rk pg bank off ≠ rk pg' bank' off') (v : Word)
    (s : State) : getReg pg bank off (writeByType pg' bank' off' v s) = getReg pg bank off s :=
  getReg_setReg_ne h _ _

/-- A write of a _LO register leaves LOCK of every page alone. -/
theorem locked_writeByType_pairLo {pg o : Nat} (h : isPairLo pg o = true) (pg' bank : Nat) (v : Word) (s : State) :
    locked pg' (writeByType pg bank o v s) = locked pg' s := by
  have ho : o % 65536 ≠ 8 := forall_isPairLo (fun _ o => o % 65536 ≠ 8) (by decide) h
  rw [locked, getReg_writeByType_ne (by simp only [rk]; omega)]
  rfl

/-! ## Discarded writes (R444, R6, R8) -/

/-- No register of a mailbox port is dark. -/
theorem page_ne_mb_of_dark {pg o : Nat} {s : State} (h : darkAt pg o s = true) : pg ≠ pgMb := by
  rintro rfl
  exact absurd h (by simp [darkAt, dark, pgMb])

theorem regular_of_aligned {off : Nat} (h : off % 4 = 0) : regular off 4 = true := by simp [regular, h]

/-- A discard of a write to a dark register counts the write, and with a _HI write the _LO write held for it. -/
theorem registerWrite_dark_counted (r : Requester) (off v : Word) (pg bank o : Nat) (s : State) (hs : reqServed r s = true)
    (ha : off.toNat % 4 = 0) (ht : resolve r off.toNat s = .reg pg bank o) (hd : darkAt pg o s = true)
    (hlo : isPairLo pg o = false) :
    ∃ t, exec (.registerWrite r off 4 v) s = .next t ∧
      (getReg pgGlb 0 0x10C t).toNat = min (2 ^ 32 - 1) ((getReg pgGlb 0 0x10C s).toNat +
        (if isPairHi pg o && (tabFind (regLatch r pg bank (o - 4)) s.lat.lo).isSome then 2 else 1)) ∧
      (isPairHi pg o = true → tabFind (regLatch r pg bank (o - 4)) t.lat.lo = none) ∧
      OtherRegs (fun k => k = rk pgGlb 0 0x10C) s t ∧ SameBytes s t ∧ t.out = s.out := by
  have hcount (n : Nat) (u : State) : AltersRegs (fun k => k = rk pgGlb 0 0x10C) u (gatedWrites n u) :=
    altersRegs_addFld (by rfl) 0 32 n u
  refine ⟨_, exec_registerWrite r off 4 v s, ?_⟩
  rw [registerWrite_reg hs (regular_of_aligned ha) ht (page_ne_mb_of_dark hd), regBusWrite_dark hd hlo, getReg_tidyMem]
  by_cases hhi : isPairHi pg o = true
  · have h := hcount (1 + (tabFind (regLatch r pg bank (o - 4)) s.lat.lo).toList.length) (dropLo r pg bank (o - 4) s)
    rw [if_pos hhi]
    refine ⟨?_, fun _ => tabFind_del_self _ _, h.1, h.sameBytes, h.out⟩
    rw [gatedWrites, getReg_addFld_whole]
    cases htab : tabFind (regLatch r pg bank (o - 4)) s.lat.lo <;> simp [hhi] <;> rfl
  · have h := hcount 1 s
    rw [if_neg hhi]
    refine ⟨?_, fun hhi' => absurd hhi' hhi, h.1, h.sameBytes, h.out⟩
    rw [gatedWrites, getReg_addFld_whole]
    simp [hhi]

/-- A _LO write is held, whatever the state of its page. -/
theorem pairLoWrite_held {r : Requester} {off : Word} (v : Word) {pg bank o : Nat} {s : State} (hs : reqServed r s = true)
    (hr : regular off.toNat 4 = true) (ht : resolve r off.toNat s = .reg pg bank o) (hlo : isPairLo pg o = true) :
    exec (.pairLoWrite r off v) s = .next (tidyMem (holdLo r pg bank o v s)) := by
  rw [exec_pairLoWrite, writeRow_reg hs hr ht, regBusWrite_pairLo hlo]

theorem sameBytes_holdLo (r : Requester) (pg bank o : Nat) (v : Word) (s : State) :
    SameBytes s (tidyMem (holdLo r pg bank o v s)) := sameBytes_tidyMem_of_eq rfl rfl rfl

/-- An access that R6 completes without effect is counted. -/
theorem altersRegs_countIrregular (s : State) : AltersRegs (fun k => k = rk pgGlb 0 0x184) s (countIrregular s) :=
  altersRegs_addFld (by rfl) 0 32 1 s

theorem getReg_countIrregular (s : State) :
    (getReg pgGlb 0 0x184 (countIrregular s)).toNat = min (2 ^ 32 - 1) ((getReg pgGlb 0 0x184 s).toNat + 1) :=
  getReg_addFld_whole pgGlb 0 0x184 1 s

theorem readRow_irregular {r : Requester} {off : Word} {size : Nat} {s : State} (hs : reqServed r s = true)
    (hr : regular off.toNat size = false) (hp : inPage r off.toNat = true) (hb : ∀ o, resolve r off.toNat s ≠ .bulk o) :
    readRow r off size s = emit (.regData r off 0) (countIrregular s) := by
  simp [readRow, hs, busRead_irregular hr hp hb]

theorem registerWrite_irregular {r : Requester} {off : Word} {size : Nat} {s : State} (hs : reqServed r s = true)
    (hr : regular off.toNat size = false) (hp : inPage r off.toNat = true) (hb : ∀ o, resolve r off.toNat s ≠ .bulk o)
    (v : Word) : registerWrite r off size v s = countIrregular s := by
  simp [registerWrite, isMbGo, hr, writeRow, hs, busWrite_irregular hr hp hb]

/-- Settles O7: a dark register discards and counts, a _LO write is held, and an irregular access only counts. -/
theorem discardedWritesAreCounted : Obligations.DiscardedWritesAreCounted := by
  unfold Obligations.DiscardedWritesAreCounted
  refine ⟨registerWrite_dark_counted, fun r off v pg bank o s hs ha ht hlo => ?_, fun r off size s hs hr hp hb => ?_,
    fun r off v size s hs hr hp hb => ?_⟩
  · exact ⟨_, pairLoWrite_held v hs (regular_of_aligned ha) ht hlo, tabFind_set_self _ _ _, rfl, sameBytes_holdLo r pg bank o v s, rfl⟩
  · have h := altersRegs_countIrregular s
    have hrow := readRow_irregular hs hr hp hb
    refine ⟨tidyMem (emit (.regData r off 0) (countIrregular s)), ?_, ?_, rfl, rfl, getReg_countIrregular s, h.1, h.sameBytes⟩
    · rw [exec_rcRead, hrow]
    · rw [exec_pairLoRead, hrow]
  · have h := altersRegs_countIrregular s
    refine ⟨tidyMem (countIrregular s), ?_, getReg_countIrregular s, h.1, h.regsOnly⟩
    rw [exec_registerWrite, registerWrite_irregular hs hr hp hb]

/-! ## Register pairs (R8) -/

/-- A _LO read answers the value and latches the _HI value for the requester. -/
theorem pairLoRead_latches {r : Requester} {off : Word} {pg bank o : Nat} {s : State} (h : Reaches r off pg bank o s = true)
    (hp : isPairLo pg o = true) : exec (.pairLoRead r ⟨off, 4⟩) s =
      .next (tidyMem (emit (.regData r off (liveVal pg bank o s)) (latchHi r pg bank o s))) := by
  obtain ⟨-, -, -, hd⟩ := reaches_iff.1 h
  rw [exec_pairLoRead, readRow_reaches h, regRead_pairLo r hd hp]

theorem sameBytes_emit_latchHi (e : OutEvent) (r : Requester) (pg bank o : Nat) (s : State) :
    SameBytes s (tidyMem (emit e (latchHi r pg bank o s))) := sameBytes_tidyMem_of_eq rfl rfl rfl

/-- A _HI write with a held _LO write changes the two registers of the pair only, and drops the held write. -/
theorem altersRegs_pairWrite {r : Requester} {pg bank o : Nat} {s : State} {w : Word} (hd : darkAt pg (o + 4) s = false)
    (hw : tabFind (regLatch r pg bank o) s.lat.lo = some w) (v : Word) :
    AltersRegs (fun k => k = rk pg bank o ∨ k = rk pg bank (o + 4)) (dropLo r pg bank o s) (pairWrite r pg bank (o + 4) v s) := by
  rw [pairWrite_held hd hw]
  split
  · exact .refl _ _
  · exact (altersRegs_writeByType (.inl rfl) w _).trans (altersRegs_writeByType (.inr rfl) v _)

/-- Both halves of a pair are written by their access types. -/
theorem getReg_pair_written {pg o : Nat} (hp : isPairLo pg o = true) (bank : Nat) (v w : Word) {s d : State} (hd : d.regs = s.regs) :
    getReg pg bank o (writeByType pg bank (o + 4) v (writeByType pg bank o w d)) = getReg pg bank o (writeByType pg bank o w s) ∧
    getReg pg bank (o + 4) (writeByType pg bank (o + 4) v (writeByType pg bank o w d)) =
      getReg pg bank (o + 4) (writeByType pg bank (o + 4) v s) := by
  have hreg (pg bank off : Nat) : getReg pg bank off d = getReg pg bank off s := by simp [getReg, hd]
  have hlock : locked pg d = locked pg s := by simp [locked, hreg]
  constructor
  · rw [getReg_writeByType_ne (by simp only [rk]; omega)]
    exact getReg_writeByType_congr (hreg _ _ _) hlock w
  · refine getReg_writeByType_congr ?_ ?_ v
    · rw [getReg_writeByType_ne (by simp only [rk]; omega)]
      exact hreg _ _ _
    · rw [locked_writeByType_pairLo hp]
      exact hlock

/-- No access of VF 0 is served: function 0 is the PF. -/
theorem vf_ne_zero_of_served {f : Fin 64} {s : State} (h : reqServed (.vf f) s = true) : f.val ≠ 0 := by
  intro hf
  simp [reqServed, reqFn, hf] at h

/-- Requesters whose accesses are served have numbers of their own. -/
theorem eq_of_reqIdx_eq {r r' : Requester} {s : State} (h : reqServed r s = true) (h' : reqServed r' s = true)
    (he : reqIdx r = reqIdx r') : r = r' := by
  cases r with
  | vf f =>
    have hf := vf_ne_zero_of_served h
    cases r' <;> simp only [reqIdx, Requester.vf.injEq, reduceCtorEq, Fin.ext_iff] at he ⊢ <;> omega
  | _ =>
    cases r' with
    | vf f' =>
      have hf := vf_ne_zero_of_served h'
      simp only [reqIdx] at he
      omega
    | _ => simp only [reqIdx, Requester.hart.injEq, reduceCtorEq, Fin.ext_iff] at he ⊢ <;> omega

/-- The latches of two requesters have keys of their own. -/
theorem regLatch_ne {r r' : Requester} (h : reqIdx r ≠ reqIdx r') {pg bank o pg' bank' o' : Nat} (hp : pg < 256) (hp' : pg' < 256)
    (hb : bank < 512) (hb' : bank' < 512) (ho : o < 65536) (ho' : o' < 65536) :
    regLatch r pg bank o ≠ regLatch r' pg' bank' o' := by
  have hl : latBank pg bank < 512 := by unfold latBank; split <;> omega
  have hl' : latBank pg' bank' < 512 := by unfold latBank; split <;> omega
  simp only [regLatch, latKey, rk]
  omega

theorem budKey_ne {r r' : Requester} (h : reqIdx r ≠ reqIdx r') {o o' : Nat} (ho : o < 65536) (ho' : o' < 65536) :
    budKey r o ≠ budKey r' o' := by
  simp only [budKey]
  omega

/-- Settles O8: the five clauses in order, each from the read or write of a register that is half of a pair. -/
theorem registerPairsActInOneStep : Obligations.RegisterPairsActInOneStep := by
  unfold Obligations.RegisterPairsActInOneStep
  refine ⟨fun r off pg bank o s h hp => ?_, fun r off pg bank o s h hp => ⟨fun v hv => ?_, fun hv => ?_⟩,
    fun r off v pg bank o s h hp => ?_, fun r off v w pg bank o s h hp hw => ?_, fun r r' s h h' hne => ?_⟩
  · exact ⟨_, pairLoRead_latches h hp, rfl, tabFind_set_self _ _ _, fun _ hk => tabFind_set_ne hk _ _, rfl, rfl,
      sameBytes_emit_latchHi _ r pg bank o s⟩
  · obtain ⟨-, -, -, hd⟩ := reaches_iff.1 h
    have hx := rcRead_reaches h
    rw [regRead_pairHi_latched hd (isPairHi_add_four pg o ▸ hp) hv] at hx
    exact ⟨_, hx, rfl, tabFind_del_self _ _, fun _ hk => tabFind_del_ne hk _, rfl, rfl, sameBytes_tidyMem_of_eq rfl rfl rfl⟩
  · obtain ⟨-, -, -, hd⟩ := reaches_iff.1 h
    have hx := rcRead_reaches h
    rw [regRead_pairHi_live hd (isPairHi_add_four pg o ▸ hp) hv] at hx
    exact ⟨_, hx, rfl, rfl, rfl, sameBytes_tidyMem_of_eq rfl rfl rfl⟩
  · obtain ⟨hs, hr, ht, -⟩ := reaches_iff.1 h
    exact ⟨_, pairLoWrite_held v hs hr ht hp, rfl, tabFind_set_self _ _ _, fun _ hk => tabFind_set_ne hk _ _, rfl,
      sameBytes_holdLo r pg bank o v s⟩
  · obtain ⟨-, -, -, hd⟩ := reaches_iff.1 h
    have ha := altersRegs_pairWrite hd hw v
    have hlat : (pairWrite r pg bank (o + 4) v s).lat.lo = tabDel (regLatch r pg bank o) s.lat.lo := by rw [ha.lat]; rfl
    refine ⟨_, by rw [exec_pairHiWrite, writeRow_reaches h, regBusWrite_pairHi hp], ?_, fun k hk => ?_, ha.sameBytes, ha.1,
      fun hf => ?_, fun hf => ?_⟩
    · rw [tidyMem_lat, hlat, tabFind_del_self]
    · rw [tidyMem_lat, hlat, tabFind_del_ne hk]
    · rw [pairWrite_held hd hw, if_pos hf]
      rfl
    · rw [pairWrite_held hd hw, if_neg (by simp [hf])]
      exact getReg_pair_written hp bank v w rfl
  · have hidx : reqIdx r ≠ reqIdx r' := fun he => hne (eq_of_reqIdx_eq h h' he)
    exact ⟨fun _ _ _ _ _ _ hp hp' hb hb' ho ho' => regLatch_ne hidx hp hp' hb hb' ho ho', fun _ _ ho ho' => budKey_ne hidx ho ho'⟩

/-! ## Reads that latch or clear (R9, R322, R386) -/

/-- A requester of the block pages finds there what the PF finds. -/
theorem resolve_block {r : Requester} (h : reachesBlocks r = true) {off : Nat} (ho : off < 0x1000000) (s : State) :
    resolve r off s = pfTarget off s := by
  cases r <;> simp_all [reachesBlocks, resolve]

theorem attStsOff_sec (r : Requester) : attStsOff r .sec = 0x41CC#32 := by cases r <;> rfl

/-- ATT_STS in the region of a function, in the layout that the PF sees. -/
theorem pfTarget_attSts (f : Fin 64) (s : State) : pfTarget (0x100015C + f.val * 0x10000) s = .reg pgAtt f.val 0xC := by
  have hf := f.isLt
  have hfn : (0x100015C + f.val * 0x10000 - 0x1000000) / 0x10000 = f.val := by omega
  have hin : (0x100015C + f.val * 0x10000) % 0x10000 = 0x15C := by omega
  rw [pfTarget, if_neg (by omega), if_pos (by omega), hfn, hin]
  rfl

/-- ATT_STS of a block stands at an aligned offset, which leads to it for every requester that reaches the block. -/
theorem resolve_attSts {r : Requester} {b : AttBlock} (h : reachesAtt r b = true) (s : State) :
    (attStsOff r b).toNat % 4 = 0 ∧ resolve r (attStsOff r b).toNat s = .reg pgAtt (attBank b) 0xC := by
  cases b with
  | sec =>
    rw [attStsOff_sec]
    exact ⟨rfl, resolve_block h (by decide : 0x41CC < 0x1000000) s⟩
  | func f =>
    have hf := f.isLt
    have hoff : (w32 (0x100015C + f.val * 0x10000)).toNat = 0x100015C + f.val * 0x10000 := by
      simp only [w32, BitVec.toNat_ofNat]; omega
    cases r with
    | vf g =>
      have hg : g.val = f.val := by simpa [reachesAtt, reachesRegion] using h
      simp [attStsOff, resolve, regionTarget, attBank, hg]
    | mb => simp [reachesAtt, reachesRegion] at h
    | _ =>
      simp only [attStsOff, hoff, resolve, attBank]
      exact ⟨by omega, pfTarget_attSts f s⟩

/-- A read of ATT_STS answers the code and resets a finished one. -/
theorem attStsRead_resets {r : Requester} (b : AttBlock) {s : State} (hr : reachesAtt r b = true) (hs : reqServed r s = true)
    (hd : dark pgAtt s = false) :
    ∃ t, exec (.attStsRead r b) s = .next t ∧
      t.out = .regData r (attStsOff r b) (liveVal pgAtt (attBank b) 0xC s) :: s.out ∧
      getFld pgAtt (attBank b) 0xC 0 3 t = (if getFld pgAtt (attBank b) 0xC 0 3 s = 1 then 1 else 0) ∧
      OtherRegs (fun k => k = rk pgAtt (attBank b) 0xC) s t ∧ SameBytes s t := by
  have hd' : darkAt pgAtt 0xC s = false := by simp [darkAt, hd]
  obtain ⟨hal, hres⟩ := resolve_attSts hr s
  have hx := exec_attStsRead r b s
  rw [if_pos hr, readRow_reg hs (regular_of_aligned hal) hres, regRead_attSts r hd'] at hx
  have ha : AltersRegs (fun k => k = rk pgAtt (attBank b) 0xC) s (attRead (attBank b) s) := altersRegs_attRead (by rfl) s
  refine ⟨_, hx, ?_, getFld_attRead (attBank b) s, ha.1, ha.sameBytes_emit _⟩
  rw [tidyMem_out, emit_out, ha.out]

/-- Settles O9: each clause is the read of one kind of register. -/
theorem readsLatchOrClear : Obligations.ReadsLatchOrClear := by
  unfold Obligations.ReadsLatchOrClear
  refine ⟨fun r off pg bank o s h hp => ?_, fun r off pg bank o s h hrc => ?_, fun r s h => ?_,
    fun r s hr hs hd => attStsRead_resets .sec hr hs hd, fun r f s hr hs hd => attStsRead_resets (.func f) hr hs hd⟩
  · exact ⟨_, pairLoRead_latches h hp, rfl, tabFind_set_self _ _ _, rfl, sameBytes_emit_latchHi _ r pg bank o s⟩
  · obtain ⟨-, -, -, hd⟩ := reaches_iff.1 h
    have hx := rcRead_reaches h
    rw [regRead_rc r hd hrc] at hx
    have ha : AltersRegs (fun k => k = rk pg bank o) s (clearRc pg bank o s) := altersRegs_clearRc (by rfl) s
    refine ⟨_, hx, ?_, getReg_clearRc pg bank o s, ha.1, ha.sameBytes_emit _⟩
    rw [tidyMem_out, emit_out, ha.out]
  · obtain ⟨hb, hs, hd⟩ := heard_iff.1 h
    have hres : resolve r (0x21A0#32).toNat s = .reg pgPwr 0 0x1A0 := resolve_block hb (by decide) s
    have hx := exec_budSeqRead r s
    rw [if_pos hb, readRow_reg hs (regular_of_aligned rfl) hres, regRead_budSeq r hd] at hx
    refine ⟨_, hx, by simp, fun i hi => ?_, by simp, sameBytes_tidyMem_of_eq (by simp) (by simp) (by simp)⟩
    rw [tidyMem_lat, emit_lat]
    exact tabFind_latchBudget r s hi

/-! ## What a write makes of the fields of a register (Table 0-4, R10) -/

/-- What a write of the bit `v` makes of a bit `cur` of a field. -/
def newBit (lk : Bool) (a : Acc) (v cur : Bool) : Bool :=
  match a with
  | .rw => v
  | .rwl => if lk then cur else v
  | .wo => v
  | .w1c => cur && !v
  | .w1s => cur || v
  | .ro => cur
  | .rc => cur

/-- The field holds bit `k`. -/
def Fld.has (f : Fld) (k : Nat) : Bool := decide (f.lo ≤ k ∧ k < f.lo + f.wd)

theorem Fld.has_iff {f : Fld} {k : Nat} : f.has k = true ↔ f.lo ≤ k ∧ k < f.lo + f.wd := decide_eq_true_iff

theorem bit_writeField (lk : Bool) (v cur : Word) (f : Fld) {k : Nat} (hk : k < 32) :
    bit (writeField lk v cur f) k = if f.has k then newBit lk f.acc (bit v k) (bit cur k) else bit cur k := by
  have hm : bit (fmask f.lo f.wd) k = f.has k := by rw [bit_fmask]; simp [Fld.has, hk]
  have hmerge : bit ((cur &&& ~~~(fmask f.lo f.wd)) ||| (v &&& fmask f.lo f.wd)) k = if f.has k then bit v k else bit cur k := by
    rw [bit_or, bit_and, bit_and, bit_not _ hk, hm]
    cases f.has k <;> simp
  unfold writeField newBit
  cases f.acc with
  | rw => exact hmerge
  | wo => exact hmerge
  | rwl => cases lk <;> simp [hmerge]
  | w1c =>
    simp only [bit_and, bit_not _ hk, hm]
    cases f.has k <;> simp
  | w1s =>
    simp only [bit_and, bit_or, hm]
    cases f.has k <;> simp
  | ro => simp
  | rc => simp

/-- Every field lies in the register, and no two share a bit. -/
abbrev FieldsApart (fs : List Fld) : Prop :=
  (∀ f ∈ fs, f.lo + f.wd ≤ 32) ∧ fs.Pairwise (fun f g => f.lo + f.wd ≤ g.lo ∨ g.lo + g.wd ≤ f.lo)

theorem bit_foldl_writeField_out (lk : Bool) (v : Word) {k : Nat} (hk : k < 32) (fs : List Fld) (cur : Word)
    (h : ∀ f ∈ fs, f.has k = false) : bit (fs.foldl (writeField lk v) cur) k = bit cur k := by
  induction fs generalizing cur with
  | nil => rfl
  | cons g fs ih =>
    rw [List.foldl_cons, ih _ fun f hf => h f (by simp [hf]), bit_writeField _ _ _ _ hk, h g (by simp), if_neg Bool.false_ne_true]

/-- A write of a register whose fields are apart gives each bit of a field what the field's type says. -/
theorem bit_foldl_writeField (lk : Bool) (v : Word) {k : Nat} (fs : List Fld) (cur : Word) (h : FieldsApart fs) {f : Fld}
    (hf : f ∈ fs) (hk : f.has k = true) :
    bit (fs.foldl (writeField lk v) cur) k = newBit lk f.acc (bit v k) (bit cur k) := by
  obtain ⟨hin, hap⟩ := h
  have hk32 : k < 32 := by have := hin f hf; rw [Fld.has_iff] at hk; omega
  induction fs generalizing cur with
  | nil => simp at hf
  | cons g fs ih =>
    obtain ⟨hg, hap⟩ := List.pairwise_cons.1 hap
    rw [List.foldl_cons]
    rcases List.mem_cons.1 hf with rfl | hf
    · have hout : ∀ f' ∈ fs, f'.has k = false := fun f' hf' => Bool.eq_false_iff.2 fun hk' => by
        rw [Fld.has_iff] at hk hk'
        have := hg f' hf'
        omega
      rw [bit_foldl_writeField_out lk v hk32 fs _ hout, bit_writeField _ _ _ _ hk32, if_pos hk]
    · have hout : ¬g.has k = true := fun hk' => by
        rw [Fld.has_iff] at hk hk'
        have := hg f hf
        omega
      rw [ih _ hf (fun f hf => hin f (by simp [hf])) hap, bit_writeField _ _ _ _ hk32, if_neg hout]

/-- In every table of the register map the fields of a register are apart. -/
theorem fieldsApart_of_mem_pageRows (pg : Nat) : ∀ r ∈ pageRows pg, FieldsApart r.flds := by
  by_cases h : pg < 153
  · have key : ∀ pg < 153, ∀ r ∈ pageRows pg, FieldsApart r.flds := by decide +kernel
    exact key pg h
  · have hnil : pageRows pg = [] := by simp (disch := omega) only [pageRows, if_neg]
    simp [hnil]

theorem fieldsApart_regFields (pg off : Nat) : FieldsApart (regFields pg off) := by
  have hdr : ∀ r ∈ rowsHdr, FieldsApart r.flds := by decide
  have hall : ∀ r ∈ allRows pg, FieldsApart r.flds := by
    unfold allRows
    split
    · exact fun r hr => (List.mem_append.1 hr).elim (hdr r) (fieldsApart_of_mem_pageRows pg r)
    · exact fieldsApart_of_mem_pageRows pg
  unfold regFields
  split
  · next r hr => exact hall r (List.mem_of_find?_eq_some hr)
  · decide

/-- A write by the access types acts on each field as its type says. -/
theorem fieldsWritten_writeByType {pg : Nat} (hp : pg < 146) (o : Nat) (v : Word) (s : State) :
    FieldsWritten pg o v s (writeByType pg 0 o v s) := by
  intro f hf
  have key {k : Nat} (h1 : f.lo ≤ k) (h2 : k < f.lo + f.wd) :
      bit (getReg pg 0 o (writeByType pg 0 o v s)) k = newBit (locked pg s) f.acc (bit v k) (bit (getReg pg 0 o s) k) := by
    simp only [writeByType, if_pos hp, getReg_setReg_self]
    exact bit_foldl_writeField _ v _ _ (fieldsApart_regFields pg o) hf (Fld.has_iff.2 ⟨h1, h2⟩)
  have h32 : f.lo + f.wd ≤ 32 := (fieldsApart_regFields pg o).1 f hf
  refine ⟨fun ha => fld_congr fun k h1 h2 => ?_, fun ha => fld_congr fun k h1 h2 => ?_, fun ha => ?_,
    fun ha => fld_congr fun k h1 h2 => ?_, fun ha => fld_congr fun k h1 h2 => ?_⟩
  · rcases ha with ha | ha <;> rw [key h1 h2, ha, newBit]
  · rw [key h1 h2, ha, newBit]
  · split
    · next hl => exact fld_congr fun k h1 h2 => by rw [key h1 h2, ha, newBit, if_pos hl]
    · next hl => exact fld_congr fun k h1 h2 => by rw [key h1 h2, ha, newBit, if_neg hl]
  · rw [key h1 h2, ha, newBit, bit_and, bit_not _ (by omega)]
  · rw [key h1 h2, ha, newBit, bit_or]

/-- The numbers of the plain pages. -/
theorem plainPage_num {pg : Nat} (h : plainPage pg) :
    pg = 1 ∨ (6 ≤ pg ∧ pg ≤ 8) ∨ (10 ≤ pg ∧ pg < 43) ∨ pg = 124 ∨ pg = 126 ∨ pg = 127 ∨ pg = 140 := by
  simp only [plainPage, pgCap, pgCst, pgXsp, pgYns, pgClk, pgTlr, pgSdi, pgCz, pgWeir, pgCl] at h
  rcases h with h | h | h | h | h | h | h | ⟨z, hz, h⟩ | ⟨n, hn, h⟩ <;> omega

theorem plainPage_not_pairPage {pg : Nat} (h : plainPage pg) : pg ∉ pairPages := by
  have hn := plainPage_num h
  simp only [pairPages, pgPwr, pgSec, pgRst, pgFe, pgMmu, pgLvn, pgFnc, pgSvl, pgHcx, pgFn, pgAtt, List.mem_cons, List.not_mem_nil,
    or_false]
  omega

/-- No register of a plain page above the common header has a case of its own in `regWrite`. -/
theorem regWrite_plainPage {pg o : Nat} (h : plainPage pg) (ho : 0x40 ≤ o) (r : Requester) (v : Word) (s : State) :
    regWrite r pg 0 o v s = writeByType pg 0 o v s := by
  have hn := plainPage_num h
  simp (disch := omega) only [regWrite, pgGlb, pgPwr, pgBsn, pgSec, pgAna, pgRst, pgFe, pgCmp, pgMmu, pgLvn, pgFnc, pgPci, pgSvl,
    pgHcx, pgFn, pgAtt, pgMsix, if_neg]

/-- A plain page's register above the common header is written by its access types. -/
theorem regBusWrite_plainPage {pg o : Nat} (h : plainPage pg) (ho : 0x40 ≤ o) (r : Requester) (v : Word) {s : State}
    (hd : darkAt pg o s = false) : regBusWrite r pg 0 o v s = writeByType pg 0 o v s := by
  obtain ⟨hlo, hhi⟩ := not_pair_of_page (plainPage_not_pairPage h) o
  simp only [regBusWrite, hlo, hhi, hd, Bool.false_eq_true, if_false]
  exact regWrite_plainPage h ho r v s

/-- Settles O6: on a plain page a write is a write by the access types, whose fields are apart. -/
theorem registerWriteActsByAccessType : Obligations.RegisterWriteActsByAccessType := by
  unfold Obligations.RegisterWriteActsByAccessType
  intro r off v pg o s hp ho _ h
  obtain ⟨hs, hr, ht, hd⟩ := reaches_iff.1 h
  have hn := plainPage_num hp
  have hx := exec_registerWrite r off 4 v s
  rw [registerWrite_reg hs hr ht (by simp only [pgMb]; omega), regBusWrite_plainPage hp ho r v hd] at hx
  have ha : AltersRegs (fun k => k = rk pg 0 o) s (writeByType pg 0 o v s) := altersRegs_writeByType (by rfl) v s
  exact ⟨_, hx, ha.regsOnly, ha.1, fieldsWritten_writeByType (by omega) o v s⟩

/-! ## LOCK, IRQ_FORCE and LOCK_ALL (R10, R446, R448) -/

theorem altersRegs_lockPage {R : Nat → Prop} {pg : Nat} (h : R (rk pg 0 0x008)) (s : State) : AltersRegs R s (lockPage s pg) :=
  altersRegs_setFld h _ _ _ s

theorem locked_lockPage (pg pg' : Nat) (s : State) : locked pg (lockPage s pg') = (locked pg s || pg == pg') := by
  by_cases h : pg = pg'
  · subst h
    have hset : locked pg (lockPage s pg) = true := bit_setFld_self pg 0 0x008 (by omega) true s
    simp [hset]
  · rw [locked, lockPage, getReg_setFld_ne (by simp only [rk]; omega)]
    simp [locked, h]

theorem locked_foldl_lockPage (pg : Nat) (l : List Nat) (s : State) :
    locked pg (l.foldl lockPage s) = (locked pg s || l.contains pg) := by
  induction l generalizing s with
  | nil => simp
  | cons a l ih => rw [List.foldl_cons, ih, locked_lockPage, List.contains_cons, Bool.or_assoc]

/-- LOCK_ALL locks the pages of its classes. -/
theorem locked_lockAllWrite {v : Word} (h : bit v 31 = true) {pg : Nat} (hp : pg < 146) (s : State) :
    locked pg (lockAllWrite v s) = (locked pg s || (if isDriverPage pg then bit v 5 else !(bit v (lockClass pg)))) := by
  rw [lockAllWrite, if_pos h, locked_foldl_lockPage]
  congr 1
  rw [Bool.eq_iff_iff, List.contains_iff_mem, List.mem_filter, List.mem_range]
  exact ⟨fun hm => hm.2, fun hl => ⟨hp, hl⟩⟩

theorem altersRegs_lockAllWrite (v : Word) (s : State) :
    AltersRegs (fun k => ∃ pg, pg < 146 ∧ k = rk pg 0 0x008) s (lockAllWrite v s) := by
  unfold lockAllWrite
  split
  · refine AltersRegs.foldl s fun pg hp s => altersRegs_lockPage ⟨pg, ?_, rfl⟩ s
    exact List.mem_range.1 (List.mem_filter.1 hp).1
  · exact .refl _ s

/-- The summary interrupt changes pending vectors and the output only (R449). -/
theorem sumNotify_alters_pba (pg : Nat) (b : Bool) (s : State) :
    OtherRegs (fun k => k / 65536 / 512 = pgPba) s (sumNotify pg b s) ∧
      sumNotify pg b s = { s with regs := (sumNotify pg b s).regs, out := (sumNotify pg b s).out } := by
  unfold sumNotify
  split
  · exact sendMsix_pf _ (by unfold getFld fld; omega) s
  · exact ⟨fun _ _ => rfl, rfl⟩

/-- IRQ_FORCE and a condition set bits of IRQ_PEND, and what the summary interrupt changes. -/
theorem getReg_setPend {pg : Nat} (hp : pg ≠ pgPba) (bits : Word) (s : State) :
    getReg pg 0 0x018 (setPend pg bits s) = getReg pg 0 0x018 s ||| bits := by
  obtain ⟨ho, -⟩ := sumNotify_alters_pba pg (irqReq pg s) (setReg pg 0 0x018 (getReg pg 0 0x018 s ||| bits) s)
  have hk := ho (rk pg 0 0x018) (by simp only [rk]; omega)
  rw [setPend, getReg, hk]
  exact getReg_setReg_self pg 0 0x018 _ s

theorem otherRegs_setPend (pg : Nat) (bits : Word) (s : State) :
    OtherRegs (fun k => k = rk pg 0 0x018 ∨ k / 65536 / 512 = pgPba) s (setPend pg bits s) := by
  obtain ⟨ho, -⟩ := sumNotify_alters_pba pg (irqReq pg s) (setReg pg 0 0x018 (getReg pg 0 0x018 s ||| bits) s)
  exact fun k hk => (ho k fun h => hk (.inr h)).trans (tabFind_set_ne (fun h => hk (.inl h)) _ _)

theorem sameBytes_setPend (pg : Nat) (bits : Word) (s : State) : SameBytes s (tidyMem (setPend pg bits s)) := by
  obtain ⟨-, h⟩ := setPend_does pg bits s
  exact sameBytes_tidyMem_of_eq (by rw [h]) (by rw [h]) (by rw [h])

/-- Settles O5: the three writes are heard, and each sets its bits. -/
theorem lockAndForceSetTheirBits : Obligations.LockAndForceSetTheirBits := by
  unfold Obligations.LockAndForceSetTheirBits
  refine ⟨fun r page s h => ?_, fun r page v s h => ?_, fun r v s hv h => ?_⟩
  · have hx := exec_lockSet r page s
    rw [blockWrite_heard h] at hx
    have ha : AltersRegs (fun k => k = rk page.val 0 0x008) s (lockPage s page.val) := altersRegs_lockPage (by rfl) s
    refine ⟨_, hx, ?_, fun k hk => bit_setFld_ne _ _ _ _ _ _ (by omega) s, ha.1, ha.regsOnly⟩
    exact (locked_lockPage page.val page.val s).trans (by simp)
  · have hx := exec_irqForce r page v s
    rw [blockWrite_heard h] at hx
    exact ⟨_, hx, getReg_setPend (by simp only [pgPba]; omega) v s, otherRegs_setPend page.val v s, sameBytes_setPend page.val v s⟩
  · have hx := exec_lockAll r v s
    rw [if_pos hv, blockWrite_heard h] at hx
    have ha := altersRegs_lockAllWrite v s
    exact ⟨_, hx, ha.regsOnly, ha.1, fun pg hp => locked_lockAllWrite hv hp s⟩

/-! ## The reset pin (R3, R345, R348, R351) -/

/-- With no unit of Cistern in progress nothing of the flash is spoilt. -/
theorem spoilUnit_idle {s : State} (h : cstBusy s = false) : spoilUnit s = s := by simp [spoilUnit, h]

theorem spoilUnit_pending (s : State) : (spoilUnit s).pending = s.pending := by
  unfold spoilUnit
  split <;> rfl

/-- What a byte of HBM reads as where nothing is listed and nothing is stale. -/
theorem memRead_hbm_empty (a n : Nat) : memRead (hbmDefault []) [] a n = List.replicate n 0 := by
  induction n generalizing a with
  | zero => rfl
  | succ n ih => rw [memRead, ih, List.replicate_succ]; rfl

/-- The state that a cold reset leaves, before the cause is set. -/
def coldBase (s : State) : State :=
  { wiped s with
    regs := [], bsn := {}, rst := {},
    aon := { gen := s.aon.gen + 1 },
    mem := { host := s.mem.host, flash := s.mem.flash },
    pins := { s.pins with sysRstN := false, errN := true, wakeN := true } }

theorem coldReset_eq (s : State) :
    coldReset s = setFld pgRst 0 0x128 0 4 (b2n s.pins.sysRstN) (coldBase (spoilUnit s)) := rfl

theorem altersRegs_coldReset (s : State) :
    AltersRegs (fun k => k = rk pgRst 0 0x128) (coldBase (spoilUnit s)) (coldReset s) :=
  altersRegs_setFld (by rfl) _ _ _ _

theorem getFld_cause_coldReset (s : State) : getFld pgRst 0 0x128 0 4 (coldReset s) = b2n s.pins.sysRstN := by
  rw [coldReset_eq, getFld_setFld_self _ _ _ _ _ _ (by omega)]
  cases s.pins.sysRstN <;> rfl

theorem hbmBytes_coldReset (s : State) (a n : Nat) : hbmBytes a n (coldReset s) = List.replicate n 0 :=
  memRead_hbm_empty a n

theorem flashBytes_coldReset {s : State} (h : cstBusy s = false) (a n : Nat) : flashBytes a n (coldReset s) = flashBytes a n s := by
  rw [coldReset_eq, spoilUnit_idle h]
  rfl

/-- The mode set into the registers of GLB, RST and PCI that show it (R3). -/
def sampleMode (m : Bool) (s : State) : State :=
  setFld pgGlb 0 0x104 0 1 (b2n m) (setFld pgRst 0 0x12C 4 1 (b2n m) (setFld pgPci 0 0x100 0 1 (b2n m) s))

/-- The release of a reset that nothing else holds samples the mode. -/
theorem bootStart_released {s : State} (hn : s.pins.sysRstN = true) (hp : s.rst.perst = false) (hx : s.pins.extest = false)
    (hh : s.rst.held = true) : bootStart s =
      sampleMode s.pins.bootMode { s with rst := { s.rst with held := false, bootUs := 0, loaded := false } } := by
  simp [bootStart, sampleMode, hn, hp, hx, hh]

theorem altersRegs_sampleMode (m : Bool) (s : State) :
    AltersRegs (fun k => k = rk pgGlb 0 0x104 ∨ k = rk pgRst 0 0x12C ∨ k = rk pgPci 0 0x100) s (sampleMode m s) :=
  ((altersRegs_setFld (.inr (.inr rfl)) _ _ _ s).trans (altersRegs_setFld (.inr (.inl rfl)) _ _ _ _)).trans
    (altersRegs_setFld (.inl rfl) _ _ _ _)

theorem getReg_bootSts_sampleMode (m : Bool) (s : State) : getReg pgRst 0 0x12C (sampleMode m s) =
    getReg pgRst 0 0x12C (setFld pgRst 0 0x12C 4 1 (b2n m) (setFld pgPci 0 0x100 0 1 (b2n m) s)) :=
  getReg_setFld_ne (by decide) _ _ _ _

theorem selfHosted_sampleMode (m : Bool) (s : State) : selfHosted (sampleMode m s) = m := by
  rw [selfHosted, getReg_bootSts_sampleMode]
  exact bit_setFld_self _ _ _ (by omega) m _

theorem stage_sampleMode (m : Bool) (s : State) : stage (sampleMode m s) = stage s := by
  rw [stage, getFld, getReg_bootSts_sampleMode]
  refine (fld_congr fun k _ hk => bit_setFld_ne _ _ _ _ _ _ (by omega) _).trans ?_
  rw [getReg_setFld_ne (by decide)]
  rfl

theorem pciMode_sampleMode (m : Bool) (s : State) : bit (getReg pgPci 0 0x100 (sampleMode m s)) 0 = m := by
  rw [sampleMode, getReg_setFld_ne (by decide), getReg_setFld_ne (by decide)]
  exact bit_setFld_self _ _ _ (by omega) m _

/-- The state in which the deassertion of SYS_RST_N samples the mode. -/
def released (mode : Bool) (s : State) : State :=
  { s with
    pins := { s.pins with sysRstN := true, bootMode := mode },
    rst := { s.rst with held := false, bootUs := 0, loaded := false } }

theorem coldRelease_eq {mode : Bool} {s : State} (hn : s.pins.sysRstN = false) (hh : s.rst.held = true)
    (hp : s.rst.perst = false) (hx : s.pins.extest = false) : coldRelease mode s = sampleMode mode (released mode s) := by
  rw [coldRelease, if_neg (by simp [hn])]
  exact bootStart_released rfl hp hx hh

/-- Settles O10: an assertion leaves the registers of `State.reset` but for the cause, and a deassertion samples the mode. -/
theorem coldResetClearsEveryRegister : Obligations.ColdResetClearsEveryRegister := by
  unfold Obligations.ColdResetClearsEveryRegister
  refine ⟨fun s => ?_, fun mode s hn hh hp he => ?_⟩
  · refine ⟨_, exec_sysRstNAssert s, rfl, rfl, rfl, getFld_cause_coldReset s, (altersRegs_coldReset s).1, rfl, rfl, rfl, rfl,
      spoilUnit_pending s, fun a n => ?_, fun h a n => ?_⟩
    · rw [hbmBytes_tidyMem, hbmBytes_coldReset]
    · rw [flashBytes_tidyMem, flashBytes_coldReset h]
  · have hx := exec_sysRstNDeassert mode s
    rw [coldRelease_eq hn hh hp he] at hx
    have ha := altersRegs_sampleMode mode (released mode s)
    exact ⟨_, hx, rfl, rfl, rfl, selfHosted_sampleMode mode _, selfHosted_sampleMode mode _, pciMode_sampleMode mode _,
      stage_sampleMode mode _, ha.sameBytes, ha.1⟩

end Sys2Proof.Machine

/-!
PROOFS. The statements of 01_architecture.md: the step and the counters, Proofer's samples and publications, the matrix engines'
queues, and the placement of blocks. First what the shared operations leave alone; then each statement after the lemmas it rests on.
-/
namespace Sys2Proof.Machine
open Sys2Proof.Claims

/-! ## The step and the tick of the microsecond counters (R28) -/

theorem step_cons {c : Instr} {rest : List Instr} {s : State} (h : s.pending = c :: rest) :
    step s = exec c { s with pending := rest } := by rw [step, h]

theorem step_empty {s : State} (h : s.pending = []) : step s = .next (tick s) := by rw [step, h]

/-- No counter runs while a reset is held or in SLEEP and OFF. -/
theorem tick_stopped {s : State} (h : s.rst.held = true ∨ 2 ≤ devState s) : tick s = s := by
  have hu : usRuns s = false := by
    rcases h with h | h
    · simp [usRuns, h]
    · simp [usRuns, Nat.not_lt.2 h]
  rw [tick, hu, if_neg Bool.false_ne_true]

/-- What the counters of the units other than the front end leave alone. -/
def TickKeeps (s t : State) : Prop := t.fe = s.fe ∧ t.mem = s.mem ∧ t.out = s.out ∧ t.pending = s.pending

theorem TickKeeps.refl (s : State) : TickKeeps s s := ⟨rfl, rfl, rfl, rfl⟩

theorem TickKeeps.trans {s t u : State} (h : TickKeeps s t) (h' : TickKeeps t u) : TickKeeps s u := by
  obtain ⟨hf, hm, ho, hp⟩ := h
  obtain ⟨hf', hm', ho', hp'⟩ := h'
  exact ⟨hf'.trans hf, hm'.trans hm, ho'.trans ho, hp'.trans hp⟩

theorem TickKeeps.foldl {α : Type} {f : State → α → State} (h : ∀ s a, TickKeeps s (f s a)) :
    ∀ (l : List α) (s : State), TickKeeps s (l.foldl f s)
  | [], s => .refl s
  | a :: l, s => (h s a).trans (TickKeeps.foldl h l (f s a))

theorem tickBoot_ready {s : State} (h : stage s = 6) : tickBoot s = s := by rw [tickBoot, if_pos h]

theorem tickKeeps_tickLvn (s : State) : TickKeeps s (tickLvn s) := by
  unfold tickLvn
  split <;> exact ⟨rfl, rfl, rfl, rfl⟩

theorem tickKeeps_tickTlr (s : State) : TickKeeps s (tickTlr s) := by
  unfold tickTlr
  split <;> exact ⟨rfl, rfl, rfl, rfl⟩

theorem tickKeeps_tickPort (s : State) (k : Nat) : TickKeeps s (tickPort s k) := by
  unfold tickPort
  split <;> exact ⟨rfl, rfl, rfl, rfl⟩

theorem tickKeeps_tickRings (s : State) : TickKeeps s (tickRings s) := by
  unfold tickRings
  split <;> exact ⟨rfl, rfl, rfl, rfl⟩

theorem tickKeeps_tickAck (s : State) (pg : Nat) : TickKeeps s (tickAck s pg) := by
  unfold tickAck
  simp only
  split <;> exact ⟨rfl, rfl, rfl, rfl⟩

theorem tickKeeps_tickTrans (s : State) : TickKeeps s (tickTrans s) := by
  unfold tickTrans
  split
  · exact ⟨rfl, rfl, rfl, rfl⟩
  · refine TickKeeps.trans ?_ (TickKeeps.foldl tickKeeps_tickAck _ _)
    exact ⟨rfl, rfl, rfl, rfl⟩

/-- In ON and DOZE out of reset the tick of a part that has booted is the front end's count, and counts that leave the front end alone. -/
theorem tickKeeps_tick {s : State} (hh : s.rst.held = false) (hd : devState s < 2) (hb : stage s = 6) :
    TickKeeps (tickFe s) (tick s) := by
  have hu : usRuns s = true := by simp [usRuns, hh, hd]
  rw [tick, if_pos hu, tickBoot_ready hb]
  exact ((tickKeeps_tickLvn _).trans (tickKeeps_tickTlr _)).trans ((TickKeeps.foldl tickKeeps_tickPort _ _).trans
    ((tickKeeps_tickRings _).trans (tickKeeps_tickTrans _)))

/-- The front end's count changes the front end only. -/
theorem tickFe_powered {s : State} (h : powered pgFe s = true) :
    (tickFe s).fe.us = s.fe.us + 1 ∧ tickFe s = { s with fe := (tickFe s).fe } := by
  simp [tickFe, tickQueues, h]

/-- Settles O1: by the two shapes of the queue, and on an empty one by whether the counters run. -/
theorem stepRunsTheFrontCommand : Obligations.StepRunsTheFrontCommand := by
  unfold Obligations.StepRunsTheFrontCommand
  refine ⟨fun c rest s h => step_cons h, fun s h hs => ?_, fun s h hh hd hp hb => ?_⟩
  · rw [step_empty h, tick_stopped hs]
  · obtain ⟨hfe, hmem, hout, hpend⟩ := tickKeeps_tick hh hd hb
    obtain ⟨hus, heq⟩ := tickFe_powered hp
    refine ⟨_, step_empty h, by rw [hfe, hus], ?_, ?_, ?_⟩
    · rw [hmem, heq]
    · rw [hout, heq]
    · rw [hpend, heq, h]

/-! ## Registers, words and bytes that a step leaves alone -/

theorem OtherRegs.refl (R : Nat → Prop) (s : State) : OtherRegs R s s := fun _ _ => rfl

theorem OtherRegs.trans {R : Nat → Prop} {s t u : State} (h : OtherRegs R s t) (h' : OtherRegs R t u) : OtherRegs R s u :=
  fun k hk => (h' k hk).trans (h k hk)

theorem OtherRegs.mono {R R' : Nat → Prop} {s t : State} (h : OtherRegs R s t) (hr : ∀ k, R k → R' k) : OtherRegs R' s t :=
  fun k hk => h k fun h' => hk (hr k h')

theorem OtherRegs.foldl {α : Type} {R : Nat → Prop} {f : State → α → State} :
    ∀ {l : List α} (s : State), (∀ a ∈ l, ∀ s, OtherRegs R s (f s a)) → OtherRegs R s (l.foldl f s)
  | [], s, _ => .refl R s
  | a :: l, s, h => (h a (by simp) s).trans (OtherRegs.foldl (f s a) fun b hb => h b (by simp [hb]))

theorem OtherRegs.getReg {R : Nat → Prop} {s t : State} (h : OtherRegs R s t) {pg bank off : Nat} (hk : ¬ R (rk pg bank off)) :
    getReg pg bank off t = getReg pg bank off s := by rw [Machine.getReg, h _ hk]; rfl

theorem otherRegs_setReg {R : Nat → Prop} {pg bank off : Nat} (h : R (rk pg bank off)) (v : Word) (s : State) :
    OtherRegs R s (setReg pg bank off v s) := (altersRegs_setReg h v s).1

theorem otherRegs_setFld {R : Nat → Prop} {pg bank off : Nat} (h : R (rk pg bank off)) (lo n v : Nat) (s : State) :
    OtherRegs R s (setFld pg bank off lo n v s) := otherRegs_setReg h _ s

/-- A state that holds the memories of `s`, and what says how an unlisted byte reads, reads as `s` does. -/
theorem sameBytes_of_mem {s t : State} (hm : t.mem = s.mem) (hh : t.hbc.stale = s.hbc.stale) (ha : t.aon.gen = s.aon.gen) :
    SameBytes s (tidyMem t) := by
  obtain ⟨h1, h2, h3, h4, h5, h6⟩ := sameBytes_tidyMem t
  refine ⟨fun a n => (h1 a n).trans ?_, fun a n => (h2 a n).trans ?_, fun a n => (h3 a n).trans ?_,
    fun a n => (h4 a n).trans ?_, fun a => (h5 a).trans ?_, fun a => (h6 a).trans ?_⟩ <;>
  simp only [hbmBytes, hostBytes, flashBytes, aonBytes, hm, hh, ha]

theorem Alters.sameBytes {R : Nat → Prop} {s t : State} (h : Alters R s t) : SameBytes s (tidyMem t) := by
  obtain ⟨-, h⟩ := h
  exact sameBytes_of_mem (by rw [h]) (by rw [h]) (by rw [h])

theorem fld_w32 (x lo n : Nat) : fld (w32 x) lo n = x % 2 ^ 32 / 2 ^ lo % 2 ^ n := by rw [fld, w32, BitVec.toNat_ofNat]

theorem bit_w32 (x : Nat) {k : Nat} (h : k < 32) : bit (w32 x) k = x.testBit k := by
  rw [bit, w32, BitVec.getLsbD_ofNat]
  simp [h]

/-- The sticky bit of an event stands after it. -/
theorem bit_sticky_faultAt (src : Nat) {pg b : Nat} (hp : pg ≠ pgPba) (hb : b < 32) (s : State) :
    bit (getReg pg 0 0x020 (faultAt src pg b s)) b = true := by
  have hirq : OtherRegs (irqRegs pg) (setReg pg 0 0x020 (getReg pg 0 0x020 s ||| oneBit b) s) (setSticky pg b s) :=
    (raiseIrq_does pg 31 _).1
  have hset : getReg pg 0 0x020 (setSticky pg b s) = getReg pg 0 0x020 s ||| oneBit b := by
    rw [hirq.getReg (by simp only [irqRegs, rk, pgPba] at *; omega), getReg_setReg_self]
  have hcnt : getReg pg 0 0x020 (count32 pg 0 0x02C (setSticky pg b s)) = getReg pg 0 0x020 (setSticky pg b s) :=
    getReg_setFld_ne (by simp only [rk]; omega) _ _ _ _
  have hfin : getReg pg 0 0x020 (faultAt src pg b s) = getReg pg 0 0x020 (count32 pg 0 0x02C (setSticky pg b s)) := by
    unfold faultAt
    simp only
    split <;> rfl
  rw [hfin, hcnt, hset, bit_or, bit_oneBit _ _ hb]
  simp

/-! ## The AON counters, the PLLs and the ADC (R27, R463, R464, R467) -/

theorem exec_aonMsStep (s : State) : exec .aonMsStep s = .next (tidyMem (aonStep s)) := rfl

theorem exec_crystalSwitch (s : State) : exec .crystalSwitch s = .next (tidyMem (crystalSwitch s)) := rfl

theorem exec_adcConversion (code : BitVec 12) (s : State) : exec (.adcConversion code) s = .next (tidyMem (adcConvert code s)) := rfl

theorem exec_adcReferenceCheck (code : BitVec 12) (s : State) :
    exec (.adcReferenceCheck code) s = .next (tidyMem (adcCheck code s)) := rfl

theorem exec_pllLossOfLock (dom : Fin 24) (s : State) : exec (.pllLossOfLock dom) s = .next (tidyMem (pllLoss dom.val s)) := rfl

theorem exec_comparatorCrossing (c : Fin 4) (microV : Nat) (s : State) :
    exec (.comparatorCrossing c microV) s = .next (tidyMem (cmpCross c.val microV s)) := rfl

/-- A step of the crystal's fraction loses no cycle: 125 steps are 4,096 cycles. -/
theorem msFraction_balance {f : Nat} (h : f < 125) :
    (msFraction f).1 = (f + 96) % 125 ∧ 125 * (msFraction f).2 + (msFraction f).1 = f + 4096 := by
  unfold msFraction
  split <;> constructor <;> simp only <;> omega

/-- What a millisecond step makes of the AON counters. -/
def aonAfter (s : State) : AonTime :=
  { s.aon with
    ms := s.aon.ms + 1
    f := if s.aon.onCrystal then (msFraction s.aon.f).1 else s.aon.f
    cycles := if s.aon.onCrystal then s.aon.cycles + (msFraction s.aon.f).2 else s.aon.cycles
    wake := if 2 ≤ devState s then s.aon.wake + (if s.aon.onCrystal then (msFraction s.aon.f).2 else 33) else s.aon.wake }

theorem aonStep_up {s : State} (h : s.pins.sysRstN = true) : aonStep s = { s with aon := aonAfter s } := by
  simp only [aonStep, aonUp, h, aonAfter]
  cases s.aon.onCrystal <;> rfl

theorem adcConvert_up {code : BitVec 12} {i : Nat} {s : State} (hu : s.pins.sysRstN = true) (hh : s.rst.held = false)
    (hi : adcNext s = some i) : adcConvert code s = adcResult i code { s with aon := { s.aon with adcLast := i } } := by
  simp [adcConvert, aonUp, hu, hh, hi]

/-- A conversion shows its code, one more than its count, and VALID. -/
theorem getReg_adcResult (i : Nat) (code : BitVec 12) (s : State) : getReg pgAna 0 (0x108 + 4 * i) (adcResult i code s) =
    w32 (code.toNat + (getFld pgAna 0 (0x108 + 4 * i) 16 15 s + 1) % 2 ^ 15 * 2 ^ 16 + 2 ^ 31) := getReg_setReg_self _ _ _ _ s

theorem adcCheck_up {code : BitVec 12} {s : State} (hu : s.pins.sysRstN = true) (hh : s.rst.held = false) : adcCheck code s =
    if refInRange code.toNat then setFld pgAna 0 0x104 0 1 1 s else fault 287 (setFld pgAna 0 0x104 0 1 0 s) := by
  simp [adcCheck, aonUp, hu, hh]

/-- The register of a conversion: its code, its count and VALID. -/
theorem adcWord_fields (code : BitVec 12) {n : Nat} (h : n < 2 ^ 15) :
    fld (w32 (code.toNat + n * 2 ^ 16 + 2 ^ 31)) 0 12 = code.toNat ∧ fld (w32 (code.toNat + n * 2 ^ 16 + 2 ^ 31)) 16 15 = n ∧
      bit (w32 (code.toNat + n * 2 ^ 16 + 2 ^ 31)) 31 = true := by
  have hc := code.isLt
  refine ⟨?_, ?_, ?_⟩
  · rw [fld_w32]; omega
  · rw [fld_w32]; omega
  · rw [bit_w32 _ (by omega), Nat.testBit_eq_decide_div_mod_eq, decide_eq_true_eq]; omega

/-- The page of a PLL's source. -/
theorem srcHome_pll {d : Nat} (h1 : 2 ≤ d) (h2 : d < 24) :
    27 ≤ (srcHome (if d < 18 then 192 + (d - 2) else 266)).1 ∧ (srcHome (if d < 18 then 192 + (d - 2) else 266)).1 < 43 ∨
      (srcHome (if d < 18 then 192 + (d - 2) else 266)).1 = pgClk := by
  split
  · left
    simp (disch := omega) only [srcHome, if_neg, if_pos, pgCl]
    omega
  · exact .inr (by decide)

/-- A PLL that loses lock is listed as lost and counted, and its source meets an event. -/
theorem pllLoss_locked {d : Nat} {s : State} (h1 : 2 ≤ d) (h2 : d < 24) (hl : clkLocked d s = true) :
    (pllLoss d s).rst.lost = s.rst.lost ++ [d] ∧
      getReg pgClk 0 0x104 (pllLoss d s) = getReg pgClk 0 0x104 (count32 pgClk 0 0x104 s) := by
  have hp := srcHome_pll h1 h2
  have hx : pllLoss d s = fault (if d < 18 then 192 + (d - 2) else 266)
      (count32 pgClk 0 0x104 { s with rst := { s.rst with lost := s.rst.lost ++ [d] } }) := by
    simp [pllLoss, hl, Nat.not_lt.2 h1]
  generalize (if d < 18 then 192 + (d - 2) else 266) = src at hp hx
  have ha := alters_fault (R := faultRegs (srcHome src).1) src
    (count32 pgClk 0 0x104 { s with rst := { s.rst with lost := s.rst.lost ++ [d] } }) fun _ h => h
  rw [hx]
  refine ⟨by rw [ha.2]; rfl, ha.getReg ?_⟩
  simp only [faultRegs, irqRegs, rk, pgPba, pgClk] at hp ⊢
  omega

theorem clkLocked_of_mem_lost {d : Nat} {s : State} (h : 2 ≤ d) (hl : d ∈ s.rst.lost) : clkLocked d s = false := by
  simp (disch := omega) [clkLocked, if_neg, hl]

/-! ## Comparators and the wake (R317, R318, R337, R340, R465) -/

/-- Every register but CMP_STS, which holds the comparators' outputs. -/
abbrev offCmp (k : Nat) : Prop := k ≠ rk pgAna 0 0x138

theorem offCmp_irqRegs {pg k : Nat} (hk : irqRegs pg k) : offCmp k := by
  simp only [irqRegs, offCmp, rk, pgPba, pgAna] at *
  omega

theorem offCmp_faultRegs {pg k : Nat} (hk : faultRegs pg k) : offCmp k := by
  simp only [faultRegs, irqRegs, offCmp, rk, pgPba, pgAna] at *
  omega

theorem offCmp_thrRegs {k : Nat} (hk : thrRegs k) : offCmp k := by
  rcases hk with ⟨r, hr, rfl⟩ | rfl | hk
  · simp only [offCmp, rk, pgPwr, pgAna]; omega
  · decide
  · exact offCmp_irqRegs hk

/-- The registers that a change of a comparator's output concerns: CAP_EFF, and those of a throttle reason. -/
def siteRegs (k : Nat) : Prop := k = rk pgPwr 0 0x110 ∨ thrRegs k

/-- A bit of CAP_EFF set, and Proofer's state. -/
theorem alters_capEff (lo n v : Nat) (p : Pwr) (s : State) : Alters siteRegs s { setFld pgPwr 0 0x110 lo n v s with pwr := p } :=
  ⟨(otherRegs_setFld (R := siteRegs) (.inl rfl) lo n v s), rfl⟩

/-- The alternate cap as the comparators now give it: due to be published where it has changed (R20, R317). -/
def altShown (s : State) : State :=
  if bit (getReg pgPwr 0 0x110 s) 9 = altOn s then s
  else { setFld pgPwr 0 0x110 9 1 (b2n (altOn s)) s with pwr := { s.pwr with oocDue := true } }

/-- The hard overdraw as the comparators now give it (R20, R318). -/
def ovrShown (s : State) : State :=
  if ovrSignal s then (if s.pwr.ovr then s else { s with pwr := { s.pwr with ovrDue := true } })
  else if s.pwr.ovr then overdrawOver s
  else s

theorem siteUpdate_eq (s : State) : siteUpdate s = updateThr (ovrShown (altShown s)) := rfl

theorem alters_altShown (s : State) : Alters siteRegs s (altShown s) := by
  unfold altShown
  split
  · exact .refl _ s
  · exact alters_capEff _ _ _ _ s

theorem alters_overdrawOver (s : State) : Alters siteRegs s (overdrawOver s) := by
  unfold overdrawOver
  split
  · exact .refl _ s
  · exact alters_capEff _ _ _ _ s

theorem alters_ovrShown (s : State) : Alters siteRegs s (ovrShown s) := by
  unfold ovrShown
  split_ifs
  · exact .refl _ s
  · exact ⟨fun _ _ => rfl, rfl⟩
  · exact alters_overdrawOver s
  · exact .refl _ s

theorem alters_siteUpdate (s : State) : Alters siteRegs s (siteUpdate s) := by
  rw [siteUpdate_eq]
  exact ((alters_altShown s).trans (alters_ovrShown _)).trans ((updateThr_does _).1.mono fun _ => .inr)

theorem otherRegs_releaseAsked (s : State) :
    OtherRegs (fun k => k = rk pgPci 0 0x100 ∨ ∃ pg < 146, k = rk pg 0 0x030) s (releaseAsked s) := by
  have hf : OtherRegs (fun k => k = rk pgPci 0 0x100 ∨ ∃ pg < 146, k = rk pg 0 0x030) s
      ((List.range 146).foldl (fun s pg => setFld pg 0 0x030 0 2 0 s) s) :=
    OtherRegs.foldl s fun pg hp u => otherRegs_setFld (.inr ⟨pg, List.mem_range.1 hp, rfl⟩) _ _ _ u
  unfold releaseAsked
  simp only
  split
  · exact hf.trans (otherRegs_setFld (.inl rfl) _ _ _ _)
  · exact hf

theorem otherRegs_goDone (s : State) : OtherRegs (fun k => k = rk pgRst 0 0x100 ∨ irqRegs pgRst k) s (goDone s) :=
  (otherRegs_setFld (.inl rfl) _ _ _ s).trans ((raiseIrq_does pgRst 0 _).1.mono fun _ => .inr)

/-- The state of an aborted entry as WAKE_ABORT is set. -/
def abortShown (s : State) : State := setFld pgRst 0 0x104 25 1 1 (releaseAsked { s with rst := { s.rst with trans := none } })

theorem otherRegs_abortShown (s : State) :
    OtherRegs (fun k => k = rk pgRst 0 0x104 ∨ k = rk pgPci 0 0x100 ∨ ∃ pg < 146, k = rk pg 0 0x030) s (abortShown s) :=
  ((otherRegs_releaseAsked { s with rst := { s.rst with trans := none } }).mono fun _ => .inr).trans
    (otherRegs_setFld (.inl rfl) _ _ _ _)

theorem otherRegs_shown_wakeAbort (s : State) :
    OtherRegs (fun k => k = rk pgRst 0 0x100 ∨ irqRegs pgRst k) (abortShown s) (wakeAbort s) :=
  ((raiseIrq_does pgRst 1 (abortShown s)).1.mono fun _ => .inr).trans (otherRegs_goDone _)

theorem otherRegs_wakeAbort (s : State) : OtherRegs offCmp s (wakeAbort s) := by
  refine (otherRegs_abortShown s).mono ?_ |>.trans ((otherRegs_shown_wakeAbort s).mono ?_)
  · simp only [offCmp, rk, pgRst, pgPci, pgAna]; omega
  · rintro k (rfl | hk)
    · decide
    · exact offCmp_irqRegs hk

/-- An aborted entry leaves the device state as it was (R337). -/
theorem devState_wakeAbort (s : State) : devState (wakeAbort s) = devState s := by
  have h1 : getReg pgRst 0 0x104 (wakeAbort s) = getReg pgRst 0 0x104 (abortShown s) :=
    (otherRegs_shown_wakeAbort s).getReg (by simp only [irqRegs, rk, pgRst, pgPba]; omega)
  have h2 : getReg pgRst 0 0x104 (releaseAsked { s with rst := { s.rst with trans := none } }) = getReg pgRst 0 0x104 s :=
    (otherRegs_releaseAsked _).getReg (by simp only [rk, pgRst, pgPci]; omega)
  rw [devState, getFld, h1, abortShown]
  refine (fld_congr fun k _ hk => bit_setFld_ne _ _ _ _ _ _ (by omega) _).trans ?_
  rw [h2]
  rfl

theorem tabFind_filter {α : Type} {p : Nat × α → Bool} {k : Nat} (h : ∀ v, p (k, v) = true) (t : Tab α) :
    tabFind k (t.filter p) = tabFind k t := by
  induction t with
  | nil => rfl
  | cons e t ih =>
    obtain ⟨k', v⟩ := e
    by_cases hk : k' = k
    · subst hk
      rw [List.filter_cons_of_pos (h v), tabFind_cons, tabFind_cons, if_pos rfl, if_pos rfl]
    · rw [List.filter_cons]
      split <;> simp [tabFind_cons, hk, ih]

/-- A page reset keeps the registers of the other pages. -/
theorem otherRegs_resetPage (pg : Nat) (keep : Nat → Bool) (s : State) :
    OtherRegs (fun k => k / 65536 / 512 = pg) s (resetPage pg keep s) := fun k hk =>
  tabFind_filter (fun _ => by simp [hk]) _

/-- A retention area that fails concerns its page, BSN and RST. -/
theorem otherRegs_restoreFails {pg : Nat} (h : pg ≠ pgAna) (s : State) : OtherRegs offCmp s (restoreFails pg s) := by
  have hreg (v : Word) (u : State) : OtherRegs offCmp u (setReg pgBsn 0 0x028 v u) := otherRegs_setReg (by decide) v u
  have hpg (keep : Nat → Bool) (u : State) : OtherRegs offCmp u (resetPage pg keep u) :=
    (otherRegs_resetPage pg keep u).mono fun k hk => by rintro rfl; exact h hk.symm
  have hst (u : State) : OtherRegs offCmp u (setFld pgRst 0 0x104 24 1 1 u) := otherRegs_setFld (by decide) _ _ _ u
  have hfault (u : State) : OtherRegs offCmp u (fault 264 u) := (alters_fault 264 u fun _ => offCmp_faultRegs).1
  have hbase := (hreg (putFld (putFld (getReg pgBsn 0 0x028 s) 16 1 0) 17 1 1) s).trans
    (hpg (fun off => off == 0x03C || off == 0x00C) _)
  unfold restoreFails
  simp only
  refine OtherRegs.trans ?_ ((hst _).trans (hfault _))
  split
  · exact fun k hk => hbase k hk
  · exact hbase

theorem otherRegs_setPower {R : Nat → Prop} (d : Nat) (on : Bool) (h : ∀ pg ∈ domainPages d, R (rk pg 0 0x00C)) (s : State) :
    OtherRegs R s (setPower d on s) := by
  unfold setPower
  split
  · exact .refl R s
  · exact OtherRegs.foldl s fun pg hp u => otherRegs_setFld (h pg hp) _ _ _ u

theorem nth_mem_or_default {α : Type} (d : α) (l : List α) (i : Nat) : nth d l i = d ∨ nth d l i ∈ l := by
  rw [nth, List.getD_eq_getElem?_getD]
  by_cases h : i < l.length
  · simp [h]
  · simp [h]

/-- The areas of domains that hold no page of the analogue block are read back without a change of the comparators' outputs. -/
theorem otherRegs_restoreAreas {ds : List Nat} (h : ∀ d ∈ ds, pgAna ∉ domainPages d) (s : State) :
    OtherRegs offCmp s (restoreAreas ds s) := by
  unfold restoreAreas
  simp only
  split
  · refine OtherRegs.trans (t := (takeFree s).2) (fun _ _ => rfl) (otherRegs_restoreFails ?_ _)
    rcases nth_mem_or_default 0 (ds.map domainPages).flatten ((takeFree s).1 % (ds.map domainPages).flatten.length) with hn | hn
    · rw [hn]; decide
    · intro heq
      rw [heq, List.mem_flatten] at hn
      obtain ⟨l, hl, hm⟩ := hn
      obtain ⟨d, hd, rfl⟩ := List.mem_map.1 hl
      exact h d hd hm
  · exact .refl _ s

theorem otherRegs_endDoze (s : State) : OtherRegs offCmp s (endDoze s) := by
  unfold endDoze
  split
  · refine ((otherRegs_setFld (by decide) 0 2 0 s).trans (OtherRegs.foldl _ fun c _ u => ?_)).trans
      (otherRegs_restoreAreas (fun d hd hm => ?_) _)
    · exact otherRegs_setPower (80 + c) true (fun pg _ => by simp only [offCmp, rk, pgAna]; omega) u
    · obtain ⟨c, hc, rfl⟩ := List.mem_map.1 hd
      have hlt := List.mem_range.1 (List.mem_of_mem_filter hc)
      simp only [domainPages, List.mem_filter, beq_iff_eq, show pageDomain pgAna = 120 from rfl] at hm
      omega
  · exact .refl _ s

/-- A wake from a state other than OFF leaves the comparators' outputs as they are. -/
theorem otherRegs_wake (w : WakeSrc) {s : State} (h : devState s ≠ 3) : OtherRegs offCmp s (wake w s) := by
  have hd : devState (if s.rst.trans.isSome then wakeAbort s else s) = devState s := by
    split
    · exact devState_wakeAbort s
    · rfl
  have ha : OtherRegs offCmp s (if s.rst.trans.isSome then wakeAbort s else s) := by
    split
    · exact otherRegs_wakeAbort s
    · exact .refl _ s
  unfold wake
  simp only
  generalize (if s.rst.trans.isSome = true then wakeAbort s else s) = u at hd ha
  split_ifs with h1 h2 h3 h4 h5
  · exact .refl _ s
  · exact ha
  · exact ha.trans ((otherRegs_endDoze u).trans (otherRegs_setReg (by decide) _ _))
  · exact ha
  · exact absurd (hd ▸ h5) h
  · exact ha

theorem devState_siteUpdate (s : State) : devState (siteUpdate s) = devState s := by
  rw [devState, getFld, (alters_siteUpdate s).getReg]
  · rfl
  · rintro (h | ⟨r, hr, h⟩ | h | h)
    · exact absurd h (by decide)
    · simp only [rk, pgRst, pgPwr] at h; omega
    · exact absurd h (by decide)
    · simp only [irqRegs, rk, pgRst, pgPwr, pgPba] at h; omega

/-- CMP_STS after a change of an output: the output and RISE or FALL. -/
def cmpShown (c : Nat) (out : Bool) (s : State) : State :=
  setFld pgAna 0 0x138 (if out then 4 + c else 8 + c) 1 1 (setFld pgAna 0 0x138 c 1 (b2n out) s)

/-- Of an output that changes, Proofer and the wake do not change CMP_STS again. -/
theorem cmpSts_cmpSet {c : Nat} {out : Bool} {s : State} (hc : c < 4) (hd : devState s ≠ 3) (hne : cmpOut c s ≠ out) :
    getReg pgAna 0 0x138 (cmpSet c out s) = getReg pgAna 0 0x138 (cmpShown c out s) := by
  have hx : cmpSet c out s = wake (.comparator ⟨c, hc⟩) (siteUpdate (cmpShown c out s)) := by
    simp only [cmpSet, if_neg hne, dif_pos hc]
    rfl
  have hdev : devState (siteUpdate (cmpShown c out s)) ≠ 3 := by
    rw [devState_siteUpdate, devState, getFld, cmpShown, getReg_setFld_ne (by decide), getReg_setFld_ne (by decide)]
    exact hd
  rw [hx, (otherRegs_wake _ hdev).getReg fun hk => hk rfl, (alters_siteUpdate _).getReg]
  rintro (h | h)
  · exact absurd h (by decide)
  · exact offCmp_thrRegs h rfl

theorem cmpCross_up {c microV : Nat} {s : State} (hu : s.pins.sysRstN = true) (hh : s.rst.held = false) :
    cmpCross c microV s = cmpSet c (cmpNext c microV s) s := by
  simp [cmpCross, aonUp, hu, hh]

theorem cmpOut_cmpShown (c : Nat) (hc : c < 4) (out : Bool) (s : State) : cmpOut c (cmpShown c out s) = out := by
  rw [cmpOut, cmpShown, bit_setFld_ne _ _ _ _ _ _ (by split <;> omega)]
  exact bit_setFld_self _ _ _ (by omega) out s

/-- The output and the edge that a crossing leaves. -/
theorem cmpCross_shows {c : Nat} {microV : Nat} {s : State} (hc : c < 4) (hu : s.pins.sysRstN = true) (hh : s.rst.held = false)
    (hd : devState s ≠ 3) : cmpOut c (cmpCross c microV s) = cmpNext c microV s ∧ (cmpNext c microV s ≠ cmpOut c s →
      bit (getReg pgAna 0 0x138 (cmpCross c microV s)) (if cmpNext c microV s then 4 + c else 8 + c) = true) := by
  rw [cmpCross_up hu hh]
  generalize cmpNext c microV s = out
  by_cases hne : cmpOut c s = out
  · rw [cmpSet, if_pos hne]
    exact ⟨hne, fun h => absurd hne.symm h⟩
  · have hr := cmpSts_cmpSet hc hd hne
    refine ⟨?_, fun _ => ?_⟩
    · rw [cmpOut, hr]
      exact cmpOut_cmpShown c hc out s
    · rw [hr]
      exact bit_setFld_self pgAna 0 0x138 (by split <;> omega) true _

/-- Settles O16: each clause is what its counter, converter or comparator does out of reset. -/
theorem aonCountersAndConverters : Obligations.AonCountersAndConverters := by
  unfold Obligations.AonCountersAndConverters
  refine ⟨fun s hu => ?_, fun s hu hc => ?_, fun code i s hu hh hi => ?_, fun code s hu hh => ?_, fun dom s h2 hl => ?_,
    fun c microV s hu hh hd => ?_⟩
  · refine ⟨_, exec_aonMsStep s, ?_⟩
    rw [aonStep_up hu]
    refine ⟨rfl, fun hc => ?_, fun hc hf => ?_, fun hd => if_neg (by omega), rfl, sameBytes_of_mem rfl rfl rfl⟩
    · by_cases hf : s.aon.f < 125
      · exact .inl ((if_pos hc).trans (msFraction_balance hf).1)
      · exact .inr (by omega)
    · have hb := (msFraction_balance hf).2
      simp only [tidyMem_aon, aonAfter, hc, if_true]
      omega
  · refine ⟨_, exec_crystalSwitch s, ?_, ?_⟩ <;> simp [crystalSwitch, aonUp, hu, hc]
  · have hx := exec_adcConversion code s
    rw [adcConvert_up hu hh hi] at hx
    obtain ⟨hcode, hcnt, hv⟩ := adcWord_fields code
      (Nat.mod_lt (getFld pgAna 0 (0x108 + 4 * i) 16 15 { s with aon := { s.aon with adcLast := i } } + 1) (by omega : 0 < 2 ^ 15))
    refine ⟨_, hx, rfl, ?_, ?_, ?_, fun k hk => tabFind_set_ne hk _ _⟩
    · rw [getFld_tidyMem, getFld, getReg_adcResult]
      exact hcode
    · rw [getFld_tidyMem, getFld, getReg_adcResult]
      exact hcnt
    · rw [getReg_tidyMem, getReg_adcResult]
      exact hv
  · have hx := exec_adcReferenceCheck code s
    rw [adcCheck_up hu hh] at hx
    refine ⟨_, hx, fun hr => ?_, fun hr => ?_⟩
    · rw [if_pos hr]
      exact ⟨bit_setFld_self pgAna 0 0x104 (by omega) true s, rfl, otherRegs_setFld (R := fun k => k = rk pgAna 0 0x104) rfl _ _ _ s⟩
    · rw [hr, if_neg Bool.false_ne_true]
      refine ⟨?_, bit_sticky_faultAt (pg := pgAna) (b := 1) 287 (by decide) (by omega) _⟩
      have ha := alters_fault (R := faultRegs (srcHome 287).1) 287 (setFld pgAna 0 0x104 0 1 0 s) fun _ h => h
      rw [getReg_tidyMem, ha.getReg (by simp only [faultRegs, irqRegs, rk, pgPba, srcHome, pgAna]; omega)]
      exact bit_setFld_self pgAna 0 0x104 (by omega) false s
  · obtain ⟨hlost, hcnt⟩ := pllLoss_locked h2 dom.isLt hl
    refine ⟨_, exec_pllLossOfLock dom s, clkLocked_of_mem_lost h2 ?_, ?_⟩
    · rw [tidyMem_rst, hlost]
      simp
    · rw [getReg_tidyMem, hcnt]
      exact getReg_addFld_whole pgClk 0 0x104 1 s
  · exact ⟨_, exec_comparatorCrossing c microV s, cmpCross_shows c.isLt hu hh hd⟩

/-! ## A publication (R19, R20, R320 to R324) -/

/-- What of Proofer's state the ends of a publication leave alone: the period, the overdraw, the critical readings. -/
def PeriodKept (s t : State) : Prop :=
  t.pwr.count = s.pwr.count ∧ t.pwr.oocDue = s.pwr.oocDue ∧ t.pwr.cut = s.pwr.cut ∧ t.pwr.ovr = s.pwr.ovr ∧
  t.pwr.ovrDue = s.pwr.ovrDue ∧ t.pwr.critRun = s.pwr.critRun

theorem PeriodKept.of_pwr_eq {s t : State} (h : t.pwr = s.pwr) : PeriodKept s t := by simp [PeriodKept, h]

theorem PeriodKept.trans {s t u : State} (h : PeriodKept s t) (h' : PeriodKept t u) : PeriodKept s u := by
  obtain ⟨h1, h2, h3, h4, h5, h6⟩ := h
  obtain ⟨g1, g2, g3, g4, g5, g6⟩ := h'
  exact ⟨g1.trans h1, g2.trans h2, g3.trans h3, g4.trans h4, g5.trans h5, g6.trans h6⟩

theorem PeriodKept.foldl {α : Type} {f : State → α → State} :
    ∀ {l : List α} (s : State), (∀ a ∈ l, ∀ s, PeriodKept s (f s a)) → PeriodKept s (l.foldl f s)
  | [], _, _ => .of_pwr_eq rfl
  | a :: l, s, h => (h a (by simp) s).trans (PeriodKept.foldl (f s a) fun b hb => h b (by simp [hb]))

theorem periodKept_raiseIrq (pg j : Nat) (s : State) : PeriodKept s (raiseIrq pg j s) :=
  .of_pwr_eq (by rw [(raiseIrq_does pg j s).2])

theorem periodKept_fault (i : Nat) (s : State) : PeriodKept s (fault i s) :=
  .of_pwr_eq (by unfold fault; rw [(faultAt_does _ _ _ s).2])

theorem periodKept_setThr {r : Nat} (hr : r < 8) (c : Nat) (on : Bool) (s : State) : PeriodKept s (setThr r c on s) := by
  obtain ⟨-, -, n, h⟩ := setThr_does r c on s hr
  simp [PeriodKept, h]

theorem periodKept_updateThr (s : State) : PeriodKept s (updateThr s) := by
  obtain ⟨-, -, t, n, h⟩ := updateThr_does s
  simp [PeriodKept, h]

theorem periodKept_applyTarget {c : Nat} (hc : c < 16) (s : State) : PeriodKept s (applyTarget s c) := by
  obtain ⟨-, -, b, h, e, hp⟩ := applyTarget_does c s hc
  simp [PeriodKept, hp]

/-- A publication up to FIX_STS: the period closed, the check of R319, the F_top of the clusters, the analogue cap sampled. -/
def pubOpened (ooc : Bool) (s : State) : State :=
  let s := overdrawCheck (closePeriod ooc s)
  let s := { s with pwr := { s.pwr with fTop := (List.range 16).map (fun c => (c, fTopNow c s)) } }
  let s := if ooc then s else { s with pwr := { s.pwr with ainCap := analogueCap s } }
  setReg pgPwr 0 0x118 (putFld (getReg pgPwr 0 0x118 s) 0 1 (getFld pgPwr 0 0x114 0 1 s)) s

/-- The effective cap shown in CAP_EFF. -/
def pubCap (s : State) : State :=
  setReg pgPwr 0 0x110 (w32 ((effCap s).1 + b2n (altOn s) * 2 ^ 9 + b2n s.pwr.ovr * 2 ^ 10 + b2n (effCap s).2 * 2 ^ 11)) s

/-- The weights of the powered clusters together. -/
def sumWeights (s : State) : Nat := (List.range 16).foldl (fun a c => if clPowered c s then a + clWeight c s else a) 0

/-- The smallest headroom of the sensors. -/
def leastHeadroom (s : State) : Nat := (List.range 32).foldl (fun m i => min m (headroom i s)) 255

/-- The word of BUD_FLAGS: the cause, the state of the caps, the headroom, the cap. -/
def budFlags (ooc : Bool) (w head : Nat) (s : State) : Nat :=
  b2n ooc + 2 * b2n (altOn s) + 4 * b2n s.pwr.ovr + 8 * getFld pgPwr 0 0x118 0 1 s + head * 2 ^ 8 + w * 2 ^ 16

/-- BUD_SEQ, BUD_FLAGS and the device's budget set. -/
def pubHead (ooc : Bool) (w head fix : Nat) (s : State) : State :=
  let s := setReg pgPwr 0 0x1A0 (getReg pgPwr 0 0x1A0 s + 1) s
  let s := setReg pgPwr 0 0x1A4 (w32 (budFlags ooc w head s)) s
  setReg pgPwr 0 0x1A8 (w32 (w * 100)) (setReg pgPwr 0 0x1AC (w32 fix) s)

/-- A cluster's share of an energy. -/
def clShare (e sumW : Nat) (s : State) (c : Nat) : Nat :=
  if clPowered c s && sumW != 0 then e * clWeight c s / sumW else 0

/-- A cluster's word of the budget. -/
def budWord (e sumW : Nat) (s : State) (c : Nat) : Word := w32 (clShare e sumW s c % 2 ^ 24 + headroom c s * 2 ^ 24)

/-- The clusters' words of the budget set. -/
def budWords (e sumW : Nat) (s : State) : State :=
  (List.range 16).foldl (fun v c => setReg pgPwr 0 (0x1B0 + 4 * c) (budWord e sumW v c) v) s

/-- The effective cap and the budget shown, `w` being the cap, `fix` the energy that no cluster shares. -/
def budShown (ooc : Bool) (w fix : Nat) (s : State) : State :=
  budWords (w * 100 - fix) (sumWeights s) (pubHead ooc w (leastHeadroom s) fix s)

/-- CAP_EFF and the budget shown. -/
def pubShown (ooc : Bool) (s : State) : State := budShown ooc (effCap s).1 (toUj s.pwr.lastFix) (pubCap s)

/-- The targets and the throttle reasons that follow the budget. -/
def pubEnd (ooc : Bool) (s : State) : State :=
  let s := (List.range 16).foldl applyTarget s
  updateThr (if ooc then raiseIrq pgPwr 0 s else s)

theorem publish_eq (ooc : Bool) (s : State) : publish ooc s = pubEnd ooc (pubShown ooc (pubOpened ooc s)) := rfl

/-- The registers of the budget. -/
def budRegs (k : Nat) : Prop := ∃ i < 20, k = rk pgPwr 0 (0x1A0 + 4 * i)

theorem alters_pwr (R : Nat → Prop) (p : Pwr) (s : State) : Alters R s { s with pwr := p } := ⟨fun _ _ => rfl, rfl⟩

/-- Proofer's state as a publication closes its period. -/
theorem closePeriod_pwr (ooc : Bool) (s : State) : (closePeriod ooc s).pwr.count = 0 ∧ (closePeriod ooc s).pwr.oocDue = false ∧
    (closePeriod ooc s).pwr.cut = ooc ∧ (closePeriod ooc s).pwr.ovr = s.pwr.ovr ∧
    (closePeriod ooc s).pwr.ovrDue = s.pwr.ovrDue ∧ (closePeriod ooc s).pwr.critRun = s.pwr.critRun := by
  cases ooc <;> simp [closePeriod]

theorem pubOpened_does (ooc : Bool) (s : State) :
    Alters (fun k => k = rk pgPwr 0 0x118 ∨ faultRegs pgBsn k) s (pubOpened ooc s) ∧
      PeriodKept (closePeriod ooc s) (pubOpened ooc s) := by
  obtain ⟨hc, hp⟩ := overdrawCheck_does (closePeriod ooc s)
  have hbase : Alters (fun k => k = rk pgPwr 0 0x118 ∨ faultRegs pgBsn k) s (overdrawCheck (closePeriod ooc s)) :=
    (alters_pwr _ _ s).trans (hc.mono fun _ => .inr)
  have hset (u : State) (v : Word) : Alters (fun k => k = rk pgPwr 0 0x118 ∨ faultRegs pgBsn k) u (setReg pgPwr 0 0x118 v u) :=
    alters_setReg _ _ _ v u (.inl rfl)
  have hk : PeriodKept (closePeriod ooc s) (overdrawCheck (closePeriod ooc s)) := .of_pwr_eq hp
  cases ooc
  · exact ⟨((hbase.trans (alters_pwr _ _ _)).trans (alters_pwr _ _ _)).trans (hset _ _), hk⟩
  · exact ⟨(hbase.trans (alters_pwr _ _ _)).trans (hset _ _), hk⟩

theorem altersRegs_pubHead (ooc : Bool) (w head fix : Nat) (s : State) : AltersRegs budRegs s (pubHead ooc w head fix s) :=
  (((altersRegs_setReg ⟨0, by omega, rfl⟩ _ s).trans (altersRegs_setReg ⟨1, by omega, rfl⟩ _ _)).trans
    (altersRegs_setReg ⟨3, by omega, rfl⟩ _ _)).trans (altersRegs_setReg ⟨2, by omega, rfl⟩ _ _)

theorem altersRegs_budWords (e sumW : Nat) (s : State) : AltersRegs budRegs s (budWords e sumW s) :=
  AltersRegs.foldl s fun c hc v => altersRegs_setReg ⟨c + 4, by have := List.mem_range.1 hc; omega,
    by simp only [rk]; omega⟩ _ v

theorem altersRegs_budShown (ooc : Bool) (w fix : Nat) (s : State) : AltersRegs budRegs s (budShown ooc w fix s) :=
  (altersRegs_pubHead ooc w (leastHeadroom s) fix s).trans (altersRegs_budWords _ _ _)

theorem altersRegs_pubShown (ooc : Bool) (s : State) :
    AltersRegs (fun k => k = rk pgPwr 0 0x110 ∨ budRegs k) s (pubShown ooc s) := by
  obtain ⟨ho, hs⟩ := altersRegs_budShown ooc (effCap s).1 (toUj s.pwr.lastFix) (pubCap s)
  exact (altersRegs_setReg (.inl rfl) _ s).trans ⟨ho.mono fun _ => .inr, hs⟩

theorem AltersRegs.alters {R : Nat → Prop} {s t : State} (h : AltersRegs R s t) : Alters R s t := by
  obtain ⟨ho, h⟩ := h
  exact ⟨ho, by rw [h]⟩

theorem AltersRegs.pwr {R : Nat → Prop} {s t : State} (h : AltersRegs R s t) : t.pwr = s.pwr := by rw [h.2]

theorem pubEnd_does (ooc : Bool) (s : State) :
    Alters (fun k => stepRegs k ∨ k = rk pgPwr 0 0x118 ∨ thrRegs k) s (pubEnd ooc s) ∧ PeriodKept s (pubEnd ooc s) := by
  have ht : Alters (fun k => stepRegs k ∨ k = rk pgPwr 0 0x118 ∨ thrRegs k) s ((List.range 16).foldl applyTarget s) :=
    Alters.foldlMem _ _ (fun u c hc => (applyTarget_does c u (List.mem_range.1 hc)).1.mono fun k hk => by tauto) s
  have htk : PeriodKept s ((List.range 16).foldl applyTarget s) :=
    PeriodKept.foldl s fun c hc u => periodKept_applyTarget (List.mem_range.1 hc) u
  have hu (u : State) : Alters (fun k => stepRegs k ∨ k = rk pgPwr 0 0x118 ∨ thrRegs k) u (updateThr u) :=
    (updateThr_does u).1.mono fun _ hk => .inr (.inr hk)
  cases ooc
  · exact ⟨ht.trans (hu _), htk.trans (periodKept_updateThr _)⟩
  · exact ⟨(ht.trans (alters_raiseIrq _ _ _ fun _ hk => .inr (.inr (.inr (.inr hk))))).trans (hu _),
      (htk.trans (periodKept_raiseIrq _ _ _)).trans (periodKept_updateThr _)⟩

/-- What a publication can do: registers of `pubRegs`; of Proofer's state the period starts anew. -/
theorem publish_does (ooc : Bool) (s : State) : Alters pubRegs s (publish ooc s) ∧ PeriodKept (closePeriod ooc s) (publish ooc s) := by
  obtain ⟨h1, k1⟩ := pubOpened_does ooc s
  have h2 := altersRegs_pubShown ooc (pubOpened ooc s)
  obtain ⟨h3, k3⟩ := pubEnd_does ooc (pubShown ooc (pubOpened ooc s))
  rw [publish_eq]
  refine ⟨((h1.mono ?_).trans (h2.alters.mono ?_)).trans (h3.mono ?_), (k1.trans (.of_pwr_eq h2.pwr)).trans k3⟩
  · rintro k (hk | hk)
    · exact .inl hk
    · exact .inr (.inr (.inr (.inl hk)))
  · rintro k (hk | hk)
    · exact .inr (.inl hk)
    · exact .inr (.inr (.inl hk))
  · rintro k (hk | hk | hk)
    · exact .inr (.inr (.inr (.inr (.inl hk))))
    · exact .inl hk
    · exact .inr (.inr (.inr (.inr (.inr hk))))

theorem foldl_min_le {α : Type} (f : α → Nat) : ∀ (l : List α) (m : Nat), l.foldl (fun m i => min m (f i)) m ≤ m
  | [], _ => le_rfl
  | _ :: l, _ => (foldl_min_le f l _).trans (min_le_left _ _)

theorem foldl_if_add {α : Type} (p : α → Bool) (f : α → Nat) : ∀ (l : List α) (a : Nat),
    l.foldl (fun a c => if p c then a + f c else a) a = a + (l.map (fun c => if p c then f c else 0)).sum
  | [], _ => rfl
  | c :: l, a => by
    rw [List.foldl_cons, foldl_if_add p f l, List.map_cons, List.sum_cons]
    split <;> omega

/-- Shares of `e` by weight, each rounded down, do not exceed `e` together. -/
theorem sum_shares_le {α : Type} (e n : Nat) (w : α → Nat) :
    ∀ l : List α, (l.map (fun c => e * w c / n)).sum ≤ e * (l.map w).sum / n
  | [] => by simp
  | c :: l => by
    rw [List.map_cons, List.sum_cons, List.map_cons, List.sum_cons, Nat.mul_add]
    exact (Nat.add_le_add_left (sum_shares_le e n w l) _).trans Nat.div_add_div_le_add_div

theorem clShare_eq (e sumW : Nat) (s : State) (c : Nat) :
    clShare e sumW s c = e * (if clPowered c s then clWeight c s else 0) / sumW := by
  unfold clShare
  cases clPowered c s
  · simp
  · rcases Nat.eq_zero_or_pos sumW with rfl | h
    · simp
    · simp [Nat.ne_of_gt h]

/-- The clusters' shares together do not exceed what is shared. -/
theorem sum_clShare_le (e : Nat) (s : State) : ((List.range 16).map (clShare e (sumWeights s) s)).sum ≤ e := by
  have hS : sumWeights s = ((List.range 16).map (fun c => if clPowered c s then clWeight c s else 0)).sum :=
    (foldl_if_add _ _ _ _).trans (Nat.zero_add _)
  have hc : (List.range 16).map (clShare e (sumWeights s) s) =
      (List.range 16).map (fun c => e * (if clPowered c s then clWeight c s else 0) / sumWeights s) :=
    List.map_congr_left fun c _ => clShare_eq e (sumWeights s) s c
  rw [hc]
  refine (sum_shares_le _ _ _ _).trans ?_
  rw [← hS]
  exact Nat.div_le_of_le_mul (by rw [Nat.mul_comm])

theorem headroom_le (i : Nat) (s : State) : headroom i s ≤ 255 := Nat.min_le_left _ _

/-- A cluster's power and weight do not stand in the budget's registers. -/
theorem clPowered_budRegs {s t : State} (h : OtherRegs budRegs s t) (c : Nat) : clPowered c t = clPowered c s := by
  rw [clPowered, powered, h.getReg (by rintro ⟨i, hi, hk⟩; simp only [rk] at hk; omega)]
  rfl

theorem clWeight_budRegs {s t : State} (h : OtherRegs budRegs s t) {c : Nat} (hc : c < 16) : clWeight c t = clWeight c s := by
  rw [clWeight, getFld, h.getReg (by rintro ⟨i, hi, hk⟩; simp only [rk] at hk; omega)]
  rfl

theorem headroom_budRegs {s t : State} (h : OtherRegs budRegs s t) (c : Nat) : headroom c t = headroom c s := by
  rw [headroom, headroom, thrLimit, thrLimit, reading, reading, getFld, getFld,
    h.getReg (by rintro ⟨i, hi, hk⟩; simp only [rk] at hk; omega),
    h.getReg (by rintro ⟨i, hi, hk⟩; simp only [rk] at hk; omega)]
  rfl

theorem budWord_budRegs {s t : State} (h : OtherRegs budRegs s t) (e sumW : Nat) {c : Nat} (hc : c < 16) :
    budWord e sumW t c = budWord e sumW s c := by
  rw [budWord, budWord, clShare, clShare, clPowered_budRegs h, clWeight_budRegs h hc, headroom_budRegs h]

/-- Each cluster's register of the list holds the cluster's word. -/
theorem getReg_foldl_budWord (e sumW : Nat) {c : Nat} :
    ∀ (l : List Nat) (s : State), (∀ a ∈ l, a < 16) → c ∈ l →
      getReg pgPwr 0 (0x1B0 + 4 * c) (l.foldl (fun v c => setReg pgPwr 0 (0x1B0 + 4 * c) (budWord e sumW v c) v) s) =
        budWord e sumW s c
  | [], _, _, h => by simp at h
  | a :: l, s, hl, h => by
    have hset : OtherRegs budRegs s (setReg pgPwr 0 (0x1B0 + 4 * a) (budWord e sumW s a) s) :=
      otherRegs_setReg ⟨a + 4, by have := hl a (by simp); omega, by simp only [rk]; omega⟩ _ s
    rw [List.foldl_cons]
    by_cases hm : c ∈ l
    · rw [getReg_foldl_budWord e sumW l _ (fun b hb => hl b (by simp [hb])) hm, budWord_budRegs hset e sumW (hl c h)]
    · obtain rfl : c = a := by simpa [hm] using h
      generalize hv : setReg pgPwr 0 (0x1B0 + 4 * c) (budWord e sumW s c) s = v
      have hout : OtherRegs (fun k => ∃ b ∈ l, k = rk pgPwr 0 (0x1B0 + 4 * b)) v
          (l.foldl (fun v c => setReg pgPwr 0 (0x1B0 + 4 * c) (budWord e sumW v c) v) v) :=
        OtherRegs.foldl v fun b hb u => otherRegs_setReg ⟨b, hb, rfl⟩ _ u
      rw [hout.getReg, ← hv, getReg_setReg_self]
      rintro ⟨b, hb, hk⟩
      obtain rfl : c = b := by simp only [rk] at hk; omega
      exact hm hb

theorem getReg_budWords (e sumW : Nat) {c : Nat} (h : c < 16) (s : State) :
    getReg pgPwr 0 (0x1B0 + 4 * c) (budWords e sumW s) = budWord e sumW s c :=
  getReg_foldl_budWord e sumW _ s (fun _ ha => List.mem_range.1 ha) (List.mem_range.2 h)

theorem effCap_bounds (s : State) : 150 ≤ (effCap s).1 ∧ (effCap s).1 ≤ 500 := by
  have h (w : Nat) : 150 ≤ clampW w ∧ clampW w ≤ 500 := by unfold clampW; omega
  exact h _

/-- The fields of BUD_FLAGS that a reader takes. -/
theorem budFlags_fields (ooc : Bool) {w head : Nat} (hw : w ≤ 500) (hh : head ≤ 255) (s : State) :
    bit (w32 (budFlags ooc w head s)) 0 = ooc ∧ fld (w32 (budFlags ooc w head s)) 16 9 = w := by
  have hb (b : Bool) : b2n b ≤ 1 := by cases b <;> decide
  have h1 := hb (altOn s)
  have h2 := hb s.pwr.ovr
  have h3 : getFld pgPwr 0 0x118 0 1 s < 2 ^ 1 := Nat.mod_lt _ (by omega)
  have h0 := hb ooc
  constructor
  · have hmod : budFlags ooc w head s % 2 = b2n ooc := by rw [budFlags]; omega
    rw [bit_w32 _ (by omega), Nat.testBit_zero, hmod]
    cases ooc <;> rfl
  · rw [fld_w32, budFlags]
    omega

theorem getReg_pubHead_seq (ooc : Bool) (w head fix : Nat) (s : State) :
    getReg pgPwr 0 0x1A0 (pubHead ooc w head fix s) = getReg pgPwr 0 0x1A0 s + 1 := by
  rw [pubHead, getReg_setReg_ne (by decide), getReg_setReg_ne (by decide), getReg_setReg_ne (by decide), getReg_setReg_self]

theorem getReg_pubHead_flags (ooc : Bool) (w head fix : Nat) (s : State) : getReg pgPwr 0 0x1A4 (pubHead ooc w head fix s) =
    w32 (budFlags ooc w head (setReg pgPwr 0 0x1A0 (getReg pgPwr 0 0x1A0 s + 1) s)) := by
  rw [pubHead, getReg_setReg_ne (by decide), getReg_setReg_ne (by decide), getReg_setReg_self]

theorem getReg_pubHead_dev (ooc : Bool) (w head fix : Nat) (s : State) :
    getReg pgPwr 0 0x1A8 (pubHead ooc w head fix s) = w32 (w * 100) := by rw [pubHead, getReg_setReg_self]

/-- The words of the clusters stand above the head of the budget. -/
theorem getReg_budWords_head (e sumW : Nat) {off : Nat} (h : off < 0x1B0) (s : State) :
    getReg pgPwr 0 off (budWords e sumW s) = getReg pgPwr 0 off s := by
  have hout : OtherRegs (fun k => ∃ c, k = rk pgPwr 0 (0x1B0 + 4 * c)) s (budWords e sumW s) :=
    OtherRegs.foldl s fun c _ v => otherRegs_setReg ⟨c, rfl⟩ _ v
  exact hout.getReg (by rintro ⟨c, hk⟩; simp only [rk] at hk; omega)

/-- What the budget's registers show: the sequence number one higher, the cause, a cap in its bounds, and allowances that together do
not exceed the device's budget of 100 µJ a watt. -/
def BudgetShows (ooc : Bool) (s t : State) : Prop :=
  getReg pgPwr 0 0x1A0 t = getReg pgPwr 0 0x1A0 s + 1 ∧ bit (getReg pgPwr 0 0x1A4 t) 0 = ooc ∧
  150 ≤ getFld pgPwr 0 0x1A4 16 9 t ∧ getFld pgPwr 0 0x1A4 16 9 t ≤ 500 ∧
  (getReg pgPwr 0 0x1A8 t).toNat = 100 * getFld pgPwr 0 0x1A4 16 9 t ∧
  ((List.range 16).map (fun c => clAllow c t)).sum ≤ (getReg pgPwr 0 0x1A8 t).toNat

/-- A cluster's allowance is its share, or less where the share does not fit its field. -/
theorem clAllow_budShown_le (ooc : Bool) (w fix : Nat) {c : Nat} (hc : c < 16) (s : State) :
    clAllow c (budShown ooc w fix s) ≤ clShare (w * 100 - fix) (sumWeights s) s c := by
  have hroom := headroom_le c s
  rw [clAllow, getFld, budShown, getReg_budWords _ _ hc,
    budWord_budRegs (altersRegs_pubHead ooc w (leastHeadroom s) fix s).1 _ _ hc, budWord, fld_w32]
  generalize clShare (w * 100 - fix) (sumWeights s) s c = a
  have := Nat.mod_le a (2 ^ 24)
  omega

theorem budgetShows_budShown (ooc : Bool) {w : Nat} (hlo : 150 ≤ w) (hhi : w ≤ 500) (fix : Nat) (s : State) :
    BudgetShows ooc s (budShown ooc w fix s) := by
  have hhead : leastHeadroom s ≤ 255 := foldl_min_le _ _ _
  obtain ⟨hb, hw⟩ := budFlags_fields ooc hhi hhead (setReg pgPwr 0 0x1A0 (getReg pgPwr 0 0x1A0 s + 1) s)
  have hflags : getReg pgPwr 0 0x1A4 (budShown ooc w fix s) = _ :=
    (getReg_budWords_head _ _ (by omega) _).trans (getReg_pubHead_flags ooc w (leastHeadroom s) fix s)
  have hdev : (getReg pgPwr 0 0x1A8 (budShown ooc w fix s)).toNat = w * 100 := by
    rw [budShown, getReg_budWords_head _ _ (by omega), getReg_pubHead_dev, w32, BitVec.toNat_ofNat]
    omega
  refine ⟨?_, ?_, ?_⟩
  · rw [budShown, getReg_budWords_head _ _ (by omega), getReg_pubHead_seq]
  · rw [hflags]
    exact hb
  · rw [getFld, hflags, hw, hdev]
    refine ⟨hlo, hhi, Nat.mul_comm _ _, ?_⟩
    exact (List.sum_le_sum fun c hc => clAllow_budShown_le ooc w fix (List.mem_range.1 hc) s).trans
      ((sum_clShare_le _ _).trans (Nat.sub_le _ _))

/-- Registers outside the budget leave what it shows. -/
theorem BudgetShows.of_otherRegs {ooc : Bool} {s t u : State} {R : Nat → Prop} (h : BudgetShows ooc s t) (ho : OtherRegs R t u)
    (hR : ∀ k, budRegs k → ¬ R k) : BudgetShows ooc s u := by
  have hreg {i : Nat} (hi : i < 20) : getReg pgPwr 0 (0x1A0 + 4 * i) u = getReg pgPwr 0 (0x1A0 + 4 * i) t :=
    ho.getReg (hR _ ⟨i, hi, rfl⟩)
  have h0 := hreg (i := 0) (by omega)
  have h1 := hreg (i := 1) (by omega)
  have h2 := hreg (i := 2) (by omega)
  have hcl : (List.range 16).map (fun c => clAllow c u) = (List.range 16).map (fun c => clAllow c t) := by
    refine List.map_congr_left fun c hc => ?_
    have hc16 := List.mem_range.1 hc
    have h4 := hreg (i := c + 4) (by omega)
    rw [show 0x1A0 + 4 * (c + 4) = 0x1B0 + 4 * c by omega] at h4
    rw [clAllow, clAllow, getFld, getFld, h4]
  obtain ⟨hs, hb, hlo, hhi, hd, hsum⟩ := h
  rw [BudgetShows, getFld, hcl, h0, h1, h2]
  exact ⟨hs, hb, hlo, hhi, hd, hsum⟩

/-- A publication shows the budget of the state that it finds, and starts a period. -/
theorem budgetShows_publish (ooc : Bool) (s : State) : BudgetShows ooc s (publish ooc s) := by
  obtain ⟨ho, -⟩ := pubOpened_does ooc s
  obtain ⟨he, -⟩ := pubEnd_does ooc (pubShown ooc (pubOpened ooc s))
  have hseq : getReg pgPwr 0 0x1A0 (pubCap (pubOpened ooc s)) = getReg pgPwr 0 0x1A0 s := by
    rw [pubCap, getReg_setReg_ne (by decide)]
    exact ho.getReg (by simp only [faultRegs, irqRegs, rk, pgPwr, pgBsn, pgPba]; omega)
  obtain ⟨hlo, hhi⟩ := effCap_bounds (pubOpened ooc s)
  obtain ⟨hs, hrest⟩ := budgetShows_budShown ooc hlo hhi (toUj (pubOpened ooc s).pwr.lastFix) (pubCap (pubOpened ooc s))
  rw [publish_eq]
  refine BudgetShows.of_otherRegs (t := pubShown ooc (pubOpened ooc s)) ⟨by rw [← hseq]; exact hs, hrest⟩ he.1 ?_
  rintro k ⟨i, hi, rfl⟩
  rintro (⟨c, hc, hk⟩ | hk | ⟨r, hr, hk⟩ | hk | hk)
  all_goals
    simp only [irqRegs, rk, pgPwr, pgWeir, pgPba] at hk
    omega

theorem published_publish (ooc : Bool) (s : State) : Published ooc s (publish ooc s) := by
  obtain ⟨hs, hb, hlo, hhi, hd, hsum⟩ := budgetShows_publish ooc s
  obtain ⟨hcount, hdue, hcut, -⟩ := (publish_does ooc s).2
  obtain ⟨gcount, gdue, gcut, -⟩ := closePeriod_pwr ooc s
  exact ⟨hs, hb, hlo, hhi, hd, hsum, hcount.trans gcount, hdue.trans gdue, hcut.trans gcut⟩

/-! ## Conditions that stand in IRQ_RAW -/

/-- A condition that has arisen stands while others arise. -/
theorem raw_raiseIrq {pg k : Nat} (hp : pg ≠ pgPba) (j : Nat) {s : State} (h : bit (getReg pg 0 0x010 s) k = true) :
    bit (getReg pg 0 0x010 (raiseIrq pg j s)) k = true := by
  unfold raiseIrq
  split
  · exact h
  · rw [(otherRegs_setPend pg _ _).getReg (by simp only [rk, pgPba] at *; omega), getReg_setReg_self, bit_or, h, Bool.true_or]

theorem raw_setThr {k r : Nat} (hr : r < 8) (c : Nat) (on : Bool) {s : State} (h : bit (getReg pgPwr 0 0x010 s) k = true) :
    bit (getReg pgPwr 0 0x010 (setThr r c on s)) k = true := by
  unfold setThr
  simp only
  split
  · refine raw_raiseIrq (by decide) 1 ?_
    rw [getReg_setReg_ne (by decide), count32, addFld, getReg_setFld_ne (by simp only [rk]; omega)]
    exact h
  · exact h

theorem raw_updateThr {k : Nat} {s : State} (h : bit (getReg pgPwr 0 0x010 s) k = true) :
    bit (getReg pgPwr 0 0x010 (updateThr s)) k = true := by
  unfold updateThr
  have step {r : Nat} (hr : r < 8) (c : Nat) (on : Bool) {u : State} := raw_setThr (k := k) hr c on (s := u)
  exact step (by omega) _ _ (step (by omega) _ _ (step (by omega) _ _ (step (by omega) _ _ (step (by omega) _ _
    (step (by omega) _ _ h)))))

/-- A publication out of cycle raises condition 0. -/
theorem raw_publish (s : State) : bit (getReg pgPwr 0 0x010 (publish true s)) 0 = true := by
  rw [publish_eq]
  exact raw_updateThr (raiseIrq_raw pgPwr 0 (by decide) (by omega) _)

/-! ## The hard overdraw (R318) -/

/-- The registers of the stretches of R318: those of Weir, and FIX_STS. -/
def stretchRegs (k : Nat) : Prop :=
  (∃ c, k = rk (pgWeir c) 0 0x104 ∨ k = rk (pgWeir c) 0 0x114 ∨ k = rk (pgWeir c) 0 0x10C) ∨ k = rk pgPwr 0 0x118

theorem alters_forceStretch (s : State) (c : Nat) : Alters stretchRegs s (forceStretch s c) ∧ PeriodKept s (forceStretch s c) := by
  unfold forceStretch
  split
  · exact ⟨.refl _ s, .of_pwr_eq rfl⟩
  · exact ⟨(alters_setFld _ _ _ _ _ _ s (.inl ⟨c, .inl rfl⟩)).trans
      (alters_count32 _ _ _ _ (.inl ⟨c, .inr (.inl rfl)⟩)), .of_pwr_eq rfl⟩

theorem alters_breakFixed (s : State) : Alters stretchRegs s (breakFixed s) ∧ PeriodKept s (breakFixed s) := by
  unfold breakFixed
  split
  · exact ⟨alters_setFld _ _ _ _ _ _ s (.inr rfl), .of_pwr_eq rfl⟩
  · exact ⟨.refl _ s, .of_pwr_eq rfl⟩

theorem alters_endForced (s : State) (c : Nat) : Alters stretchRegs s (endForced s c) ∧ PeriodKept s (endForced s c) := by
  have hset (u : State) (lo v : Nat) : Alters stretchRegs u (setFld (pgWeir c) 0 0x104 lo 1 v u) :=
    alters_setFld _ _ _ _ _ _ u (.inl ⟨c, .inl rfl⟩)
  have hcount (u : State) : Alters stretchRegs u (countStretch c u) :=
    Alters.trans (t := (takeFree u).2) ⟨fun _ _ => rfl, rfl⟩ (alters_setReg _ _ _ _ _ (.inl ⟨c, .inr (.inr rfl)⟩))
  unfold endForced
  simp only
  split_ifs
  · exact ⟨hset s _ _, .of_pwr_eq rfl⟩
  · exact ⟨(hset s _ _).trans ((hset _ _ _).trans (hcount _)), .of_pwr_eq rfl⟩
  · exact ⟨.refl _ s, .of_pwr_eq rfl⟩

/-- The steps of R318 before the publication. -/
def ovrStarted (s : State) : State :=
  breakFixed ((List.range 16).foldl forceStretch (fault 230 { s with pwr := { s.pwr with ovrDue := false, ovr := true } }))

/-- The steps of R318 up to the end of the forced stretches. -/
def ovrTaken (ooc : Bool) (s : State) : State := (List.range 16).foldl endForced (publish ooc (ovrStarted s))

theorem overdrawSteps_eq (ooc : Bool) (s : State) : overdrawSteps ooc s = overdrawOver (ovrTaken ooc s) := rfl

/-- The event of source 230, with the overdraw in force. -/
def ovrEvent (s : State) : State := fault 230 { s with pwr := { s.pwr with ovrDue := false, ovr := true } }

theorem stretches_ovrStarted (s : State) : Alters stretchRegs (ovrEvent s) (ovrStarted s) ∧ PeriodKept (ovrEvent s) (ovrStarted s) :=
  ⟨(Alters.foldl _ (fun u c => (alters_forceStretch u c).1) _ _).trans (alters_breakFixed _).1,
    (PeriodKept.foldl _ fun c _ u => (alters_forceStretch u c).2).trans (alters_breakFixed _).2⟩

theorem ends_ovrTaken (ooc : Bool) (s : State) : Alters stretchRegs (publish ooc (ovrStarted s)) (ovrTaken ooc s) ∧
    PeriodKept (publish ooc (ovrStarted s)) (ovrTaken ooc s) :=
  ⟨Alters.foldl _ (fun u c => (alters_endForced u c).1) _ _, PeriodKept.foldl _ fun c _ u => (alters_endForced u c).2⟩

theorem alters_ovrEvent (s : State) : Alters (faultRegs pgAna) s (ovrEvent s) :=
  (alters_pwr _ _ s).trans (alters_fault 230 _ fun _ h => h)

/-- What follows the event: the stretches and the publication. -/
theorem alters_event_ovrTaken (ooc : Bool) (s : State) :
    Alters (fun k => stretchRegs k ∨ pubRegs k) (ovrEvent s) (ovrTaken ooc s) :=
  (((stretches_ovrStarted s).1.mono fun _ => .inl).trans ((publish_does ooc _).1.mono fun _ => .inr)).trans
    ((ends_ovrTaken ooc s).1.mono fun _ => .inl)

/-- Proofer's state after the steps: the overdraw in force, the period new. -/
theorem ovrTaken_pwr (ooc : Bool) (s : State) : (ovrTaken ooc s).pwr.count = 0 ∧ (ovrTaken ooc s).pwr.oocDue = false ∧
    (ovrTaken ooc s).pwr.cut = ooc ∧ (ovrTaken ooc s).pwr.ovr = true ∧ (ovrTaken ooc s).pwr.ovrDue = false := by
  obtain ⟨c1, c2, c3, c4, c5, -⟩ := closePeriod_pwr ooc (ovrStarted s)
  obtain ⟨p1, p2, p3, p4, p5, -⟩ := (publish_does ooc (ovrStarted s)).2.trans (ends_ovrTaken ooc s).2
  obtain ⟨-, -, -, s4, s5, -⟩ := (periodKept_fault 230 { s with pwr := { s.pwr with ovrDue := false, ovr := true } }).trans
    (stretches_ovrStarted s).2
  exact ⟨p1.trans c1, p2.trans c2, p3.trans c3, (p4.trans c4).trans s4, (p5.trans c5).trans s5⟩

/-- The budget stands in none of the registers of R318's other steps. -/
theorem not_stretchRegs_of_budRegs {k : Nat} (h : budRegs k) : ¬ stretchRegs k := by
  obtain ⟨i, hi, rfl⟩ := h
  rintro (⟨c, hk⟩ | hk)
  all_goals
    simp only [rk, pgPwr, pgWeir] at hk
    omega

theorem budgetShows_ovrTaken (ooc : Bool) (s : State) : BudgetShows ooc s (ovrTaken ooc s) := by
  obtain ⟨hseq, hrest⟩ := (budgetShows_publish ooc (ovrStarted s)).of_otherRegs (ends_ovrTaken ooc s).1.1
    fun _ => not_stretchRegs_of_budRegs
  have h1 : getReg pgPwr 0 0x1A0 (ovrStarted s) = getReg pgPwr 0 0x1A0 (ovrEvent s) :=
    (stretches_ovrStarted s).1.getReg (not_stretchRegs_of_budRegs ⟨0, by omega, rfl⟩)
  have h2 : getReg pgPwr 0 0x1A0 (ovrEvent s) = getReg pgPwr 0 0x1A0 s :=
    (alters_ovrEvent s).getReg (by simp only [faultRegs, irqRegs, rk, pgPwr, pgAna, pgPba]; omega)
  exact ⟨by rw [hseq, h1, h2], hrest⟩

/-- The registers of the analogue block stand in none of those of the stretches and of the publication, nor does ALT_CFG. -/
theorem not_stretch_pub {k : Nat} (h : k / 65536 / 512 = pgAna ∨ k = rk pgPwr 0 0x10C) : ¬ (stretchRegs k ∨ pubRegs k) := by
  rintro ((⟨c, hk⟩ | hk) | (hk | hk | ⟨i, hi, hk⟩ | hk | ⟨c, hc, hk⟩ | ⟨r, hr, hk⟩ | hk | hk))
  all_goals
    simp only [faultRegs, irqRegs, rk, pgPwr, pgAna, pgWeir, pgBsn, pgPba] at h hk
    omega

/-- The sticky bit of source 230 stands after the steps. -/
theorem sticky_ovrTaken (ooc : Bool) (s : State) : bit (getReg pgAna 0 0x020 (ovrTaken ooc s)) 0 = true := by
  rw [(alters_event_ovrTaken ooc s).getReg (not_stretch_pub (.inl (by decide)))]
  exact bit_sticky_faultAt (pg := pgAna) (b := 0) 230 (by decide) (by omega) _

/-- The steps leave the comparators and their selection. -/
theorem ovrSignal_ovrTaken (ooc : Bool) (s : State) : ovrSignal (ovrTaken ooc s) = ovrSignal s := by
  have h1 : getReg pgPwr 0 0x10C (ovrTaken ooc s) = getReg pgPwr 0 0x10C s :=
    ((alters_event_ovrTaken ooc s).getReg (not_stretch_pub (.inr rfl))).trans
      ((alters_ovrEvent s).getReg (by simp only [faultRegs, irqRegs, rk, pgPwr, pgAna, pgPba]; omega))
  have h2 : getReg pgAna 0 0x138 (ovrTaken ooc s) = getReg pgAna 0 0x138 s :=
    ((alters_event_ovrTaken ooc s).getReg (not_stretch_pub (.inl (by decide)))).trans
      ((alters_ovrEvent s).getReg (by simp only [faultRegs, irqRegs, rk, pgAna, pgPba]; omega))
  simp only [ovrSignal, cmpOut, h1, h2]

/-- Whatever registers a chain of Proofer's operations changes, the units and the memories stay. -/
theorem Alters.any {R : Nat → Prop} {s t : State} (h : Alters R s t) : Alters (fun _ => True) s t := h.mono fun _ _ => trivial

theorem alters_overdrawSteps (ooc : Bool) (s : State) : Alters (fun _ => True) s (overdrawSteps ooc s) := by
  rw [overdrawSteps_eq]
  exact ((alters_ovrEvent s).any.trans (alters_event_ovrTaken ooc s).any).trans (alters_overdrawOver _).any

/-- The steps of R318 show the budget and the source; the overdraw stays in force while the comparator signals it, and ends with a
change that is due to be published where it does not. -/
theorem overdrawSteps_does (ooc : Bool) (s : State) : BudgetShows ooc s (overdrawSteps ooc s) ∧
    bit (getReg pgAna 0 0x020 (overdrawSteps ooc s)) 0 = true ∧
    (overdrawSteps ooc s).pwr.count = 0 ∧ (overdrawSteps ooc s).pwr.oocDue = !ovrSignal s ∧ (overdrawSteps ooc s).pwr.cut = ooc ∧
    (overdrawSteps ooc s).pwr.ovr = ovrSignal s ∧ (overdrawSteps ooc s).pwr.ovrDue = false := by
  obtain ⟨hcount, hdue, hcut, hovr, hod⟩ := ovrTaken_pwr ooc s
  have hb := budgetShows_ovrTaken ooc s
  have hs := sticky_ovrTaken ooc s
  rw [overdrawSteps_eq, overdrawOver, ovrSignal_ovrTaken]
  cases ovrSignal s
  · rw [if_neg Bool.false_ne_true]
    refine ⟨?_, ?_, hcount, rfl, hcut, rfl, hod⟩
    · refine hb.of_otherRegs (R := fun k => k = rk pgPwr 0 0x110) (fun k hk => tabFind_set_ne hk _ _) ?_
      rintro k ⟨i, hi, rfl⟩
      simp only [rk]
      omega
    · exact (congrArg (bit · 0) (getReg_setReg_ne (by decide) _ (ovrTaken ooc s))).trans hs
  · rw [if_pos rfl]
    exact ⟨hb, hs, hcount, hdue, hcut, hovr, hod⟩

/-- With the comparator asserted the steps are a publication. -/
theorem published_overdrawSteps (ooc : Bool) {s : State} (h : ovrSignal s = true) : Published ooc s (overdrawSteps ooc s) := by
  obtain ⟨⟨hs, hb, hlo, hhi, hd, hsum⟩, -, hcount, hdue, hcut, -, -⟩ := overdrawSteps_does ooc s
  exact ⟨hs, hb, hlo, hhi, hd, hsum, hcount, by rw [hdue, h]; rfl, hcut⟩

/-! ## The sample of a microsecond (R304, R314, R315) -/

/-- What the accounts of a sample leave alone; the energy since the reset does not fall. -/
def SampleKept (s t : State) : Prop :=
  t.mem = s.mem ∧ t.hbc = s.hbc ∧ t.aon = s.aon ∧ t.cpt = s.cpt ∧ t.pwr.count = s.pwr.count ∧ t.pwr.win = s.pwr.win ∧
  t.pwr.idle = s.pwr.idle ∧ s.pwr.dev ≤ t.pwr.dev

theorem SampleKept.refl (s : State) : SampleKept s s := ⟨rfl, rfl, rfl, rfl, rfl, rfl, rfl, le_rfl⟩

theorem SampleKept.trans {s t u : State} (h : SampleKept s t) (h' : SampleKept t u) : SampleKept s u := by
  obtain ⟨h1, h2, h3, h4, h5, h6, h7, h8⟩ := h
  obtain ⟨g1, g2, g3, g4, g5, g6, g7, g8⟩ := h'
  exact ⟨g1.trans h1, g2.trans h2, g3.trans h3, g4.trans h4, g5.trans h5, g6.trans h6, g7.trans h7, h8.trans g8⟩

theorem SampleKept.foldl {α : Type} {f : State → α → State} (h : ∀ s a, SampleKept s (f s a)) :
    ∀ (l : List α) (s : State), SampleKept s (l.foldl f s)
  | [], s => .refl s
  | a :: l, s => (h s a).trans (SampleKept.foldl h l (f s a))

theorem sampleKept_credit (j : Option Nat) (e : Nat) (s : State) : SampleKept s (credit j e s) := by
  unfold credit
  split
  · split <;> exact .refl s
  · exact .refl s

theorem sampleKept_creditFrame {c e : Nat} {s t : State} (h : creditFrame c e s = some t) : SampleKept s t := by
  unfold creditFrame at h
  split at h
  · split at h
    · obtain rfl := Option.some.inj h
      exact .refl s
    · cases h
  · cases h

theorem sampleKept_creditEvent (ev : EnergyEvent) (e : Nat) (s : State) : SampleKept s (creditEvent ev e s) := by
  unfold creditEvent
  split
  · next c _ _ =>
    cases h : creditFrame c.val e s with
    | none => exact sampleKept_credit none e s
    | some t => exact sampleKept_creditFrame h
  · exact sampleKept_credit _ e s

/-- Energy added to the period's accounts and to the whole. -/
def accounted (d dyn leak e : Nat) (s : State) : State :=
  { s with pwr := { addPeriod d dyn leak s.pwr with dev := s.pwr.dev + e } }

theorem sampleKept_accounted (d dyn leak e : Nat) (s : State) : SampleKept s (accounted d dyn leak e s) := by
  unfold accounted addPeriod
  split <;> exact ⟨rfl, rfl, rfl, rfl, rfl, rfl, rfl, Nat.le_add_right _ _⟩

theorem sampleKept_sampleEvent (s : State) (ev : EnergyEvent) : SampleKept s (sampleEvent s ev) := by
  unfold sampleEvent
  simp only
  generalize dynEnergy ev.domain.val ev.kind ev.count s = e
  refine ((sampleKept_creditEvent ev e s).trans (sampleKept_accounted ev.domain.val e 0 e _)).trans ?_
  split
  · exact .refl _
  · split
    · exact .refl _
    · split <;> exact .refl _

theorem sampleKept_sampleLeak (s : State) (d : Nat) : SampleKept s (sampleLeak s d) := by
  unfold sampleLeak
  simp only
  split
  · exact .refl s
  · have ha := sampleKept_accounted d 0 (leakAt d (domainMv d s) s) (leakAt d (domainMv d s) s) s
    split
    · exact ha.trans (sampleKept_credit _ _ _)
    · exact (ha.trans (SampleKept.foldl (fun u j => sampleKept_credit _ _ u) _ _)).trans (sampleKept_credit _ _ _)

theorem sampleKept_slewCluster (s : State) (c : Nat) : SampleKept s (slewCluster s c) := by
  unfold slewCluster
  simp only
  split <;> exact .refl s

/-! The cores' counts of R88 start anew with a sample; what a core holds stays. -/

theorem tabFind_map {α : Type} (f : α → α) (k : Nat) : ∀ t : Tab α, tabFind k (t.map fun e => (e.1, f e.2)) = (tabFind k t).map f
  | [] => rfl
  | (k', v) :: t => by
    rw [List.map_cons, tabFind_cons, tabFind_cons, tabFind_map f k t]
    split <;> rfl

theorem coreOf_clearCounts (p : Nat) (s : State) : coreOf p (clearCounts s) = { coreOf p s with act := [] } := by
  simp only [coreOf, clearCounts, tabGet, tabFind_map (fun c : Core => { c with act := [] })]
  cases tabFind p s.cpt.cores <;> rfl

theorem coreBusy_clearCounts (p : Nat) (s : State) : coreBusy p (clearCounts s) = coreBusy p s := by
  simp only [coreBusy, coreJobs, coreOf_clearCounts]
  rfl

theorem coreBusy_of_cpt {s t : State} (h : t.cpt = s.cpt) (p : Nat) : coreBusy p t = coreBusy p s := by
  simp only [coreBusy, coreJobs, coreOf, h]

/-- The accounts of the reports. -/
def reported (evs : List EnergyEvent) (s : State) : State := (reports evs s).foldl sampleEvent s

/-- The accounts of the leakage, and the slews. -/
def leaked (s : State) : State := (List.range 16).foldl slewCluster ((List.range 121).foldl sampleLeak s)

/-- The microsecond counted, of energy `e`. -/
def counted (e : Nat) (s : State) : State :=
  { s with pwr := { s.pwr with
      count := s.pwr.count + 1,
      win := ((e, getFld pgPwr 0 0x110 0 9 s) :: s.pwr.win).take 1000,
      idle := (List.range 80).map (fun p => (p, if coreBusy p s then 0 else tabGet 0 p s.pwr.idle + 1)) } }

/-- The energy shown. -/
def energyShown (s : State) : State := setPair pgPwr 0 0x130 (toUj s.pwr.dev) (setPair pgPwr 0 0x138 (toUj s.pwr.unattr) s)

/-- The microsecond counted for each throttle reason that was in force in it (R328). -/
def reasonsCounted (s : State) : State :=
  (List.range 8).foldl (fun u r => if tabGet false r u.pwr.thr || s.pwr.thrSeen.contains r then count32 pgPwr 0 (0x140 + 4 * r) u else u)
    { s with pwr := { s.pwr with thrSeen := [] } }

theorem energySample_counting (evs : List EnergyEvent) {s : State} (h : counting s = true) : energySample evs s =
    reasonsCounted (energyShown (counted ((leaked (clearCounts (reported evs s))).pwr.dev - s.pwr.dev)
      (leaked (clearCounts (reported evs s))))) := by
  unfold energySample reasonsCounted energyShown counted leaked reported
  rw [h, if_neg (by decide)]

theorem sampleKept_reported (evs : List EnergyEvent) (s : State) : SampleKept s (reported evs s) :=
  SampleKept.foldl sampleKept_sampleEvent _ _

theorem sampleKept_leaked (s : State) : SampleKept s (leaked s) :=
  (SampleKept.foldl sampleKept_sampleLeak _ _).trans (SampleKept.foldl sampleKept_slewCluster _ _)

theorem altersRegs_reasonsCounted (s : State) : AltersRegs (fun k => ∃ r < 8, k = rk pgPwr 0 (0x140 + 4 * r))
    { s with pwr := { s.pwr with thrSeen := [] } } (reasonsCounted s) := by
  refine AltersRegs.foldl _ fun r hr u => ?_
  split
  · exact altersRegs_addFld ⟨r, List.mem_range.1 hr, rfl⟩ _ _ _ u
  · exact .refl _ u

/-- A register pair reads back what it was set to. -/
theorem getPair_setPair_self (pg bank off v : Nat) (s : State) : getPair pg bank off (setPair pg bank off v s) = v % 2 ^ 64 := by
  rw [getPair, setPair, getReg_setReg_self, getReg_setReg_ne (by simp only [rk]; omega), getReg_setReg_self, w32, w32,
    BitVec.toNat_ofNat, BitVec.toNat_ofNat]
  omega

/-- Of the list of idle times each core's entry is found. -/
theorem tabGet_map_range {α : Type} (d : α) (f : Nat → α) {n p : Nat} (h : p < n) :
    tabGet d p ((List.range n).map fun p => (p, f p)) = f p := by
  have key : ∀ l : List Nat, p ∈ l → tabFind p (l.map fun p => (p, f p)) = some (f p) := by
    intro l
    induction l with
    | nil => simp
    | cons a l ih =>
      intro hp
      rw [List.map_cons, tabFind_cons]
      split
      · next ha => rw [ha]
      · next ha => exact ih ((List.mem_cons.1 hp).resolve_left (Ne.symm ha))
  rw [tabGet, key _ (List.mem_range.2 h)]
  rfl

/-- What a sample makes of Proofer's state and of the memories. -/
theorem energySample_does (evs : List EnergyEvent) {s : State} (h : counting s = true) :
    (energySample evs s).pwr.count = s.pwr.count + 1 ∧ s.pwr.dev ≤ (energySample evs s).pwr.dev ∧
    (energySample evs s).pwr.win.length = min 1000 (s.pwr.win.length + 1) ∧
    (∀ p, p < 80 → tabGet 0 p (energySample evs s).pwr.idle = if coreBusy p s then 0 else tabGet 0 p s.pwr.idle + 1) ∧
    getPair pgPwr 0 0x130 (energySample evs s) = toUj (energySample evs s).pwr.dev % 2 ^ 64 ∧
    SameBytes s (tidyMem (energySample evs s)) := by
  obtain ⟨m1, b1, a1, c1, n1, w1, i1, d1⟩ := sampleKept_reported evs s
  obtain ⟨m2, b2, a2, c2, n2, w2, i2, d2⟩ := sampleKept_leaked (clearCounts (reported evs s))
  have hbusy (p : Nat) : coreBusy p (leaked (clearCounts (reported evs s))) = coreBusy p s := by
    rw [coreBusy_of_cpt c2, coreBusy_clearCounts, coreBusy_of_cpt c1]
  rw [energySample_counting evs h]
  generalize (leaked (clearCounts (reported evs s))).pwr.dev - s.pwr.dev = e
  generalize leaked (clearCounts (reported evs s)) = u at *
  obtain ⟨hreg, hst⟩ := altersRegs_reasonsCounted (energyShown (counted e u))
  have hp : (reasonsCounted (energyShown (counted e u))).pwr = { (counted e u).pwr with thrSeen := [] } := by rw [hst]; rfl
  rw [hp]
  refine ⟨?_, ?_, ?_, fun p hlt => ?_, ?_, ?_⟩
  · exact congrArg (· + 1) (n2.trans n1)
  · exact d1.trans d2
  · have hw : u.pwr.win = s.pwr.win := w2.trans w1
    simp only [counted, hw, List.length_take, List.length_cons]
  · have hi : u.pwr.idle = s.pwr.idle := i2.trans i1
    rw [← hbusy, ← hi]
    exact tabGet_map_range 0 _ hlt
  · rw [getPair, hreg.getReg (by simp only [rk]; omega), hreg.getReg (by simp only [rk]; omega)]
    exact getPair_setPair_self _ _ _ _ _
  · refine sameBytes_tidyMem_of_eq ?_ ?_ ?_
    · rw [hst]; exact m2.trans m1
    · rw [hst]; exact b2.trans b1
    · rw [hst]; exact a2.trans a1

/-! ## A sample of a temperature (R325, R326) -/

/-- The clusters that a critical temperature drives, as the runs of readings now say. -/
def critShown (s : State) : State :=
  { s with pwr := { s.pwr with crit := (List.range 16).map (fun c =>
      (c, (List.range 32).any (fun j => (critClusters j).contains c && 2 ≤ tabGet 0 j s.pwr.critRun))) } }

/-- The readings above the critical limit in a row after a sample. -/
def critRunNow (i : Nat) (temp : BitVec 12) (s : State) : Nat :=
  if critLimit i s < sext 12 temp.toNat then tabGet 0 i s.pwr.critRun + 1 else 0

/-- The reading shown, with the runs and the limits that follow from it. -/
def sensorRead (i : Nat) (temp : BitVec 12) (s : State) : State :=
  let s := setReg pgPwr i 0x18C (w32 (temp.toNat + 2 ^ 31)) s
  { s with pwr := { s.pwr with
      critRun := tabSet i (critRunNow i temp s) s.pwr.critRun,
      hbmLimit := if 16 ≤ i ∧ i < 20 then
          tabSet (i - 16) (hbmLimitOf i (sext 12 temp.toNat) (tabGet 0 (i - 16) s.pwr.hbmLimit) s) s.pwr.hbmLimit
        else s.pwr.hbmLimit } }

/-- The reasons of Table 12-5 that a temperature gives. -/
def sensorReasons (i : Nat) (s : State) : State :=
  let s := critShown (setThr 4 0 ((List.range 4).any (fun n => tabGet 0 n s.pwr.hbmLimit != 0)) s)
  setThr 7 (if i < 16 then i else 0) ((List.range 32).any (fun j => 2 ≤ tabGet 0 j s.pwr.critRun)) s

/-- A critical temperature: its source, and the end of fixed-frequency mode where it steps a cluster. -/
def critEvent (i : Nat) (s : State) : State := (if (critClusters i).isEmpty then id else breakFixed) (fault (232 + i) s)

theorem sensorSample_counting (i : Nat) (temp : BitVec 12) {s : State} (h : counting s = true) : sensorSample i temp s =
    if critRunNow i temp (setReg pgPwr i 0x18C (w32 (temp.toNat + 2 ^ 31)) s) = 2 then
      publish true (critEvent i (sensorReasons i (sensorRead i temp s)))
    else sensorReasons i (sensorRead i temp s) := by
  rw [sensorSample, h]
  rfl

/-- The registers of a temperature's sample beside the reading: those of the throttle reasons, of the source and of the publication. -/
def sensorRegs (k : Nat) : Prop := faultRegs pgPwr k ∨ stretchRegs k ∨ pubRegs k

theorem alters_setThr {r : Nat} (hr : r < 8) (c : Nat) (on : Bool) (s : State) : Alters sensorRegs s (setThr r c on s) :=
  (setThr_does r c on s hr).1.mono fun _ h => .inr (.inr (.inr (.inr (.inr (.inr (.inr h))))))

theorem sensorReasons_does (i : Nat) (s : State) :
    Alters sensorRegs s (sensorReasons i s) ∧ (sensorReasons i s).pwr.critRun = s.pwr.critRun := by
  obtain ⟨-, -, -, -, -, h4⟩ := periodKept_setThr (r := 4) (by omega) 0 ((List.range 4).any (fun n => tabGet 0 n s.pwr.hbmLimit != 0)) s
  generalize hu : critShown (setThr 4 0 ((List.range 4).any (fun n => tabGet 0 n s.pwr.hbmLimit != 0)) s) = u
  have hau : Alters sensorRegs s u := by
    rw [← hu]
    exact (alters_setThr (by omega) _ _ s).trans (alters_pwr _ _ _)
  have hcu : u.pwr.critRun = s.pwr.critRun := by
    rw [← hu]
    exact h4
  have heq : sensorReasons i s = setThr 7 (if i < 16 then i else 0) ((List.range 32).any (fun j => 2 ≤ tabGet 0 j u.pwr.critRun)) u := by
    rw [← hu]
    rfl
  obtain ⟨-, -, -, -, -, h7⟩ := periodKept_setThr (r := 7) (by omega) (if i < 16 then i else 0)
    ((List.range 32).any (fun j => 2 ≤ tabGet 0 j u.pwr.critRun)) u
  rw [heq]
  exact ⟨hau.trans (alters_setThr (by omega) _ _ u), h7.trans hcu⟩

/-- The source of a critical temperature stands on Proofer's page. -/
theorem srcHome_sensor {i : Nat} (h : i < 32) : (srcHome (232 + i)).1 = pgPwr := by
  simp (disch := omega) only [srcHome, if_neg, if_pos]

theorem critEvent_does {i : Nat} (hi : i < 32) (s : State) :
    Alters sensorRegs s (critEvent i s) ∧ (critEvent i s).pwr.critRun = s.pwr.critRun := by
  have hf : Alters sensorRegs s (fault (232 + i) s) := alters_fault _ s fun k hk => .inl (srcHome_sensor hi ▸ hk)
  obtain ⟨-, -, -, -, -, hfr⟩ := periodKept_fault (232 + i) s
  unfold critEvent
  split
  · exact ⟨hf, hfr⟩
  · obtain ⟨ha, -, -, -, -, -, hr⟩ := alters_breakFixed (fault (232 + i) s)
    exact ⟨hf.trans (ha.mono fun _ h => .inr (.inl h)), hr.trans hfr⟩

/-- What follows a reading leaves the reading and the runs alone. -/
theorem sensorSample_from_read {i : Nat} (hi : i < 32) (temp : BitVec 12) {s : State} (h : counting s = true) :
    Alters sensorRegs (sensorRead i temp s) (sensorSample i temp s) ∧
      (sensorSample i temp s).pwr.critRun = (sensorRead i temp s).pwr.critRun := by
  obtain ⟨hr, cr⟩ := sensorReasons_does i (sensorRead i temp s)
  rw [sensorSample_counting i temp h]
  split
  · obtain ⟨he, ce⟩ := critEvent_does hi (sensorReasons i (sensorRead i temp s))
    obtain ⟨hp, -, -, -, -, -, cp⟩ := publish_does true (critEvent i (sensorReasons i (sensorRead i temp s)))
    obtain ⟨-, -, -, -, -, cc⟩ := closePeriod_pwr true (critEvent i (sensorReasons i (sensorRead i temp s)))
    exact ⟨(hr.trans he).trans (hp.mono fun _ h => .inr (.inr h)), (cp.trans cc).trans (ce.trans cr)⟩
  · exact ⟨hr, cr⟩

/-- A reading stands in none of the registers that follow from it. -/
theorem not_sensorRegs_reading {i : Nat} (hi : i < 32) : ¬ sensorRegs (rk pgPwr i 0x18C) := by
  rintro (hk | (⟨c, hk⟩ | hk) | (hk | hk | ⟨j, hj, hk⟩ | hk | ⟨c, hc, hk⟩ | ⟨r, hr, hk⟩ | hk | hk))
  all_goals
    simp only [faultRegs, irqRegs, rk, pgPwr, pgWeir, pgBsn, pgPba] at hk
    omega

theorem sensorSample_does {i : Nat} (hi : i < 32) (temp : BitVec 12) {s : State} (h : counting s = true) :
    getFld pgPwr i 0x18C 0 12 (sensorSample i temp s) = temp.toNat ∧
    bit (getReg pgPwr i 0x18C (sensorSample i temp s)) 31 = true ∧
    tabGet 0 i (sensorSample i temp s).pwr.critRun = critRunNow i temp s ∧ SameBytes s (tidyMem (sensorSample i temp s)) := by
  obtain ⟨ha, hc⟩ := sensorSample_from_read hi temp h
  have ht := temp.isLt
  have hreg : getReg pgPwr i 0x18C (sensorSample i temp s) = w32 (temp.toNat + 2 ^ 31) :=
    (ha.getReg (not_sensorRegs_reading hi)).trans (getReg_setReg_self pgPwr i 0x18C _ s)
  have hread : Alters (fun _ => True) s (sensorRead i temp s) :=
    (alters_setReg pgPwr i 0x18C _ s trivial).trans (alters_pwr _ _ _)
  have hcrit : critRunNow i temp (setReg pgPwr i 0x18C (w32 (temp.toNat + 2 ^ 31)) s) = critRunNow i temp s := by
    rw [critRunNow, critLimit, getFld, getReg_setReg_ne (by simp only [rk]; omega)]
    rfl
  refine ⟨?_, ?_, ?_, (hread.trans ha.any).sameBytes⟩
  · rw [getFld, hreg, fld_w32]
    omega
  · rw [hreg, bit_w32 _ (by omega), Nat.testBit_eq_decide_div_mod_eq, decide_eq_true_eq]
    omega
  · rw [hc]
    exact (tabGet_set_self 0 i _ s.pwr.critRun).trans hcrit

/-! ## The statement -/

theorem exec_budgetPublish (s : State) : exec .budgetPublish s = .next (tidyMem (budgetPublish s)) := rfl

theorem exec_outOfCyclePublication (s : State) : exec .outOfCyclePublication s = .next (tidyMem (oocPublish s)) := rfl

theorem exec_energySample (evs : List EnergyEvent) (s : State) :
    exec (.energySample evs) s = .next (tidyMem (energySample evs s)) := rfl

theorem exec_sensorSample (i : Fin 32) (temp : BitVec 12) (s : State) :
    exec (.sensorSample i temp) s = .next (tidyMem (sensorSample i.val temp s)) := rfl

theorem exec_hardOverdraw (s : State) : exec .hardOverdraw s = .next (tidyMem (hardOverdraw s)) := rfl

theorem budgetPublish_due {s : State} (h : counting s = true) (hn : 100 ≤ s.pwr.count) : budgetPublish s =
    if s.pwr.ovrDue then overdrawSteps false s else publish false s := by
  simp [budgetPublish, h, Nat.not_lt.2 hn]

/-- The periodic publication, with the steps of a hard overdraw that is due in the same microsecond or without. -/
theorem budgetPublish_does {s : State} (h : counting s = true) (hn : 100 ≤ s.pwr.count)
    (ho : s.pwr.ovrDue = false ∨ ovrSignal s = true) :
    Published false s (budgetPublish s) ∧ Alters (fun _ => True) s (budgetPublish s) := by
  rw [budgetPublish_due h hn]
  split
  · next hd => exact ⟨published_overdrawSteps false (ho.resolve_left (by simp [hd])), alters_overdrawSteps false s⟩
  · exact ⟨published_publish false s, (publish_does false s).1.any⟩

/-- Settles O18: the publications by what `publish` and the steps of R318 show, the samples by what they make of Proofer's state. -/
theorem samplesAndPublicationsKeepTheBudget : Obligations.SamplesAndPublicationsKeepTheBudget := by
  unfold Obligations.SamplesAndPublicationsKeepTheBudget
  refine ⟨fun s hc hn ho => ?_, fun s hc hd => ?_, fun evs s hc => ?_, fun i temp s hc => ?_, fun s hc hd => ?_⟩
  · obtain ⟨hp, ha⟩ := budgetPublish_does hc hn ho
    exact ⟨_, exec_budgetPublish s, hp, ha.fe, ha.cpt, ha.sameBytes⟩
  · have hx := exec_outOfCyclePublication s
    rw [oocPublish, show counting s = true from hc, hd, if_pos (by decide)] at hx
    have ha := (publish_does true s).1
    exact ⟨_, hx, published_publish true s, raw_publish s, ha.fe, ha.cpt, ha.sameBytes⟩
  · exact ⟨_, exec_energySample evs s, energySample_does evs hc⟩
  · exact ⟨_, exec_sensorSample i temp s, sensorSample_does i.isLt temp hc⟩
  · have hx := exec_hardOverdraw s
    rw [hardOverdraw, show counting s = true from hc, hd, if_neg (by decide)] at hx
    obtain ⟨hb, hs, -, hdue, -, hovr, hod⟩ := overdrawSteps_does true s
    exact ⟨_, hx, hovr, hod, hs, hb.1, published_overdrawSteps true, fun h => by rw [tidyMem_pwr, hdue, h]; rfl,
      (alters_overdrawSteps true s).sameBytes⟩

/-! ## Cores, groups, engines and blocks: a read after an update -/

@[simp] theorem coreOf_setCore_self (p : Nat) (v : Core) (s : State) : coreOf p (setCore p v s) = v := tabGet_set_self _ _ _ _

theorem coreOf_setCore_ne {q p : Nat} (h : q ≠ p) (v : Core) (s : State) : coreOf q (setCore p v s) = coreOf q s :=
  tabGet_set_ne _ h _ _

theorem coreOf_of_cores {s t : State} (h : t.cpt.cores = s.cpt.cores) (p : Nat) : coreOf p t = coreOf p s := by
  rw [coreOf, coreOf, h]

@[simp] theorem coreOf_tidyMem (p : Nat) (s : State) : coreOf p (tidyMem s) = coreOf p s := rfl

@[simp] theorem meOf_setMe_self (p e : Nat) (v : Me) (s : State) : meOf p e (setMe p e v s) = v := by
  rw [meOf, setMe, coreOf_setCore_self]
  exact tabGet_set_self _ _ _ _

theorem meOf_setMe_ne {p e p' e' : Nat} (h : ¬ (p' = p ∧ e' = e)) (v : Me) (s : State) : meOf p' e' (setMe p e v s) = meOf p' e' s := by
  by_cases hp : p' = p
  · subst hp
    rw [meOf, setMe, coreOf_setCore_self]
    exact tabGet_set_ne _ (fun he => h ⟨rfl, he⟩) _ _
  · rw [meOf, setMe, coreOf_setCore_ne hp]
    rfl

theorem groupOf_setMe (p e : Nat) (v : Me) (p' g : Nat) (s : State) : groupOf p' g (setMe p e v s) = groupOf p' g s := by
  by_cases hp : p' = p
  · subst hp
    rw [groupOf, setMe, coreOf_setCore_self]
    rfl
  · rw [groupOf, setMe, coreOf_setCore_ne hp]
    rfl

@[simp] theorem groupOf_setGroup_self (p g : Nat) (v : Group) (s : State) : groupOf p g (setGroup p g v s) = some v := by
  rw [groupOf, setGroup, coreOf_setCore_self]
  exact tabFind_set_self _ _ _

theorem groupOf_setGroup_ne {g h : Nat} (hne : h ≠ g) (p : Nat) (v : Group) (s : State) :
    groupOf p h (setGroup p g v s) = groupOf p h s := by
  rw [groupOf, setGroup, coreOf_setCore_self]
  exact tabFind_set_ne hne _ _

theorem coreOf_setGroup_ne {q p : Nat} (h : q ≠ p) (g : Nat) (v : Group) (s : State) : coreOf q (setGroup p g v s) = coreOf q s :=
  coreOf_setCore_ne h _ s

theorem meOf_setGroup (p g : Nat) (v : Group) (p' e : Nat) (s : State) : meOf p' e (setGroup p g v s) = meOf p' e s := by
  by_cases hp : p' = p
  · subst hp
    rw [meOf, setGroup, coreOf_setCore_self]
    rfl
  · rw [meOf, setGroup, coreOf_setCore_ne hp]
    rfl

/-! ## The issue of an instruction that names no destination (R91, R97 to R99) -/

/-- The turn of a group whose current path can issue goes on. -/
theorem turnOf_ready {x : Group} {cur : Path} {rest : List Path} (hp : x.paths = cur :: rest) (hw : cur.wait = none)
    (ht : x.turnOver = false) (hs : cur.slots < 32) (hd : cur.demoted = false) : turnOf x = some (x, false) := by
  have hr : runnable cur = true := by rw [runnable, hw]
  unfold turnOf
  rw [hp]
  simp [hr, ht, hd, Nat.not_le.2 hs]

/-- The word of a path is read without an error. -/
theorem fetchTouch_clean {p pc : Nat} {x : Group} {s : State}
    (h : (imageOf p x s).bind (fun m => tabFind (pc / 8) m.err) = none) : fetchTouch p x pc s = (false, s) := by
  unfold fetchTouch
  cases hm : imageOf p x s with
  | none => rfl
  | some m =>
    rw [hm, Option.bind_some] at h
    simp only [h]

/-- The registers of a group without register errors are read as they are. -/
theorem regTouch_clean {x : Group} (h : x.regErr = []) (p : Nat) (u : Uses) (i : Insn) (ex : BitVec 32) (s : State) :
    regTouch p u i ex x s = (false, x, s) := by
  obtain ⟨⟩ := x
  subst h
  rfl

theorem regDone_noDst {u : Uses} (h : u.dst = 0) (p g : Nat) (i : Insn) (ex : BitVec 32) (x : Group) (s : State) :
    regDone p g u i ex x s = s := by
  simp [regDone, fieldRegs, h]

/-- An instruction that issues is what it acts, on the group, its current path and the threads that execute. -/
theorem issue_issues {p g : Nat} {u : Uses} {i : Insn} {x : Group} {cur : Path} {rest : List Path} {s : State}
    (h : Issues p g u i x cur rest s) (act : Iss → State → Option State) : issue p g i u act s =
      ((act ⟨p, g, x, cur, rest, liveMask x i cur.mask⟩ s).map (regDone p g u i (liveMask x i cur.mask) x)).getD s := by
  obtain ⟨⟨hg, hp, hj, hc, hb, hw, ht, hs, hd, hi, he, -⟩, hst, hck⟩ := h
  have hturn := turnOf_ready hp hw ht hs hd
  unfold issue
  simp [hg, hj, hc, hb, hturn, hp, hw, hst, fetchTouch_clean hi, hck, regTouch_clean he]

theorem issue_issues_noDst {p g : Nat} {u : Uses} {i : Insn} {x : Group} {cur : Path} {rest : List Path} {s : State}
    (h : Issues p g u i x cur rest s) (hu : u.dst = 0) (act : Iss → State → Option State) :
    issue p g i u act s = (act ⟨p, g, x, cur, rest, liveMask x i cur.mask⟩ s).getD s := by
  rw [issue_issues h, show regDone p g u i (liveMask x i cur.mask) x = id from funext fun t => regDone_noDst hu p g i _ x t,
    Option.map_id]
  rfl

/-! ## Operations that reach an engine (R61, R62, R81, R82) -/

/-- What an operation that reaches an engine of core `p` leaves alone: everything but the engines of the core, the gates and the number of
the issue group. -/
def MeKept (p : Nat) (s t : State) : Prop :=
  t.regs = s.regs ∧ t.mem = s.mem ∧ t.hbc = s.hbc ∧ t.aon = s.aon ∧ t.fe = s.fe ∧ t.cpt.blocks = s.cpt.blocks ∧
  t.cpt.kernels = s.cpt.kernels ∧ (∀ q, q ≠ p → coreOf q t = coreOf q s) ∧ ∀ h, groupOf p h t = groupOf p h s

theorem MeKept.refl (p : Nat) (s : State) : MeKept p s s := ⟨rfl, rfl, rfl, rfl, rfl, rfl, rfl, fun _ _ => rfl, fun _ => rfl⟩

theorem MeKept.trans {p : Nat} {s t u : State} (h : MeKept p s t) (h' : MeKept p t u) : MeKept p s u := by
  obtain ⟨h1, h2, h3, h4, h5, h6, h7, h8, h9⟩ := h
  obtain ⟨g1, g2, g3, g4, g5, g6, g7, g8, g9⟩ := h'
  exact ⟨g1.trans h1, g2.trans h2, g3.trans h3, g4.trans h4, g5.trans h5, g6.trans h6, g7.trans h7,
    fun q hq => (g8 q hq).trans (h8 q hq), fun g => (g9 g).trans (h9 g)⟩

theorem MeKept.foldl {α : Type} {p : Nat} {f : State → α → State} (h : ∀ s a, MeKept p s (f s a)) :
    ∀ (l : List α) (s : State), MeKept p s (l.foldl f s)
  | [], s => .refl p s
  | a :: l, s => (h s a).trans (MeKept.foldl h l (f s a))

theorem meKept_setMe (p e : Nat) (v : Me) (s : State) : MeKept p s (setMe p e v s) :=
  ⟨rfl, rfl, rfl, rfl, rfl, rfl, rfl, fun _ hq => coreOf_setCore_ne hq _ s, fun g => groupOf_setMe p e v p g s⟩

/-- The engine with an operation more: it runs where nothing ran. -/
def meTaken (m : Me) (op : MeOp) : Me := if m.run = none then { m with run := some op } else { m with pend := some op }

/-- The gate's answer to an operation: a waiting stop is withdrawn, or a start asked for (R81, R82). -/
def gateAnswer (p e : Nat) (active : Bool) (s : State) : State :=
  if active then gateCancel p e false s else if gateHas p e true s then s else gateAsk p e true s

theorem meReceive_eq (p e : Nat) (op : MeOp) (s : State) :
    meReceive p e op s = gateAnswer p e (meOf p e s).active (setMe p e (meTaken (meOf p e s) op) s) := by
  unfold meReceive meTaken gateAnswer
  cases h : (meOf p e s).run <;> simp [h]

theorem gateAnswer_cores (p e : Nat) (a : Bool) (s : State) : (gateAnswer p e a s).cpt.cores = s.cpt.cores := by
  unfold gateAnswer
  split_ifs <;> rfl

theorem meKept_gateAnswer (p' p e : Nat) (a : Bool) (s : State) : MeKept p' s (gateAnswer p e a s) := by
  unfold gateAnswer
  split_ifs <;> exact .refl p' s

theorem meKept_meReceive (p e : Nat) (op : MeOp) (s : State) : MeKept p s (meReceive p e op s) := by
  rw [meReceive_eq]
  exact (meKept_setMe p e _ s).trans (meKept_gateAnswer p p e _ _)

theorem meOf_gateAnswer (p' e' p e : Nat) (a : Bool) (s : State) : meOf p' e' (gateAnswer p e a s) = meOf p' e' s := by
  rw [meOf, meOf, coreOf_of_cores (gateAnswer_cores p e a s)]

theorem meOf_meReceive (p e e' : Nat) (op : MeOp) (s : State) :
    meOf p e' (meReceive p e op s) = if e' = e then meTaken (meOf p e s) op else meOf p e' s := by
  rw [meReceive_eq, meOf_gateAnswer]
  split
  · next h => rw [h, meOf_setMe_self]
  · next h => exact meOf_setMe_ne (fun hh => h hh.2) _ s

/-- Of operations that reach different engines, each engine has its own. -/
theorem meOf_foldl_meReceive (p e : Nat) (op : Nat → MeOp) : ∀ {l : List Nat} (s : State), l.Nodup →
    meOf p e (l.foldl (fun s e => meReceive p e (op e) s) s) = if e ∈ l then meTaken (meOf p e s) (op e) else meOf p e s
  | [], _, _ => by simp
  | a :: l, s, h => by
    obtain ⟨ha, hl⟩ := List.nodup_cons.1 h
    rw [List.foldl_cons, meOf_foldl_meReceive p e op _ hl, meOf_meReceive]
    by_cases he : e = a
    · subst he
      simp [ha]
    · simp [he]

/-! ## The instructions of the matrix engines, the gates and the injection (R61 to R63, R81, R82, R85) -/

theorem exec_meGo (p : Fin 80) (g : Fin 64) (i : Insn) (s : State) : exec (.meGo p g i) s =
    .next (tidyMem (issue p.val g.val i { op := some 0xC0, src0 := 1, src1 := 1 } (meGoStep i) s)) := rfl

theorem exec_meWait (p : Fin 80) (g : Fin 64) (i : Insn) (s : State) : exec (.meWait p g i) s =
    .next (tidyMem (issue p.val g.val i { op := some 0xC1, src0 := 1 } (meWaitStep i) s)) := rfl

theorem exec_gateWindow (c : Fin 16) (s : State) : exec (.gateWindow c) s = .next (tidyMem (gateWindow c.val s)) := rfl

theorem exec_meIdleTimeout (p : Fin 80) (e : Fin 32) (s : State) :
    exec (.meIdleTimeout p e) s = .next (tidyMem (meIdle p.val e.val s)) := rfl

theorem exec_meInjArm (r : Requester) (p : Fin 80) (v : Word) (s : State) : exec (.meInjArm r p v) s =
    .next (tidyMem (blockWrite r (pgSc p.val) 0x420 (meInjWrite p.val v) s)) := rfl

theorem nodup_meList (m : Word) : (meList m).Nodup := List.nodup_range.filter _

theorem mem_meList {m : Word} {e : Nat} : e ∈ meList m ↔ e < 32 ∧ m.getLsbD e = true := by simp [meList]

/-- The operation that me.go gives an engine: its descriptor's address, and whether that is bad. -/
def goOp (x : Group) (base size seq e : Nat) : MeOp :=
  { job := x.job, block := x.block, group := x.idx, addr := base + 64 * e, grp := seq,
    bad := base % 64 != 0 || decide (size < base + 64 * e + 64) }

/-- me.go with threads that execute: nothing while a masked engine has no room, else an operation for each. -/
theorem meGoStep_executing {i : Insn} {a : Iss} {s : State} {b : Block} (hex : a.ex ≠ 0) (hb : blockOf a.x.block s = some b) :
    meGoStep i a s =
      if (meList (regOf a.x (leader a) i.src1.toNat)).any (fun e => !(meAccepts a.p e s)) then none
      else some ((meList (regOf a.x (leader a) i.src1.toNat)).foldl
        (fun u e => meReceive a.p e (goOp a.x (regOf a.x (leader a) i.src0.toNat).toNat b.size s.cpt.seq e) u)
        (bumpSeq (advance a a.x s))) := by
  simp only [meGoStep, if_neg hex, hb]
  rfl

/-- The masked engines take their operations. -/
theorem meGo_takes {p g : Nat} {y : Group} {m : Word} {op : Nat → MeOp} {s t : State}
    (ht : t = (meList m).foldl (fun u e => meReceive p e (op e) u) (bumpSeq (setGroup p g y s))) :
    groupOf p g t = some y ∧ OtherWork p g s t ∧ t.regs = s.regs ∧ SameBytes s (tidyMem t) ∧ t.fe = s.fe ∧
      ∀ e, e < 32 → meOf p e t = if m.getLsbD e then meTaken (meOf p e s) (op e) else meOf p e s := by
  obtain ⟨h1, h2, h3, h4, h5, h6, h7, h8, h9⟩ := MeKept.foldl (fun u e => meKept_meReceive p e (op e) u) (meList m)
    (bumpSeq (setGroup p g y s))
  have hme (e : Nat) := meOf_foldl_meReceive p e op (bumpSeq (setGroup p g y s)) (nodup_meList m)
  rw [← ht] at h1 h2 h3 h4 h5 h6 h7 h8 h9
  have hpre (e : Nat) : meOf p e (bumpSeq (setGroup p g y s)) = meOf p e s := meOf_setGroup p g y p e s
  refine ⟨(h9 g).trans (groupOf_setGroup_self p g y s), ⟨?_, ?_, h6, h7⟩, h1, sameBytes_tidyMem_of_eq h2 h3 h4, h5, ?_⟩
  · exact fun q hq => (h8 q hq).trans (coreOf_setGroup_ne hq g y s)
  · exact fun h hh => (h9 h).trans (groupOf_setGroup_ne hh p y s)
  · intro e he
    rw [ht, hme, hpre]
    simp only [mem_meList, he, true_and]

/-- The requests that a window lets through set their engines, each its own; the others stay. -/
theorem meOf_foldl_window : ∀ {l : List GateReq} (s : State), (l.map fun r => (r.core, r.me)).Nodup →
    (∀ r ∈ l, meOf r.core r.me (l.foldl (fun s r => setMe r.core r.me { meOf r.core r.me s with active := r.start } s) s) =
      { meOf r.core r.me s with active := r.start }) ∧
    ∀ q e, (∀ r ∈ l, ¬ (r.core = q ∧ r.me = e)) →
      meOf q e (l.foldl (fun s r => setMe r.core r.me { meOf r.core r.me s with active := r.start } s) s) = meOf q e s
  | [], _, _ => ⟨by simp, fun _ _ _ => rfl⟩
  | a :: l, s, h => by
    obtain ⟨ha, hl⟩ := List.nodup_cons.1 h
    obtain ⟨hin, hout⟩ := meOf_foldl_window (setMe a.core a.me { meOf a.core a.me s with active := a.start } s) hl
    have hne : ∀ r ∈ l, ¬ (r.core = a.core ∧ r.me = a.me) := fun r hr hh =>
      ha (List.mem_map.2 ⟨r, hr, Prod.ext hh.1 hh.2⟩)
    rw [List.foldl_cons]
    refine ⟨fun r hr => ?_, fun q e hqe => ?_⟩
    · rcases List.mem_cons.1 hr with rfl | hr
      · rw [hout _ _ hne, meOf_setMe_self]
      · rw [hin r hr, meOf_setMe_ne (hne r hr)]
    · rw [hout q e fun r hr => hqe r (by simp [hr]), meOf_setMe_ne fun hh => hqe a (by simp) ⟨hh.1.symm, hh.2.symm⟩]

/-- The window's requests let through, and the gate without them. -/
def windowTaken (c : Nat) (s : State) : State :=
  let s' := ((tabGet [] c s.cpt.gates).take 16).foldl
    (fun s r => setMe r.core r.me { meOf r.core r.me s with active := r.start } s) s
  { s' with cpt := { s'.cpt with gates := tabSet c ((tabGet [] c s.cpt.gates).drop 16) s'.cpt.gates } }

theorem gateWindow_counting {c : Nat} {s : State} (hc : counting s = true) (hq : tabGet [] c s.cpt.gates ≠ []) : gateWindow c s =
    if 16 < (tabGet [] c s.cpt.gates).length then count32 (pgCl c) 0 0x404 (windowTaken c s) else windowTaken c s := by
  simp [gateWindow, windowTaken, hc, hq]

theorem windowTaken_frame (c : Nat) (s : State) : (windowTaken c s).regs = s.regs ∧ (windowTaken c s).mem = s.mem ∧
    (windowTaken c s).hbc = s.hbc ∧ (windowTaken c s).aon = s.aon := by
  have h := foldl_keeps (fun u : State => (u.regs, u.mem, u.hbc, u.aon))
    (fun s r => setMe r.core r.me { meOf r.core r.me s with active := r.start } s) ((tabGet [] c s.cpt.gates).take 16)
    (fun _ _ _ => rfl) s
  simp only [Prod.mk.injEq] at h
  exact h

theorem gateWindow_does {c : Nat} {s : State} (hc : counting s = true) (hq : tabGet [] c s.cpt.gates ≠ []) :
    (gateWindow c s).cpt = (windowTaken c s).cpt ∧ (getReg (pgCl c) 0 0x404 (gateWindow c s)).toNat =
      (if 16 < (tabGet [] c s.cpt.gates).length then min (2 ^ 32 - 1) ((getReg (pgCl c) 0 0x404 s).toNat + 1)
        else (getReg (pgCl c) 0 0x404 s).toNat) ∧
    OtherRegs (fun k => k = rk (pgCl c) 0 0x404) s (gateWindow c s) ∧ SameBytes s (tidyMem (gateWindow c s)) := by
  obtain ⟨hr, hm, hh, ha⟩ := windowTaken_frame c s
  have hreg : getReg (pgCl c) 0 0x404 (windowTaken c s) = getReg (pgCl c) 0 0x404 s := by rw [getReg, hr]; rfl
  have ho : OtherRegs (fun k => k = rk (pgCl c) 0 0x404) s (windowTaken c s) := fun k _ => by rw [hr]
  rw [gateWindow_counting hc hq]
  split
  · refine ⟨rfl, ?_, ho.trans (otherRegs_setFld (by rfl) _ _ _ _), sameBytes_tidyMem_of_eq hm hh ha⟩
    rw [← hreg]
    exact getReg_addFld_whole (pgCl c) 0 0x404 1 (windowTaken c s)
  · exact ⟨rfl, congrArg _ hreg, ho, sameBytes_tidyMem_of_eq hm hh ha⟩

theorem meIdle_idle {p e : Nat} {s : State} (ha : (meOf p e s).active = true) (hr : (meOf p e s).run = none)
    (hp : (meOf p e s).pend = none) (hg : gateHas p e false s = false) : meIdle p e s = gateAsk p e false s := by
  simp [meIdle, ha, hr, hp, hg]

/-- me.wait with threads that execute: they wait, or the path goes on. -/
theorem meWaitStep_executing {i : Insn} {a : Iss} (hex : a.ex ≠ 0) (s : State) : meWaitStep i a s =
    some (setGroup a.p a.g (if groupOps a.p a.x.block a.x.idx (regOf a.x (leader a) i.src0.toNat) s then
      halted a.x a.cur a.rest a.ex (.me (regOf a.x (leader a) i.src0.toNat)) 0 else stepped a.x a.cur a.rest) s) := by
  unfold meWaitStep
  simp only
  split
  · simp only [stepWait, if_neg hex]
    rfl
  · rfl

/-- Settles O20: me.go and me.wait by what an instruction that issues acts, the gates by what a window makes of its engines. -/
theorem matrixEngineQueuesAndGates : Obligations.MatrixEngineQueuesAndGates := by
  unfold Obligations.MatrixEngineQueuesAndGates
  refine ⟨fun p g i x cur rest b base m s hi hex hb hbase hm => ⟨fun hroom => ?_, fun hfull => ?_⟩,
    fun p g i x cur rest m s hi hex hm => ?_, fun c s hc hq hn => ?_, fun p e s ha hr hp hg => ?_, fun r p v s h => ?_⟩
  · have hx := exec_meGo p g i s
    have hany : ((meList m).any fun e => !(meAccepts p.val e s)) = false := by
      rw [List.any_eq_false]
      intro e he
      obtain ⟨h32, hbit⟩ := mem_meList.1 he
      simp [meAccepts, hroom e h32 hbit]
    rw [issue_issues_noDst hi rfl, meGoStep_executing hex hb] at hx
    simp only [leader, ← hm, ← hbase, hany, Bool.false_eq_true, if_false, Option.getD_some] at hx
    obtain ⟨hgrp, how, hregs, hbytes, hfe, hme⟩ := meGo_takes (y := stepped x cur rest)
      (op := goOp x base b.size s.cpt.seq) (rfl : _ = (meList m).foldl _ (bumpSeq (setGroup p.val g.val (stepped x cur rest) s)))
    exact ⟨_, hx, hgrp, how, hregs, hbytes, hfe, hme⟩
  · obtain ⟨e, h32, hbit, hpend⟩ := hfull
    have hany : ((meList m).any fun e => !(meAccepts p.val e s)) = true :=
      List.any_eq_true.2 ⟨e, mem_meList.2 ⟨h32, hbit⟩, by simpa [meAccepts, Option.isSome_iff_ne_none] using hpend⟩
    rw [exec_meGo, issue_issues_noDst hi rfl, meGoStep_executing hex hb]
    simp only [leader, ← hm, hany, if_true, Option.getD_none]
  · rw [exec_meWait, issue_issues_noDst hi rfl, meWaitStep_executing hex]
    simp only [leader, ← hm, Option.getD_some]
  · obtain ⟨hcpt, hcnt, hreg, hbytes⟩ := gateWindow_does hc hq
    obtain ⟨hin, hout⟩ := meOf_foldl_window s ((hn.sublist ((List.take_sublist 16 _).map _)))
    have hme (q e : Nat) : meOf q e (tidyMem (gateWindow c.val s)) = meOf q e (windowTaken c.val s) := by
      rw [meOf, meOf, coreOf_tidyMem, coreOf_of_cores (congrArg Compute.cores hcpt)]
    refine ⟨_, exec_gateWindow c s, ?_, fun r hr => ?_, fun q e h => ?_, hcnt, hreg, hbytes⟩
    · rw [tidyMem_cpt, hcpt]
      exact tabGet_set_self _ _ _ _
    · rw [hme]
      exact hin r hr
    · rw [hme]
      exact hout q e h
  · have hx := exec_meIdleTimeout p e s
    rw [meIdle_idle ha hr hp hg] at hx
    exact ⟨_, hx, tabGet_set_self _ _ _ _, rfl, rfl, sameBytes_tidyMem_of_eq rfl rfl rfl⟩
  · have hx := exec_meInjArm r p v s
    rw [blockWrite_heard h] at hx
    have ha : AltersRegs (fun k => k = rk (pgSc p.val) 0 0x420) s (meInjWrite p.val v s) := altersRegs_writeByType (by rfl) v s
    exact ⟨_, hx, fieldsWritten_writeByType (by simp only [pgSc]; omega) 0x420 v s, ha.1, ha.regsOnly⟩

/-! ## A free slot for a group (R92, R94) -/

theorem exists_mem_of_tabFind {α : Type} {k : Nat} {v : α} : ∀ {t : Tab α}, tabFind k t = some v → (k, v) ∈ t
  | [], h => by simp at h
  | (k', v') :: t, h => by
    rw [tabFind_cons] at h
    split at h
    · next hk => simp_all
    · exact List.mem_cons_of_mem _ (exists_mem_of_tabFind h)

theorem length_tabSet_le {α : Type} (k : Nat) (v : α) : ∀ t : Tab α, (tabSet k v t).length ≤ t.length + 1
  | [] => le_rfl
  | (k', v') :: t => by
    unfold tabSet
    split_ifs
    · simpa using length_tabSet_le k v t
    · simp
    · simp

theorem freeGroupSlot_lt (p : Nat) (s : State) : freeGroupSlot p s < 64 := by
  unfold freeGroupSlot
  cases h : (List.range 64).find? fun g => (groupOf p g s).isNone with
  | none => decide
  | some g => exact List.mem_range.1 (List.mem_of_find?_eq_some h)

/-- A core with fewer than 64 groups has a free slot. -/
theorem groupOf_freeGroupSlot {p : Nat} {s : State} (h : (coreOf p s).groups.length < 64) :
    groupOf p (freeGroupSlot p s) s = none := by
  unfold freeGroupSlot
  cases hf : (List.range 64).find? fun g => (groupOf p g s).isNone with
  | some g =>
    have hs := List.find?_some hf
    exact Option.isNone_iff_eq_none.1 hs
  | none =>
    have hsub : List.range 64 ⊆ (coreOf p s).groups.map (·.1) := by
      intro g hg
      have hs := List.find?_eq_none.1 hf g hg
      obtain ⟨x, hx⟩ := Option.ne_none_iff_exists'.1 fun hn => hs (Option.isNone_iff_eq_none.2 hn)
      exact List.mem_map.2 ⟨(g, x), exists_mem_of_tabFind hx, rfl⟩
    have hle := (List.subperm_of_subset List.nodup_range hsub).length_le
    rw [List.length_range, List.length_map] at hle
    omega

/-! ## The groups of a block put on a core (R94, R95, R191) -/

/-- What a group that is put on core `p` leaves alone: everything but the groups of the core and the free values. -/
def GroupKept (p : Nat) (s t : State) : Prop :=
  t.regs = s.regs ∧ t.fe = s.fe ∧ t.mem = s.mem ∧ t.hbc = s.hbc ∧ t.aon = s.aon ∧ t.tlr = s.tlr ∧ t.cpt.blocks = s.cpt.blocks ∧
  t.cpt.kernels = s.cpt.kernels ∧ t.cpt.nextBlock = s.cpt.nextBlock ∧ t.cpt.saved = s.cpt.saved ∧
  ∀ q, q ≠ p → coreOf q t = coreOf q s

theorem GroupKept.refl (p : Nat) (s : State) : GroupKept p s s := ⟨rfl, rfl, rfl, rfl, rfl, rfl, rfl, rfl, rfl, rfl, fun _ _ => rfl⟩

theorem GroupKept.trans {p : Nat} {s t u : State} (h : GroupKept p s t) (h' : GroupKept p t u) : GroupKept p s u := by
  obtain ⟨h1, h2, h3, h4, h5, h6, h7, h8, h9, h10, h11⟩ := h
  obtain ⟨g1, g2, g3, g4, g5, g6, g7, g8, g9, g10, g11⟩ := h'
  exact ⟨g1.trans h1, g2.trans h2, g3.trans h3, g4.trans h4, g5.trans h5, g6.trans h6, g7.trans h7, g8.trans h8, g9.trans h9,
    g10.trans h10, fun q hq => (g11 q hq).trans (h11 q hq)⟩

theorem groupKept_putGroup (p : Nat) (x : Group) (s : State) : GroupKept p s (putGroup p x s) :=
  ⟨rfl, rfl, rfl, rfl, rfl, rfl, rfl, rfl, rfl, rfl, fun _ hq => coreOf_setGroup_ne hq _ x s⟩

/-- The group that R95 and R191 start. -/
def newGroup (j b : Nat) (k : Kernel) (index rank idx seed : Nat) : Group :=
  { job := j, block := b, idx := idx, live := BitVec.allOnes 32, regs := startRegs k index rank idx, seed := seed,
    paths := [{ mask := BitVec.allOnes 32, pc := 0 }], nregs := k.regs }

/-- The next group of a block put on its core. -/
def putNext (j b : Nat) (k : Kernel) (index rank p : Nat) (s : State) (idx : Nat) : State :=
  putGroup p (newGroup j b k index rank idx s.free) { s with free := s.free + 1 }

theorem groupKept_putNext (j b : Nat) (k : Kernel) (index rank p : Nat) (s : State) (idx : Nat) :
    GroupKept p s (putNext j b k index rank p s idx) := groupKept_putGroup p _ { s with free := s.free + 1 }

/-- After `n` groups: each stands in a slot that was free before, no slot has become free, and the core holds `n` more at most. -/
theorem putNext_groups (j b : Nat) (k : Kernel) (index rank p : Nat) (s : State) :
    ∀ n, (coreOf p s).groups.length + n ≤ 64 →
      let t := (List.range n).foldl (putNext j b k index rank p) s
      (∀ idx < n, ∃ g seed, g < 64 ∧ groupOf p g s = none ∧ groupOf p g t = some (newGroup j b k index rank idx seed)) ∧
      (∀ g, groupOf p g t = none → groupOf p g s = none) ∧
      (coreOf p t).groups.length ≤ (coreOf p s).groups.length + n ∧ GroupKept p s t
  | 0, _ => ⟨by simp, fun _ h => h, le_rfl, .refl p s⟩
  | n + 1, hroom => by
    obtain ⟨hput, hfree, hlen, hkept⟩ := putNext_groups j b k index rank p s n (by omega)
    rw [List.range_succ, List.foldl_append, List.foldl_cons, List.foldl_nil]
    generalize (List.range n).foldl (putNext j b k index rank p) s = u at *
    have hslot : groupOf p (freeGroupSlot p { u with free := u.free + 1 }) u = none :=
      groupOf_freeGroupSlot (s := { u with free := u.free + 1 }) (by have : (coreOf p u).groups.length < 64 := by omega
                                                                     exact this)
    have hself : groupOf p (freeGroupSlot p { u with free := u.free + 1 }) (putNext j b k index rank p u n) =
        some (newGroup j b k index rank n u.free) := groupOf_setGroup_self p _ _ _
    have hne {g : Nat} (hg : g ≠ freeGroupSlot p { u with free := u.free + 1 }) :
        groupOf p g (putNext j b k index rank p u n) = groupOf p g u := groupOf_setGroup_ne hg p _ _
    refine ⟨fun idx hidx => ?_, fun g hg => ?_, ?_, hkept.trans (groupKept_putNext j b k index rank p u n)⟩
    · by_cases hn : idx = n
      · subst hn
        exact ⟨_, u.free, freeGroupSlot_lt p _, hfree _ hslot, hself⟩
      · obtain ⟨g, seed, hg, hs, hgrp⟩ := hput idx (by omega)
        refine ⟨g, seed, hg, hs, (hne ?_).trans hgrp⟩
        rintro rfl
        rw [hslot] at hgrp
        cases hgrp
    · by_cases hgs : g = freeGroupSlot p { u with free := u.free + 1 }
      · rw [hgs, hself] at hg
        cases hg
      · exact hfree g ((hne hgs).symm.trans hg)
    · have hle : (coreOf p (putNext j b k index rank p u n)).groups.length ≤ (coreOf p u).groups.length + 1 := by
        rw [putNext, putGroup, setGroup, coreOf_setCore_self]
        exact length_tabSet_le _ _ _
      omega

/-! The start registers of a group's threads (R191). -/

/-- The start registers of one thread. -/
def threadStart (k : Kernel) (index rank idx t : Nat) : Tab Word :=
  [(t * 512, w32 (idx * 32 + t)), (t * 512 + 1, w32 (index % k.gx)), (t * 512 + 2, w32 (index / k.gx % k.gy)),
    (t * 512 + 3, w32 (index / (k.gx * k.gy))), (t * 512 + 4, w32 rank), (t * 512 + 5, w32 k.param),
    (t * 512 + 6, w32 (k.param / 2 ^ 32))]

theorem startRegs_eq (k : Kernel) (index rank idx : Nat) :
    startRegs k index rank idx = ((List.range 32).map (threadStart k index rank idx)).flatten := by
  refine congrArg List.flatten (List.map_congr_left fun t _ => ?_)
  simp only [List.zipIdx_cons, List.zipIdx_nil, List.map_cons, List.map_nil, threadStart, Nat.reduceAdd, Nat.add_zero]

theorem tabFind_append_of_some {α : Type} {k : Nat} {v : α} : ∀ {t : Tab α}, tabFind k t = some v → ∀ u : Tab α,
    tabFind k (t ++ u) = some v
  | [], h, _ => by simp at h
  | (k', v') :: t, h, u => by
    rw [List.cons_append, tabFind_cons]
    rw [tabFind_cons] at h
    split
    · next hk => rwa [if_pos hk] at h
    · next hk => exact tabFind_append_of_some (by rwa [if_neg hk] at h) u

theorem tabFind_append_of_none {α : Type} {k : Nat} {u : Tab α} : ∀ {t : Tab α}, (∀ e ∈ t, e.1 ≠ k) →
    tabFind k (t ++ u) = tabFind k u
  | [], _ => rfl
  | (k', v') :: t, h => by
    rw [List.cons_append, tabFind_cons, if_neg (h (k', v') (by simp))]
    exact tabFind_append_of_none fun e he => h e (by simp [he])

/-- A register of a thread stands among that thread's registers. -/
theorem tabFind_flatten_thread {f : Nat → Tab Word} (hf : ∀ t, ∀ e ∈ f t, e.1 / 512 = t) {th r : Nat} (hr : r < 512) {v : Word}
    (hv : tabFind (th * 512 + r) (f th) = some v) : ∀ l : List Nat, th ∈ l →
      tabFind (th * 512 + r) ((l.map f).flatten) = some v
  | a :: l, h => by
    rw [List.map_cons, List.flatten_cons]
    by_cases ha : a = th
    · rw [ha]
      exact tabFind_append_of_some hv _
    · rw [tabFind_append_of_none fun e he hk => ha ((hf a e he).symm.trans (by omega))]
      exact tabFind_flatten_thread hf hr hv l ((List.mem_cons.1 h).resolve_left (Ne.symm ha))

theorem threadStart_keys (k : Kernel) (index rank idx t : Nat) : ∀ e ∈ threadStart k index rank idx t, e.1 / 512 = t := by
  simp only [threadStart, List.forall_mem_cons, List.not_mem_nil, false_implies, implies_true, and_true]
  omega

/-- A register of R191 that a group starts with. -/
theorem regOf_newGroup (j b : Nat) (k : Kernel) (index rank idx seed : Nat) {th r : Nat} (ht : th < 32) (hr : r < 255) {v : Word}
    (hv : tabFind (th * 512 + r) (threadStart k index rank idx th) = some v) : regOf (newGroup j b k index rank idx seed) th r = v := by
  have hf : tabFind (th * 512 + r) (newGroup j b k index rank idx seed).regs = some v := by
    show tabFind _ (startRegs k index rank idx) = _
    rw [startRegs_eq]
    exact tabFind_flatten_thread (threadStart_keys k index rank idx) (by omega) hv _ (List.mem_range.2 ht)
  rw [regOf, if_neg (by omega), hf]
  rfl

/-! ## The placement of one block (R92, R94, R95, R108, R304) -/

theorem stageImage_staged {p j : Nat} {k : Kernel} {s : State} (h : Staged p j k s) : stageImage p j k s = s := by
  rw [stageImage, stageText]
  exact if_pos h

theorem wakeCore_powered {p : Nat} {s : State} (hc : powered (pgCl (p / 5)) s = true) (hp : powered (pgSc p) s = true) :
    wakeCore p s = s := by
  simp only [wakeCore, hc, hp, if_true]

theorem coreBegin_begun {p j : Nat} {s : State} (h : (coreOf p s).jobs.contains j = true) : coreBegin p j s = s := by
  simp only [coreBegin, h, if_true]

theorem foldl_fixed {α β : Type} {f : β → α → β} {b : β} : ∀ {l : List α}, (∀ a ∈ l, f b a = b) → l.foldl f b = b
  | [], _ => rfl
  | a :: l, h => by
    rw [List.foldl_cons, h a (by simp)]
    exact foldl_fixed fun c hc => h c (by simp [hc])

/-- The images that stand in the stores already are not staged again. -/
theorem stageFirst_staged {j : Nat} {k : Kernel} {s : State} (hk : kernelOf j s = some k)
    (h : k.next = 0 → ∀ q ∈ partCores j k s, Staged q j k s) : stageFirst j s = s := by
  simp only [stageFirst, hk]
  split
  · rfl
  · next hn =>
    refine foldl_fixed fun q hq => ?_
    split
    · rfl
    · exact stageImage_staged (h (by omega) q hq)

theorem runsOf_one (p : Nat) : runsOf 1 [p] = [[p]] := by simp [runsOf]

/-- What a placement shows of the kernel. -/
def kernelPlaced (k : Kernel) (p : Nat) : Kernel :=
  { k with next := k.next + 1, cores := if k.cores.contains p then k.cores else k.cores ++ [p] }

/-- A block cluster of one block on a core that is ready for it is the block put and the kernel one block on. -/
theorem placeCluster_one {j p : Nat} {k : Kernel} {s : State} (hk : kernelOf j s = some k) (hj : jobEnded j s = false)
    (hc : powered (pgCl (p / 5)) s = true) (hp : powered (pgSc p) s = true) (hst : Staged p j k s)
    (hfirst : k.next = 0 → ∀ q ∈ partCores j k s, Staged q j k s) :
    placeCluster j [p] s = setKernel j (kernelPlaced k p) (putBlock j k k.next 0 p s) := by
  unfold placeCluster
  simp only [stageFirst_staged hk hfirst, List.foldl_cons, List.foldl_nil, hk, hj, wakeCore_powered hc hp, stageImage_staged hst,
    Bool.false_eq_true, if_false, List.zipIdx_cons, List.zipIdx_nil]
  rfl

/-- BLOCK_PLACE of a kernel whose clusters are of one block. -/
theorem blockPlace_one {j p : Nat} {k : Kernel} {s : State} (hp80 : p < 80) (hk : kernelOf j s = some k) (hb : k.bclSize = 1)
    (hcoop : k.coop = false) (hpa : k.paused = false) (hn : k.next < kernelBlocks k) (hj : jobEnded j s = false)
    (hd : devState s = 0) (hroom : clusterRoom j k [p] s = true) :
    blockPlace j [p] s = cpriPlaced k.slot (placeCluster j [p] s) := by
  have hneed : min (kernelBlocks k - k.next) 1 = 1 := by omega
  have h80 : ¬ 80 ≤ p := by omega
  simp [blockPlace, hk, hb, hcoop, hpa, hneed, hj, hd, h80, dozeHold, runsOf_one, placeAll, hroom]

/-- Where no compositor-priority queue has preempted, nothing is measured. -/
theorem cpriPlaced_none {slot : Nat} {s : State} (h : s.tlr.cpri = none) : cpriPlaced slot s = s := by
  simp only [cpriPlaced, h]

/-- The block that R94 and R108 put. -/
def placedBlock (j : Nat) (k : Kernel) (index rank p : Nat) : Block :=
  { job := j, core := p, index := index, bcl := index / k.bclSize, rank := rank, size := k.localBytes, groups := k.groups,
    nregs := k.regs }

/-- The block numbered and listed, its local memory zeroed. -/
def blockListed (j : Nat) (k : Kernel) (index rank p : Nat) (s : State) : State :=
  setBlock s.cpt.nextBlock (placedBlock j k index rank p)
    (lmClear s.cpt.nextBlock { s with cpt := { s.cpt with nextBlock := s.cpt.nextBlock + 1 } })

theorem putBlock_begun {j p : Nat} {s : State} (h : (coreOf p s).jobs.contains j = true) (k : Kernel) (index rank : Nat) :
    putBlock j k index rank p s =
      (List.range k.groups).foldl (putNext j s.cpt.nextBlock k index rank p) (blockListed j k index rank p s) := by
  have hb : coreBegin p j { s with cpt := { s.cpt with nextBlock := s.cpt.nextBlock + 1 } } = _ := coreBegin_begun h
  unfold putBlock
  simp only [hb]
  rfl

/-- A zeroed allocation reads 0. -/
theorem memByte_memClear_in {a n x : Nat} (h : a ≤ x ∧ x < a + n) (m : Tab Byte) : memByte zeroByte (memClear a n m) x = 0 := by
  have hf : tabFind x (memClear a n m) = none := by
    rw [← Option.not_isSome_iff_eq_none, Option.isSome_iff_exists]
    rintro ⟨v, hv⟩
    have hm := (List.mem_filter.1 (exists_mem_of_tabFind hv)).2
    simp only [Bool.or_eq_true, decide_eq_true_eq] at hm
    omega
  rw [memByte, hf]
  rfl

theorem groups_of_clusterRoom {j p : Nat} {k : Kernel} {s : State} (h : clusterRoom j k [p] s = true) :
    (coreOf p s).groups.length + k.groups ≤ 64 := by
  simp only [clusterRoom, coreRoom, List.all_cons, List.all_nil, Bool.and_true, Bool.and_eq_true, decide_eq_true_eq] at h
  obtain ⟨⟨-, ⟨⟨⟨hg, -⟩, -⟩, -⟩, -⟩, -⟩ := h
  exact hg

/-- A block put on a core with room for its groups. -/
theorem putBlock_does {j p : Nat} {k : Kernel} {s : State} (hroom : (coreOf p s).groups.length + k.groups ≤ 64)
    (hj : (coreOf p s).jobs.contains j = true) :
    GroupKept p (blockListed j k k.next 0 p s) (putBlock j k k.next 0 p s) ∧
      ∀ idx, idx < k.groups → ∃ g seed, g < 64 ∧ groupOf p g s = none ∧
        groupOf p g (putBlock j k k.next 0 p s) = some (newGroup j s.cpt.nextBlock k k.next 0 idx seed) := by
  obtain ⟨hput, -, -, hkept⟩ := putNext_groups j s.cpt.nextBlock k k.next 0 p (blockListed j k k.next 0 p s) k.groups hroom
  rw [putBlock_begun hj]
  exact ⟨hkept, hput⟩

/-- The block that a placement leaves is that of R94, R95, R108 and R191. -/
theorem placedBlock_putBlock {j p : Nat} {k : Kernel} {s : State} (hroom : (coreOf p s).groups.length + k.groups ≤ 64)
    (hj : (coreOf p s).jobs.contains j = true) (k' : Kernel) :
    PlacedBlock j k s.cpt.nextBlock p s (tidyMem (setKernel j k' (putBlock j k k.next 0 p s))) := by
  obtain ⟨⟨-, -, hmem, -, -, -, hblocks, -⟩, hgrp⟩ := putBlock_does hroom hj
  refine ⟨?_, fun off hoff => ?_, fun idx hidx => ?_⟩
  · show tabFind s.cpt.nextBlock (putBlock j k k.next 0 p s).cpt.blocks = _
    rw [hblocks]
    exact tabFind_set_self _ _ _
  · show memByte zeroByte (memCanon zeroByte (putBlock j k k.next 0 p s).mem.lm) _ = 0
    rw [memByte_canon, hmem]
    exact memByte_memClear_in (by simp only [lmKey]; omega) _
  · obtain ⟨g, seed, hg, hs, ht⟩ := hgrp idx hidx
    refine ⟨g, _, hg, hs, ht, rfl, rfl, rfl, rfl, rfl, rfl, fun th hth => ⟨?_, ?_, ?_⟩⟩
    · exact regOf_newGroup j _ k _ 0 idx seed hth (by omega) (by simp [threadStart, tabFind_cons])
    · exact regOf_newGroup j _ k _ 0 idx seed hth (by omega) (by simp [threadStart, tabFind_cons])
    · exact regOf_newGroup j _ k _ 0 idx seed hth (by omega) (by simp [threadStart, tabFind_cons])

/-! ## The preemption of a unit (R65, R114, R258, R259) -/

/-- The blocks of a unit told to stop. -/
def blocksStopped (bs : List (Nat × Block)) (s : State) : State :=
  bs.foldl (fun s e => setBlock e.1 { e.2 with stopping := true } s) s

theorem blocksStopped_frame (bs : List (Nat × Block)) (s : State) : (blocksStopped bs s).regs = s.regs ∧
    (blocksStopped bs s).fe = s.fe ∧ (blocksStopped bs s).mem = s.mem ∧ (blocksStopped bs s).hbc = s.hbc ∧
    (blocksStopped bs s).aon = s.aon ∧ (blocksStopped bs s).cpt.cores = s.cpt.cores ∧
    (blocksStopped bs s).cpt.kernels = s.cpt.kernels := by
  have h := foldl_keeps (fun u : State => (u.regs, u.fe, u.mem, u.hbc, u.aon, u.cpt.cores, u.cpt.kernels))
    (fun s e => setBlock e.1 { e.2 with stopping := true } s) bs (fun _ _ _ => rfl) s
  simp only [Prod.mk.injEq] at h
  exact h

theorem blockOf_setBlock_ne {b b' : Nat} (h : b' ≠ b) (v : Block) (s : State) : blockOf b' (setBlock b v s) = blockOf b' s :=
  tabFind_set_ne h _ _

@[simp] theorem blockOf_setBlock_self (b : Nat) (v : Block) (s : State) : blockOf b (setBlock b v s) = some v :=
  tabFind_set_self _ _ _

theorem blockStopping_setBlock (b : Nat) (v : Block) (s : State) : blockStopping b (setBlock b v s) = v.stopping := by
  rw [blockStopping, blockOf_setBlock_self]

/-- A block of the unit stops; it goes on stopping as the others are told. -/
theorem blockStopping_blocksStopped {b : Nat} : ∀ (bs : List (Nat × Block)) (s : State),
    b ∈ bs.map (·.1) ∨ blockStopping b s = true → blockStopping b (blocksStopped bs s) = true
  | [], _, h => h.resolve_left (by simp)
  | e :: bs, s, h => by
    refine blockStopping_blocksStopped bs (setBlock e.1 { e.2 with stopping := true } s) ?_
    by_cases hb : b = e.1
    · exact .inr (by rw [hb, blockStopping_setBlock])
    · refine h.imp (fun hm => (List.mem_cons.1 hm).resolve_left hb) fun hs => ?_
      rw [blockStopping, blockOf_setBlock_ne hb]
      exact hs

/-- The blocks of other units stay as they are. -/
theorem blockOf_blocksStopped {b : Nat} : ∀ (bs : List (Nat × Block)) (s : State), b ∉ bs.map (·.1) →
    blockOf b (blocksStopped bs s) = blockOf b s
  | [], _, _ => rfl
  | e :: bs, s, h => by
    rw [List.map_cons, List.mem_cons, not_or] at h
    exact (blockOf_blocksStopped bs _ h.2).trans (blockOf_setBlock_ne h.1 _ s)

/-- A write buffer that holds nothing is written out without effect. -/
theorem wbFlushAll_empty {p : Nat} {s : State} (h : (coreOf p s).wb = []) : wbFlushAll p s = s := by
  simp [wbFlushAll, wbFlush, h]

/-- A request for a unit whose cores' write buffers are empty. -/
theorem preemptRequest_drained {j unit : Nat} {k : Kernel} {s : State} (hk : kernelOf j s = some k) (hb : unitBlocks j unit s ≠ [])
    (hj : jobEnded j s = false) (hw : ∀ e ∈ unitBlocks j unit s, (coreOf e.2.core s).wb = []) :
    preemptRequest j unit s = blocksStopped (unitBlocks j unit s) (setKernel j { k with paused := true } s) := by
  obtain ⟨-, -, -, -, -, hcores, -⟩ := blocksStopped_frame (unitBlocks j unit s) (setKernel j { k with paused := true } s)
  simp only [preemptRequest, hk, hb, hj, Bool.false_eq_true, or_self, if_false]
  refine foldl_fixed fun e he => wbFlushAll_empty ?_
  show (coreOf e.2.core (blocksStopped (unitBlocks j unit s) (setKernel j { k with paused := true } s))).wb = []
  rw [coreOf_of_cores hcores]
  exact hw e he

theorem cpriUnit_noSlot {j unit : Nat} {s : State} (h : cpriSlot s = none) : cpriUnit j unit s = s := by
  simp only [cpriUnit, h]

/-- A runnable queue of the compositor-priority slot that has one of the unit's clusters preempts it. -/
theorem cpriUnit_runs {j unit c q : Nat} {k : Kernel} {s : State} (hq : q < 16) (hc : cpriSlot s = some c) (hk : kernelOf j s = some k)
    (hs : k.slot ≠ c) (hr : cpriRuns c q s = true) (hu : (unitsIn j (queueMask c q s) k s).contains unit = true) :
    cpriUnit j unit s = preemptRequest j unit s := by
  have hany : ((List.range 16).any fun q => cpriRuns c q s && (unitsIn j (queueMask c q s) k s).contains unit) = true :=
    List.any_eq_true.2 ⟨q, List.mem_range.2 hq, by rw [hr, hu]; rfl⟩
  simp only [cpriUnit, hc, hk]
  exact if_pos ⟨hs, hany⟩

/-! ## The save of a unit (R65, R114) -/

/-- Without an injection, an error or an invalidation that waits, a write of HBM changes the bytes it writes and what the controllers know
of the regions. -/
def HbmWritten (a n : Nat) (s t : State) : Prop :=
  t = { s with mem := { s.mem with hbm := t.mem.hbm }, hbc := t.hbc } ∧ t.hbc.stale = s.hbc.stale ∧
    ∀ k, (k < a ∨ a + n ≤ k) → memByte (hbmDefault s.hbc.stale) t.mem.hbm k = memByte (hbmDefault s.hbc.stale) s.mem.hbm k

/-- The controllers' state changes in the regions that are filled or being filled alone. -/
def FillsOnly (s t : State) : Prop :=
  t = { s with hbc := t.hbc } ∧ t.hbc.stale = s.hbc.stale ∧ t.hbc.ecc = s.hbc.ecc ∧ t.hbc.pendInv = s.hbc.pendInv

theorem FillsOnly.refl (s : State) : FillsOnly s s := ⟨rfl, rfl, rfl, rfl⟩

theorem FillsOnly.trans {s t u : State} (h : FillsOnly s t) (h' : FillsOnly t u) : FillsOnly s u := by
  obtain ⟨h1, h2, h3, h4⟩ := h
  obtain ⟨g1, g2, g3, g4⟩ := h'
  exact ⟨by rw [g1, h1], g2.trans h2, g3.trans h3, g4.trans h4⟩

theorem FillsOnly.pendInv {s t : State} (h : FillsOnly s t) : t.hbc.pendInv = s.hbc.pendInv := by
  obtain ⟨-, -, -, hp⟩ := h
  exact hp

theorem fillsOnly_settleFills : ∀ (rs : List Nat) {s : State}, s.hbc.pendInv = [] → FillsOnly s (settleFills rs s)
  | [], s, _ => .refl s
  | r :: rs, s, h => by
    have hr : FillsOnly s (regionFilled r s) := by
      unfold regionFilled
      split
      · simp only [h, List.contains_nil, Bool.false_eq_true, if_false]
        exact ⟨rfl, rfl, rfl, h.symm⟩
      · exact .refl s
    exact hr.trans (fillsOnly_settleFills rs (hr.pendInv.trans h))

theorem fillsOnly_touchRegions : ∀ (rs : List Nat) (s : State), FillsOnly s (rs.foldl touchRegion s)
  | [], s => .refl s
  | r :: rs, s => by
    have hr : FillsOnly s (touchRegion s r) := by
      unfold touchRegion
      split
      · exact .refl s
      · exact ⟨rfl, rfl, rfl, rfl⟩
    exact hr.trans (fillsOnly_touchRegions rs _)

theorem hbmMerge_noErrors {s : State} (h : s.hbc.ecc = []) (a n : Nat) : hbmMerge a n s = s := by
  simp [hbmMerge, h]

theorem stackOf_lt (a : Nat) (s : State) : stackOf a s < 4 := by
  have hchan : hbmChan (a / 256) s < 128 := by
    unfold hbmChan
    simp only
    rcases nth_mem_or_default 0 (livePcs s) (if ((List.range (livePcs s).length).map fun k =>
        Config.hbmTurn (a / 256 / (livePcs s).length) k % (livePcs s).length).Nodup then
      nth 0 ((List.range (livePcs s).length).map fun k =>
        Config.hbmTurn (a / 256 / (livePcs s).length) k % (livePcs s).length) (a / 256 % (livePcs s).length)
      else a / 256 % (livePcs s).length) with h | h
    · rw [h]; omega
    · exact List.mem_range.1 (List.mem_filter.1 h).1
  unfold stackOf
  omega

theorem takeInjection_none {pg : Nat} {s : State} (h : bit (getReg pg 0 0x028 s) 16 = false) : takeInjection pg s = (none, s) := by
  simp [takeInjection, h]

/-- The bytes of a write to HBM set, the units that it covers cleared of errors. -/
def hbmStored (a : Nat) (bs : List Byte) (s : State) : State :=
  { s with
    mem := { s.mem with hbm := memWrite (hbmDefault s.hbc.stale) a bs s.mem.hbm },
    hbc := { s.hbc with ecc := clearEcc a bs.length s.hbc.ecc } }

/-- The fills of the regions of a write complete, and those of the regions that it is the first to write begin (R137). -/
def regionsReady (a n : Nat) (s : State) : State := (chunksOf (2 ^ 21) a n).foldl touchRegion (settleFills (chunksOf (2 ^ 21) a n) s)

theorem fillsOnly_regionsReady {s : State} (h : s.hbc.pendInv = []) (a n : Nat) : FillsOnly s (regionsReady a n s) :=
  (fillsOnly_settleFills _ h).trans (fillsOnly_touchRegions _ _)

theorem takeInjection_hbmStored {s t : State} (h : FillsOnly s t) (hn : NoInjection s) (a : Nat) (bs : List Byte) :
    takeInjection (pgHbc (stackOf a (hbmStored a bs t))) (hbmStored a bs t) = (none, hbmStored a bs t) := by
  obtain ⟨ht, -⟩ := h
  refine takeInjection_none ?_
  have hr : (hbmStored a bs t).regs = s.regs := by
    show t.regs = s.regs
    rw [ht]
  rw [getReg, hr]
  exact hn _ (stackOf_lt a _)

theorem hbmPut_clean {s : State} (he : s.hbc.ecc = []) (hi : s.hbc.pendInv = []) (hn : NoInjection s) (a : Nat) (b : Byte)
    (bs : List Byte) : hbmPut a (b :: bs) s = hbmStored a (b :: bs) (regionsReady a (b :: bs).length s) := by
  have hf := fillsOnly_regionsReady hi a (b :: bs).length
  have hm : hbmMerge a (b :: bs).length (regionsReady a (b :: bs).length s) = regionsReady a (b :: bs).length s := by
    obtain ⟨-, -, hecc, -⟩ := hf
    exact hbmMerge_noErrors (hecc.trans he) _ _
  have hinj := takeInjection_hbmStored hf hn a (b :: bs)
  unfold hbmStored regionsReady at *
  simp only [hbmPut, hm, hinj]

/-- Bytes written to HBM, without an injection, an error or an invalidation that waits. -/
theorem hbmWritten_hbmPut {s : State} (he : s.hbc.ecc = []) (hi : s.hbc.pendInv = []) (hn : NoInjection s) (a : Nat) (bs : List Byte) :
    HbmWritten a bs.length s (hbmPut a bs s) := by
  cases bs with
  | nil => exact ⟨rfl, rfl, fun _ _ => rfl⟩
  | cons b bs =>
    rw [hbmPut_clean he hi hn]
    obtain ⟨hs, hst, -, -⟩ := fillsOnly_regionsReady hi a (b :: bs).length
    have hm : (regionsReady a (b :: bs).length s).mem = s.mem := by rw [hs]
    refine ⟨?_, hst, fun x hx => ?_⟩
    · rw [hbmStored, hs]
    · show memByte _ (memWrite (hbmDefault (regionsReady a (b :: bs).length s).hbc.stale) a (b :: bs) (regionsReady a (b :: bs).length s).mem.hbm) x = _
      rw [hst, hm]
      exact memByte_write_out _ _ _ _ _ hx

theorem HbmWritten.frame {a n : Nat} {s t : State} (h : HbmWritten a n s t) : t.regs = s.regs ∧ t.cpt = s.cpt ∧ HbmKept a n s t ∧
    t.mem.lm = s.mem.lm ∧ t.mem.cmem = s.mem.cmem := by
  obtain ⟨heq, hst, hkept⟩ := h
  refine ⟨by rw [heq], by rw [heq], fun k hk => ?_, by rw [heq], by rw [heq]⟩
  rw [hst]
  exact hkept k hk

/-- The save area of a core holds free bytes afterwards; no register, no core and no other byte changes. -/
theorem saveArea_does {s : State} (he : s.hbc.ecc = []) (hi : s.hbc.pendInv = []) (hn : NoInjection s) (slot p : Nat) :
    (saveArea slot p s).regs = s.regs ∧ (saveArea slot p s).cpt = s.cpt ∧
    HbmKept ((slotOf slot s).saveBase + lcore p s * 2 ^ 20) (2 ^ 20) s (saveArea slot p s) ∧
    (saveArea slot p s).mem.lm = s.mem.lm ∧ (saveArea slot p s).mem.cmem = s.mem.cmem := by
  obtain ⟨bs, hbs, hlen⟩ : ∃ bs, freeBytes (2 ^ 20) s = (bs, { s with free := s.free + 2 ^ 20 }) ∧ bs.length = 2 ^ 20 :=
    ⟨_, rfl, by rw [List.length_map, List.length_range]⟩
  rw [saveArea, hbs, ← hlen]
  exact (hbmWritten_hbmPut (s := { s with free := s.free + bs.length }) he hi hn _ bs).frame

/-- The map of the cores does not stand in the registers of a core's page. -/
theorem lcore_setReg_sc (p c : Nat) (w : Word) (s : State) : lcore p (setReg (pgSc c) 0 0x118 w s) = lcore p s := by
  rw [lcore, lcore, logicalOf, logicalOf]
  refine congrArg (Option.getD · 0x3F) (List.find?_congr fun l hl => ?_)
  have := List.mem_range.1 hl
  rw [physOf, physOf, getFld, getFld, getReg_setReg_ne (by simp only [rk]; omega)]

/-- What the model keeps of the blocks of a unit. -/
def savedOf (j unit cluster : Nat) (bs : List (Nat × Block)) (s : State) : Saved :=
  { job := j, unit := unit, cluster := cluster, pinned := bs.any (fun e => e.2.stored), blocks := bs,
    groups := (bs.map (fun e => (blockGroups e.1 s).map (fun g => (g.2.1, g.2.2)))).flatten,
    mes := (bs.map (fun e => (coreOf e.2.core s).mes.map (fun m => (e.1, m.1, saveMe e.1 m.2)))).flatten }

/-- A block's groups, and the operations of the unit's blocks, off its core. -/
def blockOff (ids : List Nat) (e : Nat × Block) (s : State) : State :=
  setCore e.2.core { coreOf e.2.core s with
    groups := (coreOf e.2.core s).groups.filter (fun g => g.2.block != e.1),
    mes := (coreOf e.2.core s).mes.map (fun m => (m.1, stripMe ids m.2)) } s

/-- The block off its core, with the cycles of the save in their register. -/
def blockOffShown (ids : List Nat) (cycles : Nat) (e : Nat × Block) (s : State) : State :=
  setReg (pgSc e.2.core) 0 0x118 (w32 (min cycles (2 ^ 32 - 1))) (blockOff ids e s)

/-- The save of one block of a unit, but for the list of what is saved. -/
def blockSaved (j cycles : Nat) (ids : List Nat) (s : State) (e : Nat × Block) : State :=
  saveArea (jobRef j (blockOff ids e s)).slot e.2.core (blockOffShown ids cycles e s)

/-- The unit off the list of the blocks and on that of what is saved. -/
def unitMoved (ids : List Nat) (x : Saved) (s : State) : State :=
  { s with cpt := { s.cpt with blocks := s.cpt.blocks.filter (fun e => !(ids.contains e.1)), saved := s.cpt.saved ++ [x] } }

/-- PREEMPT_SAVE_COMPLETE saves the blocks of a unit that has stopped one by one, and then moves the unit. -/
theorem saveComplete_eq (j unit cycles : Nat) (s : State) : saveComplete j unit cycles s =
    match unitBlocks j unit s with
    | [] => s
    | (_, v) :: _ =>
      if (unitBlocks j unit s).any (fun e => !e.2.stopping) || unitBusy (unitBlocks j unit s) s || jobEnded j s then s
      else unitMoved ((unitBlocks j unit s).map (·.1)) (savedOf j unit (v.core / 5) (unitBlocks j unit s) s)
        ((unitBlocks j unit s).foldl (blockSaved j cycles ((unitBlocks j unit s).map (·.1))) s) := by
  unfold saveComplete
  generalize unitBlocks j unit s = bs
  delta blockSaved blockOffShown blockOff
  generalize saveArea = store
  rfl

theorem saveComplete_one {j unit b : Nat} {v : Block} {s : State} (hb : unitBlocks j unit s = [(b, v)]) (hst : v.stopping = true)
    (hbusy : unitBusy [(b, v)] s = false) (hj : jobEnded j s = false) (cycles : Nat) :
    saveComplete j unit cycles s =
      unitMoved [b] (savedOf j unit (v.core / 5) [(b, v)] s) (blockSaved j cycles [b] s (b, v)) := by
  have hgo : ([(b, v)].any (fun e => !e.2.stopping) || unitBusy [(b, v)] s || jobEnded j s) = false := by simp [hst, hbusy, hj]
  rw [saveComplete_eq, hb]
  simp only [hgo, Bool.false_eq_true, if_false]
  rw [List.foldl_cons, List.foldl_nil, List.map_singleton]

theorem jobRef_blockOff (ids : List Nat) (j : Nat) (e : Nat × Block) (s : State) : jobRef j (blockOff ids e s) = jobRef j s := rfl

/-- The registers, the memories and the cores after the save of a unit of one block. -/
theorem blockSaved_does {ids : List Nat} {e : Nat × Block} {s : State} (j cycles : Nat) (he : s.hbc.ecc = []) (hi : s.hbc.pendInv = [])
    (hn : NoInjection s) :
    (blockSaved j cycles ids s e).regs = (blockOffShown ids cycles e s).regs ∧
    (blockSaved j cycles ids s e).cpt = (blockOff ids e s).cpt ∧
    HbmKept ((slotOf (jobRef j s).slot s).saveBase + lcore e.2.core s * 2 ^ 20) (2 ^ 20) s (blockSaved j cycles ids s e) ∧
    (blockSaved j cycles ids s e).mem.lm = s.mem.lm ∧ (blockSaved j cycles ids s e).mem.cmem = s.mem.cmem := by
  have hn' : NoInjection (blockOffShown ids cycles e s) := fun n h4 => by
    rw [blockOffShown, getReg_setReg_ne (by simp only [rk]; omega)]
    exact hn n h4
  have hl : lcore e.2.core (blockOffShown ids cycles e s) = lcore e.2.core s := lcore_setReg_sc _ _ _ _
  have hdoes := saveArea_does (s := blockOffShown ids cycles e s) he hi hn' (jobRef j s).slot e.2.core
  rw [hl] at hdoes
  rw [blockSaved, jobRef_blockOff]
  generalize saveArea (jobRef j s).slot e.2.core (blockOffShown ids cycles e s) = t at *
  exact hdoes

theorem HbmKept.tidyMem {a n : Nat} {s t : State} (h : HbmKept a n s t) : HbmKept a n s (tidyMem t) := fun k hk =>
  (memByte_canon _ _ _).trans (h k hk)

/-! ## The restore of a unit (R114, R120) -/

/-- A saved unit of one block without engines' work, restored on a core that is ready for it. -/
theorem restoreBlock_one {j b gs p : Nat} {v : Block} {x : Saved} {y : Group} {s : State} (hxj : x.job = j)
    (hg : x.groups = [(gs, y)]) (hy : y.block = b) (hm : x.mes = []) (hc : powered (pgCl (p / 5)) s = true)
    (hp : powered (pgSc p) s = true) (hj : (coreOf p s).jobs.contains j = true) :
    restoreBlock x b v p s = putGroup p y (setBlock b { v with core := p, stopping := false } s) := by
  simp only [restoreBlock, hxj, hg, hm, wakeCore_powered hc hp, coreBegin_begun hj, List.filter_cons, hy, beq_self_eq_true, if_true,
    List.filter_nil, List.foldl_cons, List.foldl_nil]

/-- The room for a unit of one block is all that its restore asks for. -/
theorem restoreAll_one {j b p : Nat} {v : Block} {k : Kernel} {x : Saved} {s : State} (hxj : x.job = j)
    (hj : jobEnded j s = false) (hroom : restoreRoom x k [(b, v)] [p] s = true) (hc : powered (pgCl (p / 5)) s = true)
    (hp : powered (pgSc p) s = true) (hst : Staged p j k s) :
    restoreAll x k [(b, v)] [[p]] s = some (restoreBlock x b v p s) := by
  simp only [restoreAll, hxj, hj, List.length_cons, List.length_nil, List.take_succ_cons, List.take_nil, hroom, List.foldl_cons,
    List.foldl_nil, wakeCore_powered hc hp, stageImage_staged hst, List.zip_cons_cons, List.zip_nil_right, Bool.false_eq_true,
    if_false, if_true]

/-- The kernel after the restore of its only saved unit. -/
def kernelRestored (k : Kernel) (busy : Bool) (ps : List Nat) : Kernel :=
  { k with paused := busy, cores := (k.cores ++ ps).eraseDups }

/-- The list of what is saved without a unit. -/
def savedWithout (j unit : Nat) (s : State) : List Saved := s.cpt.saved.filter (fun y => !(y.job == j && y.unit == unit))

/-- Another unit of the kernel is saved, or stops (R114). -/
def kernelBusy (j unit : Nat) (s : State) : Bool :=
  (savedWithout j unit s).any (fun y => y.job == j) || s.cpt.blocks.any (fun e => e.2.job == j && e.2.stopping)

/-- PREEMPT_RESTORE of a unit that finds its room. -/
theorem preemptRestore_one {j unit b p : Nat} {v : Block} {k k' : Kernel} {x : Saved} {s t : State} (hp80 : p < 80)
    (hs : s.cpt.saved = [x]) (hxj : x.job = j) (hxu : x.unit = unit) (hk : kernelOf j s = some k) (hb : x.blocks = [(b, v)])
    (hbcl : k.bclSize = 1) (hj : jobEnded j s = false) (hd : devState s = 0)
    (ht : restoreAll x k [(b, v)] [[p]] s = some t) (hjt : jobEnded j t = false) (hkt : kernelOf j t = some k') :
    preemptRestore j unit [p] s = setKernel j (kernelRestored k' (kernelBusy j unit t) [p])
      { t with cpt := { t.cpt with saved := savedWithout j unit t } } := by
  have hfind : s.cpt.saved.find? (fun x => x.job == j && x.unit == unit) = some x := by simp [hs, hxj, hxu]
  have hgo : (jobEnded j s || [p].length != [(b, v)].length || decide (2 ≤ devState s) || [p].any fun p => decide (80 ≤ p)) = false := by
    have h80 : ¬ 80 ≤ p := by omega
    simp [hj, hd, h80]
  have hdoze : dozeHold [p] s = false := by simp [dozeHold, hd]
  have hkt' : kernelOf j { t with cpt := { t.cpt with saved := t.cpt.saved.filter (fun y => !(y.job == j && y.unit == unit)) } } =
      some k' := hkt
  simp only [preemptRestore, hfind, hk, hb, hgo, hdoze, hbcl, runsOf_one, ht, hjt, hkt', Bool.false_eq_true, if_false]
  rfl

/-! ## The commands of placement and preemption -/

theorem exec_blockPlace (j : Nat) (ps : List (Fin 80)) (s : State) :
    exec (.blockPlace j ps) s = .next (tidyMem (blockPlace j (ps.map (·.val)) s)) := rfl

theorem exec_preemptRequest (j unit : Nat) (s : State) :
    exec (.preemptRequest j unit) s = .next (tidyMem (cpriUnit j unit s)) := rfl

theorem exec_preemptSaveComplete (j unit cycles : Nat) (s : State) :
    exec (.preemptSaveComplete j unit cycles) s = .next (tidyMem (saveComplete j unit cycles s)) := rfl

theorem exec_preemptRestore (j unit : Nat) (ps : List (Fin 80)) (s : State) :
    exec (.preemptRestore j unit ps) s = .next (tidyMem (preemptRestore j unit (ps.map (·.val)) s)) := rfl

theorem kernelOf_setKernel_self (j : Nat) (k : Kernel) (s : State) : kernelOf j (setKernel j k s) = some k :=
  tabFind_set_self _ _ _

/-! ## What a placement leaves (R94) -/

/-- The registers, the FE, the other cores and the number of the next block after a placement. -/
theorem putBlock_frame {j p : Nat} {k : Kernel} {s : State} (hroom : (coreOf p s).groups.length + k.groups ≤ 64)
    (hj : (coreOf p s).jobs.contains j = true) (k' : Kernel) :
    (∀ q, q ≠ p → coreOf q (tidyMem (setKernel j k' (putBlock j k k.next 0 p s))) = coreOf q s) ∧
    (tidyMem (setKernel j k' (putBlock j k k.next 0 p s))).cpt.nextBlock = s.cpt.nextBlock + 1 ∧
    (tidyMem (setKernel j k' (putBlock j k k.next 0 p s))).regs = s.regs ∧
    (tidyMem (setKernel j k' (putBlock j k k.next 0 p s))).fe = s.fe := by
  obtain ⟨⟨hregs, hfe, -, -, -, -, -, -, hnext, -, hcores⟩, -⟩ := putBlock_does hroom hj
  exact ⟨hcores, hnext, hregs, hfe⟩

/-- A placement of a kernel whose clusters are of one block, where no compositor-priority queue has preempted. -/
theorem blockPlace_placed {j p : Nat} {k : Kernel} {s : State} (hp80 : p < 80) (hk : kernelOf j s = some k) (hb : k.bclSize = 1)
    (hcoop : k.coop = false) (hpa : k.paused = false) (hn : k.next < kernelBlocks k) (hj : jobEnded j s = false)
    (hd : devState s = 0) (hroom : clusterRoom j k [p] s = true) (hc : powered (pgCl (p / 5)) s = true)
    (hp : powered (pgSc p) s = true) (hjobs : (coreOf p s).jobs.contains j = true) (hst : Staged p j k s)
    (hfirst : k.next = 0 → ∀ q ∈ partCores j k s, Staged q j k s) (hcpri : s.tlr.cpri = none) :
    blockPlace j [p] s = setKernel j (kernelPlaced k p) (putBlock j k k.next 0 p s) := by
  obtain ⟨⟨-, -, -, -, -, htlr, -⟩, -⟩ := putBlock_does (groups_of_clusterRoom hroom) hjobs
  rw [blockPlace_one hp80 hk hb hcoop hpa hn hj hd hroom, placeCluster_one hk hj hc hp hst hfirst]
  exact cpriPlaced_none ((congrArg Tlr.cpri htlr).trans hcpri)

/-! ## What a save leaves (R65, R114) -/

/-- The core of a saved block holds none of its groups. -/
theorem groups_blockOff (ids : List Nat) (e : Nat × Block) (s : State) :
    ∀ g ∈ (coreOf e.2.core (blockOff ids e s)).groups, g.2.block ≠ e.1 := by
  rw [blockOff, coreOf_setCore_self]
  intro g hg
  simpa using (List.mem_filter.1 hg).2

/-- The unit off the lists, the memories in their canonical form. -/
theorem unitMoved_frame (ids : List Nat) (x : Saved) (t : State) : (tidyMem (unitMoved ids x t)).regs = t.regs ∧
    (tidyMem (unitMoved ids x t)).cpt.cores = t.cpt.cores ∧ (tidyMem (unitMoved ids x t)).cpt.saved = t.cpt.saved ++ [x] ∧
    (∀ e ∈ (tidyMem (unitMoved ids x t)).cpt.blocks, e.1 ∉ ids) ∧
    (tidyMem (unitMoved ids x t)).mem.lm = memCanon zeroByte t.mem.lm ∧
    (tidyMem (unitMoved ids x t)).mem.cmem = memCanon zeroByte t.mem.cmem ∧
    ∀ a n s, HbmKept a n s t → HbmKept a n s (tidyMem (unitMoved ids x t)) := by
  refine ⟨rfl, rfl, rfl, fun e he => ?_, rfl, rfl, fun a n s h => h.tidyMem⟩
  simpa using (List.mem_filter.1 he).2

/-- The cycles of the save stand in their register, and no other register changes. -/
theorem blockOffShown_regs (ids : List Nat) (cycles : Nat) (e : Nat × Block) (s : State) :
    getReg (pgSc e.2.core) 0 0x118 (blockOffShown ids cycles e s) = w32 (min cycles (2 ^ 32 - 1)) ∧
      OtherRegs (fun k => k = rk (pgSc e.2.core) 0 0x118) s (blockOffShown ids cycles e s) :=
  ⟨getReg_setReg_self _ _ _ _ _, otherRegs_setReg (R := fun k => k = rk (pgSc e.2.core) 0 0x118) rfl _ (blockOff ids e s)⟩

theorem saved_blockOff (ids : List Nat) (e : Nat × Block) (s : State) : (blockOff ids e s).cpt.saved = s.cpt.saved := rfl

/-! ## What a restore leaves (R114, R120) -/

/-- The unit's block and group on core `p`. -/
def unitBack (b p : Nat) (v : Block) (y : Group) (s : State) : State :=
  putGroup p y (setBlock b { v with core := p, stopping := false } s)

/-- Nothing else of the kernel is saved or stops. -/
theorem kernelBusy_unitBack {j unit b p : Nat} {v : Block} {x : Saved} {y : Group} {s : State} (hs : s.cpt.saved = [x])
    (hxj : x.job = j) (hxu : x.unit = unit) (hother : ∀ e ∈ s.cpt.blocks, e.2.job ≠ j) :
    savedWithout j unit (unitBack b p v y s) = [] ∧ kernelBusy j unit (unitBack b p v y s) = false := by
  have hsaved : savedWithout j unit (unitBack b p v y s) = [] := by
    show s.cpt.saved.filter _ = []
    simp [hs, hxj, hxu]
  refine ⟨hsaved, ?_⟩
  rw [kernelBusy, hsaved, List.any_nil, Bool.false_or, List.any_eq_false]
  intro e he
  rcases mem_tabSet (t := s.cpt.blocks) he with rfl | ⟨hmem, -⟩
  · simp
  · simp [hother e hmem]

/-- Settles O29, each command by the state that it leaves: a placement is the block put, a request the blocks told to stop, a save
the block off its core with its area written, a restore the block and its group back. -/
theorem blocksArePlacedPreemptedAndRestored : Obligations.BlocksArePlacedPreemptedAndRestored := by
  unfold Obligations.BlocksArePlacedPreemptedAndRestored
  refine ⟨fun j p k s hk hb hcoop hpa hn hj hd hroom hc hp hjobs hst hfirst hcpri => ?_, fun j unit s hc => ?_,
    fun j unit c q k s hk hb hj hc hs hr hu hw => ?_, fun j unit cycles b v s hb hst hbusy hj he hi hn => ?_,
    fun j unit b gs p v k x y s hs hxj hxu hk hb hg hy hm hbcl hj hd hroom hc hp hjobs hst hother => ?_⟩
  · have hx := exec_blockPlace j [p] s
    rw [List.map_singleton, blockPlace_placed p.isLt hk hb hcoop hpa hn hj hd hroom hc hp hjobs hst hfirst hcpri] at hx
    have hgroups := groups_of_clusterRoom hroom
    exact ⟨_, hx, placedBlock_putBlock hgroups hjobs _, kernelOf_setKernel_self j _ _, putBlock_frame hgroups hjobs _⟩
  · rw [exec_preemptRequest, cpriUnit_noSlot hc]
  · have hx := exec_preemptRequest j unit s
    rw [cpriUnit_runs q.isLt hc hk hs hr hu, preemptRequest_drained hk hb hj hw] at hx
    obtain ⟨hregs, hfe, hmem, hhbc, haon, hcores, hkernels⟩ :=
      blocksStopped_frame (unitBlocks j unit s) (setKernel j { k with paused := true } s)
    refine ⟨_, hx, ?_, fun e he => ?_, fun b hnb => ?_, hcores, hregs, hfe, sameBytes_tidyMem_of_eq hmem hhbc haon⟩
    · exact (congrArg (tabFind j) hkernels).trans (kernelOf_setKernel_self j _ s)
    · exact blockStopping_blocksStopped _ _ (.inl (List.mem_map_of_mem he))
    · exact blockOf_blocksStopped _ _ hnb
  · have hx := exec_preemptSaveComplete j unit cycles s
    rw [saveComplete_one hb hst hbusy hj] at hx
    obtain ⟨hregs, hcpt, hkept, hlm, hcm⟩ := blockSaved_does (ids := [b]) (e := (b, v)) j cycles he hi hn
    obtain ⟨hshown, hother⟩ := blockOffShown_regs [b] cycles (b, v) s
    obtain ⟨hregs', hcores', hsaved', hblocks', hlm', hcm', hkept'⟩ :=
      unitMoved_frame [b] (savedOf j unit (v.core / 5) [(b, v)] s) (blockSaved j cycles [b] s (b, v))
    generalize tidyMem (unitMoved [b] (savedOf j unit (v.core / 5) [(b, v)] s) (blockSaved j cycles [b] s (b, v))) = u at *
    generalize blockSaved j cycles [b] s (b, v) = t at *
    refine ⟨u, savedOf j unit (v.core / 5) [(b, v)] s, hx, ?_, rfl, rfl, rfl, by simp [savedOf], by simp [savedOf],
      fun e he => ?_, ?_, ?_, fun n hne => ?_, hkept' _ _ _ hkept, ?_, ?_⟩
    · rw [hsaved', hcpt, saved_blockOff]
    · exact fun h => hblocks' e he (List.mem_singleton.2 h)
    · rw [coreOf_of_cores (hcores'.trans (congrArg Compute.cores hcpt))]
      exact groups_blockOff [b] (b, v) s
    · rw [getReg, hregs', hregs]
      exact hshown
    · rw [hregs', hregs]
      exact hother n hne
    · rw [hlm', hlm]
      rfl
    · rw [hcm', hcm]
      rfl
  · have hback : restoreBlock x b v p.val s = unitBack b p.val v y s := restoreBlock_one hxj hg hy hm hc hp hjobs
    have hall : restoreAll x k [(b, v)] [[p.val]] s = some (unitBack b p.val v y s) := by
      rw [restoreAll_one hxj hj hroom hc hp hst, hback]
    obtain ⟨hsaved, hbusy⟩ := kernelBusy_unitBack (b := b) (p := p.val) (v := v) (y := y) hs hxj hxu hother
    have hx := exec_preemptRestore j unit [p] s
    rw [List.map_singleton, preemptRestore_one (k' := k) p.isLt hs hxj hxu hk hb hbcl hj hd hall hj hk, hsaved, hbusy] at hx
    refine ⟨_, hx, rfl, tabFind_set_self _ _ _, ⟨_, freeGroupSlot_lt _ _, groupOf_setGroup_self _ _ _ _⟩,
      ⟨_, kernelOf_setKernel_self j _ _, rfl, rfl⟩, rfl, sameBytes_tidyMem_of_eq rfl rfl rfl⟩

end Sys2Proof.Machine

/-!
PROOFS. The statement of 02_number_formats.md: arithmetic, mask.live and branches. First what ends a job at an instruction, then what
an instruction that writes a register leaves alone, and what a branch makes of its path; then the statement.
-/
namespace Sys2Proof.Machine
open Sys2Proof.Claims

/-! ## Writing out the buffers keeps the front end (R122, R128, R136 to R142) -/

@[simp] theorem takeInjection_fe (pg : Nat) (s : State) : (takeInjection pg s).2.fe = s.fe := by
  unfold takeInjection
  simp only
  split <;> rfl

@[simp] theorem raiseIrq_fe (pg j : Nat) (s : State) : (raiseIrq pg j s).fe = s.fe := by
  rw [(raiseIrq_does pg j s).2]

@[simp] theorem fault_fe (src : Nat) (s : State) : (fault src s).fe = s.fe := (alters_fault src s fun _ h => h).fe

@[simp] theorem regionFilled_fe (r : Nat) (s : State) : (regionFilled r s).fe = s.fe := by
  unfold regionFilled
  simp only
  split_ifs <;> rfl

@[simp] theorem settleFills_fe (rs : List Nat) (s : State) : (settleFills rs s).fe = s.fe :=
  foldl_keeps State.fe _ rs (fun s r _ => regionFilled_fe r s) s

@[simp] theorem touchRegion_fe (s : State) (r : Nat) : (touchRegion s r).fe = s.fe := by
  unfold touchRegion
  split <;> rfl

@[simp] theorem logHbmError_fe (u : Nat) (ue scrub : Bool) (s : State) : (logHbmError u ue scrub s).fe = s.fe := by
  unfold logHbmError
  simp only
  split
  · split_ifs <;> simp
  · split
    · split_ifs <;> simp
    · split_ifs <;> simp

@[simp] theorem hbmUnitError_fe (u : Nat) (ue scrub : Bool) (s : State) : (hbmUnitError u ue scrub s).fe = s.fe := by
  unfold hbmUnitError
  simp only
  split <;> simp

@[simp] theorem hbmMerge_fe (a n : Nat) (s : State) : (hbmMerge a n s).fe = s.fe :=
  foldl_keeps State.fe _ _ (fun s e _ => hbmUnitError_fe e.1 false false s) s

theorem hbmPut_fe (a : Nat) (bs : List Byte) (s : State) : (hbmPut a bs s).fe = s.fe := by
  cases bs with
  | nil => rfl
  | cons b bs =>
    have hready : ((chunksOf (2 ^ 21) a (b :: bs).length).foldl touchRegion
        (settleFills (chunksOf (2 ^ 21) a (b :: bs).length) s)).fe = s.fe := by
      rw [foldl_keeps State.fe _ _ fun s r _ => touchRegion_fe s r, settleFills_fe]
    unfold hbmPut
    simp only
    split
    all_goals
      next h =>
        have hinj := congrArg (fun r => r.2.fe) h
        simp only [takeInjection_fe, hbmMerge_fe, hready] at hinj
        exact hinj.symm

theorem wbOut_fe (e : WbEnt) (s : State) : (wbOut e s).fe = s.fe := by
  refine foldl_keeps State.fe _ _ (fun s r _ => ?_) s
  unfold destPut
  split
  · rfl
  · exact hbmPut_fe _ _ s

theorem wbFlushAll_fe (p : Nat) (s : State) : (wbFlushAll p s).fe = s.fe := by
  unfold wbFlushAll wbFlush
  simp only
  split
  · exact (foldl_keeps State.fe _ _ (fun s e _ => wbOut_fe e s) _).trans rfl
  · rfl

/-! ## The end of a job at an instruction (R91, R93, R187, Table 7-5) -/

theorem kernelFlush_fe (j : Nat) (s : State) : (kernelFlush j s).fe = s.fe :=
  foldl_keeps State.fe _ _ (fun s p _ => wbFlushAll_fe p s) s

theorem atsSettle_fe (s : State) : (atsSettle s).fe = s.fe := by
  refine foldl_keeps State.fe _ _ ?_ s
  exact fun _ _ _ => rfl

theorem passUnreserve_fe (j : Nat) (ps : List Nat) (s : State) : (passUnreserve j ps s).fe = s.fe := by
  unfold passUnreserve
  split
  · rfl
  · refine foldl_keeps State.fe _ _ ?_ s
    exact fun _ _ _ => rfl

theorem coreForget_fe (j : Nat) (s : State) (p : Nat) : (coreForget j s p).fe = s.fe := by
  unfold coreForget
  simp only
  split <;> rfl

/-- The work of a job stops without an effect on the table of jobs. -/
theorem stopWork_fe (j : Nat) (s : State) : (stopWork j s).fe = s.fe := by
  unfold stopWork
  simp only
  rw [passUnreserve_fe, foldl_keeps State.fe, foldl_keeps State.fe, atsSettle_fe]
  · exact kernelFlush_fe j s
  · exact fun _ _ _ => rfl
  · intro s e _
    split <;> rfl

theorem jobRuns_of_not_ended {j : Nat} {s : State} (h : jobEnded j s = false) : JobRuns j s := by
  unfold jobEnded at h
  split at h
  · next b hb => exact ⟨b, hb, Option.isNone_iff_eq_none.1 (Option.isSome_eq_false_iff.1 h)⟩
  · cases h

/-- A job that runs ends with the reason and the detail that it is given. -/
theorem jobFault_endCompute {j : Nat} {s : State} (h : jobEnded j s = false) (reason detail : Nat) :
    JobFault j reason detail (endCompute j 1 reason detail s) := by
  obtain ⟨b, hb, hfin⟩ := jobRuns_of_not_ended h
  have hfe : ((workCores j (stopWork j s)).foldl (coreForget j) (stopWork j s)).fe = s.fe :=
    (foldl_keeps State.fe _ _ (fun s p _ => coreForget_fe j s p) _).trans (stopWork_fe j s)
  unfold endCompute
  simp only [h, Bool.false_eq_true, if_false]
  generalize (workCores j (stopWork j s)).foldl (coreForget j) (stopWork j s) = t at hfe
  unfold endJob
  simp only [hfe, hb, hfin, Option.isSome_none, Bool.false_eq_true, if_false]
  exact ⟨_, tabFind_set_self _ _ _, rfl⟩

theorem jobFault_faultInsn {p j : Nat} {cur : Path} {s : State} (h : jobEnded j s = false) (reason : Nat) :
    JobFault j reason (insnDetail p cur s) (tidyMem (faultInsn p j reason cur.pc s)) := jobFault_endCompute h reason _

/-- The fields of an instruction are good, or end its job with ILLEGAL_INSN or REG_RANGE. -/
theorem insnCheck_cases (u : Uses) (i : Insn) (nregs : Nat) :
    insnCheck u i nregs = 0 ∨ insnCheck u i nregs = 0x09 ∨ insnCheck u i nregs = 0x0A := by
  unfold insnCheck
  split_ifs <;> simp

/-- An instruction with bad fields or registers ends the job of its group. -/
theorem issue_badFields {p g n : Nat} {u : Uses} {i : Insn} {x : Group} {cur : Path} {rest : List Path} {s : State}
    (hr : Ready p g x cur rest s) (hst : StoreHolds p u i x cur s) (hn : n ≠ 0) (hck : insnCheck u i x.nregs = n)
    (act : Iss → State → Option State) : issue p g i u act s = faultInsn p x.job n cur.pc s := by
  obtain ⟨hg, hp, hj, hc, hb, hw, ht, hs, hd, hi, -, -⟩ := hr
  have hturn := turnOf_ready hp hw ht hs hd
  unfold issue
  simp [hg, hj, hc, hb, hturn, hp, hw, hst, fetchTouch_clean hi, hck]

/-! ## Results in a destination register (R56, R58, R95, R101) -/

/-- Words put into register `d` of some threads. -/
def putWords (d : Nat) (ws : List (Nat × Word)) (x : Group) : Group := ws.foldl (fun x e => regPut e.1 d e.2 x) x

theorem putWords_cons (d : Nat) (e : Nat × Word) (ws : List (Nat × Word)) (x : Group) :
    putWords d (e :: ws) x = putWords d ws (regPut e.1 d e.2 x) := rfl

theorem regPut_eq (t d : Nat) (w : Word) (x : Group) : regPut t d w x = { x with regs := (regPut t d w x).regs } := by
  unfold regPut
  split <;> rfl

theorem putWords_eq (d : Nat) : ∀ (ws : List (Nat × Word)) (x : Group), putWords d ws x = { x with regs := (putWords d ws x).regs }
  | [], _ => rfl
  | e :: ws, x => by
    rw [putWords_cons, putWords_eq d ws, regPut_eq]

/-- A register that no thread is given keeps what it holds. -/
theorem tabFind_putWords {d k : Nat} : ∀ {ws : List (Nat × Word)} (x : Group), (∀ e ∈ ws, d ≠ 255 → k ≠ e.1 * 512 + d) →
    tabFind k (putWords d ws x).regs = tabFind k x.regs
  | [], _, _ => rfl
  | e :: ws, x, h => by
    rw [putWords_cons, tabFind_putWords _ fun a ha => h a (List.mem_cons_of_mem _ ha), regPut]
    split
    · rfl
    · next hd => exact tabFind_set_ne (h e List.mem_cons_self hd) _ _

/-- A thread that is given a word holds one that it is given. -/
theorem mem_of_regOf_putWords {d t : Nat} (hd : d ≠ 255) (h512 : d < 512) : ∀ {ws : List (Nat × Word)} (x : Group),
    t ∈ ws.map (·.1) → (t, regOf (putWords d ws x) t d) ∈ ws
  | [], _, h => by simp at h
  | e :: ws, x, h => by
    rw [putWords_cons]
    by_cases ht : t ∈ ws.map (·.1)
    · exact List.mem_cons_of_mem _ (mem_of_regOf_putWords hd h512 _ ht)
    · obtain rfl : t = e.1 := by simpa [ht] using h
      have hkeep : tabFind (e.1 * 512 + d) (putWords d ws (regPut e.1 d e.2 x)).regs = some e.2 := by
        rw [tabFind_putWords _ fun a ha _ hk => ht (List.mem_map.2 ⟨a, ha, by omega⟩), regPut, if_neg hd]
        exact tabFind_set_self _ _ _
      simp [regOf, hd, hkeep]

/-- The group after an instruction that puts words into a register. -/
def wroteWords (x : Group) (cur : Path) (rest : List Path) (d : Nat) (ws : List (Nat × Word)) : Group :=
  { stepped x cur rest with regs := (putWords d ws x).regs }

theorem stepPath_putWords (a : Iss) (d : Nat) (ws : List (Nat × Word)) :
    stepPath a (putWords d ws a.x) = wroteWords a.x a.cur a.rest d ws := by
  rw [putWords_eq]
  rfl

theorem mem_threadsOf {m : BitVec 32} {t : Nat} : t ∈ threadsOf m ↔ m.getLsbD t = true := by
  simp only [threadsOf, List.mem_filter, List.mem_range, and_iff_right_iff_imp]
  exact fun h => BitVec.lt_of_getLsbD h

theorem onlyDst_wroteWords {x : Group} {ex : BitVec 32} {d : BitVec 8} {ws : List (Nat × Word)} (h : ws.map (·.1) = threadsOf ex)
    (cur : Path) (rest : List Path) : OnlyDst x (wroteWords x cur rest d.toNat ws) ex d.toNat 1 := by
  intro th k hk hout
  refine tabFind_putWords x fun e he hd hkey => hout ?_
  have hlt := d.isLt
  obtain ⟨rfl, rfl⟩ : th = e.1 ∧ k = d.toNat := by omega
  exact ⟨mem_threadsOf.1 (h ▸ List.mem_map_of_mem he), hd, by omega, by omega⟩

theorem regOf_wroteWords (x : Group) (cur : Path) (rest : List Path) (d : Nat) (ws : List (Nat × Word)) (t k : Nat) :
    regOf (wroteWords x cur rest d ws) t k = regOf (putWords d ws x) t k := by
  rw [putWords_eq]
  rfl

theorem mem_of_regOf_wroteWords {x : Group} {ex : BitVec 32} {d : BitVec 8} {ws : List (Nat × Word)}
    (h : ws.map (·.1) = threadsOf ex) (cur : Path) (rest : List Path) {th : Nat} (hth : ex.getLsbD th = true) (hd : d ≠ 255) :
    (th, regOf (wroteWords x cur rest d.toNat ws) th d.toNat) ∈ ws := by
  have hlt := d.isLt
  rw [regOf_wroteWords]
  exact mem_of_regOf_putWords (fun h => hd (BitVec.eq_of_toNat_eq h)) (by omega) x (h ▸ mem_threadsOf.2 hth)

/-! ## The group put back -/

theorem alters_free (R : Nat → Prop) (k : Nat) (s : State) : Alters R s { s with free := k } := ⟨fun _ _ => rfl, rfl⟩

/-- A group put back leaves the rest of the work, the front end and every byte as they are. -/
theorem setGroup_frame {R : Nat → Prop} {s u : State} (h : Alters R s u) (p g : Nat) (y : Group) :
    groupOf p g (tidyMem (setGroup p g y u)) = some y ∧ OtherWork p g s (tidyMem (setGroup p g y u)) ∧
    OtherRegs R s (tidyMem (setGroup p g y u)) ∧ (tidyMem (setGroup p g y u)).fe = s.fe ∧
    SameBytes s (tidyMem (setGroup p g y u)) := by
  have hcores (q : Nat) : coreOf q u = coreOf q s := coreOf_of_cores (congrArg Compute.cores h.cpt) q
  have hgroups (k : Nat) : groupOf p k u = groupOf p k s := congrArg (fun c : Core => tabFind k c.groups) (hcores p)
  obtain ⟨hregs, hrest⟩ := h
  exact ⟨groupOf_setGroup_self p g y u,
    ⟨fun q hq => (coreOf_setGroup_ne hq g y u).trans (hcores q), fun k hk => (groupOf_setGroup_ne hk p y u).trans (hgroups k),
      by rw [hrest]; rfl, by rw [hrest]; rfl⟩,
    hregs, by rw [hrest]; rfl, sameBytes_tidyMem_of_eq (by rw [hrest]; rfl) (by rw [hrest]; rfl) (by rw [hrest]; rfl)⟩

/-- Results in a group without register errors, no injection armed, leave no error behind. -/
theorem regDone_clean {p g : Nat} {y : Group} {s : State} (hg : groupOf p g s = some y) (he : y.regErr = [])
    (hinj : bit (getReg (pgSc p) 0 0x028 s) 16 = false) (u : Uses) (i : Insn) (ex : BitVec 32) (x : Group) :
    regDone p g u i ex x s = s := by
  unfold regDone
  simp [hg, he, coreInject, takeInjection_none hinj]

/-- An instruction that issues and puts words into its destination. -/
theorem issue_wroteWords {p g k : Nat} {u : Uses} {i : Insn} {x : Group} {cur : Path} {rest : List Path} {s : State}
    (h : Issues p g u i x cur rest s) {act : Iss → State → Option State} {ws : List (Nat × Word)}
    (hact : act ⟨p, g, x, cur, rest, liveMask x i cur.mask⟩ s =
      some (setGroup p g (wroteWords x cur rest i.dst.toNat ws) { s with free := k })) :
    issue p g i u act s = setGroup p g (wroteWords x cur rest i.dst.toNat ws) { s with free := k } := by
  rw [issue_issues h, hact, Option.map_some, Option.getD_some]
  obtain ⟨⟨-, -, -, -, -, -, -, -, -, -, herr, hinj⟩, -, -⟩ := h
  exact regDone_clean (y := wroteWords x cur rest i.dst.toNat ws) (groupOf_setGroup_self p g _ { s with free := k }) herr hinj
    u i _ x

/-! ## Arithmetic (R56, R57) -/

theorem fmtBits_le_32 (f : FpFmt) : fmtBits f ≤ 32 := by cases f <;> decide

theorem intBits_le_32 (f : IntFmt) : (intBits f).1 ≤ 32 := by cases f <;> decide

theorem aluShape_width_le (op : AluOp) : (aluShape op).2 ≤ 32 := by
  cases op with
  | cvtFF _ d _ => exact fmtBits_le_32 d
  | cvtFI _ d _ => exact intBits_le_32 d
  | cvtIF _ d _ => exact fmtBits_le_32 d
  | _ => decide

/-- A result stands at the low end of its word; a free word is used up at most. -/
theorem widen_does {n : Nat} (h : n ≤ 32) (bits : Nat) (s : State) :
    fld (widen n bits s).1 0 n = bits % 2 ^ n ∧ ∃ k, (widen n bits s).2 = { s with free := k } := by
  unfold widen
  split
  · next h32 =>
    obtain rfl : n = 32 := by omega
    exact ⟨by rw [fld_w32]; omega, s.free, rfl⟩
  · exact ⟨fld_putFld_self _ _ _ _ (by omega), s.free + 1, rfl⟩

/-- The results of an arithmetic instruction, thread by thread: each executing thread has one word. -/
theorem foldl_widen {n : Nat} (h : n ≤ 32) (d : Nat) (bits : Nat → Nat) : ∀ (l : List Nat) (r : Group × State),
    ∃ ws k, ws.map (·.1) = l ∧ (∀ e ∈ ws, fld e.2 0 n = bits e.1 % 2 ^ n) ∧
      l.foldl (fun r t => (regPut t d (widen n (bits t) r.2).1 r.1, (widen n (bits t) r.2).2)) r =
        (putWords d ws r.1, { r.2 with free := k })
  | [], r => ⟨[], r.2.free, rfl, by simp, rfl⟩
  | t :: l, r => by
    obtain ⟨hbits, k, hfree⟩ := widen_does h (bits t) r.2
    obtain ⟨ws, k', hts, hws, hfold⟩ := foldl_widen h d bits l (regPut t d (widen n (bits t) r.2).1 r.1, (widen n (bits t) r.2).2)
    refine ⟨(t, (widen n (bits t) r.2).1) :: ws, k', by simp [hts], ?_, ?_⟩
    · rintro e (_ | ⟨_, he⟩)
      · exact hbits
      · exact hws e he
    · rw [List.foldl_cons, hfold, hfree]
      rfl

/-- The bits of a thread's result. -/
def aluResult (op : AluOp) (i : Insn) (x : Group) (t : Nat) : Nat :=
  aluBits op (regOf x t i.src0.toNat) (regOf x t i.src1.toNat) (regOf x t i.src2.toNat)

theorem aluStep_executes {op : AluOp} (hop : op ≠ .unimpl) (i : Insn) (a : Iss) (s : State) :
    ∃ ws k, ws.map (·.1) = threadsOf a.ex ∧
      (∀ e ∈ ws, fld e.2 0 (aluShape op).2 = aluResult op i a.x e.1 % 2 ^ (aluShape op).2) ∧
      aluStep op i a s = some (setGroup a.p a.g (wroteWords a.x a.cur a.rest i.dst.toNat ws) { s with free := k }) := by
  obtain ⟨ws, k, hts, hws, hfold⟩ := foldl_widen (aluShape_width_le op) i.dst.toNat (aluResult op i a.x) (threadsOf a.ex) (a.x, s)
  have hstep : aluStep op i a s = some (advance a (putWords i.dst.toNat ws a.x) { s with free := k }) := by
    unfold aluStep
    split
    · exact absurd rfl hop
    · exact congrArg (fun r : Group × State => some (advance a r.1 r.2)) hfold
  refine ⟨ws, k, hts, hws, ?_⟩
  rw [hstep, advance, stepPath_putWords]

theorem aluInsn_unimpl {p g : Nat} {i : Insn} {x : Group} {cur : Path} {rest : List Path} {s : State}
    (hr : Ready p g x cur rest s) (hst : StoreHolds p (aluUses .unimpl) i x cur s) :
    aluInsn p g .unimpl i s = faultInsn p x.job 0x09 cur.pc s := by
  rw [aluInsn, issue_issues_noDst ⟨hr, hst, rfl⟩ rfl]
  rfl

/-! ## mask.live (R101) -/

theorem maskLiveStep_eq (i : Insn) (a : Iss) (s : State) : maskLiveStep i a s = some (setGroup a.p a.g
    (wroteWords a.x a.cur a.rest i.dst.toNat ((threadsOf a.ex).map fun t => (t, a.x.live))) s) := by
  rw [← stepPath_putWords, putWords, List.foldl_map]
  rfl

/-! ## Branches (R97, R98) -/

/-- The path of the threads that take a branch (R98). -/
def takenPath (target : Nat) (cur : Path) : Path :=
  let n := if target ≤ cur.pc then cur.back + 1 else cur.back
  { cur with pc := target, back := n, demoted := decide (target ≤ cur.pc ∧ n = 64) }

/-- The paths of a group after a branch: those that fall through stay the current path, the others stand behind it. -/
def branchPaths (target : Nat) (ex : BitVec 32) (cur : Path) (rest : List Path) : List Path :=
  if ex = 0 then onward cur :: rest
  else if cur.mask &&& ~~~ ex = 0 then { takenPath target cur with slots := cur.slots + 1 } :: rest
  else { onward cur with mask := cur.mask &&& ~~~ ex } :: { takenPath target cur with mask := ex, slots := 0 } :: rest

/-- The 64th backward branch is counted, and demotes. -/
theorem takeBranch_does (p target : Nat) {cur : Path} (hd : cur.demoted = false) (s : State) :
    (takeBranch p target cur s).1 = takenPath target cur ∧
    Alters (fun k => k = rk (pgSc p) 0 0x10C) s (takeBranch p target cur s).2 := by
  unfold takeBranch takenPath
  by_cases hback : target ≤ cur.pc
  · by_cases h64 : cur.back + 1 = 64
    · simp only [hback, h64, if_true, and_self, decide_true]
      exact ⟨trivial, alters_count32 _ _ _ _ (by rfl)⟩
    · simp only [hback, h64, if_true, if_false, and_false, decide_false, hd]
      exact ⟨trivial, .refl _ s⟩
  · simp only [hback, if_false, false_and, decide_false, hd]
    exact ⟨trivial, .refl _ s⟩

theorem not_demoted_of_issues {p g : Nat} {u : Uses} {i : Insn} {x : Group} {cur : Path} {rest : List Path} {s : State}
    (h : Issues p g u i x cur rest s) : cur.demoted = false := by
  obtain ⟨⟨-, -, -, -, -, -, -, -, hd, -⟩, -⟩ := h
  exact hd

/-- A branch leaves its paths, and no register but the counter of demotions changes. -/
theorem branchStep_does (target : Nat) {a : Iss} (hd : a.cur.demoted = false) (s : State) :
    ∃ u, branchStep target a s = some (setGroup a.p a.g { a.x with paths := branchPaths target a.ex a.cur a.rest } u) ∧
      Alters (fun k => k = rk (pgSc a.p) 0 0x10C) s u := by
  obtain ⟨hpath, hcount⟩ := takeBranch_does a.p target hd s
  unfold branchStep branchPaths
  simp only
  split_ifs
  · exact ⟨s, rfl, .refl _ s⟩
  · exact ⟨_, by rw [hpath], hcount⟩
  · exact ⟨_, by rw [hpath]; rfl, hcount⟩

/-! ## The statement -/

theorem exec_aluInsn (p : Fin 80) (g : Fin 64) (op : AluOp) (i : Insn) (s : State) :
    exec (.aluInsn p g op i) s = .next (tidyMem (aluInsn p.val g.val op i s)) := rfl

theorem exec_maskLive (p : Fin 80) (g : Fin 64) (i : Insn) (s : State) : exec (.maskLive p g i) s =
    .next (tidyMem (issue p.val g.val i { op := some 0xB9, dst := 1 } (maskLiveStep i) s)) := rfl

theorem exec_branch (p : Fin 80) (g : Fin 64) (target : Nat) (i : Insn) (s : State) : exec (.branch p g target i) s =
    .next (tidyMem (issue p.val g.val i { anyImm := true, anyReg := true } (branchStep target) s)) := rfl

/-- Settles O22: an arithmetic instruction and mask.live by the words that they put into their destination, bad fields by the end of
the job, a branch by the paths that it leaves. -/
theorem arithmeticAndBranches : Obligations.ArithmeticAndBranches := by
  unfold Obligations.ArithmeticAndBranches
  refine ⟨fun p g op i x cur rest s hr hst hop => ⟨fun hck => ?_, fun n hn hck => ?_⟩, fun p g i x cur rest s hr hst => ?_,
    fun p g i x cur rest s hi => ?_, fun p g target i x cur rest s hi => ?_⟩
  · obtain ⟨ws, k, hts, hws, hact⟩ := aluStep_executes hop i ⟨p, g, x, cur, rest, exOf x i cur⟩ s
    have hx := exec_aluInsn p g op i s
    rw [aluInsn, issue_wroteWords ⟨hr, hst, hck⟩ hact] at hx
    obtain ⟨hgrp, hwork, -, hfe, hbytes⟩ := setGroup_frame (alters_free (fun _ => False) k s) p g
      (wroteWords x cur rest i.dst.toNat ws)
    exact ⟨_, _, hx, hgrp, rfl, onlyDst_wroteWords hts cur rest,
      fun th hth hd => hws _ (mem_of_regOf_wroteWords hts cur rest hth hd), hwork, rfl, hfe, hbytes⟩
  · have hx := exec_aluInsn p g op i s
    rw [aluInsn, issue_badFields hr hst hn hck] at hx
    obtain ⟨-, -, hj, -⟩ := hr
    exact ⟨_, hx, jobFault_faultInsn hj n, hck ▸ (insnCheck_cases _ _ _).resolve_left (hck ▸ hn)⟩
  · have hx := exec_aluInsn p g .unimpl i s
    rw [aluInsn_unimpl hr hst] at hx
    obtain ⟨-, -, hj, -⟩ := hr
    exact ⟨_, hx, jobFault_faultInsn hj 0x09⟩
  · have hts : ((threadsOf (exOf x i cur)).map fun t => (t, x.live)).map (·.1) = threadsOf (exOf x i cur) := by
      rw [List.map_map]
      exact List.map_id _
    have hx := exec_maskLive p g i s
    rw [issue_wroteWords (k := s.free) hi (maskLiveStep_eq i _ s)] at hx
    obtain ⟨hgrp, hwork, -, hfe, hbytes⟩ := setGroup_frame (alters_free (fun _ => False) s.free s) p g
      (wroteWords x cur rest i.dst.toNat ((threadsOf (exOf x i cur)).map fun t => (t, x.live)))
    refine ⟨_, _, hx, hgrp, rfl, onlyDst_wroteWords hts cur rest, fun th hth hd => ?_, hwork, rfl, hfe, hbytes⟩
    obtain ⟨t, -, ht⟩ := List.mem_map.1 (mem_of_regOf_wroteWords hts cur rest hth hd)
    exact (congrArg Prod.snd ht).symm
  · obtain ⟨u, hact, hu⟩ := branchStep_does target (a := ⟨p, g, x, cur, rest, exOf x i cur⟩) (not_demoted_of_issues hi) s
    have hx := exec_branch p g target i s
    rw [issue_issues_noDst hi rfl, hact, Option.getD_some] at hx
    obtain ⟨hgrp, hwork, hregs, hfe, hbytes⟩ := setGroup_frame hu p g
      { x with paths := branchPaths target (exOf x i cur) cur rest }
    exact ⟨_, _, hx, hgrp, fun h => if_pos h, fun h => if_neg h, hwork, hregs, hfe, hbytes⟩

end Sys2Proof.Machine

/-!
PROOFS. The statement of 03_matrix_engines.md: the start, the finish and the residue mismatch of an operation. First what the end of a job
leaves of the engines, then what an operation counts, reads of local memory and writes to it, and what its finish makes of its engine;
then the statement.
-/
namespace Sys2Proof.Machine
open Sys2Proof.Claims

/-! ## The engines of a core, one by one -/

theorem tabFind_mapKeyed {α : Type} (f : Nat → α → α) (k : Nat) : ∀ t : Tab α,
    tabFind k (t.map fun e => (e.1, f e.1 e.2)) = (tabFind k t).map (f k)
  | [] => rfl
  | (k', v) :: t => by
    rw [List.map_cons, tabFind_cons, tabFind_cons, tabFind_mapKeyed f k t]
    split
    · next h => rw [h]; rfl
    · rfl

theorem meOf_setCore_ne {q p : Nat} (h : q ≠ p) (e : Nat) (v : Core) (s : State) : meOf q e (setCore p v s) = meOf q e s := by
  rw [meOf, coreOf_setCore_ne h]
  rfl

/-- A core whose engines are worked on each by itself, where an engine that holds nothing stays so. -/
theorem meOf_setCore_map {f : Nat → Me → Me} (hf : ∀ k, f k {} = {}) {p : Nat} {v : Core} {s : State}
    (hv : v.mes = (coreOf p s).mes.map fun m => (m.1, f m.1 m.2)) (q e : Nat) :
    meOf q e (setCore p v s) = if q = p then f e (meOf q e s) else meOf q e s := by
  split
  · next h =>
    subst h
    rw [meOf, coreOf_setCore_self, hv, tabGet, tabFind_mapKeyed, meOf, tabGet]
    cases tabFind e (coreOf q s).mes with
    | none => exact (hf e).symm
    | some m => rfl
  · next h => exact meOf_setCore_ne h e v s

theorem mes_setCore {p : Nat} {v : Core} {s : State} (hv : v.mes = (coreOf p s).mes) (q : Nat) :
    (coreOf q (setCore p v s)).mes = (coreOf q s).mes := by
  by_cases h : q = p
  · subst h
    rw [coreOf_setCore_self, hv]
  · rw [coreOf_setCore_ne h]

theorem meOf_of_mes {s t : State} {p : Nat} (h : (coreOf p t).mes = (coreOf p s).mes) (e : Nat) : meOf p e t = meOf p e s := by
  rw [meOf, meOf, h]

theorem meOf_of_cores {s t : State} (h : t.cpt.cores = s.cpt.cores) (p e : Nat) : meOf p e t = meOf p e s :=
  meOf_of_mes (by rw [coreOf_of_cores h]) e

/-! ## The end of a job keeps the operations that run (R76, R187) -/

/-- The registers of the pages after those of the cores. -/
def lateRegs (k : Nat) : Prop := rk pgFe 0 0 ≤ k

theorem lateRegs_rk {pg : Nat} (h : pgFe ≤ pg) (bank off : Nat) : lateRegs (rk pg bank off) := by
  simp only [lateRegs, rk, pgFe] at *
  omega

theorem lateRegs_of_irqRegs {pg : Nat} (h : pgFe ≤ pg) {k : Nat} (hk : irqRegs pg k) : lateRegs k := by
  simp only [lateRegs, irqRegs, rk, pgFe, pgPba] at *
  omega

theorem lateRegs_of_faultRegs {pg : Nat} (h : pgFe ≤ pg) {k : Nat} (hk : faultRegs pg k) : lateRegs k := by
  simp only [lateRegs, faultRegs, irqRegs, rk, pgFe, pgPba] at *
  omega

theorem Alters.ite {R : Nat → Prop} {s t u : State} (c : Prop) [Decidable c] (h : Alters R s t) (h' : Alters R s u) :
    Alters R s (if c then t else u) := by
  split
  · exact h
  · exact h'

/-- The sources of the HBM stacks stand in the stacks' pages. -/
theorem pgFe_le_srcHome {i : Nat} (h : 208 ≤ i) (h' : i < 220) : pgFe ≤ (srcHome i).1 := by
  interval_cases i <;> decide

theorem alters_logHbmError (a : Nat) (ue scrub : Bool) (s : State) : Alters lateRegs s (logHbmError a ue scrub s) := by
  have hn := stackOf_lt (a * 32) s
  have hpg : pgFe ≤ pgHbc (stackOf (a * 32) s) := by simp only [pgFe, pgHbc]; omega
  have hset {u v : State} (off : Nat) (w : Word) (h : Alters lateRegs u v) :
      Alters lateRegs u (setReg (pgHbc (stackOf (a * 32) s)) 0 off w v) :=
    h.trans (alters_setReg _ _ _ _ v (lateRegs_rk hpg 0 off))
  have hfault {u v : State} (h : Alters lateRegs u v) : Alters lateRegs u (fault (216 + stackOf (a * 32) s) v) :=
    h.trans (alters_fault _ v fun _ => lateRegs_of_faultRegs (pgFe_le_srcHome (by omega) (by omega)))
  have hirq {u v : State} (h : Alters lateRegs u v) : Alters lateRegs u (raiseIrq (pgHbc (stackOf (a * 32) s)) 0 v) :=
    h.trans (alters_raiseIrq _ 0 v fun _ => lateRegs_of_irqRegs hpg)
  unfold logHbmError
  simp only
  split
  · refine .ite _ ?_ (hfault ?_) <;>
    exact hset _ _ (.ite _ (hset _ _ (hset _ _ (.refl _ s))) (hset _ _ (.refl _ s)))
  · split
    · refine .ite _ (hfault (hirq ?_)) (hirq ?_) <;>
      exact hset _ _ (hset _ _ (hset _ _ (hset _ _ (hset _ _ (.refl _ s)))))
    · refine hfault (.ite _ (hirq ?_) ?_) <;>
      exact hset _ _ (hset _ _ (.refl _ s))

/-! What the steps to the end of a job leave alone but for the engines' queues. -/

/-- The registers of the later pages, and NTRAP_CTL (R86). -/
def endRegs (k : Nat) : Prop := lateRegs k ∨ k % 65536 = 0x410

/-- The cores hold their matrix engines as they were, and no register of their pages but NTRAP_CTL changed. -/
def EnginesKept (s t : State) : Prop := OtherRegs endRegs s t ∧ ∀ q, (coreOf q t).mes = (coreOf q s).mes

theorem EnginesKept.refl (s : State) : EnginesKept s s := ⟨.refl _ s, fun _ => rfl⟩

theorem EnginesKept.trans {s t u : State} (h : EnginesKept s t) (h' : EnginesKept t u) : EnginesKept s u := by
  obtain ⟨hr, hm⟩ := h
  obtain ⟨hr', hm'⟩ := h'
  exact ⟨hr.trans hr', fun q => (hm' q).trans (hm q)⟩

theorem EnginesKept.foldl {α : Type} {f : State → α → State} (h : ∀ s a, EnginesKept s (f s a)) :
    ∀ (l : List α) (s : State), EnginesKept s (l.foldl f s)
  | [], s => .refl s
  | a :: l, s => (h s a).trans (EnginesKept.foldl h l (f s a))

theorem enginesKept_of_eq {s t : State} (hr : t.regs = s.regs) (hc : t.cpt.cores = s.cpt.cores) : EnginesKept s t :=
  ⟨fun _ _ => by rw [hr], fun q => by rw [coreOf_of_cores hc]⟩

theorem Alters.enginesKept {s t : State} (h : Alters lateRegs s t) : EnginesKept s t :=
  ⟨(h.mono fun _ => .inl).1, fun q => by rw [coreOf_of_cores (congrArg Compute.cores h.cpt)]⟩

theorem enginesKept_setCore {p : Nat} {v : Core} {s : State} (hv : v.mes = (coreOf p s).mes) : EnginesKept s (setCore p v s) :=
  ⟨fun _ _ => rfl, mes_setCore hv⟩

theorem enginesKept_hbmUnitError (a : Nat) (ue scrub : Bool) (s : State) : EnginesKept s (hbmUnitError a ue scrub s) := by
  have hn := stackOf_lt (a * 32) s
  have hlog := (alters_logHbmError a ue scrub s).enginesKept
  have hevent {u : State} (i off : Nat) (h : 208 ≤ i) (h' : i < 220) (hu : EnginesKept s u) :
      EnginesKept s (fault i (count32 (pgHbc (stackOf (a * 32) s)) 0 off u)) :=
    hu.trans (Alters.enginesKept ((alters_count32 _ _ _ u (lateRegs_rk (by simp only [pgFe, pgHbc]; omega) 0 off)).trans
      (alters_fault i _ fun _ => lateRegs_of_faultRegs (pgFe_le_srcHome h h'))))
  unfold hbmUnitError
  simp only
  split
  · exact hevent _ _ (by omega) (by omega) hlog
  · exact hevent _ _ (by omega) (by omega) (hlog.trans (enginesKept_of_eq rfl rfl))

theorem enginesKept_settleFills (rs : List Nat) (s : State) : EnginesKept s (settleFills rs s) := by
  refine EnginesKept.foldl (fun s r => ?_) rs s
  unfold regionFilled
  simp only
  split_ifs
  · have hset (u : State) : EnginesKept u (setFld (pgHbc 0) 0 0x128 31 1 0 u) :=
      Alters.enginesKept (alters_setFld _ _ _ _ _ _ u (lateRegs_rk (pg := pgHbc 0) (by decide) 0 0x128))
    refine EnginesKept.trans ?_ (hset _)
    exact enginesKept_of_eq rfl rfl
  · exact enginesKept_of_eq rfl rfl
  · exact .refl s

theorem enginesKept_hbmMerge (a n : Nat) (s : State) : EnginesKept s (hbmMerge a n s) := by
  refine EnginesKept.foldl (fun u e => ?_) _ s
  exact enginesKept_hbmUnitError e.1 false false u

theorem enginesKept_touchRegion (s : State) (r : Nat) : EnginesKept s (touchRegion s r) := by
  unfold touchRegion
  split
  · exact .refl s
  · exact enginesKept_of_eq rfl rfl

theorem enginesKept_takeInjection {pg : Nat} (h : pgFe ≤ pg) (s : State) : EnginesKept s (takeInjection pg s).2 := by
  unfold takeInjection
  simp only
  split
  · exact Alters.enginesKept (alters_setReg _ _ _ _ s (lateRegs_rk h 0 0x028))
  · exact .refl s

theorem enginesKept_hbmPut (a : Nat) (bs : List Byte) (s : State) : EnginesKept s (hbmPut a bs s) := by
  cases bs with
  | nil => exact .refl s
  | cons b bs =>
    have hready : EnginesKept s (regionsReady a (b :: bs).length s) :=
      (enginesKept_settleFills _ s).trans (.foldl enginesKept_touchRegion _ _)
    have hmerge : EnginesKept s (hbmMerge a (b :: bs).length (regionsReady a (b :: bs).length s)) :=
      hready.trans (enginesKept_hbmMerge _ _ _)
    have hstored : EnginesKept s (hbmStored a (b :: bs) (hbmMerge a (b :: bs).length (regionsReady a (b :: bs).length s))) :=
      hmerge.trans (enginesKept_of_eq rfl rfl)
    have hpg (n : Nat) : pgFe ≤ pgHbc n := by simp only [pgFe, pgHbc]; omega
    have hinj := hstored.trans (enginesKept_takeInjection (hpg (stackOf a (hbmStored a (b :: bs)
      (hbmMerge a (b :: bs).length (regionsReady a (b :: bs).length s))))) _)
    unfold hbmStored regionsReady at hinj
    unfold hbmPut
    simp only
    split
    · next h =>
      rw [h] at hinj
      exact hinj.trans (enginesKept_of_eq rfl rfl)
    · next h =>
      rw [h] at hinj
      exact hinj

theorem enginesKept_wbFlushAll (s : State) (p : Nat) : EnginesKept s (wbFlushAll p s) := by
  have hdest (u : State) (e : WbEnt) (r : Nat × List Byte) : EnginesKept u (destPut e.host (e.pa + r.1) r.2 u) := by
    unfold destPut
    split
    · exact enginesKept_of_eq rfl rfl
    · exact enginesKept_hbmPut _ _ u
  unfold wbFlushAll wbFlush
  simp only
  split
  · refine EnginesKept.trans ?_ (.foldl (fun u e => .foldl (fun v r => hdest v e r) (byteRuns e.bytes) u) _ _)
    exact enginesKept_setCore rfl
  · exact .refl s

theorem enginesKept_kernelFlush (j : Nat) (s : State) : EnginesKept s (kernelFlush j s) := .foldl enginesKept_wbFlushAll _ s

theorem enginesKept_atsSettle (s : State) : EnginesKept s (atsSettle s) := by
  refine .foldl (fun u i => ?_) _ s
  have h : Alters lateRegs { u with mmu := { u.mmu with atsInv := u.mmu.atsInv.erase i } } _ :=
    alters_count32 _ _ _ _ (lateRegs_rk (pg := pgMmu) (by decide) 0 0x154)
  exact (enginesKept_of_eq rfl rfl).trans (h.enginesKept.trans (enginesKept_of_eq rfl rfl))

theorem enginesKept_passUnreserve (j : Nat) (ps : List Nat) (s : State) : EnginesKept s (passUnreserve j ps s) := by
  unfold passUnreserve
  split
  · exact .refl s
  · refine EnginesKept.trans (.foldl (fun u p => ?_) _ s) (enginesKept_of_eq rfl rfl)
    exact enginesKept_setCore rfl

theorem enginesKept_coreForget (j : Nat) (s : State) (p : Nat) : EnginesKept s (coreForget j s p) := by
  unfold coreForget
  simp only
  split
  · have hreg : endRegs (rk (pgSc p) 0 0x410) := .inr (by simp only [rk]; omega)
    refine EnginesKept.trans ?_ ⟨otherRegs_setFld hreg _ _ _ _, fun _ => rfl⟩
    exact enginesKept_setCore rfl
  · exact .refl s

theorem enginesKept_endJob (j status reason detail : Nat) (s : State) : EnginesKept s (endJob j status reason detail s) := by
  unfold endJob
  split
  · split
    · exact .refl s
    · exact enginesKept_of_eq rfl rfl
  · exact .refl s

theorem enginesKept_blockGone (s : State) (e : Nat × Block) :
    EnginesKept s (if blockHasOps e.1 s then setBlock e.1 { e.2 with exited := true } s else freeBlock e.1 s) := by
  split <;> exact enginesKept_of_eq rfl rfl

/-! The operations that run. -/

/-- An operation that has started runs on, and no register of a core's page but NTRAP_CTL changed. -/
def RunKept (p e : Nat) (op : MeOp) (s t : State) : Prop :=
  OtherRegs endRegs s t ∧ ((meOf p e s).run = some op → (meOf p e t).run = some op)

theorem RunKept.trans {p e : Nat} {op : MeOp} {s t u : State} (h : RunKept p e op s t) (h' : RunKept p e op t u) : RunKept p e op s u :=
  ⟨h.1.trans h'.1, fun hs => h'.2 (h.2 hs)⟩

theorem EnginesKept.runKept {s t : State} (h : EnginesKept s t) (p e : Nat) (op : MeOp) : RunKept p e op s t :=
  ⟨h.1, fun hs => by rw [meOf_of_mes (h.2 p), hs]⟩

theorem meKeep_empty (f : MeOp → Bool) : meKeep f {} = {} := rfl

theorem run_meKeep {f : MeOp → Bool} {m : Me} {op : MeOp} (hm : m.run = some op) (hf : f op = true) : (meKeep f m).run = some op := by
  simp [meKeep, hm, Option.filter, hf]

/-- A core without the groups of a job, its pixel work and those of its operations that have not started. -/
def coreStopped (j : Nat) (s : State) (p : Nat) : State :=
  setCore p { coreOf p s with
    groups := (coreOf p s).groups.filter (fun g => g.2.job != j),
    tiles := (coreOf p s).tiles.filter (fun w => w.job != j),
    mes := (coreOf p s).mes.map (fun m => (m.1, meKeep (fun o => o.job != j || o.started) m.2)) } s

theorem runKept_coreStopped {op : MeOp} (h : op.started = true) (p e j : Nat) (s : State) (q : Nat) :
    RunKept p e op s (coreStopped j s q) := by
  refine ⟨fun _ _ => rfl, fun hs => ?_⟩
  rw [coreStopped, meOf_setCore_map (f := fun _ => meKeep fun o => o.job != j || o.started) (fun _ => meKeep_empty _) rfl]
  split
  · exact run_meKeep hs (by simp [h])
  · exact hs

theorem EnginesKept.after {p e : Nat} {op : MeOp} {s t u : State} (h' : EnginesKept t u) (h : RunKept p e op s t) : RunKept p e op s u :=
  h.trans (h'.runKept p e op)

theorem runKept_coresStopped {op : MeOp} (hst : op.started = true) {p e : Nat} {s : State} (j : Nat) :
    ∀ (l : List Nat) {t : State}, RunKept p e op s t → RunKept p e op s (l.foldl (coreStopped j) t)
  | [], _, h => h
  | q :: l, t, h => runKept_coresStopped hst j l (h.trans (runKept_coreStopped hst p e j t q))

theorem runKept_stopWork {op : MeOp} (h : op.started = true) (p e j : Nat) (s : State) : RunKept p e op s (stopWork j s) := by
  have hread (u : State) (r : Pci) : EnginesKept u { u with pci := r } := enginesKept_of_eq rfl rfl
  have hdone (u : State) (x : List Saved) (y : Tlr) :
      EnginesKept u { u with cpt := { u.cpt with saved := x }, tlr := y } := enginesKept_of_eq rfl rfl
  unfold stopWork
  simp only
  refine (hdone _ _ _).after ((enginesKept_passUnreserve _ _ _).after ((EnginesKept.foldl enginesKept_blockGone _ _).after
    (runKept_coresStopped h j _ ((enginesKept_atsSettle _).after ((hread _ _).after
      ((enginesKept_kernelFlush j s).runKept p e op))))))

theorem runKept_endCompute {op : MeOp} (h : op.started = true) (p e j status reason detail : Nat) (s : State) :
    RunKept p e op s (endCompute j status reason detail s) := by
  unfold endCompute
  split
  · exact (EnginesKept.refl s).runKept p e op
  · exact (runKept_stopWork h p e j s).trans (((EnginesKept.foldl (enginesKept_coreForget j) _ _).trans
      (enginesKept_endJob j status reason detail _)).runKept p e op)


/-! ## The end of a job at a check of an engine (R76, R84) -/

theorem jobEnded_of_fe {s t : State} (h : t.fe = s.fe) (j : Nat) : jobEnded j t = jobEnded j s := by rw [jobEnded, jobEnded, h]

theorem lcore_of_otherRegs {R : Nat → Prop} {s t : State} (h : OtherRegs R s t) (hR : ∀ off, off < 65536 → ¬ R (rk pgCap 0 off))
    (p : Nat) : lcore p t = lcore p s := by
  rw [lcore, lcore, logicalOf, logicalOf]
  refine congrArg (Option.getD · 0x3F) (List.find?_congr fun l hl => ?_)
  have := List.mem_range.1 hl
  rw [physOf, physOf, getFld, getFld, h.getReg (hR _ (by omega))]

theorem viewEvent_fe (fn k slot q seq : Nat) (s : State) : (viewEvent fn k slot q seq s).fe = s.fe := by
  unfold viewEvent sendMsix
  simp only
  split_ifs <;> rfl

theorem enginesKept_viewEvent (fn k slot q seq : Nat) (s : State) : EnginesKept s (viewEvent fn k slot q seq s) := by
  have hset {u : State} (off : Nat) (w : Word) (h : Alters lateRegs s u) : Alters lateRegs s (setReg pgFv fn off w u) :=
    h.trans (alters_setReg _ _ _ _ u (lateRegs_rk (pg := pgFv) (by decide) fn off))
  have hsend {u : State} (vec : Nat) (h : Alters lateRegs s u) : Alters lateRegs s (sendMsix fn vec u) := by
    unfold sendMsix
    split_ifs
    · exact h
    · exact h.trans (alters_setReg _ _ _ _ u (lateRegs_rk (pg := pgPba) (by decide) fn _))
    · exact h.trans ⟨fun _ _ => rfl, rfl⟩
  have hcount {u : State} (off : Nat) (h : Alters lateRegs s u) : Alters lateRegs s (count32 pgFv fn off u) := hset off _ h
  apply Alters.enginesKept
  unfold viewEvent
  simp only
  have hview := hcount (0x108 + 4 * k) (hset 0x100 (getReg pgFv fn 0x100 s ||| oneBit k) (.refl _ s))
  split_ifs
  · exact hsend _ hview
  · exact hview
  · exact hsend _ (hset _ _ (hset _ _ hview))
  · exact hset _ _ (hset _ _ hview)

/-- A job that runs ends through a device source; an operation that has started runs on. -/
theorem faultDevice_does {j : Nat} {s : State} (hj : jobEnded j s = false) (reason detail : Nat) {op : MeOp} (h : op.started = true)
    (p e : Nat) : JobFault j reason detail (faultDevice j reason detail s) ∧ RunKept p e op s (faultDevice j reason detail s) := by
  unfold faultDevice
  simp only [hj, Bool.false_eq_true, if_false]
  exact ⟨jobFault_endCompute ((jobEnded_of_fe (viewEvent_fe _ _ _ _ _ s) j).trans hj) reason detail,
    ((enginesKept_viewEvent _ _ _ _ _ s).runKept p e op).trans (runKept_endCompute h p e j 1 reason detail _)⟩

theorem residue_running {p e : Nat} {op : MeOp} {s : State} (hr : (meOf p e s).run = some op) (hs : op.started = true)
    (hn : op.stopped = false) : residue p e s = faultDevice op.job 0x0014 (lcore p s)
      (fault p (setMe p e { meOf p e s with run := some { op with stopped := true } } s)) := by
  simp only [residue, hr, hs, hn, Bool.not_true, Bool.or_self, Bool.false_eq_true, if_false]
  rfl

theorem srcHome_core {p : Nat} (h : p < 80) : srcHome p = (pgSc p, 0) := by rw [srcHome, if_pos h]

/-- A residue mismatch stops the output of the operation, records its source and ends the job (R84). -/
theorem residue_does {p e : Nat} (hp : p < 80) {op : MeOp} {s : State} (hr : (meOf p e s).run = some op) (hs : op.started = true)
    (hn : op.stopped = false) (hj : jobEnded op.job s = false) :
    (meOf p e (residue p e s)).run = some { op with stopped := true } ∧
    bit (getReg (srcHome p).1 0 0x020 (residue p e s)) (srcHome p).2 = true ∧
    JobFault op.job 0x14 (lcore p s) (residue p e s) := by
  have hev : Alters (faultRegs (srcHome p).1) (setMe p e { meOf p e s with run := some { op with stopped := true } } s) (fault p _) :=
    alters_fault p _ fun _ h => h
  rw [residue_running hr hs hn]
  generalize hs1 : setMe p e { meOf p e s with run := some { op with stopped := true } } s = s1 at *
  have hsticky : bit (getReg (pgSc p) 0 0x020 (fault p s1)) 0 = true := by
    rw [fault, srcHome_core hp]
    exact bit_sticky_faultAt p (by simp only [pgSc, pgPba]; omega) (by omega) s1
  have hj1 : jobEnded op.job (fault p s1) = false := (jobEnded_of_fe (hev.fe.trans (by rw [← hs1, setMe_fe])) _).trans hj
  obtain ⟨hfault, hregs, hrun⟩ := faultDevice_does hj1 0x0014 (lcore p s) (op := { op with stopped := true }) hs p e
  refine ⟨hrun ?_, ?_, hfault⟩
  · rw [meOf_of_cores (congrArg Compute.cores hev.cpt), ← hs1, meOf_setMe_self]
  · rw [srcHome_core hp, hregs.getReg ?_]
    · exact hsticky
    · simp only [endRegs, lateRegs, rk, pgSc, pgFe]
      omega

/-! ## What an operation's start and end count (R69, R80, R86, R88) -/

/-- The offsets of the registers of a core's page that the end of an operation may change. -/
def meEndOffs : List Nat := [0x404, 0x410, 0x414, 0x418, 0x41C, 0x424, 0x428, 0x42C]

/-- The registers of a core that the end of an operation may change. -/
def meEndRegs (p k : Nat) : Prop := ∃ o ∈ meEndOffs, k = rk (pgSc p) 0 o

/-- What the end of an operation leaves alone: everything but the engines, the accounts of the core and the job, those registers, the
free values and local memory. -/
structure WorkKept (p : Nat) (s t : State) : Prop where
  regs : OtherRegs (meEndRegs p) s t
  mem : t.mem = { s.mem with lm := t.mem.lm }
  hbc : t.hbc = s.hbc
  aon : t.aon = s.aon
  noErr : s.cpt.lmErr = [] → t.cpt.lmErr = []
  blocks : t.cpt.blocks = s.cpt.blocks
  kernels : t.cpt.kernels = s.cpt.kernels
  groups : ∀ q, (coreOf q t).groups = (coreOf q s).groups
  ended : ∀ j, jobEnded j t = jobEnded j s

theorem WorkKept.refl (p : Nat) (s : State) : WorkKept p s s :=
  ⟨.refl _ s, rfl, rfl, rfl, id, rfl, rfl, fun _ => rfl, fun _ => rfl⟩

theorem WorkKept.trans {p : Nat} {s t u : State} (h : WorkKept p s t) (h' : WorkKept p t u) : WorkKept p s u where
  regs := h.regs.trans h'.regs
  mem := by rw [h'.mem, h.mem]
  hbc := h'.hbc.trans h.hbc
  aon := h'.aon.trans h.aon
  noErr hs := h'.noErr (h.noErr hs)
  blocks := h'.blocks.trans h.blocks
  kernels := h'.kernels.trans h.kernels
  groups q := (h'.groups q).trans (h.groups q)
  ended j := (h'.ended j).trans (h.ended j)

theorem groups_setCore {p : Nat} {v : Core} {s : State} (hv : v.groups = (coreOf p s).groups) (q : Nat) :
    (coreOf q (setCore p v s)).groups = (coreOf q s).groups := by
  by_cases h : q = p
  · subst h
    rw [coreOf_setCore_self, hv]
  · rw [coreOf_setCore_ne h]

theorem workKept_setCore {p q : Nat} {v : Core} {s : State} (hv : v.groups = (coreOf q s).groups) : WorkKept p s (setCore q v s) :=
  ⟨.refl _ s, rfl, rfl, rfl, id, rfl, rfl, groups_setCore hv, fun _ => rfl⟩

theorem workKept_setMe (p q e : Nat) (v : Me) (s : State) : WorkKept p s (setMe q e v s) := workKept_setCore rfl

theorem workKept_mePop (p e : Nat) (s : State) : WorkKept p s (mePop p e s) := workKept_setMe p p e _ s

/-- Writes of local memory: beside that, the engines stay. -/
structure LmOnly (p : Nat) (s t : State) : Prop extends WorkKept p s t where
  mes : ∀ q, (coreOf q t).mes = (coreOf q s).mes

theorem LmOnly.refl (p : Nat) (s : State) : LmOnly p s s := ⟨.refl p s, fun _ => rfl⟩

theorem LmOnly.trans {p : Nat} {s t u : State} (h : LmOnly p s t) (h' : LmOnly p t u) : LmOnly p s u :=
  ⟨h.toWorkKept.trans h'.toWorkKept, fun q => (h'.mes q).trans (h.mes q)⟩

theorem LmOnly.me {p : Nat} {s t : State} (h : LmOnly p s t) (q e : Nat) : meOf q e t = meOf q e s := meOf_of_mes (h.mes q) e

/-- Counts: beside that, local memory stays. -/
structure Tallied (p : Nat) (s t : State) : Prop extends LmOnly p s t where
  lm : t.mem.lm = s.mem.lm

theorem Tallied.refl (p : Nat) (s : State) : Tallied p s s := ⟨.refl p s, rfl⟩

theorem Tallied.trans {p : Nat} {s t u : State} (h : Tallied p s t) (h' : Tallied p t u) : Tallied p s u :=
  ⟨h.toLmOnly.trans h'.toLmOnly, h'.lm.trans h.lm⟩

theorem tallied_setCore {p q : Nat} {v : Core} {s : State} (hg : v.groups = (coreOf q s).groups) (hm : v.mes = (coreOf q s).mes) :
    Tallied p s (setCore q v s) := ⟨⟨workKept_setCore hg, mes_setCore hm⟩, rfl⟩

theorem tallied_setReg {p off : Nat} (h : off ∈ meEndOffs) (v : Word) (s : State) : Tallied p s (setReg (pgSc p) 0 off v s) :=
  ⟨⟨⟨otherRegs_setReg ⟨off, h, rfl⟩ v s, rfl, rfl, rfl, id, rfl, rfl, fun _ => rfl, fun _ => rfl⟩, fun _ => rfl⟩, rfl⟩

theorem jobEnded_setJob {i : Nat} {b v : Job} {s : State} (hb : tabFind i s.fe.jobs = some b) (hv : v.fin = b.fin) (j : Nat) :
    jobEnded j (setJob i v s) = jobEnded j s := by
  unfold jobEnded
  rw [show (setJob i v s).fe.jobs = tabSet i v s.fe.jobs from rfl]
  by_cases h : j = i
  · subst h
    rw [tabFind_set_self, hb]
    simp only [hv]
  · rw [tabFind_set_ne h]

theorem tallied_setJob {p i : Nat} {b v : Job} {s : State} (hb : tabFind i s.fe.jobs = some b) (hv : v.fin = b.fin) :
    Tallied p s (setJob i v s) :=
  ⟨⟨⟨.refl _ s, rfl, rfl, rfl, id, rfl, rfl, fun _ => rfl, jobEnded_setJob hb hv⟩, fun _ => rfl⟩, rfl⟩

theorem tallied_free (p k : Nat) (s : State) : Tallied p s { s with free := k } :=
  ⟨⟨⟨.refl _ s, rfl, rfl, rfl, id, rfl, rfl, fun _ => rfl, fun _ => rfl⟩, fun _ => rfl⟩, rfl⟩

theorem tallied_countAct (p q : Nat) (k : EnergyKind) (j n : Nat) (s : State) : Tallied p s (countAct q k j n s) := by
  unfold countAct
  simp only
  split_ifs
  · exact .refl p s
  · exact tallied_setCore rfl rfl
  · exact tallied_setCore rfl rfl

theorem tallied_meCycles (p j cycles : Nat) (wide : Bool) (s : State) : Tallied p s (meCycles p j cycles wide s) := by
  have hcore {u : State} {v : Core} (off : Nat) (w : Word) (h : off ∈ meEndOffs) (hg : v.groups = (coreOf p u).groups)
      (hm : v.mes = (coreOf p u).mes) (hu : Tallied p s u) : Tallied p s (setReg (pgSc p) 0 off w (setCore p v u)) :=
    hu.trans ((tallied_setCore hg hm).trans (tallied_setReg h w _))
  have hcount (k : EnergyKind) := tallied_countAct p p k j cycles s
  unfold meCycles
  simp only
  split
  · next hb =>
    refine Tallied.trans ?_ (tallied_setJob hb rfl)
    split <;> exact hcore _ _ (by decide) rfl rfl (hcount _)
  · split <;> exact hcore _ _ (by decide) rfl rfl (hcount _)

theorem tallied_meWaits (p : Nat) (op : MeOp) (cycles : Nat) (s : State) : Tallied p s (meWaits op cycles s).2 := by
  unfold meWaits
  simp only
  split_ifs
  · exact .refl p s
  · exact .refl p s
  · exact tallied_free p _ s

theorem tallied_addFlags (p j fl : Nat) (s : State) : Tallied p s (addFlags j fl s) := by
  unfold addFlags
  split
  · next hb => exact tallied_setJob hb rfl
  · exact .refl p s

theorem tallied_ntrapCapture (p e : Nat) (op : MeOp) (es : List Elem) (s : State) : Tallied p s (ntrapCapture p e op es s) := by
  have hreg {u v : State} (off : Nat) (w : Word) (h : off ∈ meEndOffs)
      (hu : Tallied p u v) : Tallied p u (setReg (pgSc p) 0 off w v) := hu.trans (tallied_setReg h w v)
  unfold ntrapCapture
  split
  · exact .refl p s
  · simp only
    split
    · exact .refl p s
    · split
      · exact tallied_setCore rfl rfl
      · refine hreg _ _ (by decide) (hreg _ _ (by decide) (hreg _ _ (by decide) (hreg _ _ (by decide) ?_)))
        exact tallied_setCore rfl rfl

/-! ## The start of an operation (R63, R64, R76) -/

theorem meAlike_refl (m : Me) : MeAlike m m := ⟨rfl, rfl, rfl, rfl, rfl⟩

/-- A change of an operation's notes does not show. -/
theorem map_opPlain {f : MeOp → MeOp} (hf : ∀ o, opPlain (f o) = opPlain o) (o : Option MeOp) :
    (o.map f).map opPlain = o.map opPlain := by
  cases o with
  | none => rfl
  | some o => exact congrArg some (hf o)

/-- What a running operation notes of the streams that are active with it. -/
def streamsNoted (n : Nat) (past : Bool) (o : MeOp) : MeOp :=
  if o.started then { o with streams := max o.streams n, beyond := o.beyond || past } else o

theorem opPlain_streamsNoted (n : Nat) (past : Bool) (o : MeOp) : opPlain (streamsNoted n past o) = opPlain o := by
  unfold streamsNoted
  split <;> rfl

theorem meAlike_noteStreams (p q e : Nat) (s : State) : MeAlike (meOf q e (noteStreams p s)) (meOf q e s) := by
  obtain ⟨n, past, hv⟩ : ∃ n past, noteStreams p s = setCore p { coreOf p s with
      mes := (coreOf p s).mes.map fun m => (m.1, { m.2 with run := m.2.run.map (streamsNoted n past) }) } s := ⟨_, _, rfl⟩
  rw [hv, meOf_setCore_map (f := fun _ m => { m with run := m.run.map (streamsNoted n past) }) (fun _ => rfl) rfl]
  split
  · exact ⟨rfl, rfl, rfl, map_opPlain (opPlain_streamsNoted n past) _, rfl⟩
  · exact meAlike_refl _

/-- An operation that starts: it holds its descriptors, and says which of its panels are read for it. -/
def begunOp (op : MeOp) (payA payB : Bool) (s : State) : MeOp :=
  { op with
    started := true, desc := lmWords op.block op.addr 16 s,
    sdA := lmWords op.block (df (lmWords op.block op.addr 16 s) 2 0 19) 16 s,
    sdB := lmWords op.block (df (lmWords op.block op.addr 16 s) 3 0 19) 16 s, payA := payA, payB := payB }

theorem meBegin_does {p e : Nat} {op : MeOp} {s t : State} (ht : t = meBegin p e op (lmWords op.block op.addr 16 s) s) :
    (∃ a b, MeAlike (meOf p e t) { meOf p e s with run := some (begunOp op a b s) }) ∧
    (∀ q f, ¬ (q = p ∧ f = e) → MeAlike (meOf q f t) (meOf q f s)) ∧ t.regs = s.regs ∧ t.fe = s.fe ∧
    SameBytes s (tidyMem t) := by
  obtain ⟨a, b, c, v, hc, hv, heq⟩ : ∃ a b c v, c.mes = (coreOf p s).mes ∧
      v = { meOf p e (setCore p c s) with run := some (begunOp op a b s) } ∧
      t = noteStreams p (setMe p e v (setCore p c s)) :=
    ⟨_, _, _, _, rfl, rfl, ht⟩
  have hme (q f : Nat) : meOf q f (setCore p c s) = meOf q f s := meOf_of_mes (mes_setCore hc q) f
  have hnote (q f : Nat) := meAlike_noteStreams p q f (setMe p e v (setCore p c s))
  rw [heq]
  refine ⟨⟨a, b, ?_⟩, fun q f h => ?_, rfl, rfl, sameBytes_tidyMem_of_eq rfl rfl rfl⟩
  · have hself := hnote p e
    rw [meOf_setMe_self, hv, hme] at hself
    rw [hv, hme]
    exact hself
  · have hother := hnote q f
    rw [meOf_setMe_ne h, hme] at hother
    exact hother

/-- The operation in front of an active engine is checked, and starts or is rejected. -/
theorem meOpStart_checked {p e n : Nat} {op : MeOp} {b : Block} {s : State} (hr : (meOf p e s).run = some op)
    (hs : op.started = false) (ha : (meOf p e s).active = true) (hu : coreUp p s = true) (hb : blockOf op.block s = some b)
    (hst : b.stopping = false)
    (hn : meCheck op b.size (meTile (meOf p e s) op.job (df (lmWords op.block op.addr 16 s) 0 11 1)).int s = n) :
    meOpStart p e s = if n = 0 then meBegin p e op (lmWords op.block op.addr 16 s) s else meReject p e op n s := by
  simp only [meOpStart, hr, hs, ha, hu, hb, hst, hn, Bool.not_true, Bool.or_self, Bool.false_eq_true, if_false]
  cases n <;> rfl

/-- The registers of a core's page. -/
def corePageRegs (p k : Nat) : Prop := ∃ off < 65536, k = rk (pgSc p) 0 off

theorem corePageRegs_of_meEndRegs {p k : Nat} (h : meEndRegs p k) : corePageRegs p k := by
  obtain ⟨o, ho, rfl⟩ := h
  have hlt : ∀ o ∈ meEndOffs, o < 65536 := by decide
  exact ⟨o, hlt o ho, rfl⟩

theorem lcore_of_corePageRegs {p q : Nat} {s t : State} (h : OtherRegs (corePageRegs q) s t) : lcore p t = lcore p s := by
  refine lcore_of_otherRegs h (fun off hoff => ?_) p
  rintro ⟨o, ho, hk⟩
  simp only [rk, pgSc, pgCap] at hk
  omega

/-- The first rejection of a core in ME_ERR. -/
def rejectNoted (p e : Nat) (op : MeOp) (n : Nat) (s : State) : State :=
  if bit (getReg (pgSc p) 0 0x408 s) 31 then s
  else setReg (pgSc p) 0 0x40C (w32 (op.addr % 2 ^ 19)) (setReg (pgSc p) 0 0x408 (w32 (n + e * 2 ^ 16 + 2 ^ 31)) s)

theorem rejectNoted_does (p e : Nat) (op : MeOp) (n : Nat) (s : State) :
    OtherRegs (corePageRegs p) s (rejectNoted p e op n s) ∧ (rejectNoted p e op n s).fe = s.fe ∧
    (bit (getReg (pgSc p) 0 0x408 s) 31 = false →
      getReg (pgSc p) 0 0x408 (rejectNoted p e op n s) = w32 (n + e * 2 ^ 16 + 2 ^ 31)) := by
  have hset (off : Nat) (h : off < 65536) (w : Word) (u : State) : OtherRegs (corePageRegs p) u (setReg (pgSc p) 0 off w u) :=
    otherRegs_setReg ⟨off, h, rfl⟩ w u
  unfold rejectNoted
  split
  · next h => exact ⟨.refl _ s, rfl, fun h' => absurd h (by simp [h'])⟩
  · refine ⟨(hset _ (by omega) _ _).trans (hset _ (by omega) _ _), rfl, fun _ => ?_⟩
    rw [getReg_setReg_ne (by simp only [rk]; omega), getReg_setReg_self]

/-- A rejected operation: the first rejection of the core stands in ME_ERR, and the job ends with ME_DESC (R76). -/
theorem meReject_does {p : Nat} (hp : p < 80) {op : MeOp} {s : State} (hj : jobEnded op.job s = false) (e n : Nat) :
    JobFault op.job 0x13 (lcore p s) (meReject p e op n s) ∧
    (bit (getReg (pgSc p) 0 0x408 s) 31 = false →
      getReg (pgSc p) 0 0x408 (meReject p e op n s) = w32 (n + e * 2 ^ 16 + 2 ^ 31)) := by
  obtain ⟨hnote, hfe, herr⟩ := rejectNoted_does p e op n s
  obtain ⟨wide, hreject⟩ : ∃ wide, meReject p e op n s = endCompute op.job 1 0x13
      (lcore p (mePop p e (meCycles p op.job 24 wide (rejectNoted p e op n s))))
      (mePop p e (meCycles p op.job 24 wide (rejectNoted p e op n s))) := ⟨_, rfl⟩
  have hkept := (tallied_meCycles p op.job 24 wide (rejectNoted p e op n s)).toWorkKept.trans (workKept_mePop p e _)
  have hlcore := lcore_of_corePageRegs (p := p) (hnote.trans (hkept.regs.mono fun _ => corePageRegs_of_meEndRegs))
  obtain ⟨hend, -⟩ := runKept_endCompute (op := { op with started := true }) rfl p e op.job 1 0x13 (lcore p s)
    (mePop p e (meCycles p op.job 24 wide (rejectNoted p e op n s)))
  rw [hreject, hlcore]
  refine ⟨jobFault_endCompute ((hkept.ended _).trans ((jobEnded_of_fe hfe _).trans hj)) _ _, fun h => ?_⟩
  rw [hend.getReg ?_, hkept.regs.getReg ?_, herr h]
  · simp [meEndRegs, meEndOffs]
  · simp only [endRegs, lateRegs, rk, pgSc, pgFe]
    omega

/-! ## What an operation reads of local memory (R63, R66, R70, R75, R78) -/

section
variable {s t : State} (h : t.mem.lm = s.mem.lm)
include h

theorem lmBytes_of_lm (b off n : Nat) : lmBytes b off n t = lmBytes b off n s := by rw [lmBytes, lmBytes, h]

theorem lmWords_of_lm (b off n : Nat) : lmWords b off n t = lmWords b off n s := by rw [lmWords, lmWords, lmBytes_of_lm h]

theorem termBits_of_lm (b : Nat) (d : List Word) (valid k i : Nat) : termBits b d valid k i t = termBits b d valid k i s := by
  simp only [termBits, elemBits, lmBytes_of_lm h]

theorem startElem_of_lm (b : Nat) (d : List Word) (x : Tile) (i j : Nat) : startElem b d x i j t = startElem b d x i j s := by
  simp only [startElem, lmBytes_of_lm h]

theorem dotElem_of_lm (b : Nat) (d sa sb : List Word) (start : Elem) (as bs : List Nat) (i j : Nat) :
    dotElem b d sa sb start as bs i j t = dotElem b d sa sb start as bs i j s := by
  simp only [dotElem, scaleBits, lmBytes_of_lm h]

theorem meElems_of_lm (op : MeOp) (x : Tile) : meElems op x t = meElems op x s := by
  simp only [meElems, termBits_of_lm h, startElem_of_lm h, dotElem_of_lm h]

theorem postElem_of_lm (b : Nat) (d : List Word) (j : Nat) (e : Elem) : postElem b d j e t = postElem b d j e s := by
  simp only [postElem, lmWords_of_lm h]

theorem opSeen_of_lm (o : MeOp) : opSeen o t = opSeen o s := by simp only [opSeen, lmWords_of_lm h]

end

theorem Tallied.opElems {p : Nat} {s t : State} (h : Tallied p s t) (q e : Nat) (op : MeOp) :
    opElems q e op t = opElems q e op s := by
  show meElems op (meTile (meOf q e t) op.job (df op.desc 0 11 1)) t = _
  rw [h.me, meElems_of_lm h.lm]

theorem Tallied.blockPeers {p : Nat} {s t : State} (h : Tallied p s t) (q e : Nat) (op : MeOp) :
    blockPeers q e op t = blockPeers q e op s := by
  simp only [Machine.blockPeers, h.mes, opSeen_of_lm h.lm]

theorem Tallied.clashIn {p : Nat} {s t : State} (h : Tallied p s t) (q e : Nat) (op : MeOp) :
    clashIn q e op t = clashIn q e op s := by rw [Machine.clashIn, Machine.clashIn, h.blockPeers]

theorem Tallied.clashOut {p : Nat} {s t : State} (h : Tallied p s t) (q e : Nat) (op : MeOp) :
    clashOut q e op t = clashOut q e op s := by rw [Machine.clashOut, Machine.clashOut, h.blockPeers]

theorem length_meElems (op : MeOp) (x : Tile) (s : State) : (meElems op x s).length = 256 := by
  simp only [meElems, List.length_map, List.length_range]

/-! ## What an operation writes to local memory (R63, R66, R77) -/

theorem memRead_congr {d : Nat → Byte} {m m' : Tab Byte} : ∀ {n a : Nat}, (∀ i < n, memByte d m' (a + i) = memByte d m (a + i)) →
    memRead d m' a n = memRead d m a n
  | 0, _, _ => rfl
  | n + 1, a, h => by
    have h0 : memByte d m' a = memByte d m a := h 0 (by omega)
    rw [memRead, memRead, h0, memRead_congr fun i hi => ?_]
    rw [Nat.add_assoc, Nat.add_comm 1 i]
    exact h (i + 1) (by omega)

theorem length_toLE : ∀ n v : Nat, (toLE n v).length = n
  | 0, _ => rfl
  | n + 1, v => by rw [toLE, List.length_cons, length_toLE]

/-- Rows of bytes written to memory one after the other. -/
def rowsWritten (key : Nat → Nat) (row : Nat → List Byte) (m : Nat) (lm : Tab Byte) : Tab Byte :=
  (List.range m).foldl (fun l i => memWrite zeroByte (key i) (row i) l) lm

theorem rowsWritten_succ (key : Nat → Nat) (row : Nat → List Byte) (m : Nat) (lm : Tab Byte) :
    rowsWritten key row (m + 1) lm = memWrite zeroByte (key m) (row m) (rowsWritten key row m lm) := by
  rw [rowsWritten, List.range_succ, List.foldl_append]
  rfl

theorem memByte_rowsWritten_out {key : Nat → Nat} {row : Nat → List Byte} {lm : Tab Byte} {a : Nat} :
    ∀ {m : Nat}, (∀ i < m, ¬ (key i ≤ a ∧ a < key i + (row i).length)) →
      memByte zeroByte (rowsWritten key row m lm) a = memByte zeroByte lm a
  | 0, _ => rfl
  | m + 1, h => by
    have hm := h m (by omega)
    rw [rowsWritten_succ, memByte_write_out _ _ _ _ _ (by omega), memByte_rowsWritten_out fun i hi => h i (by omega)]

/-- Rows that do not overlap read back. -/
theorem memRead_rowsWritten {key : Nat → Nat} {base stride n : Nat} {row : Nat → List Byte} (hkey : ∀ i, key i = base + i * stride)
    (hn : n ≤ stride) (hrow : ∀ i, (row i).length = n) {lm : Tab Byte} {i : Nat} : ∀ {m : Nat}, i < m →
      memRead zeroByte (rowsWritten key row m lm) (key i) n = row i
  | m + 1, h => by
    rw [rowsWritten_succ]
    by_cases him : i = m
    · subst him
      rw [← hrow i]
      exact memRead_write _ _ _ _
    · have hlt : i * stride + stride ≤ m * stride := by
        rw [← Nat.succ_mul]
        exact Nat.mul_le_mul_right _ (by omega)
      rw [← memRead_rowsWritten hkey hn hrow (lm := lm) (i := i) (m := m) (by omega)]
      refine memRead_congr fun k hk => memByte_write_out _ _ _ _ _ (.inl ?_)
      rw [hkey, hkey]
      omega

theorem lmOnly_lm (p : Nat) (lm : Tab Byte) (errs : Tab Bool) (s : State) (h : s.cpt.lmErr = [] → errs = []) :
    LmOnly p s { s with mem := { s.mem with lm := lm }, cpt := { s.cpt with lmErr := errs } } :=
  ⟨⟨fun _ _ => rfl, rfl, rfl, rfl, h, rfl, rfl, fun _ => rfl, fun _ => rfl⟩, fun _ => rfl⟩

/-- The injection registers of the core are not among those that the end of an operation may change. -/
theorem WorkKept.getReg_inj {p : Nat} {s t : State} (h : WorkKept p s t) :
    getReg (pgSc p) 0 0x028 t = getReg (pgSc p) 0 0x028 s ∧ getReg (pgSc p) 0 0x420 t = getReg (pgSc p) 0 0x420 s :=
  ⟨h.regs.getReg (by simp [meEndRegs, meEndOffs]), h.regs.getReg (by simp [meEndRegs, meEndOffs])⟩

theorem coreInject_none {p : Nat} {s : State} (h : bit (getReg (pgSc p) 0 0x028 s) 16 = false) (f : Bool → State → State) :
    coreInject p f s = s := by rw [coreInject, takeInjection_none h]

theorem lmWrite_does {p : Nat} {s : State} (h : bit (getReg (pgSc p) 0 0x028 s) 16 = false) (b off : Nat) (bs : List Byte) :
    LmOnly p s (lmWrite p b off bs s) ∧ (lmWrite p b off bs s).mem.lm = memWrite zeroByte (lmKey b off) bs s.mem.lm := by
  cases bs with
  | nil => exact ⟨.refl p s, rfl⟩
  | cons x bs =>
    unfold lmWrite
    simp only
    rw [coreInject_none]
    · exact ⟨lmOnly_lm p _ _ s fun he => by rw [he, List.filter_nil], by dsimp only⟩
    · exact h

theorem rows_lmWrite {p b : Nat} {off : Nat → Nat} {row : Nat → List Byte} {s : State}
    (h : bit (getReg (pgSc p) 0 0x028 s) 16 = false) : ∀ m,
    LmOnly p s ((List.range m).foldl (fun s i => lmWrite p b (off i) (row i) s) s) ∧
    ((List.range m).foldl (fun s i => lmWrite p b (off i) (row i) s) s).mem.lm =
      rowsWritten (fun i => lmKey b (off i)) row m s.mem.lm
  | 0 => ⟨.refl p s, rfl⟩
  | m + 1 => by
    obtain ⟨hkept, hlm⟩ := rows_lmWrite (b := b) (off := off) (row := row) h m
    rw [List.range_succ, List.foldl_append, List.foldl_cons, List.foldl_nil, rowsWritten_succ, ← hlm]
    obtain ⟨hkept', hlm'⟩ := lmWrite_does (by rw [hkept.getReg_inj.1, h]) b (off m) (row m)
    exact ⟨hkept.trans hkept', hlm'⟩

/-- Row `i` of the output. -/
def outRow (d : List Word) (posts : List (Nat × Elem)) (i : Nat) : List Byte :=
  ((List.range (meN d)).map (fun j => toLE (outSize (df d 0 16 4)) (nth (0, { acc := 0 }) posts (16 * i + j)).1)).flatten

theorem length_outRow (d : List Word) (posts : List (Nat × Elem)) (i : Nat) :
    (outRow d posts i).length = meN d * outSize (df d 0 16 4) := by
  simp [outRow, List.length_flatten, Function.comp_def, length_toLE]

theorem meStore_none {op : MeOp} (h : df op.desc 0 14 1 ≠ 1) (p : Nat) (posts : List (Nat × Elem)) (s : State) :
    meStore p op posts s = s := if_neg h

/-- The valid rows of the output in local memory. -/
theorem meStore_rows {p : Nat} {op : MeOp} {s : State} (h : bit (getReg (pgSc p) 0 0x028 s) 16 = false)
    (hout : df op.desc 0 14 1 = 1) (posts : List (Nat × Elem)) :
    LmOnly p s (meStore p op posts s) ∧ (meStore p op posts s).mem.lm =
      rowsWritten (fun i => lmKey op.block (df op.desc 6 0 19 + i * df op.desc 5 16 16)) (outRow op.desc posts) (meM op.desc) s.mem.lm := by
  have hst : meStore p op posts s = (List.range (meM op.desc)).foldl
      (fun s i => lmWrite p op.block (df op.desc 6 0 19 + i * df op.desc 5 16 16) (outRow op.desc posts i) s) s := if_pos hout
  rw [hst]
  exact rows_lmWrite h _

/-- A byte lies in the output of an operation. -/
def InOut (op : MeOp) (a : Nat) : Prop := ∃ i < meM op.desc,
  lmKey op.block (df op.desc 6 0 19 + i * df op.desc 5 16 16) ≤ a ∧
  a < lmKey op.block (df op.desc 6 0 19 + i * df op.desc 5 16 16) + meN op.desc * outSize (df op.desc 0 16 4)

@[simp] theorem lmFree_nil (b : Nat) (s : State) : lmFree b [] s = s := rfl

theorem lmOnly_lmFree (p b : Nat) (rs : List (Nat × Nat)) (s : State) : LmOnly p s (lmFree b rs s) := by
  induction rs generalizing s with
  | nil => exact .refl p s
  | cons r rs ih =>
    refine LmOnly.trans ?_ (ih _)
    exact ⟨⟨.refl _ s, rfl, rfl, rfl, id, rfl, rfl, fun _ => rfl, fun _ => rfl⟩, fun _ => rfl⟩

/-- Freed bytes lie in the ranges. -/
theorem memByte_lmFree {b a : Nat} : ∀ {rs : List (Nat × Nat)} (s : State),
    (∀ r ∈ rs, ¬ (lmKey b r.1 ≤ a ∧ a < lmKey b r.1 + r.2)) →
      memByte zeroByte (lmFree b rs s).mem.lm a = memByte zeroByte s.mem.lm a
  | [], _, _ => rfl
  | r :: rs, s, h => by
    have hr := h r List.mem_cons_self
    rw [lmFree, List.foldl_cons]
    refine (memByte_lmFree (rs := rs) _ fun x hx => h x (List.mem_cons_of_mem _ hx)).trans ?_
    refine memByte_write_out _ _ _ _ _ ?_
    simp only [freeBytes, List.length_map, List.length_range]
    omega

/-- The bytes that an operation writes and another reads lie in its output. -/
theorem inOut_of_clashOut {p e : Nat} {op : MeOp} {s : State} {r : Nat × Nat} (h : r ∈ clashOut p e op s) {a : Nat}
    (ha : lmKey op.block r.1 ≤ a ∧ a < lmKey op.block r.1 + r.2) : InOut op a := by
  simp only [clashOut, rangesMeet, List.mem_flatten, List.mem_map, exists_exists_and_eq_and, List.mem_filterMap] at h
  obtain ⟨x, hx, y, -, hr⟩ := h
  split at hr
  · obtain rfl := Option.some.inj hr
    simp only [meOutRanges] at hx
    split at hx
    · obtain ⟨i, hi, rfl⟩ := List.mem_map.1 hx
      refine ⟨i, List.mem_range.1 hi, ?_⟩
      simp only [lmKey] at *
      omega
    · simp at hx
  · cases hr

theorem clashOut_noOutput {op : MeOp} (h : df op.desc 0 14 1 ≠ 1) (p e : Nat) (s : State) : clashOut p e op s = [] := by
  simp [clashOut, meOutRanges, h, rangesMeet]

/-! ## The results of an operation (R59, R63, R66, R74, R77, R86) -/

/-- What a finished operation changes in the notes of those that stay behind. -/
def clashNoted (op : MeOp) (s : State) (o : MeOp) : MeOp :=
  if o.block = op.block then
    { o with
      wrote := o.wrote ++ rangesMeet (meOutRanges op) (meRanges (opSeen o s)),
      touched := o.touched ++ rangesMeet (meRanges op) (meOutRanges (opSeen o s)) }
  else o

theorem opPlain_clashNoted (op : MeOp) (s : State) (o : MeOp) : opPlain (clashNoted op s o) = opPlain o := by
  unfold clashNoted
  split <;> rfl

/-- Engine `k` of the core after engine `e` has finished an operation, in the notes. -/
def engineNoted (e : Nat) (op : MeOp) (s : State) (k : Nat) (m : Me) : Me :=
  { m with run := if k = e then m.run else m.run.map (clashNoted op s), pend := m.pend.map (clashNoted op s) }

theorem noteClash_eq (p e : Nat) (op : MeOp) (s : State) : noteClash p e op s =
    setCore p { coreOf p s with mes := (coreOf p s).mes.map fun m => (m.1, engineNoted e op s m.1 m.2) } s := rfl

theorem meOf_noteClash (p e : Nat) (op : MeOp) (s : State) (q f : Nat) :
    meOf q f (noteClash p e op s) = if q = p then engineNoted e op s f (meOf q f s) else meOf q f s := by
  rw [noteClash_eq]
  refine meOf_setCore_map (f := engineNoted e op s) (fun k => ?_) rfl q f
  unfold engineNoted
  split <;> rfl

theorem meAlike_engineNoted (e : Nat) (op : MeOp) (s : State) (k : Nat) (m : Me) : MeAlike (engineNoted e op s k m) m := by
  refine ⟨rfl, rfl, rfl, ?_, map_opPlain (opPlain_clashNoted op s) _⟩
  unfold engineNoted
  split
  · rfl
  · exact map_opPlain (opPlain_clashNoted op s) _

theorem workKept_noteClash (p e : Nat) (op : MeOp) (s : State) : WorkKept p s (noteClash p e op s) := by
  rw [noteClash_eq]
  exact workKept_setCore rfl

/-- An engine with the tile that SEL names replaced. -/
def tilePut (sel : Nat) (x : Tile) (m : Me) : Me := if sel = 1 then { m with tile1 := x } else { m with tile0 := x }

/-- The state in which an operation reads its operands: bytes that some output overlaps are free values (R66). -/
def meSeen (p e : Nat) (op : MeOp) (s : State) : State := lmFree op.block (clashIn p e op s) s

/-- The elements of an operation. -/
def elemsOut (p e : Nat) (op : MeOp) (s : State) : List Elem :=
  meElems op (meTile (meOf p e s) op.job (df op.desc 0 11 1)) (meSeen p e op s)

theorem elemsOut_clean {p e : Nat} {op : MeOp} {s : State} (h : clashIn p e op s = []) : elemsOut p e op s = opElems p e op s := by
  rw [elemsOut, meSeen, h, lmFree_nil]

/-- The tile that an operation leaves. -/
def tileOut (p e : Nat) (op : MeOp) (s : State) : Tile :=
  { int := meInt op.desc, v := (elemsOut p e op s).map (·.acc), owner := some (op.job, op.block) }

/-- The elements after the post-op unit. -/
def postsOut (p e : Nat) (op : MeOp) (s : State) : List (Nat × Elem) := mePosts op (elemsOut p e op s) (meSeen p e op s)

/-- The neighbours' notes made and the tile put. -/
def tileDone (p e : Nat) (op : MeOp) (s : State) : State :=
  let u := noteClash p e op { s with free := (meSeen p e op s).free }
  setMe p e (tilePut (df op.desc 0 11 1) (tileOut p e op s) (meOf p e u)) u

/-- The first INVALID captured. -/
def invalidNoted (p e : Nat) (op : MeOp) (s : State) : State :=
  ntrapCapture p e op ((postsOut p e op s).map (·.2)) (tileDone p e op s)

/-- The output stored, with free values where another operation reads. -/
def outDone (p e : Nat) (op : MeOp) (s : State) : State :=
  lmFree op.block (clashOut p e op s) (meStore p op (postsOut p e op s) (invalidNoted p e op s))

/-- The results of an operation are its tile and its output, with what the core counts. -/
theorem tallied_meResults (p e : Nat) (op : MeOp) (s : State) : Tallied p (outDone p e op s) (meResults p e op s) := by
  obtain ⟨n, w, fl, h⟩ : ∃ n w fl, meResults p e op s =
      addFlags op.job fl (setReg (pgSc p) 0 0x404 w (countAct p .outElem op.job n (outDone p e op s))) := ⟨_, _, _, rfl⟩
  rw [h]
  exact .trans (tallied_countAct p p _ _ _ _) (.trans (tallied_setReg (by decide) _ _) (tallied_addFlags p _ _ _))

theorem workKept_tileDone (p e : Nat) (op : MeOp) (s : State) : WorkKept p s (tileDone p e op s) :=
  ((tallied_free p _ s).toWorkKept.trans (workKept_noteClash p e op _)).trans (workKept_setMe p p e _ _)

theorem me_tileDone_self (p e : Nat) (op : MeOp) (s : State) : ∃ f : MeOp → MeOp, (∀ o, opPlain (f o) = opPlain o) ∧
    meOf p e (tileDone p e op s) = tilePut (df op.desc 0 11 1) (tileOut p e op s)
      { meOf p e s with pend := (meOf p e s).pend.map f } := by
  refine ⟨_, opPlain_clashNoted op { s with free := (meSeen p e op s).free }, ?_⟩
  rw [tileDone, meOf_setMe_self, meOf_noteClash, if_pos rfl, engineNoted, if_pos rfl]
  rfl

theorem me_tileDone_ne {p e q f : Nat} (h : ¬ (q = p ∧ f = e)) (op : MeOp) (s : State) :
    MeAlike (meOf q f (tileDone p e op s)) (meOf q f s) := by
  rw [tileDone, meOf_setMe_ne h, meOf_noteClash]
  split
  · exact meAlike_engineNoted e op _ f _
  · exact meAlike_refl _

theorem tallied_invalidNoted (p e : Nat) (op : MeOp) (s : State) : Tallied p (tileDone p e op s) (invalidNoted p e op s) :=
  tallied_ntrapCapture p e op _ _

theorem lm_invalidNoted (p e : Nat) (op : MeOp) (s : State) : (invalidNoted p e op s).mem.lm = s.mem.lm :=
  (tallied_invalidNoted p e op s).lm

theorem inj_invalidNoted (p e : Nat) (op : MeOp) (s : State) :
    getReg (pgSc p) 0 0x028 (invalidNoted p e op s) = getReg (pgSc p) 0 0x028 s :=
  ((workKept_tileDone p e op s).trans (tallied_invalidNoted p e op s).toWorkKept).getReg_inj.1

theorem lmOnly_meStore {p : Nat} {op : MeOp} {s : State} (h : bit (getReg (pgSc p) 0 0x028 s) 16 = false)
    (posts : List (Nat × Elem)) : LmOnly p s (meStore p op posts s) := by
  by_cases hout : df op.desc 0 14 1 = 1
  · exact (meStore_rows h hout posts).1
  · rw [meStore_none hout]
    exact .refl p s

theorem lmOnly_meResults {p : Nat} {s : State} (h : bit (getReg (pgSc p) 0 0x028 s) 16 = false) (e : Nat) (op : MeOp) :
    LmOnly p (tileDone p e op s) (meResults p e op s) := by
  refine .trans (.trans (tallied_invalidNoted p e op s).toLmOnly ?_) (tallied_meResults p e op s).toLmOnly
  rw [outDone]
  exact .trans (lmOnly_meStore (by rw [inj_invalidNoted, h]) _) (lmOnly_lmFree p _ _ _)

/-- Local memory after an operation without output. -/
theorem lm_meResults_noOutput {op : MeOp} (h : df op.desc 0 14 1 ≠ 1) (p e : Nat) (s : State) :
    (meResults p e op s).mem.lm = s.mem.lm := by
  rw [(tallied_meResults p e op s).lm, outDone, clashOut_noOutput h, lmFree_nil, meStore_none h]
  exact lm_invalidNoted p e op s

/-- The bytes outside the output of an operation. -/
theorem memByte_meResults {p : Nat} {s : State} (h : bit (getReg (pgSc p) 0 0x028 s) 16 = false) (e : Nat) {op : MeOp} {a : Nat}
    (ha : ¬ InOut op a) : memByte zeroByte (meResults p e op s).mem.lm a = memByte zeroByte s.mem.lm a := by
  by_cases hout : df op.desc 0 14 1 = 1
  · rw [(tallied_meResults p e op s).lm, outDone, memByte_lmFree _ fun r hr hin => ha (inOut_of_clashOut hr hin),
      (meStore_rows (by rw [inj_invalidNoted, h]) hout _).2, lm_invalidNoted]
    refine memByte_rowsWritten_out fun i hi hin => ha ⟨i, hi, ?_⟩
    rwa [length_outRow] at hin
  · rw [lm_meResults_noOutput hout]

theorem nth_mePosts {op : MeOp} {es : List Elem} {i j : Nat} (hes : es.length = 256) (hout : df op.desc 0 14 1 = 1)
    (hi : i < meM op.desc) (hj : j < meN op.desc) (s : State) : nth (0, { acc := 0 }) (mePosts op es s) (16 * i + j) =
      postElem op.block op.desc j (nth { acc := 0 } es (16 * i + j)) s := by
  have hM : meM op.desc ≤ 16 := by simp only [meM, df, fld]; omega
  have hN : meN op.desc ≤ 16 := by simp only [meN, df, fld]; omega
  have hk : 16 * i + j < es.length := by omega
  have hrow : (16 * i + j) / 16 = i := by omega
  have hcol : (16 * i + j) % 16 = j := by omega
  simp [nth, mePosts, hk, hrow, hcol, hout, hi, hj]

/-- The rows of the output of an operation whose bytes no other overlaps. -/
theorem lmBytes_meResults {p e : Nat} {op : MeOp} {s : State} (h : bit (getReg (pgSc p) 0 0x028 s) 16 = false)
    (hout : df op.desc 0 14 1 = 1) (hin : clashIn p e op s = []) (hfree : clashOut p e op s = [])
    (hw : meN op.desc * outSize (df op.desc 0 16 4) ≤ df op.desc 5 16 16) {i : Nat} (hi : i < meM op.desc) :
    lmBytes op.block (df op.desc 6 0 19 + i * df op.desc 5 16 16) (meN op.desc * outSize (df op.desc 0 16 4)) (meResults p e op s) =
      ((List.range (meN op.desc)).map fun j => toLE (outSize (df op.desc 0 16 4))
        (postElem op.block op.desc j (nth { acc := 0 } (opElems p e op s) (16 * i + j)) s).1).flatten := by
  have hposts : postsOut p e op s = mePosts op (opElems p e op s) s := by
    rw [postsOut, elemsOut_clean hin, meSeen, hin, lmFree_nil]
  have hrow : outRow op.desc (postsOut p e op s) i = ((List.range (meN op.desc)).map fun j => toLE (outSize (df op.desc 0 16 4))
      (postElem op.block op.desc j (nth { acc := 0 } (opElems p e op s) (16 * i + j)) s).1).flatten := by
    refine congrArg List.flatten (List.map_congr_left fun j hj => ?_)
    rw [hposts, nth_mePosts (length_meElems _ _ s) hout hi (List.mem_range.1 hj)]
  rw [lmBytes, (tallied_meResults p e op s).lm, outDone, hfree, lmFree_nil,
    (meStore_rows (by rw [inj_invalidNoted, h]) hout _).2, ← hrow]
  exact memRead_rowsWritten (key := fun i => lmKey op.block (df op.desc 6 0 19 + i * df op.desc 5 16 16))
    (fun i => (Nat.add_assoc _ _ _).symm) hw (length_outRow op.desc _) hi

/-! ## The finish of an operation (R63, R64, R108, R472) -/

theorem lmTouch_clean {s : State} (h : s.cpt.lmErr = []) (p b : Nat) (rs : List (Nat × Nat)) : lmTouch p b rs s = (false, s) := by
  refine foldl_fixed fun r _ => ?_
  simp [lmRead, h]

/-- Without an error or an injection a finished operation has its results, after a count. -/
theorem meDeliver_clean {p : Nat} {s : State} (he : s.cpt.lmErr = []) (hi : bit (getReg (pgSc p) 0 0x420 s) 16 = false)
    (hj : bit (getReg (pgSc p) 0 0x028 s) 16 = false) (e : Nat) (op : MeOp) :
    ∃ u, Tallied p s u ∧ meDeliver p e op s = meResults p e op u := by
  have hcount (n : Nat) := tallied_countAct p p .tableRead op.job n s
  have hno (n : Nat) : injectHits p e op (countAct p .tableRead op.job n s) = false := by
    simp [injectHits, (hcount n).getReg_inj, hi]
  have hpar (n : Nat) : parityArmed p (countAct p .tableRead op.job n s) = false := by
    simp [parityArmed, (hcount n).getReg_inj, hj]
  refine ⟨_, hcount (tableReads op (meTile (meOf p e s) op.job (df op.desc 0 11 1)) s), ?_⟩
  simp only [meDeliver, lmTouch_clean he, bufferTouch, takeInjection_none hj, hno, hpar, Bool.false_and, Bool.false_eq_true, if_false]

theorem kernelCheck_unfinished {j : Nat} {k : Kernel} {s : State} (hk : kernelOf j s = some k) (h : k.finished < kernelBlocks k) :
    kernelCheck j s = s := by simp [kernelCheck, hk, h]

theorem blockCheck_live {b : Nat} {s : State} (h : blockLive b s = true) : blockCheck b s = s := by
  cases hb : blockOf b s with
  | none => simp only [blockCheck, hb]
  | some x =>
    have hmem : (b, x) ∈ clusterBlocks x.job x.bcl s := List.mem_filter.2 ⟨exists_mem_of_tabFind hb, by simp⟩
    have hany : (clusterBlocks x.job x.bcl s).any (fun e => blockLive e.1 s || blockHasOps e.1 s) = true :=
      List.any_eq_true.2 ⟨_, hmem, by rw [h, Bool.true_or]⟩
    simp only [blockCheck, hb, hany, if_true]

/-- Where the groups stay, a block that is live stays so. -/
theorem blockLive_of_groups {b : Nat} {s t : State} (hg : ∀ q, (coreOf q t).groups = (coreOf q s).groups)
    (h : blockLive b s = true) : blockLive b t = true := by
  obtain ⟨q, -, hq⟩ := List.any_eq_true.1 h
  rw [← hg] at hq
  refine List.any_eq_true.2 ⟨q, ?_, hq⟩
  cases hc : tabFind q t.cpt.cores with
  | none =>
    rw [coreOf, tabGet, hc] at hq
    cases hq
  | some c => exact List.mem_map.2 ⟨_, exists_mem_of_tabFind hc, rfl⟩

theorem opGoesOn_of_workKept {p : Nat} {op : MeOp} {s t : State} (h : OpGoesOn op s) (hk : WorkKept p s t) : OpGoesOn op t := by
  obtain ⟨hj, hb, k, hkern, hfin⟩ := h
  exact ⟨(hk.ended _).trans hj, blockLive_of_groups hk.groups hb, k, by rw [kernelOf, hk.kernels]; exact hkern, hfin⟩

/-- What a finished operation that nothing stopped leaves: its results, the next operation in front, and the checks of its block and
kernel. -/
def finishFrom (p e : Nat) (op : MeOp) (s : State) : State :=
  let s := mePop p e (meDeliver p e op s)
  let s := if jobEnded op.job s then coreForget op.job s p else s
  blockCheck op.block (kernelCheck op.job s)

/-- The cycles, the bytes and the waits of a finished operation counted. -/
def opCounted (p cycles : Nat) (op : MeOp) (s : State) : State :=
  let s := countAct p .operandByte op.job (portBytes op) (meCycles p op.job cycles (me16 op.desc) s)
  addFld (pgSc p) 0 0x424 0 32 (meWaits op cycles s).1 (meWaits op cycles s).2

theorem tallied_opCounted (p cycles : Nat) (op : MeOp) (s : State) : Tallied p s (opCounted p cycles op s) :=
  .trans (tallied_meCycles p op.job cycles (me16 op.desc) s) (.trans (tallied_countAct p p .operandByte op.job (portBytes op) _)
    (.trans (tallied_meWaits p op cycles _) (tallied_setReg (off := 0x424) (by decide) _ _)))

theorem meOpFinish_inLimits {p e cycles : Nat} {op : MeOp} {s : State} (hr : (meOf p e s).run = some op) (hs : op.started = true)
    (hn : op.stopped = false) (hlo : meLeast op.desc ≤ cycles) (hhi : cycles ≤ meMost op) :
    meOpFinish p e cycles s = finishFrom p e op (opCounted p cycles op s) := by
  have hlim : (!op.started || decide (cycles < meLeast op.desc) || decide (meMost op < cycles)) = false := by simp [hs, hlo, hhi]
  simp only [meOpFinish, hr, hlim, hn, Bool.false_eq_true, if_false]
  rfl

/-- In a block and a kernel that go on, a finish is the results and the next operation in front. -/
theorem finishFrom_goesOn {p e : Nat} {op : MeOp} {s : State} (hgo : OpGoesOn op s)
    (hk : WorkKept p s (mePop p e (meDeliver p e op s))) : finishFrom p e op s = mePop p e (meDeliver p e op s) := by
  obtain ⟨hj, hb, k, hkern, hfin⟩ := opGoesOn_of_workKept hgo hk
  simp only [finishFrom, hj, Bool.false_eq_true, if_false]
  rw [kernelCheck_unfinished hkern hfin, blockCheck_live hb]

theorem workKept_meResults {p : Nat} {s : State} (h : bit (getReg (pgSc p) 0 0x028 s) 16 = false) (e : Nat) (op : MeOp) :
    WorkKept p s (meResults p e op s) := (workKept_tileDone p e op s).trans (lmOnly_meResults h e op).toWorkKept

theorem meOpFinish_does {p e cycles : Nat} {op : MeOp} {s : State} (hr : (meOf p e s).run = some op) (hs : op.started = true)
    (hn : op.stopped = false) (hlo : meLeast op.desc ≤ cycles) (hhi : cycles ≤ meMost op) (hgo : OpGoesOn op s)
    (he : s.cpt.lmErr = []) (hi : bit (getReg (pgSc p) 0 0x420 s) 16 = false) (hj : bit (getReg (pgSc p) 0 0x028 s) 16 = false) :
    ∃ u, Tallied p s u ∧ meOpFinish p e cycles s = mePop p e (meResults p e op u) := by
  have hfin := meOpFinish_inLimits hr hs hn hlo hhi
  have hu := tallied_opCounted p cycles op s
  generalize opCounted p cycles op s = u at hfin hu
  obtain ⟨h028, h420⟩ := hu.toWorkKept.getReg_inj
  obtain ⟨v, hv, hdel⟩ := meDeliver_clean (p := p) (hu.noErr he) (by rw [h420, hi]) (by rw [h028, hj]) e op
  have hinj : bit (getReg (pgSc p) 0 0x028 v) 16 = false := by rw [hv.toWorkKept.getReg_inj.1, h028, hj]
  have hpop : WorkKept p u (mePop p e (meDeliver p e op u)) := by
    rw [hdel]
    exact (hv.toWorkKept.trans (workKept_meResults hinj e op)).trans (workKept_mePop p e _)
  exact ⟨v, hu.trans hv, by rw [hfin, finishFrom_goesOn (opGoesOn_of_workKept hgo hu.toWorkKept) hpop, hdel]⟩

theorem me_mePop_self (p e : Nat) (s : State) : meOf p e (mePop p e s) =
    { meOf p e s with run := (meOf p e s).pend, pend := none } := meOf_setMe_self p e _ s

theorem me_mePop_ne {p e q f : Nat} (h : ¬ (q = p ∧ f = e)) (s : State) : meOf q f (mePop p e s) = meOf q f s :=
  meOf_setMe_ne h _ s

theorem meRelease_mes (p : Nat) (s : State) (q : Nat) : (coreOf q (meRelease p s)).mes = (coreOf q s).mes := by
  obtain ⟨v, hv, h⟩ : ∃ v, v.mes = (coreOf p s).mes ∧ meRelease p s = setCore p v s := ⟨_, rfl, rfl⟩
  rw [h, mes_setCore hv]

/-! What stands in the engine afterwards. -/

@[simp] theorem tilePut_run (sel : Nat) (x : Tile) (m : Me) : (tilePut sel x m).run = m.run := by unfold tilePut; split <;> rfl

@[simp] theorem tilePut_pend (sel : Nat) (x : Tile) (m : Me) : (tilePut sel x m).pend = m.pend := by unfold tilePut; split <;> rfl

theorem tilePut_self (sel : Nat) (x : Tile) (m : Me) :
    (if sel = 1 then (tilePut sel x m).tile1 else (tilePut sel x m).tile0) = x := by unfold tilePut; split <;> rfl

theorem tilePut_other (sel : Nat) (x : Tile) (m : Me) :
    if sel = 1 then (tilePut sel x m).tile0 = m.tile0 else (tilePut sel x m).tile1 = m.tile1 := by unfold tilePut; split <;> rfl

/-- An operation's results, and the next operation in front. -/
def opDone (p e : Nat) (op : MeOp) (s : State) : State := meRelease p (mePop p e (meResults p e op s))

theorem me_opDone (p e : Nat) (op : MeOp) (s : State) (q f : Nat) :
    meOf q f (opDone p e op s) = meOf q f (mePop p e (meResults p e op s)) := meOf_of_mes (meRelease_mes p _ q) f

section
variable {p : Nat} {s : State} (h : bit (getReg (pgSc p) 0 0x028 s) 16 = false)
include h

theorem me_opDone_self (e : Nat) (op : MeOp) : ∃ f : MeOp → MeOp, (∀ o, opPlain (f o) = opPlain o) ∧
    ∃ m, m.run = (meOf p e s).pend.map f ∧ m.pend = none ∧ m.tile0 = (meOf p e s).tile0 ∧ m.tile1 = (meOf p e s).tile1 ∧
      meOf p e (opDone p e op s) = tilePut (df op.desc 0 11 1) (tileOut p e op s) m := by
  obtain ⟨f, hf, hme⟩ := me_tileDone_self p e op s
  refine ⟨f, hf, { meOf p e s with run := (meOf p e s).pend.map f, pend := none }, rfl, rfl, rfl, rfl, ?_⟩
  rw [me_opDone, me_mePop_self, (lmOnly_meResults h e op).me, hme]
  unfold tilePut
  split <;> rfl

theorem me_opDone_ne {e q f : Nat} (hne : ¬ (q = p ∧ f = e)) (op : MeOp) : MeAlike (meOf q f (opDone p e op s)) (meOf q f s) := by
  rw [me_opDone, me_mePop_ne hne, (lmOnly_meResults h e op).me]
  exact me_tileDone_ne hne op s

end

/-- The next operation in front and the groups that go on: registers and memories stay. -/
theorem meRelease_mePop_frame (p e : Nat) (s : State) : (tidyMem (meRelease p (mePop p e s))).regs = s.regs ∧
    (meRelease p (mePop p e s)).mem = s.mem ∧ (meRelease p (mePop p e s)).hbc = s.hbc ∧
    (meRelease p (mePop p e s)).aon = s.aon := ⟨rfl, rfl, rfl, rfl⟩

theorem regs_opDone (p e : Nat) (op : MeOp) (s : State) : (tidyMem (opDone p e op s)).regs = (meResults p e op s).regs :=
  (meRelease_mePop_frame p e (meResults p e op s)).1

theorem memByte_opDone (p e : Nat) (op : MeOp) (s : State) (a : Nat) :
    memByte zeroByte (tidyMem (opDone p e op s)).mem.lm a = memByte zeroByte (meResults p e op s).mem.lm a := by
  obtain ⟨-, hmem, -⟩ := meRelease_mePop_frame p e (meResults p e op s)
  rw [← hmem]
  exact memByte_canon _ _ _

theorem sameBytes_opDone {p e : Nat} {op : MeOp} {s t : State} (h : WorkKept p s (meResults p e op t))
    (hlm : (meResults p e op t).mem.lm = s.mem.lm) : SameBytes s (tidyMem (opDone p e op t)) := by
  obtain ⟨-, hmem, hhbc, haon⟩ := meRelease_mePop_frame p e (meResults p e op t)
  exact sameBytes_tidyMem_of_eq (hmem.trans (by rw [h.mem, hlm])) (hhbc.trans h.hbc) (haon.trans h.aon)

/-! ## The statement -/

theorem exec_meOpStart (p : Fin 80) (e : Fin 32) (s : State) :
    exec (.meOpStart p e) s = .next (tidyMem (meOpStart p.val e.val s)) := rfl

theorem exec_meOpFinish (p : Fin 80) (e : Fin 32) (cycles : Nat) (s : State) :
    exec (.meOpFinish p e cycles) s = .next (tidyMem (meRelease p.val (meOpFinish p.val e.val cycles s))) := rfl

theorem exec_residueMismatch {p : Fin 80} {e : Fin 32} {st : Fin 4} {op : MeOp} {s : State} (hr : (meOf p.val e.val s).run = some op)
    (hs : op.started = true) (hc : stageChecked op st.val s = true) :
    exec (.residueMismatch p e st) s = .next (tidyMem (residue p.val e.val s)) := by
  show toNext _ = _
  simp only [hr, hs, hc, Bool.and_self, if_true]
  rfl

theorem jobEnded_running {j : Nat} {b : Job} {s : State} (hb : tabFind j s.fe.jobs = some b) (hf : b.fin = none) :
    jobEnded j s = false := by simp [jobEnded, hb, hf]

/-- Settles O21: a start by the outcome of the checks of R76, a finish by the results of the operation, a residue mismatch by the end of
its job. -/
theorem matrixEngineOperationsRunToTheirEnd : Obligations.MatrixEngineOperationsRunToTheirEnd := by
  unfold Obligations.MatrixEngineOperationsRunToTheirEnd
  refine ⟨fun p e op b jb s hr hs ha hu hb hst hjb hfin => ?_,
    fun p e op cycles s hr hs hn hlo hhi hgo he hi hj => ?_, fun p e st op jb s hr hs hn hc hjb hfin => ?_⟩
  · have hx := exec_meOpStart p e s
    have hj := jobEnded_running hjb hfin
    have hck := meOpStart_checked hr hs ha hu hb hst rfl
    refine ⟨_, hx, fun h0 => ?_, fun n hn h => ?_⟩
    · rw [hck, if_pos h0]
      exact meBegin_does rfl
    · rw [hck, h, if_neg hn]
      exact meReject_does p.isLt hj e.val n
  · have hx := exec_meOpFinish p e cycles s
    obtain ⟨u, hu, hfin⟩ := meOpFinish_does hr hs hn hlo hhi hgo he hi hj
    have hinj : bit (getReg (pgSc p.val) 0 0x028 u) 16 = false := by rw [hu.toWorkKept.getReg_inj.1, hj]
    have hkept : WorkKept p.val s (meResults p.val e.val op u) := hu.toWorkKept.trans (workKept_meResults hinj e.val op)
    rw [hfin] at hx
    obtain ⟨f, hf, m, hrun, hpend, ht0, ht1, hme⟩ := me_opDone_self hinj e.val op
    rw [hu.me] at hrun ht0 ht1
    have hself : meOf p.val e.val (tidyMem (opDone p.val e.val op u)) = _ := hme
    have hregs : OtherRegs (meEndRegs p.val) s (tidyMem (opDone p.val e.val op u)) := fun k hk => by
      rw [regs_opDone, hkept.regs k hk]
    refine ⟨tidyMem (opDone p.val e.val op u), hx, ?_⟩
    rw [hself, tilePut_run, tilePut_pend, tilePut_self, hrun, ← ht0, ← ht1]
    refine ⟨map_opPlain hf _, hpend, ⟨_, rfl, fun hin => ?_⟩, tilePut_other _ _ m, fun q f h => ?_, fun hout => ?_,
      fun hout hin hfree hw i hi => ?_, fun a ha => ?_, hregs⟩
    · rw [elemsOut_clean (by rw [hu.clashIn, hin]), hu.opElems]
    · exact hu.me q f ▸ me_opDone_ne hinj h op
    · refine sameBytes_opDone hkept ((lm_meResults_noOutput ?_ p.val e.val u).trans hu.lm)
      omega
    · have hrow := lmBytes_meResults (e := e.val) hinj hout (by rw [hu.clashIn, hin]) (by rw [hu.clashOut, hfree]) hw hi
      rw [lmBytes, memRead_congr fun k _ => memByte_opDone _ _ _ _ _]
      refine hrow.trans ?_
      simp only [postElem_of_lm hu.lm, hu.opElems]
    · rw [memByte_opDone, memByte_meResults hinj e.val fun ⟨i, hi, hin⟩ => ha i hi hin, hu.lm]
  · have hx := exec_residueMismatch (p := p) (e := e) (st := st) hr hs hc
    obtain ⟨hrun, hbit, hjob⟩ := residue_does p.isLt hr hs hn (jobEnded_running hjb hfin)
    exact ⟨_, hx, hrun, hbit, hjob⟩

end Sys2Proof.Machine

/-!
PROOFS. The statement of 04_shader_cores.md on fences, barriers and gates, refuted. The count that an uncounted gate expects is taken
while the group that passes is already put back with its next program counter. Putting it back keeps one entry for the group only in a
table in ascending slot order, which the statement does not ask of the core.
-/
namespace Sys2Proof.Machine
open Sys2Proof.Claims

/-! ## A core whose table of groups is not in ascending order (R102) -/

/-- The path of thread 0 at the start of its code. -/
def lonePath : Path := { mask := 1, pc := 0 }

/-- A group of a block of job 0 with one live thread. -/
def loneGroup (block : Nat) : Group := { job := 0, block := block, idx := 0, live := 1, paths := [lonePath], nregs := 16 }

/-- A block of job 0 on core 0, none of its gates counted. -/
def loneBlock : Block := { job := 0, core := 0, index := 0, bcl := 0, rank := 0, size := 0, groups := 1 }

/-- The fields of a gate.pass at gate 0. -/
def passInsn : Insn := ⟨255, 255, 255, 255, 15, false, 0⟩

/-- Core 0 is up, job 0 runs, and the group in slot 5 stands before the group of block 0 in slot 3. -/
def unorderedCore : State :=
  { regs := [(rk (pgSc 0) 0 0x00C, 1)],
    fe := { jobs := [(0, { owner := .queue 0 0, cmd := [], startSeq := 0, startUs := 0 })] },
    cpt := { cores := [(0, { groups := [(5, loneGroup 1), (3, loneGroup 0)] })], blocks := [(0, loneBlock)] } }

theorem ready_unorderedCore : Ready 0 3 (loneGroup 0) lonePath [] unorderedCore := by decide

theorem gateExpect_unorderedCore : gateExpect 0 0 unorderedCore = 1 := by decide

/-- With a second entry for the group in slot 3 two arrivals are expected: the first does not end the phase. -/
theorem arr_gatePass_unorderedCore : (gateOf 0 0
    (tidyMem (issue 0 3 passInsn { op := some 0xB3, imm := 15 } (gateArrive false passInsn) unorderedCore))).arr = 1 := by decide

theorem exec_gatePass (p : Fin 80) (g : Fin 64) (i : Insn) (s : State) : exec (.gatePass p g i) s =
    .next (tidyMem (issue p.val g.val i { op := some 0xB3, imm := 15 } (gateArrive false i) s)) := rfl

/-- Refutes O24: at the uncounted gate of `unorderedCore` one live thread is expected, and the one that passes should end the phase
and leave no arrivals; the model leaves one. -/
theorem not_fencesBarriersAndGates : ¬ Obligations.FencesBarriersAndGates := by
  unfold Obligations.FencesBarriersAndGates
  rintro ⟨-, -, -, -, -, hgate⟩
  obtain ⟨hpass, -⟩ := hgate 0 3 passInsn (loneGroup 0) lonePath [] loneBlock {} 1 1 unorderedCore ready_unorderedCore (by decide)
    (by decide) (by decide) (by decide) (by decide) gateExpect_unorderedCore.symm (by decide) (by decide)
  obtain ⟨t, ht, -, hv, -⟩ := hpass (by decide)
  obtain rfl : _ = t := Host.Outcome.next.inj ((exec_gatePass 0 3 passInsn unorderedCore).symm.trans ht)
  exact absurd (arr_gatePass_unorderedCore.symm.trans (congrArg Gate.arr hv)) (by decide)

end Sys2Proof.Machine

/-!
PROOFS. What an access to memory leaves alone: an HBM read or write, a translation, a read or a write by address, and the SRAMs of the
cores. The statements of 04_shader_cores.md that follow are about instructions that make such accesses.
-/
namespace Sys2Proof.Machine
open Sys2Proof.Claims

/-! ## Accesses to HBM (R136 to R143) -/

/-- What an access to HBM or to host memory can change: registers of the later pages, the output, Basin, Proofer, the free counter, the
translation buffers, the state of the HBM regions, and the bytes of HBM and of the host. -/
def AccessKept (s t : State) : Prop :=
  OtherRegs lateRegs s t ∧ t = { s with
    regs := t.regs, out := t.out, bsn := t.bsn, pwr := t.pwr, free := t.free, mmu := t.mmu, hbc := t.hbc,
    mem := { s.mem with hbm := t.mem.hbm, host := t.mem.host } }

theorem AccessKept.refl (s : State) : AccessKept s s := ⟨.refl _ s, rfl⟩

theorem AccessKept.trans {s t u : State} (h : AccessKept s t) (h' : AccessKept t u) : AccessKept s u := by
  obtain ⟨hr, h⟩ := h
  obtain ⟨hr', h'⟩ := h'
  refine ⟨hr.trans hr', ?_⟩
  rw [h', h]

theorem AccessKept.foldl {α : Type} {f : State → α → State} (h : ∀ s a, AccessKept s (f s a)) :
    ∀ (l : List α) (s : State), AccessKept s (l.foldl f s)
  | [], s => .refl s
  | a :: l, s => (h s a).trans (AccessKept.foldl h l (f s a))

theorem Alters.accessKept {s t : State} (h : Alters lateRegs s t) : AccessKept s t := by
  obtain ⟨hr, h⟩ := h
  refine ⟨hr, ?_⟩
  rw [h]

section
variable {s t : State} (h : AccessKept s t)
include h

theorem AccessKept.fe : t.fe = s.fe := by rw [h.2]
theorem AccessKept.cpt : t.cpt = s.cpt := by rw [h.2]
theorem AccessKept.dma : t.dma = s.dma := by rw [h.2]
theorem AccessKept.pci : t.pci = s.pci := by rw [h.2]
theorem AccessKept.tlr : t.tlr = s.tlr := by rw [h.2]
theorem AccessKept.lm : t.mem.lm = s.mem.lm := by rw [h.2]
theorem AccessKept.cmem : t.mem.cmem = s.mem.cmem := by rw [h.2]
theorem AccessKept.coreOf (p : Nat) : coreOf p t = coreOf p s := coreOf_of_cores (congrArg Compute.cores h.cpt) p
theorem AccessKept.groupOf (p g : Nat) : groupOf p g t = groupOf p g s := congrArg (fun c : Core => tabFind g c.groups) (h.coreOf p)

/-- The registers of the capabilities and of the cores' pages are kept. -/
theorem AccessKept.getReg {pg : Nat} (hpg : pg < pgFe) {bank off : Nat} (hb : bank < 512) (ho : off < 65536) :
    getReg pg bank off t = getReg pg bank off s :=
  h.1.getReg fun hk => by simp only [lateRegs, rk, pgFe] at *; omega

end

theorem accessKept_hbmUnitError (a : Nat) (ue scrub : Bool) (s : State) : AccessKept s (hbmUnitError a ue scrub s) := by
  have hn := stackOf_lt (a * 32) s
  have hlog := (alters_logHbmError a ue scrub s).accessKept
  have hevent {u : State} (i off : Nat) (h : 208 ≤ i) (h' : i < 220) (hu : AccessKept s u) :
      AccessKept s (fault i (count32 (pgHbc (stackOf (a * 32) s)) 0 off u)) :=
    hu.trans (Alters.accessKept ((alters_count32 _ _ _ u (lateRegs_rk (by simp only [pgFe, pgHbc]; omega) 0 off)).trans
      (alters_fault i _ fun _ => lateRegs_of_faultRegs (pgFe_le_srcHome h h'))))
  unfold hbmUnitError
  simp only
  split
  · exact hevent _ _ (by omega) (by omega) hlog
  · exact hevent _ _ (by omega) (by omega) (hlog.trans ⟨.refl _ _, rfl⟩)

theorem accessKept_settleFills (rs : List Nat) (s : State) : AccessKept s (settleFills rs s) := by
  refine .foldl (fun s r => ?_) rs s
  unfold regionFilled
  simp only
  split_ifs
  · have hset (u : State) : AccessKept u (setFld (pgHbc 0) 0 0x128 31 1 0 u) :=
      Alters.accessKept (alters_setFld _ _ _ _ _ _ u (lateRegs_rk (pg := pgHbc 0) (by decide) 0 0x128))
    refine AccessKept.trans ?_ (hset _)
    exact ⟨fun _ _ => rfl, rfl⟩
  · exact ⟨fun _ _ => rfl, rfl⟩
  · exact .refl s

theorem accessKept_touchRegion (s : State) (r : Nat) : AccessKept s (touchRegion s r) := by
  unfold touchRegion
  split
  · exact .refl s
  · exact ⟨fun _ _ => rfl, rfl⟩

theorem accessKept_hbmMerge (a n : Nat) (s : State) : AccessKept s (hbmMerge a n s) := by
  refine AccessKept.foldl (fun u e => ?_) _ s
  exact accessKept_hbmUnitError e.1 false false u

theorem accessKept_hbmRead (a n : Nat) (s : State) : AccessKept s (hbmRead a n s).2 := by
  have herrs (u : State) : AccessKept u (hbmErrors a n false u) := by
    refine AccessKept.foldl (fun v e => ?_) _ u
    exact accessKept_hbmUnitError e.1 e.2.ue false v
  unfold hbmRead
  simp only
  split <;> exact (accessKept_settleFills _ s).trans (herrs _)

theorem alters_takeInjection {R : Nat → Prop} {pg : Nat} (h : R (rk pg 0 0x028)) (s : State) : Alters R s (takeInjection pg s).2 := by
  unfold takeInjection
  simp only
  split
  · exact alters_setReg _ _ _ _ s h
  · exact .refl _ s

theorem accessKept_hbmPut (a : Nat) (bs : List Byte) (s : State) : AccessKept s (hbmPut a bs s) := by
  cases bs with
  | nil => exact .refl s
  | cons b bs =>
    have hready : AccessKept s (regionsReady a (b :: bs).length s) :=
      (accessKept_settleFills _ s).trans (.foldl accessKept_touchRegion _ _)
    have hstored : AccessKept s (hbmStored a (b :: bs) (hbmMerge a (b :: bs).length (regionsReady a (b :: bs).length s))) :=
      (hready.trans (accessKept_hbmMerge _ _ _)).trans ⟨fun _ _ => rfl, rfl⟩
    have hpg (n : Nat) : pgFe ≤ pgHbc n := by simp only [pgFe, pgHbc]; omega
    have hinj := hstored.trans (alters_takeInjection (lateRegs_rk (hpg (stackOf a (hbmStored a (b :: bs)
      (hbmMerge a (b :: bs).length (regionsReady a (b :: bs).length s))))) 0 0x028) _).accessKept
    unfold hbmStored regionsReady at hinj
    unfold hbmPut
    simp only
    split
    · next h =>
      rw [h] at hinj
      exact hinj.trans ⟨fun _ _ => rfl, rfl⟩
    · next h =>
      rw [h] at hinj
      exact hinj

/-! ## Translations and accesses by address (R146 to R154) -/

theorem accessKept_mmu (m : Mmu) (k : Nat) (s : State) : AccessKept s { s with mmu := m, free := k } := ⟨fun _ _ => rfl, rfl⟩

theorem bufAdd_state {α : Type} (cap : Nat) (e : α) (l : List α) (s : State) : ∃ k, (bufAdd cap e l s).2 = { s with free := k } := by
  unfold bufAdd
  split
  · exact ⟨s.free, rfl⟩
  · exact ⟨s.free + 1, rfl⟩

theorem accessKept_readPte (slot level va table : Nat) (s : State) : AccessKept s (readPte slot level va table s).2 := by
  have hread := accessKept_hbmRead (table + 8 * nbits va (12 + 9 * level) 9) 8 s
  unfold readPte
  simp only
  split
  · exact .refl s
  · split <;> next h => rw [h] at hread; exact hread

theorem accessKept_keepWalk (slot level va pte : Nat) (s : State) : AccessKept s (keepWalk slot level va pte s) := by
  unfold keepWalk
  simp only
  split
  · exact .refl s
  · obtain ⟨k, hk⟩ := bufAdd_state 512 ⟨slot, level, va / 2 ^ (12 + 9 * level), pte⟩ s.mmu.walk s
    rw [hk]
    exact accessKept_mmu _ k s

theorem accessKept_walkLeaf (slot va table : Nat) (g64 : Bool) (s : State) : AccessKept s (walkLeaf slot va table g64 s).2 := by
  have hread := accessKept_hbmRead (if g64 then table + 8 * nbits va 16 5 else table + 8 * nbits va 12 9) 8 s
  unfold walkLeaf
  simp only
  split
  · next h => rw [h] at hread; exact hread
  · next h =>
    rw [h] at hread
    split
    · exact hread
    · split
      · exact hread
      · split <;> exact hread

theorem accessKept_walkFrom (slot va : Nat) : ∀ (level table : Nat) (g64 : Bool) (s : State),
    AccessKept s (walkFrom slot va level table g64 s).2
  | 0, table, g64, s => accessKept_walkLeaf slot va table g64 s
  | level + 1, table, _, s => by
    have hread := accessKept_readPte slot (level + 1) va table s
    unfold walkFrom
    split
    · next h => rw [h] at hread; exact hread
    · next pte u h =>
      rw [h] at hread
      split_ifs
      · exact hread
      · split <;> exact hread
      · exact hread
      · split
        · exact hread
        · next t _ => exact (hread.trans (accessKept_keepWalk _ _ _ _ u)).trans (accessKept_walkFrom slot va level t _ _)

theorem accessKept_sharedAdd (e : TlbEnt) (s : State) : AccessKept s (sharedAdd e s) := by
  unfold sharedAdd
  simp only
  generalize (if s.mmu.shared.length < 8 then [] else s.mmu.shared.filter (fun o => tlbSet o == tlbSet e)) = peers
  split
  · exact accessKept_mmu _ s.free s
  · exact accessKept_mmu _ (s.free + 1) s

theorem accessKept_microAdd (rq : Nat) (e : TlbEnt) (s : State) : AccessKept s (microAdd rq e s) := by
  unfold microAdd
  split
  · obtain ⟨k, hk⟩ := bufAdd_state 32 e (tabGet [] rq s.mmu.micro) s
    simp only [hk]
    exact accessKept_mmu _ k s
  · exact .refl s

theorem accessKept_findEnt (rq slot va : Nat) (s : State) : AccessKept s (findEnt rq slot va s).2 := by
  have hcount (off : Nat) : AccessKept s (count32 pgMmu 0 off s) :=
    (alters_count32 _ _ _ s (lateRegs_rk (pg := pgMmu) (by decide) 0 off)).accessKept
  unfold findEnt
  split
  · exact .refl s
  · split
    · exact (hcount _).trans (accessKept_microAdd rq _ _)
    · have hwalk := (hcount 0x11C).trans (accessKept_walkFrom slot va 3 (slotOf slot s).ptRoot false _)
      split
      · next h => rw [h] at hwalk; exact hwalk
      · next h => rw [h] at hwalk; exact hwalk.trans ((accessKept_sharedAdd _ _).trans (accessKept_microAdd rq _ _))

theorem accessKept_translate (rq slot va : Nat) (k : XKind) (s : State) : AccessKept s (translate rq slot va k s).2 := by
  have hfind := accessKept_findEnt rq slot va s
  unfold translate
  split_ifs
  · exact .refl s
  · exact .refl s
  · split
    · next h => rw [h] at hfind; exact hfind
    · next e u h =>
      rw [h] at hfind
      simp only
      split
      · exact hfind
      · split_ifs
        · exact hfind
        · exact hfind
        · exact hfind
        · split
          · exact hfind
          · split <;> exact hfind

theorem accessKept_vaRead (rq slot va n : Nat) (k : XKind) (s : State) : AccessKept s (vaRead rq slot va n k s).2 := by
  have hdest := accessKept_translate rq slot va k s
  unfold vaRead
  split
  · next h => rw [h] at hdest; exact hdest
  · next pa u h =>
    rw [h] at hdest
    have hread := hdest.trans (accessKept_hbmRead pa n u)
    split <;> next h => rw [h] at hread; exact hread
  · next h => rw [h] at hdest; exact hdest
  · next h => rw [h] at hdest; exact hdest

theorem accessKept_vaWrite (rq slot va : Nat) (bs : List Byte) (s : State) : AccessKept s (vaWrite rq slot va bs s).2 := by
  have hdest := accessKept_translate rq slot va .wr s
  unfold vaWrite
  split
  · next h => rw [h] at hdest; exact hdest
  · next h => rw [h] at hdest; exact hdest.trans (accessKept_hbmPut _ bs _)
  · next h => rw [h] at hdest; exact hdest.trans ⟨fun _ _ => rfl, rfl⟩
  · next h => rw [h] at hdest; exact hdest

/-- One piece of a read of any length, after the pieces before it. -/
def readPiece (rq slot : Nat) (k : XKind) (acc : Except (AccErr × Nat) (List Byte) × State) (c : Nat × Nat) :
    Except (AccErr × Nat) (List Byte) × State :=
  match acc with
  | (.error e, s) => (.error e, s)
  | (.ok bs, s) =>
    match vaRead rq slot c.1 c.2 k s with
    | (.ok b, s) => (.ok (bs ++ b), s)
    | (.error e, s) => (.error (e, c.1), s)

theorem vaReadAll_eq (rq slot va n : Nat) (k : XKind) (s : State) :
    vaReadAll rq slot va n k s = (pagePieces va n).foldl (readPiece rq slot k) (.ok [], s) := rfl

theorem accessKept_readPiece (rq slot : Nat) (k : XKind) (acc : Except (AccErr × Nat) (List Byte) × State) (c : Nat × Nat) :
    AccessKept acc.2 (readPiece rq slot k acc c).2 := by
  obtain ⟨e | bs, s⟩ := acc
  · exact .refl s
  · have hread := accessKept_vaRead rq slot c.1 c.2 k s
    unfold readPiece
    simp only
    split <;> next h => rw [h] at hread; exact hread

theorem accessKept_readPieces (rq slot : Nat) (k : XKind) : ∀ (l : List (Nat × Nat)) (acc : Except (AccErr × Nat) (List Byte) × State),
    AccessKept acc.2 (l.foldl (readPiece rq slot k) acc).2
  | [], acc => .refl acc.2
  | c :: l, acc => (accessKept_readPiece rq slot k acc c).trans (accessKept_readPieces rq slot k l _)

theorem accessKept_vaReadAll (rq slot va n : Nat) (k : XKind) (s : State) : AccessKept s (vaReadAll rq slot va n k s).2 :=
  accessKept_readPieces rq slot k _ (.ok [], s)

end Sys2Proof.Machine

/-!
PROOFS. The statement of 04_shader_cores.md on rays. First what an instruction that puts its group back leaves, then the tables of rays,
the frame of a traversal and the delivery of its result; then the statement.
-/
namespace Sys2Proof.Machine
open Sys2Proof.Claims

/-! ## The issue of an instruction that names a destination (R91, R369) -/

/-- An instruction that issues and puts its group back, without errors in registers and without an injection armed. -/
theorem issue_putBack {p g : Nat} {u : Uses} {i : Insn} {x y : Group} {cur : Path} {rest : List Path} {s t : State}
    (h : Issues p g u i x cur rest s) {act : Iss → State → Option State}
    (hact : act ⟨p, g, x, cur, rest, exOf x i cur⟩ s = some t) (hy : groupOf p g t = some y) (herr : y.regErr = x.regErr)
    (hinj : getReg (pgSc p) 0 0x028 t = getReg (pgSc p) 0 0x028 s) : issue p g i u act s = t := by
  rw [issue_issues h, hact, Option.map_some, Option.getD_some]
  obtain ⟨⟨-, -, -, -, -, -, -, -, -, -, hx, hbit⟩, -, -⟩ := h
  exact regDone_clean hy (herr.trans hx) (by rw [hinj, hbit]) u i _ x

/-- An instruction that issues and cannot act: nothing changes. -/
theorem issue_notReady {p g : Nat} {u : Uses} {i : Insn} {x : Group} {cur : Path} {rest : List Path} {s : State}
    (h : Issues p g u i x cur rest s) {act : Iss → State → Option State}
    (hact : act ⟨p, g, x, cur, rest, exOf x i cur⟩ s = none) : issue p g i u act s = s := by
  rw [issue_issues h, hact]
  rfl

theorem regDone_fe (p g : Nat) (u : Uses) (i : Insn) (ex : BitVec 32) (x : Group) (s : State) :
    (regDone p g u i ex x s).fe = s.fe := by
  have hinj (y : Group) (key : Nat) (left : Tab Bool) (s : State) :
      (coreInject p (fun ue s => setGroup p g { y with regErr := tabSet key ue left } s) s).fe = s.fe := by
    have h := takeInjection_fe (pgSc p) s
    unfold coreInject
    split <;> next heq => rw [heq] at h; exact h
  unfold regDone
  simp only
  split
  · rfl
  · split
    · rfl
    · split
      · rfl
      · split
        · exact hinj _ _ _ _
        · exact (hinj _ _ _ _).trans rfl

/-- An instruction that issues and faults ends the job of its group. -/
theorem jobFault_issue {p g : Nat} {u : Uses} {i : Insn} {x : Group} {cur : Path} {rest : List Path} {s : State}
    (h : Issues p g u i x cur rest s) {act : Iss → State → Option State} {reason : Nat}
    (hact : act ⟨p, g, x, cur, rest, exOf x i cur⟩ s = some (faultInsn p x.job reason cur.pc s)) :
    JobFault x.job reason (insnDetail p cur s) (tidyMem (issue p g i u act s)) := by
  rw [issue_issues h, hact, Option.map_some, Option.getD_some]
  obtain ⟨⟨-, -, hj, -⟩, -, -⟩ := h
  obtain ⟨b, hb, hfin⟩ := jobFault_faultInsn (p := p) (cur := cur) hj reason
  exact ⟨b, by rw [tidyMem_fe, regDone_fe]; exact hb, hfin⟩

theorem nodup_threadsOf (m : BitVec 32) : (threadsOf m).Nodup := List.nodup_range.filter _

/-! ## Tables of rays (R110, R113) -/

/-- The rays of some threads started. -/
def raysStarted (x : Group) (i : Insn) (l : List Nat) (rays : Tab Ray) : Tab Ray :=
  l.foldl (fun t th => tabSet th (newRay x i th) t) rays

theorem tabFind_raysStarted (x : Group) (i : Insn) (th : Nat) : ∀ (l : List Nat) (rays : Tab Ray),
    tabFind th (raysStarted x i l rays) = if th ∈ l then some (newRay x i th) else tabFind th rays
  | [], rays => rfl
  | t :: l, rays => by
    rw [raysStarted, List.foldl_cons, ← raysStarted, tabFind_raysStarted x i th l]
    by_cases hl : th ∈ l
    · simp only [hl, if_true, List.mem_cons_of_mem t hl]
    · by_cases ht : th = t
      · subst ht
        simp only [hl, if_false, List.mem_cons_self, if_true, tabFind_set_self]
      · simp only [hl, if_false, List.mem_cons, ht, or_self, tabFind_set_ne ht]

/-- The ray of a thread, where it has one, as `f` makes it. -/
def rayAnswered (f : Ray → Ray) (rays : Tab Ray) (th : Nat) : Tab Ray :=
  match tabFind th rays with
  | some y => tabSet th (f y) rays
  | none => rays

theorem tabFind_rayAnswered (f : Ray → Ray) (rays : Tab Ray) (t th : Nat) :
    tabFind th (rayAnswered f rays t) = if th = t then (tabFind th rays).map f else tabFind th rays := by
  unfold rayAnswered
  split
  · next y h =>
    by_cases ht : th = t
    · subst ht
      rw [tabFind_set_self, if_pos rfl, h]
      rfl
    · rw [tabFind_set_ne ht, if_neg ht]
  · next h =>
    by_cases ht : th = t
    · subst ht
      rw [if_pos rfl, h]
      rfl
    · rw [if_neg ht]

theorem tabFind_raysAnswered (f : Ray → Ray) (th : Nat) : ∀ {l : List Nat} (rays : Tab Ray), l.Nodup →
    tabFind th (l.foldl (rayAnswered f) rays) = if th ∈ l then (tabFind th rays).map f else tabFind th rays
  | [], rays, _ => rfl
  | t :: l, rays, h => by
    obtain ⟨hnot, hl⟩ := List.nodup_cons.1 h
    rw [List.foldl_cons, tabFind_raysAnswered f th _ hl, tabFind_rayAnswered]
    by_cases ht : th = t
    · subst ht
      simp only [hnot, if_false, if_true, List.mem_cons_self]
    · simp only [ht, if_false, List.mem_cons, false_or]

/-- The answer of rt.cont to a paused ray. -/
def contAnswer (i : Insn) (r : Ray) : Ray := { rtAnswer (i.imm.getLsbD 0) r with dst := i.dst.toNat }

/-! ## rt.trace and rt.cont (R110, R113) -/

theorem rtTraceStep_executing {i : Insn} {a : Iss} {s : State} (hex : a.ex ≠ 0) (h : raysInFlight a.p s + popcount a.ex ≤ 128) :
    rtTraceStep i a s = some (rtStart a (raysStarted a.x i (threadsOf a.ex) a.x.rays) s) := by
  rw [rtTraceStep, if_neg hex, if_neg (Nat.not_lt.2 h)]
  rfl

theorem rtTraceStep_full {i : Insn} {a : Iss} {s : State} (hex : a.ex ≠ 0) (h : 128 < raysInFlight a.p s + popcount a.ex) :
    rtTraceStep i a s = none := by rw [rtTraceStep, if_neg hex, if_pos h]

/-- A thread has no paused traversal. -/
def lacksPaused (rays : Tab Ray) (t : Nat) : Bool :=
  match tabFind t rays with
  | some y => !y.paused
  | none => true

theorem rtContStep_eq (i : Insn) (a : Iss) (s : State) : rtContStep i a s =
    if a.ex = 0 then some (advance a a.x s)
    else if (threadsOf a.ex).any (lacksPaused a.x.rays) then some (insnFault a 0x09 s)
    else if 128 < raysInFlight a.p s + popcount a.ex then none
    else some (rtStart a ((threadsOf a.ex).foldl (rayAnswered (contAnswer i)) a.x.rays) s) := rfl

theorem rtContStep_paused {i : Insn} {a : Iss} {s : State} (hex : a.ex ≠ 0)
    (hp : ∀ th, a.ex.getLsbD th = true → ∃ r, tabFind th a.x.rays = some r ∧ r.paused = true)
    (h : raysInFlight a.p s + popcount a.ex ≤ 128) :
    rtContStep i a s = some (rtStart a ((threadsOf a.ex).foldl (rayAnswered (contAnswer i)) a.x.rays) s) := by
  have hall : (threadsOf a.ex).any (lacksPaused a.x.rays) = false := by
    refine List.any_eq_false.2 fun t ht => ?_
    obtain ⟨r, hr, hpaused⟩ := hp t (mem_threadsOf.1 ht)
    simp [lacksPaused, hr, hpaused]
  rw [rtContStep_eq, if_neg hex, hall, if_neg Bool.false_ne_true, if_neg (Nat.not_lt.2 h)]

theorem rtContStep_fault {i : Insn} {a : Iss} (s : State) {th : Nat} (hth : a.ex.getLsbD th = true)
    (hp : ∀ r, tabFind th a.x.rays = some r → r.paused = false) : rtContStep i a s = some (insnFault a 0x09 s) := by
  have hex : a.ex ≠ 0 := fun h => by simp [h] at hth
  have hany : (threadsOf a.ex).any (lacksPaused a.x.rays) = true := by
    refine List.any_eq_true.2 ⟨th, mem_threadsOf.2 hth, ?_⟩
    unfold lacksPaused
    split
    · next r hr => simp [hp r hr]
    · rfl
  rw [rtContStep_eq, if_neg hex, hany, if_pos rfl]

/-! ## What a traversal leaves alone (R109, R111, R134) -/

theorem alters_coreSram (p array : Nat) (ue : Bool) (s : State) : Alters (fun _ => True) s (coreSram p array ue s) := by
  have hcapture (f : Nat) (u : State) : Alters (fun _ => True) u (sramCapture (pgSc p) f ue u) := by
    unfold sramCapture
    simp only
    split
    · exact .refl _ u
    · exact alters_setReg _ _ _ _ u trivial
  have hfree : Alters (fun _ => True) s (takeFree s).2 := alters_free _ _ s
  have hseen := hfree.trans (hcapture ((takeFree s).1 % 65536 + array * 65536) _)
  unfold coreSram
  simp only
  split
  · exact hseen.trans (alters_fault _ _ fun _ _ => trivial)
  · obtain ⟨-, h⟩ := faultAt_does (160 + p / 5) (pgSc p) 2 (count32 (pgSc p) 0 0x504
      (sramCapture (pgSc p) ((takeFree s).1 % 65536 + array * 65536) ue (takeFree s).2))
    exact (hseen.trans (alters_count32 _ _ _ _ trivial)).trans ⟨fun _ hk => absurd trivial hk, by rw [h]⟩

theorem lmError_cores (p key : Nat) (ue : Bool) (s : State) : (lmError p key ue s).cpt.cores = s.cpt.cores := by
  unfold lmError
  rw [(alters_coreSram _ _ _ _).cpt]
  split <;> rfl

theorem lmRead_cores (p b off n : Nat) (s : State) : (lmRead p b off n s).2.cpt.cores = s.cpt.cores := by
  have herrs (l : List (Nat × Bool)) : (l.foldl (fun s e => lmError p e.1 e.2 s) s).cpt.cores = s.cpt.cores :=
    foldl_keeps (fun s => s.cpt.cores) _ _ (fun s e _ => lmError_cores p e.1 e.2 s) s
  unfold lmRead
  simp only
  split <;> exact herrs _

theorem vaReadAll_cores (rq slot va n : Nat) (k : XKind) (s : State) : (vaReadAll rq slot va n k s).2.cpt.cores = s.cpt.cores :=
  congrArg Compute.cores (accessKept_vaReadAll rq slot va n k s).cpt

theorem rtRead_cores (c : RtCtx) (addr n : Nat) (s : State) : (rtRead c addr n s).2.cpt.cores = s.cpt.cores := by
  unfold rtRead
  simp only
  split
  · split
    · rfl
    · split
      · rfl
      · have hlm := lmRead_cores c.p c.block (addr % 2 ^ 19) n s
        split <;> next h => rw [h] at hlm; exact hlm
  · have hva := vaReadAll_cores c.p c.slot addr n .rd s
    split <;> next h => rw [h] at hva; exact hva

theorem rtVisit_cores (c : RtCtx) (f : RtFrame) (ref : Nat) (s : State) : (rtVisit c f ref s).2.cpt.cores = s.cpt.cores := by
  have hread (n : Nat) := rtRead_cores c (refAddr ref) n s
  unfold rtVisit
  split
  · rfl
  · split
    · rfl
    · split
      · have hbox := hread 128
        split <;> next h => rw [h] at hbox; exact hbox
      · split
        · have hleaf := hread (48 * (ref / 4 % 16 + 1))
          simp only
          split <;> next h => rw [h] at hleaf; exact hleaf
        · split
          · rfl
          · have hinst := hread 128
            split
            · next h => rw [h] at hinst; exact hinst
            · next h =>
              rw [h] at hinst
              simp only
              split
              · exact hinst
              · split
                · exact hinst
                · split <;> exact hinst

theorem rtWalk_cores (c : RtCtx) : ∀ (fuel : Nat) (r : RtRun) (s : State), (rtWalk c fuel r s).2.cpt.cores = s.cpt.cores
  | 0, _, _ => rfl
  | fuel + 1, r, s => by
    unfold rtWalk
    split
    · rfl
    · split
      · rfl
      · next f rest _ =>
        split
        · exact rtWalk_cores c fuel _ s
        · exact rtWalk_cores c fuel _ s
        · next ref _ _ _ =>
          have hvisit := rtVisit_cores c f ref s
          split
          · next h => rw [h] at hvisit; exact hvisit
          · next h =>
            rw [h] at hvisit
            simp only
            split
            · exact hvisit
            · exact (rtWalk_cores c fuel _ _).trans hvisit

theorem rtTraverse_cores (c : RtCtx) (y : Ray) (s : State) : (rtTraverse c y s).2.cpt.cores = s.cpt.cores := by
  unfold rtTraverse
  generalize 2 ^ 40 = fuel
  split
  · exact rtWalk_cores c fuel _ s
  · split
    · rfl
    · split
      · rfl
      · exact rtWalk_cores c fuel _ s

/-! ## The delivery of a result (R110, R113) -/

/-- Words put into consecutive registers of a thread. -/
def putSeq (t d : Nat) (ws : List (Word × Nat)) (x : Group) : Group := ws.foldl (fun x w => regPut t (d + w.2) w.1 x) x

theorem tabFind_putSeq_below {t d k : Nat} : ∀ (ws : List Word) {n : Nat} (x : Group), k < n →
    tabFind (t * 512 + (d + k)) (putSeq t d (ws.zipIdx n) x).regs = tabFind (t * 512 + (d + k)) x.regs
  | [], _, _, _ => rfl
  | w :: ws, n, x, h => by
    rw [List.zipIdx_cons, putSeq, List.foldl_cons, ← putSeq, tabFind_putSeq_below ws _ (Nat.lt_succ_of_lt h), regPut]
    split
    · rfl
    · exact tabFind_set_ne (by omega) _ _

theorem regOf_putSeq {t d : Nat} : ∀ {ws : List Word} {n k : Nat} (x : Group), k < ws.length → d + n + ws.length ≤ 255 →
    regOf (putSeq t d (ws.zipIdx n) x) t (d + n + k) = nth 0 ws k
  | w :: ws, n, 0, x, _, hd => by
    have hlt : d + n ≠ 255 := by simp only [List.length_cons] at hd; omega
    show regOf (putSeq t d ((w :: ws).zipIdx n) x) t (d + n) = w
    rw [List.zipIdx_cons, putSeq, List.foldl_cons, ← putSeq, regOf, if_neg hlt,
      tabFind_putSeq_below ws _ (Nat.lt_succ_self n), regPut, if_neg hlt, tabFind_set_self,
      Option.getD_some]
  | w :: ws, n, k + 1, x, hk, hd => by
    simp only [List.length_cons] at hk hd
    rw [List.zipIdx_cons, putSeq, List.foldl_cons, ← putSeq, show d + n + (k + 1) = d + (n + 1) + k by omega,
      regOf_putSeq _ (by omega) (by omega)]
    rfl

theorem putSeq_rays (t d : Nat) : ∀ (ws : List (Word × Nat)) (x : Group), (putSeq t d ws x).rays = x.rays
  | [], _ => rfl
  | w :: ws, x => by
    rw [putSeq, List.foldl_cons, ← putSeq, putSeq_rays t d ws, regPut_eq]

/-- A group whose data may have come: only what its paths wait for changes. -/
theorem groupOf_dataCheck {p g : Nat} {x : Group} {s : State} (h : groupOf p g s = some x) :
    ∃ ps, groupOf p g (dataCheck p g s) = some { x with paths := ps } := by
  unfold dataCheck
  rw [h]
  simp only
  split
  · exact ⟨x.paths, h⟩
  · exact ⟨_, groupOf_setGroup_self p g _ s⟩

theorem length_rtWords (status : Nat) (h : Option RtHit) (s : State) : (rtWords status h s).1.length = 7 := by
  cases h with
  | none => simp [rtWords, freeWords]
  | some h => rfl

theorem head_rtWords (status : Nat) (h : Option RtHit) (s : State) : nth 0 (rtWords status h s).1 0 = w32 status := by
  cases h <;> rfl

theorem rtWords_cores (status : Nat) (h : Option RtHit) (s : State) : (rtWords status h s).2.cpt.cores = s.cpt.cores := by
  cases h <;> rfl

/-- The rays of a group after a result: the ray has ended, or it pauses at its candidate. -/
def raysAfter (t : Nat) (r : Ray) (h : Option RtHit) (pause : Option RtRun) (rays : Tab Ray) : Tab Ray :=
  match pause with
  | some w => tabSet t { r with stack := some w.stack, best := w.best, cand := h, paused := true } rays
  | none => tabDel t rays

/-- The group with the words of a result in the thread's registers. -/
def resultGroup (t : Nat) (r : Ray) (h : Option RtHit) (pause : Option RtRun) (ws : List Word) (x : Group) : Group :=
  { putSeq t r.dst ws.zipIdx x with rays := raysAfter t r h pause x.rays }

/-- A result stands in the seven registers of its thread, and its ray has ended or pauses. -/
theorem rtDeliver_does {p g t : Nat} {x : Group} {r : Ray} {s : State} (hx : groupOf p g s = some x)
    (hr : tabFind t x.rays = some r) (hd : r.dst + 7 ≤ 255) (status : Nat) (h : Option RtHit) (pause : Option RtRun) :
    ∃ y, groupOf p g (rtDeliver p g t status h pause s) = some y ∧ y.rays = raysAfter t r h pause x.rays ∧
      ∀ k < 7, regOf y t (r.dst + k) = nth 0 (rtWords status h s).1 k := by
  have hgrp : groupOf p g (rtWords status h s).2 = some x := by rw [groupOf, coreOf_of_cores (rtWords_cores status h s)]; exact hx
  have hrays : (putSeq t r.dst ((rtWords status h s).1.zipIdx) x).rays = x.rays := putSeq_rays t r.dst _ x
  have hdst : r.dst ≠ 255 := by omega
  have hdeliver : rtDeliver p g t status h pause s = dataCheck p g
      (setGroup p g (resultGroup t r h pause (rtWords status h s).1 x) (rtWords status h s).2) := by
    unfold rtDeliver
    simp only [hgrp, hr, hdst, if_false]
    rw [← putSeq, hrays]
    rfl
  obtain ⟨ps, hps⟩ := groupOf_dataCheck (groupOf_setGroup_self p g (resultGroup t r h pause (rtWords status h s).1 x)
    (rtWords status h s).2)
  rw [← hdeliver] at hps
  have hrow (k : Nat) (hk : k < 7) := regOf_putSeq (t := t) (d := r.dst) (ws := (rtWords status h s).1) (n := 0) (k := k) x
    (by rw [length_rtWords]; exact hk) (by rw [length_rtWords]; omega)
  exact ⟨_, hps, rfl, hrow⟩

/-- The result of a hit names it (R110). -/
theorem hitWords_of_rtWords {y : Group} {t d status : Nat} {h : RtHit} {s : State}
    (hy : ∀ k < 7, regOf y t (d + k) = nth 0 (rtWords status (some h) s).1 k) : HitWords y t d h := by
  have hword (k : Nat) (hk : k < 7) := hy k hk
  refine ⟨⟨_, hword 1 (by omega)⟩, ⟨_, _, _, _, ?_, ?_, ?_, hword 2 (by omega), hword 3 (by omega)⟩, hword 4 (by omega),
    hword 5 (by omega), fun n hn => (hword 6 (by omega)).trans ?_⟩
  · exact Nat.mod_lt _ (by omega)
  · exact Nat.mod_lt _ (by omega)
  · omega
  · simp [rtWords, rtTuv, nth, hn]

section
variable {p g t : Nat} {x : Group} {r : Ray} {w : RtRun} {s s1 : State} (hx : groupOf p g s = some x)
  (hr : tabFind t x.rays = some r) (hp : r.paused = false) (hj : jobEnded x.job s = false) (hc : coreUp p s = true)
  (hb : blockStopping x.block s = false) (hw : rtTraverse ⟨p, x.block, groupSlot x s, r.flags⟩ r s = (w, s1))
include hx hr hp hj hc hb hw

theorem rtResult_miss (h : w.fin = some .miss) : rtResult p g t s = rtDeliver p g t 0 none none s1 := by
  simp [rtResult, hx, hr, hp, hj, hc, hb, hw, h]

theorem rtResult_overflow (h : w.fin = some .overflow) : rtResult p g t s = rtDeliver p g t 3 none none s1 := by
  simp [rtResult, hx, hr, hp, hj, hc, hb, hw, h]

theorem rtResult_hit {e : RtHit} (h : w.fin = some (.hit e)) : rtResult p g t s = rtDeliver p g t 1 (some e) none s1 := by
  simp [rtResult, hx, hr, hp, hj, hc, hb, hw, h]

theorem rtResult_candidate {e : RtHit} (h : w.fin = some (.candidate e)) :
    rtResult p g t s = rtDeliver p g t 2 (some e) (some w) s1 := by
  simp [rtResult, hx, hr, hp, hj, hc, hb, hw, h]

end

/-! ## The statement -/

theorem exec_rtTrace (p : Fin 80) (g : Fin 64) (i : Insn) (s : State) : exec (.rtTrace p g i) s =
    .next (tidyMem (issue p.val g.val i { op := some 0xD0, dst := 7, src0 := 8, src1 := 2, src2 := 1 } (rtTraceStep i) s)) := rfl

theorem exec_rtCont (p : Fin 80) (g : Fin 64) (i : Insn) (s : State) : exec (.rtCont p g i) s =
    .next (tidyMem (issue p.val g.val i { op := some 0xD1, dst := 7, imm := 1 } (rtContStep i) s)) := rfl

theorem exec_rtTraceResult (p : Fin 80) (g : Fin 64) (t : Fin 32) (s : State) :
    exec (.rtTraceResult p g t) s = .next (tidyMem (rtResult p.val g.val t.val s)) := rfl

/-- An instruction that issues and sets rays going, whose path waits for their results. -/
theorem issue_rtStart {p g : Nat} {u : Uses} {i : Insn} {x : Group} {cur : Path} {rest : List Path} {s : State}
    (h : Issues p g u i x cur rest s) {act : Iss → State → Option State} {rays : Tab Ray}
    (hact : act ⟨p, g, x, cur, rest, exOf x i cur⟩ s = some (rtStart ⟨p, g, x, cur, rest, exOf x i cur⟩ rays s)) :
    issue p g i u act s =
      setGroup p g { x with rays := rays, paths := { onward cur with wait := some .data } :: rest } s :=
  issue_putBack h hact (groupOf_setGroup_self p g _ s) rfl rfl

/-- Settles O26: the tables of rays that rt.trace and rt.cont leave, and the words and the ray that the end of a traversal leaves. -/
theorem raysStartEndAndContinue : Obligations.RaysStartEndAndContinue := by
  unfold Obligations.RaysStartEndAndContinue
  refine ⟨fun p g i x cur rest s hi hex => ⟨fun hroom => ?_, fun hfull => ?_⟩,
    fun p g i x cur rest s hi hex => ⟨fun hpaused hroom => ?_, fun ⟨th, hth, hnone⟩ => ?_⟩,
    fun p g th x r w s s1 hx hr hp hj hc hb hd hw => ?_⟩
  · have hrun := exec_rtTrace p g i s
    rw [issue_rtStart hi (rtTraceStep_executing hex hroom)] at hrun
    obtain ⟨hgrp, hwork, -, hfe, hbytes⟩ := setGroup_frame (.refl (fun _ => False) s) p g { x with
      rays := raysStarted x i (threadsOf (exOf x i cur)) x.rays, paths := { onward cur with wait := some .data } :: rest }
    refine ⟨_, _, hrun, hgrp, rfl, fun th _ => ?_, hwork, rfl, hfe, hbytes⟩
    rw [tabFind_raysStarted]
    simp only [mem_threadsOf]
  · have hrun := exec_rtTrace p g i s
    rwa [issue_notReady hi (rtTraceStep_full hex hfull)] at hrun
  · have hrun := exec_rtCont p g i s
    rw [issue_rtStart hi (rtContStep_paused hex hpaused hroom)] at hrun
    obtain ⟨hgrp, hwork, -, hfe, hbytes⟩ := setGroup_frame (.refl (fun _ => False) s) p g { x with
      rays := (threadsOf (exOf x i cur)).foldl (rayAnswered (contAnswer i)) x.rays,
      paths := { onward cur with wait := some .data } :: rest }
    refine ⟨_, _, hrun, hgrp, rfl, fun th r hr => ?_, hwork, rfl, hfe, hbytes⟩
    rw [tabFind_raysAnswered _ _ _ (nodup_threadsOf _), hr]
    simp only [mem_threadsOf, Option.map_some]
    split <;> rfl
  · exact ⟨_, exec_rtCont p g i s, jobFault_issue hi (rtContStep_fault s hth hnone)⟩
  · have hrun := exec_rtTraceResult p g th s
    have hcores : s1.cpt.cores = s.cpt.cores := by
      have h := rtTraverse_cores ⟨p.val, x.block, groupSlot x s, r.flags⟩ r s
      rwa [hw] at h
    have hx1 : groupOf p.val g.val s1 = some x := by rw [groupOf, coreOf_of_cores hcores]; exact hx
    have hdeliver := rtDeliver_does hx1 hr hd
    refine ⟨fun hfin => ?_, fun h hfin => ?_, fun h hfin => ?_⟩
    · rcases hfin with hfin | hfin
      · rw [rtResult_miss hx hr hp hj hc hb hw hfin] at hrun
        obtain ⟨y, hgrp, hrays, hwords⟩ := hdeliver 0 none none
        exact ⟨_, y, hrun, hgrp, by rw [hfin]; exact (hwords 0 (by omega)).trans (head_rtWords _ _ _), hrays⟩
      · rw [rtResult_overflow hx hr hp hj hc hb hw hfin] at hrun
        obtain ⟨y, hgrp, hrays, hwords⟩ := hdeliver 3 none none
        exact ⟨_, y, hrun, hgrp, by rw [hfin]; exact (hwords 0 (by omega)).trans (head_rtWords _ _ _), hrays⟩
    · rw [rtResult_hit hx hr hp hj hc hb hw hfin] at hrun
      obtain ⟨y, hgrp, hrays, hwords⟩ := hdeliver 1 (some h) none
      exact ⟨_, y, hrun, hgrp, (hwords 0 (by omega)).trans (head_rtWords _ _ _), hitWords_of_rtWords hwords, hrays⟩
    · rw [rtResult_candidate hx hr hp hj hc hb hw hfin] at hrun
      obtain ⟨y, hgrp, hrays, hwords⟩ := hdeliver 2 (some h) (some w)
      exact ⟨_, y, hrun, hgrp, (hwords 0 (by omega)).trans (head_rtWords _ _ _), hitWords_of_rtWords hwords, hrays⟩

end Sys2Proof.Machine

/-!
PROOFS. The statement of 04_shader_cores.md on exits. First what the barriers of a block can change where they let their threads go on,
then whether a block is live, then what the end of a block and the kernel boundary leave of the blocks; then the statement.
-/
namespace Sys2Proof.Machine
open Sys2Proof.Claims

/-! ## Live blocks and their operations -/

/-- Some core that holds anything passes a test that an empty core fails: some core passes it. -/
theorem any_usedCores {f : Core → Bool} (hf : f {} = false) (s : State) :
    (usedCores s).any (fun p => f (coreOf p s)) = true ↔ ∃ p, f (coreOf p s) = true := by
  constructor
  · intro h
    obtain ⟨p, -, hp⟩ := List.any_eq_true.1 h
    exact ⟨p, hp⟩
  · rintro ⟨p, hp⟩
    refine List.any_eq_true.2 ⟨p, ?_, hp⟩
    cases hc : tabFind p s.cpt.cores with
    | none =>
      rw [coreOf, tabGet, hc, Option.getD_none, hf] at hp
      cases hp
    | some c => exact List.mem_map.2 ⟨_, exists_mem_of_tabFind hc, rfl⟩

theorem blockLive_iff {b : Nat} {s : State} : blockLive b s = true ↔ ∃ p, ∃ e ∈ (coreOf p s).groups, e.2.block = b := by
  refine (any_usedCores (f := fun c => c.groups.any fun g => g.2.block == b) rfl s).trans (exists_congr fun p => ?_)
  simp [List.any_eq_true]

/-- The operations of a core, by what its engines hold. -/
def opsHeld (c : Core) : List MeOp := (c.mes.map (fun m => m.2.run.toList ++ m.2.pend.toList)).flatten

/-- Whether some operation passes a test rests on what the engines hold. -/
theorem anyOp_of_mes {s t : State} (h : ∀ p, (coreOf p t).mes = (coreOf p s).mes) (f : MeOp → Bool) :
    (usedCores t).any (fun p => (coreOps p t).any f) = (usedCores s).any (fun p => (coreOps p s).any f) := by
  have hop (u : State) : (usedCores u).any (fun p => (coreOps p u).any f) = true ↔ ∃ p, (opsHeld (coreOf p u)).any f = true :=
    any_usedCores (f := fun c => (opsHeld c).any f) rfl u
  rw [Bool.eq_iff_iff, hop, hop]
  exact exists_congr fun p => by rw [opsHeld, opsHeld, h]

/-! ## Barriers that let their threads go on (R101, R103) -/

theorem mem_tabSet_of_mem {α : Type} {e : Nat × α} {k : Nat} (v : α) : ∀ {t : Tab α}, e ∈ t →
    e ∈ tabSet k v t ∨ tabFind k t = some e.2
  | (k', v') :: t, h => by
    rw [tabSet, tabFind_cons]
    rcases List.mem_cons.1 h with rfl | h
    · by_cases hlt : k' < k
      · simp [hlt]
      · by_cases hk : k' = k <;> simp [hlt, hk]
    · by_cases hlt : k' < k
      · have hne : k' ≠ k := by omega
        simp only [hlt, if_true, hne, if_false, List.mem_cons]
        exact (mem_tabSet_of_mem v h).imp_left .inr
      · by_cases hk : k' = k <;> simp [hlt, hk, h]

/-- What the end of a barrier can change: what the paths of groups wait for, and the gates of blocks. -/
structure WaitsKept (s t : State) : Prop where
  rest : t = { s with cpt := { s.cpt with cores := t.cpt.cores, blocks := t.cpt.blocks } }
  mes : ∀ p, (coreOf p t).mes = (coreOf p s).mes
  live : ∀ b, blockLive b t = blockLive b s
  group : ∀ p g, ∃ f : List Path → List Path, groupOf p g t = (groupOf p g s).map fun x => { x with paths := f x.paths }

theorem WaitsKept.refl (s : State) : WaitsKept s s :=
  ⟨rfl, fun _ => rfl, fun _ => rfl, fun p g => ⟨id, by cases groupOf p g s <;> rfl⟩⟩

theorem WaitsKept.trans {s t u : State} (h : WaitsKept s t) (h' : WaitsKept t u) : WaitsKept s u where
  rest := by rw [h'.rest, h.rest]
  mes p := (h'.mes p).trans (h.mes p)
  live b := (h'.live b).trans (h.live b)
  group p g := by
    obtain ⟨f, hf⟩ := h.group p g
    obtain ⟨f', hf'⟩ := h'.group p g
    refine ⟨f' ∘ f, ?_⟩
    rw [hf', hf, Option.map_map]
    rfl

theorem WaitsKept.foldl {α : Type} {f : State → α → State} (h : ∀ s a, WaitsKept s (f s a)) :
    ∀ (l : List α) (s : State), WaitsKept s (l.foldl f s)
  | [], s => .refl s
  | a :: l, s => (h s a).trans (WaitsKept.foldl h l (f s a))

theorem WaitsKept.frame {s t : State} (h : WaitsKept s t) :
    t.regs = s.regs ∧ t.fe = s.fe ∧ t.cpt.kernels = s.cpt.kernels ∧ SameBytes s (tidyMem t) := by
  have hrest := h.rest
  exact ⟨by rw [hrest], by rw [hrest], by rw [hrest],
    sameBytes_tidyMem_of_eq (by rw [hrest]) (by rw [hrest]) (by rw [hrest])⟩

/-- A group whose paths change is the group of its block as before. -/
theorem blockLive_setGroup {p g : Nat} {x y : Group} {s : State} (hx : groupOf p g s = some x) (hy : y.block = x.block) (b : Nat) :
    blockLive b (setGroup p g y s) = blockLive b s := by
  rw [Bool.eq_iff_iff, blockLive_iff, blockLive_iff]
  refine exists_congr fun q => ?_
  by_cases hq : q = p
  · subst hq
    rw [setGroup, coreOf_setCore_self]
    constructor
    · rintro ⟨e, he, hb⟩
      rcases mem_tabSet he with rfl | ⟨he, -⟩
      · exact ⟨_, exists_mem_of_tabFind hx, hy ▸ hb⟩
      · exact ⟨e, he, hb⟩
    · rintro ⟨e, he, hb⟩
      rcases mem_tabSet_of_mem y he with hm | hfind
      · exact ⟨e, hm, hb⟩
      · obtain rfl : x = e.2 := Option.some.inj (hx.symm.trans hfind)
        exact ⟨_, exists_mem_of_tabFind (tabFind_set_self g y _), hy.trans hb⟩
  · rw [coreOf_setGroup_ne hq]

theorem waitsKept_setGroup {p g : Nat} {x : Group} {s : State} (hx : groupOf p g s = some x) (ps : List Path) :
    WaitsKept s (setGroup p g { x with paths := ps } s) where
  rest := rfl
  mes := mes_setCore rfl
  live := blockLive_setGroup hx rfl
  group q h := by
    by_cases heq : q = p ∧ h = g
    · obtain ⟨rfl, rfl⟩ := heq
      refine ⟨fun _ => ps, ?_⟩
      rw [groupOf_setGroup_self, hx]
      rfl
    · refine ⟨id, ?_⟩
      have hkeep : groupOf q h (setGroup p g { x with paths := ps } s) = groupOf q h s := by
        by_cases hq : q = p
        · subst hq
          exact groupOf_setGroup_ne (fun hh => heq ⟨rfl, hh⟩) _ _ s
        · rw [groupOf, coreOf_setGroup_ne hq, groupOf]
      rw [hkeep]
      cases groupOf q h s <;> rfl

theorem waitsKept_setGate (b n : Nat) (v : Gate) (s : State) : WaitsKept s (setGate b n v s) := by
  unfold setGate
  split
  · exact ⟨rfl, fun _ => rfl, fun _ => rfl, fun p g => ⟨id, by show groupOf p g s = _; cases groupOf p g s <;> rfl⟩⟩
  · exact .refl s

theorem waitsKept_releaseAll (w : PathWait) (l : List (Nat × Nat × Group)) (s : State) : WaitsKept s (releaseAll w l s) := by
  refine .foldl (fun u e => ?_) l s
  split
  · next x hx => exact waitsKept_setGroup hx _
  · exact .refl u

theorem waitsKept_allWait (w : PathWait) (l : List (Nat × Nat × Group)) (s : State) : WaitsKept s (allWait w l s) := by
  unfold allWait
  split
  · exact waitsKept_releaseAll w l s
  · exact .refl s

theorem waitsKept_gatesRecheck (b : Nat) (s : State) : WaitsKept s (gatesRecheck b s) := by
  refine .foldl (fun u n => ?_) _ s
  simp only
  split
  · exact (waitsKept_setGate b n _ u).trans (waitsKept_releaseAll _ _ _)
  · exact .refl u

theorem waitsKept_exitRecheck (b : Nat) (s : State) : WaitsKept s (exitRecheck b s) := by
  have hgates := waitsKept_gatesRecheck b s
  unfold exitRecheck
  simp only
  split
  · exact hgates.trans ((waitsKept_allWait .bcl _ _).trans (waitsKept_allWait .dev _ _))
  · exact hgates

theorem allWait_blocks (w : PathWait) (l : List (Nat × Nat × Group)) (s : State) : (allWait w l s).cpt.blocks = s.cpt.blocks := by
  unfold allWait
  split
  · refine foldl_keeps (fun s => s.cpt.blocks) _ _ (fun u e _ => ?_) s
    split <;> rfl
  · rfl

/-- Where every uncounted gate of a block is without arrivals, no gate completes by an exit. -/
theorem gatesRecheck_noArrivals {b : Nat} {s : State} (h : ∀ n, (gateOf b n s).n = 0 → (gateOf b n s).arr = 0) :
    gatesRecheck b s = s := by
  refine foldl_fixed fun n _ => if_neg ?_
  rintro ⟨hn, harr, -⟩
  have := h n hn
  omega

theorem exitRecheck_blocks {b : Nat} {s : State} (h : ∀ n, (gateOf b n s).n = 0 → (gateOf b n s).arr = 0) :
    (exitRecheck b s).cpt.blocks = s.cpt.blocks := by
  unfold exitRecheck
  rw [gatesRecheck_noArrivals h]
  simp only
  split
  · rw [allWait_blocks, allWait_blocks]
  · rfl

/-! ## The end of a block and of its kernel (R95, R108, R128) -/

theorem accessKept_destPut (host : Option HostAttr) (a : Nat) (bs : List Byte) (s : State) : AccessKept s (destPut host a bs s) := by
  unfold destPut
  split
  · exact ⟨fun _ _ => rfl, rfl⟩
  · exact accessKept_hbmPut a bs s

theorem accessKept_wbOut (e : WbEnt) (s : State) : AccessKept s (wbOut e s) := by
  refine .foldl (fun u r => ?_) _ s
  exact accessKept_destPut e.host _ r.2 u

/-- The blocks, the kernels and local memory are as they were. -/
def BlocksKept (s t : State) : Prop :=
  t.cpt.blocks = s.cpt.blocks ∧ t.cpt.kernels = s.cpt.kernels ∧ t.mem.lm = s.mem.lm

theorem BlocksKept.trans {s t u : State} (h : BlocksKept s t) (h' : BlocksKept t u) : BlocksKept s u := by
  obtain ⟨hb, hk, hm⟩ := h
  obtain ⟨hb', hk', hm'⟩ := h'
  exact ⟨hb'.trans hb, hk'.trans hk, hm'.trans hm⟩

theorem BlocksKept.foldl {α : Type} {f : State → α → State} (h : ∀ s a, BlocksKept s (f s a)) :
    ∀ (l : List α) (s : State), BlocksKept s (l.foldl f s)
  | [], _ => ⟨rfl, rfl, rfl⟩
  | a :: l, s => (h s a).trans (BlocksKept.foldl h l (f s a))

theorem AccessKept.blocksKept {s t : State} (h : AccessKept s t) : BlocksKept s t :=
  ⟨congrArg Compute.blocks h.cpt, congrArg Compute.kernels h.cpt, h.lm⟩

theorem blocksKept_wbFlushAll (s : State) (p : Nat) : BlocksKept s (wbFlushAll p s) := by
  unfold wbFlushAll wbFlush
  simp only
  split
  · have hout (u : State) : BlocksKept u (((coreOf p s).wb.filter fun _ => true).foldl (fun s e => wbOut e s) u) :=
      (AccessKept.foldl (fun u e => accessKept_wbOut e u) _ u).blocksKept
    exact BlocksKept.trans ⟨rfl, rfl, rfl⟩ (hout _)
  · exact ⟨rfl, rfl, rfl⟩

theorem blocksKept_coreForget (j : Nat) (s : State) (p : Nat) : BlocksKept s (coreForget j s p) := by
  unfold coreForget
  simp only
  split <;> exact ⟨rfl, rfl, rfl⟩

theorem blocksKept_endJob (j status reason detail : Nat) (s : State) : BlocksKept s (endJob j status reason detail s) := by
  unfold endJob
  split
  · split <;> exact ⟨rfl, rfl, rfl⟩
  · exact ⟨rfl, rfl, rfl⟩

/-- The state of a kernel's end before its job ends: the buffers written out, and the cores without the job. -/
def kernelLeft (j : Nat) (k : Kernel) (s : State) : State := k.cores.foldl (coreForget j) (kernelFlush j s)

theorem kernelLeft_fe (j : Nat) (k : Kernel) (s : State) : (kernelLeft j k s).fe = s.fe :=
  (foldl_keeps State.fe _ _ (fun s p _ => coreForget_fe j s p) _).trans (kernelFlush_fe j s)

theorem blocksKept_kernelLeft (j : Nat) (k : Kernel) (s : State) : BlocksKept s (kernelLeft j k s) :=
  (BlocksKept.foldl blocksKept_wbFlushAll _ s).trans (.foldl (blocksKept_coreForget j) _ _)

theorem kernelCheck_eq {j : Nat} {k : Kernel} {s : State} (hk : kernelOf j s = some k) : kernelCheck j s =
    if k.finished < kernelBlocks k || jobHasOps j s || k.pass then s else endJob j 0 0 0 (kernelLeft j k s) := by
  simp only [kernelCheck, hk]
  rfl

theorem blocksKept_kernelCheck {j : Nat} {k : Kernel} {s : State} (hk : kernelOf j s = some k) : BlocksKept s (kernelCheck j s) := by
  rw [kernelCheck_eq hk]
  split
  · exact ⟨rfl, rfl, rfl⟩
  · exact (blocksKept_kernelLeft j k s).trans (blocksKept_endJob _ _ _ _ _)

/-- A job that runs ends as it is given. -/
theorem fin_endJob {j : Nat} {s : State} (h : JobRuns j s) (status reason detail : Nat) :
    ∃ b, tabFind j (endJob j status reason detail s).fe.jobs = some b ∧ b.fin = some ⟨status, reason, detail⟩ := by
  obtain ⟨b, hb, hfin⟩ := h
  unfold endJob
  simp only [hb, hfin, Option.isSome_none, Bool.false_eq_true, if_false]
  exact ⟨_, tabFind_set_self _ _ _, rfl⟩

/-- The kernel's last block has finished: its job ends OK. -/
theorem fin_kernelCheck {j : Nat} {k : Kernel} {s : State} (hk : kernelOf j s = some k) (hf : kernelBlocks k ≤ k.finished)
    (ho : jobHasOps j s = false) (hp : k.pass = false) (hj : JobRuns j s) :
    ∃ b, tabFind j (kernelCheck j s).fe.jobs = some b ∧ b.fin = some ⟨0, 0, 0⟩ := by
  have hruns : JobRuns j (kernelLeft j k s) := by
    obtain ⟨b, hb, hfin⟩ := hj
    exact ⟨b, by rw [kernelLeft_fe]; exact hb, hfin⟩
  rw [kernelCheck_eq hk, if_neg (by simp [ho, hp, Nat.not_lt.2 hf])]
  exact fin_endJob hruns 0 0 0

/-- The kernel with one more finished block. -/
def oneFinished (k : Kernel) : Kernel := { k with finished := k.finished + 1 }

/-- The only block of its cluster, without a group and an operation, leaves its core. -/
theorem blockCheck_last {b : Nat} {v : Block} {k : Kernel} {s : State} (hb : blockOf b s = some v) (hpix : v.pix = false)
    (hc : clusterBlocks v.job v.bcl s = [(b, v)]) (hk : kernelOf v.job s = some k) (hl : blockLive b s = false)
    (ho : blockHasOps b s = false) :
    blockCheck b s = kernelCheck v.job (setKernel v.job (oneFinished k) (freeBlock b s)) := by
  have hk' : kernelOf v.job (freeBlock b s) = some k := hk
  simp [blockCheck, hb, hc, hl, ho, hpix, hk', oneFinished]

/-- What such a block leaves: it is gone, its local memory reads 0, and its kernel has counted it. -/
theorem blockCheck_last_does {b : Nat} {v : Block} {k : Kernel} {s : State} (hb : blockOf b s = some v) (hpix : v.pix = false)
    (hc : clusterBlocks v.job v.bcl s = [(b, v)]) (hk : kernelOf v.job s = some k) (hl : blockLive b s = false)
    (ho : blockHasOps b s = false) :
    blockOf b (blockCheck b s) = none ∧
    (∀ off, off < 2 ^ 19 → memByte zeroByte (blockCheck b s).mem.lm (lmKey b off) = 0) ∧
    kernelOf v.job (blockCheck b s) = some (oneFinished k) := by
  have hset : kernelOf v.job (setKernel v.job (oneFinished k) (freeBlock b s)) = some (oneFinished k) := kernelOf_setKernel_self _ _ _
  obtain ⟨hblocks, hkernels, hlm⟩ := blocksKept_kernelCheck hset
  rw [blockCheck_last hb hpix hc hk hl ho]
  refine ⟨?_, fun off hoff => ?_, ?_⟩
  · rw [blockOf, hblocks]
    exact tabFind_del_self b _
  · rw [hlm]
    exact memByte_memClear_in (by simp only [lmKey]; omega) _
  · rw [kernelOf, hkernels]
    exact hset

/-! ## The exit of threads (R101, R103) -/

/-- The group without the threads that exit. -/
def exitGroup (a : Iss) : Group :=
  let stay := a.cur.mask &&& ~~~ a.ex
  wsyncFree { a.x with
    live := a.x.live &&& ~~~ a.ex,
    paths := if stay = 0 then (match a.rest.reverse with | [] => [] | l :: r => l :: r.reverse)
      else { nextPath a with mask := stay } :: a.rest,
    turnOver := stay == 0, rays := a.x.rays.filter (fun r => !(a.ex.getLsbD r.1)) }

theorem exitAct_compute {a : Iss} (h : a.x.pix = none) (s : State) : exitAct a s = exitStep a s := by simp only [exitAct, h]

theorem exitStep_some {a : Iss} (hex : a.ex ≠ 0) (hl : a.x.live &&& ~~~ a.ex ≠ 0) (s : State) :
    exitStep a s = some (exitRecheck a.x.block (setGroup a.p a.g (exitGroup a) s)) := by
  unfold exitStep
  simp only [hex, hl, if_false]
  rfl

theorem exitStep_last {a : Iss} (hex : a.ex ≠ 0) (hl : a.x.live &&& ~~~ a.ex = 0) (s : State) :
    exitStep a s = some (blockCheck a.x.block (exitRecheck a.x.block
      (setCore a.p { coreOf a.p s with groups := tabDel a.g (coreOf a.p s).groups } s))) := by
  unfold exitStep
  simp only [hex, hl, if_false, if_true]

/-! ## The statement -/

theorem exec_exit (p : Fin 80) (g : Fin 64) (i : Insn) (s : State) :
    exec (.exit p g i) s = .next (tidyMem (issue p.val g.val i { op := some 0xBF } exitAct s)) := rfl

theorem exec_exit_issues {p : Fin 80} {g : Fin 64} {i : Insn} {x : Group} {cur : Path} {rest : List Path} {s t : State}
    (h : Issues p.val g.val { op := some 0xBF } i x cur rest s) (hpix : x.pix = none)
    (hact : exitStep ⟨p.val, g.val, x, cur, rest, exOf x i cur⟩ s = some t) : exec (.exit p g i) s = .next (tidyMem t) := by
  rw [exec_exit, issue_issues_noDst h rfl, exitAct_compute hpix, hact]
  rfl

/-- Settles O25: exits of some threads by the barriers that they end, those of the last ones by the end of their block and its kernel. -/
theorem exitsEndGroupsAndBlocks : Obligations.ExitsEndGroupsAndBlocks := by
  unfold Obligations.ExitsEndGroupsAndBlocks
  refine ⟨fun p g i x cur rest s hi hpix hex hl => ?_, fun p g i x cur rest b k s s1 hi hpix hex hl hb hbpix hc hk ho hgates hs1 => ?_⟩
  · have hrun := exec_exit_issues hi hpix (exitStep_some hex hl s)
    generalize hy : exitGroup ⟨p.val, g.val, x, cur, rest, exOf x i cur⟩ = y at hrun
    have hkept := waitsKept_exitRecheck x.block (setGroup p g y s)
    obtain ⟨f, hf⟩ := hkept.group p g
    rw [groupOf_setGroup_self, Option.map_some] at hf
    obtain ⟨hregs, hfe, hkernels, hbytes⟩ := hkept.frame
    generalize exitRecheck x.block (setGroup p g y s) = t at hrun hf hregs hfe hkernels hbytes
    exact ⟨tidyMem t, _, hrun, hf, by rw [← hy]; rfl, by rw [← hy]; rfl, by rw [← hy]; rfl, by rw [← hy]; rfl,
      hkernels, hregs, hfe, hbytes⟩
  · have hrun := exec_exit_issues hi hpix (exitStep_last hex hl s)
    rw [← hs1] at hrun
    have hkept := waitsKept_exitRecheck x.block s1
    have hrest := hkept.rest
    generalize ht1 : exitRecheck x.block s1 = t1 at hrun hkept hrest
    have hblocks : t1.cpt.blocks = s.cpt.blocks := by
      rw [← ht1, exitRecheck_blocks (s := s1) (by rw [hs1]; exact hgates), hs1]
      rfl
    have hmes (q : Nat) : (coreOf q t1).mes = (coreOf q s).mes := (hkept.mes q).trans (by
      rw [hs1]
      exact mes_setCore (v := { coreOf p s with groups := tabDel g.val (coreOf p s).groups }) rfl q)
    have hrest' : t1 = { s with cpt := { s.cpt with cores := t1.cpt.cores, blocks := t1.cpt.blocks } } := by
      rw [hrest, hs1]
      rfl
    have hkernels : t1.cpt.kernels = s.cpt.kernels := by rw [hrest']
    have hb1 : blockOf x.block t1 = some b := by rw [blockOf, hblocks]; exact hb
    refine ⟨fun hlive => ⟨_, hrun, ?_⟩, fun hdead => ⟨_, hrun, ?_⟩⟩
    · rw [blockCheck_live ((hkept.live _).trans hlive)]
      have hnone : groupOf p g s1 = none := by
        rw [hs1, groupOf, coreOf_setCore_self]
        exact tabFind_del_self _ _
      obtain ⟨f, hf⟩ := hkept.group p g
      refine ⟨by rw [hnone] at hf ⊢; exact hf, ⟨b, hb1⟩, hkernels, sameBytes_tidyMem_of_eq ?_ ?_ ?_⟩ <;> rw [hrest']
    · have hc1 : clusterBlocks b.job b.bcl t1 = [(x.block, b)] := by rw [clusterBlocks, hblocks]; exact hc
      have hk1 : kernelOf b.job t1 = some k := by rw [kernelOf, hkernels]; exact hk
      have hl1 : blockLive x.block t1 = false := (hkept.live _).trans hdead
      have ho1 : blockHasOps x.block t1 = false := (anyOp_of_mes hmes _).trans ho
      obtain ⟨hgone, hzero, hcount⟩ := blockCheck_last_does hb1 hbpix hc1 hk1 hl1 ho1
      refine ⟨hgone, fun off hoff => (memByte_canon _ _ _).trans (hzero off hoff), ⟨_, hcount, rfl⟩, fun hf hj hp hruns => ?_⟩
      have hruns1 : JobRuns b.job t1 := by
        rw [hrest']
        exact hruns
      rw [tidyMem_fe, blockCheck_last hb1 hbpix hc1 hk1 hl1 ho1]
      exact fin_kernelCheck (kernelOf_setKernel_self _ _ _) hf ((anyOp_of_mes hmes _).trans hj) hp hruns1

end Sys2Proof.Machine

/-!
PROOFS. The statement of 04_shader_cores.md on loads, stores and atomics of one thread. First the registers that a load writes and the
place that an access leads to, then the reads and writes of the SRAMs, of the write buffer and of HBM as one access makes them; then a
load, a store and an atomic of one thread; then the statement.
-/
namespace Sys2Proof.Machine
open Sys2Proof.Claims

/-! ## Registers of a thread (R95, R106) -/

theorem threadsOf_oneBit : ∀ th : Fin 32, threadsOf (oneBit th.val) = [th.val] := by decide

theorem oneBit_ne_zero : ∀ th : Fin 32, oneBit th.val ≠ 0 := by decide

theorem getLsbD_oneBit_self : ∀ th : Fin 32, (oneBit th.val).getLsbD th.val = true := by decide

theorem tabFind_regPut {t n k : Nat} (h : n ≠ 255 → k ≠ t * 512 + n) (v : Word) (x : Group) :
    tabFind k (regPut t n v x).regs = tabFind k x.regs := by
  unfold regPut
  split
  · rfl
  · next hn => exact tabFind_set_ne (h hn) _ _

theorem regOf_regPut_self {n : Nat} (h : n ≠ 255) (t : Nat) (v : Word) (x : Group) : regOf (regPut t n v x) t n = v := by
  simp [regOf, regPut, h]

theorem regOf_regPut_ne {n m : Nat} (h : m ≠ n) (t : Nat) (v : Word) (x : Group) : regOf (regPut t n v x) t m = regOf x t m := by
  have hkeep := tabFind_regPut (t := t) (n := n) (k := t * 512 + m) (fun _ => by omega) v x
  rw [regOf, hkeep, regPut_eq, regOf]

/-- What a load leaves in a group: its value in the destination, and no other register changed. -/
def LoadedOnly (x : Group) (th n m v : Nat) (d : BitVec 8) (rs : Tab Word) : Prop :=
  (d ≠ 255 → Loaded { x with regs := rs } th n d v) ∧ OnlyDst x { x with regs := rs } (oneBit th) d.toNat m

/-- A value of at most a register. -/
theorem regLoad_word {n : Nat} (hn : n ≤ 4) (th : Fin 32) (v : Nat) (d : BitVec 8) (x : Group) (s : State) : ∃ rs k,
    regLoad th.val d n v (x, s) = ({ x with regs := rs }, { s with free := k }) ∧ LoadedOnly x th.val n 1 v d rs := by
  obtain ⟨hfld, k, hfree⟩ := widen_does (n := 8 * n) (by omega) v s
  have hlt := d.isLt
  refine ⟨(regPut th d.toNat (widen (8 * n) v s).1 x).regs, k, ?_, fun hd => ⟨fun _ => ?_, fun h8 => by omega⟩,
    fun t j hj hout => ?_⟩
  · have h8 : ¬ (n = 8 ∧ d ≠ 255) := by omega
    simp only [regLoad, if_neg h8, hfree]
    rw [← regPut_eq]
  · have hd' : d.toNat ≠ 255 := fun h => hd (BitVec.eq_of_toNat_eq h)
    rw [← regPut_eq, regOf_regPut_self hd', hfld]
  · refine tabFind_regPut (fun hd hkey => hout ?_) _ x
    obtain ⟨rfl, rfl⟩ : t = th.val ∧ j = d.toNat := by omega
    exact ⟨getLsbD_oneBit_self th, hd, by omega, by omega⟩

/-- A value of a register pair, the low word first. -/
theorem regLoad_pair (th : Fin 32) (v : Nat) (d : BitVec 8) (x : Group) (s : State) : ∃ rs k,
    regLoad th.val d 8 v (x, s) = ({ x with regs := rs }, { s with free := k }) ∧ LoadedOnly x th.val 8 2 v d rs := by
  have hlt := d.isLt
  by_cases hd : d = 255
  · refine ⟨x.regs, s.free, ?_, fun h => absurd hd h, fun _ _ _ _ => rfl⟩
    simp [regLoad, widen, regPut, hd]
  · have hd' : d.toNat ≠ 255 := fun h => hd (BitVec.eq_of_toNat_eq h)
    have hput : { x with regs := (regPut th (d.toNat + 1) (w32 (v / 2 ^ 32)) (regPut th d.toNat (w32 v) x)).regs } =
        regPut th (d.toNat + 1) (w32 (v / 2 ^ 32)) (regPut th d.toNat (w32 v) x) := by
      rw [regPut_eq _ (d.toNat + 1), regPut_eq _ d.toNat]
    refine ⟨(regPut th (d.toNat + 1) (w32 (v / 2 ^ 32)) (regPut th d.toNat (w32 v) x)).regs, s.free, ?_,
      fun _ => ⟨fun h => by omega, fun _ => ⟨?_, fun h254 => ?_⟩⟩, fun t j hj hout => ?_⟩
    · have hwide : widen (8 * 8) v s = (w32 v, s) := if_pos (by omega)
      simp only [regLoad, hwide]
      rw [if_pos ⟨trivial, hd⟩, hput]
    · rw [hput, regOf_regPut_ne (by omega), regOf_regPut_self hd']
    · rw [hput, regOf_regPut_self (by omega)]
    · have hkey (e : Nat) (he : e = d.toNat ∨ e = d.toNat + 1) : e ≠ 255 → t * 512 + j ≠ th.val * 512 + e := fun _ hkey => by
        obtain ⟨rfl, rfl⟩ : t = th.val ∧ j = e := by omega
        exact hout ⟨getLsbD_oneBit_self th, hd', by omega, by omega⟩
      show tabFind _ (regPut _ _ _ _).regs = _
      rw [tabFind_regPut (hkey _ (.inr rfl)), tabFind_regPut (hkey _ (.inl rfl))]

theorem regLoad_does {n m : Nat} (h : n ≤ 4 ∧ m = 1 ∨ n = 8 ∧ m = 2) (th : Fin 32) (v : Nat) (d : BitVec 8) (x : Group)
    (s : State) :
    ∃ rs k, regLoad th.val d n v (x, s) = ({ x with regs := rs }, { s with free := k }) ∧ LoadedOnly x th.val n m v d rs := by
  rcases h with ⟨hn, rfl⟩ | ⟨rfl, rfl⟩
  · exact regLoad_word hn th v d x s
  · exact regLoad_pair th v d x s

/-- The bytes of an access width and the registers that it takes. -/
theorem accBytes_accRegs (w : AccW) : accBytes w ≤ 4 ∧ accRegs w = 1 ∨ accBytes w = 8 ∧ accRegs w = 2 := by
  cases w <;> simp [accBytes, accRegs]

/-- The registers of a value, from its bytes. -/
theorem regs_of_bytes {n m : Nat} (h : n ≤ 4 ∧ m = 1 ∨ n = 8 ∧ m = 2) : (if n = 8 then 2 else 1) = m := by
  rcases h with ⟨hn, rfl⟩ | ⟨rfl, rfl⟩
  · exact if_neg (by omega)
  · rfl

/-! ## The place of an access (R106, R107, R118, R119) -/

section
variable {i : Insn} {a : Iss} {t : Nat} (n : Nat) {s : State}

theorem placeOf_local {b d : Block} {k : Nat} (hl : LocalOf i a.x b k d s) (hb : blockOf a.x.block s = some b) :
    placeOf a i t n s = if (regOf a.x t i.src0.toNat).toNat + n ≤ d.size then .lm d.core k (regOf a.x t i.src0.toNat).toNat
      else .bad 0x0E := by
  rcases hl with ⟨hcode, rfl, rfl⟩ | ⟨hcode, hpeer⟩
  · simp only [placeOf, hcode, hb]
  · simp only [placeOf, hcode, hb, hpeer]

theorem placeOf_cluster (h : i.imm.toNat % 8 = 1) : placeOf a i t n s =
    if cmInside (groupSlot a.x s) (regOf a.x t i.src0.toNat).toNat n s then .cm (regOf a.x t i.src0.toNat).toNat
    else .bad 0x0F := by simp only [placeOf, h]

theorem placeOf_global (h : i.imm.toNat % 8 = 2) : placeOf a i t n s = .gl (regVal a.x t i.src0 2) := by simp only [placeOf, h]

theorem placeOf_none (h : 3 < i.imm.toNat % 8) : placeOf a i t n s = .bad 0x09 := by
  obtain ⟨m, hm⟩ : ∃ m, i.imm.toNat % 8 = m + 4 := ⟨i.imm.toNat % 8 - 4, by omega⟩
  simp only [placeOf, hm]

end

/-! ## The SRAMs without errors (R134, R135) -/

theorem lmRead_clean {s : State} (h : s.cpt.lmErr = []) (p b off n : Nat) : lmRead p b off n s = (some (lmBytes b off n s), s) := by
  simp [lmRead, h, lmBytes]

theorem cmRead_clean {s : State} (h : s.cpt.cmErr = []) (c slot off n : Nat) :
    cmRead c slot off n s = (some (memRead zeroByte s.mem.cmem (cmKey c slot off s) n), s) := by simp [cmRead, h]

/-- Bytes written to local memory: `errs` are the errors that words still hold. -/
def lmStored (b off : Nat) (bs : List Byte) (errs : Tab Bool) (s : State) : State :=
  { s with mem := { s.mem with lm := memWrite zeroByte (lmKey b off) bs s.mem.lm }, cpt := { s.cpt with lmErr := errs } }

theorem lmWrite_clean {p : Nat} {s : State} (h : bit (getReg (pgSc p) 0 0x028 s) 16 = false) (b off : Nat) (bs : List Byte) :
    ∃ errs, lmWrite p b off bs s = lmStored b off bs errs s := by
  cases bs with
  | nil => exact ⟨s.cpt.lmErr, rfl⟩
  | cons x bs =>
    unfold lmWrite
    simp only
    rw [coreInject_none]
    · exact ⟨_, rfl⟩
    · exact h

/-- Bytes written to cluster memory. -/
def cmStored (k : Nat) (bs : List Byte) (errs : Tab Bool) (s : State) : State :=
  { s with mem := { s.mem with cmem := memWrite zeroByte k bs s.mem.cmem }, cpt := { s.cpt with cmErr := errs } }

theorem cmWrite_clean {c : Nat} {s : State} (h : bit (getReg (pgCl c) 0 0x028 s) 16 = false) (slot off : Nat) (bs : List Byte) :
    ∃ errs, cmWrite c slot off bs s = cmStored (cmKey c slot off s) bs errs s := by
  cases bs with
  | nil => exact ⟨s.cpt.cmErr, rfl⟩
  | cons x bs =>
    unfold cmWrite
    simp only
    rw [takeInjection_none]
    · exact ⟨_, rfl⟩
    · exact h

theorem memRead_toLE_stored {d : Nat → Byte} (k n v : Nat) (m : Tab Byte) :
    memRead d (memCanon d (memWrite d k (toLE n v) m)) k n = toLE n v := by
  have h := memRead_write d (toLE n v) k m
  rw [length_toLE] at h
  rw [memRead_canon, h]

theorem memByte_toLE_stored {d : Nat → Byte} (n v : Nat) (m : Tab Byte) {k a : Nat} (h : a < k ∨ k + n ≤ a) :
    memByte d (memCanon d (memWrite d k (toLE n v) m)) a = memByte d m a := by
  rw [memByte_canon]
  exact memByte_write_out _ _ _ _ _ (by rwa [length_toLE])

/-! ## The write buffer (R122) -/

/-- Bytes put into an entry from an offset on. -/
def putBytes (off : Nat) (bs : List Byte) (t : Tab Byte) : Tab Byte :=
  (bs.foldl (fun (a : Nat × Tab Byte) b => (a.1 + 1, tabSet a.1 b a.2)) (off, t)).2

theorem putBytes_cons (off : Nat) (b : Byte) (bs : List Byte) (t : Tab Byte) :
    putBytes off (b :: bs) t = putBytes (off + 1) bs (tabSet off b t) := rfl

theorem tabFind_putBytes_below {k : Nat} : ∀ (bs : List Byte) {off : Nat} (t : Tab Byte), k < off →
    tabFind k (putBytes off bs t) = tabFind k t
  | [], _, _, _ => rfl
  | b :: bs, off, t, h => by
    rw [putBytes_cons, tabFind_putBytes_below bs _ (by omega), tabFind_set_ne (by omega)]

theorem tabFind_putBytes : ∀ {bs : List Byte} {off k : Nat} (t : Tab Byte), k < bs.length →
    tabFind (off + k) (putBytes off bs t) = some (nth 0 bs k)
  | b :: bs, off, 0, t, _ => by
    rw [putBytes_cons, Nat.add_zero, tabFind_putBytes_below bs _ (by omega), tabFind_set_self]
    rfl
  | b :: bs, off, k + 1, t, h => by
    rw [putBytes_cons, show off + (k + 1) = off + 1 + k by omega, tabFind_putBytes _ (by simpa using h)]
    rfl

/-- Bytes put into an empty write buffer are its one entry. -/
theorem wbPut_empty {p : Nat} {s : State} (h : (coreOf p s).wb = []) (slot line : Nat) (host : Option HostAttr) (pa off : Nat)
    (bs : List Byte) : wbPut p slot line host pa off bs s =
      setCore p { coreOf p s with wb := [⟨slot, line, host, pa, putBytes off bs []⟩] } s := by
  simp [wbPut, h, putBytes]

theorem wbByte_of_entry {p slot va : Nat} {s : State} {e : WbEnt} (h : (coreOf p s).wb = [e]) (hs : e.slot = slot)
    (hl : e.line = va / 64) : wbByte p slot va s = tabFind (va % 64) e.bytes := by
  simp [wbByte, h, hs, hl]

/-- An access that stays in a 64-byte line is one piece. -/
theorem linePieces_one {va : Nat} {bs : List Byte} (h : va % 64 + bs.length ≤ 64) (hb : bs ≠ []) :
    linePieces va bs = [(va / 64, va % 64, bs)] := by
  have hpos := List.length_pos_of_ne_nil hb
  have hchunk : chunksOf 64 va bs.length = [va / 64] := by
    have hlast : (va + bs.length - 1) / 64 = va / 64 := by omega
    rw [chunksOf, if_neg (by omega), hlast, Nat.sub_self]
    simp [span]
  have hlo : max va (va / 64 * 64) = va := by omega
  have hhi : min (va + bs.length) (va / 64 * 64 + 64) = va + bs.length := by omega
  have hoff : va - va / 64 * 64 = va % 64 := by omega
  simp [linePieces, hchunk, hlo, hhi, hoff]

theorem wbFlush_empty {p : Nat} {s : State} (h : (coreOf p s).wb = []) (f : WbEnt → Bool) : wbFlush p f s = s := by
  simp [wbFlush, h]

/-! ## A write of HBM after a read of the same bytes (R137, R140) -/

/-- HBM's bytes stay, the reading of the bytes that are not listed stays, and the regions that are being filled. -/
def HbmStays (s t : State) : Prop :=
  t.mem.hbm = s.mem.hbm ∧ t.hbc.stale = s.hbc.stale ∧ t.hbc.filling = s.hbc.filling

theorem HbmStays.trans {s t u : State} (h : HbmStays s t) (h' : HbmStays t u) : HbmStays s u := by
  obtain ⟨hm, hs, hf⟩ := h
  obtain ⟨hm', hs', hf'⟩ := h'
  exact ⟨hm'.trans hm, hs'.trans hs, hf'.trans hf⟩

theorem HbmStays.foldl {α : Type} {f : State → α → State} (h : ∀ s a, HbmStays s (f s a)) :
    ∀ (l : List α) (s : State), HbmStays s (l.foldl f s)
  | [], _ => ⟨rfl, rfl, rfl⟩
  | a :: l, s => (h s a).trans (HbmStays.foldl h l (f s a))

theorem Alters.hbmStays {R : Nat → Prop} {s t : State} (h : Alters R s t) : HbmStays s t := by
  obtain ⟨-, h⟩ := h
  exact ⟨by rw [h], by rw [h], by rw [h]⟩

theorem hbmStays_hbmUnitError (a : Nat) (ue scrub : Bool) (s : State) : HbmStays s (hbmUnitError a ue scrub s) := by
  have hlog := (alters_logHbmError a ue scrub s).hbmStays
  have hevent (i pg off : Nat) {u : State} (hu : HbmStays s u) : HbmStays s (fault i (count32 pg 0 off u)) :=
    hu.trans (((alters_count32 (R := fun _ => True) pg 0 off u trivial).trans (alters_fault i _ fun _ _ => trivial)).hbmStays)
  unfold hbmUnitError
  simp only
  split
  · exact hevent _ _ _ hlog
  · exact hevent _ _ _ (hlog.trans ⟨rfl, rfl, rfl⟩)

theorem hbmStays_hbmMerge (a n : Nat) (s : State) : HbmStays s (hbmMerge a n s) := by
  refine HbmStays.foldl (fun u e => ?_) _ s
  exact hbmStays_hbmUnitError e.1 false false u

theorem hbmStays_hbmErrors (a n : Nat) (scrub : Bool) (s : State) : HbmStays s (hbmErrors a n scrub s) := by
  refine HbmStays.foldl (fun u e => ?_) _ s
  exact hbmStays_hbmUnitError e.1 e.2.ue scrub u

theorem filling_regionFilled {r k : Nat} {s : State} :
    k ∈ (regionFilled r s).hbc.filling ↔ k ∈ s.hbc.filling ∧ k ≠ r := by
  unfold regionFilled
  by_cases hr : r ∈ s.hbc.filling
  · have hc : s.hbc.filling.contains r = true := List.contains_iff_mem.2 hr
    simp only [hc, if_true]
    split <;> simp [clearRegion, setFld, setReg]
  · have hc : s.hbc.filling.contains r = false := by simpa using hr
    simp only [hc, Bool.false_eq_true, if_false]
    exact ⟨fun h => ⟨h, fun hk => hr (hk ▸ h)⟩, fun h => h.1⟩

/-- No region whose fill was waited for is being filled. -/
theorem filling_settleFills {k : Nat} : ∀ (rs : List Nat) (s : State),
    k ∈ (settleFills rs s).hbc.filling → k ∈ s.hbc.filling ∧ k ∉ rs
  | [], s, h => ⟨h, by simp⟩
  | r :: rs, s, h => by
    obtain ⟨hk, hrs⟩ := filling_settleFills rs (regionFilled r s) h
    obtain ⟨hfill, hne⟩ := filling_regionFilled.1 hk
    exact ⟨hfill, by simp [hne, hrs]⟩

theorem settleFills_settled {rs : List Nat} {s : State} (h : ∀ r ∈ rs, r ∉ s.hbc.filling) : settleFills rs s = s :=
  foldl_fixed fun r hr => by
    have hc : s.hbc.filling.contains r = false := by simpa using h r hr
    simp only [regionFilled, hc, Bool.false_eq_true, if_false]

/-- The regions of a read of HBM are not being filled after it. -/
theorem not_filling_hbmRead {a n r : Nat} (hr : r ∈ chunksOf (2 ^ 21) a n) (s : State) : r ∉ (hbmRead a n s).2.hbc.filling := by
  obtain ⟨-, -, herrs⟩ := hbmStays_hbmErrors a n false (settleFills (chunksOf (2 ^ 21) a n) s)
  have hstate : (hbmRead a n s).2 = hbmErrors a n false (settleFills (chunksOf (2 ^ 21) a n) s) := by
    unfold hbmRead
    simp only
    split <;> rfl
  rw [hstate, herrs]
  exact fun h => (filling_settleFills _ _ h).2 hr

theorem touchRegions_mem (rs : List Nat) (s : State) : (rs.foldl touchRegion s).mem.hbm = s.mem.hbm ∧
    (rs.foldl touchRegion s).hbc.stale = s.hbc.stale := by
  obtain ⟨hs, hst, -⟩ := fillsOnly_touchRegions rs s
  exact ⟨by rw [hs], hst⟩

/-- A write of HBM whose regions are not being filled: the bytes that it writes are written, whatever errors its units hold and whether
or not an injection spoils one. -/
theorem hbmPut_settled {a : Nat} {bs : List Byte} {s : State} (h : ∀ r ∈ chunksOf (2 ^ 21) a bs.length, r ∉ s.hbc.filling) :
    (hbmPut a bs s).mem.hbm = memWrite (hbmDefault s.hbc.stale) a bs s.mem.hbm ∧ (hbmPut a bs s).hbc.stale = s.hbc.stale := by
  cases bs with
  | nil => exact ⟨rfl, rfl⟩
  | cons b bs =>
    obtain ⟨htm, hts⟩ := touchRegions_mem (chunksOf (2 ^ 21) a (b :: bs).length) s
    obtain ⟨hmm, hms, -⟩ := hbmStays_hbmMerge a (b :: bs).length ((chunksOf (2 ^ 21) a (b :: bs).length).foldl touchRegion s)
    have hinj (pg : Nat) (u : State) := (alters_takeInjection (R := fun _ => True) (pg := pg) trivial u).hbmStays
    unfold hbmPut
    simp only [settleFills_settled h]
    generalize hbmMerge a (b :: bs).length ((chunksOf (2 ^ 21) a (b :: bs).length).foldl touchRegion s) = u at hmm hms
    generalize hv : ({ u with
        mem := { u.mem with hbm := memWrite (hbmDefault u.hbc.stale) a (b :: bs) u.mem.hbm },
        hbc := { u.hbc with ecc := clearEcc a (b :: bs).length u.hbc.ecc } } : State) = v
    have hvm : v.mem.hbm = memWrite (hbmDefault s.hbc.stale) a (b :: bs) s.mem.hbm := by
      rw [← hv]
      show memWrite (hbmDefault u.hbc.stale) a (b :: bs) u.mem.hbm = _
      rw [hmm, hms, htm, hts]
    have hvs : v.hbc.stale = s.hbc.stale := by
      rw [← hv]
      exact hms.trans hts
    obtain ⟨him, his, -⟩ := hinj (pgHbc (stackOf a v)) v
    split <;> next heq => rw [heq] at him his; exact ⟨him.trans hvm, his.trans hvs⟩

/-- A value written to HBM is what its bytes read, and the other bytes read what they read before. -/
theorem hbmPut_toLE_stored {a n : Nat} {s : State} (h : ∀ r ∈ chunksOf (2 ^ 21) a n, r ∉ s.hbc.filling) (v : Nat) :
    memRead (hbmDefault (hbmPut a (toLE n v) s).hbc.stale)
      (memCanon (hbmDefault (hbmPut a (toLE n v) s).hbc.stale) (hbmPut a (toLE n v) s).mem.hbm) a n = toLE n v ∧
    ∀ b, b < a ∨ a + n ≤ b → memByte (hbmDefault (hbmPut a (toLE n v) s).hbc.stale)
      (memCanon (hbmDefault (hbmPut a (toLE n v) s).hbc.stale) (hbmPut a (toLE n v) s).mem.hbm) b =
        memByte (hbmDefault s.hbc.stale) s.mem.hbm b := by
  obtain ⟨hmem, hstale⟩ := hbmPut_settled (bs := toLE n v) (by rw [length_toLE]; exact h)
  rw [hmem, hstale]
  exact ⟨memRead_toLE_stored _ _ _ _, fun b hb => memByte_toLE_stored _ _ _ hb⟩

end Sys2Proof.Machine

/-!
PROOFS. Loads, stores and atomics of one thread, case by case of the place that the access leads to, and their statement.
-/
namespace Sys2Proof.Machine
open Sys2Proof.Claims

/-! ## A load by one thread (R106, R107, R118, R121) -/

section
variable {a : Iss} {i : Insn} {n t : Nat} {s : State}

theorem loadOne_bad {reason : Nat} (h : placeOf a i t n s = .bad reason) :
    loadOne a i n t { x := a.x, s := s } = { x := a.x, s := insnFault a reason s, dead := true } := by
  simp [loadOne, h, Run.die]

theorem loadOne_local {core b off : Nat} (h : placeOf a i t n s = .lm core b off) (he : s.cpt.lmErr = []) :
    loadOne a i n t { x := a.x, s := s } =
      { x := (regLoad t i.dst n (leNat (lmBytes b off n s)) (a.x, s)).1,
        s := (regLoad t i.dst n (leNat (lmBytes b off n s)) (a.x, s)).2 } := by
  simp [loadOne, h, lmRead_clean he]

theorem loadOne_cluster {off v : Nat} (h : placeOf a i t n s = .cm off) (he : s.cpt.cmErr = [])
    (hv : v = leNat (memRead zeroByte s.mem.cmem (cmKey (a.p / 5) (groupSlot a.x s) off s) n)) :
    loadOne a i n t { x := a.x, s := s } =
      { x := (regLoad t i.dst n v (a.x, s)).1, s := (regLoad t i.dst n v (a.x, s)).2 } := by
  simp [loadOne, h, cmRead_clean he, hv]

theorem loadOne_global {va v : Nat} {bs : List Byte} {s1 : State} (h : placeOf a i t n s = .gl va)
    (hr : vaReadAll a.p (groupSlot a.x s) va n .rd s = (.ok bs, s1)) (hv : v = leNat (wbOverlay a.p (groupSlot a.x s) va bs s1)) :
    loadOne a i n t { x := a.x, s := s } =
      { x := (regLoad t i.dst n v (a.x, s1)).1, s := (regLoad t i.dst n v (a.x, s1)).2,
        host := hostPieces a.p a.g t (groupSlot a.x s) va n i.dst.toNat s1 } := by
  simp [loadOne, h, hr, hv]

end

/-- The end of a load: the group goes on, or waits for its host reads. -/
def loadEnd (a : Iss) (r : Run) : Option State :=
  if r.dead then some r.s
  else if r.host = [] then some (advance a r.x r.s)
  else if 1024 < r.s.pci.reads.length + r.host.length then none
  else
    some (setGroup a.p a.g { r.x with paths := { nextPath a with wait := some .data } :: a.rest }
      (r.host.foldl (fun s h => hostIssue h.slot h.attr h.va h.addr h.len h.waiter s) r.s))

theorem loadStep_oneThread {a : Iss} {th : Fin 32} (h : a.ex = oneBit th.val) (w : AccW) (i : Insn) (s : State) :
    loadStep w i a s = loadEnd a (loadOne a i (accBytes w) th { x := a.x, s := s }) := by
  unfold loadStep
  rw [h, threadsOf_oneBit]
  rfl

/-- Host reads change PCIe's state and the output alone. -/
theorem hostIssue_frame (slot : Nat) (q : HostAttr) (va addr len : Nat) (w : HostWaiter) (s : State) :
    ∃ r o, hostIssue slot q va addr len w s = { s with pci := r, out := o } := by
  unfold hostIssue
  split
  · exact ⟨s.pci, s.out, rfl⟩
  · exact ⟨_, _, rfl⟩

theorem hostIssues_frame : ∀ (l : List HostRd) (s : State),
    ∃ r o, l.foldl (fun s h => hostIssue h.slot h.attr h.va h.addr h.len h.waiter s) s = { s with pci := r, out := o }
  | [], s => ⟨s.pci, s.out, rfl⟩
  | h :: l, s => by
    obtain ⟨r, o, hs⟩ := hostIssue_frame h.slot h.attr h.va h.addr h.len h.waiter s
    obtain ⟨r', o', hl⟩ := hostIssues_frame l { s with pci := r, out := o }
    refine ⟨r', o', ?_⟩
    rw [List.foldl_cons, hs, hl]

theorem exec_load (p : Fin 80) (g : Fin 64) (w : AccW) (i : Insn) (s : State) : exec (.load p g w i) s =
    .next (tidyMem (issue p.val g.val i (memUses i (accRegs w) 0 0) (loadStep w i) s)) := rfl

section
variable {p : Fin 80} {g : Fin 64} {w : AccW} {i : Insn} {x : Group} {cur : Path} {rest : List Path} {th : Fin 32} {s : State}
  (hi : Issues p.val g.val (memUses i (accRegs w) 0 0) i x cur rest s) (hex : exOf x i cur = oneBit th.val)
include hi hex

/-- A load that faults. -/
theorem load_faults {reason : Nat} (h : placeOf ⟨p.val, g.val, x, cur, rest, exOf x i cur⟩ i th (accBytes w) s = .bad reason) :
    ∃ t, exec (.load p g w i) s = .next t ∧ JobFault x.job reason (insnDetail p.val cur s) t := by
  refine ⟨_, exec_load p g w i s, jobFault_issue hi ?_⟩
  rw [loadStep_oneThread hex, loadOne_bad h]
  rfl

/-- A load that delivers its value at once. -/
theorem load_delivers {rs : Tab Word} {u : State}
    (h : loadOne ⟨p.val, g.val, x, cur, rest, exOf x i cur⟩ i (accBytes w) th { x := x, s := s } =
      { x := { x with regs := rs }, s := u })
    (hu : getReg (pgSc p.val) 0 0x028 u = getReg (pgSc p.val) 0 0x028 s) :
    exec (.load p g w i) s = .next (tidyMem (setGroup p.val g.val { stepped x cur rest with regs := rs } u)) := by
  rw [exec_load, issue_putBack hi (y := { stepped x cur rest with regs := rs }) (t := setGroup p.val g.val _ u) ?_
    (groupOf_setGroup_self _ _ _ u) rfl hu]
  rw [loadStep_oneThread hex, h]
  rfl

/-- A load of an SRAM: the value in its registers, and nothing else changed. -/
theorem load_sram {v : Nat} (h : loadOne ⟨p.val, g.val, x, cur, rest, exOf x i cur⟩ i (accBytes w) th { x := x, s := s } =
    { x := (regLoad th i.dst (accBytes w) v (x, s)).1, s := (regLoad th i.dst (accBytes w) v (x, s)).2 }) :
    ∃ t y, exec (.load p g w i) s = .next t ∧ groupOf p.val g.val t = some y ∧ y = { stepped x cur rest with regs := y.regs } ∧
      (i.dst ≠ 255 → Loaded y th.val (accBytes w) i.dst v) ∧ OnlyDst x y (exOf x i cur) i.dst.toNat (accRegs w) ∧
      OtherWork p.val g.val s t ∧ t.regs = s.regs ∧ SameBytes s t := by
  obtain ⟨rs, k, hload, hloaded, hdst⟩ := regLoad_does (accBytes_accRegs w) th v i.dst x s
  rw [hload] at h
  obtain ⟨hgrp, hwork, -, -, hbytes⟩ := setGroup_frame (alters_free (fun _ => False) k s) p g { stepped x cur rest with regs := rs }
  exact ⟨_, _, load_delivers hi hex h rfl, hgrp, rfl, hloaded, hex ▸ hdst, hwork, rfl, hbytes⟩

/-- A load of global space whose bytes lie in HBM, or whose host reads its path waits for. -/
theorem load_global {va v : Nat} {bs : List Byte} {h : List HostRd} {s1 : State} (hc : i.imm.toNat % 8 = 2)
    (hva : va = regVal x th.val i.src0 2) (hr : vaReadAll p.val (groupSlot x s) va (accBytes w) .rd s = (.ok bs, s1))
    (hv : v = leNat (wbOverlay p.val (groupSlot x s) va bs s1))
    (hh : h = hostPieces p.val g.val th.val (groupSlot x s) va (accBytes w) i.dst.toNat s1) :
    (h = [] → ∃ t y, exec (.load p g w i) s = .next t ∧ groupOf p.val g.val t = some y ∧
      y = { stepped x cur rest with regs := y.regs } ∧ (i.dst ≠ 255 → Loaded y th.val (accBytes w) i.dst v) ∧ SameBytes s1 t) ∧
    (h ≠ [] → s1.pci.reads.length + h.length ≤ 1024 → ∃ t y, exec (.load p g w i) s = .next t ∧
      groupOf p.val g.val t = some y ∧
      y = { x with paths := { onward cur with wait := some .data } :: rest, regs := y.regs } ∧ SameBytes s1 t) := by
  have hkept : AccessKept s s1 := by
    have hread := accessKept_vaReadAll p.val (groupSlot x s) va (accBytes w) .rd s
    rwa [hr] at hread
  have hinj : getReg (pgSc p.val) 0 0x028 s1 = getReg (pgSc p.val) 0 0x028 s :=
    hkept.getReg (by have := p.isLt; simp only [pgSc, pgFe]; omega) (by omega) (by omega)
  obtain ⟨rs, k, hload, hloaded, -⟩ := regLoad_does (accBytes_accRegs w) th v i.dst x s1
  have hone := loadOne_global (a := ⟨p.val, g.val, x, cur, rest, exOf x i cur⟩) (i := i) (t := th.val)
    ((placeOf_global _ hc).trans (by rw [hva])) hr hv
  rw [← hh, hload] at hone
  refine ⟨fun hnil => ?_, fun hne htags => ?_⟩
  · rw [hnil] at hone
    exact ⟨_, _, load_delivers hi hex hone hinj, groupOf_setGroup_self _ _ _ _, rfl, hloaded, sameBytes_tidyMem_of_eq rfl rfl rfl⟩
  · obtain ⟨r, o, hissue⟩ := hostIssues_frame h { s1 with free := k }
    have hact : loadStep w i ⟨p.val, g.val, x, cur, rest, exOf x i cur⟩ s = some (setGroup p.val g.val
        { x with paths := { onward cur with wait := some .data } :: rest, regs := rs } { s1 with pci := r, out := o, free := k }) := by
      rw [loadStep_oneThread hex, hone, loadEnd, if_neg Bool.false_ne_true, if_neg hne, if_neg (Nat.not_lt.2 htags)]
      simp only [hissue]
      rfl
    have hrun := exec_load p g w i s
    rw [issue_putBack hi hact (groupOf_setGroup_self _ _ _ _) rfl hinj] at hrun
    exact ⟨_, _, hrun, groupOf_setGroup_self _ _ _ _, rfl, sameBytes_tidyMem_of_eq rfl rfl rfl⟩

end

/-! ## A store by one thread (R122) -/

/-- The end of a store or an atomic. -/
def accessEnd (a : Iss) (r : Run) : Option State := if r.dead then some r.s else some (advance a r.x r.s)

theorem calm_eq {p g : Nat} {x : Group} {cur : Path} {rest : List Path} {ex : BitVec 32} (hex : ex ≠ 0) (hd : cur.demoted = false) :
    calm ⟨p, g, x, cur, rest, ex⟩ = ⟨p, g, x, { cur with back := 0 }, rest, ex⟩ := by
  obtain ⟨⟩ := cur
  subst hd
  exact if_neg hex

section
variable {p g : Nat} {x : Group} {cur : Path} {rest : List Path} {ex : BitVec 32} {th : Fin 32} (hex : ex = oneBit th.val)
  (hd : cur.demoted = false)
include hex hd

theorem storeStep_oneThread (w : AccW) (i : Insn) (s : State) : storeStep w i ⟨p, g, x, cur, rest, ex⟩ s =
    accessEnd ⟨p, g, x, { cur with back := 0 }, rest, ex⟩
      (storeOne ⟨p, g, x, { cur with back := 0 }, rest, ex⟩ i (accBytes w) th { x := x, s := s }) := by
  have hcalm := calm_eq (p := p) (g := g) (x := x) (rest := rest) (hex ▸ oneBit_ne_zero th) hd
  unfold storeStep
  rw [hcalm]
  simp only [hex, threadsOf_oneBit]
  rfl

theorem atomicStep_oneThread {op : AtomOp} {w64 : Bool} (hop : ¬ (w64 = true ∧ op = .fadd)) (i : Insn) (s : State) :
    atomicStep op w64 i ⟨p, g, x, cur, rest, ex⟩ s = accessEnd ⟨p, g, x, { cur with back := 0 }, rest, ex⟩
      (atomicOne ⟨p, g, x, { cur with back := 0 }, rest, ex⟩ op i (if w64 then 8 else 4) th { x := x, s := s }) := by
  have hcalm := calm_eq (p := p) (g := g) (x := x) (rest := rest) (hex ▸ oneBit_ne_zero th) hd
  have hfadd : (w64 && op == .fadd) = false := by
    rw [Bool.eq_false_iff]
    simpa using hop
  unfold atomicStep
  rw [hfadd, if_neg Bool.false_ne_true, hcalm]
  simp only [hex, threadsOf_oneBit]
  rfl

end

section
variable {a : Iss} {i : Insn} {n m t : Nat} {s : State} (hm : (if n = 8 then 2 else 1) = m)
include hm

theorem storeOne_local {core b off : Nat} (h : placeOf a i t n s = .lm core b off) :
    storeOne a i n t { x := a.x, s := s } = { x := a.x, s := lmWrite core b off (toLE n (regVal a.x t i.src1 m)) s } := by
  simp [storeOne, h, hm]

theorem storeOne_cluster {off : Nat} {b : Block} {u : State} (h : placeOf a i t n s = .cm off)
    (hu : cmWrite (a.p / 5) (groupSlot a.x s) off (toLE n (regVal a.x t i.src1 m)) s = u) (hb : blockOf a.x.block u = some b) :
    storeOne a i n t { x := a.x, s := s } = { x := a.x, s := setBlock a.x.block { b with stored := true } u } := by
  simp [storeOne, h, hm, hu, hb]

/-- A store that stays in a line and whose translation leads to memory is one put into the write buffer. -/
theorem storeOne_global {va : Nat} {bs : List Byte} {d : Dest} {s1 : State} (hbs : bs = toLE n (regVal a.x t i.src1 m))
    (h : placeOf a i t n s = .gl va) (hn : 0 < n) (hl : va % 64 + n ≤ 64)
    (hx : translate a.p (groupSlot a.x s) va .wr s = (.ok d, s1)) (hd : d ≠ .needAts) :
    ∃ host pa, storeOne a i n t { x := a.x, s := s } =
      { x := a.x, s := wbPut a.p (groupSlot a.x s) (va / 64) host pa (va % 64) bs s1 } := by
  have hlen : bs.length = n := by rw [hbs, length_toLE]
  have hpieces := linePieces_one (va := va) (bs := bs) (by rw [hlen]; exact hl) (List.ne_nil_of_length_pos (by rw [hlen]; exact hn))
  have hline : va / 64 * 64 + va % 64 = va := by omega
  cases d with
  | hbm pa => exact ⟨none, pa - va % 64, by simp [storeOne, h, hm, ← hbs, hpieces, hline, hx]⟩
  | host pa q => exact ⟨some q, pa - va % 64, by simp [storeOne, h, hm, ← hbs, hpieces, hline, hx]⟩
  | needAts => exact absurd rfl hd

end

theorem exec_store (p : Fin 80) (g : Fin 64) (w : AccW) (i : Insn) (s : State) : exec (.store p g w i) s =
    .next (tidyMem (issue p.val g.val i (memUses i 0 (accRegs w) 0) (storeStep w i) s)) := rfl

/-- The group after a store or an atomic: its path starts a new count of backward branches (R98). -/
abbrev calmed (x : Group) (cur : Path) (rest : List Path) : Group := { x with paths := { onward cur with back := 0 } :: rest }

/-- A store that is performed. -/
theorem store_performs {p : Fin 80} {g : Fin 64} {w : AccW} {i : Insn} {x : Group} {cur : Path} {rest : List Path} {th : Fin 32}
    {s u : State} (hi : Issues p.val g.val (memUses i 0 (accRegs w) 0) i x cur rest s) (hex : exOf x i cur = oneBit th.val)
    (h : storeOne ⟨p.val, g.val, x, { cur with back := 0 }, rest, exOf x i cur⟩ i (accBytes w) th { x := x, s := s } =
      { x := x, s := u }) : exec (.store p g w i) s = .next (tidyMem (setGroup p.val g.val (calmed x cur rest) u)) := by
  rw [exec_store, issue_issues_noDst hi rfl, storeStep_oneThread hex (not_demoted_of_issues hi), h]
  rfl

/-! ## An atomic by one thread (R130) -/

/-- The bytes and the registers of an atomic's operand. -/
theorem atomic_bytes {w64 : Bool} {n m : Nat} (hm : m = if w64 then 2 else 1) (hn : n = 4 * m) :
    (if w64 then 8 else 4) = n ∧ (n ≤ 4 ∧ m = 1 ∨ n = 8 ∧ m = 2) := by
  cases w64 <;> simp at hm <;> subst hm hn <;> simp

section
variable {a : Iss} {op : AtomOp} {i : Insn} {n m t old new : Nat} {s : State} (hm : (if n = 8 then 2 else 1) = m)
  (hnew : new = atomVal op n old (regVal a.x t i.src1 m) (regVal a.x t i.src2 m))
include hm hnew

theorem atomicOne_local {core b off : Nat} (hc : i.imm.toNat % 8 ≠ 2) (ha : (regOf a.x t i.src0.toNat).toNat % n = 0)
    (h : placeOf a i t n s = .lm core b off) (he : s.cpt.lmErr = []) (hold : old = leNat (lmBytes b off n s)) :
    atomicOne a op i n t { x := a.x, s := s } =
      { x := (regLoad t i.dst n old (a.x, lmWrite core b off (toLE n new) s)).1,
        s := (regLoad t i.dst n old (a.x, lmWrite core b off (toLE n new) s)).2 } := by
  simp [atomicOne, hc, ha, h, lmRead_clean he, hm, ← hold, hnew]

theorem atomicOne_hbm {va pa : Nat} {bs : List Byte} {s1 s2 : State} (hc : i.imm.toNat % 8 = 2) (hva : va = regVal a.x t i.src0 2)
    (ha : va % n = 0) (hx : translate a.p (groupSlot a.x s) va .at s = (.ok (.hbm pa), s1)) (hwb : (coreOf a.p s1).wb = [])
    (hr : hbmRead pa n s1 = (some bs, s2)) (hold : old = leNat bs) :
    atomicOne a op i n t { x := a.x, s := s } =
      { x := (regLoad t i.dst n old (a.x, hbmPut pa (toLE n new) s2)).1,
        s := (regLoad t i.dst n old (a.x, hbmPut pa (toLE n new) s2)).2 } := by
  subst hva
  simp [atomicOne, hc, ha, placeOf_global n hc, hx, wbFlush_empty hwb, hr, hm, ← hold, hnew]

end

theorem exec_atomic {m : Nat} {w64 : Bool} (hm : m = if w64 then 2 else 1) (p : Fin 80) (g : Fin 64) (op : AtomOp) (i : Insn) (s : State) :
    exec (.atomic p g op w64 i) s = .next (tidyMem (issue p.val g.val i (memUses i m m (if op = .cas then m else 0))
      (atomicStep op w64 i) s)) := by
  subst hm
  rfl

/-- An atomic that is performed: the old value in its registers, the state `u` otherwise. -/
theorem atomic_performs {p : Fin 80} {g : Fin 64} {op : AtomOp} {w64 : Bool} {i : Insn} {x : Group} {cur : Path} {rest : List Path}
    {th : Fin 32} {n m old : Nat} {s u : State} (hm : m = if w64 then 2 else 1) (hn : n = 4 * m)
    (hi : Issues p.val g.val (memUses i m m (if op = .cas then m else 0)) i x cur rest s) (hop : ¬ (w64 = true ∧ op = .fadd))
    (hex : exOf x i cur = oneBit th.val)
    (h : atomicOne ⟨p.val, g.val, x, { cur with back := 0 }, rest, exOf x i cur⟩ op i n th { x := x, s := s } =
      { x := (regLoad th i.dst n old (x, u)).1, s := (regLoad th i.dst n old (x, u)).2 })
    (hu : getReg (pgSc p.val) 0 0x028 u = getReg (pgSc p.val) 0 0x028 s) : ∃ y k,
    exec (.atomic p g op w64 i) s = .next (tidyMem (setGroup p.val g.val y { u with free := k })) ∧
      y = { calmed x cur rest with regs := y.regs } ∧ (i.dst ≠ 255 → Loaded y th.val n i.dst old) ∧
      OnlyDst x y (exOf x i cur) i.dst.toNat m := by
  obtain ⟨hbytes, hregs⟩ := atomic_bytes hm hn
  obtain ⟨rs, k, hload, hloaded, hdst⟩ := regLoad_does hregs th old i.dst x u
  rw [hload] at h
  refine ⟨{ calmed x cur rest with regs := rs }, k, ?_, rfl, hloaded, hex ▸ hdst⟩
  have hact : atomicStep op w64 i ⟨p.val, g.val, x, cur, rest, exOf x i cur⟩ s =
      some (setGroup p.val g.val { calmed x cur rest with regs := rs } { u with free := k }) := by
    rw [atomicStep_oneThread hex (not_demoted_of_issues hi) hop, hbytes, h]
    rfl
  rw [exec_atomic hm, issue_putBack hi hact (groupOf_setGroup_self _ _ _ _) rfl hu]

/-! ## The statement -/

/-- Settles O23: a load by the registers that it writes, a store and an atomic by the bytes that they write, each at the place that its
address leads to. -/
theorem loadsStoresAndAtomics : Obligations.LoadsStoresAndAtomics := by
  unfold Obligations.LoadsStoresAndAtomics
  refine ⟨fun p g w i x cur rest th off n k b d s hi hex hb hoff hn hclean => ?_,
    fun p g w i x cur rest th va n bs h s s1 hi hex hc hva hn hr hh => ?_,
    fun p g w i x cur rest th off n k b d s hi hex hb hoff hn => ?_,
    fun p g w i x cur rest th va n d s s1 hi hex hc hva hn hl hx hd hwb => ?_,
    fun p g op w64 i x cur rest th off n m k b d s hm hn hi hop hex hb hl hoff hclean ha hfit => ?_,
    fun p g op w64 i x cur rest th va n m pa bs s s1 s2 hm hn hi hop hex hc hva ha hx hwb hr => ?_⟩
  · subst hoff hn
    obtain ⟨hlm, hcm, -, -⟩ := hclean
    refine ⟨fun hl hfit => ?_, fun hc hfit => ?_, fun hl hout => ?_, fun hc hout => ?_, fun hc => ?_⟩
    · exact load_sram hi hex (loadOne_local ((placeOf_local _ hl hb).trans (if_pos hfit)) hlm)
    · exact load_sram hi hex (loadOne_cluster ((placeOf_cluster _ hc).trans (if_pos hfit)) hcm rfl)
    · exact load_faults hi hex ((placeOf_local _ hl hb).trans (if_neg (Nat.not_le.2 hout)))
    · exact load_faults hi hex ((placeOf_cluster _ hc).trans (if_neg (by rw [hout]; exact Bool.false_ne_true)))
    · exact load_faults hi hex (placeOf_none _ hc)
  · subst hn
    exact load_global hi hex hc hva hr rfl hh
  · subst hoff hn
    have hm := regs_of_bytes (accBytes_accRegs w)
    refine ⟨fun hl hfit hclean => ?_, fun hc hfit hclean => ?_⟩
    · obtain ⟨-, -, hinj, -⟩ := hclean
      obtain ⟨errs, hput⟩ := lmWrite_clean hinj k (regOf x th i.src0.toNat).toNat (toLE (accBytes w) (regVal x th i.src1 (accRegs w)))
      have hone := storeOne_local (a := ⟨p.val, g.val, x, { cur with back := 0 }, rest, exOf x i cur⟩) (i := i) (t := th.val) hm
        ((placeOf_local _ hl hb).trans (if_pos hfit))
      rw [hput] at hone
      exact ⟨_, store_performs hi hex hone, groupOf_setGroup_self _ _ _ _, memRead_toLE_stored _ _ _ _,
        fun a ha => memByte_toLE_stored _ _ _ ha, rfl, rfl,
        ⟨fun q hq => coreOf_setGroup_ne hq _ _ _, fun e he => groupOf_setGroup_ne he _ _ _, rfl, rfl⟩, rfl⟩
    · obtain ⟨-, -, -, hinj⟩ := hclean
      obtain ⟨errs, hput⟩ := cmWrite_clean hinj (groupSlot x s) (regOf x th i.src0.toNat).toNat
        (toLE (accBytes w) (regVal x th i.src1 (accRegs w)))
      have hone := storeOne_cluster (a := ⟨p.val, g.val, x, { cur with back := 0 }, rest, exOf x i cur⟩) (i := i) (t := th.val)
        (b := b) hm ((placeOf_cluster _ hc).trans (if_pos hfit)) hput hb
      exact ⟨_, store_performs hi hex hone, groupOf_setGroup_self _ _ _ _, memRead_toLE_stored _ _ _ _,
        fun a ha => memByte_toLE_stored _ _ _ ha, blockOf_setBlock_self _ _ _, rfl, rfl⟩
  · subst hn
    have hm := regs_of_bytes (accBytes_accRegs w)
    obtain ⟨host, pa, hone⟩ := storeOne_global (a := ⟨p.val, g.val, x, { cur with back := 0 }, rest, exOf x i cur⟩) (i := i)
      (t := th.val) hm rfl ((placeOf_global _ hc).trans (by rw [hva])) (by cases w <;> decide) hl hx hd
    rw [wbPut_empty hwb] at hone
    refine ⟨_, store_performs hi hex hone, fun k hk => ?_, sameBytes_tidyMem_of_eq rfl rfl rfl⟩
    rw [wbByte_of_entry (e := ⟨groupSlot x s, va / 64, host, pa,
        putBytes (va % 64) (toLE (accBytes w) (regVal x th i.src1 (accRegs w))) []⟩)
      (by rw [coreOf_tidyMem, setGroup, coreOf_setCore_self, coreOf_setCore_self]) rfl (by show va / 64 = _; omega),
      show (va + k) % 64 = va % 64 + k by omega]
    exact tabFind_putBytes _ (by rw [length_toLE]; exact hk)
  · subst hoff
    obtain ⟨hlm, -, hinj, -⟩ := hclean
    obtain ⟨-, hregs⟩ := atomic_bytes hm hn
    have hc : i.imm.toNat % 8 ≠ 2 := by
      rcases hl with ⟨h, -⟩ | ⟨h, -⟩ <;> omega
    obtain ⟨errs, hput⟩ := lmWrite_clean hinj k (regOf x th i.src0.toNat).toNat (toLE n (atomVal op n
      (leNat (lmBytes k (regOf x th i.src0.toNat).toNat n s)) (regVal x th i.src1 m) (regVal x th i.src2 m)))
    have hone := atomicOne_local (a := ⟨p.val, g.val, x, { cur with back := 0 }, rest, exOf x i cur⟩) (op := op) (i := i) (t := th.val)
      (regs_of_bytes hregs) rfl hc ha ((placeOf_local _ hl hb).trans (if_pos hfit)) hlm rfl
    rw [hput] at hone
    obtain ⟨y, j, hrun, hy, hloaded, hdst⟩ := atomic_performs hm hn hi hop hex hone rfl
    exact ⟨_, y, hrun, groupOf_setGroup_self _ _ _ _, hy, hloaded, hdst, memRead_toLE_stored _ _ _ _,
      fun a ha => memByte_toLE_stored _ _ _ ha, rfl, rfl⟩
  · obtain ⟨-, hregs⟩ := atomic_bytes hm hn
    have hone := atomicOne_hbm (a := ⟨p.val, g.val, x, { cur with back := 0 }, rest, exOf x i cur⟩) (op := op) (i := i) (t := th.val)
      (regs_of_bytes hregs) rfl hc hva ha hx hwb hr rfl
    have hkept : AccessKept s s2 := by
      have hwalk := accessKept_translate p.val (groupSlot x s) va .at s
      have hread := accessKept_hbmRead pa n s1
      rw [hx] at hwalk
      rw [hr] at hread
      exact hwalk.trans hread
    have hready : ∀ r ∈ chunksOf (2 ^ 21) pa n, r ∉ s2.hbc.filling := fun r hmem => by
      have h := not_filling_hbmRead hmem s1
      rwa [hr] at h
    generalize atomVal op n (leNat bs) (regVal x th i.src1 m) (regVal x th i.src2 m) = v at hone ⊢
    have hinj : getReg (pgSc p.val) 0 0x028 (hbmPut pa (toLE n v) s2) = getReg (pgSc p.val) 0 0x028 s :=
      (hkept.trans (accessKept_hbmPut pa (toLE n v) s2)).getReg
        (by have := p.isLt; simp only [pgSc, pgFe]; omega) (by omega) (by omega)
    obtain ⟨hwritten, hothers⟩ := hbmPut_toLE_stored hready v
    obtain ⟨y, j, hrun, hy, hloaded, hdst⟩ := atomic_performs hm hn hi hop hex hone hinj
    exact ⟨_, y, hrun, groupOf_setGroup_self _ _ _ _, hy, hloaded, hdst, hwritten, hothers⟩

end Sys2Proof.Machine

/-!
PROOFS. The statement of 04_shader_cores.md on the commands that start jobs. First a command that its stream takes and the room for its
record, then the state of a queue whose job has begun, what a name and a descriptor read, and a transfer that takes a channel; then the
statement.
-/
namespace Sys2Proof.Machine
open Sys2Proof.Claims

/-! ## A command that its stream takes (R184, R185) -/

theorem streamOf_took (o o' : Owner) (c : List Word) (s : State) : streamOf o (took o' c s) = streamOf o s := by cases o <;> rfl

/-- A command that its stream takes is what the row's action makes of it. -/
theorem onCommand_takes {f : Fetcher} {c : List Word} {level : Nat} {s s1 : State} (h : Takes f c level s s1)
    {sel : List Word → Bool} (hsel : sel c = true) (act : Owner → List Word → Nat → State → Option State) :
    onCommand f sel act s = (act (ownerOf f) c level s1).getD s := by
  obtain ⟨s', ⟨s0, ⟨hfetch, va, bs, hpos, hread, hc⟩, hchosen, rfl⟩, hcond, hbatch, rfl, hbad, hwait⟩ := h
  rw [streamOf_took] at hcond hbatch
  unfold onCommand
  simp only [hfetch, hpos, hread, ← hc, hsel, hchosen, hcond, hbatch, hbad, hwait]
  rfl

/-- A command at level 0 stands in the ring: no called buffer is entered. -/
theorem frames_of_fetchPos {k q va : Nat} {s : State} (h : fetchPos (.queue k q) s = some (va, 0)) :
    (queueOf k q s).str.frames = [] := by
  unfold fetchPos at h
  split at h
  · next heq =>
    simp only [Option.some.injEq, Prod.mk.injEq] at h
    omega
  · assumption
  · assumption

/-- What a command's reads leave of the front end, and the cores and the DMA engines. -/
structure FrontKept (s t : State) : Prop where
  queues : t.fe.queues = s.fe.queues
  slots : t.fe.slots = s.fe.slots
  jobs : t.fe.jobs = s.fe.jobs
  nextJob : t.fe.nextJob = s.fe.nextJob
  us : t.fe.us = s.fe.us
  cpt : t.cpt = s.cpt
  dma : t.dma = s.dma

theorem FrontKept.trans {s t u : State} (h : FrontKept s t) (h' : FrontKept t u) : FrontKept s u where
  queues := h'.queues.trans h.queues
  slots := h'.slots.trans h.slots
  jobs := h'.jobs.trans h.jobs
  nextJob := h'.nextJob.trans h.nextJob
  us := h'.us.trans h.us
  cpt := h'.cpt.trans h.cpt
  dma := h'.dma.trans h.dma

theorem FrontKept.queueOf {s t : State} (h : FrontKept s t) (m n : Nat) : queueOf m n t = queueOf m n s := by
  rw [Machine.queueOf, h.queues, Machine.queueOf]

theorem FrontKept.slotOf {s t : State} (h : FrontKept s t) (m : Nat) : slotOf m t = slotOf m s := by
  rw [Machine.slotOf, h.slots, Machine.slotOf]

theorem AccessKept.frontKept {s t : State} (h : AccessKept s t) : FrontKept s t where
  queues := by rw [h.fe]
  slots := by rw [h.fe]
  jobs := by rw [h.fe]
  nextJob := by rw [h.fe]
  us := by rw [h.fe]
  cpt := h.cpt
  dma := h.dma

/-- A queue's command that is taken has been read, and the fetcher's turn has moved. -/
theorem frontKept_of_takes {k : Fin 64} {q : Fin 16} {c : List Word} {s s1 : State} (h : Takes (.queue k q) c 0 s s1) :
    FrontKept s s1 := by
  obtain ⟨s', ⟨s0, ⟨-, va, bs, -, hread, -⟩, -, rfl⟩, -, -, rfl, -⟩ := h
  have hkept := accessKept_vaRead (ownRq (ownerOf (.queue k q))) (ownSlot (ownerOf (.queue k q)) s) va 32 .rd s
  rw [hread] at hkept
  exact hkept.frontKept.trans ⟨rfl, rfl, rfl, rfl, rfl, rfl, rfl⟩

theorem frames_of_takes {k : Fin 64} {q : Fin 16} {c : List Word} {s s1 : State} (h : Takes (.queue k q) c 0 s s1) :
    (queueOf k.val q.val s).str.frames = [] := by
  obtain ⟨s', ⟨s0, ⟨-, va, bs, hpos, -⟩, -⟩, -⟩ := h
  exact frames_of_fetchPos hpos

theorem frontKept_ringRoom {k q : Nat} {b : Bool} {s s' : State} (h : ringRoom k q s = (some b, s')) : FrontKept s s' := by
  have hread := accessKept_vaRead rqFe k (qrecVa k q s + 0x1C) 4 .rd s
  unfold ringRoom at h
  simp only at h
  split at h
  · simp only [Prod.mk.injEq, reduceCtorEq, false_and] at h
  · next heq =>
    rw [heq] at hread
    obtain ⟨-, rfl⟩ := Prod.mk.inj h
    exact hread.frontKept

/-! ## A queue whose job has begun (R180, R182, R186) -/

/-- The job of the queue's command stands in the table, ended as `fin` says; the fetch position has not moved yet. -/
structure JobPut (k q : Nat) (c : List Word) (fin : Option JobEnd) (s v : State) : Prop where
  next : v.fe.nextJob = s.fe.nextJob + 1
  job : ∃ b, tabFind s.fe.nextJob v.fe.jobs = some b ∧ b.owner = .queue k q ∧ b.cmd = c ∧
    b.startSeq = (queueOf k q s).str.started % 2 ^ 32 ∧ b.startUs = s.fe.us ∧ b.fin = fin
  jobs : ∀ j, j ≠ s.fe.nextJob → tabFind j v.fe.jobs = tabFind j s.fe.jobs
  rptr : (queueOf k q v).rptr = (queueOf k q s).rptr
  started : (queueOf k q v).str.started = (queueOf k q s).str.started + 1
  frames : (queueOf k q v).str.frames = []
  cmask : (queueOf k q v).cmask = (queueOf k q s).cmask
  engine : (queueOf k q v).engine = (queueOf k q s).engine
  queues : ∀ m n, n < 16 → ¬ (m = k ∧ n = q) → queueOf m n v = queueOf m n s
  refs : (slotOf k v).refcnt = (slotOf k s).refcnt + 1

theorem queueOf_of_fe {s t : State} (h : t.fe = s.fe) (m n : Nat) : queueOf m n t = queueOf m n s := by rw [queueOf, queueOf, h]

theorem slotOf_of_fe {s t : State} (h : t.fe = s.fe) (m : Nat) : slotOf m t = slotOf m s := by rw [slotOf, slotOf, h]

theorem JobPut.of_fe {k q : Nat} {c : List Word} {fin : Option JobEnd} {s v w : State} (h : JobPut k q c fin s v) (hfe : w.fe = v.fe) :
    JobPut k q c fin s w where
  next := by rw [hfe, h.next]
  job := by rw [hfe]; exact h.job
  jobs := by rw [hfe]; exact h.jobs
  rptr := by rw [queueOf_of_fe hfe, h.rptr]
  started := by rw [queueOf_of_fe hfe, h.started]
  frames := by rw [queueOf_of_fe hfe, h.frames]
  cmask := by rw [queueOf_of_fe hfe, h.cmask]
  engine := by rw [queueOf_of_fe hfe, h.engine]
  queues m n := by rw [queueOf_of_fe hfe]; exact h.queues m n
  refs := by rw [slotOf_of_fe hfe, h.refs]

/-- The new job ended. -/
theorem JobPut.endJob {k q : Nat} {c : List Word} {s v : State} (h : JobPut k q c none s v) (status reason detail : Nat) :
    JobPut k q c (some ⟨status, reason, detail⟩) s (endJob s.fe.nextJob status reason detail v) := by
  obtain ⟨b, hb, howner, hcmd, hseq, hus, hfin⟩ := h.job
  have hend : Machine.endJob s.fe.nextJob status reason detail v =
      setJob s.fe.nextJob { b with fin := some ⟨status, reason, detail⟩ } v := by
    simp [Machine.endJob, hb, hfin]
  rw [hend]
  exact ⟨h.next, ⟨_, tabFind_set_self _ _ _, howner, hcmd, hseq, hus, rfl⟩,
    fun j hj => (tabFind_set_ne hj _ _).trans (h.jobs j hj), h.rptr, h.started, h.frames, h.cmask, h.engine, h.queues, h.refs⟩

/-- Nothing of the front end but one queue changes, nor the cores or the DMA engines. -/
structure QueueOnly (k q : Nat) (s t : State) : Prop where
  fe : t.fe = { s.fe with queues := t.fe.queues }
  others : ∀ m n, n < 16 → ¬ (m = k ∧ n = q) → queueOf m n t = queueOf m n s
  cpt : t.cpt = s.cpt
  dma : t.dma = s.dma

theorem QueueOnly.trans {k q : Nat} {s t u : State} (h : QueueOnly k q s t) (h' : QueueOnly k q t u) : QueueOnly k q s u where
  fe := by rw [h'.fe, h.fe]
  others m n hn hne := (h'.others m n hn hne).trans (h.others m n hn hne)
  cpt := h'.cpt.trans h.cpt
  dma := h'.dma.trans h.dma

theorem AccessKept.queueOnly {s t : State} (h : AccessKept s t) (k q : Nat) : QueueOnly k q s t where
  fe := by rw [h.fe]
  others _ _ _ _ := queueOf_of_fe h.fe _ _
  cpt := h.cpt
  dma := h.dma

@[simp] theorem queueOf_setQueue_self (k q : Nat) (v : Queue) (s : State) : queueOf k q (setQueue k q v s) = v :=
  tabGet_set_self _ _ _ _

theorem queueOf_setQueue_ne {k q m n : Nat} (hq : q < 16) (hn : n < 16) (h : ¬ (m = k ∧ n = q)) (v : Queue) (s : State) :
    queueOf m n (setQueue k q v s) = queueOf m n s := tabGet_set_ne _ (by omega) _ _

theorem queueOnly_setQueue {k q : Nat} (hq : q < 16) (v : Queue) (s : State) : QueueOnly k q s (setQueue k q v s) where
  fe := rfl
  others _ _ hn h := queueOf_setQueue_ne hq hn h v s
  cpt := rfl
  dma := rfl

theorem accessKept_qSync (k q : Nat) (s : State) : AccessKept s (qSync k q s) := by
  unfold qSync
  simp only
  split
  · exact .refl s
  · split
    · exact accessKept_vaWrite _ _ _ _ s
    · exact accessKept_vaWrite _ _ _ _ s

/-- The fetch position of a ring moves by one command. -/
theorem bump_ring {k q : Nat} (hq : q < 16) {s : State} (hf : (queueOf k q s).str.frames = []) :
    QueueOnly k q s (bump (.queue k q) s) ∧
    queueOf k q (bump (.queue k q) s) = { queueOf k q s with rptr := ((queueOf k q s).rptr + 1) % 2 ^ 32 } := by
  have hbump : bump (.queue k q) s =
      qSync k q (setQueue k q { queueOf k q s with rptr := ((queueOf k q s).rptr + 1) % 2 ^ 32 } s) := by
    simp only [bump, streamOf, hf]
  have hsync := accessKept_qSync k q (setQueue k q { queueOf k q s with rptr := ((queueOf k q s).rptr + 1) % 2 ^ 32 } s)
  rw [hbump]
  exact ⟨(queueOnly_setQueue hq _ s).trans (hsync.queueOnly k q), (queueOf_of_fe hsync.fe k q).trans (queueOf_setQueue_self _ _ _ _)⟩

/-- The end of a queue's batch changes the number of its batch and ends its skip. -/
theorem batchEnd_ring {k q : Nat} (hq : q < 16) (c : List Word) (s : State) : QueueOnly k q s (batchEnd (.queue k q) c s) ∧
    ∃ n b, queueOf k q (batchEnd (.queue k q) c s) =
      { queueOf k q s with str := { (queueOf k q s).str with batchSkip := n, batchNo := b } } := by
  unfold batchEnd
  split
  · exact ⟨queueOnly_setQueue hq _ s, _, _, queueOf_setQueue_self _ _ _ _⟩
  · exact ⟨(AccessKept.refl s).queueOnly k q, (queueOf k q s).str.batchSkip, (queueOf k q s).str.batchNo, rfl⟩

/-- A queue with a job in the table is not idle. -/
theorem settle_busy {k q j : Nat} {b : Job} {s : State} (n : Nat) (hf : (queueOf k q s).str.frames = [])
    (hb : tabFind j s.fe.jobs = some b) (ho : b.owner = .queue k q) : settle (.queue k q) (n + 1) s = s := by
  have hown : (ownJobs (.queue k q) s).isEmpty = false := by
    rw [List.isEmpty_eq_false_iff_exists_mem]
    exact ⟨(j, b), List.mem_filter.2 ⟨exists_mem_of_tabFind hb, by simp [ho]⟩⟩
  simp [settle, streamOf, hf, idleCheck, hown]

/-- Past the command of a job of the ring: its queue alone changes. -/
theorem passJob_ring {k q : Nat} (hq : q < 16) (c : List Word) {fin : Option JobEnd} {s v : State} (h : JobPut k q c fin s v) :
    QueueOnly k q v (passJob (.queue k q) c v) ∧
    (queueOf k q (passJob (.queue k q) c v)).rptr = ((queueOf k q v).rptr + 1) % 2 ^ 32 ∧
    (queueOf k q (passJob (.queue k q) c v)).str.started = (queueOf k q v).str.started := by
  obtain ⟨honly, hbump⟩ := bump_ring hq h.frames
  obtain ⟨honly', n, b, hend⟩ := batchEnd_ring hq c (bump (.queue k q) v)
  have hall := honly.trans honly'
  obtain ⟨job, hjob, howner, -⟩ := h.job
  have hpass : passJob (.queue k q) c v = batchEnd (.queue k q) c (bump (.queue k q) v) :=
    settle_busy 7 (by rw [hend, hbump]; exact h.frames) (by rw [hall.fe]; exact hjob) howner
  rw [hpass, hend, hbump]
  exact ⟨hall, rfl, rfl⟩

/-- The command of a job that has begun is passed: what the job's commands leave. -/
theorem jobBegun_passJob {k q : Nat} (hq : q < 16) {c : List Word} {fin : Option JobEnd} {s v : State} (h : JobPut k q c fin s v) :
    JobBegun k q c s (tidyMem (passJob (.queue k q) c v)) ∧
    ∀ b, tabFind s.fe.nextJob (tidyMem (passJob (.queue k q) c v)).fe.jobs = some b → b.fin = fin := by
  obtain ⟨honly, hrptr, hstarted⟩ := passJob_ring hq c h
  have hfe := honly.fe
  have hslots : slotOf k (passJob (.queue k q) c v) = slotOf k v := by rw [slotOf, hfe, slotOf]
  obtain ⟨b, hb, howner, hcmd, hseq, hus, hfin⟩ := h.job
  refine ⟨⟨?_, ⟨b, ?_, howner, hcmd, hseq, hus⟩, fun j hj => ?_, hrptr.trans (by rw [h.rptr]), hstarted.trans h.started,
    fun m n hn hne => (honly.others m n hn hne).trans (h.queues m n hn hne), ?_⟩, fun b' hb' => ?_⟩
  · rw [tidyMem_fe, hfe]
    exact h.next
  · rw [tidyMem_fe, hfe]
    exact hb
  · rw [tidyMem_fe, hfe]
    exact h.jobs j hj
  · show (slotOf k (passJob (.queue k q) c v)).refcnt = _
    rw [hslots, h.refs]
  · rw [tidyMem_fe, hfe] at hb'
    obtain rfl : b = b' := Option.some.inj (hb.symm.trans hb')
    exact hfin

/-! ## The start of a job (R180, R185, R186) -/

/-- The state in which the job of a queue's command acts first. -/
def jobStart (k : Fin 64) (q : Fin 16) (c : List Word) (s2 : State) : State :=
  (newJob (.queue k.val q.val) c (setQueue k.val q.val { queueOf k.val q.val s2 with held := false } s2)).2

/-- The job stands in the table, and the queue's stream counts it. -/
def jobPlaced (k : Fin 64) (q : Fin 16) (c : List Word) (s2 : State) : State :=
  let u := setQueue k.val q.val { queueOf k.val q.val s2 with held := false } s2
  let str := streamOf (.queue k.val q.val) u
  let v := setStream (.queue k.val q.val) { str with started := str.started + 1 } u
  { v with fe := { v.fe with
      nextJob := s2.fe.nextJob + 1,
      jobs := tabSet s2.fe.nextJob
        { owner := .queue k.val q.val, cmd := c, startSeq := str.started % 2 ^ 32, startUs := s2.fe.us,
          batch := failNo (.queue k.val q.val) u } s2.fe.jobs } }

theorem jobStart_eq (k : Fin 64) (q : Fin 16) (c : List Word) (s2 : State) :
    jobStart k q c s2 = slotAcquire k.val (jobPlaced k q c s2) := rfl

theorem queueOf_jobPlaced (k : Fin 64) (q : Fin 16) (c : List Word) (s2 : State) :
    queueOf k.val q.val (jobPlaced k q c s2) =
      { queueOf k.val q.val s2 with
        held := false,
        str := { (queueOf k.val q.val s2).str with started := (queueOf k.val q.val s2).str.started + 1 } } :=
  (queueOf_setQueue_self _ _ _ _).trans (by simp only [streamOf, queueOf_setQueue_self])

theorem queueOf_jobPlaced_ne {k : Fin 64} {q : Fin 16} {m n : Nat} (hn : n < 16) (h : ¬ (m = k.val ∧ n = q.val)) (c : List Word)
    (s2 : State) : queueOf m n (jobPlaced k q c s2) = queueOf m n s2 :=
  (queueOf_setQueue_ne q.isLt hn h _ _).trans (queueOf_setQueue_ne q.isLt hn h _ _)

theorem slotAcquire_kept (k : Nat) (s : State) : AccessKept
    (setSlot k { slotOf k s with refcnt := (slotOf k s).refcnt + 1, lastUse := s.fe.us } s) (slotAcquire k s) :=
  accessKept_hbmPut _ _ _

/-- The new job stands in the table, and its slot has a reference more. -/
theorem jobPut_jobStart {k : Fin 64} {q : Fin 16} {c : List Word} {s s2 : State} (hf : (queueOf k.val q.val s).str.frames = [])
    (h : FrontKept s s2) : JobPut k.val q.val c none s (jobStart k q c s2) := by
  have hfe := (slotAcquire_kept k.val (jobPlaced k q c s2)).fe
  have hqueue := queueOf_jobPlaced k q c s2
  rw [h.queueOf] at hqueue
  have hplaced : JobPut k.val q.val c none s (setSlot k.val
      { slotOf k.val (jobPlaced k q c s2) with
        refcnt := (slotOf k.val (jobPlaced k q c s2)).refcnt + 1, lastUse := (jobPlaced k q c s2).fe.us } (jobPlaced k q c s2)) :=
    { next := congrArg (· + 1) h.nextJob
      job := by
        rw [← h.nextJob]
        refine ⟨_, tabFind_set_self _ _ _, rfl, rfl, ?_, h.us, rfl⟩
        simp only [streamOf, queueOf_setQueue_self, h.queueOf]
      jobs := fun j hj => by
        rw [← h.jobs]
        exact tabFind_set_ne (by rwa [h.nextJob]) _ _
      rptr := (congrArg Queue.rptr hqueue :)
      started := congrArg (fun x : Queue => x.str.started) hqueue
      frames := (congrArg (fun x : Queue => x.str.frames) hqueue).trans hf
      cmask := (congrArg Queue.cmask hqueue :)
      engine := (congrArg Queue.engine hqueue :)
      queues := fun m n hn hne => (queueOf_jobPlaced_ne hn hne c s2).trans (h.queueOf m n)
      refs := (congrArg Slot.refcnt (tabGet_set_self _ _ _ _)).trans (congrArg (fun x : Slot => x.refcnt + 1) (h.slotOf k.val)) }
  exact hplaced.of_fe hfe

theorem dma_jobStart (k : Fin 64) (q : Fin 16) (c : List Word) (s2 : State) : (jobStart k q c s2).dma = s2.dma :=
  (slotAcquire_kept k.val (jobPlaced k q c s2)).dma

/-- A command with room for its record starts its job, which acts first. -/
theorem onCommand_startsJob {k : Fin 64} {q : Fin 16} {c : List Word} {s s1 s2 : State} (h : StartsJob k q c s s1 s2)
    {sel : List Word → Bool} (hsel : sel c = true) {cmd : Owner → List Word → Nat → State → Option State}
    {act : Nat → State → State} (hcmd : ∀ s, cmd (.queue k.val q.val) c 0 s = startJob (.queue k.val q.val) c act s) :
    onCommand (.queue k q) sel cmd s = passJob (.queue k.val q.val) c (act s.fe.nextJob (jobStart k q c s2)) := by
  obtain ⟨htakes, hfull, hroom⟩ := h
  have hnext := ((frontKept_of_takes htakes).trans (frontKept_ringRoom hroom)).nextJob
  rw [onCommand_takes htakes hsel cmd]
  show (cmd (.queue k.val q.val) c 0 s1).getD s = _
  rw [hcmd]
  simp only [startJob, hfull, hroom]
  show passJob _ c (act s2.fe.nextJob (jobStart k q c s2)) = _
  rw [hnext]

/-- Where a job starts, its queue, its jobs and its slot are as the command found them, but for the new job. -/
theorem jobPut_of_startsJob {k : Fin 64} {q : Fin 16} {c : List Word} {s s1 s2 : State} (h : StartsJob k q c s s1 s2) :
    JobPut k.val q.val c none s (jobStart k q c s2) ∧ (jobStart k q c s2).dma = s.dma := by
  obtain ⟨htakes, -, hroom⟩ := h
  have hkept := (frontKept_of_takes htakes).trans (frontKept_ringRoom hroom)
  exact ⟨jobPut_jobStart (frames_of_takes htakes) hkept, (dma_jobStart k q c s2).trans hkept.dma⟩

/-- A command without room for its record: the queue waits. -/
theorem onCommand_full {k : Fin 64} {q : Fin 16} {c : List Word} {s s1 s2 : State} (h : Takes (.queue k q) c 0 s s1)
    (hfull : (queueOf k.val q.val s1).full = false) (hroom : ringRoom k.val q.val s1 = (some false, s2))
    {sel : List Word → Bool} (hsel : sel c = true) {cmd : Owner → List Word → Nat → State → Option State}
    {act : Nat → State → State} (hcmd : ∀ s, cmd (.queue k.val q.val) c 0 s = startJob (.queue k.val q.val) c act s) :
    queueOf k.val q.val (tidyMem (onCommand (.queue k q) sel cmd s)) = { queueOf k.val q.val s with full := true } ∧
    OtherQueues k.val q.val s (tidyMem (onCommand (.queue k q) sel cmd s)) := by
  have hkept := (frontKept_of_takes h).trans (frontKept_ringRoom hroom)
  have hwaits : onCommand (.queue k q) sel cmd s = setQueue k.val q.val { queueOf k.val q.val s2 with full := true } s2 := by
    rw [onCommand_takes h hsel cmd]
    show (cmd (.queue k.val q.val) c 0 s1).getD s = _
    rw [hcmd]
    simp only [startJob, hfull, hroom]
    rfl
  rw [hwaits, hkept.queueOf]
  exact ⟨queueOf_setQueue_self _ _ _ _,
    ⟨fun m n hn hne => (queueOf_setQueue_ne q.isLt hn hne _ _).trans (hkept.queueOf m n), hkept.jobs⟩⟩

end Sys2Proof.Machine

/-!
PROOFS. What a name and a descriptor of a job read, and a transfer that takes a channel or waits for one; then the statement of
07_queues_fences_objects.md on the commands that start jobs.
-/
namespace Sys2Proof.Machine
open Sys2Proof.Claims

/-! ## What a name reads (R202, R469) -/

theorem accessKept_handleGet (slot idx : Nat) (s : State) : AccessKept s (handleGet slot idx s).2 := by
  have hread := accessKept_vaRead rqFnc slot ((slotOf slot s).htbl + 16 * idx) 16 .rd s
  unfold handleGet
  split <;> next heq => rw [heq] at hread; exact hread

/-- A handle that passes its check has been read, and nothing else. -/
theorem accessKept_of_checkHandle {j : JobRef} {h : Word} {e : HandleEnt} {s s' : State} (hok : checkHandle j h s = (.ok e, s')) :
    AccessKept s s' := by
  have hget := accessKept_handleGet j.slot (fld h 0 16) s
  unfold checkHandle at hok
  simp only at hok
  split at hok
  · simp only [Prod.mk.injEq, reduceCtorEq, false_and] at hok
  · split at hok
    · simp only [Prod.mk.injEq, reduceCtorEq, false_and] at hok
    · next heq =>
      rw [heq] at hget
      split at hok
      · obtain ⟨-, rfl⟩ := Prod.mk.inj hok
        exact hget
      · simp only [Prod.mk.injEq, reduceCtorEq, false_and] at hok

theorem accessKept_of_checkRange {j : JobRef} {h : Word} {off len va : Nat} {s s' : State}
    (hok : checkRange j h off len s = (.ok va, s')) : AccessKept s s' := by
  unfold checkRange at hok
  split at hok
  · simp only [Prod.mk.injEq, reduceCtorEq, false_and] at hok
  · next heq =>
    obtain ⟨-, rfl⟩ := Prod.mk.inj hok
    exact accessKept_of_checkHandle heq

theorem accessKept_of_nameRange {k q : Nat} {j : JobRef} {h : Word} {off len va : Nat} {s s' : State}
    (hok : nameRange (.queue k q) j h off len s = (.ok va, s')) : AccessKept s s' := accessKept_of_checkRange hok

theorem withRange_ok {o : Owner} {j : Nat} {h : Word} {off len va : Nat} {s s' : State}
    (hok : nameRange o (jobRef j s) h off len s = (.ok va, s')) (act : Nat → State → State) :
    withRange o j h off len act s = act va s' := by
  unfold withRange
  rw [hok]

theorem withDesc_reads {k q j rq : Nat} {c : List Word} {size align va : Nat} {bs : List Byte} {s s' s3 : State}
    (hok : nameRange (.queue k q) (jobRef j s) (cw c 1) (cw c 2).toNat size s = (.ok va, s')) (halign : va % align = 0)
    (hread : vaReadAll rq k va size .rd s' = (.ok bs, s3)) (act : Nat → List Word → State → State) :
    withDesc (.queue k q) j rq c size align act s = act va (rowWords 4 (size / 4) bs) s3 := by
  unfold withDesc
  rw [withRange_ok hok, if_neg (by simpa using halign)]
  simp only [ownSlot, hread]

/-! ## A transfer takes a channel (R155, R470) -/

theorem accessKept_prefetchRun (rq slot top : Nat) : ∀ (pages va : Nat) (s : State),
    AccessKept s (prefetchRun rq slot top pages va s)
  | 0, _, s => .refl s
  | pages + 1, va, s => by
    have hfind := accessKept_findEnt rq slot va s
    rw [prefetchRun]
    split
    · exact .refl s
    · split <;> next heq => rw [heq] at hfind; exact hfind.trans (accessKept_prefetchRun rq slot top pages _ _)

theorem accessKept_prefetch (rq slot va len : Nat) (s : State) : AccessKept s (prefetch rq slot va len s) := by
  unfold prefetch
  split
  · exact .refl s
  · exact accessKept_prefetchRun _ _ _ _ _ s

/-- Channel `c` has the transfer of `ch`; the front end and the waiting transfers are as they were. -/
structure ChanTaken (c : Nat) (ch : Chan) (s t : State) : Prop where
  fe : t.fe = s.fe
  waiting : t.dma.waiting = s.dma.waiting
  chan : ∃ y, chanOf c t = some y ∧ y.job = ch.job ∧ y.slot = ch.slot ∧ y.xfer = ch.xfer

section
variable {c : Nat} {ch : Chan} {s t u : State}

theorem AccessKept.chanTaken (h : AccessKept s t) (h' : ChanTaken c ch t u) : ChanTaken c ch s u :=
  ⟨h'.fe.trans h.fe, by rw [h'.waiting, h.dma], h'.chan⟩

theorem ChanTaken.issued (h : ChanTaken c ch s t) {p : Pci} {o : List OutEvent} (hu : u = { t with pci := p, out := o }) :
    ChanTaken c ch s u := by
  subst hu
  exact ⟨h.fe, h.waiting, h.chan⟩

end

theorem chanTaken_setChan (c : Nat) {ch y : Chan} (hjob : y.job = ch.job) (hslot : y.slot = ch.slot) (hxfer : y.xfer = ch.xfer)
    (s : State) : ChanTaken c ch s (setChan c y s) := ⟨rfl, rfl, y, tabFind_set_self _ _ _, hjob, hslot, hxfer⟩

theorem chanTaken_self (c : Nat) (ch : Chan) (s : State) : ChanTaken c ch s (setChan c ch s) := chanTaken_setChan c rfl rfl rfl s

/-- Looking through a copy's source changes where its reads stand, and no more of the channel. -/
theorem chanTaken_chanLook (c : Nat) : ∀ (fuel : Nat) (ch : Chan) (s : State), ChanTaken c ch s (chanLook c fuel ch s)
  | 0, ch, s => chanTaken_self c ch s
  | fuel + 1, ch, s => by
    rw [chanLook]
    split
    case h_2 => exact chanTaken_self c ch s
    case h_1 src dst len _ =>
      split
      · exact chanTaken_self c ch s
      · have hkept := accessKept_translate (rqDma (c / 16)) ch.slot (src + ch.fetched) .rd s
        obtain ⟨r, s', htr⟩ : ∃ r s', translate (rqDma (c / 16)) ch.slot (src + ch.fetched) .rd s = (r, s') := ⟨_, _, rfl⟩
        rw [htr] at hkept
        simp only [htr]
        refine AccessKept.chanTaken hkept ?_
        match r with
        | .ok (.hbm _) =>
          obtain ⟨hfe, hwaiting, hchan⟩ := chanTaken_chanLook c fuel
            { ch with fetched := ch.fetched + min (len - ch.fetched) (pageLeft (src + ch.fetched)) } s'
          exact ⟨hfe, hwaiting, hchan⟩
        | .ok (.host a attr) =>
          obtain ⟨p, o, h⟩ := hostIssue_frame ch.slot attr (src + ch.fetched) a (min (len - ch.fetched) (pageLeft (src + ch.fetched)))
            (.chan c) (setChan c ch s')
          exact (chanTaken_self c ch s').issued h
        | .ok .needAts => exact ⟨rfl, rfl, _, tabFind_set_self _ _ _, rfl, rfl, rfl⟩
        | .error _ => exact chanTaken_self c ch s'

/-- A channel that goes on keeps its transfer. -/
theorem chanTaken_chanGo (c : Nat) (ch : Chan) (s : State) : ChanTaken c ch s (chanGo c ch s) := by
  have hgoes : ChanTaken c { ch with st := .running } s (chanGo c ch s) := by
    unfold chanGo
    simp only
    split
    · next src dst len _ =>
      have hsrc := accessKept_prefetch (rqDma (c / 16)) ch.slot (src + ch.done) (len - ch.done) s
      refine (hsrc.trans (accessKept_prefetch (rqDma (c / 16)) ch.slot (dst + ch.done) (len - ch.done) _)).chanTaken ?_
      split
      · exact chanTaken_self _ _ _
      · exact chanTaken_chanLook _ _ _ _
    · exact (accessKept_prefetch _ _ _ _ s).chanTaken (chanTaken_self _ _ _)
    · exact chanTaken_self _ _ s
  exact ⟨hgoes.fe, hgoes.waiting, hgoes.chan⟩

/-- A transfer waits: another one of its engine waits before it, or no channel is free. -/
theorem dmaStart_waits {n job slot : Nat} {x : Xfer} {s : State}
    (h : s.dma.waiting.any (fun w => w.1 == n) = true ∨ freeChan n s = none) :
    dmaStart n job slot x s = { s with dma := { s.dma with waiting := s.dma.waiting ++ [(n, job, slot, x)] } } := by
  unfold dmaStart
  simp only
  split
  · rfl
  · next hothers =>
    have hfree := h.resolve_left hothers
    unfold assign
    split
    · next heq => exact absurd (heq.symm.trans hfree) (by simp)
    · rfl

/-- The first transfer of its engine takes the free channel. -/
theorem dmaStart_assigns {n job slot m : Nat} {x : Xfer} {s : State} (hfirst : s.dma.waiting.any (fun w => w.1 == n) = false)
    (hfree : freeChan n s = some m) : dmaStart n job slot x s = chanGo (n * 16 + m) { job := job, slot := slot, xfer := x } s := by
  have hnone : ∀ w ∈ s.dma.waiting, w.1 ≠ n := by simpa using hfirst
  have hfind : (s.dma.waiting ++ [(n, job, slot, x)]).find? (fun w => w.1 == n) = some (n, job, slot, x) := by
    rw [List.find?_append, List.find?_eq_none.2 (by simpa using hnone)]
    simp
  have herase : (s.dma.waiting ++ [(n, job, slot, x)]).erase (n, job, slot, x) = s.dma.waiting := by
    rw [List.erase_append_right _ (fun hmem => hnone _ hmem rfl)]
    simp
  simp only [dmaStart, hfirst, assign, hfind]
  rw [show freeChan n { s with dma := { s.dma with waiting := s.dma.waiting ++ [(n, job, slot, x)] } } = some m from hfree]
  simp only [herase]
  rfl

/-- The start of a transfer, told of the states before and after: a channel has it, or it waits last. -/
theorem transferTaken_dmaStart {n k : Nat} {x : Xfer} {s v : State} (hdma : v.dma = s.dma) :
    (dmaStart n s.fe.nextJob k x v).fe = v.fe ∧ TransferTaken n k x s (dmaStart n s.fe.nextJob k x v) := by
  rw [TransferTaken, ← hdma, show freeChan n s = freeChan n v by rw [freeChan, freeChan, hdma]]
  by_cases hwaits : v.dma.waiting.any (fun w => w.1 == n) = true ∨ freeChan n v = none
  · rw [dmaStart_waits hwaits]
    refine ⟨rfl, fun _ => ⟨rfl, rfl⟩, fun m hfirst hfree => ?_⟩
    simp [hfirst, hfree] at hwaits
  · obtain ⟨hothers, hfree⟩ := not_or.1 hwaits
    obtain ⟨m, hm⟩ := Option.ne_none_iff_exists'.1 hfree
    have hstart := dmaStart_assigns (job := s.fe.nextJob) (slot := k) (x := x) (Bool.eq_false_iff.2 hothers) hm
    obtain ⟨hfe, hwaiting, hchan⟩ := chanTaken_chanGo (n * 16 + m) { job := s.fe.nextJob, slot := k, xfer := x } v
    rw [hstart]
    refine ⟨hfe, fun h => absurd h hwaits, fun m' _ hm' => ?_⟩
    obtain rfl : m = m' := Option.some.inj (hm.symm.trans hm')
    exact ⟨hwaiting, hchan⟩

/-! ## The job's first actions -/

theorem exec_launch (f : Fetcher) (s : State) : exec (.launch f) s = .next (tidyMem (onCommand f (selOp 0x01) launchCmd s)) := rfl

theorem exec_dmaCopy (f : Fetcher) (s : State) : exec (.dmaCopy f) s = .next (tidyMem (onCommand f (selOp 0x05) dmaCopyCmd s)) := rfl

theorem exec_dmaFill (f : Fetcher) (s : State) : exec (.dmaFill f) s = .next (tidyMem (onCommand f (selOp 0x06) dmaFillCmd s)) := rfl

theorem exec_dmaGather (f : Fetcher) (s : State) :
    exec (.dmaGather f) s = .next (tidyMem (onCommand f (selOp 0x07) dmaGatherCmd s)) := rfl

section
variable {k : Fin 64} {q : Fin 16} {c : List Word} {s s1 s2 v : State} {sel : List Word → Bool}
  {cmd : Owner → List Word → Nat → State → Option State} {act : Nat → State → State}
  (h : StartsJob k q c s s1 s2) (hsel : sel c = true)
  (hcmd : ∀ s, cmd (.queue k.val q.val) c 0 s = startJob (.queue k.val q.val) c act s)
include h hsel hcmd

/-- A job whose first actions end it. -/
theorem jobEnds_of_act {status reason detail : Nat}
    (hact : act s.fe.nextJob (jobStart k q c s2) = endJob s.fe.nextJob status reason detail v) (hv : v.fe = (jobStart k q c s2).fe) :
    JobEnds k.val q.val c ⟨status, reason, detail⟩ s (tidyMem (onCommand (.queue k q) sel cmd s)) := by
  rw [onCommand_startsJob h hsel hcmd, hact]
  exact jobBegun_passJob q.isLt (((jobPut_of_startsJob h).1.of_fe hv).endJob status reason detail)

/-- A job whose first actions leave it running in the state `v`; what follows changes neither the cores nor the DMA engines. -/
theorem queueJobRuns_of_act (hact : act s.fe.nextJob (jobStart k q c s2) = v) (hv : v.fe = (jobStart k q c s2).fe) :
    QueueJobRuns k.val q.val c s (tidyMem (onCommand (.queue k q) sel cmd s)) ∧
    (tidyMem (onCommand (.queue k q) sel cmd s)).cpt = v.cpt ∧ (tidyMem (onCommand (.queue k q) sel cmd s)).dma = v.dma := by
  have hput := (jobPut_of_startsJob h).1.of_fe hv
  obtain ⟨honly, -⟩ := passJob_ring q.isLt c hput
  rw [onCommand_startsJob h hsel hcmd, hact]
  exact ⟨jobBegun_passJob q.isLt hput, honly.cpt, honly.dma⟩

/-- A job that starts a transfer on its queue's engine. -/
theorem transferTaken_of_act {x : Xfer} (hact : act s.fe.nextJob (jobStart k q c s2) =
      dmaStart (ownDma (.queue k.val q.val) v) s.fe.nextJob k.val x v) (hv : AccessKept (jobStart k q c s2) v) :
    QueueJobRuns k.val q.val c s (tidyMem (onCommand (.queue k q) sel cmd s)) ∧
    TransferTaken ((queueOf k.val q.val s).engine - 5) k.val x s (tidyMem (onCommand (.queue k q) sel cmd s)) := by
  obtain ⟨hput, hdma⟩ := jobPut_of_startsJob h
  have hengine : ownDma (.queue k.val q.val) v = (queueOf k.val q.val s).engine - 5 :=
    congrArg (· - 5) ((congrArg Queue.engine (queueOf_of_fe hv.fe k.val q.val)).trans hput.engine)
  rw [hengine] at hact
  obtain ⟨hfe, htaken⟩ := transferTaken_dmaStart (n := (queueOf k.val q.val s).engine - 5) (k := k.val) (x := x) (hv.dma.trans hdma)
  obtain ⟨hruns, -, hdma'⟩ := queueJobRuns_of_act h hsel hcmd hact (hfe.trans hv.fe)
  refine ⟨hruns, ?_⟩
  unfold TransferTaken chanOf at htaken ⊢
  rwa [hdma']

end

end Sys2Proof.Machine

/-!
PROOFS. The statement of 07_queues_fences_objects.md on the commands that start jobs: what a launch makes of its descriptor, then the four
commands.
-/
namespace Sys2Proof.Machine
open Sys2Proof.Claims

/-! ## The launch of a kernel (R105, R191) -/

theorem launchDesc_bad {d : List Word} (hbad : launchBad d = true) (start : Nat → Kernel → State → State) (o : Owner) (j va : Nat)
    (s : State) : launchDesc start o j va d s = endJob j 1 0x0017 va s := by
  simp only [launchDesc, hbad, if_true, jobFail]

/-- A mask of 0 is every cluster, in the queue as in the kernel (R184). -/
theorem launchKernel_mask (d : List Word) (slot code param m : Nat) :
    launchKernel d slot code param (if m = 0 then 0xFFFF else m) = launchKernel d slot code param m := by
  by_cases hm : m = 0 <;> simp [launchKernel, hm]

/-- The objects of a launch pass their checks: its code, and its parameters where it names any. -/
def LaunchObjects (o : Owner) (j : Nat) (d : List Word) (code param : Nat) (s3 s4 s5 : State) : Prop :=
  checkRange (jobRefOf o j s3) (nth 0 d 0) (dWord d 1) (dWord d 2) s3 = (.ok code, s4) ∧
  ((dWord d 8 = 0 ∧ param = 0 ∧ s5 = s4) ∨ (dWord d 8 ≠ 0 ∧
    checkRange (jobRefOf o j s4) (nth 0 d 8) (dWord d 9) 0 s4 = (.ok param, s5)))

theorem LaunchObjects.kept {o : Owner} {j : Nat} {d : List Word} {code param : Nat} {s3 s4 s5 : State}
    (h : LaunchObjects o j d code param s3 s4 s5) : AccessKept s3 s5 := by
  obtain ⟨hcode, ⟨-, -, rfl⟩ | ⟨-, hparam⟩⟩ := h
  · exact accessKept_of_checkRange hcode
  · exact (accessKept_of_checkRange hcode).trans (accessKept_of_checkRange hparam)

/-- A launch whose checks pass starts its kernel. -/
theorem launchDesc_starts {k q j va code param : Nat} {d : List Word} {s3 s4 s5 : State} (hbad : launchBad d = false)
    (h : LaunchObjects (.queue k q) j d code param s3 s4 s5) (start : Nat → Kernel → State → State) :
    launchDesc start (.queue k q) j va d s3 = start j (launchKernel d k code param (Claims.maskOf k q s5)) s5 := by
  rw [Claims.maskOf, launchKernel_mask]
  unfold launchDesc
  obtain ⟨hcode, ⟨hnone, rfl, rfl⟩ | ⟨hsome, hparam⟩⟩ := h
  · simp only [hbad, hcode, hnone]
    rfl
  · simp only [hbad, hcode, hsome, hparam]
    rfl

section
variable {x : Kernel} {s : State} (hcode : x.codeBytes ≤ getFld pgCap 0 0x108 8 8 s * 1024)
include hcode

theorem launchKernelStart_empty (hblocks : kernelBlocks x = 0) (j : Nat) : launchKernelStart j x s = endJob j 0 0 0 s := by
  rw [launchKernelStart, if_neg (by omega), if_pos hblocks]

theorem launchKernelStart_accepts (hblocks : kernelBlocks x ≠ 0) (hroom : x.coop = false ∨ kernelBlocks x ≤ coopRoom x s) (j : Nat) :
    launchKernelStart j x s = setKernel j x s := by
  have hfits : ¬ ((x.coop && decide (coopRoom x s < kernelBlocks x)) = true) := by
    rcases hroom with hcoop | hroom
    · simp [hcoop]
    · simp [Nat.not_lt.2 hroom]
  rw [launchKernelStart, if_neg (by omega), if_neg hblocks, if_neg hfits]

theorem launchKernelStart_noRoom (hblocks : kernelBlocks x ≠ 0) (hcoop : x.coop = true) (hroom : coopRoom x s < kernelBlocks x)
    (j : Nat) : ∃ d' v, launchKernelStart j x s = endJob j 1 0x000C d' v ∧ v.fe = s.fe := by
  rw [launchKernelStart, if_neg (by omega), if_neg hblocks, if_pos (by simp [hcoop, hroom])]
  exact ⟨_, _, rfl, rfl⟩

end

/-! ## The statement -/

theorem launchCmd_starts (o : Owner) (c : List Word) (s : State) : launchCmd o c 0 s =
    startJob o c (fun j s => withDesc o j rqFe c 64 64 (launchDesc launchKernelStart o j) s) s := rfl

/-- What the first actions of a launch make of the descriptor that it reads. -/
theorem launch_reads {k : Fin 64} {q : Fin 16} {c : List Word} {va : Nat} {d : List Word} {s s1 s3 : State}
    (h : ReadsDesc k q rqFe 64 64 c va d s s1 s3) :
    ∃ s2, StartsJob k q c s s1 s2 ∧ AccessKept (jobStart k q c s2) s3 ∧
      withDesc (.queue k.val q.val) s.fe.nextJob rqFe c 64 64 (launchDesc launchKernelStart (.queue k.val q.val) s.fe.nextJob)
        (jobStart k q c s2) = launchDesc launchKernelStart (.queue k.val q.val) s.fe.nextJob va d s3 := by
  obtain ⟨s2, u, bs, s', hstarts, rfl, hname, halign, hread, rfl⟩ := h
  have hkept := accessKept_vaReadAll rqFe k.val va 64 .rd s'
  rw [hread] at hkept
  exact ⟨s2, hstarts, (accessKept_of_nameRange hname).trans hkept, withDesc_reads hname halign hread _⟩

/-- A command without room for its record. -/
theorem jobCommand_full {k : Fin 64} {q : Fin 16} {c : List Word} {i : Instr} {s s1 s2 : State} (h : Takes (.queue k q) c 0 s s1)
    (hfull : (queueOf k.val q.val s1).full = false) (hroom : ringRoom k.val q.val s1 = (some false, s2))
    (hi : (opOf c = 1 ∧ i = .launch (.queue k q)) ∨ (opOf c = 5 ∧ i = .dmaCopy (.queue k q)) ∨
      (opOf c = 6 ∧ i = .dmaFill (.queue k q)) ∨ (opOf c = 7 ∧ i = .dmaGather (.queue k q))) :
    ∃ t, exec i s = .next t ∧ queueOf k.val q.val t = { queueOf k.val q.val s with full := true } ∧
      OtherQueues k.val q.val s t := by
  rcases hi with ⟨hop, rfl⟩ | ⟨hop, rfl⟩ | ⟨hop, rfl⟩ | ⟨hop, rfl⟩
  · exact ⟨_, exec_launch _ s, onCommand_full h hfull hroom (by simp [selOp, hop]) fun _ => rfl⟩
  · exact ⟨_, exec_dmaCopy _ s, onCommand_full h hfull hroom (by simp [selOp, hop]) fun _ => rfl⟩
  · exact ⟨_, exec_dmaFill _ s, onCommand_full h hfull hroom (by simp [selOp, hop]) fun _ => rfl⟩
  · exact ⟨_, exec_dmaGather _ s, onCommand_full h hfull hroom (by simp [selOp, hop]) fun _ => rfl⟩

/-- LAUNCH, by its descriptor, its objects and its blocks. -/
theorem launch_starts {k : Fin 64} {q : Fin 16} {c : List Word} {va code param : Nat} {d : List Word} {x : Kernel}
    {s s1 s3 s4 s5 : State} (hop : opOf c = 1) (h : ReadsDesc k q rqFe 64 64 c va d s s1 s3) :
    (launchBad d = true →
      ∃ t, exec (.launch (.queue k q)) s = .next t ∧ JobEnds k.val q.val c ⟨1, 0x0017, va⟩ s t) ∧
    (launchBad d = false → LaunchObjects (.queue k.val q.val) s.fe.nextJob d code param s3 s4 s5 →
      x = launchKernel d k.val code param (Claims.maskOf k.val q.val s) → x.codeBytes ≤ getFld pgCap 0 0x108 8 8 s5 * 1024 →
      (kernelBlocks x = 0 →
        ∃ t, exec (.launch (.queue k q)) s = .next t ∧ JobEnds k.val q.val c ⟨0, 0, 0⟩ s t) ∧
      (kernelBlocks x ≠ 0 → x.coop = false ∨ kernelBlocks x ≤ coopRoom x s5 →
        ∃ t, exec (.launch (.queue k q)) s = .next t ∧ QueueJobRuns k.val q.val c s t ∧ kernelOf s.fe.nextJob t = some x) ∧
      (kernelBlocks x ≠ 0 → x.coop = true → coopRoom x s5 < kernelBlocks x →
        ∃ t d', exec (.launch (.queue k q)) s = .next t ∧ JobEnds k.val q.val c ⟨1, 0x000C, d'⟩ s t)) := by
  obtain ⟨s2, hstarts, hkept, hacts⟩ := launch_reads h
  have hsel : selOp 0x01 c = true := by simp [selOp, hop]
  refine ⟨fun hbad => ⟨_, exec_launch _ s, jobEnds_of_act hstarts hsel (launchCmd_starts _ c)
    (hacts.trans (launchDesc_bad hbad _ _ _ _ _)) hkept.fe⟩, fun hgood hobjects hx hcode => ?_⟩
  have hkept5 := hkept.trans hobjects.kept
  have hmask : Claims.maskOf k.val q.val s5 = Claims.maskOf k.val q.val s := by
    have hcmask := (jobPut_of_startsJob hstarts).1.cmask
    simp only [Claims.maskOf, queueOf_of_fe hkept5.fe, hcmask]
  have hstart := hacts.trans (launchDesc_starts hgood hobjects launchKernelStart)
  rw [hmask, ← hx] at hstart
  refine ⟨fun hnone => ?_, fun hblocks hroom => ?_, fun hblocks hcoop hroom => ?_⟩
  · exact ⟨_, exec_launch _ s, jobEnds_of_act hstarts hsel (launchCmd_starts _ c)
      (hstart.trans (launchKernelStart_empty hcode hnone _)) hkept5.fe⟩
  · obtain ⟨hruns, hcpt, -⟩ := queueJobRuns_of_act hstarts hsel (launchCmd_starts _ c)
      (hstart.trans (launchKernelStart_accepts hcode hblocks hroom _)) hkept5.fe
    exact ⟨_, exec_launch _ s, hruns,
      (congrArg (fun x : Compute => tabFind s.fe.nextJob x.kernels) hcpt).trans (kernelOf_setKernel_self _ _ _)⟩
  · obtain ⟨d', v, hends, hv⟩ := launchKernelStart_noRoom hcode hblocks hcoop hroom s.fe.nextJob
    exact ⟨_, d', exec_launch _ s, jobEnds_of_act hstarts hsel (launchCmd_starts _ c) (hstart.trans hends) (hv.trans hkept5.fe)⟩

/-- A DMA command whose names pass their checks: with no bytes its job ends OK, and else its transfer starts. -/
theorem transfer_starts {k : Fin 64} {q : Fin 16} {c : List Word} {len : Nat} {x : Xfer} {s s1 s2 v : State} {i : Instr}
    {sel : List Word → Bool} {cmd : Owner → List Word → Nat → State → Option State} {act : Nat → State → State}
    (hexec : exec i s = .next (tidyMem (onCommand (.queue k q) sel cmd s))) (h : StartsJob k q c s s1 s2) (hsel : sel c = true)
    (hcmd : ∀ s, cmd (.queue k.val q.val) c 0 s = startJob (.queue k.val q.val) c act s)
    (hact : act s.fe.nextJob (jobStart k q c s2) =
      if len = 0 then endJob s.fe.nextJob 0 0 0 v else dmaStart (ownDma (.queue k.val q.val) v) s.fe.nextJob k.val x v)
    (hv : AccessKept (jobStart k q c s2) v) :
    (len = 0 → ∃ t, exec i s = .next t ∧ JobEnds k.val q.val c ⟨0, 0, 0⟩ s t) ∧
    (len ≠ 0 → ∃ t, exec i s = .next t ∧ QueueJobRuns k.val q.val c s t ∧
      TransferTaken ((queueOf k.val q.val s).engine - 5) k.val x s t) := by
  refine ⟨fun hlen => ?_, fun hlen => ?_⟩
  · rw [if_pos hlen] at hact
    exact ⟨_, hexec, jobEnds_of_act h hsel hcmd hact hv.fe⟩
  · rw [if_neg hlen] at hact
    exact ⟨_, hexec, transferTaken_of_act h hsel hcmd hact hv⟩

theorem dmaCopyCmd_starts (o : Owner) (c : List Word) (s : State) : dmaCopyCmd o c 0 s =
    startJob o c (fun j s =>
      withRange o j (cw c 1) ((cw c 3).toNat + fld (cw c 5) 0 8 * 2 ^ 32) ((cw c 6).toNat + fld (cw c 7) 0 8 * 2 ^ 32) (fun src s =>
        withRange o j (cw c 2) ((cw c 4).toNat + fld (cw c 5) 8 8 * 2 ^ 32) ((cw c 6).toNat + fld (cw c 7) 0 8 * 2 ^ 32) (fun dst s =>
          if (cw c 6).toNat + fld (cw c 7) 0 8 * 2 ^ 32 = 0 then endJob j 0 0 0 s
          else dmaStart (ownDma o s) j (ownSlot o s) (.copy src dst ((cw c 6).toNat + fld (cw c 7) 0 8 * 2 ^ 32)) s) s) s) s := rfl

theorem dmaFillCmd_starts (o : Owner) (c : List Word) (s : State) : dmaFillCmd o c 0 s =
    startJob o c (fun j s =>
      withRange o j (cw c 1) ((cw c 2).toNat + fld (cw c 3) 0 8 * 2 ^ 32) (cw64 c 6) (fun dst s =>
        if cw64 c 6 = 0 then endJob j 0 0 0 s
        else dmaStart (ownDma o s) j (ownSlot o s) (.fill dst (cw64 c 6) (cw c 4)) s) s) s := rfl

theorem dmaGatherCmd_starts (o : Owner) (c : List Word) (s : State) : dmaGatherCmd o c 0 s =
    startJob o c (fun j s =>
      withRange o j (cw c 1) (cw c 2).toNat 64 (fun va s =>
        if va % 64 ≠ 0 then jobFail j (0x0017, va) s else dmaStart (ownDma o s) j (ownSlot o s) (.gather va) s) s) s := rfl

/-- DMA_GATHER, by the alignment of its descriptor. -/
theorem gather_starts {k : Fin 64} {q : Fin 16} {c : List Word} {va : Nat} {s s1 s2 s3 : State} (h : StartsJob k q c s s1 s2)
    (hop : opOf c = 7) (hname : nameRange (.queue k.val q.val) (jobRef s.fe.nextJob (jobStart k q c s2)) (cw c 1) (cw c 2).toNat 64
      (jobStart k q c s2) = (.ok va, s3)) :
    (va % 64 ≠ 0 → ∃ t, exec (.dmaGather (.queue k q)) s = .next t ∧ JobEnds k.val q.val c ⟨1, 0x0017, va⟩ s t) ∧
    (va % 64 = 0 → ∃ t, exec (.dmaGather (.queue k q)) s = .next t ∧ QueueJobRuns k.val q.val c s t ∧
      TransferTaken ((queueOf k.val q.val s).engine - 5) k.val (.gather va) s t) := by
  have hsel : selOp 0x07 c = true := by simp [selOp, hop]
  have hkept := accessKept_of_nameRange hname
  refine ⟨fun halign => ?_, fun halign => ?_⟩
  · exact ⟨_, exec_dmaGather _ s, jobEnds_of_act h hsel (dmaGatherCmd_starts _ c)
      ((withRange_ok hname _).trans (if_pos halign)) hkept.fe⟩
  · exact ⟨_, exec_dmaGather _ s, transferTaken_of_act h hsel (dmaGatherCmd_starts _ c)
      ((withRange_ok hname _).trans (if_neg (not_not.2 halign))) hkept⟩

/-- Settles O41: a command with room puts its job in the table and acts on what its names and its descriptor give, and passing it changes
no more than its queue; without room the queue waits. -/
theorem jobCommandsStartTheirJobs : Obligations.JobCommandsStartTheirJobs := by
  unfold Obligations.JobCommandsStartTheirJobs
  refine ⟨fun k q c i s s1 s2 h hfull hroom hi => jobCommand_full h hfull hroom hi, ?_, ?_, ?_, ?_⟩
  · intro k q c va code param d x s s1 s3 s4 s5 hop h
    obtain ⟨hbad, hgood⟩ := launch_starts (code := code) (param := param) (x := x) (s4 := s4) (s5 := s5) hop h
    exact ⟨hbad, fun hb hcode hparam => hgood hb ⟨hcode, hparam⟩⟩
  · intro k q c n src dst len so d s s1 s2 u s3 s4 h hop hn hlen hso hd hu hsrc hdst
    subst hn hlen hso hd hu
    exact transfer_starts (exec_dmaCopy _ s) h (by simp [selOp, hop]) (dmaCopyCmd_starts _ c)
      ((withRange_ok hsrc _).trans (withRange_ok hdst _)) ((accessKept_of_nameRange hsrc).trans (accessKept_of_nameRange hdst))
  · intro k q c n dst s s1 s2 u s3 h hop hn hu hdst
    subst hn hu
    exact transfer_starts (exec_dmaFill _ s) h (by simp [selOp, hop]) (dmaFillCmd_starts _ c)
      (withRange_ok hdst _) (accessKept_of_nameRange hdst)
  · intro k q c n va s s1 s2 u s3 h hop hn hu hname
    subst hn hu
    exact gather_starts h hop hname

end Sys2Proof.Machine

/-!
PROOFS. The statements of 05_memory_model.md on the machine's memories, the boot and the HBM controllers. First what the switching of
power domains leaves alone; then each statement after the lemmas it rests on.
-/
namespace Sys2Proof.Machine
open Sys2Proof.Claims

/-! ## Power domains switched on (R303, R361) -/

/-- BLK_STS of the pages. -/
def blkRegs (k : Nat) : Prop := ∃ pg < 146, k = rk pg 0 0x00C

theorem alters_setPower (d : Nat) (on : Bool) (s : State) : Alters blkRegs s (setPower d on s) := by
  unfold setPower
  split
  · exact ⟨.refl _ s, rfl⟩
  · refine Alters.foldlMem _ _ (fun u pg hpg => alters_setFld _ _ _ _ _ _ u ⟨pg, ?_, rfl⟩) s
    exact List.mem_range.1 (List.mem_filter.1 hpg).1

theorem alters_powerOn (ds : List Nat) (s : State) : Alters blkRegs s (powerOn ds s) :=
  .foldl _ (fun u d => .ite _ (.refl _ u) (alters_setPower d true u)) ds s

/-! ## The canonical form of the memories -/

/-- Every meaning ends through `toNext`: the state that a command leaves has its memories in canonical form. -/
theorem exec_tidied (c : Instr) (s : State) : ∃ u, exec c s = .next (tidyMem u) := by
  cases c <;> exact ⟨_, rfl⟩

/-- The memories stay, and what says how an unlisted byte of them reads. -/
def MemoriesStay (s t : State) : Prop := t.mem = s.mem ∧ t.hbc = s.hbc ∧ t.aon = s.aon

theorem MemoriesStay.refl (s : State) : MemoriesStay s s := ⟨rfl, rfl, rfl⟩

theorem MemoriesStay.trans {s t u : State} (h : MemoriesStay s t) (h' : MemoriesStay t u) : MemoriesStay s u := by
  obtain ⟨hm, hh, ha⟩ := h
  obtain ⟨hm', hh', ha'⟩ := h'
  exact ⟨hm'.trans hm, hh'.trans hh, ha'.trans ha⟩

theorem MemoriesStay.foldl {α : Type} {f : State → α → State} (h : ∀ s a, MemoriesStay s (f s a)) :
    ∀ (l : List α) (s : State), MemoriesStay s (l.foldl f s)
  | [], s => .refl s
  | a :: l, s => (h s a).trans (MemoriesStay.foldl h l (f s a))

theorem MemoriesStay.canonical {s t : State} (h : MemoriesStay s t) (hs : MemsCanonical s) : MemsCanonical t := by
  obtain ⟨hm, hh, ha⟩ := h
  simpa only [MemsCanonical, hm, hh, ha] using hs

theorem Alters.memoriesStay {R : Nat → Prop} {s t : State} (h : Alters R s t) : MemoriesStay s t := by
  obtain ⟨-, h⟩ := h
  exact ⟨by rw [h], by rw [h], by rw [h]⟩

theorem memoriesStay_tickBoot (s : State) : MemoriesStay s (tickBoot s) := by
  unfold tickBoot
  simp only
  split_ifs
  · exact .refl s
  · exact ⟨rfl, rfl, rfl⟩
  · exact ⟨rfl, rfl, rfl⟩
  · exact ⟨rfl, rfl, rfl⟩
  · exact (alters_powerOn [105] _).memoriesStay
  · exact ⟨rfl, rfl, rfl⟩

theorem memoriesStay_tickFe (s : State) : MemoriesStay s (tickFe s) := by
  unfold tickFe
  split <;> exact ⟨rfl, rfl, rfl⟩

theorem memoriesStay_tickLvn (s : State) : MemoriesStay s (tickLvn s) := by
  unfold tickLvn
  split <;> exact ⟨rfl, rfl, rfl⟩

theorem memoriesStay_tickTlr (s : State) : MemoriesStay s (tickTlr s) := by
  unfold tickTlr
  split <;> exact ⟨rfl, rfl, rfl⟩

theorem memoriesStay_tickPort (s : State) (k : Nat) : MemoriesStay s (tickPort s k) := by
  unfold tickPort
  split <;> exact ⟨rfl, rfl, rfl⟩

theorem memoriesStay_tickRings (s : State) : MemoriesStay s (tickRings s) := by
  unfold tickRings
  split <;> exact ⟨rfl, rfl, rfl⟩

theorem memoriesStay_tickAck (s : State) (pg : Nat) : MemoriesStay s (tickAck s pg) := by
  unfold tickAck
  simp only
  split <;> exact ⟨rfl, rfl, rfl⟩

theorem memoriesStay_tickTrans (s : State) : MemoriesStay s (tickTrans s) := by
  unfold tickTrans
  split
  · exact ⟨rfl, rfl, rfl⟩
  · exact MemoriesStay.trans ⟨rfl, rfl, rfl⟩ (.foldl memoriesStay_tickAck _ _)

/-- A microsecond touches no memory. -/
theorem memoriesStay_tick (s : State) : MemoriesStay s (tick s) := by
  unfold tick
  split
  · exact (memoriesStay_tickBoot s).trans ((memoriesStay_tickFe _).trans ((memoriesStay_tickLvn _).trans
      ((memoriesStay_tickTlr _).trans ((MemoriesStay.foldl memoriesStay_tickPort _ _).trans
        ((memoriesStay_tickRings _).trans (memoriesStay_tickTrans _))))))
  · exact .refl s

/-- Settles O3: a command ends with its memories put into canonical form, and a microsecond leaves them as they are. -/
theorem stepKeepsMemoriesCanonical : Obligations.StepKeepsMemoriesCanonical := by
  unfold Obligations.StepKeepsMemoriesCanonical
  intro s t hs ht
  cases hp : s.pending with
  | nil =>
    rw [step_empty hp] at ht
    injection ht with ht
    exact ht ▸ (memoriesStay_tick s).canonical hs
  | cons c rest =>
    obtain ⟨u, hu⟩ := exec_tidied c { s with pending := rest }
    rw [step_cons hp, hu] at ht
    injection ht with ht
    exact ht ▸ memsCanonical_tidyMem u

end Sys2Proof.Machine

/-!
PROOFS. The statement of 05_memory_model.md on the HBM controllers: a region that is cleared, then the fill, the invalidation, INIT and the
scrubber; then the statement.
-/
namespace Sys2Proof.Machine
open Sys2Proof.Claims

/-! ## Regions (R137, R138) -/

theorem memRead_zeros {d : Nat → Byte} {m : Tab Byte} : ∀ (n a : Nat), (∀ k, a ≤ k → k < a + n → memByte d m k = 0) →
    memRead d m a n = List.replicate n 0
  | 0, _, _ => rfl
  | n + 1, a, h => by
    rw [memRead, h a (by omega) (by omega), memRead_zeros n (a + 1) (fun k hk hn => h k (by omega) (by omega)), List.replicate_succ]

theorem tabFind_memClear_in {a n k : Nat} (h : a ≤ k ∧ k < a + n) (m : Tab Byte) : tabFind k (memClear a n m) = none := by
  rw [← Option.not_isSome_iff_eq_none, Option.isSome_iff_exists]
  rintro ⟨v, hv⟩
  have hm := (List.mem_filter.1 (exists_mem_of_tabFind hv)).2
  simp only [Bool.or_eq_true, decide_eq_true_eq] at hm
  omega

theorem tabFind_memClear_out {a n k : Nat} (h : k < a ∨ a + n ≤ k) (m : Tab Byte) : tabFind k (memClear a n m) = tabFind k m :=
  tabFind_filter (fun _ => by simpa using h) m

theorem hbmBytes_zeros {a n : Nat} {s : State} (h : ∀ k, a ≤ k → k < a + n → memByte (hbmDefault s.hbc.stale) s.mem.hbm k = 0) :
    hbmBytes a n s = List.replicate n 0 := memRead_zeros n a h

theorem hbmBytes_setFld (a n pg bank off lo w v : Nat) (s : State) : hbmBytes a n (setFld pg bank off lo w v s) = hbmBytes a n s := rfl

theorem clearRegion_hbm (r : Nat) (s : State) : (clearRegion r s).mem.hbm = memClear (r * 2 ^ 21) (2 ^ 21) s.mem.hbm := rfl

theorem clearRegion_stale (r : Nat) (s : State) : (clearRegion r s).hbc.stale = tabDel r s.hbc.stale := rfl

theorem memByte_clearRegion_in {r k : Nat} (hk : r * 2 ^ 21 ≤ k) (hn : k < r * 2 ^ 21 + 2 ^ 21) (s : State) :
    memByte (hbmDefault (clearRegion r s).hbc.stale) (clearRegion r s).mem.hbm k = 0 := by
  have hr : k / 2 ^ 21 = r := by omega
  rw [memByte, clearRegion_hbm, tabFind_memClear_in ⟨hk, hn⟩, Option.getD_none, hbmDefault, clearRegion_stale, hr, tabGet_del_self]
  rfl

/-- A region that is cleared reads 0. -/
theorem hbmBytes_clearRegion (r : Nat) (s : State) :
    hbmBytes (r * 2 ^ 21) (2 ^ 21) (clearRegion r s) = List.replicate (2 ^ 21) 0 :=
  hbmBytes_zeros fun _ hk hn => memByte_clearRegion_in hk hn s

/-- The bytes outside a region that is cleared stay. -/
theorem hbmKept_clearRegion (r : Nat) (s : State) : HbmKept (r * 2 ^ 21) (2 ^ 21) s (clearRegion r s) := fun k hk => by
  have hr : k / 2 ^ 21 ≠ r := by omega
  rw [memByte, memByte, clearRegion_hbm, tabFind_memClear_out hk, hbmDefault, hbmDefault, clearRegion_stale, tabGet_del_ne _ hr]

/-- The region's fill is over and its bit stands. -/
def regionValid (r : Nat) (s : State) : State :=
  { s with hbc := { s.hbc with filling := s.hbc.filling.filter (· != r), valid := tabSet r true s.hbc.valid } }

theorem regionFilled_kept {r : Nat} {s : State} (hf : s.hbc.filling.contains r = true) (hp : s.hbc.pendInv.contains r = false) :
    regionFilled r s = regionValid r s := by
  simp only [regionFilled, hf, hp, if_true, Bool.false_eq_true, if_false]
  rfl

theorem regionFilled_invalidated {r : Nat} {s : State} (hf : s.hbc.filling.contains r = true) (hp : s.hbc.pendInv.contains r = true) :
    regionFilled r s = setFld (pgHbc 0) 0 0x128 31 1 0 (clearRegion r (regionValid r s)) := by
  simp only [regionFilled, hf, hp, if_true]
  rfl

/-- A bit that is cleared, or set. -/
theorem bit_setFld_zero (pg bank off : Nat) {lo : Nat} (h : lo < 32) (s : State) :
    bit (getReg pg bank off (setFld pg bank off lo 1 0 s)) lo = false := bit_setFld_self pg bank off h false s

theorem bit_setFld_one (pg bank off : Nat) {lo : Nat} (h : lo < 32) (s : State) :
    bit (getReg pg bank off (setFld pg bank off lo 1 1 s)) lo = true := bit_setFld_self pg bank off h true s

theorem exec_regionFillDone (r : Nat) (s : State) : exec (.regionFillDone r) s = .next (tidyMem (regionFilled r s)) := rfl

/-- The end of a region's fill (R137, R138). -/
theorem regionFillDone_ends {r : Nat} {s : State} (hf : s.hbc.filling.contains r = true) :
    ∃ t, exec (.regionFillDone r) s = .next t ∧ t.hbc.filling = s.hbc.filling.filter (· != r) ∧
      (s.hbc.pendInv.contains r = false → tabGet false r t.hbc.valid = true ∧ t.regs = s.regs ∧ SameBytes s t) ∧
      (s.hbc.pendInv.contains r = true → bit (getReg (pgHbc 0) 0 0x128 t) 31 = false ∧
        t.hbc.pendInv.contains r = false ∧ hbmBytes (r * 2 ^ 21) (2 ^ 21) t = List.replicate (2 ^ 21) 0) := by
  refine ⟨_, exec_regionFillDone r s, ?_⟩
  cases hp : s.hbc.pendInv.contains r with
  | false =>
    rw [regionFilled_kept hf hp]
    exact ⟨rfl, fun _ => ⟨tabGet_set_self _ _ _ _, rfl, sameBytes_of_mem rfl rfl rfl⟩, nofun⟩
  | true =>
    rw [regionFilled_invalidated hf hp]
    refine ⟨rfl, nofun, fun _ => ⟨?_, ?_, ?_⟩⟩
    · rw [getReg_tidyMem]
      exact bit_setFld_zero (pgHbc 0) 0 0x128 (by omega) _
    · show (s.hbc.pendInv.filter (· != r)).contains r = false
      simp
    · rw [hbmBytes_tidyMem, hbmBytes_setFld, hbmBytes_clearRegion]

/-! ## The host's invalidation of a region (R138) -/

/-- REGION_STS names the region. -/
def regionNamed (n : Nat) (s : State) : State := setFld (pgHbc 0) 0 0x128 0 16 n s

/-- The invalidation of a region waits for its fill. -/
def invWaits (n : Nat) (s : State) : State :=
  setFld (pgHbc 0) 0 0x128 31 1 1 { regionNamed n s with hbc := { s.hbc with pendInv := s.hbc.pendInv ++ [n] } }

theorem exec_regionInv (r : Requester) (v : Word) (s : State) :
    exec (.regionInv r v) s = .next (tidyMem (blockWrite r (pgHbc 0) 0x124 (regionInvWrite v) s)) := rfl

theorem regionInvWrite_go {v : Word} {n : Nat} {s : State} (hgo : bit v 31 = true) (hn : n = fld v 0 16) (hr : n < regionCount)
    (hbusy : bit (getReg (pgHbc 0) 0 0x128 s) 31 = false) :
    regionInvWrite v s = if s.hbc.filling.contains n then invWaits n s else clearRegion n (regionNamed n s) := by
  subst hn
  simp only [regionInvWrite, hgo, hbusy, decide_eq_false (Nat.not_le.2 hr)]
  rfl

theorem getFld_regionNamed {n : Nat} (h : n < 2 ^ 16) (s : State) : getFld (pgHbc 0) 0 0x128 0 16 (regionNamed n s) = n := by
  rw [regionNamed, getFld_setFld_self _ _ _ _ _ _ (by omega), Nat.mod_eq_of_lt h]

/-- A field of a register keeps its value where another field of it is set. -/
theorem getFld_setFld_ne (pg bank off lo n v lo' n' : Nat) (hb : lo' + n' ≤ 32) (h : lo' + n' ≤ lo ∨ lo + n ≤ lo') (s : State) :
    getFld pg bank off lo' n' (setFld pg bank off lo n v s) = getFld pg bank off lo' n' s := by
  rw [getFld, setFld, getReg_setReg_self, fld_putFld_ne _ _ _ _ _ _ hb h, getFld]

/-- REGION_INV with GO (R138). -/
theorem regionInv_goes {r : Requester} {v : Word} {n : Nat} {s : State} (hh : Heard r (pgHbc 0) 0x124 s = true) (hgo : bit v 31 = true)
    (hn : n = fld v 0 16) (hr : n < regionCount) (hbusy : bit (getReg (pgHbc 0) 0 0x128 s) 31 = false) :
    ∃ t, exec (.regionInv r v) s = .next t ∧ getFld (pgHbc 0) 0 0x128 0 16 t = n ∧
      OtherRegs (fun k => k = rk (pgHbc 0) 0 0x128) s t ∧
      (s.hbc.filling.contains n = true → bit (getReg (pgHbc 0) 0 0x128 t) 31 = true ∧
        t.hbc = { s.hbc with pendInv := s.hbc.pendInv ++ [n] } ∧ SameBytes s t) ∧
      (s.hbc.filling.contains n = false → bit (getReg (pgHbc 0) 0 0x128 t) 31 = false ∧
        hbmBytes (n * 2 ^ 21) (2 ^ 21) t = List.replicate (2 ^ 21) 0 ∧ HbmKept (n * 2 ^ 21) (2 ^ 21) s t) := by
  have hname := getFld_regionNamed (n := n) (by simp only [regionCount] at hr; omega) s
  have hnamed : OtherRegs (fun k => k = rk (pgHbc 0) 0 0x128) s (regionNamed n s) := otherRegs_setFld (by rfl) _ _ _ s
  refine ⟨_, exec_regionInv r v s, ?_⟩
  rw [blockWrite_heard hh, regionInvWrite_go hgo hn hr hbusy]
  cases hf : s.hbc.filling.contains n with
  | true =>
    refine ⟨?_, hnamed.trans (t := { regionNamed n s with hbc := _ }) (otherRegs_setFld (by rfl) _ _ _ _),
      fun _ => ⟨?_, rfl, sameBytes_of_mem rfl rfl rfl⟩, nofun⟩
    · exact (getFld_setFld_ne _ _ _ _ _ _ _ _ (by omega) (by omega) _).trans hname
    · exact bit_setFld_one (pgHbc 0) 0 0x128 (by omega) _
  | false =>
    refine ⟨hname, hnamed, nofun, fun _ => ⟨?_, ?_, ?_⟩⟩
    · exact (bit_setFld_ne (pgHbc 0) 0 0x128 0 16 n (by omega) s).trans hbusy
    · exact (hbmBytes_tidyMem _ _ _).trans (hbmBytes_clearRegion n (regionNamed n s))
    · exact (hbmKept_clearRegion n (regionNamed n s)).tidyMem

/-! ## INIT (R143) -/

theorem exec_hbmInit (r : Requester) (n : Fin 4) (s : State) :
    exec (.hbmInit r n) s = .next (tidyMem (blockWrite r (pgHbc n.val) 0x100 (hbmInitWrite n.val) s)) := rfl

/-- INIT stands, and the pseudo-channels that are retired are counted. -/
def initSet (n : Nat) (s : State) : State :=
  setFld (pgHbc n) 0 0x104 8 6 (retiredCount n s) (setFld (pgHbc n) 0 0x100 0 1 1 s)

theorem hbmInitWrite_first {n : Nat} {s : State} (h : bit (getReg (pgHbc n) 0 0x100 s) 0 = false) :
    hbmInitWrite n s = if stage s = 3 ∧ allInit (initSet n s) then setFld pgRst 0 0x12C 0 4 4 (initSet n s) else initSet n s := by
  have hstage : stage (initSet n s) = stage s := by
    rw [stage, getFld, initSet, getReg_setFld_ne (by simp only [rk, pgRst, pgHbc]; omega),
      getReg_setFld_ne (by simp only [rk, pgRst, pgHbc]; omega), stage, getFld]
  rw [← hstage]
  simp only [hbmInitWrite, h, Bool.false_eq_true, if_false]
  rfl

theorem retiredCount_lt (n : Nat) (s : State) : retiredCount n s < 64 := by
  have h := List.length_filter_le (fun k => bit (getReg (pgHbc n) 0 0x108 s) k) (List.range 32)
  rw [List.length_range] at h
  unfold retiredCount
  omega

theorem init_initSet (n : Nat) (s : State) : bit (getReg (pgHbc n) 0 0x100 (initSet n s)) 0 = true := by
  rw [initSet, getReg_setFld_ne (by simp only [rk]; omega)]
  exact bit_setFld_one (pgHbc n) 0 0x100 (by omega) s

theorem allInit_initSet {n : Nat} {s : State} (h : ∀ m, m < 4 → m ≠ n → bit (getReg (pgHbc m) 0 0x100 s) 0 = true) :
    allInit (initSet n s) = true := by
  refine List.all_eq_true.2 fun m hm => ?_
  show bit (getReg (pgHbc m) 0 0x100 (initSet n s)) 0 = true
  by_cases hmn : m = n
  · rw [hmn, init_initSet]
  · rw [initSet, getReg_setFld_ne (by simp only [rk, pgHbc]; omega), getReg_setFld_ne (by simp only [rk, pgHbc]; omega)]
    exact h m (List.mem_range.1 hm) hmn

theorem altersRegs_initSet (n : Nat) (s : State) :
    AltersRegs (fun k => k = rk (pgHbc n) 0 0x100 ∨ k = rk (pgHbc n) 0 0x104) s (initSet n s) :=
  (altersRegs_setFld (.inl rfl) _ _ _ s).trans (altersRegs_setFld (.inr rfl) _ _ _ _)

/-- A first INIT of a stack (R143). -/
theorem hbmInit_starts {r : Requester} {n : Fin 4} {s : State} (hh : Heard r (pgHbc n.val) 0x100 s = true)
    (h0 : bit (getReg (pgHbc n.val) 0 0x100 s) 0 = false) :
    ∃ t, exec (.hbmInit r n) s = .next t ∧ bit (getReg (pgHbc n.val) 0 0x100 t) 0 = true ∧
      getFld (pgHbc n.val) 0 0x104 8 6 t = retiredCount n.val s ∧ SameBytes s t ∧
      (stage s ≠ 3 → OtherRegs (fun k => k = rk (pgHbc n.val) 0 0x100 ∨ k = rk (pgHbc n.val) 0 0x104) s t) ∧
      (stage s = 3 → (∀ m, m < 4 → m ≠ n.val → bit (getReg (pgHbc m) 0 0x100 s) 0 = true) → stage t = 4) := by
  have hret : getFld (pgHbc n.val) 0 0x104 8 6 (initSet n.val s) = retiredCount n.val s := by
    have := retiredCount_lt n.val s
    rw [initSet, getFld_setFld_self _ _ _ _ _ _ (by omega), Nat.mod_eq_of_lt (by omega)]
  refine ⟨_, exec_hbmInit r n s, ?_⟩
  rw [blockWrite_heard hh, hbmInitWrite_first h0]
  by_cases hall : stage s = 3 ∧ allInit (initSet n.val s) = true
  · rw [if_pos hall]
    refine ⟨?_, ?_, ?_, fun hne => absurd hall.1 hne, fun _ _ => ?_⟩
    · rw [getReg_tidyMem, getReg_setFld_ne (by simp only [rk, pgRst, pgHbc]; omega)]
      exact init_initSet n.val s
    · rw [getFld_tidyMem, getFld, getReg_setFld_ne (by simp only [rk, pgRst, pgHbc]; omega)]
      exact hret
    · exact sameBytes_of_mem rfl rfl rfl
    · rw [stage, getFld_tidyMem, getFld_setFld_self _ _ _ _ _ _ (by omega)]
      rfl
  · rw [if_neg hall]
    exact ⟨init_initSet n.val s, hret, (altersRegs_initSet n.val s).sameBytes, fun _ => (altersRegs_initSet n.val s).1,
      fun h3 hinit => absurd ⟨h3, allInit_initSet hinit⟩ hall⟩

/-! ## The scrubber (R141) -/

theorem exec_patrolScrubStep (n : Fin 4) (s : State) : exec (.patrolScrubStep n) s = .next (tidyMem (scrubStep n.val s)) := rfl

/-- The position moves on; at the end of a pass it is 0, the pass is counted and its condition arises. -/
def scrubMoved (n pos steps : Nat) (s : State) : State :=
  if pos + 1 < steps then setFld (pgHbc n) 0 0x120 0 27 (pos + 1) s
  else raiseIrq (pgHbc n) 1 (addFld (pgHbc n) 0 0x11C 0 16 1 (setFld (pgHbc n) 0 0x120 0 27 0 s))

/-- The units of the scrubber's next step. -/
def scrubHit (n : Nat) (s : State) (u : Nat) : Bool :=
  stackOf (u * 32) s == n && scrubPlace n (u / 8) s == getFld (pgHbc n) 0 0x120 0 27 s

/-- The errors of those units corrected, counted and logged. -/
def scrubbed (n : Nat) (s : State) : State :=
  (s.hbc.ecc.filter (fun e => scrubHit n s e.1)).foldl (fun s e => hbmUnitError e.1 e.2.ue true s) s

theorem scrubStep_active {n : Nat} {s : State} (ha : scrubActive n s = true) (hz : scrubSteps n s ≠ 0) :
    scrubStep n s = scrubMoved n (getFld (pgHbc n) 0 0x120 0 27 s) (scrubSteps n (scrubbed n s)) (scrubbed n s) := by
  simp only [scrubStep, ha, beq_eq_false_iff_ne.2 hz]
  rfl

theorem scrubSteps_lt (n : Nat) (s : State) : scrubSteps n s < 2 ^ 27 := by
  unfold scrubSteps
  omega

/-- The registers of a scrub step's position: its own, the passes and the condition. -/
def scrubRegs (n k : Nat) : Prop := k = rk (pgHbc n) 0 0x120 ∨ k = rk (pgHbc n) 0 0x11C ∨ irqRegs (pgHbc n) k

theorem alters_scrubMoved (n pos steps : Nat) (s : State) : Alters (scrubRegs n) s (scrubMoved n pos steps s) := by
  have hpos (v : Nat) : Alters (scrubRegs n) s (setFld (pgHbc n) 0 0x120 0 27 v s) := alters_setFld _ _ _ _ _ _ s (.inl rfl)
  unfold scrubMoved
  refine .ite _ (hpos _) ?_
  exact ((hpos 0).trans (alters_setFld _ _ _ _ _ _ _ (.inr (.inl rfl)))).trans (alters_raiseIrq _ _ _ fun _ h => .inr (.inr h))

/-- The registers of a position are not among those of a condition. -/
theorem not_irqRegs_scrub {n off : Nat} (hn : n < 4) (ho : off < 65536) (h : off ≠ 0x010 ∧ off ≠ 0x018) :
    ¬ irqRegs (pgHbc n) (rk (pgHbc n) 0 off) := by
  simp only [irqRegs, rk, pgHbc, pgPba]
  omega

theorem scrubMoved_mid {n pos steps : Nat} (h : pos + 1 < steps) (hs : steps < 2 ^ 27) (s : State) :
    getFld (pgHbc n) 0 0x120 0 27 (scrubMoved n pos steps s) = pos + 1 ∧
    OtherRegs (fun k => k = rk (pgHbc n) 0 0x120) s (scrubMoved n pos steps s) := by
  rw [scrubMoved, if_pos h]
  exact ⟨by rw [getFld_setFld_self _ _ _ _ _ _ (by omega), Nat.mod_eq_of_lt (by omega)], otherRegs_setFld (by rfl) _ _ _ s⟩

theorem scrubMoved_end {n pos steps : Nat} (hn : n < 4) (h : steps ≤ pos + 1) (s : State) :
    getFld (pgHbc n) 0 0x120 0 27 (scrubMoved n pos steps s) = 0 ∧
    getFld (pgHbc n) 0 0x11C 0 16 (scrubMoved n pos steps s) = min 65535 (getFld (pgHbc n) 0 0x11C 0 16 s + 1) ∧
    bit (getReg (pgHbc n) 0 0x010 (scrubMoved n pos steps s)) 1 = true := by
  rw [scrubMoved, if_neg (Nat.not_lt.2 h)]
  have hirq (u : State) := (raiseIrq_does (pgHbc n) 1 u).1
  refine ⟨?_, ?_, raiseIrq_raw _ _ (by simp only [pgHbc, pgPba]; omega) (by omega) _⟩
  · rw [getFld, (hirq _).getReg (not_irqRegs_scrub hn (by omega) (by omega)), addFld, getReg_setFld_ne (by simp only [rk]; omega)]
    exact getFld_setFld_self _ _ _ _ _ _ (by omega) s
  · rw [getFld, (hirq _).getReg (not_irqRegs_scrub hn (by omega) (by omega)), ← getFld, addFld, getFld_setFld_self _ _ _ _ _ _ (by omega),
      getFld, getReg_setFld_ne (by simp only [rk]; omega), ← getFld, satAdd]
    have := Nat.mod_lt ((getReg (pgHbc n) 0 0x11C s).toNat / 2 ^ 0) (show 0 < 2 ^ 16 by omega)
    split <;> omega

theorem scrubbed_noErrors {n : Nat} {s : State} (h : s.hbc.ecc = []) : scrubbed n s = s := by simp [scrubbed, h]

/-- A step of the scrubber over units without errors. -/
theorem patrolScrubStep_clean {n : Fin 4} {s : State} (ha : scrubActive n.val s = true) (hz : scrubSteps n.val s ≠ 0)
    (he : s.hbc.ecc = []) :
    ∃ t, exec (.patrolScrubStep n) s = .next t ∧ SameBytes s t ∧
      (getFld (pgHbc n.val) 0 0x120 0 27 s + 1 < scrubSteps n.val s →
        getFld (pgHbc n.val) 0 0x120 0 27 t = getFld (pgHbc n.val) 0 0x120 0 27 s + 1 ∧
        OtherRegs (fun k => k = rk (pgHbc n.val) 0 0x120) s t) ∧
      (scrubSteps n.val s ≤ getFld (pgHbc n.val) 0 0x120 0 27 s + 1 → getFld (pgHbc n.val) 0 0x120 0 27 t = 0 ∧
        getFld (pgHbc n.val) 0 0x11C 0 16 t = min 65535 (getFld (pgHbc n.val) 0 0x11C 0 16 s + 1) ∧
        bit (getReg (pgHbc n.val) 0 0x010 t) 1 = true) := by
  refine ⟨_, exec_patrolScrubStep n s, ?_⟩
  rw [scrubStep_active ha hz, scrubbed_noErrors he]
  exact ⟨(alters_scrubMoved _ _ _ s).sameBytes, fun h => scrubMoved_mid h (scrubSteps_lt _ s) s, fun h => scrubMoved_end n.isLt h s⟩

/-! An error that the scrubber corrects. -/

/-- The registers of a stack's log and events: not its count of corrected errors. -/
def logRegs (n k : Nat) : Prop :=
  k = rk (pgHbc n) 0 0x114 ∨ (∃ i < 16, ∃ j < 4, k = rk (pgHbc n) 0 (0x200 + 4 * j + 16 * i)) ∨ faultRegs (pgHbc n) k

theorem srcHome_stack {n : Nat} (hn : n < 4) :
    srcHome (208 + n) = (pgHbc n, 0) ∧ srcHome (212 + n) = (pgHbc n, 1) ∧ srcHome (216 + n) = (pgHbc n, 2) := by
  interval_cases n <;> decide

theorem mem_range_of_find {p : Nat → Bool} {n i : Nat} (h : (List.range n).find? p = some i) : i < n :=
  List.mem_range.1 (List.mem_of_find?_eq_some h)

/-- What the log of an error changes: the stack's log, and the registers of its events. -/
theorem alters_logRegs_logHbmError {u n : Nat} {s : State} (hu : stackOf (u * 32) s = n) (ue scrub : Bool) :
    Alters (logRegs n) s (logHbmError u ue scrub s) := by
  have hn : n < 4 := hu ▸ stackOf_lt _ s
  have hent {t v : State} (i j : Nat) (hi : i < 16) (hj : j < 4) (w : Word) (h : Alters (logRegs n) t v) :
      Alters (logRegs n) t (setReg (pgHbc n) 0 (0x200 + 4 * j + 16 * i) w v) :=
    h.trans (alters_setReg _ _ _ _ v (.inr (.inl ⟨i, hi, j, hj, rfl⟩)))
  have hsts {t v : State} (w : Word) (h : Alters (logRegs n) t v) : Alters (logRegs n) t (setReg (pgHbc n) 0 0x114 w v) :=
    h.trans (alters_setReg _ _ _ _ v (.inl rfl))
  have hfault {t v : State} (h : Alters (logRegs n) t v) : Alters (logRegs n) t (fault (216 + n) v) :=
    h.trans (alters_fault _ v fun k hk => .inr (.inr (by rwa [(srcHome_stack hn).2.2] at hk)))
  have hirq {t v : State} (h : Alters (logRegs n) t v) : Alters (logRegs n) t (raiseIrq (pgHbc n) 0 v) :=
    h.trans (alters_raiseIrq _ 0 v fun _ hk => .inr (.inr (.inl hk)))
  unfold logHbmError
  simp only [hu]
  split
  · next i hi =>
    have h3 {t v : State} (w : Word) (h : Alters (logRegs n) t v) : Alters (logRegs n) t (setReg (pgHbc n) 0 (0x20C + 16 * i) w v) :=
      hent i 3 (mem_range_of_find hi) (by omega) w h
    refine .ite _ ?_ (hfault ?_) <;>
    exact h3 _ (.ite _ (h3 _ (h3 _ (.refl _ s))) (h3 _ (.refl _ s)))
  · split
    · next i hi =>
      have hi := mem_range_of_find hi
      have hnew {t : State} (a b c d e : Word) : Alters (logRegs n) t (setReg (pgHbc n) 0 0x114 e (setReg (pgHbc n) 0 (0x20C + 16 * i) d
          (setReg (pgHbc n) 0 (0x208 + 16 * i) c (setReg (pgHbc n) 0 (0x204 + 16 * i) b (setReg (pgHbc n) 0 (0x200 + 16 * i) a t))))) :=
        hsts _ (hent i 3 hi (by omega) _ (hent i 2 hi (by omega) _ (hent i 1 hi (by omega) _ (hent i 0 hi (by omega) _ (.refl _ t)))))
      exact .ite _ (hfault (hirq (hnew _ _ _ _ _))) (hirq (hnew _ _ _ _ _))
    · refine hfault (.ite _ (hirq ?_) ?_) <;>
      exact hsts _ (hsts _ (.refl _ s))

/-- A correctable error that is met: counted, corrected and reported. -/
theorem hbmUnitError_corrects {u n : Nat} {s : State} (hu : stackOf (u * 32) s = n) (scrub : Bool) :
    HbmStays s (hbmUnitError u false scrub s) ∧ MemoriesStay s { hbmUnitError u false scrub s with hbc := s.hbc } ∧
    (hbmUnitError u false scrub s).hbc.ecc = tabDel u s.hbc.ecc ∧
    (getReg (pgHbc n) 0 0x10C (hbmUnitError u false scrub s)).toNat = min (2 ^ 32 - 1) ((getReg (pgHbc n) 0 0x10C s).toNat + 1) ∧
    bit (getReg (pgHbc n) 0 0x020 (hbmUnitError u false scrub s)) 1 = true := by
  have hn : n < 4 := hu ▸ stackOf_lt _ s
  obtain ⟨-, hhome, -⟩ := srcHome_stack hn
  have hlog := alters_logRegs_logHbmError hu false scrub
  generalize hv : logHbmError u false scrub s = v at hlog
  have hunit : hbmUnitError u false scrub s =
      fault (212 + n) (count32 (pgHbc n) 0 0x10C { v with hbc := { v.hbc with ecc := tabDel u v.hbc.ecc } }) := by
    simp only [hbmUnitError, hu, hv, Bool.false_eq_true, if_false]
  have hevent := alters_fault (212 + n) (count32 (pgHbc n) 0 0x10C { v with hbc := { v.hbc with ecc := tabDel u v.hbc.ecc } })
    (R := faultRegs (pgHbc n)) (fun k hk => by rwa [hhome] at hk)
  have hstays := hbmStays_hbmUnitError u false scrub s
  obtain ⟨hregs, hsame⟩ := hlog
  rw [hunit] at hstays ⊢
  refine ⟨hstays, ?_, ?_, ?_, ?_⟩
  · obtain ⟨-, h⟩ := hevent
    exact ⟨by rw [h]; show v.mem = s.mem; rw [hsame], rfl, by rw [h]; show v.aon = s.aon; rw [hsame]⟩
  · obtain ⟨-, h⟩ := hevent
    rw [h]
    show tabDel u v.hbc.ecc = _
    rw [hsame]
  · rw [hevent.getReg (by simp only [faultRegs, irqRegs, rk, pgHbc, pgPba]; omega)]
    refine (getReg_addFld_whole (pgHbc n) 0 0x10C 1 _).trans ?_
    show min (2 ^ 32 - 1) ((getReg (pgHbc n) 0 0x10C v).toNat + 1) = _
    rw [hregs.getReg]
    simp only [logRegs, faultRegs, irqRegs, rk, pgHbc, pgPba]
    omega
  · rw [fault, hhome]
    exact bit_sticky_faultAt _ (by simp only [pgHbc, pgPba]; omega) (by omega) _

/-- A step of the scrubber that meets a correctable error. -/
theorem patrolScrubStep_corrects {n : Fin 4} {u : Nat} {s : State} (ha : scrubActive n.val s = true) (hz : scrubSteps n.val s ≠ 0)
    (he : s.hbc.ecc = [(u, { ue := false })]) (hu : stackOf (u * 32) s = n.val)
    (hp : scrubPlace n.val (u / 8) s = getFld (pgHbc n.val) 0 0x120 0 27 s) :
    ∃ t, exec (.patrolScrubStep n) s = .next t ∧ SameBytes s t ∧ t.hbc.ecc = [] ∧
      (getReg (pgHbc n.val) 0 0x10C t).toNat = min (2 ^ 32 - 1) ((getReg (pgHbc n.val) 0 0x10C s).toNat + 1) ∧
      bit (getReg (pgHbc n.val) 0 0x020 t) 1 = true := by
  have hhit : scrubHit n.val s u = true := by simp [scrubHit, hu, hp]
  have hone : scrubbed n.val s = hbmUnitError u false true s := by simp [scrubbed, he, hhit]
  obtain ⟨⟨-, hstale, -⟩, ⟨hmem, -, haon⟩, hecc, hcount, hsticky⟩ := hbmUnitError_corrects hu true
  refine ⟨_, exec_patrolScrubStep n s, ?_⟩
  rw [scrubStep_active ha hz, hone]
  have hmoved := alters_scrubMoved n.val (getFld (pgHbc n.val) 0 0x120 0 27 s) (scrubSteps n.val (hbmUnitError u false true s))
    (hbmUnitError u false true s)
  have hn := n.isLt
  have hkept {off : Nat} (ho : off = 0x10C ∨ off = 0x020) : ¬ scrubRegs n.val (rk (pgHbc n.val) 0 off) := by
    simp only [scrubRegs, irqRegs, rk, pgHbc, pgPba]
    omega
  refine ⟨?_, ?_, ?_, ?_⟩
  · obtain ⟨-, h⟩ := hmoved
    exact sameBytes_of_mem (by rw [h]; exact hmem) (by rw [h]; exact hstale) (by rw [h]; exact congrArg AonTime.gen haon)
  · obtain ⟨-, h⟩ := hmoved
    rw [tidyMem_hbc, h]
    show (hbmUnitError u false true s).hbc.ecc = []
    rw [hecc, he]
    simp [tabDel]
  · rw [getReg_tidyMem, hmoved.getReg (hkept (.inl rfl)), hcount]
  · rw [getReg_tidyMem, hmoved.getReg (hkept (.inr rfl)), hsticky]

/-- Settles O30: each clause is what its row makes of the region, of the stack's INIT or of the scrubber's position. -/
theorem hbmRegionsInitAndScrub : Obligations.HbmRegionsInitAndScrub := by
  unfold Obligations.HbmRegionsInitAndScrub
  exact ⟨fun _ _ hf => regionFillDone_ends hf, fun _ _ _ _ hh hgo hn hr hb => regionInv_goes hh hgo hn hr hb,
    fun _ _ _ hh h0 => hbmInit_starts hh h0, fun _ _ ha hz he => patrolScrubStep_clean ha hz he,
    fun _ _ _ ha hz he hu hp => patrolScrubStep_corrects ha hz he hu hp⟩

end Sys2Proof.Machine

/-!
PROOFS. The statement of 05_memory_model.md on the boot: what the boot's steps leave of STAGE, VERIFY_ERR and BOOT_ERR; then the statement.
-/
namespace Sys2Proof.Machine
open Sys2Proof.Claims

/-! ## Verification (R345, R346, R375) -/

/-- The registers other than BOOT_STS and BOOT_ERR. -/
def offBoot (k : Nat) : Prop := k ≠ rk pgRst 0 0x12C ∧ k ≠ rk pgSec 0 0x10C

theorem alters_offBoot_powerOn (ds : List Nat) (s : State) : Alters offBoot s (powerOn ds s) := by
  refine (alters_powerOn ds s).mono ?_
  rintro k ⟨pg, hpg, rfl⟩
  simp only [offBoot, rk, pgRst, pgSec]
  omega

theorem alters_offBoot_measExtend (k : Nat) (d : List Byte) (s : State) : Alters offBoot s (measExtend k d s) := by
  refine Alters.foldlMem _ _ (fun u i hi => alters_setReg _ _ _ _ u ?_) s
  have := List.mem_range.1 hi
  simp only [offBoot, rk, pgRst, pgSec]
  omega

/-- A field of a block of registers other than BOOT_STS and BOOT_ERR. -/
theorem alters_offBoot_setFld {pg off : Nat} (h : pg ≠ pgRst ∧ pg ≠ pgSec ∨ off < 0x10C) (hoff : off < 65536) (lo n v : Nat) (s : State) :
    Alters offBoot s (setFld pg 0 off lo n v s) := by
  refine alters_setFld _ _ _ _ _ _ s ?_
  simp only [offBoot, rk, pgRst, pgSec] at *
  omega

/-- STAGE as the boot ROM starts. -/
def romStarts (s : State) : State := setStage 2 (setFld pgXsp 0 0x100 0 8 (takeFree s).1 (takeFree s).2)

theorem alters_romReads (s : State) : Alters offBoot (romStarts s) (romReads s) := by
  have hp := alters_offBoot_powerOn [105] (romStarts s)
  have hy := hp.trans (alters_offBoot_setFld (pg := pgYns) (off := 0x100) (.inr (by omega)) (by omega) 1 1 1 _)
  have hx := hy.trans (alters_offBoot_setFld (pg := pgXsp) (off := 0x104) (.inr (by omega)) (by omega) 0 1 1 _)
  exact hx.trans (alters_offBoot_measExtend 0 _ _)

theorem verifyErr_romReads (s : State) : getFld pgRst 0 0x12C 8 8 (romReads s) = getFld pgRst 0 0x12C 8 8 s := by
  rw [getFld, (alters_romReads s).getReg (by simp [offBoot]), ← getFld, romStarts, setStage,
    getFld_setFld_ne _ _ _ _ _ _ _ _ (by omega) (by omega), getFld, getReg_setFld_ne (by simp only [rk, pgRst, pgXsp]; omega)]
  rfl

theorem flashBytes_romReads (a n : Nat) (s : State) : flashBytes a n (romReads s) = flashBytes a n s := by
  obtain ⟨-, h⟩ := alters_romReads s
  rw [h]
  rfl

theorem stage_setStage {n : Nat} (h : n < 16) (s : State) : stage (setStage n s) = n := by
  rw [stage, setStage, getFld_setFld_self _ _ _ _ _ _ (by omega), Nat.mod_eq_of_lt (by omega)]

theorem sec_powerOn (ds : List Nat) (s : State) : (powerOn ds s).sec = s.sec := by
  obtain ⟨-, h⟩ := alters_powerOn ds s
  rw [h]

/-- Segment 0 runs. -/
theorem firmwareRuns_does (m : List Byte) (s : State) :
    stage (firmwareRuns m s) = 3 ∧ (firmwareRuns m s).sec.manifest = fitBytes 2048 m :=
  ⟨stage_setStage (by omega) _, congrArg Sec.manifest (sec_powerOn _ _)⟩

theorem bootError_code (code : Nat) (s : State) : getFld pgSec 0 0x10C 0 4 (bootError code s) = code % 16 := by
  rw [bootError, getFld, (raiseIrq_does pgSec 0 _).1.getReg (by simp only [irqRegs, rk, pgSec, pgPba]; omega)]
  exact getFld_setFld_self _ _ _ _ _ _ (by omega) s

theorem bootSts_bootError (code : Nat) (s : State) : getReg pgRst 0 0x12C (bootError code s) = getReg pgRst 0 0x12C s := by
  rw [bootError, (raiseIrq_does pgSec 0 _).1.getReg (by simp only [irqRegs, rk, pgSec, pgRst, pgPba]; omega),
    getReg_setFld_ne (by simp only [rk, pgSec, pgRst]; omega)]

/-- BOOT_ERR and VERIFY_ERR as a verification fails. -/
def verifyFailed (code : Nat) (s : State) : State := addFld pgRst 0 0x12C 8 8 1 (bootError code s)

/-- What recovery switches on. -/
def recoveryPower (code : Nat) (s : State) : State :=
  if selfHosted (setFld pgYns 0 0x100 0 1 0 (verifyFailed code s)) then setFld pgYns 0 0x100 0 1 0 (verifyFailed code s)
  else powerOn [115] (setFld pgYns 0 0x100 0 1 0 (verifyFailed code s))

theorem recovery_eq (code : Nat) (s : State) : recovery code s = setStage 7 (recoveryPower code s) := rfl

theorem alters_recoveryPower (code : Nat) (s : State) : Alters offBoot (verifyFailed code s) (recoveryPower code s) := by
  have h := alters_offBoot_setFld (pg := pgYns) (off := 0x100) (.inr (by omega)) (by omega) 0 1 0 (verifyFailed code s)
  exact .ite _ h (h.trans (alters_offBoot_powerOn _ _))

/-- A failed verification enters RECOVERY (R346). -/
theorem recovery_does (code : Nat) (s : State) :
    stage (recovery code s) = 7 ∧ getFld pgSec 0 0x10C 0 4 (recovery code s) = code % 16 ∧
    getFld pgRst 0 0x12C 8 8 (recovery code s) = min 255 (getFld pgRst 0 0x12C 8 8 s + 1) := by
  have hpower := alters_recoveryPower code s
  rw [recovery_eq]
  refine ⟨stage_setStage (by omega) _, ?_, ?_⟩
  · rw [getFld, setStage, getReg_setFld_ne (by simp only [rk, pgSec, pgRst]; omega), hpower.getReg (by simp [offBoot]), verifyFailed, addFld,
      getReg_setFld_ne (by simp only [rk, pgSec, pgRst]; omega)]
    exact bootError_code code s
  · rw [setStage, getFld_setFld_ne _ _ _ _ _ _ _ _ (by omega) (by omega), getFld, hpower.getReg (by simp [offBoot]), ← getFld, verifyFailed,
      addFld, getFld_setFld_self _ _ _ _ _ _ (by omega), getFld, bootSts_bootError, ← getFld, satAdd]
    have : getFld pgRst 0 0x12C 8 8 s < 2 ^ 8 := Nat.mod_lt _ (by omega)
    split <;> omega

theorem exec_bootVerifyComplete (s : State) : exec .bootVerifyComplete s = .next (tidyMem (bootVerify s)) := rfl

theorem bootVerify_passes {s : State} (hh : s.rst.held = false) (hs : stage s ≤ 2)
    (h : verifyImage (fun a n => flashBytes a n (romReads s)) (romReads s) = 0) :
    bootVerify s = firmwareRuns (flashBytes 0 2048 (romReads s)) (romReads s) := by
  simp only [bootVerify, hh, decide_eq_false (Nat.not_lt.2 hs), h]
  rfl

theorem bootVerify_fails {s : State} (hh : s.rst.held = false) (hs : stage s ≤ 2)
    (h : verifyImage (fun a n => flashBytes a n (romReads s)) (romReads s) ≠ 0) :
    bootVerify s = recovery (verifyImage (fun a n => flashBytes a n (romReads s)) (romReads s)) (romReads s) := by
  simp only [bootVerify, hh, decide_eq_false (Nat.not_lt.2 hs)]
  split
  · contradiction
  · rfl

/-- The end of verification. -/
theorem bootVerifyComplete_ends {s : State} (hh : s.rst.held = false) (hs : stage s ≤ 2) :
    ∃ t, exec .bootVerifyComplete s = .next t ∧
    (verifyImage (fun a n => flashBytes a n (romReads s)) (romReads s) = 0 →
      stage t = 3 ∧ t.sec.manifest = fitBytes 2048 (flashBytes 0 2048 s)) ∧
    (verifyImage (fun a n => flashBytes a n (romReads s)) (romReads s) ≠ 0 →
      stage t = 7 ∧
      getFld pgSec 0 0x10C 0 4 t = verifyImage (fun a n => flashBytes a n (romReads s)) (romReads s) % 16 ∧
      getFld pgRst 0 0x12C 8 8 t = min 255 (getFld pgRst 0 0x12C 8 8 s + 1)) := by
  refine ⟨_, exec_bootVerifyComplete s, fun h => ?_, fun h => ?_⟩
  · rw [bootVerify_passes hh hs h, flashBytes_romReads]
    exact firmwareRuns_does _ _
  · rw [bootVerify_fails hh hs h, ← verifyErr_romReads s]
    exact recovery_does _ _

/-! ## HBM READY (R143) -/

theorem exec_hbmReady (n : Fin 4) (s : State) : exec (.hbmReady n) s = .next (tidyMem (hbmReady n.val s)) := rfl

/-- A stack's training has ended. -/
def stackReady (n : Nat) (s : State) : State := setFld (pgHbc n) 0 0x104 0 1 1 s

/-- CAP.HBM_MIB counts the pseudo-channels of the stacks. -/
def hbmCounted (s : State) : State := setReg pgCap 0 0x114 (w32 (hbmMib s)) s

theorem stage_hbmCounted (n : Nat) (s : State) : stage (hbmCounted (stackReady n s)) = stage s := by
  rw [stage, getFld, hbmCounted, getReg_setReg_ne (by simp only [rk, pgRst, pgCap]; omega), stackReady,
    getReg_setFld_ne (by simp only [rk, pgRst, pgHbc]; omega), stage, getFld]

theorem hbmReady_trained {n : Nat} {s : State} (hh : s.rst.held = false) (hd : dark (pgHbc n) s = false)
    (hi : bit (getReg (pgHbc n) 0 0x100 s) 0 = true) (hr : bit (getReg (pgHbc n) 0 0x104 s) 0 = false) (hs : stage s ≠ 4) :
    hbmReady n s = if allReady (stackReady n s) then hbmCounted (stackReady n s) else stackReady n s := by
  have hload : hbmLoaded (hbmCounted (stackReady n s)) = hbmCounted (stackReady n s) :=
    if_pos (.inl (by rwa [stage_hbmCounted]))
  rw [← hload]
  simp only [hbmReady, hh, hd, hi, hr]
  rfl

theorem hbmMib_stackReady (n : Nat) (s : State) : hbmMib (stackReady n s) = hbmMib s := by
  have h (m : Nat) : retiredCount m (stackReady n s) = retiredCount m s := by
    rw [retiredCount, stackReady, getReg_setFld_ne (by simp only [rk]; omega), retiredCount]
  rw [hbmMib, hbmMib, funext h]

theorem allReady_stackReady {n : Nat} {s : State} (h : ∀ m, m < 4 → m ≠ n → bit (getReg (pgHbc m) 0 0x104 s) 0 = true) :
    allReady (stackReady n s) = true := by
  refine List.all_eq_true.2 fun m hm => ?_
  by_cases hmn : m = n
  · subst hmn
    exact bit_setFld_one (pgHbc m) 0 0x104 (by omega) s
  · rw [stackReady, getReg_setFld_ne (by simp only [rk, pgHbc]; omega)]
    exact h m (List.mem_range.1 hm) hmn

/-- A stack's training ends. -/
theorem hbmReady_ends {n : Fin 4} {s : State} (hh : s.rst.held = false) (hd : dark (pgHbc n.val) s = false)
    (hi : bit (getReg (pgHbc n.val) 0 0x100 s) 0 = true) (hr : bit (getReg (pgHbc n.val) 0 0x104 s) 0 = false) (hs : stage s ≠ 4) :
    ∃ t, exec (.hbmReady n) s = .next t ∧ bit (getReg (pgHbc n.val) 0 0x104 t) 0 = true ∧ SameBytes s t ∧
      ((∀ m, m < 4 → m ≠ n.val → bit (getReg (pgHbc m) 0 0x104 s) 0 = true) → getReg pgCap 0 0x114 t = w32 (hbmMib s)) ∧
      OtherRegs (fun k => k = rk (pgHbc n.val) 0 0x104 ∨ k = rk pgCap 0 0x114) s t := by
  have hready : AltersRegs (fun k => k = rk (pgHbc n.val) 0 0x104 ∨ k = rk pgCap 0 0x114) s (stackReady n.val s) :=
    altersRegs_setFld (.inl rfl) _ _ _ s
  have hbit : bit (getReg (pgHbc n.val) 0 0x104 (stackReady n.val s)) 0 = true := bit_setFld_one _ 0 0x104 (by omega) s
  refine ⟨_, exec_hbmReady n s, ?_⟩
  rw [hbmReady_trained hh hd hi hr hs]
  by_cases hall : allReady (stackReady n.val s) = true
  · have hcounted := hready.trans (altersRegs_setReg (.inr rfl) (w32 (hbmMib (stackReady n.val s))) _)
    rw [if_pos hall]
    refine ⟨?_, hcounted.sameBytes, fun _ => ?_, hcounted.1⟩
    · rw [getReg_tidyMem, hbmCounted, getReg_setReg_ne (by simp only [rk, pgHbc, pgCap]; omega)]
      exact hbit
    · rw [getReg_tidyMem, hbmCounted, getReg_setReg_self, hbmMib_stackReady]
  · rw [if_neg hall]
    exact ⟨hbit, hready.sameBytes, fun h => absurd (allReady_stackReady h) hall, hready.1⟩

/-! ## READY (R345, R378) -/

theorem rst_cstCount (s : State) : (cstCount s).rst = s.rst := by
  unfold cstCount
  simp only
  split <;> rfl

theorem rst_copyStop (s : State) : (copyStop s).rst = s.rst := by
  unfold copyStop
  simp only
  split
  · rfl
  · split
    · exact rst_cstCount _
    · rfl

theorem rst_resQueue (s : State) : (resQueue s).rst = s.rst := by
  unfold resQueue
  simp only
  split
  · rfl
  · exact rst_cstCount _

theorem Alters.rst {R : Nat → Prop} {s t : State} (h : Alters R s t) : t.rst = s.rst := by rw [h.2]

theorem rst_resBoot (s : State) : (resBoot s).rst = s.rst := by
  unfold resBoot
  simp only
  split
  · split
    · exact ((alters_raiseIrq (R := fun _ => True) pgSec 0 _ fun _ _ => trivial).trans (alters_fault 283 _ fun _ _ => trivial)).rst
    · rfl
  · refine (rst_resQueue _).trans ?_
    split <;> rfl

theorem exec_bootStageReady (s : State) : exec .bootStageReady s = .next (tidyMem (bootReady s)) := rfl

/-- The boot once the site record is applied: the stop record, the reservations. -/
def bootRead (s : State) : State := copyStop (resBoot s)

theorem rst_bootRead (s : State) : (bootRead s).rst = s.rst := (rst_copyStop _).trans (rst_resBoot s)

/-- The boot with its locks set. -/
def bootLocked (s : State) : State := (bootLocks (bootRead s)).foldl lockPage (bootRead s)

theorem rst_bootLocked (s : State) : (bootLocked s).rst = s.rst := by
  have h := (AltersRegs.foldl (R := fun _ => True) (f := lockPage) (l := bootLocks (bootRead s)) (bootRead s)
    fun _ _ u => altersRegs_lockPage trivial u).alters.rst
  exact h.trans (rst_bootRead s)

theorem bootReady_passes {s : State} (hh : s.rst.held = false) (hs : stage s = 5 ∨ (stage s = 4 ∧ s.rst.loaded = true))
    (h5 : stage (siteApply (setStage 5 s)) = 5) :
    bootReady s = setReg pgRst 0 0x130 (w32 (bootLocked (siteApply (setStage 5 s))).rst.bootUs)
      (setStage 6 (bootLocked (siteApply (setStage 5 s)))) := by
  have hgo : (s.rst.held || !((stage s == 4 && s.rst.loaded) || stage s == 5)) = false := by
    obtain h | ⟨h, hl⟩ := hs
    · simp [hh, h]
    · simp [hh, h, hl]
  simp only [bootReady, hgo, h5]
  rfl

theorem locked_bootLocked {pg : Nat} {s : State} (h : pg ∈ bootLocks (bootRead s)) : locked pg (bootLocked s) = true := by
  rw [bootLocked, locked_foldl_lockPage, List.contains_iff_mem.2 h, Bool.or_true]

/-- READY follows the site record. -/
theorem bootStageReady_ends {s : State} (hh : s.rst.held = false) (hs : stage s = 5 ∨ (stage s = 4 ∧ s.rst.loaded = true))
    (h5 : stage (siteApply (setStage 5 s)) = 5) :
    ∃ t, exec .bootStageReady s = .next t ∧ stage t = 6 ∧
      getReg pgRst 0 0x130 t = w32 (siteApply (setStage 5 s)).rst.bootUs ∧
      ∀ pg ∈ bootLocks (copyStop (resBoot (siteApply (setStage 5 s)))), locked pg t = true := by
  refine ⟨_, exec_bootStageReady s, ?_⟩
  rw [bootReady_passes hh hs h5]
  generalize siteApply (setStage 5 s) = u
  refine ⟨?_, ?_, fun pg hpg => ?_⟩
  · rw [stage, getFld_tidyMem, getFld, getReg_setReg_ne (by simp only [rk]; omega)]
    exact stage_setStage (by omega) _
  · rw [getReg_tidyMem, getReg_setReg_self, rst_bootLocked]
  · have h := locked_bootLocked (s := u) hpg
    have hpg : pg < 146 := List.mem_range.1 (List.mem_filter.1 hpg).1
    rw [locked] at h ⊢
    rw [getReg_tidyMem, getReg_setReg_ne (by simp only [rk, pgRst]; omega), setStage, getReg_setFld_ne (by simp only [rk, pgRst]; omega)]
    exact h

/-- Settles O13: each stage of the boot ends as its row says, by what its steps leave of BOOT_STS, BOOT_ERR and the boot's time. -/
theorem bootStagesAdvance : Obligations.BootStagesAdvance := by
  unfold Obligations.BootStagesAdvance
  exact ⟨fun _ hh hs => bootVerifyComplete_ends hh hs, fun _ _ hh hd hi hr hs => hbmReady_ends hh hd hi hr hs,
    fun _ hh hs h5 => bootStageReady_ends hh hs h5⟩

end Sys2Proof.Machine

/-!
PROOFS. What an access to memory leaves of the registers of the other units and of the invalidations that wait; then what the release of a
handle, a fault of an access and a transfer of a CZ engine leave of the front end and of Leaven.
-/
namespace Sys2Proof.Machine
open Sys2Proof.Claims

/-! ## The registers of an access (R136 to R150) -/

/-- The registers of the MMU, of the HBM controllers and of the Pending Bit Arrays. -/
def memRegs (k : Nat) : Prop :=
  k / 65536 / 512 = pgMmu ∨ (pgHbc 0 ≤ k / 65536 / 512 ∧ k / 65536 / 512 < pgHbc 4) ∨ k / 65536 / 512 = pgPba

/-- What an access leaves, the registers of the other units and the waiting invalidations with it. -/
structure MemKept (s t : State) : Prop where
  access : AccessKept s t
  regs : OtherRegs memRegs s t
  pendInv : s.hbc.pendInv = [] → t.hbc.pendInv = []

theorem MemKept.refl (s : State) : MemKept s s := ⟨.refl s, .refl _ s, id⟩

theorem MemKept.trans {s t u : State} (h : MemKept s t) (h' : MemKept t u) : MemKept s u := by
  obtain ⟨ha, hr, hp⟩ := h
  obtain ⟨ha', hr', hp'⟩ := h'
  exact ⟨ha.trans ha', hr.trans hr', hp' ∘ hp⟩

theorem MemKept.foldl {α : Type} {f : State → α → State} (h : ∀ s a, MemKept s (f s a)) :
    ∀ (l : List α) (s : State), MemKept s (l.foldl f s)
  | [], s => .refl s
  | a :: l, s => (h s a).trans (MemKept.foldl h l (f s a))

theorem memRegs_hbc {n bank off : Nat} (hn : n < 4) (hb : bank < 512) (ho : off < 65536) : memRegs (rk (pgHbc n) bank off) := by
  simp only [memRegs, rk, pgMmu, pgHbc, pgPba]
  omega

theorem memRegs_faultRegs {n k : Nat} (hn : n < 4) (h : faultRegs (pgHbc n) k) : memRegs k := by
  simp only [memRegs, faultRegs, irqRegs, rk, pgMmu, pgHbc, pgPba] at *
  omega

theorem memRegs_logRegs {n k : Nat} (hn : n < 4) (h : logRegs n k) : memRegs k := by
  obtain rfl | ⟨i, hi, j, hj, rfl⟩ | h := h
  · exact memRegs_hbc hn (by omega) (by omega)
  · exact memRegs_hbc hn (by omega) (by omega)
  · exact memRegs_faultRegs hn h

theorem Alters.hbc {R : Nat → Prop} {s t : State} (h : Alters R s t) : t.hbc = s.hbc := by rw [h.2]

theorem memKept_hbmUnitError (u : Nat) (ue scrub : Bool) (s : State) : MemKept s (hbmUnitError u ue scrub s) := by
  suffices h : OtherRegs memRegs s (hbmUnitError u ue scrub s) ∧
      (s.hbc.pendInv = [] → (hbmUnitError u ue scrub s).hbc.pendInv = []) from ⟨accessKept_hbmUnitError u ue scrub s, h.1, h.2⟩
  have hn := stackOf_lt (u * 32) s
  obtain ⟨hue, hce, -⟩ := srcHome_stack hn
  have hlog := (alters_logRegs_logHbmError (s := s) (u := u) rfl ue scrub).mono fun k => memRegs_logRegs hn
  have hevent {v : State} (i bank off : Nat) (hi : srcHome i = (pgHbc (stackOf (u * 32) s), bank)) (ho : off < 65536) :
      Alters memRegs v (fault i (count32 (pgHbc (stackOf (u * 32) s)) 0 off v)) :=
    (alters_count32 _ 0 off v (memRegs_hbc hn (by omega) ho)).trans
      (alters_fault i _ fun k hk => memRegs_faultRegs hn (by rwa [hi] at hk))
  unfold hbmUnitError
  simp only
  split
  · have h := hlog.trans (hevent _ _ 0x110 hue (by omega))
    exact ⟨h.1, fun hp => by rw [h.hbc]; exact hp⟩
  · refine ⟨hlog.1.trans (OtherRegs.trans (t := { logHbmError u ue scrub s with hbc := _ }) (fun _ _ => rfl)
      (hevent _ _ 0x10C hce (by omega)).1), fun hp => ?_⟩
    rw [(hevent _ _ 0x10C hce (by omega)).hbc]
    show (logHbmError u ue scrub s).hbc.pendInv = []
    rw [hlog.hbc, hp]

theorem memKept_regionFilled (s : State) (r : Nat) : MemKept s (regionFilled r s) := by
  suffices h : OtherRegs memRegs s (regionFilled r s) ∧ (s.hbc.pendInv = [] → (regionFilled r s).hbc.pendInv = []) from
    ⟨accessKept_settleFills [r] s, h.1, h.2⟩
  cases hf : s.hbc.filling.contains r with
  | false =>
    have h : regionFilled r s = s := by simp only [regionFilled, hf, Bool.false_eq_true, if_false]
    rw [h]
    exact ⟨.refl _ s, id⟩
  | true =>
    cases hp : s.hbc.pendInv.contains r with
    | false =>
      rw [regionFilled_kept hf hp]
      exact ⟨fun _ _ => rfl, id⟩
    | true =>
      rw [regionFilled_invalidated hf hp]
      refine ⟨OtherRegs.trans (t := clearRegion r (regionValid r s)) (fun _ _ => rfl)
        (altersRegs_setFld (memRegs_hbc (n := 0) (by omega) (by omega) (by omega)) _ _ _ _).1, fun h => ?_⟩
      rw [h] at hp
      simp at hp

theorem memKept_settleFills (rs : List Nat) (s : State) : MemKept s (settleFills rs s) := .foldl memKept_regionFilled rs s

theorem memKept_touchRegion (s : State) (r : Nat) : MemKept s (touchRegion s r) := by
  suffices h : OtherRegs memRegs s (touchRegion s r) ∧ (s.hbc.pendInv = [] → (touchRegion s r).hbc.pendInv = []) from
    ⟨accessKept_touchRegion s r, h.1, h.2⟩
  unfold touchRegion
  split <;> exact ⟨fun _ _ => rfl, id⟩

theorem memKept_hbmMerge (a n : Nat) (s : State) : MemKept s (hbmMerge a n s) := by
  refine MemKept.foldl (fun u e => ?_) _ s
  exact memKept_hbmUnitError e.1 false false u

theorem memKept_hbmRead (a n : Nat) (s : State) : MemKept s (hbmRead a n s).2 := by
  have herrs (u : State) : MemKept u (hbmErrors a n false u) := by
    refine MemKept.foldl (fun v e => ?_) _ u
    exact memKept_hbmUnitError e.1 e.2.ue false v
  unfold hbmRead
  simp only
  split <;> exact (memKept_settleFills _ s).trans (herrs _)

theorem memKept_takeInjection {n : Nat} (hn : n < 4) (s : State) : MemKept s (takeInjection (pgHbc n) s).2 := by
  have h := alters_takeInjection (memRegs_hbc hn (bank := 0) (off := 0x028) (by omega) (by omega)) s
  exact ⟨(alters_takeInjection (lateRegs_rk (by simp only [pgFe, pgHbc]; omega) 0 0x028) s).accessKept, h.1,
    fun hp => by rw [h.hbc]; exact hp⟩

theorem memKept_ecc (e : Tab EccErr) (s : State) : MemKept s { s with hbc := { s.hbc with ecc := e } } :=
  ⟨⟨fun _ _ => rfl, rfl⟩, fun _ _ => rfl, id⟩

theorem memKept_hbmStored (a : Nat) (bs : List Byte) (s : State) : MemKept s (hbmStored a bs s) :=
  ⟨⟨fun _ _ => rfl, rfl⟩, fun _ _ => rfl, id⟩

theorem memKept_hbmPut (a : Nat) (bs : List Byte) (s : State) : MemKept s (hbmPut a bs s) := by
  cases bs with
  | nil => exact .refl s
  | cons b bs =>
    have hready : MemKept s (regionsReady a (b :: bs).length s) := (memKept_settleFills _ s).trans (.foldl memKept_touchRegion _ _)
    have hstored := (hready.trans (memKept_hbmMerge a (b :: bs).length _)).trans (memKept_hbmStored a (b :: bs) _)
    have hinj := hstored.trans (memKept_takeInjection (stackOf_lt a (hbmStored a (b :: bs)
      (hbmMerge a (b :: bs).length (regionsReady a (b :: bs).length s)))) _)
    unfold hbmStored regionsReady at hinj
    unfold hbmPut
    simp only
    split
    · next h =>
      rw [h] at hinj
      exact hinj.trans (memKept_ecc _ _)
    · next h =>
      rw [h] at hinj
      exact hinj

/-! ## The registers of a translation (R146 to R154) -/

theorem memKept_mmu (m : Mmu) (k : Nat) (s : State) : MemKept s { s with mmu := m, free := k } :=
  ⟨accessKept_mmu m k s, fun _ _ => rfl, id⟩

theorem memKept_count32_mmu {off : Nat} (ho : off < 65536) (s : State) : MemKept s (count32 pgMmu 0 off s) :=
  ⟨(alters_count32 _ _ _ s (lateRegs_rk (pg := pgMmu) (by decide) 0 off)).accessKept,
    (alters_count32 (R := memRegs) _ _ _ s (by simp only [memRegs, rk, pgMmu, pgHbc, pgPba]; omega)).1, id⟩

theorem memKept_readPte (slot level va table : Nat) (s : State) : MemKept s (readPte slot level va table s).2 := by
  have hread := memKept_hbmRead (table + 8 * nbits va (12 + 9 * level) 9) 8 s
  unfold readPte
  simp only
  split
  · exact .refl s
  · split <;> next h => rw [h] at hread; exact hread

theorem memKept_keepWalk (slot level va pte : Nat) (s : State) : MemKept s (keepWalk slot level va pte s) := by
  unfold keepWalk
  simp only
  split
  · exact .refl s
  · obtain ⟨k, hk⟩ := bufAdd_state 512 ⟨slot, level, va / 2 ^ (12 + 9 * level), pte⟩ s.mmu.walk s
    rw [hk]
    exact memKept_mmu _ k s

theorem memKept_walkLeaf (slot va table : Nat) (g64 : Bool) (s : State) : MemKept s (walkLeaf slot va table g64 s).2 := by
  have hread := memKept_hbmRead (if g64 then table + 8 * nbits va 16 5 else table + 8 * nbits va 12 9) 8 s
  unfold walkLeaf
  simp only
  split
  · next h => rw [h] at hread; exact hread
  · next h =>
    rw [h] at hread
    split
    · exact hread
    · split
      · exact hread
      · split <;> exact hread

theorem memKept_walkFrom (slot va : Nat) : ∀ (level table : Nat) (g64 : Bool) (s : State),
    MemKept s (walkFrom slot va level table g64 s).2
  | 0, table, g64, s => memKept_walkLeaf slot va table g64 s
  | level + 1, table, _, s => by
    have hread := memKept_readPte slot (level + 1) va table s
    unfold walkFrom
    split
    · next h => rw [h] at hread; exact hread
    · next pte u h =>
      rw [h] at hread
      split_ifs
      · exact hread
      · split <;> exact hread
      · exact hread
      · split
        · exact hread
        · next t _ => exact (hread.trans (memKept_keepWalk _ _ _ _ u)).trans (memKept_walkFrom slot va level t _ _)

theorem memKept_sharedAdd (e : TlbEnt) (s : State) : MemKept s (sharedAdd e s) := by
  unfold sharedAdd
  simp only
  generalize (if s.mmu.shared.length < 8 then [] else s.mmu.shared.filter (fun o => tlbSet o == tlbSet e)) = peers
  split
  · exact memKept_mmu _ s.free s
  · exact memKept_mmu _ (s.free + 1) s

theorem memKept_microAdd (rq : Nat) (e : TlbEnt) (s : State) : MemKept s (microAdd rq e s) := by
  unfold microAdd
  split
  · obtain ⟨k, hk⟩ := bufAdd_state 32 e (tabGet [] rq s.mmu.micro) s
    simp only [hk]
    exact memKept_mmu _ k s
  · exact .refl s

theorem memKept_findEnt (rq slot va : Nat) (s : State) : MemKept s (findEnt rq slot va s).2 := by
  unfold findEnt
  split
  · exact .refl s
  · split
    · exact (memKept_count32_mmu (by omega) s).trans (memKept_microAdd rq _ _)
    · have hwalk := (memKept_count32_mmu (off := 0x11C) (by omega) s).trans (memKept_walkFrom slot va 3 (slotOf slot s).ptRoot false _)
      split
      · next h => rw [h] at hwalk; exact hwalk
      · next h => rw [h] at hwalk; exact hwalk.trans ((memKept_sharedAdd _ _).trans (memKept_microAdd rq _ _))

theorem memKept_translate (rq slot va : Nat) (k : XKind) (s : State) : MemKept s (translate rq slot va k s).2 := by
  have hfind := memKept_findEnt rq slot va s
  unfold translate
  split_ifs
  · exact .refl s
  · exact .refl s
  · split
    · next h => rw [h] at hfind; exact hfind
    · next e u h =>
      rw [h] at hfind
      simp only
      split
      · exact hfind
      · split_ifs
        · exact hfind
        · exact hfind
        · exact hfind
        · split
          · exact hfind
          · split <;> exact hfind

theorem memKept_vaRead (rq slot va n : Nat) (k : XKind) (s : State) : MemKept s (vaRead rq slot va n k s).2 := by
  have hdest := memKept_translate rq slot va k s
  unfold vaRead
  split
  · next h => rw [h] at hdest; exact hdest
  · next pa u h =>
    rw [h] at hdest
    have hread := hdest.trans (memKept_hbmRead pa n u)
    split <;> next h => rw [h] at hread; exact hread
  · next h => rw [h] at hdest; exact hdest
  · next h => rw [h] at hdest; exact hdest

theorem memKept_hostSend (q : HostAttr) (a : Nat) (bs : List Byte) (s : State) : MemKept s (hostSend q a bs s) :=
  ⟨⟨fun _ _ => rfl, rfl⟩, fun _ _ => rfl, id⟩

theorem memKept_vaWrite (rq slot va : Nat) (bs : List Byte) (s : State) : MemKept s (vaWrite rq slot va bs s).2 := by
  have hdest := memKept_translate rq slot va .wr s
  unfold vaWrite
  split
  · next h => rw [h] at hdest; exact hdest
  · next h => rw [h] at hdest; exact hdest.trans (memKept_hbmPut _ bs _)
  · next h => rw [h] at hdest; exact hdest.trans (memKept_hostSend _ _ bs _)
  · next h => rw [h] at hdest; exact hdest

/-! ## Names and references (R200, R202, R215) -/

theorem memKept_handleGet (slot idx : Nat) (s : State) : MemKept s (handleGet slot idx s).2 := by
  have hread := memKept_vaRead rqFnc slot ((slotOf slot s).htbl + 16 * idx) 16 .rd s
  unfold handleGet
  split <;> next heq => rw [heq] at hread; exact hread

theorem memKept_of_checkRange {j : JobRef} {h : Word} {off len va : Nat} {s s' : State}
    (hok : checkRange j h off len s = (.ok va, s')) : MemKept s s' := by
  have hget := memKept_handleGet j.slot (fld h 0 16) s
  unfold checkRange at hok
  split at hok
  · simp only [Prod.mk.injEq, reduceCtorEq, false_and] at hok
  · next hcheck =>
    obtain ⟨-, rfl⟩ := Prod.mk.inj hok
    unfold checkHandle at hcheck
    simp only at hcheck
    split at hcheck
    · simp only [Prod.mk.injEq, reduceCtorEq, false_and] at hcheck
    · split at hcheck
      · simp only [Prod.mk.injEq, reduceCtorEq, false_and] at hcheck
      · next heq =>
        rw [heq] at hget
        split at hcheck
        · obtain ⟨-, rfl⟩ := Prod.mk.inj hcheck
          exact hget
        · simp only [Prod.mk.injEq, reduceCtorEq, false_and] at hcheck

theorem memKept_of_kvRegion {r : JobRef} {h : Word} {off len va : Nat} {s s' : State}
    (hok : kvRegion r h off len s = (.ok va, s')) : MemKept s s' := by
  unfold kvRegion at hok
  split at hok
  · next heq =>
    obtain ⟨-, rfl⟩ := Prod.mk.inj hok
    exact memKept_of_checkRange heq
  · simp only [Prod.mk.injEq, reduceCtorEq, false_and] at hok

theorem memKept_of_handleSet {slot idx n : Nat} {e : HandleEnt} {s s' : State} (hn : n ≠ 0)
    (hok : handleSet slot idx e n s = (.ok (), s')) : MemKept s s' := by
  have hwrite := memKept_vaWrite rqFnc slot (handleVa slot idx s + 4) (toLE 4 n) s
  unfold handleSet at hok
  simp only at hok
  split at hok
  · simp only [Prod.mk.injEq, reduceCtorEq, false_and] at hok
  · next heq =>
    rw [heq] at hwrite
    rw [if_neg hn] at hok
    obtain ⟨-, rfl⟩ := Prod.mk.inj hok
    exact hwrite

/-- A reference that is acquired has been read and written, or was none. -/
theorem memKept_of_acquireRef {r : JobRef} {h : Word} {s s' : State} (hok : acquireRef r h s = (.ok (), s')) : MemKept s s' := by
  have hget := memKept_handleGet r.slot (fld h 0 16) s
  unfold acquireRef at hok
  split at hok
  · obtain ⟨-, rfl⟩ := Prod.mk.inj hok
    exact .refl s
  · unfold handleAcquire at hok
    split at hok
    · simp only [Prod.mk.injEq, reduceCtorEq, false_and] at hok
    · next n u hacq =>
      obtain ⟨-, rfl⟩ := Prod.mk.inj hok
      split at hacq
      · obtain ⟨-, rfl⟩ := Prod.mk.inj hacq
        exact .refl s
      · split at hacq
        · simp only [Prod.mk.injEq, reduceCtorEq, false_and] at hacq
        · next e u' heq =>
          rw [heq] at hget
          split_ifs at hacq
          · obtain ⟨-, rfl⟩ := Prod.mk.inj hacq
            exact hget
          · obtain ⟨-, rfl⟩ := Prod.mk.inj hacq
            exact hget
          · split at hacq
            · next hset =>
              obtain ⟨-, rfl⟩ := Prod.mk.inj hacq
              exact hget.trans (memKept_of_handleSet (by omega) hset)
            · simp only [Prod.mk.injEq, reduceCtorEq, false_and] at hacq

/-! ## What a release and a fault leave of the front end and of Leaven (R152, R202, R205, R367) -/

/-- The front end and Leaven stay, and no invalidation comes to wait. -/
def LeavenKept (s t : State) : Prop := t.fe = s.fe ∧ t.lvn = s.lvn ∧ (s.hbc.pendInv = [] → t.hbc.pendInv = [])

theorem LeavenKept.refl (s : State) : LeavenKept s s := ⟨rfl, rfl, id⟩

theorem LeavenKept.trans {s t u : State} (h : LeavenKept s t) (h' : LeavenKept t u) : LeavenKept s u := by
  obtain ⟨hf, hl, hp⟩ := h
  obtain ⟨hf', hl', hp'⟩ := h'
  exact ⟨hf'.trans hf, hl'.trans hl, hp' ∘ hp⟩

theorem LeavenKept.lvn {s t : State} (h : LeavenKept s t) : t.lvn = s.lvn := by
  obtain ⟨-, hl, -⟩ := h
  exact hl

theorem LeavenKept.foldl {α : Type} {f : State → α → State} (h : ∀ s a, LeavenKept s (f s a)) :
    ∀ (l : List α) (s : State), LeavenKept s (l.foldl f s)
  | [], s => .refl s
  | a :: l, s => (h s a).trans (LeavenKept.foldl h l (f s a))

theorem LeavenKept.ite {s t u : State} (c : Prop) [Decidable c] (h : LeavenKept s t) (h' : LeavenKept s u) :
    LeavenKept s (if c then t else u) := by
  split
  · exact h
  · exact h'

theorem Alters.leavenKept {R : Nat → Prop} {s t : State} (h : Alters R s t) : LeavenKept s t := by
  obtain ⟨-, h⟩ := h
  rw [h]
  exact ⟨rfl, rfl, id⟩

theorem AccessKept.lvn {s t : State} (h : AccessKept s t) : t.lvn = s.lvn := by rw [h.2]

theorem AccessKept.cz {s t : State} (h : AccessKept s t) : t.cz = s.cz := by rw [h.2]

theorem MemKept.leavenKept {s t : State} (h : MemKept s t) : LeavenKept s t := by
  obtain ⟨ha, -, hp⟩ := h
  exact ⟨ha.fe, ha.lvn, hp⟩

/-! A register that is set, and an interrupt that is sent, after what leaves them. -/

theorem LeavenKept.setReg {s t : State} (h : LeavenKept s t) (pg bank off : Nat) (v : Word) :
    LeavenKept s (setReg pg bank off v t) := h

theorem LeavenKept.setFld {s t : State} (h : LeavenKept s t) (pg bank off lo n v : Nat) :
    LeavenKept s (setFld pg bank off lo n v t) := h

theorem LeavenKept.sendMsix {s t : State} (h : LeavenKept s t) (fn vec : Nat) : LeavenKept s (sendMsix fn vec t) := by
  unfold Machine.sendMsix
  split_ifs <;> exact h

theorem leavenKept_count32 (pg bank off : Nat) (s : State) : LeavenKept s (count32 pg bank off s) := ⟨rfl, rfl, id⟩

theorem leavenKept_takeFree (s : State) : LeavenKept s (takeFree s).2 := ⟨rfl, rfl, id⟩

theorem leavenKept_ringPut (fn : Nat) (host : Bool) (a : Nat) (bs : List Byte) (s : State) : LeavenKept s (ringPut fn host a bs s) := by
  unfold ringPut
  split
  · exact .refl s
  · exact (memKept_hbmPut a bs s).leavenKept

theorem leavenKept_rrPost (x : Release) (s : State) : LeavenKept s (rrPost x s) := by
  have hput (host : Bool) (a : Nat) (v w : Word) : LeavenKept s (setReg pgFnc x.fn 0x128 w (ringPut x.fn host a (relRecord x v) s)) :=
    (leavenKept_ringPut x.fn host a _ s).setReg _ _ _ _
  unfold rrPost
  simp only
  exact .ite _ ((hput _ _ _ _).sendMsix _ _) (hput _ _ _ _)

theorem leavenKept_release (x : Release) (s : State) : LeavenKept s (release x s) := by
  unfold release
  exact .ite _ (leavenKept_rrPost x s) ⟨rfl, rfl, id⟩

theorem leavenKept_viewEvent (fn k slot q seq : Nat) (s : State) : LeavenKept s (viewEvent fn k slot q seq s) := by
  unfold viewEvent sendMsix
  simp only
  split_ifs <;> exact ⟨rfl, rfl, id⟩

theorem leavenKept_fltSetFull (fn : Nat) (s : State) : LeavenKept s (fltSetFull fn s) := ⟨rfl, rfl, id⟩

theorem leavenKept_fltPost (fn : Nat) (rec : Nat → List Byte) (s : State) : LeavenKept s (fltPost fn rec s) := by
  have hput (host : Bool) (a n : Nat) (w : Word) : LeavenKept s (fltSetFull fn (setReg pgMmu fn 0x140 w (ringPut fn host a (rec n) s))) :=
    ((leavenKept_ringPut fn host a (rec n) s).setReg _ _ _ _).trans (leavenKept_fltSetFull fn _)
  unfold fltPost
  simp only
  exact .ite _ ((hput _ _ _ _).sendMsix _ _) (hput _ _ _ _)

theorem leavenKept_recordLost (pg b : Nat) (s : State) : LeavenKept s (recordLost pg b s) := by
  unfold recordLost setSticky
  exact ((alters_raiseIrq (R := fun _ => True) pg 31 (setReg pg 0 0x020 _ s) fun _ _ => trivial).trans
    (alters_fault 285 _ fun _ _ => trivial)).leavenKept

theorem leavenKept_fltDrop (fn rq chan : Nat) (j : JobRef) (rec : Nat → List Byte) (s : State) :
    LeavenKept s (fltDrop fn rq chan j rec s) := by
  have hlost : LeavenKept s (viewEvent fn 7 j.slot j.queue 0 (recordLost (lostHome rq chan).1 (lostHome rq chan).2
      (count32 pgMmu fn 0x148 s))) :=
    ((leavenKept_count32 _ _ _ s).trans (leavenKept_recordLost _ _ _)).trans (leavenKept_viewEvent _ _ _ _ _ _)
  unfold fltDrop
  simp only
  generalize viewEvent fn 7 j.slot j.queue 0 (recordLost (lostHome rq chan).1 (lostHome rq chan).2 (count32 pgMmu fn 0x148 s)) = u at hlost
  have hput (host : Bool) (a n : Nat) : LeavenKept s (setFld pgMmu fn 0x14C 1 1 1 (ringPut fn host a (rec n) u)) :=
    (hlost.trans (leavenKept_ringPut fn host a (rec n) u)).setFld _ _ _ _ _ _
  exact .ite _ (.ite _ ((hput _ _ _).sendMsix _ _) (hput _ _ _)) hlost

theorem leavenKept_postWaiting (fn : Nat) (s : State) : LeavenKept s (postWaiting fn s) := by
  unfold postWaiting
  split
  · exact .refl s
  · refine .ite _ ?_ (.refl s)
    simp only
    split
    · exact .refl s
    · refine LeavenKept.trans ?_ (leavenKept_fltPost _ _ _)
      exact ⟨rfl, rfl, id⟩

theorem leavenKept_postFault (rq chan : Nat) (j : JobRef) (va cause level : Nat) (k : XKind) (bytes : Nat) (s : State) :
    LeavenKept s (postFault rq chan j va cause level k bytes s) := by
  have hdrain : LeavenKept s (postDrain (slotOf j.slot s).func s) :=
    LeavenKept.foldl (fun u _ => leavenKept_postWaiting _ u) s.mmu.posts s
  unfold postFault
  simp only
  generalize postDrain (slotOf j.slot s).func s = u at hdrain
  exact .ite _ (hdrain.trans (leavenKept_fltPost _ _ u)) (hdrain.trans (leavenKept_fltDrop _ _ _ _ _ u))

theorem leavenKept_accessFault (rq : Nat) (j : JobRef) (va : Nat) (k : XKind) (e : AccErr) (s : State) :
    LeavenKept s (accessFault rq j va k e s).2 := by
  have hview (k : Nat) := leavenKept_viewEvent (slotOf j.slot s).func k j.slot j.queue (nextSeq j s) s
  unfold accessFault
  simp only
  split
  · dsimp only
    exact (hview _).trans (leavenKept_postFault _ _ _ _ _ _ _ _ _)
  · split
    · dsimp only
      exact ((hview 1).trans (leavenKept_takeFree _)).trans (leavenKept_postFault _ _ _ _ _ _ _ _ _)
    · exact .ite _ (.refl s) (hview 6)

theorem leavenKept_handleSet (slot idx n : Nat) (e : HandleEnt) (s : State) : LeavenKept s (handleSet slot idx e n s).2 := by
  have hcount := (memKept_vaWrite rqFnc slot (handleVa slot idx s + 4) (toLE 4 n) s).leavenKept
  unfold handleSet
  simp only
  split
  · next h => rw [h] at hcount; exact hcount
  · next u h =>
    rw [h] at hcount
    have hclear := hcount.trans (memKept_vaWrite rqFnc slot (handleVa slot idx s) (toLE 4 (e.gen * 2 ^ 16)) u).leavenKept
    split
    · split
      · next h => rw [h] at hclear; exact hclear
      · next h => rw [h] at hclear; exact hclear.trans (leavenKept_release _ _)
    · exact hcount

theorem leavenKept_handleDrop (j : JobRef) (idx gen : Nat) (s : State) : LeavenKept s (handleDrop j idx gen s).2 := by
  have hget := (memKept_handleGet j.slot idx s).leavenKept
  unfold handleDrop
  split
  · exact .refl s
  · split
    · next h => rw [h] at hget; exact hget.trans (leavenKept_accessFault _ _ _ _ _ _)
    · next e u h =>
      rw [h] at hget
      have hset := hget.trans (leavenKept_handleSet j.slot idx (e.refcnt - 1) e u)
      split
      · exact hget
      · split
        · exact hget
        · split
          · next h => rw [h] at hset; exact hset
          · next h => rw [h] at hset; exact hset.trans (leavenKept_accessFault _ _ _ _ _ _)

theorem leavenKept_leavenDrop (slot : Nat) (h : Word) (s : State) : LeavenKept s (leavenDrop slot h s) :=
  .ite _ (.refl s) (leavenKept_handleDrop _ _ _ s)

theorem leavenKept_setGraphW (g off : Nat) (v : Word) (s : State) : LeavenKept s (setGraphW g off v s) :=
  (memKept_hbmPut _ _ s).leavenKept

theorem leavenKept_stepVerDrop (x : SStep) (s : State) : LeavenKept s (stepVerDrop x s) := by
  unfold stepVerDrop verDrop
  simp only
  refine .ite _ (.ite _ ?_ (leavenKept_setGraphW _ _ _ s)) (.refl s)
  exact (leavenKept_setGraphW _ _ _ s).trans ((leavenKept_leavenDrop _ _ _).trans ((leavenKept_leavenDrop _ _ _).trans
    ((leavenKept_setGraphW _ _ _ _).trans (leavenKept_release _ _))))

/-! ## Reads and writes of the CZ engines (R294, R299) -/

theorem LeavenKept.foldlPair {α β : Type} {f : β × State → α → β × State} (h : ∀ r a, LeavenKept r.2 (f r a).2) :
    ∀ (l : List α) (r : β × State), LeavenKept r.2 (l.foldl f r).2
  | [], r => .refl r.2
  | a :: l, r => (h r a).trans (LeavenKept.foldlPair h l (f r a))

theorem leavenKept_vaReadAll (rq slot va n : Nat) (k : XKind) (s : State) : LeavenKept s (vaReadAll rq slot va n k s).2 := by
  have hpiece (acc : Except (AccErr × Nat) (List Byte) × State) (c : Nat × Nat) : LeavenKept acc.2 (readPiece rq slot k acc c).2 := by
    obtain ⟨e | bs, u⟩ := acc
    · exact .refl u
    · have hread := (memKept_vaRead rq slot c.1 c.2 k u).leavenKept
      unfold readPiece
      simp only
      split <;> next h => rw [h] at hread; exact hread
  rw [vaReadAll_eq]
  exact LeavenKept.foldlPair hpiece _ (.ok [], s)

/-- One piece of a write of any length, after the pieces before it. -/
def writePiece (rq slot va : Nat) (bs : List Byte) (acc : Except (AccErr × Nat) Unit × State) (p : Nat × Nat) :
    Except (AccErr × Nat) Unit × State :=
  match acc with
  | (.error e, s) => (.error e, s)
  | (.ok _, s) =>
    match vaWrite rq slot p.1 ((bs.drop (p.1 - va)).take p.2) s with
    | (.ok _, s) => (.ok (), s)
    | (.error e, s) => (.error (e, p.1), s)

theorem vaWriteAll_eq (rq slot va : Nat) (bs : List Byte) (s : State) :
    vaWriteAll rq slot va bs s = (pagePieces va bs.length).foldl (writePiece rq slot va bs) (.ok (), s) := rfl

theorem leavenKept_vaWriteAll (rq slot va : Nat) (bs : List Byte) (s : State) : LeavenKept s (vaWriteAll rq slot va bs s).2 := by
  have hpiece (acc : Except (AccErr × Nat) Unit × State) (c : Nat × Nat) : LeavenKept acc.2 (writePiece rq slot va bs acc c).2 := by
    obtain ⟨e | _, u⟩ := acc
    · exact .refl u
    · have hwrite := (memKept_vaWrite rq slot c.1 ((bs.drop (c.1 - va)).take c.2) u).leavenKept
      unfold writePiece
      simp only
      split <;> next h => rw [h] at hwrite; exact hwrite
  rw [vaWriteAll_eq]
  exact LeavenKept.foldlPair hpiece _ (.ok (), s)

theorem leavenKept_checkRange (j : JobRef) (h : Word) (off len : Nat) (s : State) : LeavenKept s (checkRange j h off len s).2 := by
  have hget := (memKept_handleGet j.slot (fld h 0 16) s).leavenKept
  have hcheck : LeavenKept s (checkHandle j h s).2 := by
    unfold checkHandle
    simp only
    split
    · exact .refl s
    · split
      · next heq => rw [heq] at hget; exact hget.trans (leavenKept_accessFault _ _ _ _ _ _)
      · next heq =>
        rw [heq] at hget
        split <;> exact hget
  unfold checkRange
  split <;> next heq => rw [heq] at hcheck; exact hcheck

theorem leavenKept_czNext (z : Nat) (s : State) : LeavenKept s (czNext z s) := by
  unfold czNext
  split
  · exact ⟨rfl, rfl, id⟩
  · exact .refl s

theorem leavenKept_czLeave (u : CzUse) (s : State) : LeavenKept s (czLeave u s) := by
  unfold czLeave
  simp only
  split
  · exact LeavenKept.trans ⟨rfl, rfl, id⟩ (leavenKept_czNext _ _)
  · exact ⟨rfl, rfl, id⟩

theorem leavenKept_czPartial (z n cap : Nat) (s : State) : LeavenKept s (czPartial z n cap s) := ⟨rfl, rfl, id⟩

theorem leavenKept_czFailed (z : Nat) (corrupt : Bool) (s : State) : LeavenKept s (czFailed z corrupt s) :=
  .ite _ (.refl s) (.refl s)

theorem leavenKept_parkStream (data : List Byte) (s : State) : LeavenKept s (parkStream data s).2 := ⟨rfl, rfl, id⟩

theorem leavenKept_parkRead (r : JobRef) (z slot i : Nat) (s : State) : LeavenKept s (parkRead r z slot i s).2 := by
  have hrange := leavenKept_checkRange r (sessW i 0x10 s) (sessW i 0x14 s).toNat (sessW i 0x18 s).toNat s
  unfold parkRead
  simp only
  split
  · exact .refl s
  · split
    · next h => rw [h] at hrange; exact hrange
    · next va u h =>
      rw [h] at hrange
      have hread := hrange.trans (leavenKept_vaReadAll (rqCz z) slot va (sessW i 0x18 s).toNat .rd u)
      split
      · next h => rw [h] at hread; exact hread.trans (leavenKept_accessFault _ _ _ _ _ _)
      · next h => rw [h] at hread; exact hread

theorem leavenKept_lvnWrite (r : JobRef) (z slot : Nat) (h : Word) (off : Nat) (bs : List Byte) (s : State) :
    LeavenKept s (lvnWrite r z slot h off bs s).2 := by
  have hrange := leavenKept_checkRange r h off bs.length s
  unfold lvnWrite
  split
  · next h => rw [h] at hrange; exact hrange
  · next va u h =>
    rw [h] at hrange
    have hwrite := hrange.trans (leavenKept_vaWriteAll (rqCz z) slot va bs u)
    split
    · next h => rw [h] at hwrite; exact hwrite.trans (leavenKept_accessFault _ _ _ _ _ _)
    · next h => rw [h] at hwrite; exact hwrite

theorem leavenKept_restoreData (r : JobRef) (z slot i : Nat) (hnd : Word) (off : Nat) (s : State) :
    LeavenKept s (restoreData r z slot i hnd off s).2 := by
  have hrange := leavenKept_checkRange r (sessW i 0x20 s) (sessW i 0x24 s).toNat (sessW i 0x28 s).toNat s
  unfold restoreData
  simp only
  split
  · next h => rw [h] at hrange; exact hrange.trans (leavenKept_czFailed _ _ _)
  · next va u h =>
    rw [h] at hrange
    have hread := hrange.trans (leavenKept_vaReadAll (rqCz z) slot va (sessW i 0x28 s).toNat .rd u)
    split
    · next h => rw [h] at hread; exact (hread.trans (leavenKept_accessFault _ _ _ _ _ _)).trans (leavenKept_czFailed _ _ _)
    · next h =>
      rw [h] at hread
      split
      · refine LeavenKept.trans ?_ (leavenKept_czFailed _ _ _)
        refine hread.trans ?_
        unfold czReason
        split <;> exact ⟨rfl, rfl, id⟩
      · next out _ _ =>
        have hwrite := hread.trans (leavenKept_lvnWrite r z slot hnd off out _)
        split
        · next h => rw [h] at hwrite; exact hwrite.trans (leavenKept_czFailed _ _ _)
        · next h => rw [h] at hwrite; exact hwrite

end Sys2Proof.Machine

/-!
PROOFS. The words of a session's record, on die or in HBM: what a word that is set reads, and what it leaves alone.
-/
namespace Sys2Proof.Machine
open Sys2Proof.Claims

/-! ## Words in HBM -/

theorem wordBytes_cons (w : Word) (ws : List Word) : wordBytes (w :: ws) = toLE 4 w.toNat ++ wordBytes ws := rfl

theorem length_wordBytes (ws : List Word) : (wordBytes ws).length = 4 * ws.length := by
  induction ws with
  | nil => rfl
  | cons w ws ih =>
    rw [wordBytes_cons, List.length_append, length_toLE, ih, List.length_cons]
    omega

theorem leNat_toLE : ∀ (n v : Nat), leNat (toLE n v) = v % 256 ^ n
  | 0, v => (Nat.mod_one v).symm
  | n + 1, v => by
    have h : leNat (toLE (n + 1) v) = v % 256 + 256 * leNat (toLE n (v / 256)) := by
      rw [toLE, leNat, BitVec.toNat_ofNat]
    rw [h, leNat_toLE n, Nat.pow_succ', Nat.mod_mul]

theorem w32_leNat_toLE (w : Word) : w32 (leNat (toLE 4 w.toNat)) = w := by
  rw [leNat_toLE, Nat.mod_eq_of_lt (show w.toNat < 256 ^ 4 from w.isLt), w32, BitVec.ofNat_toNat, BitVec.setWidth_eq]

theorem memWrite_append (d : Nat → Byte) : ∀ (xs ys : List Byte) (a : Nat) (m : Tab Byte),
    memWrite d a (xs ++ ys) m = memWrite d (a + xs.length) ys (memWrite d a xs m)
  | [], ys, a, m => rfl
  | x :: xs, ys, a, m => by
    rw [List.cons_append, memWrite, memWrite_append d xs ys, memWrite, List.length_cons, Nat.add_assoc, Nat.add_comm 1]

theorem memRead_write_out (d : Nat → Byte) {bs : List Byte} {a b n : Nat} (h : b + n ≤ a ∨ a + bs.length ≤ b) (m : Tab Byte) :
    memRead d (memWrite d a bs m) b n = memRead d m b n :=
  memRead_congr fun i hi => memByte_write_out d bs a (b + i) m (by omega)

/-- A word read after words were written. -/
theorem memRead_wordBytes (d : Nat → Byte) : ∀ (ws : List Word) (k a : Nat) (m : Tab Byte), k < ws.length →
    memRead d (memWrite d a (wordBytes ws) m) (a + 4 * k) 4 = toLE 4 (nth 0 ws k).toNat
  | w :: ws, 0, a, m, _ => by
    rw [wordBytes_cons, memWrite_append, memRead_write_out d (.inl (by rw [length_toLE]))]
    have h := memRead_write d (toLE 4 w.toNat) a m
    rwa [length_toLE] at h
  | w :: ws, k + 1, a, m, hk => by
    rw [wordBytes_cons, memWrite_append, length_toLE, show a + 4 * (k + 1) = a + 4 + 4 * k by omega]
    exact memRead_wordBytes d ws k (a + 4) _ (by simpa using hk)

theorem hbmPut_settle (a : Nat) (bs : List Byte) (s : State) :
    hbmPut a bs s = hbmPut a bs (settleFills (chunksOf (2 ^ 21) a bs.length) s) := by
  cases bs with
  | nil => rfl
  | cons b bs =>
    have h := settleFills_settled (rs := chunksOf (2 ^ 21) a (b :: bs).length) (s := settleFills (chunksOf (2 ^ 21) a (b :: bs).length) s)
      fun r hr hf => (filling_settleFills _ _ hf).2 hr
    unfold hbmPut
    simp only [h]

/-- A write of HBM is in its bytes. -/
theorem hbmPut_written (a : Nat) (bs : List Byte) (s : State) :
    ∃ m, (hbmPut a bs s).mem.hbm = memWrite (hbmDefault (hbmPut a bs s).hbc.stale) a bs m := by
  obtain ⟨hm, hs⟩ := hbmPut_settled (a := a) (bs := bs) (s := settleFills (chunksOf (2 ^ 21) a bs.length) s)
    fun r hr hf => (filling_settleFills _ _ hf).2 hr
  rw [← hbmPut_settle] at hm hs
  exact ⟨_, hs ▸ hm⟩

/-- Where no invalidation waits, a write of HBM changes its bytes alone. -/
theorem hbmPut_only {s : State} (hp : s.hbc.pendInv = []) (a : Nat) (bs : List Byte) :
    (hbmPut a bs s).mem.hbm = memWrite (hbmDefault s.hbc.stale) a bs s.mem.hbm ∧ (hbmPut a bs s).hbc.stale = s.hbc.stale := by
  obtain ⟨hm, hs⟩ := hbmPut_settled (a := a) (bs := bs) (s := settleFills (chunksOf (2 ^ 21) a bs.length) s)
    fun r hr hf => (filling_settleFills _ _ hf).2 hr
  obtain ⟨hmem, hstale, -⟩ := fillsOnly_settleFills (chunksOf (2 ^ 21) a bs.length) hp
  rw [← hbmPut_settle] at hm hs
  rw [hstale] at hm hs
  rw [hm, hs, hmem]
  exact ⟨rfl, rfl⟩

theorem hbmWord_hbmPut {ws : List Word} {k : Nat} (hk : k < ws.length) (a : Nat) (s : State) :
    hbmWord (a + 4 * k) (hbmPut a (wordBytes ws) s) = nth 0 ws k := by
  obtain ⟨m, hm⟩ := hbmPut_written a (wordBytes ws) s
  rw [hbmWord, hbmNat, hbmBytes, hm, memRead_wordBytes _ ws k a m hk, w32_leNat_toLE]

theorem hbmWord_hbmPut_out {s : State} (hp : s.hbc.pendInv = []) {a b : Nat} {bs : List Byte} (h : b + 4 ≤ a ∨ a + bs.length ≤ b) :
    hbmWord b (hbmPut a bs s) = hbmWord b s := by
  obtain ⟨hm, hs⟩ := hbmPut_only hp a bs
  rw [hbmWord, hbmNat, hbmBytes, hm, hs, memRead_write_out _ h]
  rfl

theorem hbmWord_of_mem {s t : State} (hm : t.mem.hbm = s.mem.hbm) (hs : t.hbc.stale = s.hbc.stale) (a : Nat) :
    hbmWord a t = hbmWord a s := by
  rw [hbmWord, hbmNat, hbmBytes, hm, hs]
  rfl

theorem hbmWord_tidyMem (a : Nat) (s : State) : hbmWord a (tidyMem s) = hbmWord a s := by
  rw [hbmWord, hbmNat, hbmBytes_tidyMem]
  rfl

/-! ## What the words of a session's record leave alone (R210, R212) -/

/-- The registers that a write of a record may change. -/
def recordRegs (k : Nat) : Prop := memRegs k ∨ k = rk pgLvn 0 0x028

/-- Records are read and written: the front end stays, the CZ engines, and Leaven but for what it holds on die. -/
structure RecordKept (s t : State) : Prop where
  regs : OtherRegs recordRegs s t
  pendInv : s.hbc.pendInv = [] → t.hbc.pendInv = []
  fe : t.fe = s.fe
  cz : t.cz = s.cz
  lvn : t.lvn = { s.lvn with onDie := t.lvn.onDie, recErr := t.lvn.recErr }

theorem RecordKept.refl (s : State) : RecordKept s s := ⟨.refl _ s, id, rfl, rfl, rfl⟩

theorem RecordKept.trans {s t u : State} (h : RecordKept s t) (h' : RecordKept t u) : RecordKept s u := by
  obtain ⟨hr, hp, hf, hc, hl⟩ := h
  obtain ⟨hr', hp', hf', hc', hl'⟩ := h'
  exact ⟨hr.trans hr', hp' ∘ hp, hf'.trans hf, hc'.trans hc, by rw [hl', hl]⟩

theorem MemKept.recordKept {s t : State} (h : MemKept s t) : RecordKept s t := by
  obtain ⟨ha, hr, hp⟩ := h
  exact ⟨hr.mono fun _ => .inl, hp, ha.fe, ha.cz, by rw [ha.lvn]⟩

section
variable {s t : State} (h : RecordKept s t)
include h

theorem RecordKept.steps : t.lvn.steps = s.lvn.steps := by rw [h.lvn]

theorem RecordKept.parks : t.lvn.parks = s.lvn.parks := by rw [h.lvn]

theorem RecordKept.restores : t.lvn.restores = s.lvn.restores := by rw [h.lvn]

theorem RecordKept.us : t.lvn.us = s.lvn.us := by rw [h.lvn]

/-- The registers of Leaven and of the CZ engines stay, but for ME_INJ of Leaven's page. -/
theorem RecordKept.getReg {pg off : Nat} (hpg : pg < pgMmu ∨ pg = pgLvn) (ho : off < 65536) (hinj : off ≠ 0x028) :
    getReg pg 0 off t = getReg pg 0 off s :=
  h.regs.getReg (by simp only [recordRegs, memRegs, rk, pgMmu, pgHbc, pgPba, pgLvn] at *; omega)

theorem RecordKept.sessAddr (i : Nat) : sessAddr i t = sessAddr i s := by
  simp only [Machine.sessAddr, getPair]
  rw [h.getReg (.inr rfl) (by omega) (by omega), h.getReg (.inr rfl) (by omega) (by omega)]

theorem RecordKept.parkEngine : parkEngine t = parkEngine s := by
  rw [Machine.parkEngine, getFld, h.getReg (.inr rfl) (by omega) (by omega)]
  rfl

theorem RecordKept.czAvail {z : Nat} (hz : z < 2) (composer : Bool) : czAvail z composer t = czAvail z composer s := by
  have hres : getFld (pgCz z) 0 0x100 0 2 t = getFld (pgCz z) 0 0x100 0 2 s := by
    rw [getFld, h.getReg (.inl (by simp only [pgCz, pgMmu]; omega)) (by omega) (by omega)]
    rfl
  simp only [Machine.czAvail, czHeld, czFree, hres, h.cz]
  rfl

end

/-! ## The words of a session's record (R212) -/

theorem sessW_onDie {i : Nat} {ws : List Word} {s : State} (h : tabFind i s.lvn.onDie = some ws) (off : Nat) :
    sessW i off s = nth 0 ws (off / 4) := by
  rw [sessW, h]

theorem sessW_offDie {i : Nat} {s : State} (h : tabFind i s.lvn.onDie = none) (off : Nat) :
    sessW i off s = hbmWord (sessAddr i s + off) s := by
  rw [sessW, h]

/-- A record reads the same where its copy on die, its place and the bytes of HBM are the same. -/
theorem sessW_congr {i : Nat} {s t : State} (hd : tabFind i t.lvn.onDie = tabFind i s.lvn.onDie) (ha : sessAddr i t = sessAddr i s)
    (hm : t.mem.hbm = s.mem.hbm) (hs : t.hbc.stale = s.hbc.stale) (off : Nat) : sessW i off t = sessW i off s := by
  rw [sessW, sessW, hd, ha, hbmWord_of_mem hm hs]

theorem sessW_tidyMem (i off : Nat) (s : State) : sessW i off (tidyMem s) = sessW i off s := by
  have ha : sessAddr i (tidyMem s) = sessAddr i s := rfl
  rw [sessW, sessW, ha, hbmWord_tidyMem]
  rfl

theorem alters_dieInject (i : Nat) (l : Tab Bool) (s : State) : Alters (fun k => k = rk pgLvn 0 0x028) s (dieInject pgLvn i l s).2 := by
  have h := alters_takeInjection (R := fun k => k = rk pgLvn 0 0x028) (pg := pgLvn) rfl s
  unfold dieInject
  split <;> next heq => rw [heq] at h; exact h

/-- A record's copy on die is put there, or replaced. -/
theorem recordKept_dieInject (i : Nat) (l l' : Tab Bool) (d : Tab (List Word)) (s : State) :
    RecordKept s { (dieInject pgLvn i l s).2 with lvn := { (dieInject pgLvn i l s).2.lvn with onDie := d, recErr := l' } } := by
  obtain ⟨hr, h⟩ := alters_dieInject i l s
  refine ⟨OtherRegs.trans (t := (dieInject pgLvn i l s).2) (hr.mono fun _ => .inr) fun _ _ => rfl, ?_, ?_, ?_, ?_⟩
  · rw [h]; exact id
  · rw [h]
  · rw [h]
  · rw [h]

theorem setSessW_onDie {i : Nat} {ws : List Word} {s : State} (h : tabFind i s.lvn.onDie = some ws) (off : Nat) (v : Word) :
    ∃ l, setSessW i off v s = { (dieInject pgLvn i s.lvn.recErr s).2 with
      lvn := { (dieInject pgLvn i s.lvn.recErr s).2.lvn with onDie := tabSet i (setNth ws (off / 4) v) s.lvn.onDie, recErr := l } } := by
  obtain ⟨-, hs⟩ := alters_dieInject i s.lvn.recErr s
  refine ⟨if tabFind i s.lvn.recErr = some true then tabSet i true (dieInject pgLvn i s.lvn.recErr s).1
    else (dieInject pgLvn i s.lvn.recErr s).1, ?_⟩
  simp only [setSessW, h]
  rw [hs]

theorem setSessW_offDie {i : Nat} {s : State} (h : tabFind i s.lvn.onDie = none) (off : Nat) (v : Word) :
    setSessW i off v s = hbmPut (sessAddr i s + off) (wordBytes [v]) s := by
  simp [setSessW, h, wordBytes]

theorem recordKept_setSessW (i off : Nat) (v : Word) (s : State) : RecordKept s (setSessW i off v s) := by
  cases h : tabFind i s.lvn.onDie with
  | some ws =>
    obtain ⟨l, hset⟩ := setSessW_onDie h off v
    rw [hset]
    exact recordKept_dieInject _ _ _ _ s
  | none =>
    rw [setSessW_offDie h]
    exact (memKept_hbmPut _ _ s).recordKept

/-- A record's place, on die or in HBM, and the copy's length stay where a word is set. -/
theorem onDie_setSessW (i off : Nat) (v : Word) (s : State) :
    tabFind i (setSessW i off v s).lvn.onDie = (tabFind i s.lvn.onDie).map (fun ws => setNth ws (off / 4) v) := by
  cases h : tabFind i s.lvn.onDie with
  | some ws =>
    obtain ⟨l, hset⟩ := setSessW_onDie h off v
    rw [hset]
    exact tabFind_set_self _ _ _
  | none =>
    rw [setSessW_offDie h, (accessKept_hbmPut _ _ s).lvn, h]
    rfl

theorem wholeOnDie_setSessW {i : Nat} {s : State} (h : WholeOnDie i s) (off : Nat) (v : Word) : WholeOnDie i (setSessW i off v s) := by
  intro ws hws
  rw [onDie_setSessW] at hws
  obtain ⟨ws', hws', rfl⟩ := Option.map_eq_some_iff.1 hws
  rw [setNth, List.length_set]
  exact h ws' hws'

/-- A session's record can be written word by word: a copy on die is whole, and no invalidation waits that would clear a record in HBM. -/
structure RecordSafe (i : Nat) (s : State) : Prop where
  whole : WholeOnDie i s
  place : (tabFind i s.lvn.onDie).isSome = true ∨ s.hbc.pendInv = []

theorem RecordSafe.setSessW {i : Nat} {s : State} (h : RecordSafe i s) (off : Nat) (v : Word) : RecordSafe i (setSessW i off v s) := by
  obtain ⟨hw, hp⟩ := h
  refine ⟨wholeOnDie_setSessW hw off v, hp.imp (fun hd => ?_) (recordKept_setSessW i off v s).pendInv⟩
  rw [onDie_setSessW, Option.isSome_map]
  exact hd

/-- A word that is set. -/
theorem sessW_setSessW_self {i off : Nat} {s : State} (h : WholeOnDie i s) (ho : off < 128) (v : Word) :
    sessW i off (setSessW i off v s) = v := by
  have hdie := onDie_setSessW i off v s
  cases hd : tabFind i s.lvn.onDie with
  | some ws =>
    rw [hd, Option.map_some] at hdie
    rw [sessW_onDie hdie, nth, setNth, List.getD_eq_getElem?_getD, List.getElem?_set_self (by rw [h ws hd]; omega)]
    rfl
  | none =>
    rw [hd] at hdie
    have hw := hbmWord_hbmPut (ws := [v]) (k := 0) (by simp) (sessAddr i s + off) s
    rw [sessW_offDie hdie, (recordKept_setSessW i off v s).sessAddr, setSessW_offDie hd]
    exact hw

/-- The other words of the record. -/
theorem sessW_setSessW_ne {i off off' : Nat} {s : State} (h : RecordSafe i s) (h4 : off % 4 = 0) (h4' : off' % 4 = 0) (hne : off' ≠ off)
    (v : Word) : sessW i off' (setSessW i off v s) = sessW i off' s := by
  have hdie := onDie_setSessW i off v s
  obtain ⟨-, hp⟩ := h
  cases hd : tabFind i s.lvn.onDie with
  | some ws =>
    rw [hd, Option.map_some] at hdie
    rw [sessW_onDie hdie, sessW_onDie hd, nth, setNth, List.getD_eq_getElem?_getD, List.getElem?_set_ne (by omega), nth,
      List.getD_eq_getElem?_getD]
  | none =>
    rw [hd] at hdie hp
    have hp : s.hbc.pendInv = [] := by simpa using hp
    rw [sessW_offDie hdie, (recordKept_setSessW i off v s).sessAddr, setSessW_offDie hd, sessW_offDie hd,
      hbmWord_hbmPut_out hp (by rw [length_wordBytes, List.length_singleton]; omega)]

/-! ## STATE and PEND (Table 8-1) -/

theorem sessState_setSessState {i n : Nat} {s : State} (h : WholeOnDie i s) (hn : n < 8) : sessState i (setSessState i n s) = n := by
  rw [sessState, setSessState, sessW_setSessW_self h (by omega), fld_putFld_self _ _ _ _ (by omega), Nat.mod_eq_of_lt (by omega)]

theorem sessPend_setSessState {i : Nat} {s : State} (h : RecordSafe i s) (n : Nat) : sessPend i (setSessState i n s) = sessPend i s := by
  rw [sessPend, setSessState, sessW_setSessW_ne h (by omega) (by omega) (by omega), sessPend]

theorem sessPend_setSessPend {i : Nat} {s : State} (h : WholeOnDie i s) (n : Nat) : sessPend i (setSessPend i n s) = n % 256 := by
  rw [sessPend, setSessPend, sessW_setSessW_self h (by omega), fld_putFld_self _ _ _ _ (by omega)]
  rfl

theorem sessState_setSessPend {i : Nat} {s : State} (h : RecordSafe i s) (n : Nat) : sessState i (setSessPend i n s) = sessState i s := by
  rw [sessState, setSessPend, sessW_setSessW_ne h (by omega) (by omega) (by omega), sessState]

end Sys2Proof.Machine

/-!
PROOFS. The statement of 05_memory_model.md on sessions: first how a command of Leaven starts its job and reads its session's record, then
the open, the step with its restore, the close and the park.
-/
namespace Sys2Proof.Machine
open Sys2Proof.Claims

/-! ## The commands of Leaven start their jobs (R211, R213) -/

theorem onCommand_congr {f : Fetcher} {c : List Word} {s s1 : State} (h : Takes f c 0 s s1) {sel : List Word → Bool} (hsel : sel c = true)
    {act act' : Owner → List Word → Nat → State → Option State} (hact : act (ownerOf f) c 0 s1 = act' (ownerOf f) c 0 s1) :
    onCommand f sel act s = onCommand f sel act' s := by
  rw [onCommand_takes h hsel, onCommand_takes h hsel, hact]

theorem lvnCmd_goes {k q n : Nat} {c : List Word} {s : State} {wait : Nat → List Word → State → Bool} (hwait : wait k c s = false)
    (act : Owner → Nat → Nat → List Word → State → State) :
    lvnCmd wait act (.queue k q) c n s = startJob (.queue k q) c (fun j s => act (.queue k q) k j c s) s := by
  simp only [lvnCmd, hwait, Bool.false_eq_true, if_false]

/-- A command of Leaven that is not held starts its job, which acts first. -/
theorem lvnCmd_starts {k : Fin 64} {q : Fin 16} {c : List Word} {s s1 w : State} (h : StartsAt k q c s s1 w)
    {sel : List Word → Bool} (hsel : sel c = true) {wait : Nat → List Word → State → Bool} (hwait : wait k.val c s1 = false)
    (act : Owner → Nat → Nat → List Word → State → State) :
    onCommand (.queue k q) sel (lvnCmd wait act) s =
      passJob (.queue k.val q.val) c (act (.queue k.val q.val) k.val s.fe.nextJob c w) := by
  obtain ⟨s2, hjob, hw⟩ := h
  obtain rfl : w = jobStart k q c s2 := hw
  rw [onCommand_congr (act' := fun o c _ s => startJob o c (fun j s => act o k.val j c s) s) hjob.1 hsel (lvnCmd_goes hwait act)]
  exact onCommand_startsJob hjob hsel (act := fun j u => act (.queue k.val q.val) k.val j c u) fun _ => rfl

/-- A command of Leaven that is held (R213). -/
theorem lvnCmd_held {k : Fin 64} {q : Fin 16} {c : List Word} {s s1 w : State} (h : StartsAt k q c s s1 w)
    {sel : List Word → Bool} (hsel : sel c = true) {wait : Nat → List Word → State → Bool} (hwait : wait k.val c s1 = true)
    (act : Owner → Nat → Nat → List Word → State → State) :
    OtherQueues k.val q.val s (tidyMem (onCommand (.queue k q) sel (lvnCmd wait act) s)) ∧
    queueOf k.val q.val (tidyMem (onCommand (.queue k q) sel (lvnCmd wait act) s)) = { queueOf k.val q.val s with held := true } := by
  obtain ⟨s2, ⟨htakes, hfull, hroom⟩, -⟩ := h
  have h1 := frontKept_of_takes htakes
  have h2 := h1.trans (frontKept_ringRoom hroom)
  rw [onCommand_takes htakes hsel]
  show OtherQueues k.val q.val s (tidyMem ((lvnCmd wait act (.queue k.val q.val) c 0 s1).getD s)) ∧
    queueOf k.val q.val (tidyMem ((lvnCmd wait act (.queue k.val q.val) c 0 s1).getD s)) = _
  simp only [lvnCmd, hwait, if_true, holdJob, hfull, Bool.false_or]
  cases hheld : (queueOf k.val q.val s1).held with
  | true =>
    refine ⟨⟨fun _ _ _ _ => rfl, rfl⟩, ?_⟩
    rw [h1.queueOf] at hheld
    show queueOf k.val q.val s = _
    rw [← hheld]
  | false =>
    simp only [hroom, Bool.false_eq_true, if_false]
    refine ⟨⟨fun m n hn hne => (queueOf_setQueue_ne q.isLt hn hne _ _).trans (h2.queueOf m n), h2.jobs⟩, ?_⟩
    rw [h1.queueOf] at hfull
    refine (queueOf_setQueue_self _ _ _ _).trans ?_
    rw [h2.queueOf]
    exact congrArg (fun b => { queueOf k.val q.val s with held := true, full := b }) hfull.symm

/-- The job of a command that starts is in the table. -/
theorem jobPut_of_startsAt {k : Fin 64} {q : Fin 16} {c : List Word} {s s1 w : State} (h : StartsAt k q c s s1 w) :
    JobPut k.val q.val c none s w := by
  obtain ⟨s2, hjob, rfl⟩ := h
  exact (jobPut_of_startsJob hjob).1

section
variable {k q : Nat} {c : List Word} {s w : State} (h : JobPut k q c none s w)
include h

/-- The new job ends in a state with the front end of its start. -/
theorem JobPut.endedWith {u : State} (hfe : u.fe = w.fe) (st r d : Nat) : EndedWith s (Machine.endJob s.fe.nextJob st r d u) st r d := by
  obtain ⟨b, hb, -, -, -, -, hfin⟩ := ((h.of_fe hfe).endJob st r d).job
  exact ⟨b, hb, hfin⟩

theorem JobPut.goesOn {u : State} (hfe : u.fe = w.fe) : JobGoesOn s u := by
  obtain ⟨b, hb, -, -, -, -, hfin⟩ := (h.of_fe hfe).job
  exact ⟨b, hb, hfin⟩

end

/-! ## The record of a command's session (R139, R210) -/

theorem onSession_outside {act : Owner → Nat → Nat → List Word → State → State} {slot : Nat} {c : List Word} {s : State}
    (h : inSessWindow (slotOf slot s).func (sessIdx c) s = false) (o : Owner) (j : Nat) :
    onSession act o slot j c s = act o slot j c s := by
  simp only [onSession, h, Bool.not_false, if_true]

theorem onSession_fails {act : Owner → Nat → Nat → List Word → State → State} {slot : Nat} {c : List Word} {s w : State}
    (h : inSessWindow (slotOf slot s).func (sessIdx c) s = true) (hf : sessFails (sessIdx c) s = (true, w)) (o : Owner) (j : Nat) :
    onSession act o slot j c s = lvnFail j (sessIdx c) 0 0x0015 w := by
  simp only [onSession, h, hf, Bool.not_true, Bool.false_eq_true, if_false]

theorem onSession_reads {act : Owner → Nat → Nat → List Word → State → State} {slot : Nat} {c : List Word} {s w : State}
    (h : inSessWindow (slotOf slot s).func (sessIdx c) s = true) (hf : sessFails (sessIdx c) s = (false, w)) (o : Owner) (j : Nat) :
    onSession act o slot j c s = act o slot j c w := by
  simp only [onSession, h, hf, Bool.not_true, Bool.false_eq_true, if_false]

/-- The reading of a record changes no more than its errors. -/
theorem sessFails_fe (i : Nat) (s : State) : (sessFails i s).2.fe = s.fe := by
  have hread := (accessKept_hbmRead (sessAddr i s) 128 s).fe
  unfold sessFails
  split
  · generalize hbmRead (sessAddr i s) 128 s = r at hread
    obtain ⟨x, t⟩ := r
    exact hread
  · split
    · rfl
    · simp only
      rw [(faultAt_does 282 pgLvn 0 s).2]
    · rfl

/-! ## The four session commands -/

theorem exec_sessOpen (k : Fin 64) (q : Fin 16) (s : State) : exec (.sessOpen (.queue k q)) s =
    .next (tidyMem (onCommand (.queue k q) (selOp 0x08) (lvnCmd (fun _ _ _ => false) (onSession openAct)) s)) := rfl

theorem exec_sessStep (k : Fin 64) (q : Fin 16) (s : State) : exec (.sessStep (.queue k q)) s =
    .next (tidyMem (onCommand (.queue k q) (selOp 0x09) (lvnCmd stepHeld (onSession stepAct)) s)) := rfl

theorem exec_sessClose (k : Fin 64) (q : Fin 16) (s : State) : exec (.sessClose (.queue k q)) s =
    .next (tidyMem (onCommand (.queue k q) (selFlag 0x0A 0) (lvnCmd closeHeld (onSession closeAct)) s)) := rfl

theorem exec_sessPark (k : Fin 64) (q : Fin 16) (s : State) : exec (.sessPark (.queue k q)) s =
    .next (tidyMem (onCommand (.queue k q) (selFlag 0x0A 1) (lvnCmd closeHeld (onSession parkAct)) s)) := rfl

section
variable {k : Fin 64} {q : Fin 16} {c : List Word} {s s1 w : State} (h : StartsAt k q c s s1 w)
include h

theorem sessOpen_starts (hop : opOf c = 8) : exec (.sessOpen (.queue k q)) s =
    StartedTo k.val q.val c (onSession openAct (.queue k.val q.val) k.val s.fe.nextJob c w) := by
  rw [exec_sessOpen, lvnCmd_starts h (by simp [selOp, hop]) rfl]

theorem sessStep_starts (hop : opOf c = 9) (hheld : stepHeld k.val c s1 = false) : exec (.sessStep (.queue k q)) s =
    StartedTo k.val q.val c (onSession stepAct (.queue k.val q.val) k.val s.fe.nextJob c w) := by
  rw [exec_sessStep, lvnCmd_starts h (by simp [selOp, hop]) hheld]

theorem sessClose_starts (hop : opOf c = 0x0A) (hpark : argsOf c % 2 = 0) (hheld : closeHeld k.val c s1 = false) :
    exec (.sessClose (.queue k q)) s =
    StartedTo k.val q.val c (onSession closeAct (.queue k.val q.val) k.val s.fe.nextJob c w) := by
  rw [exec_sessClose, lvnCmd_starts h (by simp [selFlag, hop, hpark]) hheld]

theorem sessPark_starts (hop : opOf c = 0x0A) (hpark : argsOf c % 2 = 1) (hheld : closeHeld k.val c s1 = false) :
    exec (.sessPark (.queue k q)) s =
    StartedTo k.val q.val c (onSession parkAct (.queue k.val q.val) k.val s.fe.nextJob c w) := by
  rw [exec_sessPark, lvnCmd_starts h (by simp [selFlag, hop, hpark]) hheld]

end

/-! ## Names that fail (R210, R211) -/

theorem sessNamed_outside {slot : Nat} {c : List Word} {s : State} (h : inSessWindow (slotOf slot s).func (sessIdx c) s = false) :
    sessNamed slot c s = false := by
  simp [sessNamed, h]

theorem openAct_outside {slot : Nat} {c : List Word} {s : State} (h : inSessWindow (slotOf slot s).func (sessIdx c) s = false)
    (o : Owner) (j : Nat) : openAct o slot j c s = lvnFail j (sessIdx c) 0 0x0003 s := by
  simp only [openAct, h, Bool.not_false, if_true]

theorem stepAct_unnamed {slot : Nat} {c : List Word} {s : State} (h : sessNamed slot c s = false) (o : Owner) (j : Nat) :
    stepAct o slot j c s = lvnFail j (sessIdx c) 0 0x0003 s := by
  simp only [stepAct, h, Bool.not_false, if_true]

theorem closeAct_unnamed {slot : Nat} {c : List Word} {s : State} (h : sessNamed slot c s = false) (o : Owner) (j : Nat) :
    closeAct o slot j c s = lvnFail j (sessIdx c) 0 0x0003 s := by
  simp only [closeAct, h, Bool.not_false, if_true]

theorem parkAct_unnamed {slot : Nat} {c : List Word} {s : State} (h : sessNamed slot c s = false) (o : Owner) (j : Nat) :
    parkAct o slot j c s = lvnFail j (sessIdx c) 0 0x0003 s := by
  simp only [parkAct, h, Bool.not_false, if_true]

/-- A command of a session that ends with BAD_HANDLE outside the window and, but for SESS_OPEN, where the name fails. -/
def ChecksName (act : Owner → Nat → Nat → List Word → State → State) (c : List Word) : Prop :=
  ∀ (o : Owner) (slot j : Nat) (s : State),
    (inSessWindow (slotOf slot s).func (sessIdx c) s = false → act o slot j c s = lvnFail j (sessIdx c) 0 0x0003 s) ∧
    (opOf c ≠ 8 → sessNamed slot c s = false → act o slot j c s = lvnFail j (sessIdx c) 0 0x0003 s)

theorem ChecksName.of_unnamed {act : Owner → Nat → Nat → List Word → State → State} {c : List Word}
    (h : ∀ o slot j s, sessNamed slot c s = false → act o slot j c s = lvnFail j (sessIdx c) 0 0x0003 s) : ChecksName act c :=
  fun o slot j s => ⟨fun hw => h o slot j s (sessNamed_outside hw), fun _ => h o slot j s⟩

/-- Each of the commands checks its session's name. -/
theorem sessCmd_checksName {k : Fin 64} {q : Fin 16} {c : List Word} {x : Instr} {s s1 w : State} (h : StartsAt k q c s s1 w)
    (hx : (opOf c = 8 ∧ x = .sessOpen (.queue k q)) ∨ (opOf c = 9 ∧ x = .sessStep (.queue k q) ∧ stepHeld k.val c s1 = false) ∨
      (opOf c = 0x0A ∧ argsOf c % 2 = 0 ∧ x = .sessClose (.queue k q) ∧ closeHeld k.val c s1 = false) ∨
      (opOf c = 0x0A ∧ argsOf c % 2 = 1 ∧ x = .sessPark (.queue k q) ∧ closeHeld k.val c s1 = false)) :
    ∃ act, exec x s = StartedTo k.val q.val c (onSession act (.queue k.val q.val) k.val s.fe.nextJob c w) ∧ ChecksName act c := by
  obtain ⟨hop, rfl⟩ | ⟨hop, rfl, hheld⟩ | ⟨hop, hpark, rfl, hheld⟩ | ⟨hop, hpark, rfl, hheld⟩ := hx
  · exact ⟨_, sessOpen_starts h hop, fun o slot j u => ⟨fun hw => openAct_outside hw o j, fun hne => absurd hop hne⟩⟩
  · exact ⟨_, sessStep_starts h hop hheld, .of_unnamed fun o _ j _ hn => stepAct_unnamed hn o j⟩
  · exact ⟨_, sessClose_starts h hop hpark hheld, .of_unnamed fun o _ j _ hn => closeAct_unnamed hn o j⟩
  · exact ⟨_, sessPark_starts h hop hpark hheld, .of_unnamed fun o _ j _ hn => parkAct_unnamed hn o j⟩

/-- A session command outside the window, of a record that cannot be read, or of a name that fails. -/
theorem sessCmd_fails {k : Fin 64} {q : Fin 16} {c : List Word} {x : Instr} {act : Owner → Nat → Nat → List Word → State → State}
    {s s1 w : State} (h : StartsAt k q c s s1 w)
    (hx : exec x s = StartedTo k.val q.val c (onSession act (.queue k.val q.val) k.val s.fe.nextJob c w)) (hact : ChecksName act c) :
    (inSessWindow (slotOf k.val w).func (sessIdx c) w = false →
      ∃ u, exec x s = StartedTo k.val q.val c u ∧ EndedWith s u 1 0x0003 (lvnDetail (sessIdx c) 0)) ∧
    (∀ w', inSessWindow (slotOf k.val w).func (sessIdx c) w = true → sessFails (sessIdx c) w = (true, w') →
      ∃ u, exec x s = StartedTo k.val q.val c u ∧ EndedWith s u 1 0x0015 (lvnDetail (sessIdx c) 0)) ∧
    (∀ w', inSessWindow (slotOf k.val w).func (sessIdx c) w = true → sessFails (sessIdx c) w = (false, w') → opOf c ≠ 8 →
      sessNamed k.val c w' = false →
      ∃ u, exec x s = StartedTo k.val q.val c u ∧ EndedWith s u 1 0x0003 (lvnDetail (sessIdx c) 0)) := by
  have hjob := jobPut_of_startsAt h
  have hfe := sessFails_fe (sessIdx c) w
  refine ⟨fun hw => ⟨_, hx, ?_⟩, fun w' hw hf => ⟨_, hx, ?_⟩, fun w' hw hf hop hn => ⟨_, hx, ?_⟩⟩
  · rw [onSession_outside hw, (hact _ _ _ _).1 hw]
    exact hjob.endedWith rfl _ _ _
  · rw [hf] at hfe
    rw [onSession_fails hw hf]
    exact hjob.endedWith hfe _ _ _
  · rw [hf] at hfe
    rw [onSession_reads hw hf, (hact _ _ _ _).2 hop hn]
    exact hjob.endedWith hfe _ _ _

/-! ## SESS_OPEN (R215) -/

/-- A command whose record is read acts in the state after the reading. -/
theorem startsOn_acts {k : Fin 64} {q : Fin 16} {c : List Word} {i : Nat} {s s1 w : State} (h : StartsOn k q c i s s1 w) :
    ∃ w0, StartsAt k q c s s1 w0 ∧ i = sessIdx c ∧ w.fe = w0.fe ∧ ∀ act o j, onSession act o k.val j c w0 = act o k.val j c w := by
  obtain ⟨w0, hstart, hi, hw, hf⟩ := h
  have hfe := sessFails_fe i w0
  rw [hf] at hfe
  subst hi
  exact ⟨w0, hstart, rfl, hfe, fun act o j => onSession_reads hw hf o j⟩

theorem openAct_state {slot : Nat} {c : List Word} {s : State} (hw : inSessWindow (slotOf slot s).func (sessIdx c) s = true)
    (hst : sessState (sessIdx c) s ≠ 0) (o : Owner) (j : Nat) : openAct o slot j c s = lvnFail j (sessIdx c) 0 rSessState s := by
  simp only [openAct, hw, Bool.not_true, Bool.false_eq_true, if_false, if_pos hst]

/-- The record of an opened session is written, and its job ends OK. -/
def openPut (slot j i : Nat) (t : List Word) (s : State) : State :=
  lvnOk j i ((sessGen i s + 1) % 65536)
    (hbmPut (sessAddr i s) (wordBytes (openRecord slot (slotOf slot s).func ((sessGen i s + 1) % 65536) t)) s)

theorem openWith_opens {r : JobRef} {slot j i : Nat} {t : List Word} {s s' : State} (hkv : dWord t 6 ≤ dWord t 7)
    (hname : nth 0 t 4 = 0 ∧ s' = s ∨ nth 0 t 4 ≠ 0 ∧ ∃ kva v, kvRegion r (nth 0 t 4) (dWord t 5) (dWord t 7) s = (.ok kva, v) ∧
      acquireRef r (nth 0 t 4) v = (.ok (), s')) :
    openWith r slot j i t s = openPut slot j i t s' := by
  unfold openWith
  simp only
  rw [if_neg (Nat.not_lt.2 hkv)]
  obtain ⟨h0, rfl⟩ | ⟨h0, kva, v, hregion, hacq⟩ := hname
  · rw [if_pos h0]
    rfl
  · rw [if_neg h0]
    simp only [hregion, hacq]
    rfl

theorem openAct_opens {o : Owner} {slot j va : Nat} {c : List Word} {bs : List Byte} {s s1 s2 : State}
    (hw : inSessWindow (slotOf slot s).func (sessIdx c) s = true) (hst : sessState (sessIdx c) s = 0)
    (hrange : checkRange (jobRefOf o j s) (cw c 3) (cw c 4).toNat 64 s = (.ok va, s1))
    (hread : vaReadAll rqLvn slot va 64 .rd s1 = (.ok bs, s2)) :
    openAct o slot j c s = openWith (jobRefOf o j s) slot j (sessIdx c) (rowWords 4 16 bs) s2 := by
  simp only [openAct, hw, Bool.not_true, Bool.false_eq_true, if_false, if_neg (not_not.2 hst), hrange, hread]

theorem memKept_of_named {r : JobRef} {h : Word} {off len : Nat} {p : Prop} {s s' : State}
    (hname : h = 0 ∧ s' = s ∨ p ∧ ∃ kva v, kvRegion r h off len s = (.ok kva, v) ∧ acquireRef r h v = (.ok (), s')) :
    MemKept s s' := by
  obtain ⟨-, rfl⟩ | ⟨-, kva, v, hregion, hacq⟩ := hname
  · exact .refl _
  · exact (memKept_of_kvRegion hregion).trans (memKept_of_acquireRef hacq)

theorem length_openRecord (slot fn gen : Nat) (t : List Word) : (openRecord slot fn gen t).length = 32 := rfl

theorem endJob_fe (j status reason detail : Nat) (s : State) : ∃ f, endJob j status reason detail s = { s with fe := f } := by
  unfold endJob
  split
  · split
    · exact ⟨s.fe, rfl⟩
    · exact ⟨_, rfl⟩
  · exact ⟨s.fe, rfl⟩

/-- The end of a job leaves the records. -/
theorem sessW_endJob (i off j status reason detail : Nat) (s : State) : sessW i off (endJob j status reason detail s) = sessW i off s := by
  obtain ⟨f, hf⟩ := endJob_fe j status reason detail s
  rw [hf]
  exact sessW_congr rfl rfl rfl rfl off

/-- A word of the record that an open writes. -/
theorem sessW_openPut {i : Nat} {s : State} (hd : tabFind i s.lvn.onDie = none) (slot j : Nat) (t : List Word) {m : Nat} (hm : m < 32) :
    sessW i (4 * m) (openPut slot j i t s) = nth 0 (openRecord slot (slotOf slot s).func ((sessGen i s + 1) % 65536) t) m := by
  have hkept := memKept_hbmPut (sessAddr i s) (wordBytes (openRecord slot (slotOf slot s).func ((sessGen i s + 1) % 65536) t)) s
  rw [openPut, lvnOk, sessW_endJob, sessW_offDie (by rw [hkept.access.lvn]; exact hd), hkept.recordKept.sessAddr,
    hbmWord_hbmPut (by rw [length_openRecord]; exact hm)]

/-- SESS_OPEN of a FREE session. -/
theorem sessOpen_opens {k : Fin 64} {q : Fin 16} {c : List Word} {i va : Nat} {s s1 w w1 w2 w3 : State} {bs : List Byte} {d : List Word}
    {r : JobRef} (h : StartsOn k q c i s s1 w) (hop : opOf c = 8) (hst : sessState i w = 0)
    (hw : inSessWindow (slotOf k.val w).func i w = true) (hdie : tabFind i w.lvn.onDie = none)
    (hr : r = jobRefOf (.queue k.val q.val) s.fe.nextJob w) (hrange : checkRange r (cw c 3) (cw c 4).toNat 64 w = (.ok va, w1))
    (hread : vaReadAll rqLvn k.val va 64 .rd w1 = (.ok bs, w2)) (hd : d = rowWords 4 16 bs) (hkv : dWord d 6 ≤ dWord d 7)
    (hname : nth 0 d 4 = 0 ∧ w3 = w2 ∨ nth 0 d 4 ≠ 0 ∧ ∃ kva w', kvRegion r (nth 0 d 4) (dWord d 5) (dWord d 7) w2 = (.ok kva, w') ∧
      acquireRef r (nth 0 d 4) w' = (.ok (), w3))
    (hfunc : (slotOf k.val w3).func < 64) :
    ∃ u, exec (.sessOpen (.queue k q)) s = StartedTo k.val q.val c u ∧
      sessState i u = 1 ∧ sessSlot i u = k.val ∧ sessGen i u = (sessGen i w3 + 1) % 65536 ∧ sessGraph i u = dWord d 0 / 2 ^ 20 ∧
      sessW i 0x10 u = nth 0 d 4 ∧ sessW i 0x18 u = nth 0 d 6 ∧ sessW i 0x1C u = nth 0 d 7 ∧
      EndedWith s u 0 0 (lvnDetail i ((sessGen i w3 + 1) % 65536)) := by
  obtain ⟨w0, hstart, hi, hfe, hact⟩ := startsOn_acts h
  have hreadKept := accessKept_vaReadAll rqLvn k.val va 64 .rd w1
  rw [hread] at hreadKept
  have hkept := ((memKept_of_checkRange hrange).access.trans hreadKept).trans (memKept_of_named hname).access
  have hword (m : Nat) (hm : m < 32) := sessW_openPut (i := i) (s := w3) (by rw [hkept.lvn]; exact hdie) k.val s.fe.nextJob d hm
  have hk := k.isLt
  have hd0 : dWord d 0 < 2 ^ 32 := (nth 0 d 0).isLt
  refine ⟨openPut k.val s.fe.nextJob i d w3, ?_, ?_, ?_, ?_, ?_, hword 4 (by omega), hword 6 (by omega), hword 7 (by omega), ?_⟩
  · rw [sessOpen_starts hstart hop, hact]
    subst hi hr hd
    rw [openAct_opens hw hst hrange hread, openWith_opens hkv hname]
  · rw [sessState, hword 0 (by omega)]
    show fld (w32 _) 0 3 = 1
    rw [fld_w32]
    omega
  · rw [sessSlot, hword 0 (by omega)]
    show fld (w32 _) 8 6 = k.val
    rw [fld_w32]
    omega
  · rw [sessGen, hword 1 (by omega)]
    show fld (w32 _) 0 16 = _
    rw [fld_w32]
    omega
  · rw [sessGraph, hword 0 (by omega)]
    show fld (w32 _) 20 12 = _
    rw [fld_w32]
    omega
  · have hput := hkept.fe.trans hfe
    exact (jobPut_of_startsAt hstart).endedWith ((accessKept_hbmPut _ _ w3).fe.trans hput) _ _ _

/-! ## A use asks for a context of a CZ engine (R299) -/

theorem czQueue_waits {z : Nat} {use : CzUse} {s : State} (h : czAvail z false s = none) : (z, use) ∈ (czQueue z use s).cz.waiting := by
  have ha : czAvail z false { s with cz := { s.cz with waiting := s.cz.waiting ++ [(z, use)] } } = none := h
  have hq : czQueue z use s = { s with cz := { s.cz with waiting := s.cz.waiting ++ [(z, use)] } } := by
    rw [czQueue, czNext, ha]
    split
    · contradiction
    · rfl
  rw [hq]
  simp

theorem czCtxOf_czTake (z c : Nat) (use : CzUse) (s : State) : (czCtxOf use (czTake z c use s)).isSome = true := by
  have hmem : (z * 4 + c, use) ∈ tabSet (z * 4 + c) use s.cz.ctx := exists_mem_of_tabFind (tabFind_set_self _ _ _)
  rw [czCtxOf, Option.isSome_map]
  exact List.find?_isSome.2 ⟨_, hmem, by simp⟩

theorem czQueue_takes {z : Nat} {use : CzUse} {s : State} (hfirst : ∀ x ∈ s.cz.waiting, x.1 ≠ z)
    (h : (czAvail z false s).isSome = true) : (czCtxOf use (czQueue z use s)).isSome = true := by
  obtain ⟨c, hc⟩ := Option.isSome_iff_exists.1 h
  have ha : czAvail z false { s with cz := { s.cz with waiting := s.cz.waiting ++ [(z, use)] } } = some c := hc
  have hf : (s.cz.waiting ++ [(z, use)]).find? (fun w => w.1 == z) = some (z, use) := by
    rw [List.find?_append, List.find?_eq_none.2 fun x hx => by simpa using hfirst x hx]
    simp
  rw [czQueue, czNext, ha]
  simp only [hf]
  exact czCtxOf_czTake _ _ _ _

/-- A use that is queued waits for a context, or has one, as the engine's contexts were. -/
theorem engineAsked_czQueue {z : Nat} (use : CzUse) {w s : State} (ha : czAvail z false s = czAvail z false w) (hc : s.cz = w.cz) :
    EngineAsked z use w (czQueue z use s) :=
  ⟨fun h => czQueue_waits (ha.trans h), fun hf h => czQueue_takes (by rwa [hc]) (by rwa [ha])⟩

theorem parkEngine_lt (s : State) : parkEngine s < 2 := Nat.mod_lt _ (by omega)

/-! ## A record taken on die (R212) -/

/-- The record is on die, with its 32 words. -/
def HeldWhole (i : Nat) (s : State) : Prop := ∃ ws, tabFind i s.lvn.onDie = some ws ∧ ws.length = 32

theorem HeldWhole.safe {i : Nat} {s : State} (h : HeldWhole i s) : RecordSafe i s := by
  obtain ⟨ws, hws, hlen⟩ := h
  refine ⟨fun ws' hws' => ?_, .inl (by rw [hws]; rfl)⟩
  rw [hws] at hws'
  exact Option.some.inj hws' ▸ hlen

theorem HeldWhole.setSessW {i : Nat} {s : State} (h : HeldWhole i s) (off : Nat) (v : Word) : HeldWhole i (setSessW i off v s) := by
  obtain ⟨ws, hws, hlen⟩ := h
  exact ⟨setNth ws (off / 4) v, by rw [onDie_setSessW, hws]; rfl, by rw [setNth, List.length_set, hlen]⟩

/-- A record that stays on die reads the same. -/
theorem HeldWhole.sessW_congr {i : Nat} {s t : State} (h : HeldWhole i s) (hl : t.lvn.onDie = s.lvn.onDie) (off : Nat) :
    sessW i off t = sessW i off s := by
  obtain ⟨ws, hws, -⟩ := h
  rw [sessW_onDie hws, sessW_onDie (by rw [hl]; exact hws)]

theorem HeldWhole.congr {i : Nat} {s t : State} (h : HeldWhole i s) (hl : t.lvn.onDie = s.lvn.onDie) : HeldWhole i t := by
  obtain ⟨ws, hws, hlen⟩ := h
  exact ⟨ws, by rw [hl]; exact hws, hlen⟩

/-- The words that a record in HBM has. -/
def recordWords (i : Nat) (s : State) : List Word := (List.range 32).map (fun k => hbmWord (sessAddr i s + 4 * k) s)

theorem sessLoad_offDie {i : Nat} {s : State} (h : tabFind i s.lvn.onDie = none) :
    sessLoad i s = { (dieInject pgLvn i s.lvn.recErr s).2 with lvn := { (dieInject pgLvn i s.lvn.recErr s).2.lvn with
      onDie := tabSet i (recordWords i s) s.lvn.onDie, recErr := (dieInject pgLvn i s.lvn.recErr s).1 } } := by
  obtain ⟨-, hs⟩ := alters_dieInject i s.lvn.recErr s
  simp only [sessLoad, h, Option.isSome_none, Bool.false_eq_true, if_false]
  rw [hs]
  rfl

theorem sessLoad_onDie {i : Nat} {s : State} (h : (tabFind i s.lvn.onDie).isSome = true) : sessLoad i s = s := if_pos h

theorem recordKept_sessLoad (i : Nat) (s : State) : RecordKept s (sessLoad i s) := by
  cases h : tabFind i s.lvn.onDie with
  | some ws =>
    rw [sessLoad_onDie (by rw [h]; rfl)]
    exact .refl s
  | none =>
    rw [sessLoad_offDie h]
    exact recordKept_dieInject _ _ _ _ s

theorem heldWhole_sessLoad {i : Nat} {s : State} (h : WholeOnDie i s) : HeldWhole i (sessLoad i s) := by
  cases hd : tabFind i s.lvn.onDie with
  | some ws =>
    rw [sessLoad_onDie (by rw [hd]; rfl)]
    exact ⟨ws, hd, h ws hd⟩
  | none =>
    rw [sessLoad_offDie hd]
    exact ⟨_, tabFind_set_self _ _ _, by simp [recordWords]⟩

/-- A record reads the same once it is on die. -/
theorem sessW_sessLoad {i m : Nat} (hm : m < 32) (s : State) : sessW i (4 * m) (sessLoad i s) = sessW i (4 * m) s := by
  cases hd : tabFind i s.lvn.onDie with
  | some ws => rw [sessLoad_onDie (by rw [hd]; rfl)]
  | none =>
    have h : tabFind i (sessLoad i s).lvn.onDie = some (recordWords i s) := by
      rw [sessLoad_offDie hd]
      exact tabFind_set_self _ _ _
    rw [sessW_onDie h, sessW_offDie hd, recordWords, nth, Nat.mul_div_cancel_left m (by omega)]
    simp [hm]

/-! ## SESS_STEP (R213, R216, R225, R227) -/

/-- The state that the reading of a graph's record leaves. The definition is unfolded as a function: applied, its match would have the
kernel compute the read. -/
theorem graphFails_state (g : Nat) (s : State) : (graphFails g s).2 = (hbmRead (graphAddr g s) 256 s).2 := by
  have h : graphFails = graphFails := rfl
  conv at h => rhs; delta graphFails
  have hgs := congrFun (congrFun h g) s
  beta_reduce at hgs
  refine (congrArg Prod.snd hgs).trans ?_
  generalize hbmRead (graphAddr g s) 256 s = r
  obtain ⟨x, t⟩ := r
  rfl

theorem memKept_of_graphFails {g : Nat} {b : Bool} {s s' : State} (h : graphFails g s = (b, s')) : MemKept s s' := by
  have hstate := graphFails_state g s
  rw [h] at hstate
  rw [show s' = (hbmRead (graphAddr g s) 256 s).2 from hstate]
  exact memKept_hbmRead _ 256 s

theorem memKept_verAdd (g v : Nat) (s : State) : MemKept s (verAdd g v s) := by
  unfold verAdd setGraphW
  exact memKept_hbmPut _ _ s

section
variable {slot : Nat} {c : List Word} {s : State} (hn : sessNamed slot c s = true)
include hn

theorem stepAct_state (hst : sessState (sessIdx c) s = 0 ∨ sessState (sessIdx c) s = 4 ∨ 5 < sessState (sessIdx c) s)
    (o : Owner) (j : Nat) : stepAct o slot j c s = lvnFail j (sessIdx c) 0 rSessState s := by
  simp only [stepAct, hn, Bool.not_true, Bool.false_eq_true, if_false, if_pos hst]

variable (hst : sessState (sessIdx c) s = 1 ∨ sessState (sessIdx c) s = 2 ∨ sessState (sessIdx c) s = 3 ∨ sessState (sessIdx c) s = 5)
include hst

theorem stepAct_unread {s1 : State} (hg : graphFails (sessGraph (sessIdx c) s) s = (true, s1)) (o : Owner) (j : Nat) :
    stepAct o slot j c s = lvnFail j (sessIdx c) 0 0x0015 s1 := by
  simp only [stepAct, hn, Bool.not_true, Bool.false_eq_true, if_false, hg]
  exact if_neg (by omega)

theorem stepAct_empty {s1 : State} (hg : graphFails (sessGraph (sessIdx c) s) s = (false, s1))
    (hcur : graphCur (sessGraph (sessIdx c) s1) s1 = none) (o : Owner) (j : Nat) :
    stepAct o slot j c s = lvnFail j (sessIdx c) 0 rGraphEmpty s1 := by
  simp only [stepAct, hn, Bool.not_true, Bool.false_eq_true, if_false, hg, hcur]
  exact if_neg (by omega)

theorem stepAct_current {v : Nat} {s1 : State} (hg : graphFails (sessGraph (sessIdx c) s) s = (false, s1))
    (hcur : graphCur (sessGraph (sessIdx c) s1) s1 = some v) (o : Owner) (j : Nat) :
    stepAct o slot j c s = if sessState (sessIdx c) s = 5 then stepRestore (jobRefOf o j s1) slot j (sessIdx c) v c s1
      else stepEnter j (sessIdx c) v c s1 := by
  simp only [stepAct, hn, Bool.not_true, Bool.false_eq_true, if_false, hg, hcur]
  exact if_neg (by omega)

end

/-- PEND and STATE of a session whose step starts. -/
def stepRecord (i : Nat) (s : State) : State :=
  if sessState i s = 1 then setSessState i 2 (setSessPend i (sessPend i s + 1) s)
  else if sessState i s = 5 then setSessState i 6 (setSessPend i (sessPend i s + 1) s)
  else setSessPend i (sessPend i s + 1) s

/-- The pending step, as the record that is written has it. -/
def stepOf (j i g ver v : Nat) (c : List Word) (s : State) : SStep :=
  { session := i, job := j, graph := g, ver := ver, vi := v, start := s.lvn.us, user := cw64 c 3,
    deadline := (sessW i 8 s).toNat, crit := sessCrit i s }

theorem stepOf_fields (j i g ver v : Nat) (c : List Word) (s : State) :
    (stepOf j i g ver v c s).session = i ∧ (stepOf j i g ver v c s).job = j ∧ (stepOf j i g ver v c s).graph = g ∧
    (stepOf j i g ver v c s).vi = v ∧ (stepOf j i g ver v c s).user = cw64 c 3 ∧ (stepOf j i g ver v c s).start = s.lvn.us ∧
    (stepOf j i g ver v c s).missed = false := ⟨rfl, rfl, rfl, rfl, rfl, rfl, rfl⟩

/-- The record of a step's session: the version held, the record on die, PEND and STATE. -/
def stepEntered (i v : Nat) (s : State) : State := stepRecord i (sessLoad i (verAdd (sessGraph i s) v s))

/-- A pending step is added. -/
def withStep (x : SStep) (s : State) : State := { s with lvn := { s.lvn with steps := s.lvn.steps ++ [x] } }

theorem stepEnter_eq (j i v : Nat) (c : List Word) (s : State) : stepEnter j i v c s =
    withStep (stepOf j i (sessGraph i s) (fld (graphW (sessGraph i s) (verOff v) s) 0 16) v c (stepEntered i v s)) (stepEntered i v s) := rfl

theorem stepRecord_ind {P : State → Prop} {i : Nat} {s : State} (h : P (setSessPend i (sessPend i s + 1) s))
    (hstate : ∀ n, P (setSessState i n (setSessPend i (sessPend i s + 1) s))) : P (stepRecord i s) := by
  unfold stepRecord
  split_ifs
  · exact hstate 2
  · exact hstate 6
  · exact h

theorem recordKept_stepRecord (i : Nat) (s : State) : RecordKept s (stepRecord i s) := by
  have hpend : RecordKept s (setSessPend i (sessPend i s + 1) s) := recordKept_setSessW i 4 _ s
  exact stepRecord_ind hpend fun n => hpend.trans (recordKept_setSessW i 0 _ _)

theorem heldWhole_stepRecord {i : Nat} {s : State} (h : HeldWhole i s) : HeldWhole i (stepRecord i s) :=
  stepRecord_ind (h.setSessW 4 _) fun _ => (h.setSessW 4 _).setSessW 0 _

theorem sessPend_stepRecord {i : Nat} {s : State} (h : HeldWhole i s) : sessPend i (stepRecord i s) = (sessPend i s + 1) % 256 := by
  obtain ⟨hwhole, -⟩ := h.safe
  have hpend := sessPend_setSessPend hwhole (sessPend i s + 1)
  exact stepRecord_ind (P := fun t => sessPend i t = _) hpend fun n => (sessPend_setSessState (h.setSessW 4 _).safe n).trans hpend

theorem sessState_stepRecord {i : Nat} {s : State} (h : HeldWhole i s) :
    sessState i (stepRecord i s) = if sessState i s = 1 then 2 else if sessState i s = 5 then 6 else sessState i s := by
  obtain ⟨hwhole, -⟩ := (h.setSessW 4 (putFld (sessW i 4 s) 16 8 (sessPend i s + 1))).safe
  unfold stepRecord
  split_ifs
  · exact sessState_setSessState hwhole (by omega)
  · exact sessState_setSessState hwhole (by omega)
  · exact sessState_setSessPend h.safe _

/-- What a step's start leaves of its session's record. -/
theorem stepEntered_does {i v : Nat} {s s' : State} (h : WholeOnDie i s) (hs' : s' = verAdd (sessGraph i s) v s) :
    RecordKept s (stepEntered i v s) ∧ HeldWhole i (stepEntered i v s) ∧ sessPend i (stepEntered i v s) = (sessPend i s' + 1) % 256 ∧
    sessState i (stepEntered i v s) = if sessState i s' = 1 then 2 else if sessState i s' = 5 then 6 else sessState i s' := by
  subst hs'
  have hver := memKept_verAdd (sessGraph i s) v s
  have hwhole : WholeOnDie i (verAdd (sessGraph i s) v s) := fun ws hws => h ws (by rwa [hver.access.lvn] at hws)
  have hheld := heldWhole_sessLoad hwhole
  have hpend : sessPend i (sessLoad i (verAdd (sessGraph i s) v s)) = sessPend i (verAdd (sessGraph i s) v s) := by
    exact congrArg (fld · 16 8) (sessW_sessLoad (m := 1) (by omega) _)
  have hstate : sessState i (sessLoad i (verAdd (sessGraph i s) v s)) = sessState i (verAdd (sessGraph i s) v s) := by
    exact congrArg (fld · 0 3) (sessW_sessLoad (m := 0) (by omega) _)
  refine ⟨(hver.recordKept.trans (recordKept_sessLoad i _)).trans (recordKept_stepRecord i _), heldWhole_stepRecord hheld, ?_, ?_⟩
  · rw [stepEntered, sessPend_stepRecord hheld, hpend]
  · rw [stepEntered, sessState_stepRecord hheld, hstate]

/-- A use that is queued leaves Leaven and the front end. -/
theorem leavenKept_czQueue (z : Nat) (use : CzUse) (s : State) : LeavenKept s (czQueue z use s) :=
  LeavenKept.trans ⟨rfl, rfl, id⟩ (leavenKept_czNext z _)

/-- A restore into the region that a step's command names. -/
def withRestore (slot i : Nat) (c : List Word) (s : State) : State :=
  { s with lvn := { s.lvn with restores := tabSet i (slot, cw c 5, (cw c 6).toNat) s.lvn.restores } }

theorem stepRestore_queues {r : JobRef} {slot j i va v : Nat} {c : List Word} {s s1 s2 : State}
    (hlen : (sessW i 0x18 s).toNat ≤ (sessW i 0x1C s).toNat)
    (hregion : kvRegion r (cw c 5) (cw c 6).toNat (sessW i 0x1C s).toNat s = (.ok va, s1)) (hacq : acquireRef r (cw c 5) s1 = (.ok (), s2)) :
    stepRestore r slot j i v c s =
      czQueue (parkEngine (withRestore slot i c (stepEnter j i v c s2))) (.restore i) (withRestore slot i c (stepEnter j i v c s2)) := by
  simp only [stepRestore, if_neg (Nat.not_lt.2 hlen), hregion, hacq]
  rfl

/-! What a pending step and a restore leave, and what they add. -/

theorem withStep_fe (x : SStep) (s : State) : (withStep x s).fe = s.fe := rfl

theorem withStep_onDie (x : SStep) (s : State) : (withStep x s).lvn.onDie = s.lvn.onDie := rfl

theorem withStep_steps (x : SStep) (s : State) : (withStep x s).lvn.steps = s.lvn.steps ++ [x] := rfl

theorem withStep_cz (x : SStep) (s : State) : (withStep x s).cz = s.cz := rfl

theorem withRestore_fe (slot i : Nat) (c : List Word) (s : State) : (withRestore slot i c s).fe = s.fe := rfl

theorem withRestore_onDie (slot i : Nat) (c : List Word) (s : State) : (withRestore slot i c s).lvn.onDie = s.lvn.onDie := rfl

theorem withRestore_steps (slot i : Nat) (c : List Word) (s : State) : (withRestore slot i c s).lvn.steps = s.lvn.steps := rfl

theorem withRestore_cz (slot i : Nat) (c : List Word) (s : State) : (withRestore slot i c s).cz = s.cz := rfl

theorem withRestore_self (slot i : Nat) (c : List Word) (s : State) :
    tabFind i (withRestore slot i c s).lvn.restores = some (slot, cw c 5, (cw c 6).toNat) := tabFind_set_self _ _ _

theorem parkEngine_withStep (x : SStep) (s : State) : parkEngine (withStep x s) = parkEngine s := rfl

theorem parkEngine_withRestore (slot i : Nat) (c : List Word) (s : State) : parkEngine (withRestore slot i c s) = parkEngine s := rfl

theorem czAvail_withStep (z : Nat) (b : Bool) (x : SStep) (s : State) : czAvail z b (withStep x s) = czAvail z b s := rfl

theorem czAvail_withRestore (z : Nat) (b : Bool) (slot i : Nat) (c : List Word) (s : State) :
    czAvail z b (withRestore slot i c s) = czAvail z b s := rfl

/-- A step that starts in `w2` has left `u`: the pending step, PEND and STATE, the record on die. -/
structure StepLeft (i j v : Nat) (c : List Word) (w2 u : State) : Prop where
  fe : u.fe = w2.fe
  steps : u.lvn.steps = w2.lvn.steps ++
    [stepOf j i (sessGraph i w2) (fld (graphW (sessGraph i w2) (verOff v) w2) 0 16) v c (stepEntered i v w2)]
  us : (stepEntered i v w2).lvn.us = w2.lvn.us
  pend : sessPend i u = (sessPend i (verAdd (sessGraph i w2) v w2) + 1) % 256
  state : sessState i u = if sessState i (verAdd (sessGraph i w2) v w2) = 1 then 2
    else if sessState i (verAdd (sessGraph i w2) v w2) = 5 then 6 else sessState i (verAdd (sessGraph i w2) v w2)
  onDie : (tabFind i u.lvn.onDie).isSome = true

/-- Steps, restores and queued uses leave the record that a step's start has put on die. -/
theorem stepLeft_of_entered {i j v : Nat} {c : List Word} {w2 u : State} (h : WholeOnDie i w2) (hfe : u.fe = (stepEntered i v w2).fe)
    (hdie : u.lvn.onDie = (stepEntered i v w2).lvn.onDie)
    (hsteps : u.lvn.steps = (stepEntered i v w2).lvn.steps ++
      [stepOf j i (sessGraph i w2) (fld (graphW (sessGraph i w2) (verOff v) w2) 0 16) v c (stepEntered i v w2)]) :
    StepLeft i j v c w2 u := by
  obtain ⟨hkept, hheld, hpend, hstate⟩ := stepEntered_does (v := v) h rfl
  obtain ⟨ws, hws, -⟩ := hheld.congr hdie
  exact {
    fe := hfe.trans hkept.fe
    steps := by rw [hsteps, hkept.steps]
    us := hkept.us
    pend := by rw [sessPend, hheld.sessW_congr hdie, ← hpend, sessPend]
    state := by rw [sessState, hheld.sessW_congr hdie, ← hstate, sessState]
    onDie := by rw [hws]; rfl }

/-- The step of a session that is not PARKED, and of a PARKED one, whose restore is queued. -/
theorem stepAct_enters {o : Owner} {slot j v : Nat} {c : List Word} {w w1 w2 : State} (hn : sessNamed slot c w = true)
    (hst : sessState (sessIdx c) w = 1 ∨ sessState (sessIdx c) w = 2 ∨ sessState (sessIdx c) w = 3 ∨ sessState (sessIdx c) w = 5)
    (hg : graphFails (sessGraph (sessIdx c) w) w = (false, w1)) (hcur : graphCur (sessGraph (sessIdx c) w1) w1 = some v)
    (hw : WholeOnDie (sessIdx c) w)
    (hname : sessState (sessIdx c) w ≠ 5 ∧ w2 = w1 ∨ sessState (sessIdx c) w = 5 ∧
      (sessW (sessIdx c) 0x18 w1).toNat ≤ (sessW (sessIdx c) 0x1C w1).toNat ∧ ∃ va w1' r, r = jobRefOf o j w1 ∧
        kvRegion r (cw c 5) (cw c 6).toNat (sessW (sessIdx c) 0x1C w1).toNat w1 = (.ok va, w1') ∧
        acquireRef r (cw c 5) w1' = (.ok (), w2)) :
    MemKept w w2 ∧ StepLeft (sessIdx c) j v c w2 (stepAct o slot j c w) ∧
    (sessState (sessIdx c) w = 5 → tabFind (sessIdx c) (stepAct o slot j c w).lvn.restores = some (slot, cw c 5, (cw c 6).toNat) ∧
      EngineAsked (parkEngine w) (.restore (sessIdx c)) w (stepAct o slot j c w)) := by
  have hread := memKept_of_graphFails hg
  have hwhole {t : State} (ht : MemKept w t) : WholeOnDie (sessIdx c) t := fun ws hws => hw ws (by rwa [ht.access.lvn] at hws)
  rw [stepAct_current hn hst hg hcur]
  obtain ⟨h5, rfl⟩ | ⟨h5, hlen, va, w1', r, rfl, hregion, hacq⟩ := hname
  · rw [if_neg h5, stepEnter_eq]
    exact ⟨hread, stepLeft_of_entered (hwhole hread) (withStep_fe _ _) (withStep_onDie _ _) (withStep_steps _ _), fun h => absurd h h5⟩
  · have hkept := (hread.trans (memKept_of_kvRegion hregion)).trans (memKept_of_acquireRef hacq)
    obtain ⟨hentered, -⟩ := stepEntered_does (v := v) (hwhole hkept) rfl
    have hall := hkept.recordKept.trans hentered
    rw [if_pos h5, stepRestore_queues hlen hregion hacq, stepEnter_eq, parkEngine_withRestore, parkEngine_withStep, hall.parkEngine]
    obtain ⟨hfe, hlvn, -⟩ := leavenKept_czQueue (parkEngine w) (.restore (sessIdx c)) (withRestore slot (sessIdx c) c (withStep
      (stepOf j (sessIdx c) (sessGraph (sessIdx c) w2) (fld (graphW (sessGraph (sessIdx c) w2) (verOff v) w2) 0 16) v c
        (stepEntered (sessIdx c) v w2)) (stepEntered (sessIdx c) v w2)))
    refine ⟨hkept, stepLeft_of_entered (hwhole hkept) ?_ ?_ ?_, fun _ => ⟨?_, engineAsked_czQueue _ ?_ ?_⟩⟩
    · rw [hfe, withRestore_fe, withStep_fe]
    · rw [hlvn, withRestore_onDie, withStep_onDie]
    · rw [hlvn, withRestore_steps, withStep_steps]
    · rw [hlvn, withRestore_self]
    · rw [czAvail_withRestore, czAvail_withStep, hall.czAvail (parkEngine_lt w)]
    · rw [withRestore_cz, withStep_cz, hall.cz]

section
variable {k : Fin 64} {q : Fin 16} {c : List Word} {i : Nat} {s s1 w : State} (h : StartsOn k q c i s s1 w)
include h

/-- SESS_STEP of a session in a state without one, of a graph whose record cannot be read, and of one without a current version. -/
theorem sessStep_fails (hop : opOf c = 9) (hheld : stepHeld k.val c s1 = false) (hn : sessNamed k.val c w = true) :
    (sessState i w = 0 ∨ sessState i w = 4 ∨ 5 < sessState i w →
      ∃ u, exec (.sessStep (.queue k q)) s = StartedTo k.val q.val c u ∧ EndedWith s u 1 0x01C0 (lvnDetail i 0)) ∧
    (∀ w1, sessState i w = 1 ∨ sessState i w = 2 ∨ sessState i w = 3 ∨ sessState i w = 5 → graphFails (sessGraph i w) w = (true, w1) →
      ∃ u, exec (.sessStep (.queue k q)) s = StartedTo k.val q.val c u ∧ EndedWith s u 1 0x0015 (lvnDetail i 0)) ∧
    (∀ w1, sessState i w = 1 ∨ sessState i w = 2 ∨ sessState i w = 3 ∨ sessState i w = 5 → graphFails (sessGraph i w) w = (false, w1) →
      graphCur (sessGraph i w1) w1 = none →
      ∃ u, exec (.sessStep (.queue k q)) s = StartedTo k.val q.val c u ∧ EndedWith s u 1 0x01C2 (lvnDetail i 0)) := by
  obtain ⟨w0, hstart, rfl, hfe, hact⟩ := startsOn_acts h
  have hjob := jobPut_of_startsAt hstart
  have hexec := sessStep_starts hstart hop hheld
  rw [hact] at hexec
  refine ⟨fun hst => ⟨_, hexec, ?_⟩, fun w1 hst hg => ⟨_, hexec, ?_⟩, fun w1 hst hg hcur => ⟨_, hexec, ?_⟩⟩
  · rw [stepAct_state hn hst]
    exact hjob.endedWith hfe _ _ _
  · rw [stepAct_unread hn hst hg]
    exact hjob.endedWith ((memKept_of_graphFails hg).access.fe.trans hfe) _ _ _
  · rw [stepAct_empty hn hst hg hcur]
    exact hjob.endedWith ((memKept_of_graphFails hg).access.fe.trans hfe) _ _ _

/-- SESS_STEP that starts. -/
theorem sessStep_enters {v : Nat} {w1 w2 w' : State} (hop : opOf c = 9) (hheld : stepHeld k.val c s1 = false)
    (hn : sessNamed k.val c w = true) (hst : sessState i w = 1 ∨ sessState i w = 2 ∨ sessState i w = 3 ∨ sessState i w = 5)
    (hg : graphFails (sessGraph i w) w = (false, w1)) (hcur : graphCur (sessGraph i w1) w1 = some v) (hw : WholeOnDie i w)
    (hname : sessState i w ≠ 5 ∧ w2 = w1 ∨ sessState i w = 5 ∧ (sessW i 0x18 w1).toNat ≤ (sessW i 0x1C w1).toNat ∧ ∃ va w1' r,
      r = jobRefOf (.queue k.val q.val) s.fe.nextJob w1 ∧
      kvRegion r (cw c 5) (cw c 6).toNat (sessW i 0x1C w1).toNat w1 = (.ok va, w1') ∧ acquireRef r (cw c 5) w1' = (.ok (), w2))
    (hw' : w' = verAdd (sessGraph i w2) v w2) :
    ∃ u x, exec (.sessStep (.queue k q)) s = StartedTo k.val q.val c u ∧ JobGoesOn s u ∧ u.lvn.steps = w.lvn.steps ++ [x] ∧
      x.session = i ∧ x.job = s.fe.nextJob ∧ x.graph = sessGraph i w2 ∧ x.vi = v ∧ x.user = cw64 c 3 ∧ x.start = w.lvn.us ∧
      x.missed = false ∧ sessPend i u = (sessPend i w' + 1) % 256 ∧
      sessState i u = (if sessState i w' = 1 then 2 else if sessState i w' = 5 then 6 else sessState i w') ∧
      (tabFind i u.lvn.onDie).isSome = true ∧
      (sessState i w = 5 → tabFind i u.lvn.restores = some (k.val, cw c 5, (cw c 6).toNat) ∧
        EngineAsked (parkEngine w) (.restore i) w u) := by
  obtain ⟨w0, hstart, rfl, hfe, hact⟩ := startsOn_acts h
  have hexec := sessStep_starts hstart hop hheld
  rw [hact] at hexec
  obtain ⟨hkept, hleft, hrestore⟩ := stepAct_enters (o := .queue k.val q.val) (slot := k.val) (j := s.fe.nextJob) hn hst hg hcur hw hname
  obtain ⟨hsession, hjob, hgraph, hvi, huser, hstartUs, hmissed⟩ := stepOf_fields s.fe.nextJob (sessIdx c) (sessGraph (sessIdx c) w2)
    (fld (graphW (sessGraph (sessIdx c) w2) (verOff v) w2) 0 16) v c (stepEntered (sessIdx c) v w2)
  subst hw'
  refine ⟨_, _, hexec, (jobPut_of_startsAt hstart).goesOn ((hleft.fe.trans hkept.access.fe).trans hfe), ?_, hsession, hjob, hgraph, hvi, huser,
    ?_, hmissed, hleft.pend, hleft.state, hleft.onDie, hrestore⟩
  · rw [hleft.steps, hkept.access.lvn]
  · rw [hstartUs, hleft.us, hkept.access.lvn]

end

/-! ## A record that leaves the die (R212) -/

theorem sessSync_offDie {i : Nat} {s : State} (h : tabFind i s.lvn.onDie = none) : sessSync i s = s := by
  rw [sessSync, h]

theorem sessSync_onDie {i : Nat} {ws : List Word} {s : State} (h : tabFind i s.lvn.onDie = some ws) :
    sessSync i s = hbmPut (sessAddr i s) (wordBytes ws) s := by
  rw [sessSync, h]
  rfl

theorem memKept_sessSync (i : Nat) (s : State) : MemKept s (sessSync i s) := by
  cases h : tabFind i s.lvn.onDie with
  | some ws =>
    rw [sessSync_onDie h]
    exact memKept_hbmPut _ _ s
  | none =>
    rw [sessSync_offDie h]
    exact .refl s

/-- Leaven holds a session's record on die no longer. -/
def offDie (i : Nat) (s : State) : State := { s with lvn := { s.lvn with onDie := tabDel i s.lvn.onDie, recErr := tabDel i s.lvn.recErr } }

theorem recordKept_offDie (i : Nat) (s : State) : RecordKept s (offDie i s) := ⟨.refl _ s, id, rfl, rfl, rfl⟩

theorem sessLeave_eq (i : Nat) (s : State) : sessLeave i s = offDie i (sessSync i s) := rfl

theorem recordKept_sessLeave (i : Nat) (s : State) : RecordKept s (sessLeave i s) :=
  (memKept_sessSync i s).recordKept.trans (recordKept_offDie i _)

theorem onDie_offDie (i : Nat) (s : State) : tabFind i (offDie i s).lvn.onDie = none := tabFind_del_self _ _

theorem onDie_sessLeave (i : Nat) (s : State) : tabFind i (sessLeave i s).lvn.onDie = none := onDie_offDie i _

theorem sessW_offDie_eq (i off : Nat) (s : State) : sessW i off (offDie i s) = hbmWord (sessAddr i s + off) s :=
  sessW_offDie (onDie_offDie i s) off

/-- A record reads the same once it has left the die. -/
theorem sessW_sessLeave {i m : Nat} {s : State} (h : WholeOnDie i s) (hm : m < 32) : sessW i (4 * m) (sessLeave i s) = sessW i (4 * m) s := by
  rw [sessLeave_eq, sessW_offDie_eq, (memKept_sessSync i s).recordKept.sessAddr]
  cases hd : tabFind i s.lvn.onDie with
  | some ws =>
    rw [sessSync_onDie hd, hbmWord_hbmPut (by rw [h ws hd]; exact hm), sessW_onDie hd, Nat.mul_div_cancel_left m (by omega)]
  | none => rw [sessSync_offDie hd, sessW_offDie hd]

/-! ## SESS_CLOSE (R216, R224) -/

section
variable {slot : Nat} {c : List Word} {s : State} (hn : sessNamed slot c s = true)
include hn

theorem closeAct_state (h1 : sessState (sessIdx c) s ≠ 1) (h5 : sessState (sessIdx c) s ≠ 5) (o : Owner) (j : Nat) :
    closeAct o slot j c s = lvnFail j (sessIdx c) 0 rSessState s := by
  simp only [closeAct, hn, Bool.not_true, Bool.false_eq_true, if_false]
  exact if_neg (by omega)

theorem closeAct_frees (hst : sessState (sessIdx c) s = 1 ∨ sessState (sessIdx c) s = 5) (o : Owner) (j : Nat) :
    closeAct o slot j c s = lvnOk j (sessIdx c) 0 (freeSession slot (sessIdx c) s) := by
  simp only [closeAct, hn, Bool.not_true, Bool.false_eq_true, if_false]
  exact if_pos hst

theorem parkAct_state (h1 : sessState (sessIdx c) s ≠ 1) (o : Owner) (j : Nat) :
    parkAct o slot j c s = lvnFail j (sessIdx c) 0 rSessState s := by
  simp only [parkAct, hn, Bool.not_true, Bool.false_eq_true, if_false]
  exact if_pos h1

variable (h1 : sessState (sessIdx c) s = 1)
include h1

theorem parkAct_short {n : Nat} (hlen : n = (sessW (sessIdx c) 0x18 s).toNat) (hshort : (cw c 5).toNat < n + (n + 63) / 64 + 64)
    (o : Owner) (j : Nat) : parkAct o slot j c s = lvnFail j (sessIdx c) 0 rSpillSpace s := by
  subst hlen
  simp only [parkAct, hn, Bool.not_true, Bool.false_eq_true, if_false, if_neg (not_not.2 h1)]
  exact if_pos hshort

theorem parkAct_parks {n va : Nat} {o : Owner} {j : Nat} {s1 s2 : State} (hlen : n = (sessW (sessIdx c) 0x18 s).toNat)
    (hroom : n + (n + 63) / 64 + 64 ≤ (cw c 5).toNat)
    (hrange : checkRange (jobRefOf o j s) (cw c 3) (cw c 4).toNat (cw c 5).toNat s = (.ok va, s1))
    (hkv : n = 0 ∧ s2 = s1 ∨ n ≠ 0 ∧ ∃ kva, checkRange (jobRefOf o j s) (sessW (sessIdx c) 0x10 s1) (sessW (sessIdx c) 0x14 s1).toNat n s1 =
      (.ok kva, s2)) :
    parkAct o slot j c s = parkStart (jobRefOf o j s) j (sessIdx c) c s2 := by
  subst hlen
  simp only [parkAct, hn, Bool.not_true, Bool.false_eq_true, if_false, if_neg (not_not.2 h1), if_neg (Nat.not_lt.2 hroom), hrange]
  obtain ⟨h0, rfl⟩ | ⟨h0, kva, hkva⟩ := hkv
  · rw [if_pos h0]
  · rw [if_neg h0, hkva]

end

theorem leavenDrop_null (slot : Nat) (s : State) : leavenDrop slot 0 s = s := if_pos rfl

/-- A session that is freed. -/
theorem freeSession_does (slot i : Nat) (s : State) :
    (freeSession slot i s).fe = s.fe ∧ tabFind i (freeSession slot i s).lvn.onDie = none ∧
    (sessW i 0x10 s = 0 → sessW i 0x20 s = 0 → WholeOnDie i s → sessState i (freeSession slot i s) = 0) := by
  have hset : RecordKept s (setSessState i 0 s) := recordKept_setSessW i 0 _ s
  have hleave := hset.trans (recordKept_sessLeave i _)
  have hdrop := (leavenKept_leavenDrop slot (sessW i 0x10 s) (sessLeave i (setSessState i 0 s))).trans
    (leavenKept_leavenDrop slot (sessW i 0x20 s) _)
  obtain ⟨hfe, hlvn, -⟩ := hdrop
  refine ⟨hfe.trans hleave.fe, ?_, fun hkv hsp hw => ?_⟩
  · rw [freeSession, hlvn]
    exact onDie_sessLeave i _
  · have hword : sessW i 0 (sessLeave i (setSessState i 0 s)) = sessW i 0 (setSessState i 0 s) :=
      sessW_sessLeave (m := 0) (wholeOnDie_setSessW hw _ _) (by omega)
    rw [freeSession, hkv, hsp, leavenDrop_null, leavenDrop_null, sessState, hword]
    exact sessState_setSessState hw (by omega)

/-! ## A park starts (R224) -/

theorem sessW_czTake {z : Nat} (hz : z < 2) (c : Nat) (use : CzUse) (i off : Nat) (s : State) :
    sessW i off (czTake z c use s) = sessW i off s := by
  refine sessW_congr (s := s) (t := czTake z c use s) rfl ?_ rfl rfl off
  rw [czTake, czSync, sessAddr, getPair, getReg_setReg_ne (by simp only [rk, pgLvn, pgCz]; omega),
    getReg_setReg_ne (by simp only [rk, pgLvn, pgCz]; omega)]
  rfl

/-- A use that is queued leaves the records. -/
theorem sessW_czQueue {z : Nat} (hz : z < 2) (use : CzUse) (i off : Nat) (s : State) : sessW i off (czQueue z use s) = sessW i off s := by
  have hnext (t : State) : sessW i off (czNext z t) = sessW i off t := by
    unfold czNext
    split
    · exact (sessW_czTake hz _ _ i off _).trans (sessW_congr rfl rfl rfl rfl off)
    · rfl
  exact (hnext _).trans (sessW_congr rfl rfl rfl rfl off)

/-- The command of a park is noted. -/
def withPark (i j : Nat) (s : State) : State := { s with lvn := { s.lvn with parks := tabSet i j s.lvn.parks } }

theorem withPark_fe (i j : Nat) (s : State) : (withPark i j s).fe = s.fe := rfl

theorem withPark_cz (i j : Nat) (s : State) : (withPark i j s).cz = s.cz := rfl

theorem withPark_self (i j : Nat) (s : State) : tabFind i (withPark i j s).lvn.parks = some j := tabFind_set_self _ _ _

theorem sessW_withPark (i j m off : Nat) (s : State) : sessW m off (withPark i j s) = sessW m off s := sessW_congr rfl rfl rfl rfl off

theorem czAvail_withPark (z : Nat) (b : Bool) (i j : Nat) (s : State) : czAvail z b (withPark i j s) = czAvail z b s := rfl

/-- STATE and the SPILL fields of a session that parks. -/
def parkRecord (i : Nat) (c : List Word) (s : State) : State :=
  setSessW i 0x20 (cw c 3) (setSessW i 0x24 (cw c 4) (setSessW i 0x2C (cw c 5) (setSessState i 4 s)))

theorem recordKept_parkRecord (i : Nat) (c : List Word) (s : State) : RecordKept s (parkRecord i c s) :=
  (((recordKept_setSessW i 0 _ s).trans (recordKept_setSessW i 0x2C _ _)).trans (recordKept_setSessW i 0x24 _ _)).trans
    (recordKept_setSessW i 0x20 _ _)

theorem parkRecord_words {i : Nat} {c : List Word} {s : State} (h : RecordSafe i s) :
    sessState i (parkRecord i c s) = 4 ∧ sessW i 0x20 (parkRecord i c s) = cw c 3 ∧ sessW i 0x24 (parkRecord i c s) = cw c 4 ∧
    sessW i 0x2C (parkRecord i c s) = cw c 5 := by
  have h0 : RecordSafe i (setSessState i 4 s) := h.setSessW 0 _
  have h1 := h0.setSessW 0x2C (cw c 5)
  have h2 := h1.setSessW 0x24 (cw c 4)
  refine ⟨?_, sessW_setSessW_self h2.whole (by omega) _, ?_, ?_⟩
  · rw [sessState, parkRecord, sessW_setSessW_ne h2 (by omega) (by omega) (by omega), sessW_setSessW_ne h1 (by omega) (by omega) (by omega),
      sessW_setSessW_ne h0 (by omega) (by omega) (by omega)]
    exact sessState_setSessState h.whole (by omega)
  · rw [parkRecord, sessW_setSessW_ne h2 (by omega) (by omega) (by omega), sessW_setSessW_self h1.whole (by omega)]
  · rw [parkRecord, sessW_setSessW_ne h2 (by omega) (by omega) (by omega), sessW_setSessW_ne h1 (by omega) (by omega) (by omega),
      sessW_setSessW_self h0.whole (by omega)]

theorem parkStart_queues {r : JobRef} {j i : Nat} {c : List Word} {s s1 : State} (hacq : acquireRef r (cw c 3) s = (.ok (), s1)) :
    parkStart r j i c s = czQueue (parkEngine (parkRecord i c s1)) (.park i) (withPark i j (parkRecord i c s1)) := by
  simp only [parkStart, hacq]
  rfl

/-- What the start of a park leaves. -/
theorem parkStart_does {r : JobRef} {j i : Nat} {c : List Word} {s s1 : State} (hacq : acquireRef r (cw c 3) s = (.ok (), s1))
    (hsafe : RecordSafe i s1) :
    (parkStart r j i c s).fe = s1.fe ∧ sessState i (parkStart r j i c s) = 4 ∧ sessW i 0x20 (parkStart r j i c s) = cw c 3 ∧
    sessW i 0x24 (parkStart r j i c s) = cw c 4 ∧ sessW i 0x2C (parkStart r j i c s) = cw c 5 ∧
    tabFind i (parkStart r j i c s).lvn.parks = some j ∧ EngineAsked (parkEngine s1) (.park i) s1 (parkStart r j i c s) := by
  have hkept := recordKept_parkRecord i c s1
  obtain ⟨hstate, h20, h24, h2C⟩ := parkRecord_words (c := c) hsafe
  rw [parkStart_queues hacq, hkept.parkEngine]
  obtain ⟨hfe, hlvn, -⟩ := leavenKept_czQueue (parkEngine s1) (.park i) (withPark i j (parkRecord i c s1))
  have hword (off : Nat) : sessW i off (czQueue (parkEngine s1) (.park i) (withPark i j (parkRecord i c s1))) =
      sessW i off (parkRecord i c s1) := (sessW_czQueue (parkEngine_lt s1) _ i off _).trans (sessW_withPark i j i off _)
  refine ⟨?_, ?_, ?_, ?_, ?_, ?_, engineAsked_czQueue _ ?_ ?_⟩
  · rw [hfe, withPark_fe, hkept.fe]
  · rw [sessState, hword, ← hstate, sessState]
  · rw [hword, h20]
  · rw [hword, h24]
  · rw [hword, h2C]
  · rw [hlvn, withPark_self]
  · rw [czAvail_withPark, hkept.czAvail (parkEngine_lt s1)]
  · rw [withPark_cz, hkept.cz]

theorem engineAsked_of_kept {z : Nat} {use : CzUse} {w w' u : State} (hz : z < 2) (h : RecordKept w w') (hu : EngineAsked z use w' u) :
    EngineAsked z use w u := by
  rw [EngineAsked, h.czAvail hz, h.cz] at hu
  exact hu

theorem memKept_of_ranges {r : JobRef} {h h' : Word} {off len off' len' : Nat} {p p' : Prop} {va : Nat} {s s1 s2 : State}
    (hrange : checkRange r h off len s = (.ok va, s1))
    (hkv : p ∧ s2 = s1 ∨ p' ∧ ∃ kva, checkRange r h' off' len' s1 = (.ok kva, s2)) : MemKept s s2 := by
  have h1 := memKept_of_checkRange hrange
  obtain ⟨-, rfl⟩ | ⟨-, kva, hkva⟩ := hkv
  · exact h1
  · exact h1.trans (memKept_of_checkRange hkva)

section
variable {k : Fin 64} {q : Fin 16} {c : List Word} {i : Nat} {s s1 w : State} (h : StartsOn k q c i s s1 w)
include h

/-- SESS_CLOSE without PARK. -/
theorem sessClose_closes (hop : opOf c = 0x0A) (hheld : closeHeld k.val c s1 = false) (hn : sessNamed k.val c w = true)
    (hpark : argsOf c % 2 = 0) :
    (sessState i w ≠ 1 → sessState i w ≠ 5 →
      ∃ u, exec (.sessClose (.queue k q)) s = StartedTo k.val q.val c u ∧ EndedWith s u 1 0x01C0 (lvnDetail i 0)) ∧
    (sessState i w = 1 ∨ sessState i w = 5 →
      ∃ u, exec (.sessClose (.queue k q)) s = StartedTo k.val q.val c u ∧ EndedWith s u 0 0 (lvnDetail i 0) ∧
        tabFind i u.lvn.onDie = none ∧
        (sessW i 0x10 w = 0 → sessW i 0x20 w = 0 → WholeOnDie i w → sessState i u = 0)) := by
  obtain ⟨w0, hstart, rfl, hfe, hact⟩ := startsOn_acts h
  have hexec := sessClose_starts hstart hop hpark hheld
  rw [hact] at hexec
  refine ⟨fun h1 h5 => ⟨_, hexec, ?_⟩, fun hst => ⟨_, hexec, ?_⟩⟩
  · rw [closeAct_state hn h1 h5]
    exact (jobPut_of_startsAt hstart).endedWith hfe _ _ _
  · obtain ⟨hfree, hdie, hstate⟩ := freeSession_does k.val (sessIdx c) w
    rw [closeAct_frees hn hst, lvnOk]
    refine ⟨(jobPut_of_startsAt hstart).endedWith (hfree.trans hfe) _ _ _, ?_, fun hkv hsp hw => ?_⟩
    · obtain ⟨f, hf⟩ := endJob_fe s.fe.nextJob 0 0 (lvnDetail (sessIdx c) 0) (freeSession k.val (sessIdx c) w)
      rw [hf]
      exact hdie
    · rw [sessState, sessW_endJob]
      exact hstate hkv hsp hw

/-- SESS_CLOSE with PARK. -/
theorem sessPark_parks (hop : opOf c = 0x0A) (hheld : closeHeld k.val c s1 = false) (hn : sessNamed k.val c w = true)
    (hpark : argsOf c % 2 = 1) :
    (sessState i w ≠ 1 →
      ∃ u, exec (.sessPark (.queue k q)) s = StartedTo k.val q.val c u ∧ EndedWith s u 1 0x01C0 (lvnDetail i 0)) ∧
    (∀ n, sessState i w = 1 → n = (sessW i 0x18 w).toNat → (cw c 5).toNat < n + (n + 63) / 64 + 64 →
      ∃ u, exec (.sessPark (.queue k q)) s = StartedTo k.val q.val c u ∧ EndedWith s u 1 0x01C3 (lvnDetail i 0)) ∧
    (∀ n r va w1 w2 w3, sessState i w = 1 → n = (sessW i 0x18 w).toNat → n + (n + 63) / 64 + 64 ≤ (cw c 5).toNat → WholeOnDie i w →
      w.hbc.pendInv = [] → r = jobRefOf (.queue k.val q.val) s.fe.nextJob w →
      checkRange r (cw c 3) (cw c 4).toNat (cw c 5).toNat w = (.ok va, w1) →
      (n = 0 ∧ w2 = w1 ∨ n ≠ 0 ∧ ∃ kva, checkRange r (sessW i 0x10 w1) (sessW i 0x14 w1).toNat n w1 = (.ok kva, w2)) →
      acquireRef r (cw c 3) w2 = (.ok (), w3) →
      ∃ u, exec (.sessPark (.queue k q)) s = StartedTo k.val q.val c u ∧ JobGoesOn s u ∧ sessState i u = 4 ∧
        sessW i 0x20 u = cw c 3 ∧ sessW i 0x24 u = cw c 4 ∧ sessW i 0x2C u = cw c 5 ∧
        tabFind i u.lvn.parks = some s.fe.nextJob ∧ EngineAsked (parkEngine w) (.park i) w u) := by
  obtain ⟨w0, hstart, rfl, hfe, hact⟩ := startsOn_acts h
  have hjob := jobPut_of_startsAt hstart
  have hexec := sessPark_starts hstart hop hpark hheld
  rw [hact] at hexec
  refine ⟨fun h1 => ⟨_, hexec, ?_⟩, fun n h1 hlen hshort => ⟨_, hexec, ?_⟩, ?_⟩
  · rw [parkAct_state hn h1]
    exact hjob.endedWith hfe _ _ _
  · rw [parkAct_short hn h1 hlen hshort]
    exact hjob.endedWith hfe _ _ _
  · rintro n r va w1 w2 w3 h1 hlen hroom hw hp rfl hrange hkv hacq
    have hkept := (memKept_of_ranges hrange hkv).trans (memKept_of_acquireRef hacq)
    have hrecord := hkept.recordKept
    have hsafe : RecordSafe (sessIdx c) w3 := ⟨fun ws hws => hw ws (by rwa [hkept.access.lvn] at hws), .inr (hrecord.pendInv hp)⟩
    obtain ⟨hpfe, hstate, h20, h24, h2C, hparks, hengine⟩ := parkStart_does (j := s.fe.nextJob) hacq hsafe
    rw [parkAct_parks hn h1 hlen hroom hrange hkv] at hexec
    refine ⟨_, hexec, hjob.goesOn ((hpfe.trans hrecord.fe).trans hfe), hstate, h20, h24, h2C, hparks, ?_⟩
    rw [hrecord.parkEngine] at hengine
    exact engineAsked_of_kept (parkEngine_lt w) hrecord hengine

end

end Sys2Proof.Machine

/-!
PROOFS. The ends of a park and of a restore; then the statement of 05_memory_model.md on sessions.
-/
namespace Sys2Proof.Machine
open Sys2Proof.Claims

/-! ## What the end of a park and of a restore leaves of Leaven's tables (R224, R225) -/

/-- The front end stays, and Leaven's pending steps, parks and restores. -/
def TablesKept (s t : State) : Prop :=
  t.fe = s.fe ∧ t.lvn.steps = s.lvn.steps ∧ t.lvn.parks = s.lvn.parks ∧ t.lvn.restores = s.lvn.restores

theorem TablesKept.trans {s t u : State} (h : TablesKept s t) (h' : TablesKept t u) : TablesKept s u := by
  obtain ⟨hf, hs, hp, hr⟩ := h
  obtain ⟨hf', hs', hp', hr'⟩ := h'
  exact ⟨hf'.trans hf, hs'.trans hs, hp'.trans hp, hr'.trans hr⟩

theorem LeavenKept.tables {s t : State} (h : LeavenKept s t) : TablesKept s t := by
  obtain ⟨hf, hl, -⟩ := h
  exact ⟨hf, by rw [hl], by rw [hl], by rw [hl]⟩

theorem RecordKept.tables {s t : State} (h : RecordKept s t) : TablesKept s t := ⟨h.fe, h.steps, h.parks, h.restores⟩

theorem LeavenKept.recordSafe {i : Nat} {s t : State} (h : LeavenKept s t) (hs : RecordSafe i s) : RecordSafe i t := by
  obtain ⟨-, hl, hp⟩ := h
  obtain ⟨hw, hd⟩ := hs
  exact ⟨fun ws hws => hw ws (by rwa [hl] at hws), hd.imp (fun hd => by rwa [hl]) hp⟩

theorem LeavenKept.heldWhole {i : Nat} {s t : State} (h : LeavenKept s t) (hs : HeldWhole i s) : HeldWhole i t :=
  hs.congr (congrArg Lvn.onDie h.lvn)

/-- A job that has not ended ends. -/
theorem endJob_ends {j : Nat} {b : Job} {s : State} (hb : tabFind j s.fe.jobs = some b) (hf : b.fin = none) (status reason detail : Nat) :
    tabFind j (endJob j status reason detail s).fe.jobs = some { b with fin := some ⟨status, reason, detail⟩ } := by
  have h : endJob j status reason detail s = setJob j { b with fin := some ⟨status, reason, detail⟩ } s := by
    simp [endJob, hb, hf]
  rw [h]
  exact tabFind_set_self _ _ _

theorem endJob_lvn (j status reason detail : Nat) (s : State) : (endJob j status reason detail s).lvn = s.lvn := by
  obtain ⟨f, hf⟩ := endJob_fe j status reason detail s
  rw [hf]

/-! ## PARK_COMPLETE (R224) -/

theorem exec_parkComplete (i : Nat) (s : State) : exec (.parkComplete i) s = .next (tidyMem (parkComplete i s)) := rfl

/-- The park's engine is given back. -/
def parkReleased (i : Nat) (s : State) : State := czLeave (.park i) { s with lvn := { s.lvn with parks := tabDel i s.lvn.parks } }

theorem parkReleased_does (i : Nat) (s : State) : (parkReleased i s).fe = s.fe ∧ tabFind i (parkReleased i s).lvn.parks = none := by
  obtain ⟨hf, hl, -⟩ := leavenKept_czLeave (.park i) { s with lvn := { s.lvn with parks := tabDel i s.lvn.parks } }
  refine ⟨hf, ?_⟩
  rw [parkReleased, hl]
  exact tabFind_del_self _ _

section
variable {i j n : Nat} {s : State} (hctx : czCtxOf (.park i) s = some n) (hst : sessState i s = 4) (hpark : tabFind i s.lvn.parks = some j)
include hctx hst hpark

theorem parkComplete_fails {e : Nat} {s1 : State}
    (hread : parkRead (lvnRef (sessSlot i s) j (parkReleased i s)) (n / 4) (sessSlot i s) i (parkReleased i s) = (.error e, s1)) :
    parkComplete i s = parkFail (sessSlot i s) i j e
      (czFailed (n / 4) false (czPartial (n / 4) (sessW i 0x18 s1).toNat (parkBound (sessW i 0x18 s1).toNat) s1)) := by
  have hj : tabGet 0 i s.lvn.parks = j := by rw [tabGet, hpark]; rfl
  rw [parkReleased] at hread
  simp only [parkComplete, hctx, hst, if_true, parkDone, hj, hread]

end

/-- The counts of the engine once a park's stream is written. -/
def parkCounted (z raw : Nat) (data out : List Byte) (s : State) : State :=
  addFld (pgCz z) 0 0x110 0 32 raw (czMib z 0x10C out.length (czMib z 0x108 data.length s))

/-- The stream's length in the record, and the KV region's reference released. -/
def parkFreed (z slot i raw : Nat) (data out : List Byte) (s : State) : State :=
  leavenDrop slot (sessW i 0x10 (parkCounted z raw data out s)) (setSessW i 0x28 (w32 out.length) (parkCounted z raw data out s))

/-- The record of a session that is PARKED. -/
def parkedRecord (i : Nat) (s : State) : State := setSessState i 5 (setSessW i 0x10 0 (setSessW i 0x14 0 s))

theorem parkComplete_stores {i j n raw : Nat} {data out : List Byte} {s s1 s2 s3 : State} (hctx : czCtxOf (.park i) s = some n)
    (hst : sessState i s = 4) (hpark : tabFind i s.lvn.parks = some j)
    (hread : parkRead (lvnRef (sessSlot i s) j (parkReleased i s)) (n / 4) (sessSlot i s) i (parkReleased i s) = (.ok data, s1))
    (hstream : parkStream data s1 = ((out, raw), s2))
    (hwrite : lvnWrite (lvnRef (sessSlot i s) j (parkReleased i s)) (n / 4) (sessSlot i s) (sessW i 0x20 s2) (sessW i 0x24 s2).toNat out s2 =
      (.ok (), s3)) :
    parkComplete i s = lvnOk j i 0 (parkedRecord i (parkFreed (n / 4) (sessSlot i s) i raw data out s3)) := by
  have hj : tabGet 0 i s.lvn.parks = j := by rw [tabGet, hpark]; rfl
  rw [parkReleased] at hread hwrite
  simp only [parkComplete, hctx, hst, if_true, parkDone, hj, hread, hstream, hwrite]
  rfl

theorem leavenKept_parkCounted (z raw : Nat) (data out : List Byte) (s : State) : LeavenKept s (parkCounted z raw data out s) :=
  ⟨rfl, rfl, id⟩

theorem tablesKept_parkFreed (z slot i raw : Nat) (data out : List Byte) (s : State) :
    TablesKept s (parkFreed z slot i raw data out s) :=
  ((leavenKept_parkCounted z raw data out s).tables.trans (recordKept_setSessW i 0x28 _ _).tables).trans
    (leavenKept_leavenDrop _ _ _).tables

theorem recordSafe_parkFreed {i : Nat} {s : State} (h : RecordSafe i s) (z slot raw : Nat) (data out : List Byte) :
    RecordSafe i (parkFreed z slot i raw data out s) :=
  (leavenKept_leavenDrop _ _ _).recordSafe (((leavenKept_parkCounted z raw data out s).recordSafe h).setSessW 0x28 _)

theorem tablesKept_parkedRecord (i : Nat) (s : State) : TablesKept s (parkedRecord i s) :=
  ((recordKept_setSessW i 0x14 0 s).trans (recordKept_setSessW i 0x10 0 _)).tables.trans (recordKept_setSessW i 0 _ _).tables

theorem parkedRecord_words {i : Nat} {s : State} (h : RecordSafe i s) :
    sessState i (parkedRecord i s) = 5 ∧ sessW i 0x10 (parkedRecord i s) = 0 ∧ sessW i 0x14 (parkedRecord i s) = 0 := by
  have h1 := h.setSessW 0x14 0
  have h2 := h1.setSessW 0x10 0
  refine ⟨sessState_setSessState h2.whole (by omega), ?_, ?_⟩
  · rw [parkedRecord, setSessState, sessW_setSessW_ne h2 (by omega) (by omega) (by omega), sessW_setSessW_self h1.whole (by omega)]
  · rw [parkedRecord, setSessState, sessW_setSessW_ne h2 (by omega) (by omega) (by omega),
      sessW_setSessW_ne h1 (by omega) (by omega) (by omega), sessW_setSessW_self h.whole (by omega)]

/-- A session whose park is stopped. -/
theorem tablesKept_parkFail (slot i j reason : Nat) (s : State) :
    ∃ t, parkFail slot i j reason s = lvnFail j i 0 reason t ∧ TablesKept s t := by
  refine ⟨_, rfl, TablesKept.trans ?_ (leavenKept_leavenDrop _ _ _).tables⟩
  exact (((((recordKept_setSessW i 0 _ s).trans (recordKept_setSessW i 0x2C 0 _)).trans (recordKept_setSessW i 0x28 0 _)).trans
    (recordKept_setSessW i 0x24 0 _)).trans (recordKept_setSessW i 0x20 0 _)).tables

section
variable {i j n : Nat} {b : Job} {s : State} (hctx : czCtxOf (.park i) s = some n) (hst : sessState i s = 4)
  (hpark : tabFind i s.lvn.parks = some j) (hb : tabFind j s.fe.jobs = some b) (hfin : b.fin = none)

include hb hfin in
/-- The command's job ends with the park. -/
theorem parkJob_ends {u : State} (hu : TablesKept (parkReleased i s) u) (st rd d : Nat) :
    tabFind i (tidyMem (endJob j st rd d u)).lvn.parks = none ∧
    tabFind j (tidyMem (endJob j st rd d u)).fe.jobs = some { b with fin := some ⟨st, rd, d⟩ } := by
  obtain ⟨hfe0, hparks0⟩ := parkReleased_does i s
  obtain ⟨hfe, -, hparks, -⟩ := hu
  refine ⟨?_, endJob_ends (by rw [hfe, hfe0]; exact hb) hfin st rd d⟩
  show tabFind i (endJob j st rd d u).lvn.parks = none
  rw [endJob_lvn, hparks, hparks0]

include hctx hst hpark hb hfin

/-- PARK_COMPLETE of a session that is PARKING: its cache is written as a stream. -/
theorem parkComplete_parks {data out : List Byte} {raw : Nat} {s1 s2 s3 : State}
    (hread : parkRead (lvnRef (sessSlot i s) j (parkReleased i s)) (n / 4) (sessSlot i s) i (parkReleased i s) = (.ok data, s1))
    (hstream : parkStream data s1 = ((out, raw), s2))
    (hwrite : lvnWrite (lvnRef (sessSlot i s) j (parkReleased i s)) (n / 4) (sessSlot i s) (sessW i 0x20 s2) (sessW i 0x24 s2).toNat out s2 =
      (.ok (), s3)) (hwhole : WholeOnDie i s3) (hp : s3.hbc.pendInv = []) :
    ∃ t b', exec (.parkComplete i) s = .next t ∧ tabFind i t.lvn.parks = none ∧ tabFind j t.fe.jobs = some b' ∧
      b'.fin = some ⟨0, 0, lvnDetail i 0⟩ ∧ sessState i t = 5 ∧ sessW i 0x10 t = 0 ∧ sessW i 0x14 t = 0 := by
  have h1 := (leavenKept_parkRead (lvnRef (sessSlot i s) j (parkReleased i s)) (n / 4) (sessSlot i s) i (parkReleased i s)).tables
  have h2 := (leavenKept_parkStream data s1).tables
  have h3 := (leavenKept_lvnWrite (lvnRef (sessSlot i s) j (parkReleased i s)) (n / 4) (sessSlot i s) (sessW i 0x20 s2)
    (sessW i 0x24 s2).toNat out s2).tables
  rw [hread] at h1
  rw [hstream] at h2
  rw [hwrite] at h3
  have hfreed := ((h1.trans h2).trans h3).trans (tablesKept_parkFreed (n / 4) (sessSlot i s) i raw data out s3)
  obtain ⟨hparks, hjob⟩ := parkJob_ends hb hfin (hfreed.trans (tablesKept_parkedRecord i _)) 0 0 (lvnDetail i 0)
  obtain ⟨hstate, h10, h14⟩ := parkedRecord_words (recordSafe_parkFreed (i := i) ⟨hwhole, .inr hp⟩ (n / 4) (sessSlot i s) raw data out)
  have hword (off : Nat) (u : State) : sessW i off (tidyMem (lvnOk j i 0 u)) = sessW i off u :=
    (sessW_tidyMem i off _).trans (sessW_endJob i off j _ _ _ u)
  refine ⟨_, { b with fin := some ⟨0, 0, lvnDetail i 0⟩ }, exec_parkComplete i s, ?_⟩
  rw [parkComplete_stores hctx hst hpark hread hstream hwrite]
  refine ⟨hparks, hjob, rfl, ?_, ?_, ?_⟩
  · rw [sessState, hword, ← hstate, sessState]
  · rw [hword, h10]
  · rw [hword, h14]

/-- PARK_COMPLETE whose read of the cache fails. -/
theorem parkComplete_stops {e : Nat} {s1 : State}
    (hread : parkRead (lvnRef (sessSlot i s) j (parkReleased i s)) (n / 4) (sessSlot i s) i (parkReleased i s) = (.error e, s1)) :
    ∃ t b', exec (.parkComplete i) s = .next t ∧ tabFind i t.lvn.parks = none ∧ tabFind j t.fe.jobs = some b' ∧
      b'.fin = some ⟨1, e, lvnDetail i 0⟩ := by
  have h1 := (leavenKept_parkRead (lvnRef (sessSlot i s) j (parkReleased i s)) (n / 4) (sessSlot i s) i (parkReleased i s)).tables
  rw [hread] at h1
  have hcount := h1.trans ((leavenKept_czPartial (n / 4) (sessW i 0x18 s1).toNat (parkBound (sessW i 0x18 s1).toNat) s1).trans
    (leavenKept_czFailed (n / 4) false _)).tables
  obtain ⟨u, hu, hkept⟩ := tablesKept_parkFail (sessSlot i s) i j e
    (czFailed (n / 4) false (czPartial (n / 4) (sessW i 0x18 s1).toNat (parkBound (sessW i 0x18 s1).toNat) s1))
  obtain ⟨hparks, hjob⟩ := parkJob_ends hb hfin (hcount.trans hkept) 1 e (lvnDetail i 0)
  refine ⟨_, { b with fin := some ⟨1, e, lvnDetail i 0⟩ }, exec_parkComplete i s, ?_⟩
  rw [parkComplete_fails hctx hst hpark hread, hu]
  exact ⟨hparks, hjob, rfl⟩

end

/-! ## RESTORE_COMPLETE (R225) -/

theorem exec_restoreComplete (i : Nat) (s : State) : exec (.restoreComplete i) s = .next (tidyMem (restoreComplete i s)) := rfl

/-- The restore's engine is given back. -/
def restoreReleased (i : Nat) (s : State) : State :=
  czLeave (.restore i) { s with lvn := { s.lvn with restores := tabDel i s.lvn.restores } }

theorem restoreReleased_does (i : Nat) (s : State) : (restoreReleased i s).fe = s.fe ∧ (restoreReleased i s).lvn.steps = s.lvn.steps ∧
    (restoreReleased i s).lvn.onDie = s.lvn.onDie ∧ tabFind i (restoreReleased i s).lvn.restores = none := by
  obtain ⟨hf, hl, -⟩ := leavenKept_czLeave (.restore i) { s with lvn := { s.lvn with restores := tabDel i s.lvn.restores } }
  refine ⟨hf, ?_, ?_, ?_⟩
  · rw [restoreReleased, hl]
  · rw [restoreReleased, hl]
  · rw [restoreReleased, hl]
    exact tabFind_del_self _ _

/-- The job of a restore: that of the session's oldest pending step. -/
def restoreJob (i : Nat) (s : State) : Nat := ((sessSteps i s).head?.map SStep.job).getD s.fe.nextJob

/-- The end of a restore, by what its data's transfer gives. -/
def restoreEnd (z slot i : Nat) (h : Word) (off : Nat) (x : Except Nat (Nat × Nat) × State) : State :=
  match x with
  | (.error e, s) => restoreFail slot i e h s
  | (.ok (n, m), s) =>
    let s := czMib z 0x10C m (czMib z 0x108 n s)
    let sp := sessW i 0x20 s
    let s := setSessW i 0x10 h (setSessW i 0x14 (w32 off) s)
    let s := setSessW i 0x20 0 (setSessW i 0x24 0 (setSessW i 0x28 0 (setSessW i 0x2C 0 s)))
    let s := leavenDrop slot sp s
    if sessPend i s = 0 then sessLeave i (setSessState i 1 s) else setSessState i 2 s

theorem restoreComplete_ends {i n slot off : Nat} {h : Word} {s : State} (hctx : czCtxOf (.restore i) s = some n)
    (hst : sessState i s = 6) (hrest : tabFind i s.lvn.restores = some (slot, h, off)) :
    restoreComplete i s = restoreEnd (n / 4) slot i h off
      (restoreData (lvnRef slot (restoreJob i (restoreReleased i s)) (restoreReleased i s)) (n / 4) slot i h off (restoreReleased i s)) := by
  have hr : tabGet (0, 0, 0) i s.lvn.restores = (slot, h, off) := by rw [tabGet, hrest]; rfl
  simp only [restoreComplete, hctx, hst, if_true, restoreDone, hr]
  rw [restoreJob, restoreReleased]
  cases sessSteps i (czLeave (.restore i) { s with lvn := { s.lvn with restores := tabDel i s.lvn.restores } }) with
  | nil => rfl
  | cons x l => rfl

/-- The counts of the engine, and the words of a session whose cache stands in its new region. -/
def restoreCounted (z n m : Nat) (s : State) : State := czMib z 0x10C m (czMib z 0x108 n s)

def restoredRecord (i : Nat) (h : Word) (off : Nat) (s : State) : State :=
  setSessW i 0x20 0 (setSessW i 0x24 0 (setSessW i 0x28 0 (setSessW i 0x2C 0 (setSessW i 0x10 h (setSessW i 0x14 (w32 off) s)))))

theorem recordKept_restoredRecord (i : Nat) (h : Word) (off : Nat) (s : State) : RecordKept s (restoredRecord i h off s) :=
  (((((recordKept_setSessW i 0x14 _ s).trans (recordKept_setSessW i 0x10 _ _)).trans (recordKept_setSessW i 0x2C _ _)).trans
    (recordKept_setSessW i 0x28 _ _)).trans (recordKept_setSessW i 0x24 _ _)).trans (recordKept_setSessW i 0x20 _ _)

theorem heldWhole_restoredRecord {i : Nat} {s : State} (hs : HeldWhole i s) (h : Word) (off : Nat) :
    HeldWhole i (restoredRecord i h off s) :=
  (((((hs.setSessW 0x14 _).setSessW 0x10 _).setSessW 0x2C _).setSessW 0x28 _).setSessW 0x24 _).setSessW 0x20 _

theorem restoredRecord_words {i : Nat} {s : State} (hs : HeldWhole i s) (h : Word) (off : Nat) :
    sessW i 0x10 (restoredRecord i h off s) = h ∧ sessW i 0x14 (restoredRecord i h off s) = w32 off ∧
    sessW i 0x20 (restoredRecord i h off s) = 0 ∧ sessPend i (restoredRecord i h off s) = sessPend i s := by
  have h14 := hs.setSessW 0x14 (w32 off)
  have h10 := h14.setSessW 0x10 h
  have h2C := h10.setSessW 0x2C 0
  have h28 := h2C.setSessW 0x28 0
  have h24 := h28.setSessW 0x24 0
  have hlow {m : Nat} (hm : m < 0x20) (h4 : m % 4 = 0) : sessW i m (restoredRecord i h off s) =
      sessW i m (setSessW i 0x10 h (setSessW i 0x14 (w32 off) s)) := by
    rw [restoredRecord, sessW_setSessW_ne h24.safe (by omega) h4 (by omega), sessW_setSessW_ne h28.safe (by omega) h4 (by omega),
      sessW_setSessW_ne h2C.safe (by omega) h4 (by omega), sessW_setSessW_ne h10.safe (by omega) h4 (by omega)]
  refine ⟨?_, ?_, sessW_setSessW_self h24.safe.whole (by omega) _, ?_⟩
  · rw [hlow (by omega) (by omega), sessW_setSessW_self h14.safe.whole (by omega)]
  · rw [hlow (by omega) (by omega), sessW_setSessW_ne h14.safe (by omega) (by omega) (by omega), sessW_setSessW_self hs.safe.whole (by omega)]
  · rw [sessPend, hlow (by omega) (by omega), sessW_setSessW_ne h14.safe (by omega) (by omega) (by omega),
      sessW_setSessW_ne hs.safe (by omega) (by omega) (by omega), sessPend]

/-- The reference of the spill region released. -/
def restoreFreed (z n m slot i : Nat) (h : Word) (off : Nat) (s : State) : State :=
  leavenDrop slot (sessW i 0x20 (restoreCounted z n m s)) (restoredRecord i h off (restoreCounted z n m s))

theorem restoreEnd_ok (z n m slot i : Nat) (h : Word) (off : Nat) (s : State) : restoreEnd z slot i h off (.ok (n, m), s) =
    if sessPend i (restoreFreed z n m slot i h off s) = 0 then sessLeave i (setSessState i 1 (restoreFreed z n m slot i h off s))
    else setSessState i 2 (restoreFreed z n m slot i h off s) := rfl

theorem leavenKept_restoreCounted (z n m : Nat) (s : State) : LeavenKept s (restoreCounted z n m s) := ⟨rfl, rfl, id⟩

/-- What the end of a restore leaves of its session. -/
theorem restoreFreed_does {i : Nat} {s : State} (hs : HeldWhole i s) (z n m slot : Nat) (h : Word) (off : Nat) :
    TablesKept s (restoreFreed z n m slot i h off s) ∧ HeldWhole i (restoreFreed z n m slot i h off s) ∧
    sessW i 0x10 (restoreFreed z n m slot i h off s) = h ∧ sessW i 0x14 (restoreFreed z n m slot i h off s) = w32 off ∧
    sessW i 0x20 (restoreFreed z n m slot i h off s) = 0 ∧ sessPend i (restoreFreed z n m slot i h off s) = sessPend i s := by
  have hcount := leavenKept_restoreCounted z n m s
  have hs' := hcount.heldWhole hs
  have hrecord := heldWhole_restoredRecord hs' h off
  have hdrop := leavenKept_leavenDrop slot (sessW i 0x20 (restoreCounted z n m s)) (restoredRecord i h off (restoreCounted z n m s))
  have hword (o : Nat) : sessW i o (restoreFreed z n m slot i h off s) = sessW i o (restoredRecord i h off (restoreCounted z n m s)) :=
    hrecord.sessW_congr (congrArg Lvn.onDie hdrop.lvn) o
  have hpend : sessPend i (restoreCounted z n m s) = sessPend i s := by
    rw [sessPend, hs.sessW_congr (congrArg Lvn.onDie hcount.lvn), sessPend]
  obtain ⟨h10, h14, h20, hp⟩ := restoredRecord_words hs' h off
  refine ⟨(hcount.tables.trans (recordKept_restoredRecord i h off _).tables).trans hdrop.tables, hdrop.heldWhole hrecord, ?_, ?_, ?_, ?_⟩
  · rw [hword, h10]
  · rw [hword, h14]
  · rw [hword, h20]
  · rw [sessPend, hword, ← hpend, ← hp, sessPend]

/-- A restore that fails leaves its session no pending step and no record on die. -/
theorem restoreFail_does (slot i e : Nat) (h : Word) (s : State) :
    (restoreFail slot i e h s).lvn.restores = s.lvn.restores ∧ tabFind i (restoreFail slot i e h s).lvn.onDie = none ∧
    ∀ x ∈ (restoreFail slot i e h s).lvn.steps, x.session ≠ i := by
  have hrecord : RecordKept s (sessLeave i (setSessPend i 0 (setSessState i 5 s))) :=
    ((recordKept_setSessW i 0 _ s).trans (recordKept_setSessW i 4 _ _)).trans (recordKept_sessLeave i _)
  have hdie := onDie_sessLeave i (setSessPend i 0 (setSessState i 5 s))
  obtain ⟨-, hlvn, -⟩ := leavenKept_leavenDrop slot h (sessLeave i (setSessPend i 0 (setSessState i 5 s)))
  have hsteps (l : List SStep) (u : State) :
      (l.foldl (fun s x => stepVerDrop x (lvnFail x.job i x.ver e s)) u).lvn = u.lvn :=
    foldl_keeps State.lvn _ l (fun v x _ => (leavenKept_stepVerDrop x _).lvn.trans (endJob_lvn _ _ _ _ v)) u
  unfold restoreFail
  simp only
  rw [hsteps, hlvn]
  refine ⟨hrecord.restores, hdie, fun x hx => ?_⟩
  simpa using (List.mem_filter.1 hx).2

section
variable {i n slot off : Nat} {h : Word} {s : State} (hctx : czCtxOf (.restore i) s = some n) (hst : sessState i s = 6)
  (hrest : tabFind i s.lvn.restores = some (slot, h, off))
include hctx hst hrest

/-- RESTORE_COMPLETE of a session that is RESTORING, with a step that waits. -/
theorem restoreComplete_restores {a m : Nat} {s1 : State} (hheld : HeldWhole i s) (hpend : 0 < sessPend i s)
    (hdata : restoreData (lvnRef slot (restoreJob i (restoreReleased i s)) (restoreReleased i s)) (n / 4) slot i h off (restoreReleased i s) =
      (.ok (a, m), s1)) :
    ∃ t, exec (.restoreComplete i) s = .next t ∧ tabFind i t.lvn.restores = none ∧ sessState i t = 2 ∧ sessW i 0x10 t = h ∧
      sessW i 0x14 t = w32 off ∧ sessW i 0x20 t = 0 ∧ sessPend i t = sessPend i s ∧ t.lvn.steps = s.lvn.steps := by
  obtain ⟨-, hsteps0, hdie0, hrest0⟩ := restoreReleased_does i s
  have hread := leavenKept_restoreData (lvnRef slot (restoreJob i (restoreReleased i s)) (restoreReleased i s)) (n / 4) slot i h off (restoreReleased i s)
  rw [hdata] at hread
  have hheld1 : HeldWhole i s1 := hread.heldWhole (hheld.congr hdie0)
  have hpend1 : sessPend i s1 = sessPend i s := by
    rw [sessPend, hheld.sessW_congr ((congrArg Lvn.onDie hread.lvn).trans hdie0), sessPend]
  obtain ⟨hkept, hwhole, h10, h14, h20, hp⟩ := restoreFreed_does hheld1 (n / 4) a m slot h off
  obtain ⟨-, hsteps, -, hrestores⟩ :=
    (hread.tables.trans hkept).trans (recordKept_setSessW i 0 (putFld (sessW i 0 _) 0 3 2) _).tables
  have hword {o : Nat} (h4 : o % 4 = 0) (h0 : o ≠ 0) (u : State) (hu : HeldWhole i u) :
      sessW i o (tidyMem (setSessState i 2 u)) = sessW i o u :=
    (sessW_tidyMem i o _).trans (sessW_setSessW_ne hu.safe (by omega) h4 h0 _)
  refine ⟨_, exec_restoreComplete i s, ?_⟩
  rw [restoreComplete_ends hctx hst hrest, hdata, restoreEnd_ok, if_neg (by omega)]
  refine ⟨?_, ?_, ?_, ?_, ?_, ?_, ?_⟩
  · exact (congrArg (tabFind i) hrestores).trans hrest0
  · rw [sessState, sessW_tidyMem, ← sessState]
    exact sessState_setSessState hwhole.safe.whole (by omega)
  · rw [hword (by omega) (by omega) _ hwhole, h10]
  · rw [hword (by omega) (by omega) _ hwhole, h14]
  · rw [hword (by omega) (by omega) _ hwhole, h20]
  · rw [sessPend, hword (by omega) (by omega) _ hwhole, ← sessPend, hp, hpend1]
  · exact hsteps.trans hsteps0

/-- RESTORE_COMPLETE whose transfer fails. -/
theorem restoreComplete_stops {e : Nat} {s1 : State}
    (hdata : restoreData (lvnRef slot (restoreJob i (restoreReleased i s)) (restoreReleased i s)) (n / 4) slot i h off (restoreReleased i s) =
      (.error e, s1)) :
    ∃ t, exec (.restoreComplete i) s = .next t ∧ tabFind i t.lvn.restores = none ∧ tabFind i t.lvn.onDie = none ∧
      ∀ x ∈ t.lvn.steps, x.session ≠ i := by
  obtain ⟨-, -, -, hrest0⟩ := restoreReleased_does i s
  have hread := leavenKept_restoreData (lvnRef slot (restoreJob i (restoreReleased i s)) (restoreReleased i s)) (n / 4) slot i h off (restoreReleased i s)
  rw [hdata] at hread
  obtain ⟨-, -, -, hrestores⟩ := hread.tables
  obtain ⟨hfail, hdie, hsteps⟩ := restoreFail_does slot i e h s1
  refine ⟨_, exec_restoreComplete i s, ?_⟩
  rw [restoreComplete_ends hctx hst hrest, hdata]
  exact ⟨(congrArg (tabFind i) (hfail.trans hrestores)).trans hrest0, hdie, hsteps⟩

end

/-- The job of a restore, as its session's pending steps have it. -/
theorem restoreJob_eq {i j : Nat} {s : State}
    (h : j = (match sessSteps i (restoreReleased i s) with | x :: _ => x.job | [] => s.fe.nextJob)) : j = restoreJob i (restoreReleased i s) := by
  obtain ⟨hfe, -⟩ := restoreReleased_does i s
  rw [restoreJob, hfe, h]
  cases sessSteps i (restoreReleased i s) <;> rfl

/-! ## The statement -/

/-- Settles O46: a command that its stream takes acts in the state where its job starts; what it leaves of its session is read back through
the record's words, on die or in HBM, and a park and a restore end through what a context's transfer leaves of Leaven's tables. -/
theorem sessionsFollowTheirCommands : Obligations.SessionsFollowTheirCommands := by
  unfold Obligations.SessionsFollowTheirCommands
  refine ⟨?_, ?_, ?_, ?_, ?_, ?_, ?_⟩
  · rintro k q c i x s s1 w h rfl hx
    obtain ⟨act, hexec, hact⟩ := sessCmd_checksName h hx
    exact sessCmd_fails h hexec hact
  · intro k q c i s s1 w h hop
    refine ⟨fun hst hw => ?_, fun va bs d w1 w2 w3 r hst hw hdie hr hrange hread hd hkv hname hfunc =>
      sessOpen_opens h hop hst hw hdie hr hrange hread hd hkv hname hfunc⟩
    obtain ⟨w0, hstart, rfl, hfe, hact⟩ := startsOn_acts h
    refine ⟨_, sessOpen_starts hstart hop, ?_⟩
    rw [hact, openAct_state hw hst]
    exact (jobPut_of_startsAt hstart).endedWith hfe _ _ _
  · intro k q c s s1 w h hop hheld
    exact ⟨_, exec_sessStep k q s, lvnCmd_held h (by simp [selOp, hop]) hheld _⟩
  · rintro k q c i st s s1 w h hop hheld hn rfl
    obtain ⟨hstate, hunread, hempty⟩ := sessStep_fails h hop hheld hn
    exact ⟨hstate, hunread, hempty, fun v w1 w2 w' hst hg hcur hw hname hw' => sessStep_enters h hop hheld hn hst hg hcur hw hname hw'⟩
  · intro k q c i s s1 w h hop hheld hn
    have hclose (hc : argsOf c % 2 = 0) := sessClose_closes h hop hheld hn hc
    have hpark (hc : argsOf c % 2 = 1) := sessPark_parks h hop hheld hn hc
    refine ⟨fun hc => (hclose hc).1, fun hc => (hclose hc).2, fun hc => (hpark hc).1, fun n hc => ?_, fun n r va w1 w2 w3 hc => ?_⟩
    · obtain ⟨-, hshort, -⟩ := hpark hc
      exact hshort n
    · obtain ⟨-, -, hparks⟩ := hpark hc
      exact hparks n r va w1 w2 w3
  · rintro i j n b r s s0 hctx hst - hpark hb hfin hs0 rfl
    obtain rfl : s0 = parkReleased i s := hs0
    exact ⟨fun data out raw s1 s2 s3 hread hstream hwrite hwhole hp =>
      parkComplete_parks hctx hst hpark hb hfin hread hstream hwrite hwhole hp, fun e s1 hread => parkComplete_stops hctx hst hpark hb hfin hread⟩
  · rintro i j n slot off h ws r s s0 hctx hst hws hlen hrest hpend hs0 hj rfl
    obtain rfl : s0 = restoreReleased i s := hs0
    obtain rfl := restoreJob_eq hj
    exact ⟨fun a m s1 hdata => restoreComplete_restores hctx hst hrest ⟨ws, hws, hlen⟩ hpend hdata,
      fun e s1 hdata => restoreComplete_stops hctx hst hrest hdata⟩

end Sys2Proof.Machine

/-!
PROOFS. Translation, fault rings and DMA: what an event, a write of HBM, a translation and a post to a fault ring leave alone.
-/
namespace Sys2Proof.Machine
open Sys2Proof.Claims

/-! ## The registers of an event (R356, R357, R446 to R449) -/

/-- The registers of the headers, and those of the Pending Bit Arrays that hold the vectors of a function. -/
def headRegs (k : Nat) : Prop := k % 65536 < 0x100

theorem headRegs_rk {off : Nat} (ho : off < 0x100) (pg bank : Nat) : headRegs (rk pg bank off) := by
  simp only [headRegs, rk]
  omega

theorem getFld_lt (pg bank off lo n : Nat) (s : State) : getFld pg bank off lo n s < 2 ^ n := Nat.mod_lt _ (by positivity)

theorem OtherRegs.ite {R : Nat → Prop} {s t u : State} (c : Prop) [Decidable c] (h : OtherRegs R s t) (h' : OtherRegs R s u) :
    OtherRegs R s (if c then t else u) := by
  split
  · exact h
  · exact h'

/-- A register that is set after a step. -/
theorem OtherRegs.setReg {R : Nat → Prop} {s t : State} (h : OtherRegs R s t) {pg bank off : Nat} (hk : R (rk pg bank off)) (v : Word) :
    OtherRegs R s (setReg pg bank off v t) := h.trans (otherRegs_setReg hk v t)

theorem headRegs_sendMsix (fn : Nat) {vec : Nat} (hv : vec < 2048) (s : State) : OtherRegs headRegs s (sendMsix fn vec s) := by
  unfold sendMsix
  split_ifs
  · exact .refl _ s
  · exact otherRegs_setReg (headRegs_rk (by omega) _ _) _ s
  · exact fun _ _ => rfl

theorem headRegs_setPend (pg : Nat) (bits : Word) (s : State) : OtherRegs headRegs s (setPend pg bits s) := by
  have hset := otherRegs_setReg (headRegs_rk (off := 0x018) (by omega) pg 0) (getReg pg 0 0x018 s ||| bits) s
  unfold setPend sumNotify
  exact .ite _ (hset.trans (headRegs_sendMsix 0 (getFld_lt _ _ _ _ 11 _) _)) hset

theorem headRegs_raiseIrq (pg j : Nat) (s : State) : OtherRegs headRegs s (raiseIrq pg j s) := by
  unfold raiseIrq
  exact .ite _ (.refl _ s) ((otherRegs_setReg (headRegs_rk (off := 0x010) (by omega) pg 0) _ s).trans (headRegs_setPend _ _ _))

theorem headRegs_setSticky (pg b : Nat) (s : State) : OtherRegs headRegs s (setSticky pg b s) :=
  (otherRegs_setReg (headRegs_rk (off := 0x020) (by omega) pg 0) _ s).trans (headRegs_raiseIrq pg 31 _)

theorem headRegs_faultAt (src pg b : Nat) (s : State) : OtherRegs headRegs s (faultAt src pg b s) := by
  have hcount := (headRegs_setSticky pg b s).setReg (headRegs_rk (off := 0x02C) (by omega) pg 0)
  unfold faultAt
  exact .ite _ (hcount _) (hcount _)

theorem headRegs_recordLost (pg b : Nat) (s : State) : OtherRegs headRegs s (recordLost pg b s) :=
  (headRegs_setSticky pg b s).trans (headRegs_faultAt _ _ _ _)

/-! ## What reads and writes of HBM leave (R136 to R142, R369) -/

/-- The headers' registers and those of the HBM controllers, but none at the offset of FV_STS (Table 18-10). -/
def storeRegs (k : Nat) : Prop :=
  k % 65536 ≠ 0x100 ∧ (headRegs k ∨ (pgHbc 0 ≤ k / 65536 / 512 ∧ k / 65536 / 512 < pgHbc 4))

theorem storeRegs_of_headRegs {k : Nat} (h : headRegs k) : storeRegs k := ⟨by simp only [headRegs] at h; omega, .inl h⟩

theorem storeRegs_hbc {n off : Nat} (hn : n < 4) (ho : off < 65536) (hne : off ≠ 0x100) : storeRegs (rk (pgHbc n) 0 off) := by
  simp only [storeRegs, headRegs, rk, pgHbc]
  omega

/-- What an access to HBM leaves: all that `MemKept` says, the translation buffers and the MMU's registers too. -/
structure StoreKept (s t : State) : Prop where
  kept : MemKept s t
  mmu : t.mmu = s.mmu
  regs : OtherRegs storeRegs s t

theorem StoreKept.refl (s : State) : StoreKept s s := ⟨.refl s, rfl, .refl _ s⟩

theorem StoreKept.trans {s t u : State} (h : StoreKept s t) (h' : StoreKept t u) : StoreKept s u where
  kept := h.kept.trans h'.kept
  mmu := h'.mmu.trans h.mmu
  regs := h.regs.trans h'.regs

theorem StoreKept.foldl {α : Type} {f : State → α → State} (h : ∀ s a, StoreKept s (f s a)) :
    ∀ (l : List α) (s : State), StoreKept s (l.foldl f s)
  | [], s => .refl s
  | a :: l, s => (h s a).trans (StoreKept.foldl h l (f s a))

theorem Alters.mmu {R : Nat → Prop} {s t : State} (h : Alters R s t) : t.mmu = s.mmu := by rw [h.2]

theorem otherRegs_logHbmError (u : Nat) (ue scrub : Bool) (s : State) : OtherRegs storeRegs s (logHbmError u ue scrub s) := by
  have hn := stackOf_lt (u * 32) s
  have hset {v : State} {off : Nat} (ho : off < 65536) (hne : off ≠ 0x100) (w : Word) (h : OtherRegs storeRegs s v) :
      OtherRegs storeRegs s (setReg (pgHbc (stackOf (u * 32) s)) 0 off w v) := h.setReg (storeRegs_hbc hn ho hne) w
  have hhead {t v : State} (h : OtherRegs storeRegs s t) (h' : OtherRegs headRegs t v) : OtherRegs storeRegs s v :=
    h.trans (h'.mono fun _ => storeRegs_of_headRegs)
  have hfault {v : State} (h : OtherRegs storeRegs s v) : OtherRegs storeRegs s (fault (216 + stackOf (u * 32) s) v) :=
    hhead h (headRegs_faultAt _ _ _ v)
  have hirq {v : State} (h : OtherRegs storeRegs s v) : OtherRegs storeRegs s (raiseIrq (pgHbc (stackOf (u * 32) s)) 0 v) :=
    hhead h (headRegs_raiseIrq _ _ v)
  unfold logHbmError
  simp only
  split
  · next i hi =>
    have hi := mem_range_of_find hi
    have h3 {v : State} (w : Word) := hset (v := v) (off := 0x20C + 16 * i) (by omega) (by omega) w
    refine .ite _ ?_ (hfault ?_) <;>
    exact h3 _ (.ite _ (h3 _ (h3 _ (.refl _ s))) (h3 _ (.refl _ s)))
  · split
    · next i hi =>
      have hi := mem_range_of_find hi
      have hnew (a b c d e : Word) := hset (off := 0x114) (by omega) (by omega) e (hset (off := 0x20C + 16 * i) (by omega) (by omega) d
        (hset (off := 0x208 + 16 * i) (by omega) (by omega) c (hset (off := 0x204 + 16 * i) (by omega) (by omega) b
          (hset (off := 0x200 + 16 * i) (by omega) (by omega) a (.refl _ s)))))
      exact .ite _ (hfault (hirq (hnew _ _ _ _ _))) (hirq (hnew _ _ _ _ _))
    · refine hfault (.ite _ (hirq ?_) ?_) <;>
      exact hset (by omega) (by omega) _ (hset (by omega) (by omega) _ (.refl _ s))

theorem storeKept_hbmUnitError (u : Nat) (ue scrub : Bool) (s : State) : StoreKept s (hbmUnitError u ue scrub s) := by
  have hlog := otherRegs_logHbmError u ue scrub s
  have hmmu := (alters_logHbmError u ue scrub s).mmu
  have hfault (i : Nat) (v : State) : (fault i v).mmu = v.mmu := (alters_fault (R := fun _ => True) i v fun _ _ => trivial).mmu
  have hregs (i : Nat) {v : State} {off : Nat} (ho : off < 65536) (hne : off ≠ 0x100) (h : OtherRegs storeRegs s v) :
      OtherRegs storeRegs s (fault i (count32 (pgHbc (stackOf (u * 32) s)) 0 off v)) :=
    (h.setReg (storeRegs_hbc (stackOf_lt _ s) ho hne) _).trans ((headRegs_faultAt _ _ _ _).mono fun _ => storeRegs_of_headRegs)
  suffices h : (hbmUnitError u ue scrub s).mmu = s.mmu ∧ OtherRegs storeRegs s (hbmUnitError u ue scrub s) from
    ⟨memKept_hbmUnitError u ue scrub s, h.1, h.2⟩
  unfold hbmUnitError
  simp only
  split
  · exact ⟨(hfault _ _).trans hmmu, hregs _ (by omega) (by omega) hlog⟩
  · exact ⟨(hfault _ _).trans hmmu, hregs _ (by omega) (by omega) hlog⟩

theorem storeKept_regionFilled (s : State) (r : Nat) : StoreKept s (regionFilled r s) := by
  suffices h : (regionFilled r s).mmu = s.mmu ∧ OtherRegs storeRegs s (regionFilled r s) from ⟨memKept_regionFilled s r, h.1, h.2⟩
  unfold regionFilled
  split
  · simp only
    split
    · refine ⟨rfl, OtherRegs.setReg ?_ (storeRegs_hbc (n := 0) (by omega) (by omega) (by omega)) _⟩
      exact fun _ _ => rfl
    · exact ⟨rfl, fun _ _ => rfl⟩
  · exact ⟨rfl, .refl _ s⟩

theorem storeKept_settleFills (rs : List Nat) (s : State) : StoreKept s (settleFills rs s) := .foldl storeKept_regionFilled rs s

theorem storeKept_touchRegion (s : State) (r : Nat) : StoreKept s (touchRegion s r) := by
  suffices h : (touchRegion s r).mmu = s.mmu ∧ OtherRegs storeRegs s (touchRegion s r) from ⟨memKept_touchRegion s r, h.1, h.2⟩
  unfold touchRegion
  split <;> exact ⟨rfl, fun _ _ => rfl⟩

theorem storeKept_hbmMerge (a n : Nat) (s : State) : StoreKept s (hbmMerge a n s) := by
  refine StoreKept.foldl (fun u e => ?_) _ s
  exact storeKept_hbmUnitError e.1 false false u

theorem storeKept_hbmRead (a n : Nat) (s : State) : StoreKept s (hbmRead a n s).2 := by
  have herrs (u : State) : StoreKept u (hbmErrors a n false u) := by
    refine StoreKept.foldl (fun v e => ?_) _ u
    exact storeKept_hbmUnitError e.1 e.2.ue false v
  unfold hbmRead
  simp only
  split <;> exact (storeKept_settleFills _ s).trans (herrs _)

theorem storeKept_takeInjection {n : Nat} (hn : n < 4) (s : State) : StoreKept s (takeInjection (pgHbc n) s).2 := by
  have h := alters_takeInjection (storeRegs_hbc hn (off := 0x028) (by omega) (by omega)) s
  exact ⟨memKept_takeInjection hn s, h.mmu, h.1⟩

theorem storeKept_hbmPut (a : Nat) (bs : List Byte) (s : State) : StoreKept s (hbmPut a bs s) := by
  cases bs with
  | nil => exact .refl s
  | cons b bs =>
    have hready : StoreKept s (regionsReady a (b :: bs).length s) := (storeKept_settleFills _ s).trans (.foldl storeKept_touchRegion _ _)
    have hmerged := hready.trans (storeKept_hbmMerge a (b :: bs).length _)
    generalize hv : hbmMerge a (b :: bs).length (regionsReady a (b :: bs).length s) = v at hmerged
    have hinj := (hmerged.trans ⟨memKept_hbmStored a (b :: bs) v, rfl, fun _ _ => rfl⟩).trans
      (storeKept_takeInjection (stackOf_lt a (hbmStored a (b :: bs) v)) _)
    suffices h : (hbmPut a (b :: bs) s).mmu = s.mmu ∧ OtherRegs storeRegs s (hbmPut a (b :: bs) s) from
      ⟨memKept_hbmPut a (b :: bs) s, h.1, h.2⟩
    unfold hbmStored at hinj
    unfold regionsReady at hv
    unfold hbmPut
    simp only [hv]
    split <;> next h => rw [h] at hinj; exact ⟨hinj.mmu, hinj.regs⟩

theorem storeKept_hostSend (q : HostAttr) (a : Nat) (bs : List Byte) (s : State) : StoreKept s (hostSend q a bs s) :=
  ⟨memKept_hostSend q a bs s, rfl, fun _ _ => rfl⟩

/-! ## The bytes that a write of HBM leaves (R137, R140) -/

/-- The bytes `bs` stand in HBM at `a`, and every other byte of HBM is as it was. -/
def HbmHolds (a : Nat) (bs : List Byte) (s t : State) : Prop := hbmBytes a bs.length t = bs ∧ HbmKept a bs.length s t

/-- HBM's bytes stay where no invalidation waits for a fill, and none comes to wait. -/
def HbmQuiet (s t : State) : Prop :=
  s.hbc.pendInv = [] → t.hbc.pendInv = [] ∧ t.mem.hbm = s.mem.hbm ∧ t.hbc.stale = s.hbc.stale

theorem HbmQuiet.of_eq {s t : State} (hm : t.mem.hbm = s.mem.hbm) (hh : t.hbc = s.hbc) : HbmQuiet s t := fun hp =>
  ⟨by rw [hh, hp], hm, by rw [hh]⟩

theorem HbmQuiet.trans {s t u : State} (h : HbmQuiet s t) (h' : HbmQuiet t u) : HbmQuiet s u := fun hp => by
  obtain ⟨ht, hm, hs⟩ := h hp
  obtain ⟨hu, hm', hs'⟩ := h' ht
  exact ⟨hu, hm'.trans hm, hs'.trans hs⟩

theorem hbmQuiet_hbmRead (a n : Nat) (s : State) : HbmQuiet s (hbmRead a n s).2 := fun hp => by
  have hstate : (hbmRead a n s).2 = hbmErrors a n false (settleFills (chunksOf (2 ^ 21) a n) s) := by
    unfold hbmRead
    simp only
    split <;> rfl
  obtain ⟨hfills, hstale, -, -⟩ := fillsOnly_settleFills (chunksOf (2 ^ 21) a n) hp
  obtain ⟨herr, herrs, -⟩ := hbmStays_hbmErrors a n false (settleFills (chunksOf (2 ^ 21) a n) s)
  refine ⟨(memKept_hbmRead a n s).pendInv hp, ?_, ?_⟩
  · rw [hstate, herr, hfills]
  · rw [hstate, herrs, hstale]

/-- A write of HBM writes its bytes and no others, where no invalidation waits for a fill. -/
theorem hbmHolds_hbmPut {s : State} (hp : s.hbc.pendInv = []) (a : Nat) (bs : List Byte) : HbmHolds a bs s (hbmPut a bs s) := by
  obtain ⟨hm, hs⟩ := hbmPut_only hp a bs
  refine ⟨?_, fun k hk => ?_⟩
  · rw [hbmBytes, hm, hs]
    exact memRead_write _ _ _ _
  · rw [hm, hs]
    exact memByte_write_out _ _ _ _ _ hk

/-- Bytes that a write leaves, after steps before and after it that leave HBM alone. -/
theorem HbmHolds.framed {a : Nat} {bs : List Byte} {s t u v : State} (h : HbmHolds a bs t u) (hp : s.hbc.pendInv = [])
    (hbefore : HbmQuiet s t) (hafter : v.mem.hbm = u.mem.hbm ∧ v.hbc.stale = u.hbc.stale) : HbmHolds a bs s (tidyMem v) := by
  obtain ⟨hbytes, hkept⟩ := h
  obtain ⟨-, hm, hs⟩ := hbefore hp
  obtain ⟨hm', hs'⟩ := hafter
  refine ⟨?_, HbmKept.tidyMem fun k hk => ?_⟩
  · rw [hbmBytes_tidyMem, hbmBytes, hm', hs']
    exact hbytes
  · rw [hm', hs', hkept k hk, hm, hs]

end Sys2Proof.Machine

/-!
PROOFS. What a translation keeps (R146 to R155): whatever the reads of HBM, the translation buffers and the two counts keep.
-/
namespace Sys2Proof.Machine
open Sys2Proof.Claims

/-! ## Relations that a translation keeps (R146 to R155) -/

/-- A relation of states that holds over a read of HBM, a change of the translation buffers and a count of hits or walks. -/
structure WalkClosed (R : State → State → Prop) : Prop where
  refl : ∀ s, R s s
  trans : ∀ {s t u}, R s t → R t u → R s u
  read : ∀ a n s, R s (hbmRead a n s).2
  held : ∀ m k (s : State), R s { s with mmu := m, free := k }
  count : ∀ off s, off = 0x118 ∨ off = 0x11C → R s (count32 pgMmu 0 off s)

/-- One that holds over the writes of memory as well. -/
structure AccessClosed (R : State → State → Prop) : Prop extends WalkClosed R where
  put : ∀ a bs s, R s (hbmPut a bs s)
  send : ∀ q a bs s, R s (hostSend q a bs s)

section
variable {R : State → State → Prop} (h : WalkClosed R)
include h

theorem WalkClosed.readPte (slot level va table : Nat) (s : State) : R s (readPte slot level va table s).2 := by
  have hread := h.read (table + 8 * nbits va (12 + 9 * level) 9) 8 s
  unfold Machine.readPte
  simp only
  split
  · exact h.refl s
  · split <;> next heq => rw [heq] at hread; exact hread

theorem WalkClosed.keepWalk (slot level va pte : Nat) (s : State) : R s (keepWalk slot level va pte s) := by
  unfold Machine.keepWalk
  simp only
  split
  · exact h.refl s
  · obtain ⟨k, hk⟩ := bufAdd_state 512 ⟨slot, level, va / 2 ^ (12 + 9 * level), pte⟩ s.mmu.walk s
    rw [hk]
    exact h.held _ k s

theorem WalkClosed.walkLeaf (slot va table : Nat) (g64 : Bool) (s : State) : R s (walkLeaf slot va table g64 s).2 := by
  have hread := h.read (if g64 then table + 8 * nbits va 16 5 else table + 8 * nbits va 12 9) 8 s
  unfold Machine.walkLeaf
  simp only
  split
  · next heq => rw [heq] at hread; exact hread
  · next heq =>
    rw [heq] at hread
    split
    · exact hread
    · split
      · exact hread
      · split <;> exact hread

theorem WalkClosed.walkFrom (slot va : Nat) : ∀ (level table : Nat) (g64 : Bool) (s : State), R s (walkFrom slot va level table g64 s).2
  | 0, table, g64, s => h.walkLeaf slot va table g64 s
  | level + 1, table, _, s => by
    have hread := h.readPte slot (level + 1) va table s
    unfold Machine.walkFrom
    split
    · next heq => rw [heq] at hread; exact hread
    · next pte u heq =>
      rw [heq] at hread
      split_ifs
      · exact hread
      · split <;> exact hread
      · exact hread
      · split
        · exact hread
        · next t _ => exact h.trans (h.trans hread (h.keepWalk _ _ _ _ u)) (WalkClosed.walkFrom slot va level t _ _)

theorem WalkClosed.sharedAdd (e : TlbEnt) (s : State) : R s (sharedAdd e s) := by
  unfold Machine.sharedAdd
  simp only
  generalize (if s.mmu.shared.length < 8 then [] else s.mmu.shared.filter (fun o => tlbSet o == tlbSet e)) = peers
  split
  · exact h.held _ s.free s
  · exact h.held _ (s.free + 1) s

theorem WalkClosed.microAdd (rq : Nat) (e : TlbEnt) (s : State) : R s (microAdd rq e s) := by
  unfold Machine.microAdd
  split
  · obtain ⟨k, hk⟩ := bufAdd_state 32 e (tabGet [] rq s.mmu.micro) s
    simp only [hk]
    exact h.held _ k s
  · exact h.refl s

theorem WalkClosed.findEnt (rq slot va : Nat) (s : State) : R s (findEnt rq slot va s).2 := by
  unfold Machine.findEnt
  split
  · exact h.refl s
  · split
    · exact h.trans (h.count _ s (.inl rfl)) (h.microAdd rq _ _)
    · have hwalk := h.trans (h.count _ s (.inr rfl)) (h.walkFrom slot va 3 (slotOf slot s).ptRoot false _)
      split
      · next heq => rw [heq] at hwalk; exact hwalk
      · next heq => rw [heq] at hwalk; exact h.trans hwalk (h.trans (h.sharedAdd _ _) (h.microAdd rq _ _))

theorem WalkClosed.translate (rq slot va : Nat) (k : XKind) (s : State) : R s (translate rq slot va k s).2 := by
  have hfind := h.findEnt rq slot va s
  unfold Machine.translate
  split_ifs
  · exact h.refl s
  · exact h.refl s
  · split
    · next heq => rw [heq] at hfind; exact hfind
    · next e u heq =>
      rw [heq] at hfind
      simp only
      split
      · exact hfind
      · split_ifs
        · exact hfind
        · exact hfind
        · exact hfind
        · split
          · exact hfind
          · split <;> exact hfind

theorem WalkClosed.prefetchRun (rq slot top : Nat) : ∀ (pages va : Nat) (s : State), R s (prefetchRun rq slot top pages va s)
  | 0, _, s => h.refl s
  | pages + 1, va, s => by
    have hfind := h.findEnt rq slot va s
    rw [Machine.prefetchRun]
    split
    · exact h.refl s
    · split <;> next heq => rw [heq] at hfind; exact h.trans hfind (WalkClosed.prefetchRun rq slot top pages _ _)

theorem WalkClosed.prefetch (rq slot va len : Nat) (s : State) : R s (prefetch rq slot va len s) := by
  unfold Machine.prefetch
  split
  · exact h.refl s
  · exact h.prefetchRun _ _ _ _ _ s

theorem WalkClosed.vaRead (rq slot va n : Nat) (k : XKind) (s : State) : R s (vaRead rq slot va n k s).2 := by
  have hdest := h.translate rq slot va k s
  unfold Machine.vaRead
  split
  · next heq => rw [heq] at hdest; exact hdest
  · next pa u heq =>
    rw [heq] at hdest
    have hread := h.trans hdest (h.read pa n u)
    split <;> next heq => rw [heq] at hread; exact hread
  · next heq => rw [heq] at hdest; exact hdest
  · next heq => rw [heq] at hdest; exact hdest

/-- A fold whose steps keep the relation keeps it. -/
theorem WalkClosed.foldl {α β : Type} {f : β × State → α → β × State} (hf : ∀ r a, R r.2 (f r a).2) :
    ∀ (l : List α) (r : β × State), R r.2 (l.foldl f r).2
  | [], r => h.refl r.2
  | a :: l, r => h.trans (hf r a) (WalkClosed.foldl hf l (f r a))

theorem WalkClosed.dmaRead (n slot va len : Nat) (s : State) : R s (dmaRead n slot va len s).2 := by
  refine h.foldl (fun r p => ?_) _ (Except.ok [], s)
  obtain ⟨e | bs, u⟩ := r
  · exact h.refl u
  · have hdest := h.translate (rqDma n) slot p.1 .rd u
    simp only
    split
    · next heq => rw [heq] at hdest; exact hdest
    · next heq => rw [heq] at hdest; exact hdest
    · next heq => rw [heq] at hdest; exact hdest
    · next a v heq =>
      rw [heq] at hdest
      have hread := h.trans hdest (h.read a p.2 v)
      split <;> next heq => rw [heq] at hread; exact hread

end

section
variable {R : State → State → Prop} (h : AccessClosed R)
include h

theorem AccessClosed.vaWrite (rq slot va : Nat) (bs : List Byte) (s : State) : R s (vaWrite rq slot va bs s).2 := by
  have hdest := h.translate rq slot va .wr s
  unfold Machine.vaWrite
  split
  · next heq => rw [heq] at hdest; exact hdest
  · next heq => rw [heq] at hdest; exact h.trans hdest (h.put _ bs _)
  · next heq => rw [heq] at hdest; exact h.trans hdest (h.send _ _ bs _)
  · next heq => rw [heq] at hdest; exact hdest

theorem AccessClosed.dmaWrite (n slot va : Nat) (bs : List Byte) (s : State) : R s (dmaWrite n slot va bs s).2 := by
  refine h.foldl (fun r p => ?_) _ (Except.ok (), s)
  obtain ⟨e | _, u⟩ := r
  · exact h.refl u
  · have hdest := h.translate (rqDma n) slot p.1 .wr u
    simp only
    split
    · next heq => rw [heq] at hdest; exact hdest
    · next heq => rw [heq] at hdest; exact hdest
    · next heq => rw [heq] at hdest; exact h.trans hdest (h.send _ _ _ _)
    · next heq => rw [heq] at hdest; exact h.trans hdest (h.put _ _ _)

end

/-! ## Three relations that are kept -/

theorem walkClosed_hbmQuiet : WalkClosed HbmQuiet where
  refl _ := .of_eq rfl rfl
  trans := .trans
  read := hbmQuiet_hbmRead
  held _ _ _ := .of_eq rfl rfl
  count _ _ _ := .of_eq rfl rfl

theorem accessClosed_accessKept : AccessClosed AccessKept where
  refl := .refl
  trans := .trans
  read := accessKept_hbmRead
  held := accessKept_mmu
  count off s _ := (alters_count32 _ _ _ s (lateRegs_rk (pg := pgMmu) (by decide) 0 off)).accessKept
  put := accessKept_hbmPut
  send q a bs s := (memKept_hostSend q a bs s).access

/-- An event of kind 1 that a function's Basin view shows is still shown (R367). -/
def ViewStays (s t : State) : Prop := ∀ f, bit (getReg pgFv f 0x100 s) 1 = true → bit (getReg pgFv f 0x100 t) 1 = true

theorem ViewStays.trans {s t u : State} (h : ViewStays s t) (h' : ViewStays t u) : ViewStays s u := fun f hf => h' f (h f hf)

theorem ViewStays.of_regs {s t : State} (h : t.regs = s.regs) : ViewStays s t := fun f hf => by
  rw [getReg, h]
  exact hf

/-- No register at the offset of FV_STS changes. -/
theorem OtherRegs.viewStays {R : Nat → Prop} {s t : State} (h : OtherRegs R s t) (hR : ∀ k, R k → k % 65536 ≠ 0x100) : ViewStays s t :=
  fun f hf => by
    rw [h.getReg fun hk => hR _ hk (by simp only [rk]; omega)]
    exact hf

theorem viewStays_setReg {off : Nat} (ho : off < 65536) (hne : off ≠ 0x100) (pg bank : Nat) (v : Word) (s : State) :
    ViewStays s (setReg pg bank off v s) :=
  (otherRegs_setReg (R := fun k => k % 65536 ≠ 0x100) (by simp only [rk]; omega) v s).viewStays fun _ => id

theorem StoreKept.viewStays {s t : State} (h : StoreKept s t) : ViewStays s t := h.regs.viewStays fun _ hk => hk.1

theorem accessClosed_viewStays : AccessClosed ViewStays where
  refl _ := .of_regs rfl
  trans := .trans
  read a n s := (storeKept_hbmRead a n s).viewStays
  held _ _ _ := .of_regs rfl
  count off s ho := viewStays_setReg (by omega) (by omega) _ _ _ s
  put a bs s := (storeKept_hbmPut a bs s).viewStays
  send q a bs s := (storeKept_hostSend q a bs s).viewStays

end Sys2Proof.Machine

/-!
PROOFS. Posts to the fault rings, the views of Basin, and the end of a transfer (R162 to R166, R172, R367, R399).
-/
namespace Sys2Proof.Machine
open Sys2Proof.Claims

/-! ## What a post to a fault ring leaves (R162 to R165, R367) -/

/-- Registers, output and memory apart, a post leaves the units as they were, and what the Basin views show. -/
structure PostKept (s t : State) : Prop where
  frame : t = { s with
    regs := t.regs, out := t.out, bsn := t.bsn, pwr := t.pwr, free := t.free, hbc := t.hbc,
    mem := { s.mem with hbm := t.mem.hbm, host := t.mem.host } }
  view : ViewStays s t

theorem PostKept.refl (s : State) : PostKept s s := ⟨rfl, .of_regs rfl⟩

theorem PostKept.trans {s t u : State} (h : PostKept s t) (h' : PostKept t u) : PostKept s u where
  frame := by
    obtain ⟨h, -⟩ := h
    obtain ⟨h', -⟩ := h'
    rw [h', h]
  view := h.view.trans h'.view

theorem PostKept.ite {s t u : State} (c : Prop) [Decidable c] (h : PostKept s t) (h' : PostKept s u) :
    PostKept s (if c then t else u) := by
  split
  · exact h
  · exact h'

section
variable {s t : State} (h : PostKept s t)
include h

theorem PostKept.fe : t.fe = s.fe := by rw [h.frame]
theorem PostKept.mmu : t.mmu = s.mmu := by rw [h.frame]
theorem PostKept.dma : t.dma = s.dma := by rw [h.frame]

theorem PostKept.setReg {off : Nat} (ho : off < 65536) (hne : off ≠ 0x100) (pg bank : Nat) (v : Word) :
    PostKept s (setReg pg bank off v t) :=
  h.trans ⟨rfl, viewStays_setReg ho hne pg bank v t⟩

theorem PostKept.sendMsix (fn : Nat) {vec : Nat} (hv : vec < 2048) : PostKept s (sendMsix fn vec t) := by
  refine h.trans ⟨?_, (headRegs_sendMsix fn hv t).viewStays fun _ hk => (storeRegs_of_headRegs hk).1⟩
  unfold Machine.sendMsix
  split_ifs <;> rfl

end

theorem StoreKept.postKept {s t : State} (h : StoreKept s t) : PostKept s t := by
  obtain ⟨⟨⟨-, hstate⟩, -, -⟩, hmmu, -⟩ := id h
  exact ⟨hstate.trans (by rw [hmmu]), h.viewStays⟩

theorem postKept_ringPut (fn : Nat) (host : Bool) (a : Nat) (bs : List Byte) (s : State) : PostKept s (ringPut fn host a bs s) := by
  unfold ringPut
  exact .ite _ (storeKept_hostSend _ a bs s).postKept (storeKept_hbmPut a bs s).postKept

theorem postKept_fltPost (fn : Nat) (rec : Nat → List Byte) (s : State) : PostKept s (fltPost fn rec s) := by
  have hput (host : Bool) (a n : Nat) (w : Word) : PostKept s (fltSetFull fn (setReg pgMmu fn 0x140 w (ringPut fn host a (rec n) s))) :=
    ((postKept_ringPut fn host a (rec n) s).setReg (by omega) (by omega) _ _ _).setReg (by omega) (by omega) _ _ _
  unfold fltPost
  exact .ite _ ((hput _ _ _ _).sendMsix 0 (getFld_lt _ _ _ _ 11 _)) (hput _ _ _ _)

theorem postKept_recordLost (pg b : Nat) (s : State) : PostKept s (recordLost pg b s) := by
  refine ⟨?_, (headRegs_recordLost pg b s).viewStays fun _ hk => (storeRegs_of_headRegs hk).1⟩
  obtain ⟨-, h⟩ := (alters_raiseIrq (R := fun _ => True) pg 31 (setReg pg 0 0x020 (getReg pg 0 0x020 s ||| oneBit b) s)
    fun _ _ => trivial).trans (alters_fault 285 _ fun _ _ => trivial)
  unfold recordLost setSticky
  rw [h]
  rfl

/-- An event in a function's view keeps the events that the views show. -/
theorem postKept_viewEvent (fn : Nat) {k : Nat} (hk : k < 8) (slot q seq : Nat) (s : State) : PostKept s (viewEvent fn k slot q seq s) := by
  have hshow : PostKept s (setReg pgFv fn 0x100 (getReg pgFv fn 0x100 s ||| oneBit k) s) := by
    refine ⟨rfl, fun f hf => ?_⟩
    by_cases hfn : f = fn
    · rw [hfn] at hf ⊢
      rw [getReg_setReg_self, bit_or, hf, Bool.true_or]
    · rw [getReg_setReg_ne (by simp only [rk]; omega), hf]
  have hcount := hshow.setReg (off := 0x108 + 4 * k) (by omega) (by omega) pgFv fn
  have hlast (w w' w'' : Word) := ((hcount w).setReg (off := 0x128) (by omega) (by omega) pgFv fn w').setReg (off := 0x12C)
    (by omega) (by omega) pgFv fn w''
  unfold viewEvent
  simp only
  split_ifs
  · exact (hcount _).sendMsix fn (getFld_lt _ _ _ _ 11 _)
  · exact hcount _
  · exact (hlast _ _ _).sendMsix fn (getFld_lt _ _ _ _ 11 _)
  · exact hlast _ _ _

/-- A record is dropped: it is counted, its requester's record-lost bit sets, and the view shows it. -/
def dropCounted (fn rq chan : Nat) (j : JobRef) (s : State) : State :=
  viewEvent fn 7 j.slot j.queue 0 (recordLost (lostHome rq chan).1 (lostHome rq chan).2 (count32 pgMmu fn 0x148 s))

theorem postKept_dropCounted (fn rq chan : Nat) (j : JobRef) (s : State) : PostKept s (dropCounted fn rq chan j s) :=
  (((PostKept.refl s).setReg (off := 0x148) (by omega) (by omega) pgMmu fn _).trans (postKept_recordLost _ _ _)).trans
    (postKept_viewEvent fn (k := 7) (by omega) _ _ _ _)

/-- A disabled ring has no overflow slot (R165). -/
theorem fltDrop_disabled {fn rq chan : Nat} {j : JobRef} {s : State} (h : bit (getReg pgMmu fn 0x134 (dropCounted fn rq chan j s)) 0 = false)
    (rec : Nat → List Byte) : fltDrop fn rq chan j rec s = dropCounted fn rq chan j s := by
  unfold dropCounted at h
  simp only [fltDrop, h, Bool.false_and, Bool.false_eq_true, if_false]
  rfl

theorem postKept_fltDrop (fn rq chan : Nat) (j : JobRef) (rec : Nat → List Byte) (s : State) :
    PostKept s (fltDrop fn rq chan j rec s) := by
  have hlost := postKept_dropCounted fn rq chan j s
  unfold dropCounted at hlost
  unfold fltDrop
  simp only
  generalize viewEvent fn 7 j.slot j.queue 0 (recordLost (lostHome rq chan).1 (lostHome rq chan).2 (count32 pgMmu fn 0x148 s)) = u at hlost ⊢
  have hput (host : Bool) (a n : Nat) : PostKept s (setFld pgMmu fn 0x14C 1 1 1 (ringPut fn host a (rec n) u)) :=
    (hlost.trans (postKept_ringPut fn host a (rec n) u)).setReg (by omega) (by omega) _ _ _
  exact .ite _ (.ite _ ((hput _ _ _).sendMsix 0 (getFld_lt _ _ _ _ 11 _)) (hput _ _ _)) hlost

/-- An event of kind 1 stands in the view. -/
theorem viewEvent_shows (fn slot q seq : Nat) (s : State) : bit (getReg pgFv fn 0x100 (viewEvent fn 1 slot q seq s)) 1 = true := by
  have hshow : bit (getReg pgFv fn 0x100 (setReg pgFv fn 0x100 (getReg pgFv fn 0x100 s ||| oneBit 1) s)) 1 = true := by
    rw [getReg_setReg_self, bit_or, bit_oneBit _ _ (by omega), decide_eq_true rfl, Bool.or_true]
  generalize hu : setReg pgFv fn 0x100 (getReg pgFv fn 0x100 s ||| oneBit 1) s = u at hshow
  have hcount := (PostKept.refl u).setReg (off := 0x10C) (by omega) (by omega) pgFv fn
  have hlast (w w' w'' : Word) := ((hcount w).setReg (off := 0x128) (by omega) (by omega) pgFv fn w').setReg (off := 0x12C)
    (by omega) (by omega) pgFv fn w''
  unfold viewEvent
  simp only [hu]
  split_ifs
  · exact ((hcount _).sendMsix fn (getFld_lt _ _ _ _ 11 _)).view fn hshow
  · exact (hcount _).view fn hshow
  · exact ((hlast _ _ _).sendMsix fn (getFld_lt _ _ _ _ 11 _)).view fn hshow
  · exact (hlast _ _ _).view fn hshow

/-! ## Posts that wait (R164) -/

/-- Posts leave the rings' channels: those that waited to post are stalled, and the front end, the views, the tokens and the page
requests stay. -/
structure Drained (s t : State) : Prop where
  fe : t.fe = s.fe
  mmu : t.mmu = { s.mmu with posts := t.mmu.posts }
  dma : t.dma = { s.dma with chans := t.dma.chans }
  chans : ∀ e ∈ t.dma.chans, e ∈ s.dma.chans ∨ e.2.st = .stalled
  view : ViewStays s t

theorem Drained.refl (s : State) : Drained s s := ⟨rfl, rfl, rfl, fun _ => .inl, .of_regs rfl⟩

theorem Drained.trans {s t u : State} (h : Drained s t) (h' : Drained t u) : Drained s u where
  fe := h'.fe.trans h.fe
  mmu := by rw [h'.mmu, h.mmu]
  dma := by rw [h'.dma, h.dma]
  chans e he := (h'.chans e he).elim (h.chans e) .inr
  view := h.view.trans h'.view

theorem Drained.foldl {α : Type} {f : State → α → State} (h : ∀ s a, Drained s (f s a)) :
    ∀ (l : List α) (s : State), Drained s (l.foldl f s)
  | [], s => .refl s
  | a :: l, s => (h s a).trans (Drained.foldl h l (f s a))

theorem PostKept.drained {s t : State} (h : PostKept s t) : Drained s t where
  fe := h.fe
  mmu := by rw [h.mmu]
  dma := by rw [h.dma]
  chans e he := .inl (h.dma ▸ he)
  view := h.view

theorem drained_stalled (c : Nat) {x : Chan} (hx : x.st = .stalled) (s : State) : Drained s (setChan c x s) where
  fe := rfl
  mmu := rfl
  dma := rfl
  chans e he := by
    rcases mem_tabSet he with rfl | ⟨he, -⟩
    · exact .inr hx
    · exact .inl he
  view := .of_regs rfl

theorem drained_postWaiting (fn : Nat) (s : State) : Drained s (postWaiting fn s) := by
  unfold postWaiting
  split
  · exact .refl s
  · next p _ =>
    split
    · have herased : Drained s { s with mmu := { s.mmu with posts := s.mmu.posts.erase p } } :=
        ⟨rfl, rfl, rfl, fun _ => .inl, .of_regs rfl⟩
      simp only
      split
      · exact herased
      · next x _ =>
        exact (herased.trans (drained_stalled p.chan rfl _)).trans (postKept_fltPost fn _ _).drained
    · exact .refl s

theorem postWaiting_none {fn : Nat} {s : State} (h : ∀ p ∈ s.mmu.posts, p.fn ≠ fn) : postWaiting fn s = s := by
  have hnone : s.mmu.posts.find? (fun p => p.fn == fn) = none := List.find?_eq_none.2 (by simpa using h)
  simp only [postWaiting, hnone]

theorem postDrain_none {fn : Nat} {s : State} (h : ∀ p ∈ s.mmu.posts, p.fn ≠ fn) : postDrain fn s = s :=
  foldl_fixed fun _ _ => postWaiting_none h

theorem drained_postFault (rq chan : Nat) (j : JobRef) (va cause level : Nat) (k : XKind) (bytes : Nat) (s : State) :
    Drained s (postFault rq chan j va cause level k bytes s) := by
  have hdrain : Drained s (postDrain (slotOf j.slot s).func s) := .foldl (fun u _ => drained_postWaiting _ u) s.mmu.posts s
  unfold postFault
  simp only
  split
  · exact hdrain.trans (postKept_fltPost _ _ _).drained
  · exact hdrain.trans (postKept_fltDrop _ _ _ _ _ _).drained

/-! ## Invalidation Completions (R172) -/

/-- Completions that are sent: the count of them, the output and the invalidations that wait. -/
def AtsSettled (s t : State) : Prop :=
  OtherRegs (fun k => k = rk pgMmu 0 0x154) s t ∧
    t = { s with regs := t.regs, out := t.out, mmu := { s.mmu with atsInv := t.mmu.atsInv } }

theorem AtsSettled.trans {s t u : State} (h : AtsSettled s t) (h' : AtsSettled t u) : AtsSettled s u := by
  obtain ⟨ho, h⟩ := h
  obtain ⟨ho', h'⟩ := h'
  exact ⟨ho.trans ho', by rw [h', h]⟩

theorem AtsSettled.foldl {α : Type} {f : State → α → State} (h : ∀ s a, AtsSettled s (f s a)) :
    ∀ (l : List α) (s : State), AtsSettled s (l.foldl f s)
  | [], _ => ⟨.refl _ _, rfl⟩
  | a :: l, s => (h s a).trans (AtsSettled.foldl h l (f s a))

theorem atsSettled_atsSettle (s : State) : AtsSettled s (atsSettle s) := by
  refine AtsSettled.foldl (fun u i => ⟨?_, rfl⟩) _ s
  exact OtherRegs.setReg (R := fun k => k = rk pgMmu 0 0x154) (t := { u with mmu := _ }) (fun _ _ => rfl) rfl _

/-! ## The end of a transfer (R166, R187) -/

/-- Channel `c` is free, its posts and page requests are gone, and the registers and the memories are as they were, but for the count
of the Invalidation Completions. -/
structure ChanFreed (c : Nat) (s t : State) : Prop where
  chans : t.dma.chans = tabDel c s.dma.chans
  token : t.dma.token = s.dma.token
  posts : t.mmu.posts = s.mmu.posts.filter (fun p => p.chan != c)
  pri : t.mmu.pri = s.mmu.pri.filter (· != c)
  regs : OtherRegs (fun k => k = rk pgMmu 0 0x154) s t
  mem : t.mem = s.mem
  hbc : t.hbc = s.hbc
  aon : t.aon = s.aon

section
variable {c : Nat} {s t : State} (h : ChanFreed c s t)
include h

theorem ChanFreed.chanOf_self : chanOf c t = none := by rw [chanOf, h.chans, tabFind_del_self]

theorem ChanFreed.chanOf_ne {d : Nat} (hd : d ≠ c) : chanOf d t = chanOf d s := by rw [chanOf, h.chans, tabFind_del_ne hd]; rfl

theorem ChanFreed.sameBytes : SameBytes s (tidyMem t) := sameBytes_tidyMem_of_eq h.mem h.hbc h.aon

end

theorem addFlags_fe (j fl : Nat) (s : State) : ∃ f, addFlags j fl s = { s with fe := f } := by
  unfold addFlags
  split
  · exact ⟨_, rfl⟩
  · exact ⟨s.fe, rfl⟩

theorem jobRuns_addFlags {j : Nat} {s : State} (h : JobRuns j s) (j' fl : Nat) : JobRuns j (addFlags j' fl s) := by
  unfold addFlags
  split
  · next b' hb' =>
    obtain ⟨b, hb, hfin⟩ := h
    by_cases hj : j = j'
    · subst hj
      obtain rfl : b' = b := Option.some.inj (hb'.symm.trans hb)
      exact ⟨_, tabFind_set_self _ _ _, hfin⟩
    · exact ⟨b, (tabFind_set_ne hj _ _).trans hb, hfin⟩
  · exact h

theorem chanFree_fe (c : Nat) (s : State) : (chanFree c s).fe = s.fe := atsSettle_fe _

theorem chanFreed_chanFree (c : Nat) (s : State) : ChanFreed c s (chanFree c s) := by
  obtain ⟨hregs, h⟩ := atsSettled_atsSettle { s with pci := { s.pci with reads := s.pci.reads.filter (fun e =>
    match e.2.waiter with | .chan k => k != c | _ => true) } }
  unfold chanFree dropReads
  generalize atsSettle _ = u at hregs h
  constructor
  case regs => exact hregs
  all_goals simp only; rw [h]

/-- The channel of a transfer that ends is free. -/
theorem chanFreed_chanEnd (c : Nat) (ch : Chan) (st r d : Nat) (s : State) : ChanFreed c s (chanEnd c ch st r d s) := by
  obtain ⟨f, hflags⟩ := addFlags_fe ch.job ch.flags s
  have h := chanFreed_chanFree c (addFlags ch.job ch.flags s)
  obtain ⟨f', hend⟩ := endJob_fe ch.job st r d (chanFree c (addFlags ch.job ch.flags s))
  unfold chanEnd
  rw [hend]
  rw [hflags] at h ⊢
  exact ⟨h.chans, h.token, h.posts, h.pri, h.regs, h.mem, h.hbc, h.aon⟩

/-- The job of a transfer that ends has the end that it is given. -/
theorem fin_chanEnd {ch : Chan} {s : State} (h : JobRuns ch.job s) (c st r d : Nat) :
    ∃ b, tabFind ch.job (chanEnd c ch st r d s).fe.jobs = some b ∧ b.fin = some ⟨st, r, d⟩ := by
  refine fin_endJob ?_ st r d
  obtain ⟨b, hb, hfin⟩ := jobRuns_addFlags h ch.job ch.flags
  exact ⟨b, by rw [chanFree_fe]; exact hb, hfin⟩

theorem jobRuns_of_fe {j : Nat} {s t : State} (h : JobRuns j s) (hfe : t.fe = s.fe) : JobRuns j t := by
  rw [JobRuns, hfe]
  exact h

end Sys2Proof.Machine

/-!
PROOFS. The invalidations of translations (R157, R172).
-/
namespace Sys2Proof.Machine
open Sys2Proof.Claims

/-! ## The write that starts an invalidation (R157) -/

theorem exec_invalidate (r : Requester) (v : Word) (s : State) : exec (.invalidate r v) s =
    .next (tidyMem (if bit v 31 then blockWrite r pgMmu 0x108 (invCtlWrite v) s else s)) := rfl

theorem exec_invalidateDone (s : State) : exec .invalidateDone s = .next (tidyMem (invDone s)) := rfl

theorem exec_atsInvalidateRequest (pasid : BitVec 20) (va pages : Nat) (s : State) :
    exec (.atsInvalidateRequest pasid va pages) s = .next (tidyMem (atsInvalidate pasid.toNat va pages s)) := rfl

theorem invalidate_heard {r : Requester} {v : Word} {s : State} (h : Heard r pgMmu 0x108 s = true) (hgo : bit v 31 = true) :
    exec (.invalidate r v) s = .next (tidyMem (if bit (getReg pgMmu 0 0x108 s) 31 then s else writeByType pgMmu 0 0x108 v s)) := by
  rw [exec_invalidate, if_pos hgo, blockWrite_heard h]
  rfl

/-- A bit of a register in any bank after a write by the access types. -/
theorem bit_writeByType {pg off : Nat} {f : Fld} (hf : f ∈ regFields pg off) {k : Nat} (hk : f.has k = true) (bank : Nat) (v : Word) (s : State) :
    bit (getReg pg bank off (writeByType pg bank off v s)) k =
      newBit (if pg < 146 then locked pg s else false) f.acc (bit v k) (bit (getReg pg bank off s) k) := by
  simp only [writeByType, getReg_setReg_self]
  exact bit_foldl_writeField _ v _ _ (fieldsApart_regFields pg off) hf hk

/-- GO of INV_CTL is set by writing 1 (Table 6-6). -/
theorem invGo_writeByType {v : Word} (hgo : bit v 31 = true) (s : State) :
    bit (getReg pgMmu 0 0x108 (writeByType pgMmu 0 0x108 v s)) 31 = true := by
  rw [bit_writeByType (f := ⟨31, 1, .w1s, 0⟩) (by decide) (by decide), newBit, hgo, Bool.or_true]

/-! ## The buffered stores of the scope (R122, R157) -/

/-- Stores are written out of the buffers of some cores: the front end, the DMA engines, the MMU and its registers stay. -/
structure FlushKept (s t : State) : Prop where
  fe : t.fe = s.fe
  dma : t.dma = s.dma
  mmu : t.mmu = s.mmu
  regs : OtherRegs storeRegs s t

theorem FlushKept.refl (s : State) : FlushKept s s := ⟨rfl, rfl, rfl, .refl _ s⟩

theorem FlushKept.trans {s t u : State} (h : FlushKept s t) (h' : FlushKept t u) : FlushKept s u where
  fe := h'.fe.trans h.fe
  dma := h'.dma.trans h.dma
  mmu := h'.mmu.trans h.mmu
  regs := h.regs.trans h'.regs

theorem StoreKept.flushKept {s t : State} (h : StoreKept s t) : FlushKept s t := ⟨h.kept.access.fe, h.kept.access.dma, h.mmu, h.regs⟩

theorem storeKept_destPut (host : Option HostAttr) (a : Nat) (bs : List Byte) (s : State) : StoreKept s (destPut host a bs s) := by
  unfold destPut
  split
  · exact storeKept_hostSend _ a bs s
  · exact storeKept_hbmPut a bs s

theorem storeKept_wbOut (e : WbEnt) (s : State) : StoreKept s (wbOut e s) := by
  refine StoreKept.foldl (fun u r => ?_) _ s
  exact storeKept_destPut e.host (e.pa + r.1) r.2 u

theorem flushKept_setCore (p : Nat) (c : Core) (s : State) : FlushKept s (setCore p c s) := ⟨rfl, rfl, rfl, fun _ _ => rfl⟩

/-- The entries `es` are written out, and core `p` is left as `c`. -/
theorem wbOuts_do (p : Nat) (c : Core) (es : List WbEnt) (s : State) :
    FlushKept s (es.foldl (fun s e => wbOut e s) (setCore p c s)) ∧
    ∀ q, coreOf q (es.foldl (fun s e => wbOut e s) (setCore p c s)) = if q = p then c else coreOf q s := by
  have hout := StoreKept.foldl (fun u e => storeKept_wbOut e u) es (setCore p c s)
  refine ⟨(flushKept_setCore p c s).trans hout.flushKept, fun q => ?_⟩
  rw [hout.kept.access.coreOf q]
  split
  · next hq => rw [hq, coreOf_setCore_self]
  · next hq => rw [coreOf_setCore_ne hq]

/-- What writing out a core's buffer leaves: the entries that are not selected, and the other cores. -/
theorem wbFlush_does (p : Nat) (f : WbEnt → Bool) (s : State) : FlushKept s (wbFlush p f s) ∧
    ∀ q, (coreOf q (wbFlush p f s)).wb = if q = p then (coreOf p s).wb.filter (fun e => !(f e)) else (coreOf q s).wb := by
  unfold wbFlush
  simp only
  split
  · obtain ⟨hkept, hcores⟩ := wbOuts_do p { coreOf p s with wb := (coreOf p s).wb.filter (fun e => !(f e)) } ((coreOf p s).wb.filter f) s
    refine ⟨hkept, fun q => ?_⟩
    rw [hcores]
    split <;> rfl
  · next hany =>
    refine ⟨.refl s, fun q => ?_⟩
    split
    · next hq =>
      rw [hq, eq_comm, List.filter_eq_self]
      simpa using hany
    · rfl

theorem wbFlushes_do (f : WbEnt → Bool) : ∀ (ps : List Nat) (s : State), FlushKept s (ps.foldl (fun s p => wbFlush p f s) s) ∧
    ∀ q, (coreOf q (ps.foldl (fun s p => wbFlush p f s) s)).wb =
      if q ∈ ps then (coreOf q s).wb.filter (fun e => !(f e)) else (coreOf q s).wb
  | [], s => ⟨.refl s, fun _ => by simp⟩
  | p :: ps, s => by
    obtain ⟨hkept, hwb⟩ := wbFlush_does p f s
    obtain ⟨hkept', hwb'⟩ := wbFlushes_do f ps (wbFlush p f s)
    refine ⟨hkept.trans hkept', fun q => ?_⟩
    rw [List.foldl_cons, hwb' q, hwb q]
    by_cases hp : q = p
    · subst hp
      simp [List.filter_filter]
    · simp [hp]

theorem mem_keys_of_tabFind {α : Type} {k : Nat} {v : α} {t : Tab α} (h : tabFind k t = some v) : k ∈ t.map (·.1) :=
  List.mem_map.2 ⟨(k, v), exists_mem_of_tabFind h, rfl⟩

/-- A core whose store buffer holds an entry stands in the table of the cores. -/
theorem core_listed {p : Nat} {s : State} (h : (coreOf p s).wb ≠ []) : p ∈ s.cpt.cores.map (·.1) := by
  cases hc : tabFind p s.cpt.cores with
  | some c => exact mem_keys_of_tabFind hc
  | none =>
    refine absurd ?_ h
    rw [coreOf, tabGet, hc]
    rfl

/-- After the stores of a scope are written out no buffer holds one. -/
theorem wbFlushScope_does (f : WbEnt → Bool) (s : State) : FlushKept s (wbFlushScope f s) ∧
    ∀ p, (coreOf p (wbFlushScope f s)).wb = (coreOf p s).wb.filter (fun e => !(f e)) := by
  obtain ⟨hkept, hwb⟩ := wbFlushes_do f (s.cpt.cores.map (·.1)) s
  refine ⟨hkept, fun p => (hwb p).trans ?_⟩
  split
  · rfl
  · next hp =>
    have hempty : (coreOf p s).wb = [] := by_contra fun h => hp (core_listed h)
    rw [hempty]
    rfl

theorem wbFlushes_empty {s : State} (h : ∀ p, (coreOf p s).wb = []) (f : WbEnt → Bool) (ps : List Nat) :
    ps.foldl (fun s p => wbFlush p f s) s = s := foldl_fixed fun p _ => wbFlush_empty (h p) f

/-- Where one core alone has buffered stores, and all of them are of the scope, its buffer is written out once. -/
theorem wbFlushes_one {p : Nat} {f : WbEnt → Bool} {s : State} (hall : ∀ e ∈ (coreOf p s).wb, f e = true)
    (hothers : ∀ q, q ≠ p → (coreOf q s).wb = []) :
    ∀ {ps : List Nat}, p ∈ ps → ps.foldl (fun s p => wbFlush p f s) s = wbFlush p f s
  | q :: ps, hmem => by
    rw [List.foldl_cons]
    by_cases hq : q = p
    · subst hq
      refine wbFlushes_empty (fun r => ?_) f ps
      rw [(wbFlush_does q f s).2 r]
      split
      · simpa using hall
      · next hr => exact hothers r hr
    · rw [wbFlush_empty (hothers q hq)]
      exact wbFlushes_one hall hothers ((List.mem_cons.1 hmem).resolve_left (Ne.symm hq))

/-- One buffered run of bytes of the scope is written where its entry says. -/
theorem hbmHolds_wbFlushScope {p : Nat} {f : WbEnt → Bool} {e : WbEnt} {o : Nat} {bs : List Byte} {s : State}
    (hwb : (coreOf p s).wb = [e]) (hothers : ∀ q, q ≠ p → (coreOf q s).wb = []) (hf : f e = true) (hruns : byteRuns e.bytes = [(o, bs)])
    (hhost : e.host = none) (hp : s.hbc.pendInv = []) : ∃ c, HbmHolds (e.pa + o) bs (setCore p c s) (wbFlushScope f s) := by
  have hone : wbFlushScope f s = wbFlush p f s :=
    wbFlushes_one (by simpa [hwb] using hf) hothers (core_listed (by simp [hwb]))
  refine ⟨{ coreOf p s with wb := [] }, ?_⟩
  have hput : wbFlush p f s = hbmPut (e.pa + o) bs (setCore p { coreOf p s with wb := [] } s) := by
    simp [wbFlush, hwb, hf, wbOut, hruns, hhost, destPut]
  rw [hone, hput]
  exact hbmHolds_hbmPut (s := setCore p { coreOf p s with wb := [] } s) hp _ _

/-! ## The end of an invalidation (R157) -/

/-- The invalidation that INV_CTL, INV_VA and INV_LEN name is the same where the MMU's registers are. -/
theorem FlushKept.invScope {s t : State} (h : FlushKept s t) : invScope t = invScope s := by
  have hreg (off : Nat) (h1 : 0x108 ≤ off) (h2 : off ≤ 0x114) : getReg pgMmu 0 off t = getReg pgMmu 0 off s := by
    refine h.regs.getReg fun hk => ?_
    simp only [storeRegs, headRegs, rk, pgMmu, pgHbc] at hk
    omega
  have h8 := hreg 0x108 (by omega) (by omega)
  have hc := hreg 0x10C (by omega) (by omega)
  have h10 := hreg (0x10C + 4) (by omega) (by omega)
  have h14 := hreg 0x114 (by omega) (by omega)
  funext slot base size
  unfold Machine.invScope getPair getFld
  rw [h8, hc, h10, h14]

theorem invDone_starts {s : State} (hgo : bit (getReg pgMmu 0 0x108 s) 31 = true) (hreads : readsInScope (invScope s) s = false) :
    invDone s = setFld pgMmu 0 0x108 31 1 0 (dropEntries (invScope s) (wbFlushScope (fun e => invScope s e.slot (e.line * 64) 64) s)) := by
  have hkept := (wbFlushScope_does (fun e => invScope s e.slot (e.line * 64) 64) s).1
  unfold invDone
  rw [hgo, hreads]
  simp only [Bool.not_false, Bool.and_self, if_true, hkept.invScope]

theorem invDone_waits {s : State} (h : bit (getReg pgMmu 0 0x108 s) 31 = false ∨ readsInScope (invScope s) s = true) : invDone s = s := by
  unfold invDone
  rw [if_neg]
  rcases h with h | h <;> simp [h]

theorem tabGet_map_filter {α : Type} (f : α → Bool) (k : Nat) (t : Tab (List α)) :
    tabGet [] k (t.map fun e => (e.1, e.2.filter f)) = (tabGet [] k t).filter f := by
  rw [tabGet, tabGet, tabFind_map (List.filter f)]
  cases tabFind k t <;> rfl

/-! ## The host's invalidations (R172) -/

theorem atsScope_iff {pasid va len slot base size : Nat} {s : State} : atsScope pasid va len s slot base size = true ↔
    (slotOf slot s).pasid = pasid ∧ (slotOf slot s).state ≠ 0 ∧ base < va + len ∧ va < base + size := by
  simp [atsScope]
  tauto

theorem atsSettle_reading {i : Nat × Nat × Nat} {s : State} (h : s.mmu.atsInv = [i]) (hr : atsReading i s = true) : atsSettle s = s := by
  simp [atsSettle, h, hr]

theorem atsSettle_answers {i : Nat × Nat × Nat} {s : State} (h : s.mmu.atsInv = [i]) (hr : atsReading i s = false) :
    atsSettle s = emit (.invCompletion i.1) (count32 pgMmu 0 0x154 { s with mmu := { s.mmu with atsInv := [] } }) := by
  simp [atsSettle, h, hr]

/-- An invalidation of the host that is taken removes the translations of its range and waits to be answered. -/
theorem atsInvalidate_taken {pasid va pages : Nat} {s : State} (hself : selfHosted s = false) (hroom : s.mmu.atsInv.length < 32) :
    ∃ v : State, v = { s with mmu := v.mmu } ∧
      v.mmu.shared = s.mmu.shared.filter (fun e => !(e.ats && atsScope pasid va (pages * 4096) s e.slot e.base e.size)) ∧
      v.mmu.micro = s.mmu.micro ∧ v.mmu.atsInv = s.mmu.atsInv ++ [(pasid, va, pages * 4096)] ∧
      atsInvalidate pasid va pages s = atsSettle v := by
  unfold atsInvalidate
  rw [if_neg (by simp [hself]; omega)]
  refine ⟨_, ?_, ?_, ?_, ?_, rfl⟩ <;> rfl

theorem atsInvalidate_refused {pasid va pages : Nat} {s : State} (h : selfHosted s = true ∨ 32 ≤ s.mmu.atsInv.length) :
    atsInvalidate pasid va pages s = s := by
  unfold atsInvalidate
  rw [if_pos (by simpa using h)]

theorem invalidateDone_clears {s : State} (hgo : bit (getReg pgMmu 0 0x108 s) 31 = true) (hreads : readsInScope (invScope s) s = false) :
    ∃ t, exec .invalidateDone s = .next t ∧ bit (getReg pgMmu 0 0x108 t) 31 = false ∧
      t.mmu.shared = s.mmu.shared.filter (fun e => !(invScope s e.slot e.base e.size)) ∧
      (∀ rq, tabGet [] rq t.mmu.micro = (tabGet [] rq s.mmu.micro).filter (fun e => !(invScope s e.slot e.base e.size))) ∧
      (∀ e ∈ t.mmu.walk, e ∈ s.mmu.walk ∧ invScope s e.slot (e.pfx * 2 ^ (12 + 9 * e.level)) (2 ^ (12 + 9 * e.level)) = false) ∧
      (∀ p, (coreOf p t).wb = (coreOf p s).wb.filter (fun e => !(invScope s e.slot (e.line * 64) 64))) ∧
      (∀ (p : Nat) (e : WbEnt) (o : Nat) (b : Byte) (bs : List Byte), (coreOf p s).wb = [e] → (∀ q, q ≠ p → (coreOf q s).wb = []) →
        invScope s e.slot (e.line * 64) 64 = true → byteRuns e.bytes = [(o, b :: bs)] → e.host = none → s.hbc.pendInv = [] →
        hbmBytes (e.pa + o) (bs.length + 1) t = b :: bs ∧ HbmKept (e.pa + o) (bs.length + 1) s t) ∧
      ((∀ p, (coreOf p s).wb = []) → SameBytes s t ∧ OtherRegs (fun k => k = rk pgMmu 0 0x108) s t) ∧
      t.fe = s.fe ∧ t.dma = s.dma := by
  obtain ⟨hkept, hwb⟩ := wbFlushScope_does (fun e => invScope s e.slot (e.line * 64) 64) s
  rw [exec_invalidateDone, invDone_starts hgo hreads]
  refine ⟨_, rfl, bit_setFld_zero _ _ _ (by omega) _, ?shared, ?micro, ?walk, hwb, ?stored, ?empty, hkept.fe, hkept.dma⟩
  case shared => exact congrArg (fun m : Mmu => m.shared.filter _) hkept.mmu
  case micro =>
    intro rq
    refine (tabGet_map_filter _ rq _).trans ?_
    rw [hkept.mmu]
  case walk =>
    intro e he
    have he := List.mem_filter.1 (show e ∈ List.filter _ _ from he)
    rw [hkept.mmu] at he
    exact ⟨he.1, by simpa using he.2⟩
  case stored =>
    intro p e o b bs hwb hothers hscope hruns hhost hp
    obtain ⟨c, h⟩ := hbmHolds_wbFlushScope (f := fun e => invScope s e.slot (e.line * 64) 64) hwb hothers hscope hruns hhost hp
    exact h.framed hp (.of_eq rfl rfl) ⟨rfl, rfl⟩
  case empty =>
    intro hempty
    rw [wbFlushScope, wbFlushes_empty hempty]
    exact ⟨sameBytes_tidyMem_of_eq rfl rfl rfl,
      OtherRegs.setReg (R := fun k => k = rk pgMmu 0 0x108) (t := dropEntries (invScope s) s) (fun _ _ => rfl) rfl _⟩

theorem atsInvalidateRequest_taken {pasid : BitVec 20} {va pages : Nat} {i : Nat × Nat × Nat} {s : State} (hself : selfHosted s = false)
    (hroom : s.mmu.atsInv.length < 32) (hi : i = (pasid.toNat, va, pages * 4096)) :
    ∃ t, exec (.atsInvalidateRequest pasid va pages) s = .next t ∧
      (∀ e, e ∈ t.mmu.shared ↔ e ∈ s.mmu.shared ∧ ¬ (e.ats = true ∧ (slotOf e.slot s).pasid = pasid.toNat ∧
        (slotOf e.slot s).state ≠ 0 ∧ e.base < va + pages * 4096 ∧ va < e.base + e.size)) ∧
      t.mmu.micro = s.mmu.micro ∧ OtherRegs (fun k => k = rk pgMmu 0 0x154) s t ∧ SameBytes s t ∧
      (s.mmu.atsInv = [] → atsReading i s = false → t.out = .invCompletion pasid.toNat :: s.out ∧ t.mmu.atsInv = [] ∧
        (getReg pgMmu 0 0x154 t).toNat = min (2 ^ 32 - 1) ((getReg pgMmu 0 0x154 s).toNat + 1)) ∧
      (s.mmu.atsInv = [] → atsReading i s = true → t.out = s.out ∧ t.mmu.atsInv = [i] ∧ t.regs = s.regs) := by
  obtain ⟨v, hv, hshared, hmicro, hinv, htaken⟩ := atsInvalidate_taken (pasid := pasid.toNat) (va := va) (pages := pages) hself hroom
  obtain ⟨hregs, hstate⟩ := atsSettled_atsSettle v
  have hvregs : v.regs = s.regs := by rw [hv]
  have halone (h : s.mmu.atsInv = []) : v.mmu.atsInv = [i] := by rw [hinv, h, hi]; rfl
  have hreading : atsReading i v = atsReading i s := by rw [hv]; rfl
  rw [exec_atsInvalidateRequest, htaken]
  refine ⟨_, rfl, fun e => ?shared, ?micro, ?regs, ?bytes, fun hnone hread => ?answered, fun hnone hread => ?reading⟩
  case shared =>
    have hsettled : (tidyMem (atsSettle v)).mmu.shared = v.mmu.shared := by
      change (atsSettle v).mmu.shared = _
      rw [hstate]
    rw [hsettled, hshared, List.mem_filter, Bool.not_eq_true', ← Bool.not_eq_true, Bool.and_eq_true, atsScope_iff]
  case micro => 
    change (atsSettle v).mmu.micro = _
    rw [hstate, ← hmicro]
  case regs =>
    refine OtherRegs.trans (fun k _ => ?_) hregs
    rw [hvregs]
  case bytes => refine sameBytes_tidyMem_of_eq ?_ ?_ ?_ <;> rw [hstate, hv]
  case answered =>
    rw [atsSettle_answers (halone hnone) (hreading.trans hread), hi]
    have hout : v.out = s.out := by rw [hv]
    refine ⟨congrArg _ hout, rfl, ?_⟩
    have hcount := getReg_addFld_whole pgMmu 0 0x154 1 { v with mmu := { v.mmu with atsInv := [] } }
    rw [hv] at hcount
    rw [hv]
    exact hcount
  case reading =>
    rw [atsSettle_reading (halone hnone) (hreading.trans hread)]
    exact ⟨by rw [hv]; rfl, halone hnone, hvregs⟩

/-- Settles O31: the scope's buffered stores are written out before its translations are dropped, and neither step touches what the other
reads; the host's invalidation is settled at once where no read that it covers is outstanding. -/
theorem invalidationsRemoveTheirScope : Obligations.InvalidationsRemoveTheirScope := by
  unfold Obligations.InvalidationsRemoveTheirScope
  refine ⟨fun r v s hheard hgo => ⟨fun hidle => ?starts, fun hbusy => ?busy⟩, fun s => invalidateDone_clears, fun s hwait => ?waits,
    fun pasid va pages i s => atsInvalidateRequest_taken, fun pasid va pages s hfull => ?refused⟩
  case starts =>
    rw [invalidate_heard hheard hgo, hidle]
    have halters := altersRegs_writeByType (R := fun k => k = rk pgMmu 0 0x108) (bank := 0) rfl v s
    exact ⟨_, rfl, fieldsWritten_writeByType (by decide) 0x108 v s, invGo_writeByType hgo s, halters.1, halters.regsOnly⟩
  case busy => rw [invalidate_heard hheard hgo, if_pos hbusy]
  case waits => rw [exec_invalidateDone, invDone_waits hwait]
  case refused => rw [exec_atsInvalidateRequest, atsInvalidate_refused hfull]

end Sys2Proof.Machine

/-!
PROOFS. The fault rings (R161 to R166).
-/
namespace Sys2Proof.Machine
open Sys2Proof.Claims

/-! ## The counts of a ring (R163) -/

theorem exec_faultPostWaiting (f : Fin 64) (s : State) : exec (.faultPostWaiting f) s = .next (tidyMem (postWaiting f.val s)) := rfl

theorem exec_fltqEnable (r : Requester) (v : Word) (s : State) : exec (.fltqEnable r v) s =
    .next (tidyMem (if bit v 0 then blockWrite r pgMmu 0x134 (fltqCtlWrite v) s else s)) := rfl

theorem exec_fltqDisable (r : Requester) (v : Word) (s : State) : exec (.fltqDisable r v) s =
    .next (tidyMem (if bit v 0 then s else blockWrite r pgMmu 0x134 (fltqCtlWrite v) s)) := rfl

theorem exec_fltqConsWrite (r : Requester) (v : Word) (s : State) : exec (.fltqConsWrite r v) s =
    .next (tidyMem (blockWrite r pgMmu 0x144 (fltqConsWrite v) s)) := rfl

theorem fltSel_lt (s : State) : fltSel s < 64 := getFld_lt _ _ _ _ _ s

theorem bankOf_fltCons (s : State) : bankOf pgMmu 0x144 s = some (fltSel s) := rfl

/-- Two registers of the MMU's page, by their banks and offsets. -/
theorem rk_mmu_ne {b b' off off' : Nat} (ho : off < 65536) (ho' : off' < 65536) (hne : off ≠ off') : rk pgMmu b off ≠ rk pgMmu b' off' := by
  simp only [rk]
  omega

/-- A register of the fault rings after another register of the MMU's page is set. -/
theorem getReg_mmu_setReg {b b' off off' : Nat} (ho : off < 65536) (ho' : off' < 65536) (hne : off ≠ off') (v : Word) (s : State) :
    getReg pgMmu b off (setReg pgMmu b' off' v s) = getReg pgMmu b off s := getReg_setReg_ne (rk_mmu_ne ho ho' hne) v s

theorem getReg_mmu_setFld {b b' off off' : Nat} (ho : off < 65536) (ho' : off' < 65536) (hne : off ≠ off') (lo n v : Nat) (s : State) :
    getReg pgMmu b off (setFld pgMmu b' off' lo n v s) = getReg pgMmu b off s := getReg_mmu_setReg ho ho' hne _ s

theorem fltLog2_bounds (fn : Nat) (s : State) : 6 ≤ fltLog2 fn s ∧ fltLog2 fn s ≤ 12 := by
  simp only [fltLog2]
  omega

/-- A ring has at least 63 slots for records. -/
theorem fltSlots_ge (fn : Nat) (s : State) : 63 ≤ 2 ^ fltLog2 fn s - 1 := by
  have h : 2 ^ 6 ≤ 2 ^ fltLog2 fn s := Nat.pow_le_pow_right (by omega) (fltLog2_bounds fn s).1
  omega

theorem fltWrap_bounds (fn : Nat) (s : State) : 0 < fltWrap fn s ∧ fltWrap fn s < 2 ^ 32 := by
  obtain ⟨-, hle⟩ := fltLog2_bounds fn s
  have hslots := fltSlots_ge fn s
  have hsplit : 2 ^ fltLog2 fn s * 2 ^ (32 - fltLog2 fn s) = 2 ^ 32 := by rw [← Nat.pow_add]; congr 1; omega
  have hpos : 0 < 2 ^ (32 - fltLog2 fn s) := Nat.pow_pos (by omega)
  refine ⟨Nat.mul_pos (by omega) hpos, ?_⟩
  rw [fltWrap, Nat.sub_mul, hsplit]
  omega

theorem fltLog2_congr {fn : Nat} {s t : State} (h : getReg pgMmu fn 0x134 t = getReg pgMmu fn 0x134 s) : fltLog2 fn t = fltLog2 fn s := by
  rw [fltLog2, fltLog2, getFld, getFld, h]

theorem fltWrap_congr {fn : Nat} {s t : State} (h : getReg pgMmu fn 0x134 t = getReg pgMmu fn 0x134 s) : fltWrap fn t = fltWrap fn s := by
  rw [fltWrap, fltWrap, fltLog2_congr h]

theorem fltHeld_congr {fn : Nat} {s t : State} (h : getReg pgMmu fn 0x134 t = getReg pgMmu fn 0x134 s)
    (hp : getReg pgMmu fn 0x140 t = getReg pgMmu fn 0x140 s) (hc : getReg pgMmu fn 0x144 t = getReg pgMmu fn 0x144 s) :
    fltHeld fn t = fltHeld fn s := by
  unfold fltHeld
  rw [fltWrap_congr h, hp, hc]

theorem fltHeld_empty {fn : Nat} {s : State} (hp : getReg pgMmu fn 0x140 s = 0) (hc : getReg pgMmu fn 0x144 s = 0) : fltHeld fn s = 0 := by
  simp [fltHeld, hp, hc]

/-- FULL after it is recomputed. -/
theorem bit_fltSetFull (fn : Nat) (s : State) :
    bit (getReg pgMmu fn 0x14C (fltSetFull fn s)) 0 = decide (fltHeld fn s = 2 ^ fltLog2 fn s - 1) :=
  bit_setFld_self pgMmu fn 0x14C (by omega) _ s

theorem getReg_fltSetFull {off : Nat} (ho : off < 65536) (hne : off ≠ 0x14C) (b fn : Nat) (s : State) :
    getReg pgMmu b off (fltSetFull fn s) = getReg pgMmu b off s := getReg_mmu_setReg ho (by omega) hne _ s

theorem fltHeld_tidyMem (fn : Nat) (s : State) : fltHeld fn (tidyMem s) = fltHeld fn s :=
  fltHeld_congr (getReg_tidyMem _ _ _ s) (getReg_tidyMem _ _ _ s) (getReg_tidyMem _ _ _ s)

theorem fltHeld_fltSetFull (fn : Nat) (s : State) : fltHeld fn (fltSetFull fn s) = fltHeld fn s := by
  refine fltHeld_congr ?_ ?_ ?_ <;> exact getReg_fltSetFull (by omega) (by omega) fn fn s

theorem altersRegs_fltSetFull {R : Nat → Prop} {fn : Nat} (h : R (rk pgMmu fn 0x14C)) (s : State) : AltersRegs R s (fltSetFull fn s) :=
  altersRegs_setReg h _ s

/-! ## The write of FLTQ_CTL (R161, R165) -/

/-- What a write of FLTQ_CTL stores: no host page on a device that hosts itself, and the old size while the ring is enabled. -/
def fltCtlValue (v : Word) (s : State) : Word :=
  let v := if selfHosted s then v &&& ~~~ 2#32 else v
  let cur := getReg pgMmu (fltSel s) 0x134 s
  if bit cur 0 then putFld v 8 4 (fld cur 8 4) else v

theorem fltqCtlWrite_eq (v : Word) (s : State) : fltqCtlWrite v s =
    if !(bit (getReg pgMmu (fltSel s) 0x134 s) 0) && bit (fltCtlValue v s) 0 then
      fltSetFull (fltSel s) (setFld pgMmu (fltSel s) 0x14C 1 1 0 (setReg pgMmu (fltSel s) 0x140 0
        (setReg pgMmu (fltSel s) 0x144 0 (writeByType pgMmu (fltSel s) 0x134 (fltCtlValue v s) s))))
    else if bit (getReg pgMmu (fltSel s) 0x134 s) 0 && !(bit (fltCtlValue v s) 0) then
      dropWaiting (fltSel s) (writeByType pgMmu (fltSel s) 0x134 (fltCtlValue v s) s)
    else fltSetFull (fltSel s) (writeByType pgMmu (fltSel s) 0x134 (fltCtlValue v s) s) := rfl

/-- The stored value differs from the written one in HOST, and in the size of an enabled ring. -/
theorem bit_fltCtlValue {k : Nat} (hk : k < 32) (h1 : k ≠ 1) {s : State} (v : Word)
    (h : bit (getReg pgMmu (fltSel s) 0x134 s) 0 = true → k < 8 ∨ 12 ≤ k) : bit (fltCtlValue v s) k = bit v k := by
  have hhost : bit (if selfHosted s then v &&& ~~~ 2#32 else v) k = bit v k := by
    split
    · rw [bit_and, bit_not _ hk]
      have : bit 2#32 k = false := by
        have hbits : ∀ k : Fin 32, k.val ≠ 1 → bit 2#32 k.val = false := by decide
        exact hbits ⟨k, hk⟩ h1
      rw [this, Bool.not_false, Bool.and_true]
    · rfl
  unfold fltCtlValue
  simp only
  split
  · next hen =>
    rw [bit_putFld _ _ _ _ _ hk, if_neg (by have := h hen; omega), hhost]
  · exact hhost

/-- A bit of FLTQ_CTL after a write: every field is one that is written. -/
theorem bit_fltCtl_writeByType {f : Fld} (hf : f ∈ regFields pgMmu 0x134) (ha : f.acc = .rw) {k : Nat} (hk : f.has k = true) (b : Nat)
    (v : Word) (s : State) : bit (getReg pgMmu b 0x134 (writeByType pgMmu b 0x134 v s)) k = bit v k := by
  rw [bit_writeByType hf hk, ha, newBit]

theorem bit_fltEn_writeByType (b : Nat) (v : Word) (s : State) : bit (getReg pgMmu b 0x134 (writeByType pgMmu b 0x134 v s)) 0 = bit v 0 :=
  bit_fltCtl_writeByType (f := ⟨0, 1, .rw, 0⟩) (by decide) rfl (by decide) b v s

theorem fld_low_two {w : Word} (h0 : bit w 0 = false) (h1 : bit w 1 = false) : fld w 0 2 = 0 := by
  have h : fld w 0 2 = fld (0 : Word) 0 2 := fld_congr fun k _ hk => by
    have hk : k = 0 ∨ k = 1 := by omega
    rcases hk with rfl | rfl
    · exact h0
    · exact h1
  rw [h]
  rfl

/-! ## The states of a ring that is enabled or disabled (R165) -/

/-- The selected ring with its counts and its status cleared. -/
def fltEmptied (fn : Nat) (s : State) : State :=
  fltSetFull fn (setFld pgMmu fn 0x14C 1 1 0 (setReg pgMmu fn 0x140 0 (setReg pgMmu fn 0x144 0 s)))

theorem fltEmptied_empty (fn : Nat) (s : State) : getReg pgMmu fn 0x134 (fltEmptied fn s) = getReg pgMmu fn 0x134 s ∧
    getReg pgMmu fn 0x140 (fltEmptied fn s) = 0 ∧ getReg pgMmu fn 0x144 (fltEmptied fn s) = 0 ∧
    getFld pgMmu fn 0x14C 0 2 (fltEmptied fn s) = 0 := by
  have hprod : getReg pgMmu fn 0x140 (setFld pgMmu fn 0x14C 1 1 0 (setReg pgMmu fn 0x140 0 (setReg pgMmu fn 0x144 0 s))) = 0 := by
    rw [getReg_mmu_setFld (by omega) (by omega) (by omega), getReg_setReg_self]
  have hcons : getReg pgMmu fn 0x144 (setFld pgMmu fn 0x14C 1 1 0 (setReg pgMmu fn 0x140 0 (setReg pgMmu fn 0x144 0 s))) = 0 := by
    rw [getReg_mmu_setFld (by omega) (by omega) (by omega), getReg_mmu_setReg (by omega) (by omega) (by omega), getReg_setReg_self]
  unfold fltEmptied
  refine ⟨?_, ?_, ?_, fld_low_two ?_ ?_⟩
  · rw [getReg_fltSetFull (by omega) (by omega), getReg_mmu_setFld (by omega) (by omega) (by omega),
      getReg_mmu_setReg (by omega) (by omega) (by omega), getReg_mmu_setReg (by omega) (by omega) (by omega)]
  · rw [getReg_fltSetFull (by omega) (by omega), hprod]
  · rw [getReg_fltSetFull (by omega) (by omega), hcons]
  · rw [bit_fltSetFull, fltHeld_empty hprod hcons]
    have := fltSlots_ge fn (setFld pgMmu fn 0x14C 1 1 0 (setReg pgMmu fn 0x140 0 (setReg pgMmu fn 0x144 0 s)))
    simp only [decide_eq_false_iff_not]
    omega
  · rw [fltSetFull, bit_setFld_ne _ _ _ _ _ _ (by omega), bit_setFld_zero _ _ _ (by omega)]

theorem altersRegs_fltEmptied (fn : Nat) (s : State) :
    AltersRegs (fun k => ∃ o ∈ [0x134, 0x140, 0x144, 0x14C], k = rk pgMmu fn o) s (fltEmptied fn s) := by
  have hset {o : Nat} (ho : o ∈ [0x134, 0x140, 0x144, 0x14C]) (v : Word) (u : State) :=
    altersRegs_setReg (R := fun k => ∃ o ∈ [0x134, 0x140, 0x144, 0x14C], k = rk pgMmu fn o) (pg := pgMmu) (bank := fn) ⟨o, ho, rfl⟩ v u
  exact (((hset (by simp) _ s).trans (hset (by simp) _ _)).trans (hset (by simp) _ _)).trans (hset (by simp) _ _)

theorem dropWaiting_none {fn : Nat} {s : State} (h : ∀ p ∈ s.mmu.posts, p.fn ≠ fn) : dropWaiting fn s = s := by
  have hnone : s.mmu.posts.filter (fun p => p.fn == fn) = [] := by simpa [List.filter_eq_nil_iff] using h
  simp only [dropWaiting, hnone, List.foldl_nil]

/-- The registers of an event in a Basin view. -/
def viewRegs (k : Nat) : Prop := headRegs k ∨ k / 65536 / 512 = pgFv

theorem viewRegs_mmu {fn off : Nat} (hfn : fn < 512) (ho : 0x100 ≤ off) (ho' : off < 65536) : ¬ viewRegs (rk pgMmu fn off) := by
  simp only [viewRegs, headRegs, rk, pgMmu, pgFv]
  omega

theorem viewRegs_viewEvent {fn k : Nat} (hfn : fn < 512) (hk : k < 8) (slot q seq : Nat) (s : State) :
    OtherRegs viewRegs s (viewEvent fn k slot q seq s) := by
  have hset {u : State} {off : Nat} (h : OtherRegs viewRegs s u) (ho : off < 65536) (v : Word) : OtherRegs viewRegs s (setReg pgFv fn off v u) :=
    h.setReg (.inr (by simp only [rk]; omega)) v
  have hirq {u : State} (h : OtherRegs viewRegs s u) (v : Nat) (hv : v < 2048) : OtherRegs viewRegs s (sendMsix fn v u) :=
    h.trans ((headRegs_sendMsix fn hv u).mono fun _ => .inl)
  have hcount (w w' : Word) := hset (off := 0x108 + 4 * k) (hset (off := 0x100) (.refl _ s) (by omega) w) (by omega) w'
  have hlast (w w' v v' : Word) := hset (off := 0x12C) (hset (off := 0x128) (hcount w w') (by omega) v) (by omega) v'
  unfold viewEvent
  simp only
  split_ifs
  · exact hirq (hcount _ _) _ (getFld_lt _ _ _ _ 11 _)
  · exact hcount _ _
  · exact hirq (hlast _ _ _ _) _ (getFld_lt _ _ _ _ 11 _)
  · exact hlast _ _ _ _

/-- The registers of a dropped record besides its count. -/
theorem viewRegs_dropCounted {fn : Nat} (hfn : fn < 512) (rq chan : Nat) (j : JobRef) (s : State) :
    OtherRegs viewRegs (count32 pgMmu fn 0x148 s) (dropCounted fn rq chan j s) :=
  ((headRegs_recordLost _ _ _).mono fun _ => .inl).trans (viewRegs_viewEvent hfn (by omega) _ _ _ _)

/-- A register of the MMU's page that no dropped record writes. -/
theorem getReg_dropCounted {fn off : Nat} (hfn : fn < 512) (ho : 0x100 ≤ off) (ho' : off < 65536) (hne : off ≠ 0x148) (rq chan : Nat) (j : JobRef)
    (s : State) : getReg pgMmu fn off (dropCounted fn rq chan j s) = getReg pgMmu fn off s := by
  rw [(viewRegs_dropCounted hfn rq chan j s).getReg (viewRegs_mmu hfn ho ho'), count32, addFld,
    getReg_mmu_setFld ho' (by omega) hne]

/-- The control of a ring is kept when a record is dropped. -/
theorem fltCtl_fltDrop {fn : Nat} (hfn : fn < 512) (rq chan : Nat) (j : JobRef) (rec : Nat → List Byte) (s : State) :
    getReg pgMmu fn 0x134 (fltDrop fn rq chan j rec s) = getReg pgMmu fn 0x134 s := by
  have hlost := getReg_dropCounted hfn (off := 0x134) (by omega) (by omega) (by omega) rq chan j s
  unfold dropCounted at hlost
  have hput {u : State} (host : Bool) (a n : Nat) (h : getReg pgMmu fn 0x134 u = getReg pgMmu fn 0x134 s) :
      getReg pgMmu fn 0x134 (setFld pgMmu fn 0x14C 1 1 1 (ringPut fn host a (rec n) u)) = getReg pgMmu fn 0x134 s := by
    rw [getReg_mmu_setFld (by omega) (by omega) (by omega)]
    unfold ringPut
    split
    · exact h
    · rw [(storeKept_hbmPut a (rec n) u).regs.getReg (by simp only [storeRegs, headRegs, rk, pgMmu, pgHbc]; omega), h]
  unfold fltDrop
  simp only
  split_ifs
  · rw [(headRegs_sendMsix 0 (getFld_lt _ _ _ _ 11 _) _).getReg fun h => viewRegs_mmu hfn (by omega) (by omega) (.inl h)]
    exact hput _ _ _ hlost
  · exact hput _ _ _ hlost
  · exact hlost

/-- The control of a ring is kept when its waiting posts are dropped. -/
theorem fltCtl_dropWaiting {fn : Nat} (hfn : fn < 512) (s : State) : getReg pgMmu fn 0x134 (dropWaiting fn s) = getReg pgMmu fn 0x134 s := by
  refine foldl_keeps (getReg pgMmu fn 0x134) _ _ (fun u p _ => ?_) s
  split
  · rfl
  · next x _ =>
    simp only
    rw [(chanFreed_chanEnd p.chan x 1 0x0016 p.va _).regs.getReg (rk_mmu_ne (by omega) (by omega) (by omega)), fltCtl_fltDrop hfn,
      (viewRegs_viewEvent hfn (by omega) _ _ _ _).getReg (viewRegs_mmu hfn (by omega) (by omega))]

/-- The transfer that waits to post on a ring that is disabled ends, with its record dropped. -/
theorem dropWaiting_one {fn : Nat} {p : WaitPost} {x : Chan} {s : State} (hfn : fn < 512) (hposts : s.mmu.posts = [p]) (hp : p.fn = fn)
    (hx : chanOf p.chan s = some x) (hen : bit (getReg pgMmu fn 0x134 s) 0 = false) :
    ∃ (rq c : Nat) (j : JobRef) (v : State), PostKept s v ∧ OtherRegs viewRegs s v ∧
      dropWaiting fn s = chanEnd p.chan x 1 0x0016 p.va (dropCounted fn rq c j v) := by
  have hone : s.mmu.posts.filter (fun p => p.fn == fn) = [p] := by simp [hposts, hp]
  have hview := viewRegs_viewEvent (k := 1) hfn (by omega) (jobRef x.job s).slot (jobRef x.job s).queue (nextSeq (jobRef x.job s) s) s
  have hkept := postKept_viewEvent (k := 1) fn (by omega) (jobRef x.job s).slot (jobRef x.job s).queue (nextSeq (jobRef x.job s) s) s
  refine ⟨rqDma (p.chan / 16), p.chan % 16, jobRef x.job s, _, hkept, hview, ?_⟩
  simp only [dropWaiting, hone, List.foldl_cons, List.foldl_nil, hx]
  rw [fltDrop_disabled]
  rw [getReg_dropCounted hfn (by omega) (by omega) (by omega), hview.getReg (viewRegs_mmu hfn (by omega) (by omega)), hen]

/-- What the drop leaves: the channel is free, no post waits, the record is counted once. -/
theorem dropWaiting_ends {fn : Nat} {p : WaitPost} {x : Chan} {s : State} (hfn : fn < 512) (hposts : s.mmu.posts = [p]) (hp : p.fn = fn)
    (hx : chanOf p.chan s = some x) (hen : bit (getReg pgMmu fn 0x134 s) 0 = false) (hjob : JobRuns x.job s) :
    chanOf p.chan (dropWaiting fn s) = none ∧ (dropWaiting fn s).mmu.posts = [] ∧ JobFault x.job 0x16 p.va (dropWaiting fn s) ∧
      (getReg pgMmu fn 0x148 (dropWaiting fn s)).toNat = min (2 ^ 32 - 1) ((getReg pgMmu fn 0x148 s).toNat + 1) := by
  obtain ⟨rq, c, j, v, hkept, hview, hdrop⟩ := dropWaiting_one hfn hposts hp hx hen
  have hcounted := hkept.trans (postKept_dropCounted fn rq c j v)
  have hfreed := chanFreed_chanEnd p.chan x 1 0x0016 p.va (dropCounted fn rq c j v)
  have hregs := viewRegs_dropCounted hfn rq c j v
  rw [hdrop]
  refine ⟨hfreed.chanOf_self, ?posts, fin_chanEnd (jobRuns_of_fe hjob hcounted.fe) _ _ _ _, ?count⟩
  case posts => simp [hfreed.posts, hcounted.mmu, hposts]
  case count =>
    rw [hfreed.regs.getReg (rk_mmu_ne (by omega) (by omega) (by omega)), hregs.getReg (viewRegs_mmu hfn (by omega) (by omega)), count32,
      getReg_addFld_whole, hview.getReg (viewRegs_mmu hfn (by omega) (by omega))]

/-! ## The post of a record (R163, R164) -/

theorem length_fltRecord (va : Nat) (j : JobRef) (typ idx cause level : Nat) (wr ex retry : Bool) (seq token bytes : Nat) (s : State) :
    (fltRecord va j typ idx cause level wr ex retry seq token bytes s).length = 32 := by simp [fltRecord, length_toLE]

/-- A record is posted to a ring in HBM: it stands in its slot, and the producer count is one more. -/
theorem fltPost_hbm {fn : Nat} {s : State} (hfn : fn < 512) (hhost : (fltBase fn s).1 = false) (rec : Nat → List Byte) :
    ((fltPost fn rec s).mem.hbm = (hbmPut ((fltBase fn s).2 + 32 * ((getReg pgMmu fn 0x140 s).toNat % (2 ^ fltLog2 fn s - 1)))
        (rec (getReg pgMmu fn 0x140 s).toNat) s).mem.hbm ∧
      (fltPost fn rec s).hbc.stale = (hbmPut ((fltBase fn s).2 + 32 * ((getReg pgMmu fn 0x140 s).toNat % (2 ^ fltLog2 fn s - 1)))
        (rec (getReg pgMmu fn 0x140 s).toNat) s).hbc.stale) ∧
    (getReg pgMmu fn 0x140 (fltPost fn rec s)).toNat = ((getReg pgMmu fn 0x140 s).toNat + 1) % fltWrap fn s := by
  obtain ⟨hpos, hlt⟩ := fltWrap_bounds fn s
  have hput := (storeKept_hbmPut ((fltBase fn s).2 + 32 * ((getReg pgMmu fn 0x140 s).toNat % (2 ^ fltLog2 fn s - 1)))
    (rec (getReg pgMmu fn 0x140 s).toNat) s).regs
  have hctl := hput.getReg (pg := pgMmu) (bank := fn) (off := 0x134) (by simp only [storeRegs, headRegs, rk, pgMmu, pgHbc]; omega)
  unfold fltPost
  simp only [ringPut, hhost, Bool.false_eq_true, if_false]
  generalize hbmPut _ (rec (getReg pgMmu fn 0x140 s).toNat) s = u at hctl ⊢
  have hprod : (getReg pgMmu fn 0x140 (fltSetFull fn (setReg pgMmu fn 0x140 (w32 (((getReg pgMmu fn 0x140 s).toNat + 1) % fltWrap fn u)) u))).toNat =
      ((getReg pgMmu fn 0x140 s).toNat + 1) % fltWrap fn s := by
    rw [getReg_fltSetFull (by omega) (by omega), getReg_setReg_self, fltWrap_congr hctl, w32, BitVec.toNat_ofNat]
    exact Nat.mod_eq_of_lt ((Nat.mod_lt _ hpos).trans hlt)
  split
  · have hirq (v : State) (n : Nat) : (sendMsix 0 n v).mem = v.mem ∧ (sendMsix 0 n v).hbc = v.hbc := by
      unfold sendMsix
      split_ifs <;> exact ⟨rfl, rfl⟩
    refine ⟨⟨by rw [(hirq _ _).1]; rfl, by rw [(hirq _ _).2]; rfl⟩, ?_⟩
    rw [(headRegs_sendMsix 0 (getFld_lt _ _ _ _ 11 _) _).getReg fun h => viewRegs_mmu hfn (by omega) (by omega) (.inl h)]
    exact hprod
  · exact ⟨⟨rfl, rfl⟩, hprod⟩

theorem fltSpace_iff {fn : Nat} {s : State} :
    fltSpace fn s = true ↔ bit (getReg pgMmu fn 0x134 s) 0 = true ∧ fltHeld fn s < 2 ^ fltLog2 fn s - 1 := by
  simp [fltSpace]

/-- The oldest waiting post of a ring with room: its channel stalls, and its record is posted. -/
theorem postWaiting_posts {fn : Nat} {p : WaitPost} {x : Chan} {s : State} (hfind : s.mmu.posts.find? (fun p => p.fn == fn) = some p)
    (hspace : fltSpace fn s = true) (hx : chanOf p.chan s = some x) :
    postWaiting fn s = fltPost fn (retryRecord p.chan x.job p.va p.cause p.level p.write s)
      (setChan p.chan { x with st := .stalled } { s with mmu := { s.mmu with posts := s.mmu.posts.erase p } }) := by
  simp only [postWaiting, hfind, hspace, if_true]
  have hx' : chanOf p.chan { s with mmu := { s.mmu with posts := s.mmu.posts.erase p } } = some x := hx
  rw [hx']
  rfl

theorem faultPostWaiting_posts {f : Fin 64} {p : WaitPost} {x : Chan} {prod : Nat} {s : State}
    (hfind : s.mmu.posts.find? (fun p => p.fn == f.val) = some p) (hx : chanOf p.chan s = some x)
    (hen : bit (getReg pgMmu f.val 0x134 s) 0 = true) (hroom : fltHeld f.val s < 2 ^ fltLog2 f.val s - 1)
    (hprod : prod = (getReg pgMmu f.val 0x140 s).toNat) (hhost : (fltBase f.val s).1 = false) (hpend : s.hbc.pendInv = []) :
    ∃ t, exec (.faultPostWaiting f) s = .next t ∧ t.mmu.posts = s.mmu.posts.erase p ∧
      chanOf p.chan t = some { x with st := .stalled } ∧
      (getReg pgMmu f.val 0x140 t).toNat = (prod + 1) % fltWrap f.val s ∧
      hbmBytes ((fltBase f.val s).2 + 32 * (prod % (2 ^ fltLog2 f.val s - 1))) 32 t =
        retryRecord p.chan x.job p.va p.cause p.level p.write s prod ∧
      HbmKept ((fltBase f.val s).2 + 32 * (prod % (2 ^ fltLog2 f.val s - 1))) 32 s t ∧ t.fe = s.fe := by
  subst hprod
  rw [exec_faultPostWaiting, postWaiting_posts hfind (fltSpace_iff.2 ⟨hen, hroom⟩) hx]
  generalize hrec : retryRecord p.chan x.job p.va p.cause p.level p.write s = rec
  have hlen (n : Nat) : (rec n).length = 32 := by
    rw [← hrec]
    exact length_fltRecord _ _ _ _ _ _ _ _ _ _ _ _ _
  generalize hu : setChan p.chan { x with st := .stalled } { s with mmu := { s.mmu with posts := s.mmu.posts.erase p } } = u
  have huregs : u.regs = s.regs := by rw [← hu]; rfl
  have hureg (off : Nat) : getReg pgMmu f.val off u = getReg pgMmu f.val off s := by rw [getReg, getReg, huregs]
  have hbase : fltBase f.val u = fltBase f.val s := by rw [← hu]; rfl
  have hlog := fltLog2_congr (hureg 0x134)
  obtain ⟨hmem, hcount⟩ := fltPost_hbm (fn := f.val) (s := u) (by omega) (by rw [hbase, hhost]) rec
  have hkept := postKept_fltPost f.val rec u
  rw [hureg, hlog, hbase] at hmem
  rw [hureg, fltWrap_congr (hureg 0x134)] at hcount
  have hholds := hbmHolds_hbmPut (s := u) (by rw [← hu]; exact hpend)
    ((fltBase f.val s).2 + 32 * ((getReg pgMmu f.val 0x140 s).toNat % (2 ^ fltLog2 f.val s - 1))) (rec (getReg pgMmu f.val 0x140 s).toNat)
  obtain ⟨hbytes, hothers⟩ := hholds.framed hpend (.of_eq (by rw [← hu]; rfl) (by rw [← hu]; rfl)) hmem
  rw [hlen] at hbytes hothers
  refine ⟨_, rfl, ?_, ?_, hcount, hbytes, hothers, ?_⟩
  · change (fltPost f.val rec u).mmu.posts = _
    rw [hkept.mmu, ← hu]
    rfl
  · change chanOf p.chan (fltPost f.val rec u) = _
    rw [chanOf, hkept.dma, ← hu]
    exact tabFind_set_self _ _ _
  · change (fltPost f.val rec u).fe = _
    rw [hkept.fe, ← hu]
    rfl

/-! ## The writes that software makes (R163, R165) -/

theorem fltqEnable_empties {r : Requester} {v : Word} {s : State} (hheard : Heard r pgMmu 0x134 s = true) (hv : bit v 0 = true)
    (hoff : bit (getReg pgMmu (fltSel s) 0x134 s) 0 = false) :
    ∃ t, exec (.fltqEnable r v) s = .next t ∧ bit (getReg pgMmu (fltSel s) 0x134 t) 0 = true ∧
      getFld pgMmu (fltSel s) 0x134 8 4 t = fld v 8 4 ∧ getFld pgMmu (fltSel s) 0x134 16 11 t = fld v 16 11 ∧
      getReg pgMmu (fltSel s) 0x140 t = 0 ∧ getReg pgMmu (fltSel s) 0x144 t = 0 ∧
      getFld pgMmu (fltSel s) 0x14C 0 2 t = 0 ∧
      OtherRegs (fun k => ∃ o ∈ [0x134, 0x140, 0x144, 0x14C], k = rk pgMmu (fltSel s) o) s t ∧ RegsOnly s t := by
  have hvalue {k : Nat} (hk : k < 32) (h1 : k ≠ 1) : bit (fltCtlValue v s) k = bit v k :=
    bit_fltCtlValue hk h1 v fun hon => absurd (hoff.symm.trans hon) (by decide)
  have hen := (hvalue (k := 0) (by omega) (by omega)).trans hv
  rw [exec_fltqEnable, if_pos hv, blockWrite_heard hheard, fltqCtlWrite_eq, hoff, hen]
  generalize hu : writeByType pgMmu (fltSel s) 0x134 (fltCtlValue v s) s = u
  have hwritten : AltersRegs (fun k => ∃ o ∈ [0x134, 0x140, 0x144, 0x14C], k = rk pgMmu (fltSel s) o) s u := by
    rw [← hu]
    exact altersRegs_writeByType ⟨0x134, by simp, rfl⟩ _ s
  have halters := hwritten.trans (altersRegs_fltEmptied (fltSel s) u)
  obtain ⟨hctl, hprod, hcons, hsts⟩ := fltEmptied_empty (fltSel s) u
  have hfield {f : Fld} (hf : f ∈ regFields pgMmu 0x134) (ha : f.acc = .rw) (h1 : 2 ≤ f.lo) (h32 : f.lo + f.wd ≤ 32) :
      getFld pgMmu (fltSel s) 0x134 f.lo f.wd (fltEmptied (fltSel s) u) = fld v f.lo f.wd := by
    rw [getFld, hctl, ← hu]
    refine fld_congr fun k hlo hhi => ?_
    rw [bit_fltCtl_writeByType hf ha (Fld.has_iff.2 ⟨hlo, hhi⟩), hvalue (by omega) (by omega)]
  refine ⟨_, rfl, ?_, hfield (f := ⟨8, 4, .rw, 6⟩) (by decide) rfl (by decide) (by decide),
    hfield (f := ⟨16, 11, .rw, 0⟩) (by decide) rfl (by decide) (by decide), hprod, hcons, hsts, halters.1, halters.regsOnly⟩
  change bit (getReg pgMmu (fltSel s) 0x134 (fltEmptied (fltSel s) u)) 0 = true
  rw [hctl, ← hu, bit_fltEn_writeByType, hen]

theorem fltqDisable_drops {r : Requester} {v : Word} {s : State} (hheard : Heard r pgMmu 0x134 s = true) (hv : bit v 0 = false)
    (hon : bit (getReg pgMmu (fltSel s) 0x134 s) 0 = true) :
    exec (.fltqDisable r v) s = .next (tidyMem (dropWaiting (fltSel s) (writeByType pgMmu (fltSel s) 0x134 (fltCtlValue v s) s))) ∧
      bit (getReg pgMmu (fltSel s) 0x134 (writeByType pgMmu (fltSel s) 0x134 (fltCtlValue v s) s)) 0 = false := by
  have hen : bit (fltCtlValue v s) 0 = false := (bit_fltCtlValue (k := 0) (by omega) (by omega) v fun _ => .inl (by omega)).trans hv
  rw [exec_fltqDisable, if_neg (by simp [hv]), blockWrite_heard hheard, fltqCtlWrite_eq, hon, hen, bit_fltEn_writeByType, hen]
  exact ⟨rfl, rfl⟩

theorem fltqConsWrite_refuses {v : Word} {w held : Nat} {s : State} (hw : w = fltWrap (fltSel s) s)
    (hheld : held = ((getReg pgMmu (fltSel s) 0x140 s).toNat + w - v.toNat % w) % w)
    (h : w ≤ v.toNat ∨ 2 ^ fltLog2 (fltSel s) s - 1 < held) : fltqConsWrite v s = s := by
  subst hheld hw
  unfold fltqConsWrite
  rw [bankOf_fltCons]
  exact if_pos h

theorem fltqConsWrite_takes {v : Word} {w held : Nat} {s : State} (hw : w = fltWrap (fltSel s) s)
    (hheld : held = ((getReg pgMmu (fltSel s) 0x140 s).toNat + w - v.toNat % w) % w) (hv : v.toNat < w)
    (hroom : held ≤ 2 ^ fltLog2 (fltSel s) s - 1) :
    fltqConsWrite v s = fltSetFull (fltSel s) (setReg pgMmu (fltSel s) 0x144 v s) ∧
      fltHeld (fltSel s) (setReg pgMmu (fltSel s) 0x144 v s) = held := by
  subst hheld hw
  have hctl : getReg pgMmu (fltSel s) 0x134 (setReg pgMmu (fltSel s) 0x144 v s) = getReg pgMmu (fltSel s) 0x134 s :=
    getReg_mmu_setReg (by omega) (by omega) (by omega) v s
  constructor
  · unfold fltqConsWrite
    rw [bankOf_fltCons]
    exact if_neg (by simp only [not_or, not_le, not_lt]; exact ⟨hv, hroom⟩)
  · unfold fltHeld
    rw [fltWrap_congr hctl, getReg_setReg_self, getReg_mmu_setReg (by omega) (by omega) (by omega)]

/-- Settles O32: the counts of a ring stand in registers that no step of a post, a drop or an end writes but its own. -/
theorem faultRingsPostInOrder : Obligations.FaultRingsPostInOrder := by
  unfold Obligations.FaultRingsPostInOrder
  refine ⟨fun r v s => fltqEnable_empties, fun r v s hheard hv hon => ?disable,
    fun r v w held s hheard hw hheld => ⟨fun hv hroom => ?taken, fun h => ?refused⟩,
    fun f p x prod s => faultPostWaiting_posts⟩
  case disable =>
    obtain ⟨hexec, hen⟩ := fltqDisable_drops hheard hv hon
    generalize hu : writeByType pgMmu (fltSel s) 0x134 (fltCtlValue v s) s = u at hexec hen
    have hwritten : AltersRegs (fun k => k = rk pgMmu (fltSel s) 0x134) s u := by
      rw [← hu]
      exact altersRegs_setReg (by rfl) _ s
    have hpost {p : WaitPost} {x : Chan} (hposts : s.mmu.posts = [p]) (hp : p.fn = fltSel s) (hx : chanOf p.chan s = some x)
        (hjob : JobRuns x.job s) := dropWaiting_ends (s := u) (fn := fltSel s) (p := p) (x := x) (by have := fltSel_lt s; omega) (by rw [hwritten.2, hposts]) hp
        (by rw [hwritten.2]; exact hx) hen (by rw [hwritten.2]; exact hjob)
    have hcount : getReg pgMmu (fltSel s) 0x148 u = getReg pgMmu (fltSel s) 0x148 s :=
      hwritten.1.getReg (rk_mmu_ne (by omega) (by omega) (by omega))
    refine ⟨_, hexec, ?_, fun hnone => ?_, fun p x hposts hp hx hjob => ?_⟩
    · rw [getReg_tidyMem, fltCtl_dropWaiting (by have := fltSel_lt s; omega), hen]
    · rw [dropWaiting_none (by rw [hwritten.2]; exact hnone)]
      exact ⟨hwritten.1, hwritten.regsOnly⟩
    · obtain ⟨hchan, hposts', hfault, hdropped⟩ := hpost hposts hp hx hjob
      exact ⟨hchan, hposts', hfault, by rw [getReg_tidyMem, hdropped, hcount]⟩
  case taken =>
    obtain ⟨hstate, hholds⟩ := fltqConsWrite_takes hw hheld hv hroom
    rw [exec_fltqConsWrite, blockWrite_heard hheard, hstate]
    have halters : AltersRegs (fun k => k = rk pgMmu (fltSel s) 0x144 ∨ k = rk pgMmu (fltSel s) 0x14C) s
        (fltSetFull (fltSel s) (setReg pgMmu (fltSel s) 0x144 v s)) :=
      (altersRegs_setReg (.inl rfl) v s).trans (altersRegs_fltSetFull (.inr rfl) _)
    have hlog : fltLog2 (fltSel s) (setReg pgMmu (fltSel s) 0x144 v s) = fltLog2 (fltSel s) s :=
      fltLog2_congr (getReg_mmu_setReg (by omega) (by omega) (by omega) v s)
    refine ⟨_, rfl, ?_, ?_, ?_, halters.1, halters.regsOnly⟩
    · rw [getReg_tidyMem, getReg_fltSetFull (by omega) (by omega), getReg_setReg_self]
    · rw [fltHeld_tidyMem, fltHeld_fltSetFull, hholds]
    · rw [getReg_tidyMem, bit_fltSetFull, hholds, hlog]
  case refused => rw [exec_fltqConsWrite, blockWrite_heard hheard, fltqConsWrite_refuses hw hheld h]

end Sys2Proof.Machine

/-!
PROOFS. The transfers of the DMA engines (R166, R173, R470).
-/
namespace Sys2Proof.Machine
open Sys2Proof.Claims

/-! ## What a transfer keeps while it runs (R166, R173) -/

theorem exec_dmaChannelAssign (n : Fin 4) (s : State) : exec (.dmaChannelAssign n) s = .next (tidyMem (assign n.val s)) := rfl

theorem exec_dmaTransferEnd (n : Fin 4) (c : Fin 16) (s : State) : exec (.dmaTransferEnd n c) s = .next (tidyMem (transferEnd n.val c.val s)) := rfl

theorem exec_dmaXlateFault (n : Fin 4) (c : Fin 16) (s : State) : exec (.dmaXlateFault n c) s = .next (tidyMem (xlateFault n.val c.val s)) := rfl

/-- What a run of a transfer leaves: all that an access keeps, and the channel's job and slot. -/
structure TransferKept (c : Chan) (s : State) (r : (Chan × Option Stop) × State) : Prop where
  access : AccessKept s r.2
  job : r.1.1.job = c.job
  slot : r.1.1.slot = c.slot

theorem transferKept_stop {c : Chan} {s t : State} (h : AccessKept s t) (o : Option Stop) : TransferKept c s ((c, o), t) := ⟨h, rfl, rfl⟩

/-- A run that goes on after an access, with the channel's progress changed. -/
theorem TransferKept.after {c c' : Chan} {s t : State} {r : (Chan × Option Stop) × State} (h : TransferKept c' t r) (ht : AccessKept s t)
    (hjob : c'.job = c.job) (hslot : c'.slot = c.slot) : TransferKept c s r where
  access := ht.trans h.access
  job := h.job.trans hjob
  slot := h.slot.trans hslot

theorem TransferKept.ite {c : Chan} {s : State} {r r' : (Chan × Option Stop) × State} (p : Prop) [Decidable p] (h : TransferKept c s r)
    (h' : TransferKept c s r') : TransferKept c s (if p then r else r') := by
  split
  · exact h
  · exact h'

theorem transferKept_copyRun (n slot src dst len : Nat) : ∀ (fuel : Nat) (c : Chan) (s : State),
    TransferKept c s (copyRun n slot src dst len fuel c s)
  | 0, _, s => transferKept_stop (.refl s) none
  | fuel + 1, c, s => by
    have hahead := (accessKept_prefetch (rqDma n) slot (src + c.done) (len - c.done) s).trans
      (accessKept_prefetch (rqDma n) slot (dst + c.done) (len - c.done) _)
    generalize hu : prefetch (rqDma n) slot (dst + c.done) (len - c.done) (prefetch (rqDma n) slot (src + c.done) (len - c.done) s) = u at hahead
    have hdest := hahead.trans (accessKept_translate (rqDma n) slot (src + c.done) .rd u)
    unfold copyRun
    simp only [hu]
    split
    · exact transferKept_stop (.refl s) none
    · split
      · next heq => rw [heq] at hdest; exact transferKept_stop hdest _
      · next heq => rw [heq] at hdest; exact transferKept_stop hdest _
      · next v _ heq =>
        rw [heq] at hdest
        generalize min (len - c.done) (min (pageLeft (src + c.done)) (pageLeft (dst + c.done))) = k
        have hread := hdest.trans (accessClosed_accessKept.dmaRead n slot (src + c.done) k v)
        refine .ite _ (transferKept_stop hdest _) ?_
        split
        · next heq => rw [heq] at hread; exact transferKept_stop hread _
        · next bs w heq =>
          rw [heq] at hread
          have hwrite := hread.trans (accessClosed_accessKept.dmaWrite n slot (dst + c.done) bs w)
          split
          · next heq => rw [heq] at hwrite; exact transferKept_stop hwrite _
          · next heq =>
            rw [heq] at hwrite
            exact (transferKept_copyRun n slot src dst len fuel _ _).after hwrite rfl rfl

theorem transferKept_fillRun (n slot dst len : Nat) (pat : Word) : ∀ (fuel : Nat) (c : Chan) (s : State),
    TransferKept c s (fillRun n slot dst len pat fuel c s)
  | 0, _, s => transferKept_stop (.refl s) none
  | fuel + 1, c, s => by
    have hahead := accessKept_prefetch (rqDma n) slot (dst + c.done) (len - c.done) s
    unfold fillRun
    simp only
    generalize (List.range (min (len - c.done) (pageLeft (dst + c.done)))).map _ = bs
    have hwrite := hahead.trans (accessClosed_accessKept.dmaWrite n slot (dst + c.done) bs _)
    split
    · exact transferKept_stop (.refl s) none
    · split
      · next heq => rw [heq] at hwrite; exact transferKept_stop hwrite _
      · next heq =>
        rw [heq] at hwrite
        exact (transferKept_fillRun n slot dst len pat fuel _ _).after hwrite rfl rfl

theorem accessKept_peek (n slot va len : Nat) (s : State) : AccessKept s (peek n slot va len s).2 := by
  have hfind := accessKept_findEnt (rqDma n) slot va s
  unfold peek
  split
  · exact .refl s
  · split <;> next heq => rw [heq] at hfind; exact hfind

theorem accessKept_gatherAhead (n slot : Nat) (d : List Word) (ent last : Nat) (s : State) : AccessKept s (gatherAhead n slot d ent last s) := by
  refine (accessKept_prefetch _ _ _ _ s).trans (AccessKept.foldl (fun u e => ?_) _ _)
  have hpeek := accessKept_peek n slot (dLong d 2 + (if gIdx64 d then 8 else 4) * e) (if gIdx64 d then 8 else 4) u
  split
  · next heq =>
    rw [heq] at hpeek
    split
    · exact hpeek.trans (accessClosed_accessKept.prefetchRun _ _ _ _ _ _)
    · exact hpeek
  · next heq => rw [heq] at hpeek; exact hpeek

theorem transferKept_bagRun (n slot : Nat) (d : List Word) (o0 : Nat) : ∀ (fuel : Nat) (c : Chan) (s : State),
    TransferKept c s (bagRun n slot d o0 fuel c s)
  | 0, _, s => transferKept_stop (.refl s) none
  | fuel + 1, c, s => by
    have hread := accessClosed_accessKept.toWalkClosed.dmaRead n slot
    have hindex := (accessKept_gatherAhead n slot d (o0 + c.pos) (o0 + c.pos + fuel + 1) s).trans
      (hread (dLong d 2 + (if gIdx64 d then 8 else 4) * (o0 + c.pos)) (if gIdx64 d then 8 else 4) _)
    unfold bagRun
    simp only
    split
    · next heq => rw [heq] at hindex; exact transferKept_stop hindex _
    · next ib u heq =>
      rw [heq] at hindex
      refine .ite _ ((transferKept_bagRun n slot d o0 fuel _ u).after hindex rfl rfl) (.ite _ (transferKept_stop hindex _) ?_)
      have hweight : AccessKept s (if gWeighted d then dmaRead n slot (dLong d 14 + 4 * (o0 + c.pos)) 4 u else (.ok [], u)).2 := by
        split
        · exact hindex.trans (hread _ _ u)
        · exact hindex
      split
      · next heq => rw [heq] at hweight; exact transferKept_stop hweight _
      · next wb v heq =>
        rw [heq] at hweight
        have hrow := hweight.trans (hread (dLong d 0 + leNat ib * gStride d) (gElems d * gIn d) v)
        split
        · next heq => rw [heq] at hrow; exact transferKept_stop hrow _
        · next heq =>
          rw [heq] at hrow
          exact (transferKept_bagRun n slot d o0 fuel _ _).after hrow rfl rfl

/-- What every step of a recursion on the fuel keeps, the recursion keeps. -/
theorem brecOn_keeps {β : Type} {P : β → Prop} (f : (n : Nat) → Nat.below (motive := fun _ => β) n → β) (hzero : ∀ b, P (f 0 b))
    (hsucc : ∀ n (b : Nat.below (motive := fun _ => β) (n + 1)), P b.1 → P (f (n + 1) b)) : ∀ n, P (Nat.brecOn n f)
  | 0 => hzero _
  | n + 1 => hsucc n _ (brecOn_keeps f hzero hsucc n)

/-- The reads of a gather and the 64-bit fields of its descriptor are abstracted before its recursion is unfolded: an equation of
`gatherRun` makes the kernel evaluate a read at such a field, whose high half is multiplied by 2^32. -/
theorem transferKept_gatherRun (n slot desc : Nat) (d : List Word) (fuel : Nat) (c : Chan) (s : State) :
    TransferKept c s (gatherRun n slot desc d fuel c s) := by
  have hread := accessClosed_accessKept.toWalkClosed.dmaRead n slot
  delta gatherRun gatherRun._f
  obtain ⟨read, hreads⟩ : ∃ r, dmaRead n slot = r := ⟨_, rfl⟩
  obtain ⟨long, hlong⟩ : ∃ l, dLong d = l := ⟨_, rfl⟩
  rw [hreads] at hread ⊢
  rw [hlong]
  refine brecOn_keeps (P := fun r : Chan → State → (Chan × Option Stop) × State => ∀ c s, TransferKept c s (r c s)) _
    (fun _ c s => transferKept_stop (.refl s) none) (fun fuel go ih c s => ?_) fuel c s
  have hbag := hread (long 4 + 4 * c.done) 8 s
  simp only
  split
  · next heq => rw [heq] at hbag; exact transferKept_stop hbag _
  · next ob u heq =>
    rw [heq] at hbag
    refine .ite _ (transferKept_stop hbag _) ?_
    have hrun := (transferKept_bagRun n slot d (leNat (ob.take 4)) (leNat (ob.drop 4) - leNat (ob.take 4) - c.pos) c u).after hbag rfl rfl
    split
    · next heq => rw [heq] at hrun; exact hrun
    · next y v heq =>
      rw [heq] at hrun
      have hwrite := hrun.access.trans (accessClosed_accessKept.dmaWrite n slot (long 6 + y.done * gElems d * gOut d) (bagOut d y).1 v)
      split
      · next heq => rw [heq] at hwrite; exact ⟨hwrite, hrun.job, hrun.slot⟩
      · next heq =>
        rw [heq] at hwrite
        exact (ih _ _).after hwrite hrun.job hrun.slot

theorem transferKept_chanRun (n : Nat) (c : Chan) (s : State) : TransferKept c s (chanRun n c s) := by
  unfold chanRun
  split
  · exact transferKept_stop (.refl s) _
  · split
    · exact transferKept_copyRun ..
    · exact transferKept_fillRun ..
    · next desc _ =>
      have hdesc := accessClosed_accessKept.toWalkClosed.dmaRead n c.slot desc 64 s
      split
      · split
        · next heq => rw [heq] at hdesc; exact transferKept_stop hdesc _
        · next heq =>
          rw [heq] at hdesc
          simp only
          split
          · exact transferKept_stop hdesc _
          · exact (transferKept_gatherRun ..).after hdesc rfl rfl
      · exact transferKept_gatherRun ..

/-! ## The channel that a transfer takes (R470) -/

/-- Channel `c` has the transfer of `ch` with its progress, and the other channels are as they were. -/
structure ChanPut (c : Nat) (ch : Chan) (s t : State) : Prop where
  chan : ∃ y, t.dma.chans = tabSet c y s.dma.chans ∧ y.job = ch.job ∧ y.slot = ch.slot ∧ y.xfer = ch.xfer ∧ y.done = ch.done
  fe : t.fe = s.fe
  waiting : t.dma.waiting = s.dma.waiting

theorem chanPut_self (c : Nat) (ch : Chan) (s : State) : ChanPut c ch s (setChan c ch s) := ⟨⟨ch, rfl, rfl, rfl, rfl, rfl⟩, rfl, rfl⟩

section
variable {c : Nat} {ch : Chan} {s t u : State}

theorem AccessKept.chanPut (h : AccessKept s t) (h' : ChanPut c ch t u) : ChanPut c ch s u where
  chan := by rw [← h.dma]; exact h'.chan
  fe := h'.fe.trans h.fe
  waiting := by rw [h'.waiting, h.dma]

theorem ChanPut.issued (h : ChanPut c ch s t) {p : Pci} {o : List OutEvent} (hu : u = { t with pci := p, out := o }) : ChanPut c ch s u := by
  subst hu
  exact ⟨h.chan, h.fe, h.waiting⟩

theorem ChanPut.chanOf_self (h : ChanPut c ch s t) :
    ∃ y, chanOf c t = some y ∧ y.job = ch.job ∧ y.slot = ch.slot ∧ y.xfer = ch.xfer ∧ y.done = ch.done := by
  obtain ⟨y, hchans, hy⟩ := h.chan
  exact ⟨y, by rw [chanOf, hchans, tabFind_set_self], hy⟩

theorem ChanPut.chanOf_ne (h : ChanPut c ch s t) {d : Nat} (hd : d ≠ c) : chanOf d t = chanOf d s := by
  obtain ⟨y, hchans, -⟩ := h.chan
  rw [chanOf, hchans, tabFind_set_ne hd]
  rfl

end

/-- Looking through a copy's source changes where its reads stand. -/
theorem chanPut_chanLook (c : Nat) : ∀ (fuel : Nat) (ch : Chan) (s : State), ChanPut c ch s (chanLook c fuel ch s)
  | 0, ch, s => chanPut_self c ch s
  | fuel + 1, ch, s => by
    rw [chanLook]
    split
    case h_2 => exact chanPut_self c ch s
    case h_1 src dst len _ =>
      have hdest := accessKept_translate (rqDma (c / 16)) ch.slot (src + ch.fetched) .rd s
      split
      · exact chanPut_self c ch s
      · simp only
        split
        · next heq =>
          rw [heq] at hdest
          obtain ⟨hchan, hfe, hwaiting⟩ := chanPut_chanLook c fuel
            { ch with fetched := ch.fetched + min (len - ch.fetched) (pageLeft (src + ch.fetched)) } _
          exact hdest.chanPut ⟨hchan, hfe, hwaiting⟩
        · next heq =>
          rw [heq] at hdest
          obtain ⟨p, o, h⟩ := hostIssue_frame ch.slot _ (src + ch.fetched) _ (min (len - ch.fetched) (pageLeft (src + ch.fetched)))
            (.chan c) (setChan c ch _)
          exact hdest.chanPut ((chanPut_self c ch _).issued h)
        · next heq => rw [heq] at hdest; exact hdest.chanPut ⟨⟨_, rfl, rfl, rfl, rfl, rfl⟩, rfl, rfl⟩
        · next heq => rw [heq] at hdest; exact hdest.chanPut (chanPut_self c ch _)

theorem chanPut_chanGo (c : Nat) (ch : Chan) (s : State) : ChanPut c ch s (chanGo c ch s) := by
  suffices h : ChanPut c { ch with st := .running } s (chanGo c ch s) from ⟨h.chan, h.fe, h.waiting⟩
  unfold chanGo
  simp only
  split
  · next src dst len _ =>
    have hahead := (accessKept_prefetch (rqDma (c / 16)) ch.slot (src + ch.done) (len - ch.done) s).trans
      (accessKept_prefetch (rqDma (c / 16)) ch.slot (dst + ch.done) (len - ch.done) _)
    refine hahead.chanPut ?_
    split
    · exact chanPut_self _ _ _
    · exact chanPut_chanLook _ _ _ _
  · exact (accessKept_prefetch _ _ _ _ s).chanPut (chanPut_self _ _ _)
  · exact chanPut_self _ _ s

theorem assign_takes {n c : Nat} {w : Nat × Nat × Nat × Xfer} {s : State} (hwait : s.dma.waiting.find? (fun w => w.1 == n) = some w)
    (hfree : freeChan n s = some c) : assign n s = chanGo (n * 16 + c) { job := w.2.1, slot := w.2.2.1, xfer := w.2.2.2 }
      { s with dma := { s.dma with waiting := s.dma.waiting.erase w } } := by
  simp only [assign, hwait, hfree]

/-! ## The end of a transfer (R166) -/

theorem transferEnd_ends {n c : Nat} {x y : Chan} {s u : State} (hx : chanOf (n * 16 + c) s = some x) (hst : x.st = .running)
    (hrun : chanRun n x s = ((y, none), u)) : transferEnd n c s = chanEnd (n * 16 + c) y 0 0 0 u := by
  simp only [transferEnd, hx, hst, ne_eq, not_true, if_false, hrun]

theorem xlateFault_stops {n c : Nat} {x y : Chan} {va k l : Nat} {wr : Bool} {s u : State} (hx : chanOf (n * 16 + c) s = some x)
    (hst : x.st = .running) (hrun : chanRun n x s = ((y, some (.xl va k l wr)), u)) :
    xlateFault n c s = chanStop (n * 16 + c) y (.xl va k l wr) u := by
  simp only [xlateFault, hx, hst, ne_eq, not_true, if_false, hrun]

/-- A transfer that has finished leaves its channel free and its job ended OK. -/
theorem dmaTransferEnd_ends {n : Fin 4} {c : Fin 16} {x y : Chan} {s u : State} (hx : chanOf (chNo n c) s = some x) (hst : x.st = .running)
    (hjob : JobRuns x.job s) (hrun : chanRun n.val x s = ((y, none), u)) :
    ∃ v, exec (.dmaTransferEnd n c) s = .next (tidyMem v) ∧ ChanFreed (chNo n c) u v ∧
      (∃ b, tabFind x.job v.fe.jobs = some b ∧ b.fin = some ⟨0, 0, 0⟩) ∧ ∀ d, d ≠ chNo n c → chanOf d v = chanOf d s := by
  have hkept := transferKept_chanRun n.val x s
  rw [hrun] at hkept
  obtain ⟨haccess, hyjob, -⟩ := hkept
  have hfreed := chanFreed_chanEnd (chNo n c) y 0 0 0 u
  refine ⟨_, by rw [exec_dmaTransferEnd, transferEnd_ends hx hst hrun], hfreed, ?_, fun d hd => ?_⟩
  · rw [← hyjob]
    exact fin_chanEnd (jobRuns_of_fe (by rw [show y.job = x.job from hyjob]; exact hjob) haccess.fe) _ 0 0 0
  · rw [hfreed.chanOf_ne hd, chanOf, haccess.dma]
    rfl

/-! ## A transfer within one page (R166) -/

/-- Bytes within one page are one piece. -/
theorem pagePieces_one {va n : Nat} (hn : 0 < n) (hle : n ≤ pageLeft va) : pagePieces va n = [(va, n)] := by
  have hpage : (va + n - 1) / 4096 = va / 4096 := by
    simp only [pageLeft] at hle
    omega
  have hchunks : chunksOf 4096 va n = [va / 4096] := by
    rw [chunksOf, if_neg (by omega), hpage]
    simp [span]
  have hmax : max va (va / 4096 * 4096) = va := by omega
  have hmin : min (va + n) (va / 4096 * 4096 + 4096) - va = n := by
    simp only [pageLeft] at hle
    omega
  simp only [pagePieces, hchunks, List.map_cons, List.map_nil, hmax, hmin]

/-- A write within one page of HBM. -/
theorem dmaWrite_page {n slot va a : Nat} {bs : List Byte} {s u : State} (hpos : 0 < bs.length) (hle : bs.length ≤ pageLeft va)
    (hdest : translate (rqDma n) slot va .wr s = (.ok (.hbm a), u)) : dmaWrite n slot va bs s = (.ok (), hbmPut a bs u) := by
  simp only [dmaWrite, pagePieces_one hpos hle, List.foldl_cons, List.foldl_nil, hdest, Nat.sub_self, List.drop_zero, List.take_length]

theorem fillRun_done {n slot dst len fuel : Nat} {pat : Word} {c : Chan} {s : State} (h : len ≤ c.done) :
    fillRun n slot dst len pat fuel c s = ((c, none), s) := by
  cases fuel with
  | zero => rfl
  | succ fuel => rw [fillRun, if_pos h]

theorem copyRun_done {n slot src dst len fuel : Nat} {c : Chan} {s : State} (h : len ≤ c.done) :
    copyRun n slot src dst len fuel c s = ((c, none), s) := by
  cases fuel with
  | zero => rfl
  | succ fuel => rw [copyRun, if_pos h]

/-- The bytes of a fill pattern. -/
def patBytes (pat : Word) (len : Nat) : List Byte := (List.range len).map (fun i => BitVec.ofNat 8 (pat.toNat / 256 ^ (i % 4)))

theorem length_patBytes (pat : Word) (len : Nat) : (patBytes pat len).length = len := by simp [patBytes]

theorem chanRun_fill_page {n dst len a : Nat} {pat : Word} {x : Chan} {s u : State} (hbus : x.busErr = false) (hdone : x.done = 0)
    (hxfer : x.xfer = .fill dst len pat) (hlen : 0 < len) (hle : len ≤ pageLeft dst)
    (hdest : translate (rqDma n) x.slot dst .wr (prefetch (rqDma n) x.slot dst len s) = (.ok (.hbm a), u)) :
    ∃ y, chanRun n x s = ((y, none), hbmPut a (patBytes pat len) u) := by
  have hwrite := dmaWrite_page (bs := patBytes pat len) (by rw [length_patBytes]; exact hlen) (by rw [length_patBytes]; exact hle) hdest
  unfold patBytes at hwrite ⊢
  simp only [chanRun, hbus, Bool.false_eq_true, if_false, hxfer]
  rw [fillRun, if_neg (by omega)]
  simp only [hdone, Nat.sub_zero, Nat.add_zero, Nat.zero_add, Nat.min_eq_left hle, hwrite]
  exact ⟨_, fillRun_done (Nat.le_refl _)⟩

theorem chanRun_copy_page {n src dst len a b : Nat} {bs : List Byte} {x : Chan} {s s1 s2 s3 : State} (hbus : x.busErr = false)
    (hdone : x.done = 0) (hxfer : x.xfer = .copy src dst len) (hlen : 0 < len) (hsrc : len ≤ pageLeft src) (hdst : len ≤ pageLeft dst)
    (hfrom : translate (rqDma n) x.slot src .rd (prefetch (rqDma n) x.slot dst len (prefetch (rqDma n) x.slot src len s)) = (.ok (.hbm a), s1))
    (hread : dmaRead n x.slot src len s1 = (.ok bs, s2)) (hto : translate (rqDma n) x.slot dst .wr s2 = (.ok (.hbm b), s3))
    (hbs : bs.length = len) : ∃ y, chanRun n x s = ((y, none), hbmPut b bs s3) := by
  have hwrite := dmaWrite_page (by rw [hbs]; exact hlen) (by rw [hbs]; exact hdst) hto
  have hpiece : min len (min (pageLeft src) (pageLeft dst)) = len := by omega
  simp only [chanRun, hbus, Bool.false_eq_true, if_false, hxfer]
  rw [copyRun, if_neg (by omega)]
  simp only [hdone, Nat.sub_zero, Nat.add_zero, Nat.zero_add, hpiece, hfrom, hread, hwrite,
    Bool.false_eq_true, if_false]
  exact ⟨_, copyRun_done (Nat.le_refl _)⟩

/-- A transfer that ends with one write of HBM has written its bytes and no others. -/
theorem dmaTransferEnd_writes {n : Fin 4} {c : Fin 16} {x y : Chan} {a : Nat} {bs : List Byte} {s u : State}
    (hx : chanOf (chNo n c) s = some x) (hst : x.st = .running) (hjob : JobRuns x.job s) (hpend : s.hbc.pendInv = []) (hquiet : HbmQuiet s u)
    (hrun : chanRun n.val x s = ((y, none), hbmPut a bs u)) :
    ∃ t, exec (.dmaTransferEnd n c) s = .next t ∧ chanOf (chNo n c) t = none ∧ HbmHolds a bs s t ∧
      (∃ b, tabFind x.job t.fe.jobs = some b ∧ b.fin = some ⟨0, 0, 0⟩) := by
  obtain ⟨v, hexec, hfreed, hfin, -⟩ := dmaTransferEnd_ends hx hst hjob hrun
  exact ⟨_, hexec, hfreed.chanOf_self,
    (hbmHolds_hbmPut (hquiet hpend).1 a bs).framed hpend hquiet ⟨by rw [hfreed.mem], by rw [hfreed.hbc]⟩, hfin⟩

/-! ## A translation failure of a transfer (R159, R166) -/

theorem drained_viewEvent (fn : Nat) {k : Nat} (hk : k < 8) (slot q seq : Nat) (s : State) : Drained s (viewEvent fn k slot q seq s) :=
  (postKept_viewEvent fn hk slot q seq s).drained

/-- A failure that cannot be retried ends the transfer's job with ACCESS_FAULT; the registers, the channels of others and the front
end are those of a post. -/
theorem chanFault_ends (c : Nat) (ch : Chan) (va cause level : Nat) (wr : Bool) (s : State) :
    ∃ u, Drained s u ∧ ChanFreed c u (chanFault c ch va cause level wr s) ∧
      (JobRuns ch.job s → JobFault ch.job 0x16 va (chanFault c ch va cause level wr s)) := by
  have hview := drained_viewEvent (slotOf ch.slot s).func (k := if cause = cWriteDenied then 0 else 1) (by split <;> omega) (jobRef ch.job s).slot
    (jobRef ch.job s).queue (nextSeq (jobRef ch.job s) s) s
  have hpost := hview.trans (drained_postFault (rqDma (c / 16)) (c % 16) (jobRef ch.job s) va cause level (if wr then .wr else .rd) 0 _)
  exact ⟨_, hpost, chanFreed_chanEnd c ch 1 0x0016 va _, fun hjob => fin_chanEnd (jobRuns_of_fe hjob hpost.fe) _ _ _ _⟩

/-- A failure that can be retried stalls the channel with a new token, where the ring has room. -/
theorem chanStall_stalls {c va cause level : Nat} {ch : Chan} {wr : Bool} {s : State}
    (hen : bit (getReg pgMmu (slotOf ch.slot s).func 0x134 s) 0 = true)
    (hroom : fltHeld (slotOf ch.slot s).func s < 2 ^ fltLog2 (slotOf ch.slot s).func s - 1)
    (hposts : ∀ p ∈ s.mmu.posts, p.fn ≠ (slotOf ch.slot s).func) :
    ∃ u, PostKept u (chanStall c ch va cause level wr s) ∧ u = { s with dma := { s.dma with
      chans := tabSet c { ch with st := .stalled, va := va, wr := wr } s.dma.chans,
      token := tabSet c ((tabGet 0 c s.dma.token + 1) % 65536) s.dma.token } } := by
  have hdrain : postDrain (slotOf ch.slot s).func (nextToken c s).2 = (nextToken c s).2 := postDrain_none hposts
  have hspace : fltSpace (slotOf ch.slot s).func (nextToken c s).2 = true := fltSpace_iff.2 ⟨hen, hroom⟩
  unfold chanStall
  simp only [hen, Bool.not_true, Bool.false_eq_true, if_false, hdrain, hspace, if_true]
  exact ⟨_, postKept_fltPost _ _ _, rfl⟩

/-- Settles O33: a run of a transfer keeps all but memory, translations and counts, so its channel, its job and the other channels are
those of the state before it; a transfer within a page is one translation and one write. -/
theorem dmaTransfersRunInStreamOrder : Obligations.DmaTransfersRunInStreamOrder := by
  unfold Obligations.DmaTransfersRunInStreamOrder
  refine ⟨fun n w c s hwait hfree => ?assigned, fun n c x y s s1 hx hst hjob hrun => ?ended,
    fun n c x dst len a pat s s1 hx hst hbus hdone hjob hxfer hlen hle hpend hdest => ?filled,
    fun n c x src dst len a b bs s s0 s1 s2 s3 hx hpend hs0 hst hbus hdone hjob hxfer hlen hsrc hdst hfrom hread hto hbs => ?copied,
    fun n c x y va k l wr s s1 hx hst hjob hrun => ?failed⟩
  case assigned =>
    have hput := chanPut_chanGo (n.val * 16 + c) { job := w.2.1, slot := w.2.2.1, xfer := w.2.2.2 }
      { s with dma := { s.dma with waiting := s.dma.waiting.erase w } }
    obtain ⟨y, hy, hjob, hslot, hxfer, hdone⟩ := hput.chanOf_self
    rw [exec_dmaChannelAssign, assign_takes hwait hfree]
    exact ⟨_, y, rfl, hput.waiting, hy, hjob, hslot, hxfer, hdone, fun d hd => hput.chanOf_ne hd, hput.fe⟩
  case ended =>
    obtain ⟨v, hexec, hfreed, hfin, hothers⟩ := dmaTransferEnd_ends hx hst hjob hrun
    exact ⟨_, hexec, hfreed.chanOf_self, hfreed.sameBytes, hfin, hothers⟩
  case filled =>
    have hquiet : HbmQuiet s s1 := by
      have h := walkClosed_hbmQuiet.translate (rqDma n.val) x.slot dst .wr (prefetch (rqDma n.val) x.slot dst len s)
      rw [hdest] at h
      exact (walkClosed_hbmQuiet.prefetch _ _ _ _ s).trans h
    obtain ⟨y, hrun⟩ := chanRun_fill_page hbus hdone hxfer hlen hle hdest
    obtain ⟨t, hexec, hfree, ⟨hbytes, hkept⟩, hfin⟩ := dmaTransferEnd_writes hx hst hjob hpend hquiet hrun
    rw [length_patBytes] at hbytes hkept
    exact ⟨t, hexec, hfree, hbytes, hkept, hfin⟩
  case copied =>
    subst hs0
    have hquiet : HbmQuiet s s3 := by
      have hahead := (walkClosed_hbmQuiet.prefetch (rqDma n.val) x.slot src len s).trans
        (walkClosed_hbmQuiet.prefetch (rqDma n.val) x.slot dst len _)
      have h1 := hahead.trans (walkClosed_hbmQuiet.translate (rqDma n.val) x.slot src .rd _)
      rw [hfrom] at h1
      have h2 := h1.trans (walkClosed_hbmQuiet.dmaRead n.val x.slot src len s1)
      rw [hread] at h2
      have h3 := h2.trans (walkClosed_hbmQuiet.translate (rqDma n.val) x.slot dst .wr s2)
      rw [hto] at h3
      exact h3
    obtain ⟨y, hrun⟩ := chanRun_copy_page hbus hdone hxfer hlen hsrc hdst hfrom hread hto hbs
    obtain ⟨t, hexec, hfree, ⟨hbytes, hkept⟩, hfin⟩ := dmaTransferEnd_writes hx hst hjob hpend hquiet hrun
    rw [hbs] at hbytes hkept
    exact ⟨t, hexec, hfree, hbytes, hkept, hfin⟩
  case failed =>
    have hkept := transferKept_chanRun n.val x s
    rw [hrun] at hkept
    obtain ⟨haccess, hyjob, hyslot⟩ := hkept
    simp only at hyjob hyslot
    have hfunc : (slotOf y.slot s1).func = (slotOf x.slot s).func := by rw [hyslot, slotOf, haccess.fe]; rfl
    have hruns : JobRuns y.job s1 := jobRuns_of_fe (hyjob ▸ hjob) haccess.fe
    rw [exec_dmaXlateFault, xlateFault_stops hx hst hrun]
    refine ⟨_, rfl, fun hk => ?_, fun hk hen hroom hposts => ?_⟩
    · obtain ⟨u, -, hfreed, hfault⟩ := chanFault_ends (chNo n c) y va k l wr s1
      simp only [chanStop, hk, Bool.false_eq_true, if_false]
      exact ⟨hfreed.chanOf_self, hyjob ▸ hfault hruns⟩
    · rw [← hfunc] at hen hroom hposts
      obtain ⟨u, hpost, hu⟩ := chanStall_stalls (c := chNo n c) (va := va) (cause := k) (level := l) (wr := wr) hen hroom hposts
      simp only [chanStop, hk, if_true]
      refine ⟨?_, jobRuns_of_fe hjob ?_, ?_⟩
      · change chanOf (chNo n c) (chanStall (chNo n c) y va k l wr s1) = _
        rw [chanOf, hpost.dma, hu]
        exact tabFind_set_self _ _ _
      · change (chanStall (chNo n c) y va k l wr s1).fe = _
        rw [hpost.fe, hu]
        exact haccess.fe
      · change tabGet 0 (chNo n c) (chanStall (chNo n c) y va k l wr s1).dma.token = _
        rw [hpost.dma, hu, ← haccess.dma]
        exact tabGet_set_self _ _ _ _

end Sys2Proof.Machine

/-!
PROOFS. Channels that wait for software or for the host (R167, R170, R171).
-/
namespace Sys2Proof.Machine
open Sys2Proof.Claims

/-! ## Resumes (R167) -/

theorem exec_chResume (r : Requester) (n : Fin 4) (v : Word) (s : State) : exec (.chResume r n v) s =
    .next (tidyMem (blockWrite r (pgDma n.val) 0x100 (resumeWrite n.val v) s)) := rfl

theorem exec_atsTranslationCompletion (n : Fin 4) (c : Fin 16) (a : AtsCpl) (s : State) :
    exec (.atsTranslationCompletion n c a) s = .next (tidyMem (atsCompletion n.val c.val a s)) := rfl

theorem exec_priResponse (n : Fin 4) (c : Fin 16) (a : PriCode) (s : State) :
    exec (.priResponse n c a) s = .next (tidyMem (priResponse n.val c.val a s)) := rfl

/-- An event in a Basin view changes registers and sends at most one interrupt. -/
theorem viewEvent_frame (fn k slot q seq : Nat) (s : State) : ∃ r o, viewEvent fn k slot q seq s = { s with regs := r, out := o } := by
  unfold viewEvent sendMsix
  simp only
  split_ifs <;> exact ⟨_, _, rfl⟩

theorem resumeWrite_discards {n k : Nat} {v : Word} {x : Chan} {s : State} (hk : k = n * 16 + fld v 0 4) (hx : chanOf k s = some x)
    (h : x.st ≠ .stalled ∨ fld v 16 16 ≠ tabGet 0 k s.dma.token) : resumeWrite n v s = count32 (pgDma n) 0 0x108 s := by
  subst hk
  simp only [resumeWrite, hx]
  exact if_pos h

theorem resumeWrite_aborts {n k : Nat} {v : Word} {x : Chan} {s : State} (hk : k = n * 16 + fld v 0 4) (hx : chanOf k s = some x)
    (hst : x.st = .stalled) (htok : fld v 16 16 = tabGet 0 k s.dma.token) (hv : bit v 4 = true) :
    resumeWrite n v s = chanEnd k x 1 0x0016 x.va (viewEvent (slotOf x.slot s).func 1 (jobRef x.job s).slot (jobRef x.job s).queue
      (nextSeq (jobRef x.job s) s) s) := by
  subst hk
  simp only [resumeWrite, hx, hst, htok, hv, ne_eq, not_true, or_self, if_false, if_true]

theorem resumeWrite_goes {n k : Nat} {v : Word} {x : Chan} {s : State} (hk : k = n * 16 + fld v 0 4) (hx : chanOf k s = some x)
    (hst : x.st = .stalled) (htok : fld v 16 16 = tabGet 0 k s.dma.token) (hv : bit v 4 = false) : resumeWrite n v s = chanGo k x s := by
  subst hk
  simp only [resumeWrite, hx, hst, htok, hv, ne_eq, not_true, or_self, if_false, Bool.false_eq_true]

/-- A transfer that is no copy has no source to look through: its channel runs. -/
theorem chanGo_runs {c : Nat} {x : Chan} {s : State} (h : ∀ a b l, x.xfer ≠ .copy a b l) :
    chanOf c (chanGo c x s) = some { x with st := .running } ∧ (chanGo c x s).fe = s.fe := by
  refine ⟨?_, (chanPut_chanGo c x s).fe⟩
  unfold chanGo
  simp only
  split
  · next a b l hx => exact absurd hx (h a b l)
  · exact tabFind_set_self _ _ _
  · exact tabFind_set_self _ _ _

theorem chanGo_gather {c d : Nat} {x : Chan} (h : x.xfer = .gather d) (s : State) : chanGo c x s = setChan c { x with st := .running } s := by
  simp only [chanGo, h]

/-! ## Grants of the host (R170) -/

/-- An entry added to the shared buffer stands there; where the buffer holds fewer than eight the others stay. -/
theorem sharedAdd_does (e : TlbEnt) (s : State) : ∃ l k, sharedAdd e s = { s with mmu := { s.mmu with shared := l ++ [e] }, free := k } ∧
    (s.mmu.shared.length < 8 → l = s.mmu.shared) := by
  unfold sharedAdd
  simp only
  by_cases hlen : s.mmu.shared.length < 8
  · simp only [hlen, if_true, List.length_nil, Nat.zero_lt_succ]
    exact ⟨_, s.free, rfl, fun _ => rfl⟩
  · simp only [hlen, if_false]
    split
    · exact ⟨_, s.free, rfl, False.elim⟩
    · exact ⟨_, _, rfl, False.elim⟩

/-- The entry of a grant translates the address that was asked for, with the host's permissions. -/
theorem atsGrant_hits (slot va : Nat) (a : AtsCpl) : (atsGrant slot va a).ats = true ∧ entHit slot va (atsGrant slot va a) = true ∧
    (atsGrant slot va a).r = a.read ∧ (atsGrant slot va a).w = a.write ∧ (atsGrant slot va a).tgt = 2 ∧
    (atsGrant slot va a).untranslated = a.untranslated ∧
    (a.untranslated = true → (atsGrant slot va a).pa + (va - (atsGrant slot va a).base) = va) := by
  have hrange (size : Nat) (h : 0 < size) : va / size * size ≤ va ∧ va < va / size * size + size := by
    have := Nat.div_add_mod va size
    have := Nat.mod_lt va h
    rw [Nat.mul_comm]
    omega
  cases hu : a.untranslated with
  | false =>
    obtain ⟨hlo, hhi⟩ := hrange (2 ^ (max 12 (min 21 a.log2len))) (Nat.pow_pos (by omega))
    simp only [atsGrant, hu, Bool.false_eq_true, if_false, atsEnt, entHit, beq_self_eq_true, hlo, hhi, decide_true, Bool.and_self,
      false_implies, and_self]
  | true =>
    obtain ⟨hlo, hhi⟩ := hrange 4096 (by omega)
    simp only [atsGrant, hu, if_true, atsEnt, entHit, beq_self_eq_true, true_and, forall_const, Bool.and_eq_true, decide_eq_true_eq]
    norm_num
    omega

/-- The state of the channel's translation buffer without the ATS entries of an address. -/
def atsForgotten (slot va : Nat) (s : State) : State :=
  { s with mmu := { s.mmu with shared := s.mmu.shared.filter (fun o => !(o.ats && entHit slot va o)) } }

theorem atsCompletion_grants {n c : Nat} {a : AtsCpl} {x : Chan} {s : State} (hx : chanOf (n * 16 + c) s = some x) (hst : x.st = .atsWait)
    (ha : (if x.wr then a.write else a.read) = true) :
    atsCompletion n c a s = chanGo (n * 16 + c) x (sharedAdd (atsGrant x.slot x.va a) (atsForgotten x.slot x.va s)) := by
  simp only [atsCompletion, hx, hst, ne_eq, not_true, if_false, ha, if_true]
  rfl

theorem atsCompletion_asks {n c : Nat} {a : AtsCpl} {x : Chan} {s : State} (hx : chanOf (n * 16 + c) s = some x) (hst : x.st = .atsWait)
    (ha : (if x.wr then a.write else a.read) = false) (hpri : (slotOf x.slot s).priEn = true) :
    atsCompletion n c a s = sendPage (n * 16 + c) x s := by
  simp only [atsCompletion, hx, hst, ne_eq, not_true, if_false, ha, Bool.false_eq_true, hpri, if_true]

/-! ## Page responses (R171) -/

/-- The page request of a channel is answered. -/
def priAnswered (c : Nat) (s : State) : State := { s with mmu := { s.mmu with pri := s.mmu.pri.filter (· != c) } }

theorem find_priHold_none {l : Tab Chan} (h : ∀ e ∈ l, e.2.st ≠ .priHold) : l.find? (fun e => decide (e.2.st = .priHold)) = none :=
  List.find?_eq_none.2 (by simpa using h)

/-- Where no page request waits to be sent, Success sends the translation request again and does no more. -/
theorem priResponse_succeeds {n c : Nat} {x : Chan} {s : State} (hx : chanOf (n * 16 + c) s = some x) (hst : x.st = .priWait)
    (hnone : ∀ e ∈ s.dma.chans, e.2.st ≠ .priHold) :
    priResponse n c .success s = chanAts (n * 16 + c) x x.va x.wr (priAnswered (n * 16 + c) s) := by
  have hfind := find_priHold_none (l := (chanAts (n * 16 + c) x x.va x.wr (priAnswered (n * 16 + c) s)).dma.chans) fun e he => by
    rcases mem_tabSet he with rfl | ⟨he, -⟩
    · exact fun h => nomatch h
    · exact hnone e he
  unfold priAnswered at hfind ⊢
  simp only [priResponse, hx, hst, ne_eq, not_true, if_false, hfind]

/-- Where no page request waits to be sent, a response but Success is a failed translation and no more. -/
theorem priResponse_fails {n c : Nat} {x : Chan} {a : PriCode} {s : State} (ha : a ≠ .success) (hx : chanOf (n * 16 + c) s = some x)
    (hst : x.st = .priWait) (hnone : ∀ e ∈ s.dma.chans, e.2.st ≠ .priHold) : ∃ level,
    priResponse n c a s = chanFault (n * 16 + c) x x.va cPriFailed level x.wr (priAnswered (n * 16 + c) s) := by
  have hfind (level : Nat) := find_priHold_none
      (l := (chanFault (n * 16 + c) x x.va cPriFailed level x.wr (priAnswered (n * 16 + c) s)).dma.chans) fun e he => by
    obtain ⟨u, hdrained, hfreed, -⟩ := chanFault_ends (n * 16 + c) x x.va cPriFailed level x.wr (priAnswered (n * 16 + c) s)
    rw [hfreed.chans, tabDel_eq_filter] at he
    rcases hdrained.chans e (List.mem_of_mem_filter he) with he | he
    · exact hnone e he
    · rw [he]
      exact fun h => nomatch h
  refine ⟨leafLevel (rqDma n) x.slot x.va (priAnswered (n * 16 + c) s), ?_⟩
  unfold priAnswered at hfind ⊢
  cases a with
  | success => exact absurd rfl ha
  | invalid => simp only [priResponse, hx, hst, ne_eq, not_true, if_false, hfind]
  | failure => simp only [priResponse, hx, hst, ne_eq, not_true, if_false, hfind]

theorem sendPage_holds {c : Nat} {x : Chan} {s : State} (h : priLimit s ≤ s.mmu.pri.length) :
    sendPage c x s = setChan c { x with st := .priHold } s := if_neg (by omega)

theorem sendPage_sends {c : Nat} {x : Chan} {s : State} (h : s.mmu.pri.length < priLimit s) : sendPage c x s =
    emit (.pageRequest c (slotOf x.slot s).pasid (x.va / 4096 * 4096))
      (setChan c { x with st := .priWait } { s with mmu := { s.mmu with pri := s.mmu.pri ++ [c] } }) := if_pos h

theorem chResume_aborts {r : Requester} {n : Fin 4} {v : Word} {x : Chan} {k : Nat} {s : State} (hheard : Heard r (pgDma n.val) 0x100 s = true)
    (hk : k = n.val * 16 + fld v 0 4) (hx : chanOf k s = some x) (hst : x.st = .stalled) (htok : fld v 16 16 = tabGet 0 k s.dma.token)
    (hv : bit v 4 = true) (hjob : JobRuns x.job s) :
    ∃ t, exec (.chResume r n v) s = .next t ∧ chanOf k t = none ∧ JobFault x.job 0x16 x.va t ∧ SameBytes s t := by
  rw [exec_chResume, blockWrite_heard hheard, resumeWrite_aborts hk hx hst htok hv]
  obtain ⟨r, o, hview⟩ := viewEvent_frame (slotOf x.slot s).func 1 (jobRef x.job s).slot (jobRef x.job s).queue (nextSeq (jobRef x.job s) s) s
  rw [hview]
  have hfreed := chanFreed_chanEnd k x 1 0x0016 x.va { s with regs := r, out := o }
  exact ⟨_, rfl, hfreed.chanOf_self, fin_chanEnd (s := { s with regs := r, out := o }) hjob k 1 0x0016 x.va, hfreed.sameBytes⟩

theorem atsTranslationCompletion_grants {n : Fin 4} {c : Fin 16} {a : AtsCpl} {x : Chan} {s : State} (hx : chanOf (chNo n c) s = some x)
    (hst : x.st = .atsWait) (ha : (if x.wr then a.write else a.read) = true) (hcopy : ∀ i j l, x.xfer ≠ .copy i j l) :
    ∃ t, exec (.atsTranslationCompletion n c a) s = .next t ∧ chanOf (chNo n c) t = some { x with st := .running } ∧
      t.fe = s.fe ∧
      (∀ d, x.xfer = .gather d → t.regs = s.regs ∧ SameBytes s t ∧
        (∃ e ∈ t.mmu.shared, e.ats = true ∧ entHit x.slot x.va e = true ∧ e.r = a.read ∧ e.w = a.write ∧ e.tgt = 2 ∧
          e.untranslated = a.untranslated ∧ (a.untranslated = true → e.pa + (x.va - e.base) = x.va)) ∧
        (s.mmu.shared.length < 8 → ∀ o ∈ s.mmu.shared, ¬ (o.ats = true ∧ entHit x.slot x.va o = true) →
          o ∈ t.mmu.shared)) := by
  obtain ⟨l, k, hadd, hkeep⟩ := sharedAdd_does (atsGrant x.slot x.va a) (atsForgotten x.slot x.va s)
  rw [exec_atsTranslationCompletion, atsCompletion_grants hx hst ha]
  obtain ⟨hchan, hfe⟩ := chanGo_runs (c := n.val * 16 + c.val) (s := sharedAdd (atsGrant x.slot x.va a) (atsForgotten x.slot x.va s)) hcopy
  refine ⟨_, rfl, hchan, hfe.trans (by rw [hadd]; rfl), fun d hd => ?_⟩
  rw [chanGo_gather hd, hadd]
  refine ⟨rfl, sameBytes_tidyMem_of_eq rfl rfl rfl, ⟨_, List.mem_append_right l (List.mem_singleton_self _), atsGrant_hits x.slot x.va a⟩,
    fun hlen o ho hne => List.mem_append_left _ ?_⟩
  have hfew : (atsForgotten x.slot x.va s).mmu.shared.length < 8 := Nat.lt_of_le_of_lt (List.length_filter_le _ _) hlen
  rw [hkeep hfew]
  exact List.mem_filter.2 ⟨ho, by simpa [Classical.or_iff_not_imp_left] using hne⟩

theorem priResponse_ends {n : Fin 4} {c : Fin 16} {x : Chan} {a : PriCode} {s : State} (ha : a ≠ .success) (hx : chanOf (chNo n c) s = some x)
    (hst : x.st = .priWait) (hnone : ∀ e ∈ s.dma.chans, e.2.st ≠ .priHold) (hjob : JobRuns x.job s) :
    ∃ t, exec (.priResponse n c a) s = .next t ∧ chanOf (chNo n c) t = none ∧ JobFault x.job 0x16 x.va t ∧
      t.mmu.pri = s.mmu.pri.filter (· != chNo n c) := by
  obtain ⟨level, hfails⟩ := priResponse_fails ha hx hst hnone
  obtain ⟨u, hdrained, hfreed, hfault⟩ := chanFault_ends (chNo n c) x x.va cPriFailed level x.wr (priAnswered (chNo n c) s)
  rw [exec_priResponse, hfails]
  refine ⟨_, rfl, hfreed.chanOf_self, hfault hjob, hfreed.pri.trans ?_⟩
  rw [hdrained.mmu]
  simp [priAnswered, List.filter_filter]

/-- Settles O34: each answer sets the one channel that waited for it; where it ends the transfer the channel is freed with its page
request, and where it goes on no other unit is written. -/
theorem stalledChannelsResume : Obligations.StalledChannelsResume := by
  unfold Obligations.StalledChannelsResume
  refine ⟨fun r n v x k s hheard hk hx => ⟨fun h => ?discarded, fun hst htok hv => chResume_aborts hheard hk hx hst htok hv,
      fun hst htok hv hcopy => ?resumed⟩,
    fun n c a x s hx hst => ⟨atsTranslationCompletion_grants hx hst, fun ha hpri hfull => ?held, fun ha hpri hroom => ?sent⟩,
    fun n c x s hx hst hnone => ⟨?success, fun a ha => priResponse_ends ha hx hst hnone⟩⟩
  case discarded =>
    have halters : AltersRegs (fun k => k = rk (pgDma n.val) 0 0x108) s (count32 (pgDma n.val) 0 0x108 s) := altersRegs_addFld (by rfl) 0 32 1 s
    rw [exec_chResume, blockWrite_heard hheard, resumeWrite_discards hk hx h]
    exact ⟨_, rfl, rfl, getReg_addFld_whole (pgDma n.val) 0 0x108 1 s, halters.1, halters.regsOnly⟩
  case resumed =>
    obtain ⟨hchan, hfe⟩ := chanGo_runs (c := k) (s := s) hcopy
    rw [exec_chResume, blockWrite_heard hheard, resumeWrite_goes hk hx hst htok hv]
    exact ⟨_, rfl, hchan, hfe⟩
  case held =>
    rw [exec_atsTranslationCompletion, atsCompletion_asks hx hst ha hpri, sendPage_holds hfull]
    exact ⟨_, rfl, tabFind_set_self _ _ _, rfl, rfl, rfl, sameBytes_tidyMem_of_eq rfl rfl rfl⟩
  case sent =>
    rw [exec_atsTranslationCompletion, atsCompletion_asks hx hst ha hpri, sendPage_sends hroom]
    exact ⟨_, rfl, tabFind_set_self _ _ _, rfl, rfl, rfl, sameBytes_tidyMem_of_eq rfl rfl rfl⟩
  case success =>
    rw [exec_priResponse, priResponse_succeeds hx hst hnone]
    exact ⟨_, rfl, tabFind_set_self _ _ _, rfl, rfl, rfl, sameBytes_tidyMem_of_eq rfl rfl rfl⟩

end Sys2Proof.Machine

/-!
PROOFS. Fetch faults and the end of jobs (R168, R180, R186, R187, R195, R202, R468).
-/
namespace Sys2Proof.Machine
open Sys2Proof.Claims

/-! ## Steps of one queue (R180, R186) -/

theorem exec_fetchFault (f : Fetcher) (s : State) : exec (.fetchFault f) s = .next (tidyMem (fetchFault f s)) := rfl

theorem exec_jobComplete (j : Nat) (s : State) : exec (.jobComplete j) s = .next (tidyMem (retireTidy retireJob j s)) := rfl

/-- The jobs and the other queues are as they were, and of the slot's record all but its last use. -/
structure QueueMoved (k q : Nat) (s t : State) : Prop where
  jobs : t.fe.jobs = s.fe.jobs
  others : ∀ m n, n < 16 → ¬ (m = k ∧ n = q) → queueOf m n t = queueOf m n s
  slot : ∃ u, slotOf k t = { slotOf k s with lastUse := u }

section
variable {k q : Nat} {s t u : State}

theorem queueMoved_of_fe (h : t.fe = s.fe) : QueueMoved k q s t where
  jobs := by rw [h]
  others m n _ _ := queueOf_of_fe h m n
  slot := ⟨(slotOf k s).lastUse, slotOf_of_fe h k⟩

theorem QueueMoved.trans (h : QueueMoved k q s t) (h' : QueueMoved k q t u) : QueueMoved k q s u where
  jobs := h'.jobs.trans h.jobs
  others m n hn hne := (h'.others m n hn hne).trans (h.others m n hn hne)
  slot := by
    obtain ⟨l, hl⟩ := h.slot
    obtain ⟨l', hl'⟩ := h'.slot
    exact ⟨l', by rw [hl', hl]⟩

theorem queueMoved_setQueue (hq : q < 16) (v : Queue) (s : State) : QueueMoved k q s (setQueue k q v s) where
  jobs := rfl
  others _ _ hn hne := queueOf_setQueue_ne hq hn hne v s
  slot := ⟨(slotOf k s).lastUse, rfl⟩

theorem queueMoved_setSlot (n : Nat) (s : State) : QueueMoved k q s (setSlot k { slotOf k s with lastUse := n } s) where
  jobs := rfl
  others _ _ _ _ := rfl
  slot := ⟨n, tabGet_set_self _ _ _ _⟩

end

theorem ltrUpdate_frame (s : State) : ∃ p o, ltrUpdate s = { s with pci := p, out := o } := by
  unfold ltrUpdate
  simp only
  split
  · exact ⟨s.pci, s.out, rfl⟩
  · exact ⟨_, _, rfl⟩

theorem AccessClosed.qSync {R : State → State → Prop} (h : AccessClosed R) (k q : Nat) (s : State) : R s (qSync k q s) := by
  unfold Machine.qSync
  simp only
  split
  · exact h.refl s
  · split <;> exact h.vaWrite _ _ _ _ s

/-- A change of a queue's state, with the copy of the queue in its context. -/
theorem setQState_does {k q : Nat} (hq : q < 16) (st : Nat) (s : State) : QueueMoved k q s (setQState k q st s) ∧
    queueOf k q (setQState k q st s) = { queueOf k q s with state := st } ∧ (setQState k q st s).cpt = s.cpt ∧
    ViewStays s (setQState k q st s) := by
  have hmoved : QueueMoved k q s (setQueue k q { queueOf k q s with state := st } (setSlot k { slotOf k s with lastUse := s.fe.us } s)) :=
    (queueMoved_setSlot _ s).trans (queueMoved_setQueue hq _ _)
  generalize hv : setQueue k q { queueOf k q s with state := st } (setSlot k { slotOf k s with lastUse := s.fe.us } s) = v at hmoved
  have hqueue : queueOf k q v = { queueOf k q s with state := st } := by rw [← hv, queueOf_setQueue_self]
  have hsync := accessKept_qSync k q v
  obtain ⟨p, o, hltr⟩ := ltrUpdate_frame (qSync k q v)
  have hset : setQState k q st s = ltrUpdate (qSync k q v) := by rw [← hv]; rfl
  rw [hset, hltr]
  refine ⟨hmoved.trans (queueMoved_of_fe hsync.fe), (queueOf_of_fe hsync.fe k q).trans hqueue, hsync.cpt.trans (by rw [← hv]; rfl), ?_⟩
  exact ViewStays.trans (.of_regs (by rw [← hv]; rfl)) (accessClosed_viewStays.qSync k q v)

/-- A queue that is halted, if it is ACTIVE. -/
theorem haltQueue_does {k q : Nat} (hq : q < 16) (s : State) : QueueMoved k q s (haltQueue k q s) ∧
    queueOf k q (haltQueue k q s) = (if (queueOf k q s).state = 2 then { queueOf k q s with state := 3 } else queueOf k q s) ∧
    ViewStays s (haltQueue k q s) := by
  unfold haltQueue
  split
  · obtain ⟨hmoved, hqueue, -, hview⟩ := setQState_does hq 3 s
    exact ⟨hmoved, hqueue, hview⟩
  · exact ⟨queueMoved_of_fe rfl, rfl, .of_regs rfl⟩

/-! ## The fault of a stream's own access (R168, R468) -/

theorem leavenKept_fetcherFault (o : Owner) (va : Nat) (k : XKind) (e : AccErr) (s : State) : LeavenKept s (fetcherFault o va k e s) := by
  have hview := leavenKept_viewEvent (slotOf (ownRef o s).slot s).func 1 (ownRef o s).slot (ownRef o s).queue (nextSeq (ownRef o s) s) s
  unfold fetcherFault
  simp only
  split
  · exact hview.trans (leavenKept_postFault ..)
  · exact (hview.trans (leavenKept_takeFree _)).trans (leavenKept_postFault ..)

/-- The function's view shows the fault, and still shows the events that the views showed. -/
theorem fetcherFault_shows (o : Owner) (va : Nat) (k : XKind) (e : AccErr) (s : State) : ViewStays s (fetcherFault o va k e s) ∧
    bit (getReg pgFv (slotOf (ownRef o s).slot s).func 0x100 (fetcherFault o va k e s)) 1 = true := by
  have hview := postKept_viewEvent (slotOf (ownRef o s).slot s).func (k := 1) (by omega) (ownRef o s).slot (ownRef o s).queue
    (nextSeq (ownRef o s) s) s
  have hshows := viewEvent_shows (slotOf (ownRef o s).slot s).func (ownRef o s).slot (ownRef o s).queue (nextSeq (ownRef o s) s) s
  unfold fetcherFault
  simp only
  generalize viewEvent _ 1 _ _ _ s = v at hview hshows ⊢
  have hpost (c l : Nat) (u : State) (hu : u.regs = v.regs) : ViewStays v (postFault (ownRq o) 0 (ownRef o s) va c l k 0 u) :=
    ViewStays.trans (.of_regs hu) (drained_postFault _ _ _ _ _ _ _ _ u).view
  split
  · next c l =>
    have h := hpost c l v rfl
    exact ⟨hview.view.trans h, h _ hshows⟩
  · have h (c l : Nat) := hpost c l (takeFree v).2 rfl
    exact ⟨hview.view.trans (h _ _), h _ _ _ hshows⟩

/-! ## The record of an ended command (R186) -/

theorem accessKept_ctxAdd (slot off n : Nat) (s : State) : AccessKept s (ctxAdd slot off n s) := accessKept_hbmPut _ _ s

/-- The record of a command is written and counted, or its write fails and the queue is halted. -/
structure RecordPut (k q : Nat) (s t : State) : Prop where
  moved : QueueMoved k q s t
  queue : ∃ c st, queueOf k q t = { queueOf k q s with cplProd := c, state := st } ∧
    ((queueOf k q s).state = 2 → st = 3 ∨ (st = 2 ∧ c = ((queueOf k q s).cplProd + 1) % 2 ^ 32))

theorem writeRecord_does {k q : Nat} (hq : q < 16) (op : Nat) (irq : Bool) (r : CplRec) {s : State} (hslot : (slotOf k s).state ≠ 0) :
    RecordPut k q s (writeRecord k q op irq r s) ∧ (irq = false → ViewStays s (writeRecord k q op irq r s)) := by
  have hput := accessKept_vaWrite rqFe k ((queueOf k q s).cpl + 32 * ((queueOf k q s).cplProd % 2 ^ (queueOf k q s).cplLog2))
    (cplBytes k q op r s) s
  have hputView := accessClosed_viewStays.vaWrite rqFe k ((queueOf k q s).cpl + 32 * ((queueOf k q s).cplProd % 2 ^ (queueOf k q s).cplLog2))
    (cplBytes k q op r s) s
  unfold writeRecord
  simp only [hslot, if_false]
  split
  · next e u heq =>
    rw [heq] at hput hputView
    have hfe : (fetcherFault (.queue k q) ((queueOf k q s).cpl + 32 * ((queueOf k q s).cplProd % 2 ^ (queueOf k q s).cplLog2)) .wr e u).fe = s.fe :=
      (leavenKept_fetcherFault _ _ _ e u).1.trans hput.fe
    have hshown := (fetcherFault_shows (.queue k q) ((queueOf k q s).cpl + 32 * ((queueOf k q s).cplProd % 2 ^ (queueOf k q s).cplLog2)) .wr e u).1
    generalize fetcherFault _ _ _ e u = v at hfe hshown ⊢
    obtain ⟨hmoved, hqueue, hview⟩ := haltQueue_does (k := k) hq v
    rw [queueOf_of_fe hfe] at hqueue
    refine ⟨⟨(queueMoved_of_fe hfe).trans hmoved, (queueOf k q s).cplProd, (queueOf k q (haltQueue k q v)).state, ?_, fun h2 => .inl ?_⟩,
      fun _ => (hputView.trans hshown).trans hview⟩
    · rw [hqueue]
      split <;> rfl
    · rw [hqueue, if_pos h2]
  · next u heq =>
    rw [heq] at hput hputView
    have hadd := hput.trans (accessKept_ctxAdd k 0x50 1 u)
    have haddView : ViewStays s (ctxAdd k 0x50 1 u) := hputView.trans (accessClosed_viewStays.put _ _ u)
    generalize ctxAdd k 0x50 1 u = v at hadd haddView ⊢
    rw [queueOf_of_fe hadd.fe]
    have hsync := accessKept_qSync k q (setQueue k q { queueOf k q s with cplProd := ((queueOf k q s).cplProd + 1) % 2 ^ 32 } v)
    have hsyncView := accessClosed_viewStays.qSync k q (setQueue k q { queueOf k q s with cplProd := ((queueOf k q s).cplProd + 1) % 2 ^ 32 } v)
    have hset : QueueMoved k q s (setQueue k q { queueOf k q s with cplProd := ((queueOf k q s).cplProd + 1) % 2 ^ 32 } v) :=
      (queueMoved_of_fe hadd.fe).trans (queueMoved_setQueue hq _ v)
    have hqueue := (queueOf_of_fe hsync.fe k q).trans (queueOf_setQueue_self k q _ v)
    generalize qSync k q _ = w at hsync hsyncView hqueue ⊢
    have hdone : RecordPut k q s w :=
      ⟨hset.trans (queueMoved_of_fe hsync.fe), _, (queueOf k q s).state, hqueue, fun h2 => .inr ⟨h2, rfl⟩⟩
    cases irq with
    | false => exact ⟨hdone, fun _ => ViewStays.trans (t := v) haddView hsyncView⟩
    | true =>
      have hirq (n m : Nat) : (sendMsix n m w).fe = w.fe := ((LeavenKept.refl w).sendMsix n m).1
      obtain ⟨hmoved, c, st, hq', hst⟩ := hdone
      exact ⟨⟨hmoved.trans (queueMoved_of_fe (hirq _ _)), c, st, (queueOf_of_fe (hirq _ _) k q).trans hq', hst⟩, fun h => nomatch h⟩

/-! ## The retirement of a queue's job (R186, R187, R195, R202) -/

/-- The first error of a batch is kept for its next SIGNAL. -/
theorem noteSig_queue {k q : Nat} (hq : q < 16) (st : Nat) (s : State) : QueueMoved k q s (noteSig (.queue k q) st s) ∧
    queueOf k q (noteSig (.queue k q) st s) = { queueOf k q s with
      str := { (queueOf k q s).str with sig := if (queueOf k q s).str.sig = 0 then st else (queueOf k q s).str.sig } } := by
  have heq : noteSig (.queue k q) st s = if (queueOf k q s).str.sig = 0 then
    setQueue k q { queueOf k q s with str := { (queueOf k q s).str with sig := st } } s else s := rfl
  rw [heq]
  by_cases hsig : (queueOf k q s).str.sig = 0
  · rw [if_pos hsig, if_pos hsig]
    exact ⟨queueMoved_setQueue hq _ s, queueOf_setQueue_self _ _ _ _⟩
  · rw [if_neg hsig, if_neg hsig]
    exact ⟨queueMoved_of_fe rfl, rfl⟩

/-- A failure in the queue's present batch skips the rest of it, where the queue's policy says so. -/
theorem streamFail_queue {k q : Nat} (hq : q < 16) (no status reason : Nat) (s : State) :
    QueueMoved k q s (streamFail (.queue k q) no status reason s) ∧
    queueOf k q (streamFail (.queue k q) no status reason s) = { queueOf k q s with str := { (queueOf k q s).str with
      batchSkip := if (queueOf k q s).errPolicy && (queueOf k q s).str.batchNo == no && (queueOf k q s).str.batchSkip == none
        then some (fenceStatus status) else (queueOf k q s).str.batchSkip } } := by
  have heq : streamFail (.queue k q) no status reason s =
      if (queueOf k q s).errPolicy && (queueOf k q s).str.batchNo == no && (queueOf k q s).str.batchSkip == none then
        setQueue k q { queueOf k q s with str := { (queueOf k q s).str with batchSkip := some (fenceStatus status) } } s else s := rfl
  rw [heq]
  by_cases hskips : ((queueOf k q s).errPolicy && (queueOf k q s).str.batchNo == no && (queueOf k q s).str.batchSkip == none) = true
  · rw [if_pos hskips, if_pos hskips]
    exact ⟨queueMoved_setQueue hq _ s, queueOf_setQueue_self _ _ _ _⟩
  · rw [if_neg hskips, if_neg hskips]
    exact ⟨queueMoved_of_fe rfl, rfl⟩

/-- What a job leaves before it is removed: its record, its status for the next SIGNAL and the policy of its queue. -/
def jobNoted (b : Job) (f : JobEnd) (uj : Nat) (s : State) : State :=
  let s := settleFills s.hbc.filling s
  let s := if 0x08 ≤ opOf b.cmd ∧ opOf b.cmd ≤ 0x0A then sessSync (fld (cw b.cmd 1) 0 18) s else s
  let s := noteSig b.owner (fenceStatus f.status) (jobRecord b f uj s)
  if f.status = 0 ∨ (f.status = 2 ∧ isQueue b.owner) then s else streamFail b.owner b.batch f.status f.reason s

/-- A job and its kernel leave the machine. -/
def jobRemoved (j : Nat) (s : State) : State :=
  { s with fe := { s.fe with jobs := tabDel j s.fe.jobs }, cpt := { s.cpt with kernels := tabDel j s.cpt.kernels } }

theorem retireCore_queue {j k q : Nat} {b : Job} (hb : b.owner = .queue k q) (hrel' : isHrel b.cmd = false) (f : JobEnd) (uj : Nat) (s : State) :
    retireCore j b f uj s = restartTimer (.queue k q) (slotDrop k (jobRemoved j (jobNoted b f uj s))) := by
  have hnone (o : Owner) (u : State) : hrel o b.cmd u = u := by simp [hrel, hrel']
  unfold retireCore
  simp only [hnone, hb, ownSlot]
  unfold jobNoted
  rw [hb]
  rfl

/-- The queue of a job whose record is written. -/
theorem jobNoted_queue {k q : Nat} {b : Job} {s : State} (hq : q < 16) (hb : b.owner = .queue k q) (hslot : (slotOf k s).state ≠ 0) (f : JobEnd)
    (uj : Nat) : QueueMoved k q s (jobNoted b f uj s) ∧ ∃ c st skip,
    queueOf k q (jobNoted b f uj s) = { queueOf k q s with cplProd := c, state := st, str := { (queueOf k q s).str with
      sig := if (queueOf k q s).str.sig = 0 then fenceStatus f.status else (queueOf k q s).str.sig, batchSkip := skip } } ∧
    ((queueOf k q s).state = 2 → st = 3 ∨ (st = 2 ∧ c = ((queueOf k q s).cplProd + 1) % 2 ^ 32)) ∧
    (f.status ≠ 0 → f.status ≠ 2 → (queueOf k q s).errPolicy = true → (queueOf k q s).str.batchNo = b.batch →
      (queueOf k q s).str.batchSkip = none → skip = some (fenceStatus f.status)) := by
  have hready : AccessKept s (if 0x08 ≤ opOf b.cmd ∧ opOf b.cmd ≤ 0x0A then sessSync (fld (cw b.cmd 1) 0 18) (settleFills s.hbc.filling s)
      else settleFills s.hbc.filling s) := by
    split
    · exact (accessKept_settleFills _ s).trans (memKept_sessSync _ _).access
    · exact accessKept_settleFills _ s
  unfold jobNoted
  simp only
  generalize (if 0x08 ≤ opOf b.cmd ∧ opOf b.cmd ≤ 0x0A then _ else _) = u at hready ⊢
  obtain ⟨r, hrecord⟩ : ∃ r, jobRecord b f uj u = writeRecord k q (opOf b.cmd) (isIrq b.cmd) r u := by
    unfold jobRecord
    rw [hb]
    exact ⟨_, rfl⟩
  have hput := (writeRecord_does (k := k) hq (opOf b.cmd) (isIrq b.cmd) r (by rw [slotOf_of_fe hready.fe]; exact hslot)).1
  rw [← hrecord] at hput
  obtain ⟨hmoved, c, st, hqueue, hst⟩ := hput
  rw [queueOf_of_fe hready.fe] at hqueue hst
  generalize jobRecord b f uj u = v at hmoved hqueue ⊢
  obtain ⟨hsigMoved, hsig⟩ := noteSig_queue (k := k) hq (fenceStatus f.status) v
  rw [hqueue] at hsig
  rw [hb]
  generalize noteSig (.queue k q) (fenceStatus f.status) v = w at hsigMoved hsig ⊢
  have hnoted := ((queueMoved_of_fe hready.fe).trans hmoved).trans hsigMoved
  split
  · next hok =>
    refine ⟨hnoted, c, st, (queueOf k q s).str.batchSkip, hsig, hst, fun h0 h2 => ?_⟩
    rcases hok with h | ⟨h, -⟩
    · exact absurd h h0
    · exact absurd h h2
  · obtain ⟨hfailMoved, hfail⟩ := streamFail_queue (k := k) hq b.batch f.status f.reason w
    rw [hsig] at hfail
    exact ⟨hnoted.trans hfailMoved, c, st, _, hfail, hst, fun _ _ hpolicy hno hskip => by simp [hpolicy, hno, hskip]⟩

/-- A job's reference of its slot is dropped where the slot has others. -/
theorem slotDrop_counts {k : Nat} {s : State} (hstate : (slotOf k s).state ≠ 0) (href : 1 < (slotOf k s).refcnt) :
    slotDrop k s = setRef k ((slotOf k s).refcnt - 1) s := by
  unfold slotDrop
  simp only
  rw [if_neg (by omega), if_neg (by omega)]

theorem setRef_does (k n : Nat) (s : State) : (setRef k n s).fe.jobs = s.fe.jobs ∧ (setRef k n s).cpt = s.cpt ∧
    (slotOf k (setRef k n s)).refcnt = n ∧ ∀ m n', queueOf m n' (setRef k n s) = queueOf m n' s := by
  have hput := accessKept_hbmPut ((slotOf k s).ctx + 0x30) (toLE 4 n) (setSlot k { slotOf k s with refcnt := n, lastUse := s.fe.us } s)
  unfold setRef
  refine ⟨by rw [hput.fe]; rfl, hput.cpt, ?_, fun m n' => queueOf_of_fe hput.fe m n'⟩
  rw [slotOf_of_fe hput.fe, slotOf, setSlot]
  simp only [tabGet_set_self]

/-- A queue with nothing left to do is IDLE. -/
theorem idleCheck_queue {k q : Nat} (hq : q < 16) {s : State} (htimer : (queueOf k q s).timer = 0) :
    QueueMoved k q s (idleCheck (.queue k q) s) ∧ (idleCheck (.queue k q) s).cpt = s.cpt ∧
    ∃ st, queueOf k q (idleCheck (.queue k q) s) = { queueOf k q s with state := st } ∧
      ((queueOf k q s).state ≠ 2 → st = (queueOf k q s).state) := by
  simp only [idleCheck]
  split
  · next h =>
    obtain ⟨hstate, -⟩ := h
    obtain ⟨hmoved, hqueue, hcpt, -⟩ := setQState_does (k := k) hq 1 (setQueue k q { queueOf k q s with timer := 0 } s)
    refine ⟨(queueMoved_setQueue hq _ s).trans hmoved, hcpt, 1, ?_, fun h => absurd hstate h⟩
    rw [hqueue, queueOf_setQueue_self, ← htimer]
  · exact ⟨queueMoved_of_fe rfl, rfl, (queueOf k q s).state, rfl, fun _ => rfl⟩

theorem accessKept_jobAccounts (b : Job) (s : State) : AccessKept s (jobAccounts b s) := by
  unfold jobAccounts
  simp only
  split
  · exact .refl s
  · exact ((accessKept_ctxAdd _ _ _ s).trans (accessKept_ctxAdd _ _ _ _)).trans (accessKept_ctxAdd _ _ _ _)

theorem retireTidy_retires {j : Nat} {b : Job} {f : JobEnd} {s : State} (hb : tabFind j s.fe.jobs = some b) (hf : b.fin = some f)
    (hops : jobHasOps j s = false) (hpass : tabFind j s.tlr.passes = none) :
    retireTidy retireJob j s = retireJob j b f (toUj b.energy) (jobAccounts b s) := by
  have htidy : passTidy j s = s := by simp only [passTidy, passOf, hpass]
  simp only [retireTidy, htidy, retireWith, hb, hf, hops, Bool.false_eq_true, if_false]

theorem retireJob_retires {j k q : Nat} {b : Job} {s : State} (hq : q < 16) (hb : b.owner = .queue k q) (hhrel : isHrel b.cmd = false)
    (hstate : (slotOf k s).state ≠ 0) (href : 1 < (slotOf k s).refcnt) (f : JobEnd) (uj : Nat) :
    (retireJob j b f uj s).fe.jobs = tabDel j s.fe.jobs ∧ kernelOf j (retireJob j b f uj s) = none ∧
    (slotOf k (retireJob j b f uj s)).refcnt = (slotOf k s).refcnt - 1 ∧
    (∀ m n, n < 16 → ¬ (m = k ∧ n = q) → queueOf m n (retireJob j b f uj s) = queueOf m n s) ∧
    ∃ c st skip, queueOf k q (retireJob j b f uj s) = { queueOf k q s with
      timer := 0, cplProd := c, state := st, str := { (queueOf k q s).str with
        sig := if (queueOf k q s).str.sig = 0 then fenceStatus f.status else (queueOf k q s).str.sig, batchSkip := skip } } ∧
    ((queueOf k q s).state = 2 → st = 3 ∨ c = ((queueOf k q s).cplProd + 1) % 2 ^ 32) ∧
    (f.status ≠ 0 → f.status ≠ 2 → (queueOf k q s).errPolicy = true → (queueOf k q s).str.batchNo = b.batch →
      (queueOf k q s).str.batchSkip = none → skip = some (fenceStatus f.status)) := by
  obtain ⟨hmoved, c, st, skip, hqueue, hst, hskip⟩ := jobNoted_queue hq hb hstate f uj
  obtain ⟨l, hslot⟩ := hmoved.slot
  generalize hv : jobNoted b f uj s = v at hmoved hqueue hslot
  have hdrop : slotDrop k (jobRemoved j v) = setRef k ((slotOf k s).refcnt - 1) (jobRemoved j v) := by
    have hvslot : slotOf k (jobRemoved j v) = { slotOf k s with lastUse := l } := hslot
    rw [slotDrop_counts (by rw [hvslot]; exact hstate) (by rw [hvslot]; exact href), hvslot]
  obtain ⟨hjobs, hcpt, hcount, hqueues⟩ := setRef_does k ((slotOf k s).refcnt - 1) (jobRemoved j v)
  generalize hw : setRef k ((slotOf k s).refcnt - 1) (jobRemoved j v) = w at hdrop hjobs hcpt hcount hqueues
  have htimer : queueOf k q (restartTimer (.queue k q) w) = { queueOf k q v with timer := 0 } := by
    rw [restartTimer, queueOf_setQueue_self, hqueues]
    rfl
  have htmoved : QueueMoved k q w (restartTimer (.queue k q) w) := queueMoved_setQueue hq _ w
  obtain ⟨himoved, hicpt, st', hidle, hst'⟩ := idleCheck_queue (k := k) hq (s := restartTimer (.queue k q) w) (by rw [htimer])
  have hlast := htmoved.trans himoved
  have hretire : retireJob j b f uj s = idleCheck (.queue k q) (restartTimer (.queue k q) w) := by
    rw [retireJob, hb, retireCore_queue hb hhrel, hv, hdrop]
  rw [hretire]
  refine ⟨?jobs, ?kernel, ?count, fun m n hn hne => ?others, c, st', skip, ?queue, fun h2 => ?state, hskip⟩
  case jobs => rw [hlast.jobs, hjobs, ← hmoved.jobs]; rfl
  case kernel =>
    rw [kernelOf, hicpt]
    change tabFind j w.cpt.kernels = none
    rw [hcpt]
    exact tabFind_del_self _ _
  case count =>
    obtain ⟨l', hl'⟩ := hlast.slot
    rw [hl', hcount]
  case others => rw [hlast.others m n hn hne, hqueues]; exact hmoved.others m n hn hne
  case queue => rw [hidle, htimer, hqueue]
  case state =>
    rcases hst h2 with h3 | ⟨-, hc⟩
    · left
      rw [hst' (by rw [htimer, hqueue]; simp [h3]), htimer, hqueue]
      exact h3
    · exact .inr hc

/-! ## Steps of one batch (R219 to R221) -/

/-- The front end stays, and of a batch its issue, its first failure and what its stream skips. -/
def BatchStays (n : Nat) (s t : State) : Prop :=
  t.fe = s.fe ∧ ∀ x, batchOf n s = some x → ∃ y, batchOf n t = some y ∧ y.fail = x.fail ∧ y.issue = x.issue ∧
    y.str.batchSkip = x.str.batchSkip

theorem LeavenKept.batchStays {s t : State} (h : LeavenKept s t) (n : Nat) : BatchStays n s t := by
  refine ⟨h.1, fun x hx => ⟨x, ?_, rfl, rfl, rfl⟩⟩
  rw [batchOf, h.lvn]
  exact hx

theorem BatchStays.trans {n : Nat} {s t u : State} (h : BatchStays n s t) (h' : BatchStays n t u) : BatchStays n s u := by
  refine ⟨h'.1.trans h.1, fun x hx => ?_⟩
  obtain ⟨y, hy, hfail, hissue, hskip⟩ := h.2 x hx
  obtain ⟨z, hz, hfail', hissue', hskip'⟩ := h'.2 y hy
  exact ⟨z, hz, hfail'.trans hfail, hissue'.trans hissue, hskip'.trans hskip⟩

/-- A batch's stream is set with the same skip. -/
theorem batchStays_setStream (n : Nat) {v : Stream} {s : State} (hv : v.batchSkip = (streamOf (.batch n) s).batchSkip) :
    BatchStays n s (setStream (.batch n) v s) := by
  cases hb : batchOf n s with
  | none =>
    have hset : setStream (.batch n) v s = s := by simp only [setStream, hb]
    rw [hset]
    exact (LeavenKept.refl s).batchStays n
  | some x =>
    have hset : setStream (.batch n) v s = setBatch n { x with str := v } s := by simp only [setStream, hb]
    rw [hset]
    refine ⟨rfl, fun y hy => ?_⟩
    obtain rfl : x = y := Option.some.inj (hb.symm.trans hy)
    simp only [streamOf, hb] at hv
    exact ⟨_, tabFind_set_self _ _ _, rfl, rfl, hv⟩

theorem batchStays_bump (n : Nat) (s : State) : BatchStays n s (bump (.batch n) s) := by
  unfold bump
  simp only
  split
  · exact batchStays_setStream n rfl
  · next h => exact nomatch h
  · exact (LeavenKept.refl s).batchStays n

/-! ## The handles of a command (R197, R202) -/

theorem leavenKept_faultAt (src pg b : Nat) (s : State) : LeavenKept s (faultAt src pg b s) := by
  rw [(faultAt_does src pg b s).2]
  exact ⟨rfl, rfl, id⟩

theorem leavenKept_fnc (f : Fnc) (s : State) : LeavenKept s { s with fnc := f } := ⟨rfl, rfl, id⟩

theorem leavenKept_deliver (i st : Nat) (s : State) : LeavenKept s (deliver i st s) := ⟨rfl, rfl, id⟩

theorem leavenKept_fencePut (i : Nat) (e : FenceEnt) (s : State) : LeavenKept s (fencePut i e s) := by
  have hinj := (alters_takeInjection (R := fun _ => True) (pg := pgFnc) trivial s).leavenKept
  have hdie : LeavenKept s (dieInject pgFnc i s.fnc.recErr s).2 := by
    unfold dieInject
    split <;> next heq => rw [heq] at hinj; exact hinj
  unfold fencePut
  simp only
  exact (hdie.trans (leavenKept_fnc _ _)).trans (memKept_hbmPut _ _ _).leavenKept

theorem leavenKept_fenceDrop (i : Nat) (s : State) : LeavenKept s (fenceDrop i s).2 := by
  unfold fenceDrop
  simp only
  split
  · exact .refl s
  · split
    · exact ((leavenKept_fencePut i _ s).trans (leavenKept_deliver i 256 _)).trans (leavenKept_release _ _)
    · exact leavenKept_fencePut i _ s

/-- The entry's address is abstracted first: the kernel would evaluate it, and its high half is multiplied by 2^32. -/
theorem leavenKept_fenceFails (j : JobRef) (i : Nat) (s : State) : LeavenKept s (fenceFails j i s).2 := by
  unfold fenceFails
  split
  · exact .refl s
  · obtain ⟨a, ha⟩ : ∃ a, fenceAddr i s = a := ⟨_, rfl⟩
    have hread := (storeKept_hbmRead a 16 s).kept.leavenKept
    rw [ha]
    simp only
    obtain ⟨⟨x, u⟩, hx⟩ : ∃ r, hbmRead a 16 s = r := ⟨_, rfl⟩
    rw [hx] at hread ⊢
    have hend (bad : Bool) {v : State} (h : LeavenKept s v) : LeavenKept s
        (if (x.isNone || bad) = true then (some (accessFault rqFnc j a .rd .bus v).1, (accessFault rqFnc j a .rd .bus v).2) else (none, v)).2 := by
      split
      · exact h.trans (leavenKept_accessFault _ _ _ _ _ v)
      · exact h
    simp only
    split
    · exact hend false hread
    · exact hend true (hread.trans (leavenKept_faultAt _ _ _ u))
    · exact hend false (hread.trans (leavenKept_fnc _ u))

theorem leavenKept_cmdFence (o : Owner) (c : List Word) (s : State) : LeavenKept s (cmdFence o c s).2 := by
  unfold cmdFence nameFails
  simp only
  split_ifs
  · exact .refl s
  · exact leavenKept_fenceFails _ _ s
  · exact .refl s

theorem leavenKept_hrel (o : Owner) (c : List Word) (s : State) : LeavenKept s (hrel o c s) := by
  unfold hrel
  simp only
  split
  · exact .refl s
  · have hdrops : LeavenKept s ((handleWords c).foldl (fun u i =>
        if (meantHandle o (cw c i) u).1 = 0 then u
        else (handleDrop { ownRef o s with slot := ownSlot o s } (fld (meantHandle o (cw c i) u).1 0 16)
          (fld (meantHandle o (cw c i) u).1 16 16) u).2) s) :=
      .foldl (fun u i => .ite _ (.refl u) (leavenKept_handleDrop _ _ _ u)) _ s
    generalize List.foldl _ s (handleWords c) = u at hdrops ⊢
    have hfence := hdrops.trans (leavenKept_cmdFence o c u)
    split
    · next heq => rw [heq] at hfence; exact hfence
    · next heq =>
      rw [heq] at hfence
      split
      · exact hfence.trans (leavenKept_fenceDrop _ _)
      · exact hfence

/-- The frames of a batch's stream that have ended are left, with the handles that they name. -/
theorem batchStays_settle (n : Nat) : ∀ (fuel : Nat) (s : State), BatchStays n s (settle (.batch n) fuel s)
  | 0, s => (LeavenKept.refl s).batchStays n
  | fuel + 1, s => by
    unfold settle
    simp only
    split
    · exact (LeavenKept.refl s).batchStays n
    · split
      · exact (LeavenKept.refl s).batchStays n
      · split
        · exact batchStays_setStream n rfl
        · next f rest _ _ _ =>
          refine BatchStays.trans (batchStays_setStream n (v := { streamOf (.batch n) s with frames := rest, condSkip := 0 }) rfl) ?_
          generalize setStream (.batch n) { streamOf (.batch n) s with frames := rest, condSkip := 0 } s = u
          have hend (v : State) : batchEnd (.batch n) f.cmd v = v := by simp [batchEnd, isQueue]
          rw [hend]
          exact ((leavenKept_hrel (.batch n) f.cmd u).batchStays n).trans (batchStays_settle n fuel _)

/-- A batch counts a command as issued. -/
theorem issueNext_batch {n : Nat} {x : Batch} {s : State} (hx : batchOf n s = some x) : (issueNext (.batch n) s).fe = s.fe ∧
    ∃ start, batchOf n (issueNext (.batch n) s) = some { x with issue := x.issue + 1, start := start } := by
  simp only [issueNext, hx]
  exact ⟨rfl, _, tabFind_set_self _ _ _⟩

/-- The first failure of a batch is noted, and the rest of its present step is skipped. -/
theorem streamFail_batch {n no status reason : Nat} {x : Batch} {s : State} (hx : batchOf n s = some x) (hfail : x.fail = none) :
    (streamFail (.batch n) no status reason s).fe = s.fe ∧ ∃ y, batchOf n (streamFail (.batch n) no status reason s) = some y ∧
      y.fail = some (no, status, reason) ∧ y.issue = x.issue ∧ (x.str.batchSkip = none → y.str.batchSkip = some (fenceStatus status)) := by
  have hnote : noteFail n no status reason s = setBatch n { x with fail := some (no, status, reason) } s := by simp only [noteFail, hx, hfail]
  have hnoted : batchOf n (setBatch n { x with fail := some (no, status, reason) } s) = some { x with fail := some (no, status, reason) } :=
    tabFind_set_self _ _ _
  have hstr : streamOf (.batch n) (setBatch n { x with fail := some (no, status, reason) } s) = x.str := by simp only [streamOf, hnoted]
  unfold streamFail
  simp only [hnote, hstr]
  split
  · simp only [setStream, hnoted]
    exact ⟨rfl, _, tabFind_set_self _ _ _, rfl, rfl, fun _ => rfl⟩
  · next hskip => exact ⟨rfl, _, hnoted, rfl, rfl, fun h => absurd (by rw [h]; rfl) hskip⟩

/-! ## Fetches that fail (R168, R195, R468) -/

theorem fetchFault_queue {k : Fin 64} {q : Fin 16} {va level : Nat} {e : AccErr} {s u : State} (hfetch : fetching (.queue k.val q.val) s = true)
    (hpos : fetchPos (.queue k.val q.val) s = some (va, level)) (hread : vaRead rqFe k.val va 32 .rd s = (.error e, u)) :
    ∃ r, fetchFault (.queue k q) s =
      haltQueue k.val q.val (writeRecord k.val q.val 0xFF false r (fetcherFault (.queue k.val q.val) va .rd e u)) := by
  have hread' : vaRead (ownRq (.queue k.val q.val)) (ownSlot (.queue k.val q.val) s) va 32 .rd s = (.error e, u) := hread
  simp only [fetchFault, ownerOf, hfetch, hpos, hread', Bool.not_true, Bool.false_eq_true, if_false]
  exact ⟨_, rfl⟩

theorem fetchFault_batch {n : Fin 4} {x : Batch} {va level : Nat} {e : AccErr} {s u : State} (hfetch : fetching (.batch n.val) s = true)
    (hx : batchOf n.val s = some x) (hpos : fetchPos (.batch n.val) s = some (va, level)) (hread : vaRead rqLvn x.slot va 32 .rd s = (.error e, u)) :
    ∃ v, v = issueNext (.batch n.val) (fetcherFault (.batch n.val) va .rd e u) ∧ fetchFault (.batch n) s =
      settle (.batch n.val) 8 (bump (.batch n.val) (streamFail (.batch n.val) (failNo (.batch n.val) v) 1 (accReason e) v)) := by
  have hslot : ownSlot (.batch n.val) s = x.slot := by simp only [ownSlot, hx]
  have hread' : vaRead (ownRq (.batch n.val)) (ownSlot (.batch n.val) s) va 32 .rd s = (.error e, u) := by rw [hslot]; exact hread
  simp only [fetchFault, ownerOf, hfetch, hpos, hread', Bool.not_true, Bool.false_eq_true, if_false]
  exact ⟨_, rfl, rfl⟩

/-- A queue that fetches is ACTIVE in an ACTIVE slot. -/
theorem states_of_fetching {k q : Nat} {s : State} (h : fetching (.queue k q) s = true) : (slotOf k s).state = 1 ∧ (queueOf k q s).state = 2 := by
  simp only [fetching, ownSlot, Bool.and_eq_true, beq_iff_eq] at h
  exact h.2

theorem fetchFault_halts {k : Fin 64} {q : Fin 16} {va level : Nat} {e : AccErr} {s u : State} (hfetch : fetching (.queue k.val q.val) s = true)
    (hpos : fetchPos (.queue k.val q.val) s = some (va, level)) (hread : vaRead rqFe k.val va 32 .rd s = (.error e, u)) :
    ∃ t, exec (.fetchFault (.queue k q)) s = .next t ∧ (queueOf k.val q.val t).state = 3 ∧
      (queueOf k.val q.val t).rptr = (queueOf k.val q.val s).rptr ∧ (queueOf k.val q.val t).str = (queueOf k.val q.val s).str ∧
      OtherQueues k.val q.val s t ∧ bit (getReg pgFv (slotOf k.val s).func 0x100 t) 1 = true := by
  obtain ⟨hslot, hstate⟩ := states_of_fetching hfetch
  obtain ⟨r, heq⟩ := fetchFault_queue hfetch hpos hread
  have hkept := accessKept_vaRead rqFe k.val va 32 .rd s
  rw [hread] at hkept
  have hshows := (fetcherFault_shows (.queue k.val q.val) va .rd e u).2
  have hfe : (fetcherFault (.queue k.val q.val) va .rd e u).fe = s.fe := (leavenKept_fetcherFault _ _ _ e u).1.trans hkept.fe
  have hfunc : (slotOf (ownRef (.queue k.val q.val) u).slot u).func = (slotOf k.val s).func := congrArg Slot.func (slotOf_of_fe hkept.fe k.val)
  rw [hfunc] at hshows
  generalize fetcherFault (.queue k.val q.val) va .rd e u = v at heq hshows hfe
  obtain ⟨⟨hmoved, c, st, hqueue, hst⟩, hview⟩ := writeRecord_does (k := k.val) q.isLt 0xFF false r (s := v)
    (by rw [slotOf_of_fe hfe, hslot]; decide)
  rw [queueOf_of_fe hfe] at hqueue hst
  obtain ⟨hhalted, hhalt, hview'⟩ := haltQueue_does (k := k.val) q.isLt (writeRecord k.val q.val 0xFF false r v)
  have hend : queueOf k.val q.val (tidyMem (haltQueue k.val q.val (writeRecord k.val q.val 0xFF false r v))) =
      { queueOf k.val q.val s with cplProd := c, state := 3 } := by
    refine hhalt.trans ?_
    rw [hqueue]
    rcases hst hstate with rfl | ⟨rfl, -⟩ <;> rfl
  have hall := ((queueMoved_of_fe hfe).trans hmoved).trans hhalted
  rw [exec_fetchFault, heq]
  exact ⟨_, rfl, by rw [hend], by rw [hend], by rw [hend], ⟨hall.others, hall.jobs⟩, hview' _ (hview rfl _ hshows)⟩

theorem fetchFault_fails {n : Fin 4} {x : Batch} {va level : Nat} {e : AccErr} {s u : State} (hfetch : fetching (.batch n.val) s = true)
    (hx : batchOf n.val s = some x) (hfail : x.fail = none) (hpos : fetchPos (.batch n.val) s = some (va, level))
    (hread : vaRead rqLvn x.slot va 32 .rd s = (.error e, u)) :
    ∃ t y, exec (.fetchFault (.batch n)) s = .next t ∧ batchOf n.val t = some y ∧ y.fail = some (x.issue + 1, 1, accReason e) ∧
      y.issue = x.issue + 1 ∧ (x.str.batchSkip = none → y.str.batchSkip = some 3) ∧ t.fe.jobs = s.fe.jobs := by
  obtain ⟨v, hv, heq⟩ := fetchFault_batch hfetch hx hpos hread
  have hkept := accessKept_vaRead rqLvn x.slot va 32 .rd s
  rw [hread] at hkept
  have hfault := leavenKept_fetcherFault (.batch n.val) va .rd e u
  have hlvn := hfault.lvn.trans hkept.lvn
  have hfaulted : batchOf n.val (fetcherFault (.batch n.val) va .rd e u) = some x := by rw [batchOf, hlvn]; exact hx
  obtain ⟨hissueFe, start, hissued⟩ := issueNext_batch hfaulted
  rw [← hv] at hissueFe hissued
  have hno : failNo (.batch n.val) v = x.issue + 1 := by simp only [failNo, hissued]
  rw [hno] at heq
  obtain ⟨hfailFe, y, hy, hyfail, hyissue, hyskip⟩ := streamFail_batch (no := x.issue + 1) (status := 1) (reason := accReason e) hissued hfail
  obtain ⟨hfe, hstays⟩ := (batchStays_bump n.val (streamFail (.batch n.val) (x.issue + 1) 1 (accReason e) v)).trans (batchStays_settle n.val 8 _)
  obtain ⟨z, hz, hzfail, hzissue, hzskip⟩ := hstays y hy
  have hjobs := congrArg Fe.jobs ((((hfe.trans hfailFe).trans hissueFe).trans hfault.1).trans hkept.fe)
  rw [exec_fetchFault, heq]
  exact ⟨_, z, rfl, hz, hzfail.trans hyfail, hzissue.trans hyissue, fun h => hzskip.trans (hyskip h), hjobs⟩

/-- Settles O43: a fault of a fetch writes the queue's record and halts it, or is the first failure of its batch; a job that retires
changes only its own queue and its slot's count. -/
theorem fetchFaultsHaltAndEndedJobsRetire : Obligations.FetchFaultsHaltAndEndedJobsRetire := by
  unfold Obligations.FetchFaultsHaltAndEndedJobsRetire
  refine ⟨fun k q va level e s s1 => fetchFault_halts, fun n x va level e s s1 => fetchFault_fails,
    fun j k q b f s hb howner hq hfin hops hpass hhrel hstate href => ?_⟩
  have haccounts := (accessKept_jobAccounts b s).fe
  obtain ⟨hjobs, hkernel, hcount, hothers, c, st, skip, hqueue, hst, hskip⟩ := retireJob_retires (s := jobAccounts b s) (j := j) hq howner hhrel
    (by rw [slotOf_of_fe haccounts]; exact hstate) (by rw [slotOf_of_fe haccounts]; exact href) f (toUj b.energy)
  simp only [queueOf_of_fe haccounts, slotOf_of_fe haccounts, haccounts] at hjobs hcount hothers hqueue hst hskip
  rw [exec_jobComplete, retireTidy_retires hb hfin hops hpass]
  generalize retireJob j b f (toUj b.energy) (jobAccounts b s) = t at hjobs hkernel hcount hothers hqueue
  have hqueue' : queueOf k q (tidyMem t) = _ := hqueue
  refine ⟨_, rfl, hjobs, hkernel, hcount, by rw [hqueue'], by rw [hqueue'], by rw [hqueue'], fun h2 => ?_,
    fun h0 h2 hpolicy hno hnone => ?_, hothers⟩
  · rw [hqueue']
    exact hst h2
  · rw [hqueue']
    exact hskip h0 h2 hpolicy hno hnone

end Sys2Proof.Machine
